-- ==== Sys2Proof/Word.lean ====
section
/-! DEFINITION. The data unit of the SD48 (a symbol of 8 bits), the unit of time (TQ) and the plainest arithmetic on them (R5, R6). -/

namespace Sys2Proof

/-- A symbol: the data unit, 8 bits. -/
abbrev Byte := BitVec 8

/-- An instant or an interval in time quanta of 97.65625 ps (R6). The counter does not wrap within the service life. -/
abbrev Tq := Nat

/-- TQ in one microsecond. -/
def tqUs : Nat := 10240

/-- TQ in one millisecond. -/
def tqMs : Nat := 10240000

/-- TQ in one nanosecond-scale unit of 100 ns. -/
def tq100ns : Nat := 1024

/-- TQ in one second. -/
def tqSec : Nat := 10240000000

/-- One engine cycle in angle units (R7). -/
def auCycle : Nat := 16777216

end Sys2Proof
end

