-- ==== Sys2Proof/Syntax.lean ====
section
/-! DEFINITION. The commands that the SD48 takes from outside: one constructor per row of the table of operations and events. Every command
carries the instant `t` in TQ at which it happens; the other operands are what the row's event brings with it. -/

namespace Sys2Proof

/-- What every SOP request carries beside its message: its port, its tag, the address and UDP port it comes from (P4 and P5), the
requests outstanding on the port as it arrives, the symbols of the port's Loft share that are free (R44, R56, R92), and on P4 and P5
the UDP checksum of the datagram, 0 for none (R55). -/
structure Req where
  port : Fin 6
  tag : Nat
  peerAddr : Nat
  peerPort : Nat
  outstanding : Nat
  shareFree : Nat
  udpSum : Nat := 0
  deriving DecidableEq, Repr

/-- A SOP message as it arrives: the fields of its header and the data symbols it carries (R43, R44). -/
structure Frame where
  req : Req
  op : Nat
  index : Nat
  sub : Nat
  ctl : Nat
  len : Nat
  data : List Byte
  deriving DecidableEq, Repr

/-- A request pending at a bank of the Loft: the requester (0 to 15 lanes, 16 resampler, 17 vibration filters, 18 kink engine, 19
result writer, 20 to 25 ports, 26 to 29 cores, 30 to 45 DMA channels, 46 Lantern master), the first address, the number of
symbols, the symbols of a write, the instant it was raised, what its read meets (0 no error, 1 a single-bit error, 2 an
uncorrectable one), and whether a port reads a frame to send (R402 to R404, R410). -/
structure LoftReq where
  who : Fin 47
  addr : Nat
  size : Nat
  data : Option (List Byte)
  since : Nat
  ecc : Fin 3
  frame : Bool
  deriving DecidableEq, Repr

/-- The clock on REF_IN in the 20 us in which phase P2 looks at it: its edges and its frequency in kHz (R98). -/
structure RefClock where
  edges : Nat
  kHz : Nat
  deriving DecidableEq, Repr

/-- The references that have stayed valid: the clock on REF_IN as ref_source names it (2 to 4, below 2 for none), and the crystal
(R113). -/
structure RefsValid where
  refIn : Fin 5
  crystal : Bool
  deriving DecidableEq, Repr

/-- A command. -/
inductive Instr where
  /-- READ (R43): SOP READ request of one subindex or a range of subindices is answered with their values. -/
  | read (t : Nat) (f : Frame)
  /-- WRITE (R43): SOP WRITE request to objects that have no row of their own, applied whole or refused whole. -/
  | write (t : Nat) (f : Frame)
  /-- BLOCK_START (R67): Opens a segmented block transfer, checks access and length, and takes the read snapshot. -/
  | blockStart (t : Nat) (f : Frame)
  /-- BLOCK_DATA (R65): Carries one segment of a block transfer, checked for sequence and size, with at most 8 write segments
  outstanding. Operands: `segs` write segments are outstanding as it arrives (R66). -/
  | blockData (t : Nat) (f : Frame) (segs : Nat)
  /-- BLOCK_END (R67): Ends a block transfer, checks length, CRC and claim, and applies a staged write as one atomic write.
  Operands: `nvOk` says that a firmware bank takes the image without a failure (R96). -/
  | blockEnd (t : Nat) (f : Frame) (nvOk : Bool)
  /-- BLOCK_TIMEOUT (R66): A block transfer with no segment for 1 s is aborted. -/
  | blockTimeout (t : Nat) (p : Fin 6)
  /-- CLAIM (R68): Claims all or none of the named resource instances for the requesting port. -/
  | claim (t : Nat) (f : Frame)
  /-- RELEASE (R69): Releases all or none of the named instances held by the requesting port. -/
  | release (t : Nat) (f : Frame)
  /-- SESSION_OPEN (R58): Opens or renegotiates a session at a compatibility level with accepted feature words. -/
  | sessionOpen (t : Nat) (f : Frame)
  /-- SESSION_CLOSE (R60): Closes the port's session, putting its claims into hold. -/
  | sessionClose (t : Nat) (f : Frame)
  /-- SESSION_TIMEOUT (R60): session_timeout elapses without a valid SOP frame from the peer and the session closes. -/
  | sessionTimeout (t : Nat) (p : Fin 6)
  /-- DOZE_LIMIT (R60): A non-zero doze_limit elapses while the port dozes and the session closes. -/
  | dozeLimit (t : Nat) (p : Fin 6)
  /-- FORCE_CLOSE (R64): Device-owner command that closes the session of port n. Operands: `n` is the port whose session
  closes. -/
  | forceClose (t : Nat) (r : Req) (n : Fin 6)
  /-- CLAIM_HOLD (R70): claim_hold expires after a session close and the held resources become unowned. -/
  | claimHold (t : Nat) (p : Fin 6)
  /-- DOZE (R88): DOZE request puts the port into doze after its response is sent. -/
  | doze (t : Nat) (f : Frame)
  /-- SLEEP_N_FALL (R88): A falling SLEEP_N edge puts port P0 into doze. -/
  | sleepNFall (t : Nat)
  /-- SLEEP_N_RISE (R88): A rising SLEEP_N edge ends the doze of port P0. -/
  | sleepNRise (t : Nat)
  /-- NOTIFY_ACK (R87): Completes each listed active source in the port's notification queue and counts the others as ignored.
  -/
  | notifyAck (t : Nat) (f : Frame)
  /-- PING (R44): PING request with no data is answered, keeping the session alive. Operands: also stands for a request whose
  opcode is not in the table (R44). -/
  | ping (t : Nat) (f : Frame)
  /-- WRITE_FRAME (R47): SPI command that delivers one SOP message with CRC into the P0 receive buffer or discards it.
  Operands: the symbols after the command symbol; `cut`: SPI_CS_N rose before the last of them. -/
  | writeFrame (t : Nat) (bytes : List Byte) (cut : Bool)
  /-- READ_FRAME (R49): SPI command that reads the head of the P0 read-out queue, keeping it queued if the read is cut short.
  Operands: `clocks` symbols are clocked out after the command symbol. -/
  | readFrame (t : Nat) (clocks : Nat)
  /-- STATUS (R48): SPI STATUS transaction that returns the status symbol and clears crc_error and rx_dropped. -/
  | status (t : Nat)
  /-- CLASSICAL_DISCARD (R52): A classical CAN frame on the request identifier is discarded and counted. -/
  | classicalDiscard (t : Nat) (p : Fin 6)
  /-- BUS_OFF (R53): A CAN port enters bus-off, recovers under ISO 11898-1, and counts the event. -/
  | busOff (t : Nat) (p : Fin 6)
  /-- FRAGMENTS_DISCARDED (R55): A fragmented IPv4 datagram is discarded and counted. -/
  | fragmentsDiscarded (t : Nat) (p : Fin 6)
  /-- ARP_REQUEST (R55): An ARP request is answered by the Ethernet port's ARP responder. -/
  | arpRequest (t : Nat) (p : Fin 6) (target : Nat)
  /-- ICMP_ECHO (R55): An ICMP echo request is answered with an echo reply. -/
  | icmpEcho (t : Nat) (p : Fin 6) (target : Nat) (data : List Byte)
  /-- LINK_UP_FALL (R57): link_up of P4 or P5 falls and raises source 120. -/
  | linkUpFall (t : Nat) (p : Fin 6)
  /-- VETO_WRITE (R76): A Guardian veto write is taken ahead of the queue by the veto path and acts within 5 µs. -/
  | vetoWrite (t : Nat) (f : Frame)
  /-- GUARDIAN_LOCK (R74): Writing lock = 1 locks guardian_port, auto_lock and guardian_loss until reset. -/
  | guardianLock (t : Nat) (r : Req)
  /-- CYCLIC_ENABLE (R80): Writing enable = 1 to a cyclic frame checks its map and trigger and starts the frame. -/
  | cyclicEnable (t : Nat) (r : Req) (n : Fin 64)
  /-- CYCLIC_TIME_TRIGGER (R82): A time-triggered cyclic frame's period expires, its map is read and the frame is queued. -/
  | cyclicTimeTrigger (t : Nat) (n : Fin 64)
  /-- CYCLIC_ANGLE_TRIGGER (R82): The estimate reaches a frame's trigger angle or a slot TDC, its map is read and the frame is
  queued. Operands: `slot` is the slot whose TDC is reached, for trigger 3. -/
  | cyclicAngleTrigger (t : Nat) (n : Fin 64) (slot : Fin 24)
  /-- CYCLIC (R83): A queued cyclic frame is sent on its port, with overruns counted when a snapshot is replaced. -/
  | cyclic (t : Nat) (n : Fin 64)
  /-- MOD_TIME (R86): mod_time elapses since the oldest pending entry entered the queue, making a batch due. -/
  | modTime (t : Nat) (p : Fin 6)
  /-- NOTIFY (R86): A due batch of queue entries is sent as NOTIFY messages, or held with HATTNn asserted while the port
  dozes. -/
  | notify (t : Nat) (p : Fin 6)
  /-- ACTIVATE (R97): Command that resets the device into phase P6 with the verified inactive firmware bank selected. -/
  | activate (t : Nat) (r : Req)
  /-- REF_LOSS (R111): The selected reference ceases to be valid, the PLL switches to the RC oscillator and both domains are
  disarmed. -/
  | refLoss (t : Nat)
  /-- REF_RESTORE (R113): A reference stays valid for ref_restore_time in RC fallback and the PLL starts relocking to it.
  Operand: which have stayed valid. -/
  | refRestore (t : Nat) (refs : RefsValid)
  /-- RELOCK_DONE (R113): Relocking completes, rc_fallback clears, source 125 is raised and ports P1 to P5 are restored. -/
  | relockDone (t : Nat)
  /-- VERNIER_CALIBRATION (R107): Calibration of the vernier taps, run every 1 ms, applying its result from the next edge.
  Operands: `worst` is the largest tap error in 0.1 ps. -/
  | vernierCalibration (t : Nat) (worst : Nat)
  /-- CLEAR_FLAGS (R119): Timebase command that clears ref_lost. -/
  | clearFlags (t : Nat) (r : Req)
  /-- THRESHOLD_CROSSING (R121): The differential voltage of a wheel input crosses a threshold and changes its conditioned
  level. Operands: the level crossed and, for VR, the peak of the half-wave, in mV. -/
  | thresholdCrossing (t : Nat) (n : Fin 8) (mv : Int) (peak : Nat)
  /-- ARMING_FALLBACK (R122): No positive half-wave arms a VR input within twice the expected interval and the arming level
  falls back to upper_threshold. -/
  | armingFallback (t : Nat) (n : Fin 8)
  /-- MIN_PULSE_FILTER (R126): A wheel level change persists for the filter time and passes the minimum-pulse filter. -/
  | minPulseFilter (t : Nat) (n : Fin 8)
  /-- STALL (R133): No accepted edge by the stall deadline moves the domain to STOPPED and cancels its unstarted shots. -/
  | stall (t : Nat) (k : Fin 2)
  /-- CRANK_ABSENT (R148): No accepted crank edge within 3 × E sets crank_fault and moves the domain to CAM_ONLY or LOSS. -/
  | crankAbsent (t : Nat) (k : Fin 2)
  /-- CAM_ABSENT (R149): No accepted cam edge within 3 × E sets cam_fault, or moves a CAM_ONLY domain to LOSS. -/
  | camAbsent (t : Nat) (k : Fin 2)
  /-- CAM_SEARCH_REVS (R149): The phase is not resolved in CRANK_SYNC within cam_search_revs revolutions and cam_fault is set.
  -/
  | camSearchRevs (t : Nat) (k : Fin 2)
  /-- LOSS_DWELL (R153): loss_dwell elapses in LOSS, so the next accepted edge enters SEARCH. -/
  | lossDwell (t : Nat) (k : Fin 2)
  /-- AUX_SPEED_TIMEOUT (R161): No edge on an auxiliary input for 3 × E sets aux_speed to 0. -/
  | auxSpeedTimeout (t : Nat) (n : Fin 8)
  /-- ARM (R162): Arm command 1 arms the domain, subject to its refusal conditions. -/
  | arm (t : Nat) (r : Req) (k : Fin 2)
  /-- DISARM (R162): Arm command 2 disarms the domain and is always accepted. -/
  | disarm (t : Nat) (r : Req) (k : Fin 2)
  /-- WHEEL_CLEAR (R165): Command that zeroes a wheel input's counters and sticky bits. -/
  | wheelClear (t : Nat) (r : Req) (n : Fin 8)
  /-- DOMAIN_CLEAR (R166): Command that zeroes a domain's loss and error counters and sticky bits. -/
  | domainClear (t : Nat) (r : Req) (k : Fin 2)
  /-- LEARN_CMD_START (R176): learn_cmd = 1 starts a commanded tooth-learning run. -/
  | learnCmdStart (t : Nat) (r : Req) (k : Fin 2)
  /-- LEARN_CMD_ABORT (R179): learn_cmd = 2 aborts the learning run with learn_state 5. -/
  | learnCmdAbort (t : Nat) (r : Req) (k : Fin 2)
  /-- TABLE_COMPUTE (R177): C2 completes a new tooth error table from learn_revs qualifying revolutions, or fails it on range.
  -/
  | tableCompute (t : Nat) (k : Fin 2)
  /-- LEARN_TIMEOUT (R176): A commanded run fails with learn_state 4 after 4 × learn_revs revolutions without enough
  qualifying ones. -/
  | learnTimeout (t : Nat) (k : Fin 2)
  /-- TOOTH_TABLE_CLEAR (R200): Command that zeroes the tooth table entries and sets table_state 0 while disarmed. -/
  | toothTableClear (t : Nat) (r : Req) (k : Fin 2)
  /-- REFIT (R183): C2 finishes a harmonic refit of the cycle just ended, or the refit is discarded as skipped. Operands:
  `finished` that it is done within the cycle, `more` the linear solutions of the fit that C2 makes beyond the first four (log 58). -/
  | refit (t : Nat) (k : Fin 2) (finished : Bool) (more : Fin 5)
  /-- INERTIA_UPDATE (R188): C2 updates the effective inertia once per cycle with the feed-forward layer active. -/
  | inertiaUpdate (t : Nat) (k : Fin 2)
  /-- MARK_FREEZE (R190): An angle mark's time is frozen 40 µs before it falls. -/
  | markFreeze (t : Nat) (k : Fin 2) (mk : Fin 4)
  /-- MARK_FIRE (R190): An angle mark pulses its event line at its frozen time and records mark_time. -/
  | markFire (t : Nat) (k : Fin 2) (mk : Fin 4)
  /-- SYNTH_CLEAR (R199): Command that zeroes the synthesiser's error and refit counters and mark times. -/
  | synthClear (t : Nat) (r : Req) (k : Fin 2)
  /-- LOCK_POINT (R216): At start minus lock_lead the occurrence's start, end, channel, profile, duration and priority are
  frozen and handed to the drive. Operands: `stale`: the recomputation after the last snap is still pending. -/
  | lockPoint (t : Nat) (s : Fin 1024) (stale : Bool)
  /-- SHOT_START (R245): At the frozen start the drive runs its start checks and begins boost, or peak with skip_boost.
  Operands: `cur` is the current of the bank's present holder in threshold LSB. -/
  | shotStart (t : Nat) (s : Fin 1024) (cur : Nat)
  /-- PROGRAMMED_END (R247): At E the running phase ends and decay begins. -/
  | programmedEnd (t : Nat) (s : Fin 1024)
  /-- WRITE_APPLICATION (R224): The scheduler finishes recomputing a record write, applying it now or deferring it to the next
  occurrence. -/
  | writeApplication (t : Nat)
  /-- SHOT_CANCEL (R227): Cancel 1 cancels the shot's present occurrence unless its start edge has been released. -/
  | shotCancel (t : Nat) (r : Req) (s : Fin 1024)
  /-- SHOT_CANCEL_DISABLE (R227): Cancel 2 cancels the shot's present occurrence and sets enable to 0. -/
  | shotCancelDisable (t : Nat) (r : Req) (s : Fin 1024)
  /-- SHEAF_CANCEL (R227): Cancel 1 on a sheaf cancels every member's present occurrence. -/
  | sheafCancel (t : Nat) (r : Req) (h : Fin 512)
  /-- SHEAF_CANCEL_DISABLE (R227): Cancel 2 on a sheaf cancels every member's present occurrence and disables the sheaf. -/
  | sheafCancelDisable (t : Nat) (r : Req) (h : Fin 512)
  /-- CANCEL_ALL (R227): Command that cancels every record of the domain. -/
  | cancelAll (t : Nat) (r : Req) (k : Fin 2)
  /-- SCHED_CLEAR (R237): Command that zeroes the scheduler counters of a domain. -/
  | schedClear (t : Nat) (r : Req) (k : Fin 2)
  /-- BOOST_CURRENT_END (R245): The channel current reaches i_boost, ending boost and entering peak. -/
  | boostCurrentEnd (t : Nat) (n : Fin 48)
  /-- BOOST_TIME_END (R245): t_boost_max elapses in boost, ending the phase and setting boost_time_end. Operands: `cur` is the
  channel's current in threshold LSB. -/
  | boostTimeEnd (t : Nat) (n : Fin 48) (cur : Nat)
  /-- PEAK_END (R246): t_peak elapses and the shot passes from peak to hold. Operands: `cur` is the channel's current in
  threshold LSB. -/
  | peakEnd (t : Nat) (n : Fin 48) (cur : Nat)
  /-- REGULATION_UPPER (R249): The current reaches the upper threshold after blanking and the low side turns off. -/
  | regulationUpper (t : Nat) (n : Fin 48)
  /-- REGULATION_LOWER (R249): The current is at or below the lower threshold after t_off_min and the low side turns on. -/
  | regulationLower (t : Nat) (n : Fin 48)
  /-- DECAY_END (R248): The current falls to i_zero, the low side is off and the channel is idle. -/
  | decayEnd (t : Nat) (n : Fin 48)
  /-- DECAY_TIMEOUT (R248): t_decay_max elapses before the current reaches i_zero, and slow decay turns to fast. -/
  | decayTimeout (t : Nat) (n : Fin 48)
  /-- DEAD_TIME (R252): dead_time after one bank switch falls, the other switch rises and the taking shot enters its first
  phase. Operands: `cur` is the current of the channel whose phase begins, in threshold LSB. -/
  | deadTime (t : Nat) (b : Fin 16) (cur : Nat)
  /-- MAX_DEFER (R253): A deferred shot's wait reaches max_defer and it is dropped with defer_dropped. -/
  | maxDefer (t : Nat) (n : Fin 48)
  /-- T_READY_MAX (R305): t_ready_max elapses for a shot waiting under WAIT and it is dropped with not_ready_drop. -/
  | tReadyMax (t : Nat) (n : Fin 48)
  /-- READY_RISE (R262): The rail reaches v_target − ready_margin, ready sets and the rail's event line pulses. Operands: `mv`
  is the rail's voltage in mV. -/
  | readyRise (t : Nat) (x : Fin 2) (mv : Nat)
  /-- READY_FALL (R262): The rail falls below the ready threshold minus 1 V, ready clears and ready_falls counts. Operands:
  `mv` is the rail's voltage in mV. -/
  | readyFall (t : Nat) (x : Fin 2) (mv : Nat)
  /-- BOOST_PERIOD (R259): At the start of each switching period the boost gate turns on unless the rail is above v_target +
  0.5 V. Operands: `mv` is the rail's voltage in mV. -/
  | boostPeriod (t : Nat) (x : Fin 2) (mv : Nat)
  /-- BOOST_GATE_OFF (R259): The boost gate turns off on the loop demand, i_limit or max_duty. Operands: `limit`: the sense
  voltage alone reached i_limit. -/
  | boostGateOff (t : Nat) (x : Fin 2) (limit : Bool)
  /-- RAIL_ENABLE (R260): Writing rail_enable = 1 starts a soft start, or completes it at once if the rail is already high. -/
  | railEnable (t : Nat) (r : Req) (x : Fin 2)
  /-- RAIL_DISABLE (R260): Writing rail_enable = 0 stops further boost pulses and clears enabled, soft_start and ready. -/
  | railDisable (t : Nat) (r : Req) (x : Fin 2)
  /-- SOFT_START_DONE (R260): The loop reference reaches v_target and soft start ends. Operands: `mv` is the rail's voltage in
  mV. -/
  | softStartDone (t : Nat) (x : Fin 2) (mv : Nat)
  /-- MAP_LOCK (R240): Writing map_lock = 1 makes the bank's map and boost_sel read-only until reset. -/
  | mapLock (t : Nat) (r : Req) (b : Fin 16)
  /-- CHANNEL_CLEAR (R269): Command that zeroes a channel's shot, defer, drop, displacement and chop counters. -/
  | channelClear (t : Nat) (r : Req) (n : Fin 48)
  /-- BANK_CLEAR (R270): Command that zeroes a bank's defer, drop and displacement counters. -/
  | bankClear (t : Nat) (r : Req) (b : Fin 16)
  /-- BOOST_CLEAR (R271): Command that zeroes last_recharge and ready_falls of a boost controller. -/
  | boostClear (t : Nat) (r : Req) (x : Fin 2)
  /-- OPEN_LOAD (R303): At t_open into the first active phase the current is below open_thresh and the shot ends in fast
  decay. Operands: `cur` is the channel's current in threshold LSB. -/
  | openLoad (t : Nat) (n : Fin 48) (cur : Nat)
  /-- SHORT_TO_BATTERY (R303): Over-current or desaturation turns the low side off, ends the shot and inhibits the channel.
  Operands: `desat`: found by the drain, not by the current. -/
  | shortToBattery (t : Nat) (n : Fin 48) (desat : Bool)
  /-- SHORT_TO_GROUND (R303): A low drain with the bank on for t_sg turns the bank off, ends member shots and inhibits the
  channel. -/
  | shortToGround (t : Nat) (n : Fin 48)
  /-- BANK_SWITCH_FAILURE (R303): A bank gate fault or leakage current fails the bank and ends its member shots. Operands: 0
  BHB gate fault, 1 BHS gate fault, 2 current with both switches off. -/
  | bankSwitchFailure (t : Nat) (b : Fin 16) (kind : Fin 3)
  /-- TEMPERATURE_SAMPLE (R303): Every 100 µs the driver and die temperatures are sampled against their thresholds. Operands:
  driver sensors of the banks, power die and core die in degrees C. -/
  | temperatureSample (t : Nat) (drivers : List Int) (power : Int) (core : Int)
  /-- BOOST_OVER_VOLTAGE (R303): v_rail above its threshold for 2 µs sets ov and drops the rail's shots at start. Operands:
  `mv` is the rail's voltage in mV. -/
  | boostOverVoltage (t : Nat) (x : Fin 2) (mv : Nat)
  /-- BOOST_FAULT (R303): ready stays 0 for ready_timeout after soft start and boost_fault is set. -/
  | boostFault (t : Nat) (x : Fin 2)
  /-- KEEP_ALIVE (R22): The core die sends a keep-alive on the die link at least every 200 ns while a drive group is armed. -/
  | keepAlive (t : Nat)
  /-- DIE_LINK_LOSS (R22): No keep-alive for 1 µs withdraws the arm handshake, ends running shots and holds all gates off. -/
  | dieLinkLoss (t : Nat)
  /-- ARM_N_RISE (R300): ARM_N rising past its filter drives every gate low and blocks shot starts while domains stay armed.
  -/
  | armNRise (t : Nat)
  /-- ARM_N_FALL (R300): ARM_N falls, starting the 2 µs release interval. -/
  | armNFall (t : Nat)
  /-- ARM_N_RELEASE (R300): 2 µs after ARM_N falls the start checks stop treating ARM_N as high. -/
  | armNRelease (t : Nat)
  /-- KILL_N_FALL (R301): KILL_N falling drives every gate low, disarms both domains and clears both rail_enable. -/
  | killNFall (t : Nat)
  /-- KILL_N_RISE (R301): KILL_N rising pulses EVT123 and re-arms nothing. -/
  | killNRise (t : Nat)
  /-- CHANNEL_CLEAR_FAULT (R306): clear_fault lifts a channel's inhibit until the next shot retests it. -/
  | channelClearFault (t : Nat) (r : Req) (n : Fin 48)
  /-- BANK_CLEAR_FAULT (R306): clear_fault lifts a bank's failed state until the next shot retests it. -/
  | bankClearFault (t : Nat) (r : Req) (b : Fin 16)
  /-- CHANNEL_DIAG_CLEAR (R314): Command that zeroes a channel's diagnostic counters and sticky bits. -/
  | channelDiagClear (t : Nat) (r : Req) (n : Fin 48)
  /-- BANK_DIAG_CLEAR (R315): Command that zeroes a bank's failure and over-temperature counters and sticky bits. -/
  | bankDiagClear (t : Nat) (r : Req) (b : Fin 16)
  /-- BOOST_DIAG_CLEAR (R316): Command that zeroes over-voltage counts, max_v_rail and boost_fault. -/
  | boostDiagClear (t : Nat) (r : Req) (x : Fin 2)
  /-- DRIVE_PROTECTION_CLEAR (R317): Command that zeroes arm_blocked, kill_events, link_losses and the sticky bits. -/
  | driveProtectionClear (t : Nat) (r : Req)
  /-- DRIVE_GROUP_IDLE (R308): A drive group reaches idle after its reset request and is reset under the active clamp. -/
  | driveGroupIdle (t : Nat)
  /-- DRIVE_RESET_TIMEOUT (R308): The idle timeout elapses, the group is reset, running shots are cut and drive_reset_timeout
  is set. -/
  | driveResetTimeout (t : Nat)
  /-- CAPTURE_START (R273): A capture lane begins recording its reserved interval on the channel's DSN input. -/
  | captureStart (t : Nat) (k : Fin 16)
  /-- LANE_OVERRUN (R274): A lane FIFO overflow abandons the capture and counts an overrun. -/
  | laneOverrun (t : Nat) (k : Fin 16)
  /-- CAPTURE_END (R275): A capture interval ends and the lane's crossbar may move to a new input. Operands: the capture's
  12-bit samples. -/
  | captureEnd (t : Nat) (k : Fin 16) (xs : List Nat)
  /-- KINK_SEARCH (R284): At the end of the search window the kink engine finds and refines the closing instant. -/
  | kinkSearch (t : Nat) (k : Fin 16)
  /-- RESULT_WRITE (R286): The closure result record is written to the Loft and the channel object within 50 µs. -/
  | resultWrite (t : Nat) (n : Fin 48)
  /-- SHOT_LEARNING (R288): C3 processes a result of a hydraulic shot and updates the trim of its channel and role. -/
  | shotLearning (t : Nat) (n : Fin 48)
  /-- RESET_LEARNING (R291): Command that sets the named roles' trims to trim_init and learn_state to 0. -/
  | resetLearning (t : Nat) (r : Req) (n : Fin 48) (mask : Nat)
  /-- CLOSURE_CLEAR (R296): Command that zeroes a channel's closure counters. -/
  | closureClear (t : Nat) (r : Req) (n : Fin 48)
  /-- LANE_HOLD (R297): hold = 1 holds the lane and its buffer after the present capture. -/
  | laneHold (t : Nat) (r : Req) (k : Fin 16)
  /-- LANE_RELEASE (R297): hold = 2 releases a held lane. -/
  | laneRelease (t : Nat) (r : Req) (k : Fin 16)
  /-- LANE_CLEAR (R297): Command that zeroes a lane's capture and overrun counters. -/
  | laneClear (t : Nat) (r : Req) (k : Fin 16)
  /-- PRESSURE_SAMPLE (R318): All 24 pressure converters deliver a stamped sample, which the resampler processes. Operands:
  the 24 converter codes. -/
  | pressureSample (t : Nat) (codes : List Int)
  /-- CYCLE_RESULTS (R328): C2 computes and writes the per-cycle pressure results of a complete cycle. -/
  | cycleResults (t : Nat) (c : Fin 24)
  /-- PRESSURE_CLEAR (R338): Command that zeroes a pressure channel's cycle and clip counters and sticky bits. -/
  | pressureClear (t : Nat) (r : Req) (c : Fin 24)
  /-- VIBRATION_SAMPLE (R330): A vibration converter delivers a sample, which runs through the band filters. -/
  | vibrationSample (t : Nat) (v : Fin 8) (code : Int)
  /-- VIBRATION_CLEAR (R339): Command that zeroes a vibration channel's clips, exceeds and sticky bits. -/
  | vibrationClear (t : Nat) (r : Req) (v : Fin 8)
  /-- LIVE_TRANSITION (R340): A comparator's live output changes as its input crosses a switching level. -/
  | liveTransition (t : Nat) (n : Fin 16) (lower : Bool) (level : Bool)
  /-- BLANKING_WINDOW_OPEN (R349): A pulse on blank_line opens, or restarts, the pair's blanking window. -/
  | blankingWindowOpen (t : Nat) (n : Fin 16)
  /-- BLANKING_WINDOW_CLOSE (R348): The blanking window closes on its length or end pulse and differing outputs are reported.
  -/
  | blankingWindowClose (t : Nat) (n : Fin 16)
  /-- COMPARATOR_CLEAR (R358): Command that zeroes the toggle counters and toggle_sat. -/
  | comparatorClear (t : Nat) (r : Req) (n : Fin 16)
  /-- RAMP_RESET (R351): A pulse on reset_line returns the ramp output to v_start. -/
  | rampReset (t : Nat) (k : Fin 4)
  /-- RAMP_START (R351): Command that returns the ramp output to v_start now. -/
  | rampStart (t : Nat) (r : Req) (k : Fin 4)
  /-- RAMP_END (R351): The ramp reaches v_end and holds or restarts by ramp_mode. -/
  | rampEnd (t : Nat) (k : Fin 4)
  /-- TIMER_TICK (R362): A timer tick advances the prescaler and count of a running timer. -/
  | timerTick (t : Nat) (n : Fin 32)
  /-- PERIOD_END (R365): The count reaches the period and wraps or ends with act_period. -/
  | periodEnd (t : Nat) (n : Fin 32)
  /-- COMPARE_MATCH (R363): A compare unit fires on its value and performs its action list. -/
  | compareMatch (t : Nat) (n : Fin 32) (u : Fin 2)
  /-- TIMER_ARM (R361): cmd 1 arms the timer. -/
  | timerArm (t : Nat) (r : Req) (n : Fin 32)
  /-- TIMER_START (R361): cmd 2 arms and starts the timer. -/
  | timerStart (t : Nat) (r : Req) (n : Fin 32)
  /-- TIMER_STOP (R361): cmd 3 stops the timer and leaves it idle with its count held. -/
  | timerStop (t : Nat) (r : Req) (n : Fin 32)
  /-- START_INPUT (R361): A start_line pulse or a linked start starts an armed timer that is not running. -/
  | startInput (t : Nat) (n : Fin 32)
  /-- RESET_INPUT (R362): A reset_line pulse or a linked reset makes a tick with new count 0. -/
  | resetInput (t : Nat) (n : Fin 32)
  /-- CAPTURE_RISE (R369): A rise on the capture input records rise_time, rise_period and rise_count and performs act_rise. -/
  | captureRise (t : Nat) (n : Fin 32)
  /-- CAPTURE_FALL (R369): A fall on the capture input records fall_time and width and performs act_fall. -/
  | captureFall (t : Nat) (n : Fin 32)
  /-- TIMER_CLEAR (R376): Command that zeroes a timer's capture counters and sticky bits. -/
  | timerClear (t : Nat) (r : Req) (n : Fin 32)
  /-- GSTART_RELEASE (R368): A release command starts or resets the named timers on one tick. -/
  | gstartRelease (t : Nat) (r : Req) (mask : Nat)
  /-- GSTART_LINE (R368): A pulse on the GSTART line releases the timers in line_mask. -/
  | gstartLine (t : Nat)
  /-- ROUTE_CLEAR (R378): Command that zeroes a line's pulse, merge and suppression counters. -/
  | routeClear (t : Nat) (r : Req) (line : Fin 256)
  /-- LANTERN_TICK (R383): A bit-clock tick makes the engine fetch or continue and execute its instruction. Operands: `pins`
  holds the levels of the LPIN balls. -/
  | lanternTick (t : Nat) (e : Fin 8) (pins : Nat)
  /-- FIFO_TRANSFER (R388): The Lantern master moves up to 4 symbols between a FIFO and its Loft ring. -/
  | fifoTransfer (t : Nat) (e : Fin 8) (tx : Bool)
  /-- LANTERN_ENABLE (R380): Writing enable = 1 checks the pin group and program and starts the engine at its idle levels. -/
  | lanternEnable (t : Nat) (r : Req) (e : Fin 8)
  /-- LANTERN_DISABLE (R381): Writing enable = 0 stops the engine and returns its pins to the pull-up within 1 µs. -/
  | lanternDisable (t : Nat) (r : Req) (e : Fin 8)
  /-- PROGRAM_WRITE (R394): A program memory write is checked and applied whole between two fetches. Operands: the words for
  the addresses from `first` on. -/
  | programWrite (t : Nat) (r : Req) (e : Fin 8) (first : Fin 32) (words : List Nat)
  /-- INJECT (R395): Command that queues one instruction for injection into an enabled engine. -/
  | inject (t : Nat) (r : Req) (e : Fin 8) (word : Nat)
  /-- INJECTION (R395): The injected instruction reaches the engine and executes, after or in place of the instruction in IR.
  Operands: `pins` holds the levels of the LPIN balls. -/
  | injection (t : Nat) (e : Fin 8) (pins : Nat)
  /-- LANTERN_CLEAR (R400): Command that zeroes an engine's overrun, overflow, underflow and stall counters. -/
  | lanternClear (t : Nat) (r : Req) (e : Fin 8)
  /-- LOFT_ACCESS (R402): A bank arbiter grants one access, which reads or writes part of one word atomically. Operands: the
  requests pending at the bank. -/
  | loftAccess (t : Nat) (bank : Fin 8) (reqs : List LoftReq)
  /-- SCRUB (R405): The scrubber takes a bank slot to read and correct the next word. Operands: 0 no error, 1 a single-bit
  error, 2 an uncorrectable one. -/
  | scrub (t : Nat) (bank : Fin 8) (ecc : Fin 3)
  /-- WINDOW (R414): Read or write of the requesting port's Loft window. -/
  | window (t : Nat) (f : Frame)
  /-- LOFT_CLEAR (R427): Command that zeroes the ECC, scrub and wait statistics. -/
  | loftClear (t : Nat) (r : Req)
  /-- DMA_ARM (R418): cmd 1 tests the descriptor and arms the channel. -/
  | dmaArm (t : Nat) (r : Req) (c : Fin 16)
  /-- DMA_ARM_START (R418): cmd 2 tests the descriptor, arms and starts the channel. -/
  | dmaArmStart (t : Nat) (r : Req) (c : Fin 16)
  /-- DMA_STOP (R422): cmd 3 stops the channel after its outstanding responses and sets aborted. -/
  | dmaStop (t : Nat) (r : Req) (c : Fin 16)
  /-- DMA_START_PULSE (R418): A pulse on start_line starts an armed channel that is not running. -/
  | dmaStartPulse (t : Nat) (c : Fin 16)
  /-- PACE_PULSE (R419): A pulse on pace_line adds one credit, up to 255. -/
  | pacePulse (t : Nat) (c : Fin 16)
  /-- DMA_PAUSE (R420): Writing pause stops or resumes the channel's issue of new accesses. -/
  | dmaPause (t : Nat) (r : Req) (c : Fin 16) (on : Bool)
  /-- DMA_ELEMENT (R415): A running channel copies one element, waiting for credit or its ring. Operands: `ecc`: the read
  meets an uncorrectable error. -/
  | dmaElement (t : Nat) (c : Fin 16) (ecc : Bool)
  /-- DMA_COMPLETE (R422): The last element's write response returns, runs counts, EVT224 + c pulses and restart applies. -/
  | dmaComplete (t : Nat) (c : Fin 16)
  /-- DMA_CLEAR (R428): Command that zeroes runs, pace_lost and the sticky bits. -/
  | dmaClear (t : Nat) (r : Req) (c : Fin 16)
  /-- PRESENTATION (R435): The controller presents the highest-priority pending source to a core whose stack allows it. -/
  | presentation (t : Nat) (c : Fin 4)
  /-- CORE_TAKE (R435): A core takes the presented source, which becomes active and is pushed on its stack. -/
  | coreTake (t : Nat) (c : Fin 4)
  /-- CORE_COMPLETE (R435): A core completes a source, popping it from the top of its stack. -/
  | coreComplete (t : Nat) (c : Fin 4) (src : Fin 128)
  /-- STACK_RESET (R439): Command that empties a frozen stack and makes its sources pending again. -/
  | stackReset (t : Nat) (r : Req) (c : Fin 4)
  /-- ROUTE_LOCK (R432): Writing lock = 1 makes every interrupt route read-only until reset. -/
  | routeLock (t : Nat) (r : Req)
  /-- IRQ_CLEAR (R451): Command that zeroes the controller's fault count. -/
  | irqClear (t : Nat) (r : Req)
  /-- STACK_CLEAR (R452): Command that zeroes a core stack's ignored and fault counters. -/
  | stackClear (t : Nat) (r : Req) (c : Fin 4)
  /-- WATCH_FIRE (R441): A live Nightlight watch fires, powers wake_domains, drives HATTN and logs a wake record. -/
  | watchFire (t : Nat) (w : Fin 16)
  /-- HATTN_RELEASE (R442): The Nightlight releases HATTNn at the first valid frame or after hattn_hold. -/
  | hattnRelease (t : Nat) (p : Fin 6)
  /-- SEND (R445): The sender writes a message to a mailbox, which sets full and raises the full source. -/
  | send (t : Nat) (r : Req) (m : Fin 32) (data : List Byte)
  /-- TAKE (R446): The receiver reads take, which returns the word and clears full. -/
  | take (t : Nat) (r : Req) (m : Fin 32)
  /-- PAIR_LOCK (R444): Writing pair_lock = 1 makes mailbox and doorbell pairs and src_cfg read-only until reset. -/
  | pairLock (t : Nat) (r : Req)
  /-- RING (R448): The ringer sets the named doorbells and raises their sources. -/
  | ring (t : Nat) (r : Req) (mask : Nat)
  /-- ANSWER (R448): The answerer clears the named doorbells. -/
  | answer (t : Nat) (r : Req) (mask : Nat)
  /-- POWER_ON (R456): VSUP below 4.5 V for 10 µs asserts reset and restarts at phase P1. -/
  | powerOn (t : Nat)
  /-- BROWN_OUT (R456): A switched rail below its threshold for 2 µs restarts at P2 or resets its domain. -/
  | brownOut (t : Nat) (d : Fin 14)
  /-- RESET_N (R456): RESET_N low for 1 µs asserts reset, restarting at P2 when it rises. -/
  | resetN (t : Nat)
  /-- WATCHDOG (R456): A core's watchdog unserviced for 50 ms restarts the device or the core. -/
  | watchdog (t : Nat) (c : Fin 4)
  /-- PHASE_P1 (R461): Supply ramp and power-on completes. -/
  | phaseP1 (t : Nat)
  /-- PHASE_P2 (R461): Reference selection, PLL lock and vernier calibration complete. Operands: the clock that
  REF_IN shows in the first 20 us, whether the crystal is valid within 5 ms, and the largest tap error in 0.1 ps. -/
  | phaseP2 (t : Nat) (refIn : RefClock) (crystal : Bool) (worst : Nat)
  /-- OPT_CONVERSION (R463): In P3 an OPT conversion runs every 100 µs until three consecutive codes agree. -/
  | optConversion (t : Nat) (code : Fin 16)
  /-- PHASE_P3 (R461): Option sense and strap sampling complete. Operands: the levels of the straps ETH4_MS and ETH5_MS and of
  TESTMODE. -/
  | phaseP3 (t : Nat) (ms4 : Bool) (ms5 : Bool) (testmode : Bool)
  /-- PHASE_P4 (R461): Trims and options load from the factory area or from defaults. -/
  | phaseP4 (t : Nat)
  /-- PHASE_P5 (R470): Rails and power domains come up in order and the Loft is cleared. Operands: the rail or domain that is
  not good, if any. -/
  | phaseP5 (t : Nat) (bad : Option (Fin 14))
  /-- PHASE_P6 (R478): The boot record is read and a verified firmware image is booted, with fallback. Operands: whether bank
  A and bank B read back intact. -/
  | phaseP6 (t : Nat) (okA : Bool) (okB : Bool)
  /-- PHASE_P7 (R480): Persistent and learned banks are restored, and lock bits are applied at the end. -/
  | phaseP7 (t : Nat)
  /-- PHASE_P8 (R462): The device is ready and disarmed, ports serve and cyclic frames start. -/
  | phaseP8 (t : Nat)
  /-- HOLD_RELEASE_SCHEDULES (R464): hold_release = 1 re-checks and applies the saved shot and sheaf records and leaves
  configuration hold. -/
  | holdReleaseSchedules (t : Nat) (r : Req)
  /-- HOLD_RELEASE_DEFAULTS (R464): hold_release = 2 leaves configuration hold with default shot and sheaf records. -/
  | holdReleaseDefaults (t : Nat) (r : Req)
  /-- DEVICE_RESET (R467): Command that makes a port-commanded reset into phase P2. -/
  | deviceReset (t : Nat) (r : Req)
  /-- DOMAIN_RESET (R468): Command that resets one power domain from PD4 to PD13. -/
  | domainReset (t : Nat) (r : Req) (v : Fin 256)
  /-- DOMAIN_RESTORE (R466): After a single-domain reset C0 restores that domain's persistent and learned objects. -/
  | domainRestore (t : Nat)
  /-- DOMAIN_REQ (R471): A write of domain_req switches power domains on or off outside sleep. -/
  | domainReq (t : Nat) (r : Req) (v : Nat)
  /-- SLEEP (R472): Command that switches off every domain except PD0 and PD1 under the Nightlight. -/
  | sleep (t : Nat) (r : Req)
  /-- SUPPLY_LOW (R473): VSUP below 6.5 V for 10 µs sets supply_low and blocks new NV writes. -/
  | supplyLow (t : Nat)
  /-- SUPPLY_LOW_CLEAR (R473): VSUP above 7.0 V clears supply_low. -/
  | supplyLowClear (t : Nat)
  /-- POWER_CLEAR (R487): Command that zeroes brownouts and the brown-out seen bit. -/
  | powerClear (t : Nat) (r : Req)
  /-- COMMIT_PERSISTENT (R481): commit = 1 writes a persistent bank from a snapshot of every P object. -/
  | commitPersistent (t : Nat) (r : Req)
  /-- COMMIT_EMPTY (R481): commit = 2 writes a persistent bank with an empty body. -/
  | commitEmpty (t : Nat) (r : Req)
  /-- COMMIT_LEARNED (R481): commit = 3 writes a learned bank at once. -/
  | commitLearned (t : Nat) (r : Req)
  /-- NV_WRITE_DONE (R476): A bank write completes with read-back and commit, or fails with NV_FAIL. Operands: pair 0 factory,
  1 boot record, 2 persistent, 3 learned; `readOk`: the read-back matches. -/
  | nvWriteDone (t : Nat) (pair : Fin 4) (readOk : Bool)
  /-- TOKEN_REFILL (R482): A commit budget's refill time elapses and it gains one token. -/
  | tokenRefill (t : Nat) (learned : Bool)
  /-- LEARNED_WRITE (R482): With learned_pending set, the learned bank is written when a token is available. -/
  | learnedWrite (t : Nat)
  /-- EXPORT (R497): A block read of export returns a learned-data image taken at one instant. -/
  | learnedExport (t : Nat) (f : Frame)
  /-- IMPORT (R498): A block write of import checks the image and applies its records as in phase P7. -/
  | learnedImport (t : Nat) (f : Frame)
  /-- IMPORT_SAVE (R500): The learned bank write after an import completes and sets import_state. -/
  | importSave (t : Nat) (readOk : Bool)
  /-- EXTEST (R516): TAP instruction that drives the boundary cells and disarms both domains with gates clamped. Operands: the
  cells of the boundary register. -/
  | extest (t : Nat) (cells : List Bool)
  /-- SAMPLE_PRELOAD (R515): TAP instruction that samples and preloads the boundary register. Operands: the levels captured
  and the cells shifted in. -/
  | samplePreload (t : Nat) (pins : List Bool) (cells : List Bool)
  /-- IDCODE (R515): TAP instruction that returns the 32-bit IDCODE. -/
  | idcode (t : Nat)
  /-- CLAMP (R516): TAP instruction that selects bypass with the outputs held, disarming both domains. -/
  | clamp (t : Nat)
  /-- HIGHZ (R516): TAP instruction that sets every covered output to high impedance, disarming both domains. -/
  | highz (t : Nat)
  /-- BYPASS (R515): TAP instruction that selects the bypass register. -/
  | bypass (t : Nat)
  /-- TEST_LOGIC_RESET (R515): TRST_N low or the TAP reset state selects IDCODE and holds the TAP in reset. -/
  | testLogicReset (t : Nat)
  /-- REPLICA_FAULT (R26): The replica path is still slower than the slow-corner reference with the core supply at 0.90 V, so
  both domains are disarmed, source 122 is raised and the event is logged. -/
  | replicaFault (t : Nat)
  /-- POWER_ON_RELEASE (R456): VSUP rises above 5.0 V after a power-on reset, which releases the reset and starts phase P1. -/
  | powerOnRelease (t : Nat)
  /-- RESET_N_RELEASE (R456): RESET_N rises after being held low, and the device leaves reset assertion and restarts at phase
  P2. -/
  | resetNRelease (t : Nat)
  /-- BUS_OFF_RECOVERY (R53): A CAN port completes its ISO 11898-1 bus-off recovery and rejoins the bus. -/
  | busOffRecovery (t : Nat) (p : Fin 6)
  /-- LINK_UP_RISE (R102): The 100BASE-T1 link of port P4 or P5 comes up, and link_up reads 1 again. -/
  | linkUpRise (t : Nat) (p : Fin 6)
  /-- CORE_RESUME (R460): A core restarted by C0 runs again within 20 ms, ending the BUSY refusals of R34 or the learning stop
  of R35. -/
  | coreResume (t : Nat) (c : Fin 4)
  /-- OVER_VOLTAGE_CLEAR (R303): v_rail falls 4 V below the crossed threshold so ov clears, or falls below 106 V so ov_abs
  clears, and shots on the rail's banks are no longer dropped. Operands: `mv` is the rail's voltage in mV. -/
  | overVoltageClear (t : Nat) (x : Fin 2) (mv : Nat)
  /-- BOOT_RETRY (R478): With neither firmware bank passing verification, the device stays in phase P6 with gates clamped and
  retries the boot every 1 s. Operands: whether bank A and bank B read back intact. -/
  | bootRetry (t : Nat) (okA : Bool) (okB : Bool)
  deriving DecidableEq, Repr

end Sys2Proof
end

