-- ==== Sys2Proof/Machine/Flags.lean ====
section
/-! DEFINITION. Flags: single bits and bit ranges of a status word, and the saturating counters the chapters use. -/

namespace Sys2Proof.Machine

/-- A status word with bit `b` set. -/
def withBit (v b : Nat) : Nat := v ||| (1 <<< b)

/-- A status word with bit `b` clear. -/
def noBit (v b : Nat) : Nat := v ^^^ (v &&& (1 <<< b))

/-- A status word with bit `b` at a level. -/
def bitTo (v b : Nat) (on : Bool) : Nat := if on then withBit v b else noBit v b

/-- Bits `hi` to `lo` of a word. -/
def bitsOf (v hi lo : Nat) : Nat := (v >>> lo) % 2 ^ (hi + 1 - lo)

/-- 1 for true, 0 for false. -/
def b2n (b : Bool) : Nat := if b then 1 else 0

/-- A counter that saturates at 0xFFFFFFFF. -/
def satInc32 (v : Nat) : Nat := min 0xFFFFFFFF (v + 1)

/-- A counter that saturates at 65535. -/
def satInc16 (v : Nat) : Nat := min 65535 (v + 1)

/-- The positions below `n` whose bit is set in a mask, rising. -/
def maskBits (n mask : Nat) : List Nat := (List.range n).filter (fun k => mask.testBit k)

/-- The word whose bit k is `f k`, for k below `n`. -/
def wordOf (n : Nat) (f : Nat → Bool) : Nat :=
  (List.range n).foldl (fun v k => if f k then withBit v k else v) 0

end Sys2Proof.Machine
end

