-- ==== Sys2Proof/Machine/Operands.lean ====
section
/-! DEFINITION. Operand forms: the conversions between a value, its symbols and its signed reading (R9, R11), and the
integer arithmetic the formats use (R7, R117, R118). -/

namespace Sys2Proof.Machine

/-- The `n` symbols of a value, least significant first (R9). -/
def leBytes : Nat → Nat → List Byte
  | 0, _ => []
  | n + 1, v => BitVec.ofNat 8 v :: leBytes n (v / 256)

/-- The value carried by symbols, least significant first (R9). -/
def ofLe : List Byte → Nat
  | [] => 0
  | b :: bs => b.toNat + 256 * ofLe bs

/-- The value carried by symbols, most significant first (R94). -/
def ofBe (bs : List Byte) : Nat := ofLe bs.reverse

/-- The two's complement reading of the low `w` bits of a value (R9). -/
def toSigned (w v : Nat) : Int :=
  let u := v % 2 ^ w
  if u < 2 ^ (w - 1) then (u : Int) else (u : Int) - (2 ^ w : Nat)

/-- The `w`-bit two's complement word of an integer. -/
def ofSigned (w : Nat) (i : Int) : Nat := (i % (2 ^ w : Nat)).toNat

/-- An integer limited to a range. -/
def clampInt (lo hi i : Int) : Int := max lo (min hi i)

/-- The U32 angle word of an exact angle in AU that counts cycles from 0 (R7). -/
def angleWord (a : Int) : Nat := (a % (2 ^ 32 : Nat)).toNat

/-- The signed difference of two angle words; positive when `a` lies after `b` (R117). -/
def angleDiff (a b : Nat) : Int := toSigned 32 (a + 2 ^ 32 - b % 2 ^ 32)

/-- The integer nearest to a ratio `n / d`, halves up. -/
def divNearest (n : Int) (d : Nat) : Int := (2 * n + d) / (2 * d)

/-- A rational truncated toward zero (R8). -/
def truncRat (x : Rat) : Int := if 0 ≤ x then x.floor else x.ceil

/-- The integer nearest to a rational, halves up (R118). -/
def nearestRat (x : Rat) : Int := (x + 1 / 2).floor

/-- The integer square root, by bisection over `bits` binary places. -/
def isqrtAux : Nat → Nat → Nat → Nat
  | 0, _, r => r
  | b + 1, n, r =>
    let c := r + 2 ^ b
    if c * c ≤ n then isqrtAux b n c else isqrtAux b n r

/-- The largest natural number whose square does not exceed `n` (below 2^128). -/
def isqrt (n : Nat) : Nat := isqrtAux 64 n 0

/-- Splits a list into pieces of `n`, with `k` pieces at most. -/
def chunks {α : Type} (n : Nat) : Nat → List α → List (List α)
  | 0, _ => []
  | _ + 1, [] => []
  | k + 1, l => l.take n :: chunks n k (l.drop n)

/-- One step of the reflected CRC-32 of IEEE 802.3. -/
def crcStep (c : Nat) : Nat := if c % 2 = 1 then (c / 2) ^^^ 0xEDB88320 else c / 2

/-- One symbol into the CRC-32. -/
def crcByte (c : Nat) (b : Byte) : Nat :=
  crcStep (crcStep (crcStep (crcStep (crcStep (crcStep (crcStep (crcStep (c ^^^ b.toNat))))))))

/-- The IEEE 802.3 CRC-32 of a run of symbols, used throughout the device (R47). -/
def crc32 (bs : List Byte) : Nat := (bs.foldl crcByte 0xFFFFFFFF) ^^^ 0xFFFFFFFF

end Sys2Proof.Machine
end

