-- ==== Sys2Proof/Machine/Dict.lean ====
section
/-! DEFINITION. The object dictionary: every object of the chapters' object maps with its type, access code, default,
persistence, owner class and allowed values (R10 to R14, R40). A default that the maps leave as a dash reads 0. -/

namespace Sys2Proof.Machine

/-- Object types (R11). A BLOB carries its map length. -/
inductive OTy where
  | u8 | i8 | u16 | i16 | u32 | i32 | u64 | i64 | bool
  | blob (len : Nat)
  deriving DecidableEq, Repr

/-- Size in symbols; a BLOB has its map length. -/
def OTy.size : OTy → Nat
  | .u8 | .i8 | .bool => 1
  | .u16 | .i16 => 2
  | .u32 | .i32 => 4
  | .u64 | .i64 => 8
  | .blob n => n

/-- Whether the type is a BLOB. -/
def OTy.isBlob : OTy → Bool
  | .blob _ => true
  | _ => false

/-- Whether the type is signed. -/
def OTy.signed : OTy → Bool
  | .i8 | .i16 | .i32 | .i64 => true
  | _ => false

/-- Access codes (R12). -/
inductive Access where
  | ro | rw | wo | rwd | cmd | lck
  deriving DecidableEq, Repr

/-- Persistence codes (R13). -/
inductive Persist where
  | p | l | n
  deriving DecidableEq, Repr

/-- Owner classes (R14). `devGrd` is the class of device_reset (R467). -/
inductive OwnerClass where
  | dom | res | dev | grd | any | devGrd
  deriving DecidableEq, Repr

/-- Allowed values of a written object: all of its type, a range, a range or one further value, or the bits of a mask. -/
inductive Allowed where
  | any
  | between (lo hi : Int)
  | betweenOr (lo hi x : Int)
  | mask (m : Nat)
  deriving DecidableEq, Repr

/-- The default of an object by its instance and its place in its range of subindices. -/
inductive Dflt where
  | lin (base perInst perSub : Nat)
  | div (k : Nat)
  | tab (vals : List Nat)
  | tabI (vals : List Nat)
  | bytes (bs : List Nat)
  | routes
  deriving DecidableEq, Repr

/-- One line of an object map: subindices `sub0` to `sub1` of the block's instances `inst0` to `inst1`. -/
structure ObjRow where
  sub0 : Nat
  sub1 : Nat
  inst0 : Nat
  inst1 : Nat
  ty : OTy
  acc : Access
  dflt : Dflt
  persist : Persist
  owner : OwnerClass
  allowed : Allowed
  deriving DecidableEq, Repr

/-- The blocks of objects. -/
inductive ObjKind where
  | identity | resources | firmware | port | session | features | cyclic | notify | claims | guardian | timebase | wheel | domain | pattern | synth | tooth | harmonic | sheaf | profile | channel | bank | boost | closure | lane | chanDiag | bankDiag | boostDiag | protect | pressure | vibration | comparator | ramp | timer | gstart | lantern | loft | dma | irq | source | stack | night | mailbox | doorbell | reset | power | nv | backup | route | shot | learned
  deriving DecidableEq, Repr

/-- A block: its first index, its number of instances (one index each), its kind and its objects. -/
structure ObjBlock where
  first : Nat
  count : Nat
  kind : ObjKind
  rows : List ObjRow
  deriving DecidableEq, Repr

/-- The objects of 0x1018 (vendor_id to serial). -/
def identityRows : List ObjRow :=
  [ ⟨0x01, 0x01, 0, 0, .u32, .ro, .lin 0x6A1F 0 0, .n, .any, .any⟩ -- vendor_id
  , ⟨0x02, 0x02, 0, 0, .u32, .ro, .lin 0x50210030 0 0, .n, .any, .any⟩ -- product_code
  , ⟨0x03, 0x03, 0, 0, .u32, .ro, .lin 0x10000 0 0, .n, .any, .any⟩ -- revision
  , ⟨0x04, 0x04, 0, 0, .u32, .ro, .lin 0 0 0, .n, .any, .any⟩ -- serial
  ]

/-- The objects of 0x1020 (resource counts to resource counts). -/
def resourcesRows : List ObjRow :=
  [ ⟨0x01, 0x10, 0, 0, .u32, .ro, .tab [2, 8, 24, 48, 16, 2, 24, 8, 16, 32, 8, 16, 1024, 512, 64, 12288], .n, .any, .any⟩ -- resource counts
  ]

/-- The objects of 0x1030 (image to running_bank). -/
def firmwareRows : List ObjRow :=
  [ ⟨0x01, 0x01, 0, 0, .blob 4190208, .wo, .bytes [], .n, .dev, .any⟩ -- image
  , ⟨0x02, 0x02, 0, 0, .u8, .ro, .lin 0 0 0, .n, .any, .any⟩ -- verify_state
  , ⟨0x03, 0x03, 0, 0, .u8, .cmd, .lin 0 0 0, .n, .dev, .between 1 1⟩ -- activate
  , ⟨0x04, 0x04, 0, 0, .u32, .ro, .lin 0 0 0, .n, .any, .any⟩ -- running_version
  , ⟨0x05, 0x05, 0, 0, .u32, .ro, .lin 0 0 0, .n, .any, .any⟩ -- inactive_version
  , ⟨0x06, 0x06, 0, 0, .u8, .ro, .lin 0 0 0, .n, .any, .any⟩ -- running_bank
  ]

/-- The objects of 0x1100 (session_timeout to fragments_discarded). -/
def portRows : List ObjRow :=
  [ ⟨0x01, 0x01, 0, 5, .u32, .rw, .lin 1000 0 0, .p, .dev, .between 10 60000⟩ -- session_timeout
  , ⟨0x02, 0x02, 0, 5, .u32, .rw, .lin 500 0 0, .p, .dev, .between 0 60000⟩ -- claim_hold
  , ⟨0x03, 0x03, 0, 5, .u8, .rw, .lin 0 0 0, .p, .dev, .between 0 1⟩ -- loss_action
  , ⟨0x04, 0x04, 0, 5, .u32, .ro, .lin 0 0 0, .n, .any, .any⟩ -- rx_frames
  , ⟨0x05, 0x05, 0, 5, .u32, .ro, .lin 0 0 0, .n, .any, .any⟩ -- rx_discarded
  , ⟨0x06, 0x06, 0, 5, .u32, .ro, .lin 0 0 0, .n, .any, .any⟩ -- busy_count
  , ⟨0x07, 0x07, 0, 5, .u32, .rw, .lin 0 0 0, .p, .dev, .any⟩ -- doze_limit
  , ⟨0x10, 0x10, 1, 3, .u8, .rw, .lin 0 1 0, .p, .dev, .between 1 127⟩ -- node
  , ⟨0x11, 0x11, 1, 3, .u8, .rw, .lin 0 0 0, .p, .dev, .between 0 1⟩ -- id_mode
  , ⟨0x12, 0x12, 1, 3, .u32, .rw, .lin 0x10000000 0 0, .p, .dev, .any⟩ -- id29_base
  , ⟨0x13, 0x13, 1, 3, .u32, .rw, .lin 0x31E0707 0 0, .p, .dev, .any⟩ -- nominal_timing
  , ⟨0x14, 0x14, 1, 3, .u32, .rw, .lin 0x10E0303 0 0, .p, .dev, .any⟩ -- data_timing
  , ⟨0x15, 0x15, 1, 3, .bool, .rw, .lin 1 0 0, .p, .dev, .any⟩ -- brs
  , ⟨0x16, 0x16, 1, 3, .u32, .ro, .lin 0 0 0, .n, .any, .any⟩ -- classical_discard
  , ⟨0x17, 0x17, 1, 3, .u32, .ro, .lin 0 0 0, .n, .any, .any⟩ -- bus_off_count
  , ⟨0x10, 0x10, 4, 5, .u32, .rw, .lin 0xA9FE6400 1 0, .p, .dev, .any⟩ -- ipv4_address
  , ⟨0x11, 0x11, 4, 5, .u32, .rw, .lin 0xFFFF0000 0 0, .p, .dev, .any⟩ -- netmask
  , ⟨0x12, 0x12, 4, 5, .u32, .rw, .lin 0 0 0, .p, .dev, .any⟩ -- gateway
  , ⟨0x13, 0x13, 4, 5, .u16, .rw, .lin 0xB9A2 0 0, .p, .dev, .any⟩ -- udp_port
  , ⟨0x14, 0x14, 4, 5, .u8, .rw, .lin 0 0 0, .p, .dev, .between 0 2⟩ -- phy_role
  ] ++
  [ ⟨0x15, 0x15, 4, 5, .blob 6, .ro, .bytes [], .n, .any, .any⟩ -- mac_address
  , ⟨0x16, 0x16, 4, 5, .bool, .ro, .lin 0 0 0, .n, .any, .any⟩ -- link_up
  , ⟨0x17, 0x17, 4, 5, .u32, .ro, .lin 0 0 0, .n, .any, .any⟩ -- fragments_discarded
  ]

/-- The objects of 0x1200 (state to force_close). -/
def sessionRows : List ObjRow :=
  [ ⟨0x01, 0x01, 0, 5, .u8, .ro, .lin 0 0 0, .n, .any, .any⟩ -- state
  , ⟨0x02, 0x02, 0, 5, .u8, .ro, .lin 0 0 0, .n, .any, .any⟩ -- level
  , ⟨0x03, 0x06, 0, 5, .u32, .ro, .lin 0 0 0, .n, .any, .any⟩ -- accepted
  , ⟨0x07, 0x07, 0, 5, .u32, .ro, .lin 0 0 0, .n, .any, .any⟩ -- peer_address
  , ⟨0x08, 0x08, 0, 5, .u16, .ro, .lin 0 0 0, .n, .any, .any⟩ -- peer_port
  , ⟨0x09, 0x09, 0, 5, .u32, .ro, .lin 0 0 0, .n, .any, .any⟩ -- opens
  , ⟨0x0A, 0x0A, 0, 5, .u8, .ro, .lin 5 0 0, .n, .any, .any⟩ -- close_reason
  , ⟨0x0B, 0x0B, 0, 5, .u8, .cmd, .lin 0 0 0, .n, .dev, .between 1 1⟩ -- force_close
  ]

/-- The objects of 0x1300 (device_features to highest_cl). -/
def featuresRows : List ObjRow :=
  [ ⟨0x01, 0x04, 0, 0, .u32, .ro, .tab [0x00FFFFFF, 0x000001FF, 0, 0], .n, .any, .any⟩ -- device_features
  , ⟨0x05, 0x05, 0, 0, .u8, .ro, .lin 1 0 0, .n, .any, .any⟩ -- highest_cl
  ]

/-- The objects of 0x1400 (enable to overruns). -/
def cyclicRows : List ObjRow :=
  [ ⟨0x01, 0x01, 0, 63, .bool, .rw, .lin 0 0 0, .p, .any, .any⟩ -- enable
  , ⟨0x02, 0x02, 0, 63, .u8, .rw, .lin 0 0 0, .p, .any, .between 0 5⟩ -- port
  , ⟨0x03, 0x03, 0, 63, .u8, .rw, .lin 0 0 0, .p, .any, .between 0 3⟩ -- trigger
  , ⟨0x04, 0x04, 0, 63, .u32, .rw, .lin 0x186A0 0 0, .p, .any, .between 100 60000000⟩ -- period
  , ⟨0x05, 0x05, 0, 63, .u8, .rw, .lin 0 0 0, .p, .any, .between 0 1⟩ -- domain
  , ⟨0x06, 0x06, 0, 63, .u32, .rw, .lin 0 0 0, .p, .any, .mask 0xFFFFFF⟩ -- angle
  , ⟨0x07, 0x07, 0, 63, .u32, .rw, .lin 0 0 0, .p, .any, .mask 0xFFFFFF⟩ -- slot_mask
  , ⟨0x08, 0x08, 0, 63, .u32, .rw, .lin 0 0 0, .p, .any, .any⟩ -- can_id
  , ⟨0x09, 0x09, 0, 63, .u8, .rw, .lin 0 0 0, .p, .any, .mask 0x3⟩ -- flags
  , ⟨0x0A, 0x11, 0, 63, .u32, .rw, .lin 0 0 0, .p, .any, .any⟩ -- map 0–7
  , ⟨0x12, 0x12, 0, 63, .u16, .ro, .lin 0 0 0, .n, .any, .any⟩ -- overruns
  ]

/-- The objects of 0x1600 (mod_count to batches). -/
def notifyRows : List ObjRow :=
  [ ⟨0x01, 0x01, 0, 5, .u8, .rw, .lin 1 0 0, .p, .any, .between 1 128⟩ -- mod_count
  , ⟨0x02, 0x02, 0, 5, .u16, .rw, .lin 0 0 0, .p, .any, .any⟩ -- mod_time
  , ⟨0x03, 0x03, 0, 5, .u8, .ro, .lin 0 0 0, .n, .any, .any⟩ -- pending
  , ⟨0x04, 0x04, 0, 5, .bool, .ro, .lin 0 0 0, .n, .any, .any⟩ -- held
  , ⟨0x05, 0x05, 0, 5, .u32, .ro, .lin 0 0 0, .n, .any, .any⟩ -- acks_ignored
  , ⟨0x06, 0x06, 0, 5, .u32, .ro, .lin 0 0 0, .n, .any, .any⟩ -- batches
  ]

/-- The objects of 0x1700 (device to comparator 0–15). -/
def claimsRows : List ObjRow :=
  [ ⟨0x01, 0x01, 0, 0, .u8, .ro, .lin 255 0 0, .n, .any, .any⟩ -- device
  , ⟨0x02, 0x03, 0, 0, .u8, .ro, .lin 255 0 0, .n, .any, .any⟩ -- domain 0–1
  , ⟨0x04, 0x1B, 0, 0, .u8, .ro, .lin 255 0 0, .n, .any, .any⟩ -- slot 0–23
  , ⟨0x1C, 0x4B, 0, 0, .u8, .ro, .lin 255 0 0, .n, .any, .any⟩ -- channel 0–47
  , ⟨0x4C, 0x5B, 0, 0, .u8, .ro, .lin 255 0 0, .n, .any, .any⟩ -- bank 0–15
  , ⟨0x5C, 0x5D, 0, 0, .u8, .ro, .lin 255 0 0, .n, .any, .any⟩ -- boost 0–1
  , ⟨0x5E, 0x65, 0, 0, .u8, .ro, .lin 255 0 0, .n, .any, .any⟩ -- Lantern 0–7
  , ⟨0x66, 0x85, 0, 0, .u8, .ro, .lin 255 0 0, .n, .any, .any⟩ -- timer 0–31
  , ⟨0x86, 0x95, 0, 0, .u8, .ro, .lin 255 0 0, .n, .any, .any⟩ -- DMA 0–15
  , ⟨0x96, 0xA5, 0, 0, .u8, .ro, .lin 255 0 0, .n, .any, .any⟩ -- comparator 0–15
  ]

/-- The objects of 0x1800 (guardian_port to veto_count). -/
def guardianRows : List ObjRow :=
  [ ⟨0x01, 0x01, 0, 0, .u8, .lck, .lin 255 0 0, .p, .dev, .betweenOr 0 5 255⟩ -- guardian_port
  , ⟨0x02, 0x02, 0, 0, .bool, .lck, .lin 0 0 0, .n, .dev, .any⟩ -- lock
  , ⟨0x03, 0x03, 0, 0, .bool, .lck, .lin 0 0 0, .p, .dev, .any⟩ -- auto_lock
  , ⟨0x04, 0x04, 0, 0, .bool, .rw, .lin 0 0 0, .n, .grd, .any⟩ -- global_disarm
  , ⟨0x05, 0x05, 0, 0, .u8, .rw, .lin 0 0 0, .n, .grd, .mask 0x3⟩ -- domain_cut
  , ⟨0x06, 0x06, 0, 0, .u32, .rw, .lin 0 0 0, .n, .grd, .mask 0xFFFFFF⟩ -- slot_cut
  , ⟨0x07, 0x07, 0, 0, .u64, .ro, .lin 0 0 0, .n, .any, .any⟩ -- last_veto_time
  , ⟨0x08, 0x08, 0, 0, .u8, .lck, .lin 0 0 0, .p, .dev, .between 0 1⟩ -- guardian_loss
  , ⟨0x09, 0x09, 0, 0, .u32, .ro, .lin 0 0 0, .n, .any, .any⟩ -- veto_count
  ]

/-- The objects of 0x2000 (time_now to clear_flags). -/
def timebaseRows : List ObjRow :=
  [ ⟨0x01, 0x01, 0, 0, .u64, .ro, .lin 0 0 0, .n, .any, .any⟩ -- time_now
  , ⟨0x02, 0x02, 0, 0, .u32, .ro, .lin 0 0 0, .n, .any, .any⟩ -- epoch
  , ⟨0x03, 0x03, 0, 0, .u8, .ro, .lin 0 0 0, .n, .any, .any⟩ -- ref_source
  , ⟨0x04, 0x04, 0, 0, .u16, .ro, .lin 0 0 0, .n, .any, .any⟩ -- status
  , ⟨0x05, 0x05, 0, 0, .u32, .ro, .lin 0 0 0, .n, .any, .any⟩ -- ref_losses
  , ⟨0x06, 0x06, 0, 0, .u64, .ro, .lin 0 0 0, .n, .any, .any⟩ -- last_loss_time
  , ⟨0x07, 0x07, 0, 0, .u16, .rw, .lin 10 0 0, .p, .dev, .between 1 1000⟩ -- ref_restore_time
  , ⟨0x08, 0x08, 0, 0, .u16, .ro, .lin 0 0 0, .n, .any, .any⟩ -- vernier_error
  , ⟨0x09, 0x09, 0, 0, .u8, .cmd, .lin 0 0 0, .n, .dev, .between 1 1⟩ -- clear_flags
  ]

/-- The objects of 0x2100 (domain to clear). -/
def wheelRows : List ObjRow :=
  [ ⟨0x01, 0x01, 0, 7, .u8, .rwd, .lin 255 0 0, .p, .dom, .betweenOr 0 1 255⟩ -- domain
  , ⟨0x02, 0x02, 0, 7, .u8, .rwd, .lin 0 0 0, .p, .dom, .between 0 2⟩ -- role
  , ⟨0x03, 0x03, 0, 7, .u8, .rwd, .lin 1 0 0, .p, .dom, .between 0 2⟩ -- sensor
  , ⟨0x04, 0x04, 0, 7, .u8, .rwd, .lin 0 0 0, .p, .dom, .between 0 2⟩ -- edge_select
  , ⟨0x05, 0x05, 0, 7, .u16, .rwd, .lin 100 0 0, .p, .dom, .between 5 10000⟩ -- filter
  , ⟨0x06, 0x06, 0, 7, .i16, .rwd, .lin 2500 0 0, .p, .dom, .any⟩ -- upper_threshold
  , ⟨0x07, 0x07, 0, 7, .i16, .rwd, .lin 1500 0 0, .p, .dom, .any⟩ -- lower_threshold
  , ⟨0x08, 0x08, 0, 7, .u8, .rwd, .lin 5 0 0, .p, .dom, .between 1 15⟩ -- vr_fraction
  , ⟨0x09, 0x09, 0, 7, .bool, .rwd, .lin 0 0 0, .p, .dom, .any⟩ -- pull_up
  , ⟨0x0A, 0x0A, 0, 7, .u16, .rwd, .lin 1 0 0, .p, .dom, .between 1 1024⟩ -- aux_teeth
  , ⟨0x0B, 0x0B, 0, 7, .u8, .ro, .lin 2 0 0, .n, .any, .any⟩ -- status
  , ⟨0x0C, 0x0C, 0, 7, .u64, .ro, .lin 0 0 0, .n, .any, .any⟩ -- last_stamp
  , ⟨0x0D, 0x0D, 0, 7, .u32, .ro, .lin 0 0 0, .n, .any, .any⟩ -- accepted
  , ⟨0x0E, 0x0E, 0, 7, .u32, .ro, .lin 0 0 0, .n, .any, .any⟩ -- filtered
  , ⟨0x0F, 0x0F, 0, 7, .u32, .ro, .lin 0 0 0, .n, .any, .any⟩ -- rate_rejects
  , ⟨0x10, 0x10, 0, 7, .u32, .ro, .lin 0 0 0, .n, .any, .any⟩ -- overruns
  , ⟨0x11, 0x11, 0, 7, .u32, .ro, .lin 0 0 0, .n, .any, .any⟩ -- aux_speed
  , ⟨0x12, 0x12, 0, 7, .u8, .cmd, .lin 0 0 0, .n, .dom, .between 1 1⟩ -- clear
  ]

/-- The objects of 0x2180 (stroke to slot_flags 0–23). -/
def domainRows : List ObjRow :=
  [ ⟨0x01, 0x01, 0, 1, .u8, .rwd, .lin 0 0 0, .p, .dom, .between 0 1⟩ -- stroke
  , ⟨0x02, 0x02, 0, 1, .u32, .rwd, .lin 0 0 0, .p, .dom, .mask 0xFFFFFF⟩ -- crank_offset
  , ⟨0x03, 0x03, 0, 1, .u32, .rwd, .lin 320 0 0, .p, .dom, .between 16 80000⟩ -- min_rpm
  , ⟨0x04, 0x04, 0, 1, .u32, .rwd, .lin 0xBB80 0 0, .p, .dom, .between 16 80000⟩ -- max_rpm
  , ⟨0x05, 0x05, 0, 1, .u16, .rwd, .lin 2000 0 0, .p, .dom, .between 100 60000⟩ -- stall_time
  , ⟨0x06, 0x06, 0, 1, .bool, .rwd, .lin 0 0 0, .p, .dom, .any⟩ -- limp_enable
  , ⟨0x07, 0x07, 0, 1, .u8, .rwd, .lin 35 0 0, .p, .dom, .between 10 45⟩ -- ratio_tol
  , ⟨0x08, 0x08, 0, 1, .u8, .rwd, .lin 2 0 0, .p, .dom, .between 1 16⟩ -- sync_confirm
  , ⟨0x09, 0x09, 0, 1, .u8, .rwd, .lin 3 0 0, .p, .dom, .between 1 15⟩ -- max_pattern_errors
  , ⟨0x0A, 0x0A, 0, 1, .u32, .rwd, .lin 0xB60B 0 0, .p, .dom, .between 1 1048576⟩ -- cam_window
  , ⟨0x0B, 0x0B, 0, 1, .u8, .rwd, .lin 4 0 0, .p, .dom, .between 1 64⟩ -- cam_search_revs
  , ⟨0x0C, 0x0C, 0, 1, .u16, .rwd, .lin 10 0 0, .p, .dom, .between 0 10000⟩ -- loss_dwell
  , ⟨0x0D, 0x0D, 0, 1, .u8, .rwd, .lin 3 0 0, .p, .dom, .between 2 8⟩ -- rev_confirm
  , ⟨0x0E, 0x0E, 0, 1, .u8, .rw, .lin 60 0 0, .p, .dom, .mask 0x3F⟩ -- source_mask
  , ⟨0x0F, 0x0F, 0, 1, .u8, .cmd, .lin 0 0 0, .n, .dom, .between 1 2⟩ -- arm
  , ⟨0x10, 0x10, 0, 1, .u8, .ro, .lin 0 0 0, .n, .any, .any⟩ -- state
  , ⟨0x11, 0x11, 0, 1, .u16, .ro, .lin 0 0 0, .n, .any, .any⟩ -- status
  , ⟨0x12, 0x12, 0, 1, .u16, .ro, .lin 0xFFFF 0 0, .n, .any, .any⟩ -- crank_position
  , ⟨0x13, 0x13, 0, 1, .u8, .ro, .lin 255 0 0, .n, .any, .any⟩ -- phase
  , ⟨0x14, 0x14, 0, 1, .u32, .ro, .lin 0 0 0, .n, .any, .any⟩ -- speed
  ] ++
  [ ⟨0x15, 0x15, 0, 1, .u8, .ro, .lin 0 0 0, .n, .any, .any⟩ -- last_cause
  , ⟨0x16, 0x16, 0, 1, .u32, .ro, .lin 0 0 0, .n, .any, .any⟩ -- losses
  , ⟨0x17, 0x17, 0, 1, .u32, .ro, .lin 0 0 0, .n, .any, .any⟩ -- reverses
  , ⟨0x18, 0x18, 0, 1, .u32, .ro, .lin 0 0 0, .n, .any, .any⟩ -- pattern_errors
  , ⟨0x19, 0x19, 0, 1, .u32, .ro, .lin 0 0 0, .n, .any, .any⟩ -- cam_errors
  , ⟨0x1A, 0x1A, 0, 1, .u32, .ro, .lin 0 0 0, .n, .any, .any⟩ -- search_restarts
  , ⟨0x1B, 0x1B, 0, 1, .u64, .ro, .lin 0 0 0, .n, .any, .any⟩ -- last_transition
  , ⟨0x1C, 0x1C, 0, 1, .u8, .cmd, .lin 0 0 0, .n, .dom, .between 1 1⟩ -- clear
  , ⟨0x30, 0x30, 0, 1, .u32, .rwd, .lin 0 0 0, .p, .dom, .mask 0xFFFFFF⟩ -- slot_mask
  , ⟨0x31, 0x31, 0, 1, .u32, .rwd, .lin 0x64000 0 0, .p, .dom, .between 204800 10240000⟩ -- lock_lead
  , ⟨0x32, 0x32, 0, 1, .u32, .rw, .lin 0x19000 0 0, .p, .dom, .between 0 10240000⟩ -- late_tol
  , ⟨0x33, 0x33, 0, 1, .u8, .rw, .lin 23 0 0, .p, .dom, .mask 0x3F⟩ -- sched_mask
  , ⟨0x34, 0x34, 0, 1, .u8, .cmd, .lin 0 0 0, .n, .dom, .between 1 1⟩ -- cancel_all
  , ⟨0x35, 0x35, 0, 1, .u32, .ro, .lin 0 0 0, .n, .any, .any⟩ -- shots_started
  , ⟨0x36, 0x36, 0, 1, .u32, .ro, .lin 0 0 0, .n, .any, .any⟩ -- late_drops
  , ⟨0x37, 0x37, 0, 1, .u32, .ro, .lin 0 0 0, .n, .any, .any⟩ -- late_fires
  , ⟨0x38, 0x38, 0, 1, .u32, .ro, .lin 0 0 0, .n, .any, .any⟩ -- conflicts
  , ⟨0x39, 0x39, 0, 1, .u32, .ro, .lin 0 0 0, .n, .any, .any⟩ -- writes_deferred
  , ⟨0x3A, 0x3A, 0, 1, .u32, .ro, .lin 0 0 0, .n, .any, .any⟩ -- state_cancels
  , ⟨0x3B, 0x3B, 0, 1, .u32, .ro, .lin 0 0 0, .n, .any, .any⟩ -- veto_drops
  ] ++
  [ ⟨0x3C, 0x3C, 0, 1, .u32, .ro, .lin 0 0 0, .n, .any, .any⟩ -- stale_locks
  , ⟨0x3D, 0x3D, 0, 1, .u32, .ro, .lin 0 0 0, .n, .any, .any⟩ -- ref_drops
  , ⟨0x3E, 0x3E, 0, 1, .u8, .cmd, .lin 0 0 0, .n, .dom, .between 1 1⟩ -- sched_clear
  , ⟨0x40, 0x57, 0, 1, .u32, .rw, .lin 0 0 0, .p, .res, .mask 0xFFFFFF⟩ -- slot_tdc 0–23
  , ⟨0x58, 0x6F, 0, 1, .u8, .rw, .lin 2 0 0, .p, .res, .mask 0x3⟩ -- slot_flags 0–23
  ]

/-- The objects of 0x2190 (crank_positions to pattern_class). -/
def patternRows : List ObjRow :=
  [ ⟨0x01, 0x01, 0, 1, .u16, .rwd, .lin 60 0 0, .p, .dom, .between 4 1024⟩ -- crank_positions
  , ⟨0x02, 0x02, 0, 1, .blob 128, .rwd, .bytes [255, 255, 255, 255, 255, 255, 255, 3], .p, .dom, .any⟩ -- crank_teeth
  , ⟨0x03, 0x03, 0, 1, .u8, .rwd, .lin 0 0 0, .p, .dom, .between 0 8⟩ -- extra_count
  , ⟨0x04, 0x0B, 0, 1, .u16, .rwd, .lin 0 0 0, .p, .dom, .any⟩ -- extra 0–7
  , ⟨0x0C, 0x0C, 0, 1, .u8, .rwd, .lin 0 0 0, .p, .dom, .between 0 32⟩ -- cam_segments
  , ⟨0x0D, 0x2C, 0, 1, .u32, .rwd, .lin 0 0 0, .p, .dom, .any⟩ -- segment 0–31
  , ⟨0x2D, 0x2D, 0, 1, .u8, .ro, .lin 0 0 0, .n, .any, .any⟩ -- pattern_class
  ]

/-- The objects of 0x2200 (enable_layers to clear). -/
def synthRows : List ObjRow :=
  [ ⟨0x01, 0x01, 0, 1, .u8, .rw, .lin 3 0 0, .p, .dom, .mask 0x7⟩ -- enable_layers
  , ⟨0x02, 0x02, 0, 1, .u8, .rw, .lin 64 0 0, .p, .dom, .any⟩ -- accel_gain
  , ⟨0x03, 0x03, 0, 1, .u8, .rw, .lin 64 0 0, .p, .dom, .between 1 255⟩ -- harm_gain
  , ⟨0x04, 0x04, 0, 1, .u8, .rw, .lin 4 0 0, .p, .dom, .between 1 64⟩ -- harm_warm
  , ⟨0x05, 0x05, 0, 1, .u32, .rw, .lin 4660 0 0, .p, .dom, .between 1 1048576⟩ -- err_limit
  , ⟨0x06, 0x06, 0, 1, .u16, .rw, .lin 1600 0 0, .p, .dom, .any⟩ -- steady_rate
  , ⟨0x07, 0x07, 0, 1, .bool, .rw, .lin 1 0 0, .p, .dom, .any⟩ -- auto_learn
  , ⟨0x08, 0x08, 0, 1, .u16, .rw, .lin 64 0 0, .p, .dom, .between 8 1024⟩ -- learn_revs
  , ⟨0x09, 0x09, 0, 1, .u8, .rw, .lin 32 0 0, .p, .dom, .between 1 255⟩ -- learn_weight
  , ⟨0x0A, 0x0A, 0, 1, .u32, .rw, .lin 6400 0 0, .p, .dom, .any⟩ -- learn_min_rpm
  , ⟨0x0B, 0x0B, 0, 1, .u32, .rw, .lin 0x5DC0 0 0, .p, .dom, .any⟩ -- learn_max_rpm
  , ⟨0x0C, 0x0C, 0, 1, .u16, .rw, .lin 160 0 0, .p, .dom, .any⟩ -- learn_steady
  , ⟨0x0D, 0x0D, 0, 1, .u8, .cmd, .lin 0 0 0, .n, .dom, .between 1 2⟩ -- learn_cmd
  , ⟨0x0E, 0x0E, 0, 1, .u8, .ro, .lin 0 0 0, .n, .any, .any⟩ -- learn_state
  , ⟨0x0F, 0x0F, 0, 1, .u32, .rwd, .lin 0 0 0, .p, .dom, .any⟩ -- bore
  , ⟨0x10, 0x10, 0, 1, .u32, .rwd, .lin 0 0 0, .p, .dom, .any⟩ -- stroke_len
  , ⟨0x11, 0x11, 0, 1, .u32, .rwd, .lin 0 0 0, .p, .dom, .any⟩ -- conrod
  , ⟨0x12, 0x12, 0, 1, .u16, .rwd, .lin 100 0 0, .p, .dom, .any⟩ -- crankcase_kpa
  , ⟨0x13, 0x13, 0, 1, .u32, .rw, .lin 0 0 0, .l, .dom, .any⟩ -- inertia
  , ⟨0x14, 0x14, 0, 1, .u32, .rwd, .lin 1000 0 0, .p, .dom, .any⟩ -- inertia_min
  ] ++
  [ ⟨0x15, 0x15, 0, 1, .u32, .rwd, .lin 0x989680 0 0, .p, .dom, .any⟩ -- inertia_max
  , ⟨0x16, 0x16, 0, 1, .u8, .rw, .lin 16 0 0, .p, .dom, .any⟩ -- inertia_gain
  , ⟨0x17, 0x17, 0, 1, .u32, .rw, .lin 0x11111 0 0, .p, .dom, .between 0 1048576⟩ -- ff_horizon
  , ⟨0x18, 0x18, 0, 1, .u8, .rw, .lin 15 0 0, .p, .dom, .mask 0x3F⟩ -- source_mask
  , ⟨0x19, 0x1C, 0, 1, .u32, .rw, .lin 0 0 0, .p, .dom, .mask 0x80FFFFFF⟩ -- mark 0–3
  , ⟨0x1D, 0x1D, 0, 1, .u32, .ro, .lin 0 0 0, .n, .any, .any⟩ -- angle_now
  , ⟨0x1E, 0x1E, 0, 1, .u64, .ro, .lin 0 0 0, .n, .any, .any⟩ -- angle_time
  , ⟨0x1F, 0x1F, 0, 1, .u32, .ro, .lin 0 0 0, .n, .any, .any⟩ -- rate_now
  , ⟨0x20, 0x20, 0, 1, .u8, .ro, .lin 0 0 0, .n, .any, .any⟩ -- acc_class
  , ⟨0x21, 0x21, 0, 1, .u16, .ro, .lin 0 0 0, .n, .any, .any⟩ -- status
  , ⟨0x22, 0x22, 0, 1, .i32, .ro, .lin 0 0 0, .n, .any, .any⟩ -- last_error
  , ⟨0x23, 0x23, 0, 1, .u32, .ro, .lin 0 0 0, .n, .any, .any⟩ -- max_error
  , ⟨0x24, 0x24, 0, 1, .u32, .ro, .lin 0 0 0, .n, .any, .any⟩ -- rms_error
  , ⟨0x25, 0x25, 0, 1, .u32, .ro, .lin 0 0 0, .n, .any, .any⟩ -- err_exceed
  , ⟨0x26, 0x26, 0, 1, .u32, .ro, .lin 0 0 0, .n, .any, .any⟩ -- refits
  , ⟨0x27, 0x27, 0, 1, .u32, .ro, .lin 0 0 0, .n, .any, .any⟩ -- refits_skipped
  , ⟨0x28, 0x28, 0, 1, .u32, .ro, .lin 0 0 0, .n, .any, .any⟩ -- inertia_clamps
  , ⟨0x29, 0x29, 0, 1, .u32, .ro, .lin 0 0 0, .n, .any, .any⟩ -- mark_late
  , ⟨0x2A, 0x2D, 0, 1, .u64, .ro, .lin 0 0 0, .n, .any, .any⟩ -- mark_time 0–3
  , ⟨0x2E, 0x2E, 0, 1, .u8, .cmd, .lin 0 0 0, .n, .dom, .between 1 1⟩ -- clear
  ]

/-- The objects of 0x2210 (table_state to clear). -/
def toothRows : List ObjRow :=
  [ ⟨0x01, 0x01, 0, 1, .u8, .ro, .lin 0 0 0, .l, .any, .any⟩ -- table_state
  , ⟨0x02, 0x02, 0, 1, .u32, .ro, .lin 0 0 0, .l, .any, .any⟩ -- pattern_sig
  , ⟨0x03, 0x03, 0, 1, .blob 2048, .rwd, .bytes [], .l, .dom, .any⟩ -- entries
  , ⟨0x04, 0x04, 0, 1, .blob 16, .rwd, .bytes [], .l, .dom, .any⟩ -- extra_entries
  , ⟨0x05, 0x05, 0, 1, .u32, .ro, .lin 0 0 0, .l, .any, .any⟩ -- learn_revs_total
  , ⟨0x06, 0x06, 0, 1, .u32, .ro, .lin 0 0 0, .l, .any, .any⟩ -- learn_speed
  , ⟨0x07, 0x07, 0, 1, .u16, .ro, .lin 0 0 0, .n, .any, .any⟩ -- revs_accumulated
  , ⟨0x08, 0x08, 0, 1, .u8, .cmd, .lin 0 0 0, .n, .dom, .between 1 1⟩ -- clear
  ]

/-- The objects of 0x2220 (harm_state to orders_used). -/
def harmonicRows : List ObjRow :=
  [ ⟨0x01, 0x01, 0, 1, .u8, .ro, .lin 0 0 0, .n, .any, .any⟩ -- harm_state
  , ⟨0x02, 0x02, 0, 1, .u32, .ro, .lin 0 0 0, .n, .any, .any⟩ -- mean_rate
  , ⟨0x03, 0x1A, 0, 1, .i16, .rwd, .lin 0 0 0, .l, .dom, .any⟩ -- cos 1–24
  , ⟨0x1B, 0x32, 0, 1, .i16, .rwd, .lin 0 0 0, .l, .dom, .any⟩ -- sin 1–24
  , ⟨0x33, 0x33, 0, 1, .u8, .ro, .lin 0 0 0, .n, .any, .any⟩ -- orders_used
  ]

/-- The objects of 0x2400 (enable to depth). -/
def sheafRows : List ObjRow :=
  [ ⟨0x01, 0x01, 0, 511, .bool, .rw, .lin 0 0 0, .p, .res, .any⟩ -- enable
  , ⟨0x02, 0x02, 0, 511, .u16, .rw, .lin 0 0 0, .p, .res, .any⟩ -- parent
  , ⟨0x03, 0x03, 0, 511, .u8, .rw, .lin 0 0 0, .p, .res, .between 0 7⟩ -- anchor_kind
  , ⟨0x04, 0x04, 0, 511, .i32, .rw, .lin 0 0 0, .p, .res, .any⟩ -- anchor_angle
  , ⟨0x05, 0x05, 0, 511, .i32, .rw, .lin 0 0 0, .p, .res, .any⟩ -- time_offset
  , ⟨0x06, 0x06, 0, 511, .u64, .rw, .lin 0 0 0, .p, .res, .between 0 0⟩ -- anchor_time
  , ⟨0x07, 0x07, 0, 511, .u16, .rw, .lin 0 0 0, .p, .res, .any⟩ -- ref
  , ⟨0x08, 0x08, 0, 511, .u8, .rw, .lin 0 0 0, .p, .res, .between 0 2⟩ -- late_policy
  , ⟨0x09, 0x09, 0, 511, .u32, .rw, .lin 0 0 0, .p, .res, .between 0 10240000⟩ -- late_tol
  , ⟨0x0A, 0x0A, 0, 511, .u8, .rw, .lin 255 0 0, .p, .res, .betweenOr 0 15 255⟩ -- priority
  , ⟨0x0B, 0x0B, 0, 511, .u8, .rw, .lin 0 0 0, .p, .res, .mask 0x3⟩ -- flags
  , ⟨0x0C, 0x0C, 0, 511, .u16, .rw, .lin 0 0 0, .p, .res, .any⟩ -- cycles
  , ⟨0x0D, 0x0D, 0, 511, .u8, .rw, .lin 255 0 0, .p, .res, .betweenOr 0 15 255⟩ -- evt_group
  , ⟨0x0E, 0x0E, 0, 511, .u8, .cmd, .lin 0 0 0, .n, .res, .between 1 2⟩ -- cancel
  , ⟨0x0F, 0x0F, 0, 511, .u8, .ro, .lin 0 0 0, .n, .any, .any⟩ -- state
  , ⟨0x10, 0x10, 0, 511, .u16, .ro, .lin 0 0 0, .n, .any, .any⟩ -- outcome
  , ⟨0x11, 0x11, 0, 511, .u64, .ro, .lin 0 0 0, .n, .any, .any⟩ -- anchor_resolved
  , ⟨0x12, 0x12, 0, 511, .u64, .ro, .lin 0 0 0, .n, .any, .any⟩ -- start
  , ⟨0x13, 0x13, 0, 511, .u64, .ro, .lin 0 0 0, .n, .any, .any⟩ -- end
  , ⟨0x14, 0x14, 0, 511, .u8, .ro, .lin 0 0 0, .n, .any, .any⟩ -- members
  ] ++
  [ ⟨0x15, 0x15, 0, 511, .u8, .ro, .lin 0 0 0, .n, .any, .any⟩ -- applies_from
  , ⟨0x16, 0x16, 0, 511, .u8, .ro, .lin 255 0 0, .n, .any, .any⟩ -- domain
  , ⟨0x17, 0x17, 0, 511, .u8, .ro, .lin 0 0 0, .n, .any, .any⟩ -- depth
  ]

/-- The objects of 0x2600 (i_boost to users). -/
def profileRows : List ObjRow :=
  [ ⟨0x01, 0x01, 0, 63, .u16, .rw, .lin 320 0 0, .p, .dev, .any⟩ -- i_boost
  , ⟨0x02, 0x02, 0, 63, .u16, .rw, .lin 600 0 0, .p, .dev, .between 1 10000⟩ -- t_boost_max
  , ⟨0x03, 0x03, 0, 63, .u16, .rw, .lin 300 0 0, .p, .dev, .any⟩ -- i_peak
  , ⟨0x04, 0x04, 0, 63, .u16, .rw, .lin 20 0 0, .p, .dev, .any⟩ -- i_peak_ripple
  , ⟨0x05, 0x05, 0, 63, .u16, .rw, .lin 3000 0 0, .p, .dev, .any⟩ -- t_peak
  , ⟨0x06, 0x06, 0, 63, .u16, .rw, .lin 160 0 0, .p, .dev, .any⟩ -- i_hold
  , ⟨0x07, 0x07, 0, 63, .u16, .rw, .lin 20 0 0, .p, .dev, .any⟩ -- i_hold_ripple
  , ⟨0x08, 0x08, 0, 63, .u8, .rw, .lin 0 0 0, .p, .dev, .between 0 1⟩ -- decay_mode
  , ⟨0x09, 0x09, 0, 63, .u16, .rw, .lin 160 0 0, .p, .dev, .between 32 1600⟩ -- t_off_min
  , ⟨0x0A, 0x0A, 0, 63, .u16, .rw, .lin 48 0 0, .p, .dev, .between 16 320⟩ -- t_blank
  , ⟨0x0B, 0x0B, 0, 63, .u16, .rw, .lin 10 0 0, .p, .dev, .any⟩ -- i_zero
  , ⟨0x0C, 0x0C, 0, 63, .u16, .rw, .lin 200 0 0, .p, .dev, .between 10 200⟩ -- t_decay_max
  , ⟨0x0D, 0x0D, 0, 63, .u8, .rw, .lin 0 0 0, .p, .dev, .between 0 2⟩ -- boost_policy
  , ⟨0x0E, 0x0E, 0, 63, .u16, .rw, .lin 500 0 0, .p, .dev, .between 0 10000⟩ -- t_ready_max
  , ⟨0x0F, 0x0F, 0, 63, .u8, .rw, .lin 0 0 0, .p, .dev, .mask 0x1⟩ -- flags
  , ⟨0x10, 0x10, 0, 63, .u16, .ro, .lin 0 0 0, .n, .any, .any⟩ -- users
  ]

/-- The objects of 0x2700 (gate_strength to clear). -/
def channelRows : List ObjRow :=
  [ ⟨0x01, 0x01, 0, 47, .u8, .rwd, .lin 2 0 0, .p, .res, .between 0 3⟩ -- gate_strength
  , ⟨0x02, 0x02, 0, 47, .u8, .ro, .div 3, .n, .any, .any⟩ -- bank
  , ⟨0x03, 0x03, 0, 47, .u8, .ro, .lin 0 0 0, .n, .any, .any⟩ -- phase
  , ⟨0x04, 0x04, 0, 47, .u16, .ro, .lin 0 0 0, .n, .any, .any⟩ -- last_outcome
  , ⟨0x05, 0x05, 0, 47, .u16, .ro, .lin 0 0 0, .n, .any, .any⟩ -- current_now
  , ⟨0x06, 0x06, 0, 47, .u16, .ro, .lin 0 0 0, .n, .any, .any⟩ -- last_boost_time
  , ⟨0x07, 0x07, 0, 47, .u16, .ro, .lin 0 0 0, .n, .any, .any⟩ -- last_max_current
  , ⟨0x08, 0x08, 0, 47, .u16, .ro, .lin 0 0 0, .n, .any, .any⟩ -- last_defer
  , ⟨0x09, 0x09, 0, 47, .u32, .ro, .lin 0 0 0, .n, .any, .any⟩ -- shots
  , ⟨0x0A, 0x0A, 0, 47, .u32, .ro, .lin 0 0 0, .n, .any, .any⟩ -- defers
  , ⟨0x0B, 0x0B, 0, 47, .u32, .ro, .lin 0 0 0, .n, .any, .any⟩ -- overlap_drops
  , ⟨0x0C, 0x0C, 0, 47, .u32, .ro, .lin 0 0 0, .n, .any, .any⟩ -- displacements
  , ⟨0x0D, 0x0D, 0, 47, .u32, .ro, .lin 0 0 0, .n, .any, .any⟩ -- chop_limits
  , ⟨0x0E, 0x0E, 0, 47, .u8, .cmd, .lin 0 0 0, .n, .res, .between 1 1⟩ -- clear
  ]

/-- The objects of 0x2740 (member 0–2 to clear). -/
def bankRows : List ObjRow :=
  [ ⟨0x01, 0x03, 0, 15, .u8, .lck, .lin 0 3 1, .p, .res, .betweenOr 0 47 255⟩ -- member 0–2
  , ⟨0x04, 0x06, 0, 15, .u8, .lck, .lin 255 0 0, .p, .res, .betweenOr 0 47 255⟩ -- member 3–5
  , ⟨0x07, 0x07, 0, 15, .u8, .lck, .div 8, .p, .res, .between 0 1⟩ -- boost_sel
  , ⟨0x08, 0x08, 0, 15, .bool, .lck, .lin 0 0 0, .p, .res, .any⟩ -- map_lock
  , ⟨0x09, 0x09, 0, 15, .u8, .rw, .lin 0 0 0, .p, .res, .between 0 2⟩ -- overlap_policy
  , ⟨0x0A, 0x0A, 0, 15, .u16, .rw, .lin 2000 0 0, .p, .res, .any⟩ -- max_defer
  , ⟨0x0B, 0x0B, 0, 15, .u8, .rwd, .lin 16 0 0, .p, .res, .between 8 64⟩ -- dead_time
  , ⟨0x0C, 0x0C, 0, 15, .u8, .rwd, .lin 2 0 0, .p, .res, .between 0 3⟩ -- hs_gate_strength
  , ⟨0x0D, 0x0D, 0, 15, .u8, .rw, .lin 6 0 0, .p, .res, .mask 0x7⟩ -- ovl_mask
  , ⟨0x0E, 0x0E, 0, 15, .u8, .ro, .lin 0 0 0, .n, .any, .any⟩ -- state
  , ⟨0x0F, 0x0F, 0, 15, .u8, .ro, .lin 255 0 0, .n, .any, .any⟩ -- holder
  , ⟨0x10, 0x10, 0, 15, .u8, .ro, .lin 0 0 0, .n, .any, .any⟩ -- waiting
  , ⟨0x11, 0x11, 0, 15, .u16, .ro, .lin 0 0 0, .n, .any, .any⟩ -- bank_current
  , ⟨0x12, 0x12, 0, 15, .u32, .ro, .lin 0 0 0, .n, .any, .any⟩ -- defers
  , ⟨0x13, 0x13, 0, 15, .u32, .ro, .lin 0 0 0, .n, .any, .any⟩ -- drops
  , ⟨0x14, 0x14, 0, 15, .u32, .ro, .lin 0 0 0, .n, .any, .any⟩ -- displacements
  , ⟨0x15, 0x15, 0, 15, .u8, .cmd, .lin 0 0 0, .n, .res, .between 1 1⟩ -- clear
  ]

/-- The objects of 0x2780 (rail_enable to clear). -/
def boostRows : List ObjRow :=
  [ ⟨0x01, 0x01, 0, 1, .bool, .rw, .lin 0 0 0, .n, .res, .any⟩ -- rail_enable
  , ⟨0x02, 0x02, 0, 1, .u16, .rw, .lin 260 0 0, .p, .res, .between 96 400⟩ -- v_target
  , ⟨0x03, 0x03, 0, 1, .u16, .rw, .lin 16 0 0, .p, .res, .between 4 80⟩ -- ready_margin
  , ⟨0x04, 0x04, 0, 1, .u16, .rwd, .lin 400 0 0, .p, .res, .between 100 1000⟩ -- fsw
  , ⟨0x05, 0x05, 0, 1, .u16, .rwd, .lin 100 0 0, .p, .res, .between 10 250⟩ -- i_limit
  , ⟨0x06, 0x06, 0, 1, .u16, .rwd, .lin 50 0 0, .p, .res, .between 0 2000⟩ -- slope_comp
  , ⟨0x07, 0x07, 0, 1, .u8, .rwd, .lin 0 1 0, .p, .res, .between 0 3⟩ -- ramp
  , ⟨0x08, 0x08, 0, 1, .u8, .rwd, .lin 1 0 0, .p, .res, .between 0 3⟩ -- loop_comp
  , ⟨0x09, 0x09, 0, 1, .u16, .rw, .lin 80 0 0, .p, .res, .between 4 400⟩ -- soft_start
  , ⟨0x0A, 0x0A, 0, 1, .u8, .rwd, .lin 90 0 0, .p, .res, .between 50 92⟩ -- max_duty
  , ⟨0x0B, 0x0B, 0, 1, .u8, .rw, .lin 2 0 0, .p, .res, .mask 0x3⟩ -- src_mask
  , ⟨0x0C, 0x0C, 0, 1, .u8, .ro, .lin 0 0 0, .n, .any, .any⟩ -- status
  , ⟨0x0D, 0x0D, 0, 1, .u16, .ro, .lin 0 0 0, .n, .any, .any⟩ -- v_rail
  , ⟨0x0E, 0x0E, 0, 1, .u32, .ro, .lin 0 0 0, .n, .any, .any⟩ -- last_recharge
  , ⟨0x0F, 0x0F, 0, 1, .u32, .ro, .lin 0 0 0, .n, .any, .any⟩ -- ready_falls
  , ⟨0x10, 0x10, 0, 1, .u16, .ro, .tabI [0x00FF, 0xFF00], .n, .any, .any⟩ -- banks
  , ⟨0x11, 0x11, 0, 1, .u8, .cmd, .lin 0 0 0, .n, .res, .between 1 1⟩ -- clear
  ]

/-- The objects of 0x2800 (enable to clear). -/
def closureRows : List ObjRow :=
  [ ⟨0x01, 0x01, 0, 47, .bool, .rw, .lin 0 0 0, .p, .res, .any⟩ -- enable
  , ⟨0x02, 0x02, 0, 47, .u8, .rw, .lin 1 0 0, .p, .res, .between 0 1⟩ -- anchor
  , ⟨0x03, 0x03, 0, 47, .u16, .rw, .lin 500 0 0, .p, .res, .between 0 20000⟩ -- win_start
  , ⟨0x04, 0x04, 0, 47, .u16, .rw, .lin 3500 0 0, .p, .res, .between 20 20000⟩ -- win_len
  , ⟨0x05, 0x05, 0, 47, .u8, .rw, .lin 4 0 0, .p, .res, .between 0 15⟩ -- smooth
  , ⟨0x06, 0x06, 0, 47, .u8, .rw, .lin 8 0 0, .p, .res, .between 1 32⟩ -- step
  , ⟨0x07, 0x07, 0, 47, .u8, .rw, .lin 0 0 0, .p, .res, .between 0 1⟩ -- polarity
  , ⟨0x08, 0x08, 0, 47, .u16, .rw, .lin 64 0 0, .p, .res, .between 1 65535⟩ -- kink_min
  , ⟨0x09, 0x09, 0, 47, .u16, .rw, .lin 1500 0 0, .p, .res, .between 1000 2200⟩ -- dsn_rseries
  , ⟨0x0A, 0x0A, 0, 47, .u8, .rw, .lin 14 0 0, .p, .res, .any⟩ -- clo_mask
  , ⟨0x0B, 0x0B, 0, 47, .bool, .rw, .lin 1 0 0, .p, .res, .any⟩ -- learn_enable
  , ⟨0x0C, 0x0C, 0, 47, .u8, .rw, .lin 64 0 0, .p, .res, .between 1 255⟩ -- gain
  , ⟨0x0D, 0x0D, 0, 47, .u32, .rw, .lin 0x19000 0 0, .p, .res, .between 1024 2048000⟩ -- step_max
  , ⟨0x0E, 0x0E, 0, 47, .i32, .rw, .lin 0xFFB1E000 0 0, .p, .res, .any⟩ -- trim_min
  , ⟨0x0F, 0x0F, 0, 47, .i32, .rw, .lin 0x1F4000 0 0, .p, .res, .any⟩ -- trim_max
  , ⟨0x10, 0x10, 0, 47, .i32, .rw, .lin 0 0 0, .p, .res, .any⟩ -- trim_init
  , ⟨0x11, 0x11, 0, 47, .u32, .rw, .lin 0xFA000 0 0, .p, .res, .between 10240 10240000⟩ -- outlier_lim
  , ⟨0x12, 0x12, 0, 47, .u32, .rw, .lin 0x2800 0 0, .p, .res, .between 0 1024000⟩ -- conv_band
  , ⟨0x13, 0x13, 0, 47, .u8, .rw, .lin 8 0 0, .p, .res, .between 1 255⟩ -- fail_limit
  , ⟨0x14, 0x17, 0, 47, .i32, .rw, .lin 0 0 0, .l, .res, .any⟩ -- trim 0–3
  ] ++
  [ ⟨0x18, 0x1B, 0, 47, .u8, .ro, .lin 0 0 0, .l, .any, .any⟩ -- learn_state 0–3
  , ⟨0x1C, 0x1C, 0, 47, .u64, .ro, .lin 0 0 0, .n, .any, .any⟩ -- last_close_time
  , ⟨0x1D, 0x1D, 0, 47, .u32, .ro, .lin 0 0 0, .n, .any, .any⟩ -- last_hyd
  , ⟨0x1E, 0x1E, 0, 47, .i32, .ro, .lin 0 0 0, .n, .any, .any⟩ -- last_error
  , ⟨0x1F, 0x1F, 0, 47, .i32, .ro, .lin 0 0 0, .n, .any, .any⟩ -- last_kink
  , ⟨0x20, 0x20, 0, 47, .u16, .ro, .lin 0 0 0, .n, .any, .any⟩ -- last_result
  , ⟨0x21, 0x21, 0, 47, .u8, .ro, .lin 255 0 0, .n, .any, .any⟩ -- last_lane
  , ⟨0x22, 0x22, 0, 47, .u32, .ro, .lin 0 0 0, .n, .any, .any⟩ -- results
  , ⟨0x23, 0x23, 0, 47, .u32, .ro, .lin 0 0 0, .n, .any, .any⟩ -- not_detected
  , ⟨0x24, 0x24, 0, 47, .u32, .ro, .lin 0 0 0, .n, .any, .any⟩ -- outside
  , ⟨0x25, 0x25, 0, 47, .u32, .ro, .lin 0 0 0, .n, .any, .any⟩ -- no_lane
  , ⟨0x26, 0x26, 0, 47, .u32, .ro, .lin 0 0 0, .n, .any, .any⟩ -- outliers
  , ⟨0x27, 0x27, 0, 47, .u32, .ro, .lin 0 0 0, .n, .any, .any⟩ -- clamps
  , ⟨0x28, 0x28, 0, 47, .u8, .cmd, .lin 0 0 0, .n, .res, .mask 0xF⟩ -- reset_learning
  , ⟨0x29, 0x29, 0, 47, .u8, .cmd, .lin 0 0 0, .n, .res, .between 1 1⟩ -- clear
  ]

/-- The objects of 0x2840 (lane_enable to clear). -/
def laneRows : List ObjRow :=
  [ ⟨0x01, 0x01, 0, 15, .bool, .rw, .lin 1 0 0, .p, .dev, .any⟩ -- lane_enable
  , ⟨0x02, 0x02, 0, 15, .u8, .ro, .lin 0 0 0, .n, .any, .any⟩ -- state
  , ⟨0x03, 0x03, 0, 15, .u8, .ro, .lin 255 0 0, .n, .any, .any⟩ -- channel
  , ⟨0x04, 0x04, 0, 15, .u64, .ro, .lin 0 0 0, .n, .any, .any⟩ -- reserved_until
  , ⟨0x05, 0x05, 0, 15, .u32, .ro, .lin 0 0 0, .n, .any, .any⟩ -- captures
  , ⟨0x06, 0x06, 0, 15, .u32, .ro, .lin 0 0 0, .n, .any, .any⟩ -- overruns
  , ⟨0x07, 0x07, 0, 15, .u8, .cmd, .lin 0 0 0, .n, .dev, .between 1 2⟩ -- hold
  , ⟨0x08, 0x08, 0, 15, .u64, .ro, .lin 0 0 0, .n, .any, .any⟩ -- last_t0
  , ⟨0x09, 0x09, 0, 15, .u32, .ro, .lin 0 0 0, .n, .any, .any⟩ -- last_len
  , ⟨0x0A, 0x0A, 0, 15, .blob 163840, .ro, .bytes [], .n, .any, .any⟩ -- last_capture
  , ⟨0x0B, 0x0B, 0, 15, .u16, .ro, .lin 0xFFFF 0 0, .n, .any, .any⟩ -- last_shot
  , ⟨0x0C, 0x0C, 0, 15, .u8, .cmd, .lin 0 0 0, .n, .dev, .between 1 1⟩ -- clear
  ]

/-- The objects of 0x2880 (diag_mask to clear). -/
def chanDiagRows : List ObjRow :=
  [ ⟨0x01, 0x01, 0, 47, .u8, .rw, .lin 3 0 0, .p, .res, .mask 0x3⟩ -- diag_mask
  , ⟨0x02, 0x02, 0, 47, .bool, .rw, .lin 0 0 0, .p, .res, .any⟩ -- latch_open
  , ⟨0x03, 0x03, 0, 47, .u16, .rw, .lin 20 0 0, .p, .res, .between 4 1023⟩ -- open_thresh
  , ⟨0x04, 0x04, 0, 47, .u16, .rw, .lin 200 0 0, .p, .res, .between 10 1000⟩ -- t_open
  , ⟨0x05, 0x05, 0, 47, .u16, .rw, .lin 1000 0 0, .p, .res, .between 100 1023⟩ -- i_short
  , ⟨0x06, 0x06, 0, 47, .u16, .rw, .lin 3000 0 0, .p, .res, .between 500 10000⟩ -- vds_limit
  , ⟨0x07, 0x07, 0, 47, .u16, .rw, .lin 160 0 0, .p, .res, .between 16 1600⟩ -- t_desat
  , ⟨0x08, 0x08, 0, 47, .u8, .rw, .lin 16 0 0, .p, .res, .between 1 255⟩ -- chop_limit
  , ⟨0x09, 0x09, 0, 47, .u16, .ro, .lin 0 0 0, .n, .any, .any⟩ -- status
  , ⟨0x0A, 0x0A, 0, 47, .u16, .ro, .lin 0 0 0, .n, .any, .any⟩ -- last_diag
  , ⟨0x0B, 0x0B, 0, 47, .u64, .ro, .lin 0 0 0, .n, .any, .any⟩ -- last_diag_time
  , ⟨0x0C, 0x0C, 0, 47, .u32, .ro, .lin 0 0 0, .n, .any, .any⟩ -- not_ready_count
  , ⟨0x0D, 0x0D, 0, 47, .u32, .ro, .lin 0 0 0, .n, .any, .any⟩ -- open_count
  , ⟨0x0E, 0x0E, 0, 47, .u32, .ro, .lin 0 0 0, .n, .any, .any⟩ -- short_batt_count
  , ⟨0x0F, 0x0F, 0, 47, .u32, .ro, .lin 0 0 0, .n, .any, .any⟩ -- short_gnd_count
  , ⟨0x10, 0x10, 0, 47, .u32, .ro, .lin 0 0 0, .n, .any, .any⟩ -- chop_count
  , ⟨0x11, 0x11, 0, 47, .u32, .ro, .lin 0 0 0, .n, .any, .any⟩ -- inhibit_drops
  , ⟨0x12, 0x12, 0, 47, .u32, .ro, .lin 0 0 0, .n, .any, .any⟩ -- blocked_drops
  , ⟨0x13, 0x13, 0, 47, .u8, .cmd, .lin 0 0 0, .n, .res, .between 1 1⟩ -- clear_fault
  , ⟨0x14, 0x14, 0, 47, .u8, .cmd, .lin 0 0 0, .n, .res, .between 1 1⟩ -- clear
  ]

/-- The objects of 0x28B0 (t_sg to clear). -/
def bankDiagRows : List ObjRow :=
  [ ⟨0x01, 0x01, 0, 15, .u16, .rw, .lin 20 0 0, .p, .res, .between 10 200⟩ -- t_sg
  , ⟨0x02, 0x02, 0, 15, .u16, .rw, .lin 40 0 0, .p, .res, .between 8 1023⟩ -- leak_thresh
  , ⟨0x03, 0x03, 0, 15, .u8, .rw, .lin 3 0 0, .p, .res, .mask 0x3⟩ -- bank_mask
  , ⟨0x04, 0x04, 0, 15, .u8, .ro, .lin 0 0 0, .n, .any, .any⟩ -- status
  , ⟨0x05, 0x05, 0, 15, .i16, .ro, .lin 0 0 0, .n, .any, .any⟩ -- driver_temp
  , ⟨0x06, 0x06, 0, 15, .u64, .ro, .lin 0 0 0, .n, .any, .any⟩ -- fault_time
  , ⟨0x07, 0x07, 0, 15, .u32, .ro, .lin 0 0 0, .n, .any, .any⟩ -- switch_failures
  , ⟨0x08, 0x08, 0, 15, .u32, .ro, .lin 0 0 0, .n, .any, .any⟩ -- ot_events
  , ⟨0x09, 0x09, 0, 15, .u8, .cmd, .lin 0 0 0, .n, .res, .between 1 1⟩ -- clear_fault
  , ⟨0x0A, 0x0A, 0, 15, .u8, .cmd, .lin 0 0 0, .n, .res, .between 1 1⟩ -- clear
  ]

/-- The objects of 0x28C0 (ov_margin to clear). -/
def boostDiagRows : List ObjRow :=
  [ ⟨0x01, 0x01, 0, 1, .u16, .rw, .lin 60 0 0, .p, .res, .between 8 200⟩ -- ov_margin
  , ⟨0x02, 0x02, 0, 1, .u16, .rw, .lin 50 0 0, .p, .res, .between 1 1000⟩ -- ready_timeout
  , ⟨0x03, 0x03, 0, 1, .u8, .rw, .lin 3 0 0, .p, .res, .mask 0x3⟩ -- diag_mask
  , ⟨0x04, 0x04, 0, 1, .u8, .ro, .lin 0 0 0, .n, .any, .any⟩ -- status
  , ⟨0x05, 0x05, 0, 1, .u32, .ro, .lin 0 0 0, .n, .any, .any⟩ -- ov_events
  , ⟨0x06, 0x06, 0, 1, .u32, .ro, .lin 0 0 0, .n, .any, .any⟩ -- ov_drops
  , ⟨0x07, 0x07, 0, 1, .u16, .ro, .lin 0 0 0, .n, .any, .any⟩ -- max_v_rail
  , ⟨0x08, 0x08, 0, 1, .u8, .cmd, .lin 0 0 0, .n, .res, .between 1 1⟩ -- clear
  ]

/-- The objects of 0x28C8 (status to clear). -/
def protectRows : List ObjRow :=
  [ ⟨0x01, 0x01, 0, 0, .u16, .ro, .lin 0 0 0, .n, .any, .any⟩ -- status
  , ⟨0x02, 0x02, 0, 0, .i16, .rw, .lin 150 0 0, .p, .dev, .between 120 160⟩ -- temp_warn
  , ⟨0x03, 0x03, 0, 0, .i16, .ro, .lin 0 0 0, .n, .any, .any⟩ -- power_die_temp
  , ⟨0x04, 0x04, 0, 0, .i16, .ro, .lin 0 0 0, .n, .any, .any⟩ -- core_die_temp
  , ⟨0x05, 0x05, 0, 0, .u32, .ro, .lin 0 0 0, .n, .any, .any⟩ -- arm_blocked
  , ⟨0x06, 0x06, 0, 0, .u32, .ro, .lin 0 0 0, .n, .any, .any⟩ -- kill_events
  , ⟨0x07, 0x07, 0, 0, .u32, .ro, .lin 0 0 0, .n, .any, .any⟩ -- link_losses
  , ⟨0x08, 0x08, 0, 0, .u64, .ro, .lin 0 0 0, .n, .any, .any⟩ -- last_stop_time
  , ⟨0x09, 0x09, 0, 0, .u8, .rw, .lin 31 0 0, .p, .dev, .mask 0x1F⟩ -- stop_mask
  , ⟨0x0A, 0x0A, 0, 0, .u8, .cmd, .lin 0 0 0, .n, .dev, .between 1 1⟩ -- clear
  ]

/-- The objects of 0x2900 (enable to clear). -/
def pressureRows : List ObjRow :=
  [ ⟨0x01, 0x01, 0, 23, .bool, .rw, .lin 0 0 0, .p, .dom, .any⟩ -- enable
  , ⟨0x02, 0x02, 0, 23, .u8, .rwd, .lin 255 0 0, .p, .dom, .betweenOr 0 23 255⟩ -- slot
  , ⟨0x03, 0x03, 0, 23, .u32, .rwd, .lin 0x61A8 0 0, .p, .dom, .between 100 100000⟩ -- full_scale
  , ⟨0x04, 0x04, 0, 23, .u8, .rwd, .lin 1 0 0, .p, .dom, .between 0 1⟩ -- peg_mode
  , ⟨0x05, 0x05, 0, 23, .i32, .rw, .lin 0xFFBC71C7 0 0, .p, .dom, .between (-16777215) 16777215⟩ -- peg_start
  , ⟨0x06, 0x06, 0, 23, .u32, .rw, .lin 0x71C72 0 0, .p, .dom, .between 1 2097152⟩ -- peg_len
  , ⟨0x07, 0x07, 0, 23, .u16, .rw, .lin 100 0 0, .p, .dom, .any⟩ -- peg_kpa
  , ⟨0x08, 0x08, 0, 23, .u16, .rwd, .lin 1600 0 0, .p, .dom, .between 200 5000⟩ -- comp_ratio
  , ⟨0x09, 0x09, 0, 23, .u16, .rw, .lin 1330 0 0, .p, .dom, .between 1100 1600⟩ -- gamma
  , ⟨0x0A, 0x0A, 0, 23, .i32, .rw, .lin 0xFFF55555 0 0, .p, .dom, .any⟩ -- hr_start
  , ⟨0x0B, 0x0B, 0, 23, .i32, .rw, .lin 0x200000 0 0, .p, .dom, .any⟩ -- hr_end
  , ⟨0x0C, 0x0C, 0, 23, .u16, .rw, .lin 0 0 0, .p, .dom, .any⟩ -- p_limit
  , ⟨0x0D, 0x0D, 0, 23, .u16, .rw, .lin 200 0 0, .p, .dom, .any⟩ -- flat_limit
  , ⟨0x0E, 0x0E, 0, 23, .u8, .rw, .lin 6 0 0, .p, .dom, .mask 0x7⟩ -- src_mask
  , ⟨0x0F, 0x0F, 0, 23, .i16, .ro, .lin 0 0 0, .n, .any, .any⟩ -- pressure_now
  , ⟨0x10, 0x10, 0, 23, .u16, .ro, .lin 0 0 0, .n, .any, .any⟩ -- status
  , ⟨0x11, 0x11, 0, 23, .u8, .ro, .lin 0 0 0, .n, .any, .any⟩ -- cycle
  , ⟨0x12, 0x12, 0, 23, .i16, .ro, .lin 0 0 0, .n, .any, .any⟩ -- peak
  , ⟨0x13, 0x13, 0, 23, .i32, .ro, .lin 0 0 0, .n, .any, .any⟩ -- peak_angle
  , ⟨0x14, 0x14, 0, 23, .i32, .ro, .lin 0 0 0, .n, .any, .any⟩ -- imep_g
  ] ++
  [ ⟨0x15, 0x15, 0, 23, .i32, .ro, .lin 0 0 0, .n, .any, .any⟩ -- imep_n
  , ⟨0x16, 0x16, 0, 23, .i32, .ro, .lin 0 0 0, .n, .any, .any⟩ -- mfb50
  , ⟨0x17, 0x17, 0, 23, .i32, .ro, .lin 0 0 0, .n, .any, .any⟩ -- torque_mean
  , ⟨0x18, 0x18, 0, 23, .u16, .ro, .lin 0 0 0, .n, .any, .any⟩ -- result_flags
  , ⟨0x19, 0x19, 0, 23, .i16, .ro, .lin 0 0 0, .n, .any, .any⟩ -- peg_offset
  , ⟨0x1A, 0x1A, 0, 23, .u32, .ro, .lin 0 0 0, .n, .any, .any⟩ -- cycles_valid
  , ⟨0x1B, 0x1B, 0, 23, .u32, .ro, .lin 0 0 0, .n, .any, .any⟩ -- cycles_invalid
  , ⟨0x1C, 0x1C, 0, 23, .u32, .ro, .lin 0 0 0, .n, .any, .any⟩ -- clips
  , ⟨0x1D, 0x1D, 0, 23, .blob 14400, .ro, .bytes [], .n, .any, .any⟩ -- grid_last
  , ⟨0x1E, 0x1E, 0, 23, .u8, .cmd, .lin 0 0 0, .n, .dom, .between 1 1⟩ -- clear
  ]

/-- The objects of 0x2920 (enable to clear). -/
def vibrationRows : List ObjRow :=
  [ ⟨0x01, 0x01, 0, 7, .bool, .rw, .lin 0 0 0, .p, .dom, .any⟩ -- enable
  , ⟨0x02, 0x02, 0, 7, .u8, .rwd, .lin 255 0 0, .p, .dom, .betweenOr 0 1 255⟩ -- domain
  , ⟨0x03, 0x03, 0, 7, .u8, .rwd, .lin 0 0 0, .p, .dom, .between 0 3⟩ -- gain
  , ⟨0x04, 0x04, 0, 7, .bool, .rwd, .lin 0 0 0, .p, .dom, .any⟩ -- bias
  , ⟨0x05, 0x05, 0, 7, .u8, .rw, .lin 3 0 0, .p, .dom, .mask 0x3⟩ -- src_mask
  , ⟨0x06, 0x06, 0, 7, .u8, .ro, .lin 0 0 0, .n, .any, .any⟩ -- status
  , ⟨0x07, 0x07, 0, 7, .u32, .ro, .lin 0 0 0, .n, .any, .any⟩ -- clips
  , ⟨0x10, 0x10, 0, 7, .u8, .rw, .lin 255 0 0, .p, .dom, .betweenOr 0 23 255⟩ -- band_slot
  , ⟨0x18, 0x18, 0, 7, .u8, .rw, .lin 255 0 0, .p, .dom, .betweenOr 0 23 255⟩ -- band_slot
  , ⟨0x20, 0x20, 0, 7, .u8, .rw, .lin 255 0 0, .p, .dom, .betweenOr 0 23 255⟩ -- band_slot
  , ⟨0x28, 0x28, 0, 7, .u8, .rw, .lin 255 0 0, .p, .dom, .betweenOr 0 23 255⟩ -- band_slot
  , ⟨0x11, 0x11, 0, 7, .i32, .rw, .lin 0 0 0, .p, .dom, .between (-16777215) 16777215⟩ -- win_start
  , ⟨0x19, 0x19, 0, 7, .i32, .rw, .lin 0 0 0, .p, .dom, .between (-16777215) 16777215⟩ -- win_start
  , ⟨0x21, 0x21, 0, 7, .i32, .rw, .lin 0 0 0, .p, .dom, .between (-16777215) 16777215⟩ -- win_start
  , ⟨0x29, 0x29, 0, 7, .i32, .rw, .lin 0 0 0, .p, .dom, .between (-16777215) 16777215⟩ -- win_start
  , ⟨0x12, 0x12, 0, 7, .u32, .rw, .lin 0xE38E4 0 0, .p, .dom, .between 1 2097152⟩ -- win_len
  , ⟨0x1A, 0x1A, 0, 7, .u32, .rw, .lin 0xE38E4 0 0, .p, .dom, .between 1 2097152⟩ -- win_len
  , ⟨0x22, 0x22, 0, 7, .u32, .rw, .lin 0xE38E4 0 0, .p, .dom, .between 1 2097152⟩ -- win_len
  , ⟨0x2A, 0x2A, 0, 7, .u32, .rw, .lin 0xE38E4 0 0, .p, .dom, .between 1 2097152⟩ -- win_len
  , ⟨0x13, 0x13, 0, 7, .u32, .rw, .lin 8000 0 0, .p, .dom, .between 1000 200000⟩ -- centre_hz
  ] ++
  [ ⟨0x1B, 0x1B, 0, 7, .u32, .rw, .lin 8000 0 0, .p, .dom, .between 1000 200000⟩ -- centre_hz
  , ⟨0x23, 0x23, 0, 7, .u32, .rw, .lin 8000 0 0, .p, .dom, .between 1000 200000⟩ -- centre_hz
  , ⟨0x2B, 0x2B, 0, 7, .u32, .rw, .lin 8000 0 0, .p, .dom, .between 1000 200000⟩ -- centre_hz
  , ⟨0x14, 0x14, 0, 7, .u32, .rw, .lin 2000 0 0, .p, .dom, .between 100 200000⟩ -- bandwidth_hz
  , ⟨0x1C, 0x1C, 0, 7, .u32, .rw, .lin 2000 0 0, .p, .dom, .between 100 200000⟩ -- bandwidth_hz
  , ⟨0x24, 0x24, 0, 7, .u32, .rw, .lin 2000 0 0, .p, .dom, .between 100 200000⟩ -- bandwidth_hz
  , ⟨0x2C, 0x2C, 0, 7, .u32, .rw, .lin 2000 0 0, .p, .dom, .between 100 200000⟩ -- bandwidth_hz
  , ⟨0x15, 0x15, 0, 7, .u32, .rw, .lin 0 0 0, .p, .dom, .any⟩ -- threshold
  , ⟨0x1D, 0x1D, 0, 7, .u32, .rw, .lin 0 0 0, .p, .dom, .any⟩ -- threshold
  , ⟨0x25, 0x25, 0, 7, .u32, .rw, .lin 0 0 0, .p, .dom, .any⟩ -- threshold
  , ⟨0x2D, 0x2D, 0, 7, .u32, .rw, .lin 0 0 0, .p, .dom, .any⟩ -- threshold
  , ⟨0x16, 0x16, 0, 7, .u32, .ro, .lin 0 0 0, .n, .any, .any⟩ -- energy
  , ⟨0x1E, 0x1E, 0, 7, .u32, .ro, .lin 0 0 0, .n, .any, .any⟩ -- energy
  , ⟨0x26, 0x26, 0, 7, .u32, .ro, .lin 0 0 0, .n, .any, .any⟩ -- energy
  , ⟨0x2E, 0x2E, 0, 7, .u32, .ro, .lin 0 0 0, .n, .any, .any⟩ -- energy
  , ⟨0x17, 0x17, 0, 7, .u32, .ro, .lin 0 0 0, .n, .any, .any⟩ -- exceeds
  , ⟨0x1F, 0x1F, 0, 7, .u32, .ro, .lin 0 0 0, .n, .any, .any⟩ -- exceeds
  , ⟨0x27, 0x27, 0, 7, .u32, .ro, .lin 0 0 0, .n, .any, .any⟩ -- exceeds
  , ⟨0x2F, 0x2F, 0, 7, .u32, .ro, .lin 0 0 0, .n, .any, .any⟩ -- exceeds
  , ⟨0x30, 0x30, 0, 7, .u8, .rw, .lin 255 0 0, .p, .dom, .betweenOr 0 3 255⟩ -- raw_band
  ] ++
  [ ⟨0x31, 0x31, 0, 7, .u16, .ro, .lin 0 0 0, .n, .any, .any⟩ -- raw_len
  , ⟨0x32, 0x32, 0, 7, .blob 8192, .ro, .bytes [], .n, .any, .any⟩ -- raw_capture
  , ⟨0x33, 0x33, 0, 7, .u8, .cmd, .lin 0 0 0, .n, .dom, .between 1 1⟩ -- clear
  ]

/-- The objects of 0x2A00 (enable to clear). -/
def comparatorRows : List ObjRow :=
  [ ⟨0x01, 0x01, 0, 15, .bool, .rw, .lin 0 0 0, .p, .res, .any⟩ -- enable
  , ⟨0x02, 0x02, 0, 15, .u8, .rw, .lin 2 0 0, .p, .res, .between 0 3⟩ -- mode
  , ⟨0x03, 0x03, 0, 15, .u16, .rw, .lin 500 0 0, .p, .res, .between 0 1023⟩ -- thr_hi
  , ⟨0x04, 0x04, 0, 15, .u16, .rw, .lin 250 0 0, .p, .res, .between 0 1023⟩ -- thr_lo
  , ⟨0x05, 0x05, 0, 15, .u8, .rw, .lin 2 0 0, .p, .res, .between 0 7⟩ -- hyst_hi
  , ⟨0x06, 0x06, 0, 15, .u8, .rw, .lin 2 0 0, .p, .res, .between 0 7⟩ -- hyst_lo
  , ⟨0x07, 0x07, 0, 15, .u8, .rw, .lin 0 0 0, .p, .res, .between 0 4⟩ -- ref_hi
  , ⟨0x08, 0x08, 0, 15, .u8, .rw, .lin 0 0 0, .p, .res, .between 0 4⟩ -- ref_lo
  , ⟨0x09, 0x09, 0, 15, .u8, .rw, .lin 2 0 0, .p, .res, .between 0 2⟩ -- edge_hi
  , ⟨0x0A, 0x0A, 0, 15, .u8, .rw, .lin 2 0 0, .p, .res, .between 0 2⟩ -- edge_lo
  , ⟨0x0B, 0x0B, 0, 15, .u8, .rw, .lin 0 0 0, .p, .res, .any⟩ -- blank_mode
  , ⟨0x0C, 0x0C, 0, 15, .u16, .rw, .lin 0xFFFF 0 0, .p, .res, .betweenOr 0 255 65535⟩ -- blank_line
  , ⟨0x0D, 0x0D, 0, 15, .u16, .rw, .lin 0xFFFF 0 0, .p, .res, .betweenOr 0 255 65535⟩ -- blank_end_line
  , ⟨0x0E, 0x0E, 0, 15, .u16, .rw, .lin 0 0 0, .p, .res, .any⟩ -- blank_len
  , ⟨0x0F, 0x0F, 0, 15, .u8, .rw, .lin 0 0 0, .p, .res, .mask 0x1F⟩ -- src_mask
  , ⟨0x10, 0x10, 0, 15, .u8, .ro, .lin 48 0 0, .n, .any, .any⟩ -- status
  , ⟨0x11, 0x11, 0, 15, .u64, .ro, .lin 0 0 0, .n, .any, .any⟩ -- hi_time
  , ⟨0x12, 0x12, 0, 15, .u64, .ro, .lin 0 0 0, .n, .any, .any⟩ -- lo_time
  , ⟨0x13, 0x13, 0, 15, .u16, .ro, .lin 0 0 0, .n, .any, .any⟩ -- hi_toggles
  , ⟨0x14, 0x14, 0, 15, .u16, .ro, .lin 0 0 0, .n, .any, .any⟩ -- lo_toggles
  ] ++
  [ ⟨0x15, 0x15, 0, 15, .u8, .cmd, .lin 0 0 0, .n, .res, .between 1 1⟩ -- clear
  ]

/-- The objects of 0x2A10 (enable to start). -/
def rampRows : List ObjRow :=
  [ ⟨0x01, 0x01, 0, 3, .bool, .rw, .lin 0 0 0, .p, .dev, .any⟩ -- enable
  , ⟨0x02, 0x02, 0, 3, .u8, .rw, .lin 0 0 0, .p, .dev, .between 0 1⟩ -- ramp_mode
  , ⟨0x03, 0x03, 0, 3, .u16, .rw, .lin 0 0 0, .p, .dev, .between 0 4095⟩ -- v_start
  , ⟨0x04, 0x04, 0, 3, .u16, .rw, .lin 4000 0 0, .p, .dev, .between 0 4095⟩ -- v_end
  , ⟨0x05, 0x05, 0, 3, .u32, .rw, .lin 1000 0 0, .p, .dev, .between 1 2000000⟩ -- slope
  , ⟨0x06, 0x06, 0, 3, .u16, .rw, .lin 0xFFFF 0 0, .p, .dev, .betweenOr 0 255 65535⟩ -- reset_line
  , ⟨0x07, 0x07, 0, 3, .u8, .ro, .lin 0 0 0, .n, .any, .any⟩ -- owner
  , ⟨0x08, 0x08, 0, 3, .u8, .ro, .lin 0 0 0, .n, .any, .any⟩ -- status
  , ⟨0x09, 0x09, 0, 3, .u64, .ro, .lin 0 0 0, .n, .any, .any⟩ -- last_reset
  , ⟨0x0A, 0x0A, 0, 3, .u8, .cmd, .lin 0 0 0, .n, .dev, .between 1 1⟩ -- start
  ]

/-- The objects of 0x2B00 (mode to clear). -/
def timerRows : List ObjRow :=
  [ ⟨0x01, 0x01, 0, 31, .u8, .rwd, .lin 0 0 0, .p, .res, .between 0 1⟩ -- mode
  , ⟨0x02, 0x02, 0, 31, .u16, .rwd, .lin 0 0 0, .p, .res, .any⟩ -- prescale
  , ⟨0x03, 0x03, 0, 31, .u32, .rw, .lin 0xFFFFFFFF 0 0, .p, .res, .any⟩ -- period
  , ⟨0x04, 0x04, 0, 31, .u32, .rw, .lin 0 0 0, .p, .res, .any⟩ -- cmp0
  , ⟨0x05, 0x05, 0, 31, .u32, .rw, .lin 0 0 0, .p, .res, .any⟩ -- cmp1
  , ⟨0x06, 0x06, 0, 31, .u8, .rwd, .lin 0 0 0, .p, .res, .mask 0x3⟩ -- cmp_mode
  , ⟨0x07, 0x07, 0, 31, .u8, .rw, .lin 0 0 0, .p, .res, .mask 0x3F⟩ -- act_cmp0
  , ⟨0x08, 0x08, 0, 31, .u8, .rw, .lin 0 0 0, .p, .res, .mask 0x3F⟩ -- act_cmp1
  , ⟨0x09, 0x09, 0, 31, .u8, .rw, .lin 0 0 0, .p, .res, .mask 0x3F⟩ -- act_period
  , ⟨0x0A, 0x0A, 0, 31, .u8, .rw, .lin 0 0 0, .p, .res, .mask 0x3F⟩ -- act_rise
  , ⟨0x0B, 0x0B, 0, 31, .u8, .rw, .lin 0 0 0, .p, .res, .mask 0x3F⟩ -- act_fall
  , ⟨0x0C, 0x0C, 0, 31, .u8, .rwd, .lin 255 0 0, .p, .res, .betweenOr 0 31 255⟩ -- link
  , ⟨0x0D, 0x0D, 0, 31, .u16, .rwd, .lin 0xFFFF 0 0, .p, .res, .betweenOr 0 255 65535⟩ -- start_line
  , ⟨0x0E, 0x0E, 0, 31, .u16, .rwd, .lin 0xFFFF 0 0, .p, .res, .betweenOr 0 255 65535⟩ -- reset_line
  , ⟨0x0F, 0x0F, 0, 31, .u16, .rwd, .lin 0xFFFF 0 0, .p, .res, .betweenOr 0 287 65535⟩ -- cap_src
  , ⟨0x10, 0x10, 0, 31, .u16, .rwd, .lin 0xFFFF 0 0, .p, .res, .betweenOr 0 255 65535⟩ -- cap_fall_line
  , ⟨0x11, 0x11, 0, 31, .u8, .rw, .lin 0 0 0, .p, .res, .mask 0x7F⟩ -- src_mask
  , ⟨0x12, 0x12, 0, 31, .u8, .cmd, .lin 0 0 0, .n, .res, .between 1 3⟩ -- cmd
  , ⟨0x13, 0x13, 0, 31, .u8, .ro, .lin 0 0 0, .n, .any, .any⟩ -- state
  , ⟨0x14, 0x14, 0, 31, .u32, .ro, .lin 0 0 0, .n, .any, .any⟩ -- count
  ] ++
  [ ⟨0x15, 0x15, 0, 31, .u8, .ro, .lin 0 0 0, .n, .any, .any⟩ -- status
  , ⟨0x16, 0x16, 0, 31, .u64, .ro, .lin 0 0 0, .n, .any, .any⟩ -- rise_time
  , ⟨0x17, 0x17, 0, 31, .u64, .ro, .lin 0 0 0, .n, .any, .any⟩ -- fall_time
  , ⟨0x18, 0x18, 0, 31, .u64, .ro, .lin 0 0 0, .n, .any, .any⟩ -- width
  , ⟨0x19, 0x19, 0, 31, .u64, .ro, .lin 0 0 0, .n, .any, .any⟩ -- rise_period
  , ⟨0x1A, 0x1A, 0, 31, .u32, .ro, .lin 0 0 0, .n, .any, .any⟩ -- rise_count
  , ⟨0x1B, 0x1B, 0, 31, .u64, .ro, .lin 0 0 0, .n, .any, .any⟩ -- last_period_end
  , ⟨0x1C, 0x1C, 0, 31, .u32, .ro, .lin 0 0 0, .n, .any, .any⟩ -- captures
  , ⟨0x1D, 0x1D, 0, 31, .u32, .ro, .lin 0 0 0, .n, .any, .any⟩ -- unpaired
  , ⟨0x1E, 0x1E, 0, 31, .u8, .cmd, .lin 0 0 0, .n, .res, .between 1 1⟩ -- clear
  ]

/-- The objects of 0x2B80 (release to skipped). -/
def gstartRows : List ObjRow :=
  [ ⟨0x01, 0x01, 0, 0, .u32, .cmd, .lin 0 0 0, .n, .res, .any⟩ -- release
  , ⟨0x02, 0x02, 0, 0, .u32, .rw, .lin 0 0 0, .p, .dev, .any⟩ -- line_mask
  , ⟨0x03, 0x03, 0, 0, .u16, .rw, .lin 0xFFFF 0 0, .p, .dev, .betweenOr 0 255 65535⟩ -- line
  , ⟨0x04, 0x04, 0, 0, .u64, .ro, .lin 0 0 0, .n, .any, .any⟩ -- last_release
  , ⟨0x05, 0x05, 0, 0, .u32, .ro, .lin 0 0 0, .n, .any, .any⟩ -- releases
  , ⟨0x06, 0x06, 0, 0, .u32, .ro, .lin 0 0 0, .n, .any, .any⟩ -- skipped
  ]

/-- The objects of 0x2C00 (enable to clear). -/
def lanternRows : List ObjRow :=
  [ ⟨0x01, 0x01, 0, 7, .bool, .rw, .lin 0 0 0, .n, .res, .any⟩ -- enable
  , ⟨0x02, 0x02, 0, 7, .u8, .rwd, .lin 0 0 0, .p, .res, .between 0 1⟩ -- mode
  , ⟨0x03, 0x03, 0, 7, .u8, .rwd, .lin 0 4 0, .p, .res, .between 0 31⟩ -- pin_base
  , ⟨0x04, 0x04, 0, 7, .u8, .rwd, .lin 4 0 0, .p, .res, .between 1 8⟩ -- pin_count
  , ⟨0x05, 0x05, 0, 7, .u8, .rwd, .lin 0 0 0, .p, .res, .any⟩ -- pin_dir
  , ⟨0x06, 0x06, 0, 7, .u8, .rwd, .lin 0 0 0, .p, .res, .any⟩ -- idle_levels
  , ⟨0x07, 0x07, 0, 7, .u8, .rwd, .lin 0 0 0, .p, .res, .between 0 7⟩ -- out_pin
  , ⟨0x08, 0x08, 0, 7, .u8, .rwd, .lin 0 0 0, .p, .res, .between 0 7⟩ -- in_pin
  , ⟨0x09, 0x09, 0, 7, .u8, .rwd, .lin 0 0 0, .p, .res, .any⟩ -- shift_cfg
  , ⟨0x0A, 0x0A, 0, 7, .u8, .rwd, .lin 8 0 0, .p, .res, .between 1 32⟩ -- fixed_count
  , ⟨0x0B, 0x0B, 0, 7, .u8, .rwd, .lin 0 0 0, .p, .res, .any⟩ -- clk_src
  , ⟨0x0C, 0x0C, 0, 7, .u16, .rwd, .lin 127 0 0, .p, .res, .between 31 65535⟩ -- clk_div
  , ⟨0x0D, 0x0D, 0, 7, .u8, .rwd, .lin 0 0 0, .p, .res, .between 0 31⟩ -- clk_timer
  , ⟨0x0E, 0x0E, 0, 7, .u8, .rwd, .lin 0 0 0, .p, .res, .between 0 31⟩ -- clk_pin
  , ⟨0x0F, 0x0F, 0, 7, .u8, .rwd, .lin 0 0 0, .p, .res, .between 0 1⟩ -- clk_edge
  , ⟨0x10, 0x10, 0, 7, .u8, .rwd, .lin 0 0 0, .p, .res, .between 0 31⟩ -- start_pc
  , ⟨0x11, 0x11, 0, 7, .u32, .rwd, .lin 0 0 0, .p, .res, .any⟩ -- tx_ring_base
  , ⟨0x12, 0x12, 0, 7, .u32, .rwd, .lin 0 0 0, .p, .res, .any⟩ -- tx_ring_len
  , ⟨0x13, 0x13, 0, 7, .u32, .rwd, .lin 0 0 0, .p, .res, .any⟩ -- rx_ring_base
  , ⟨0x14, 0x14, 0, 7, .u32, .rwd, .lin 0 0 0, .p, .res, .any⟩ -- rx_ring_len
  ] ++
  [ ⟨0x15, 0x15, 0, 7, .u32, .rw, .lin 0 0 0, .n, .res, .any⟩ -- tx_write
  , ⟨0x16, 0x16, 0, 7, .u32, .ro, .lin 0 0 0, .n, .any, .any⟩ -- tx_read
  , ⟨0x17, 0x17, 0, 7, .u32, .ro, .lin 0 0 0, .n, .any, .any⟩ -- rx_write
  , ⟨0x18, 0x18, 0, 7, .u32, .rw, .lin 0 0 0, .n, .res, .any⟩ -- rx_read
  , ⟨0x19, 0x19, 0, 7, .u8, .rw, .lin 1 0 0, .p, .res, .any⟩ -- src_mask
  , ⟨0x1A, 0x1A, 0, 7, .u32, .cmd, .lin 0 0 0, .n, .res, .mask 0x1FFFF⟩ -- inject
  , ⟨0x1B, 0x1B, 0, 7, .u8, .ro, .lin 0 0 0, .n, .any, .any⟩ -- inject_state
  , ⟨0x1C, 0x1C, 0, 7, .u8, .ro, .lin 0 0 0, .n, .any, .any⟩ -- abort_bits
  , ⟨0x1D, 0x1D, 0, 7, .u8, .ro, .lin 0 0 0, .n, .any, .any⟩ -- state
  , ⟨0x1E, 0x1E, 0, 7, .u8, .ro, .lin 0 0 0, .n, .any, .any⟩ -- stall_reason
  , ⟨0x20, 0x3F, 0, 7, .u16, .rw, .lin 0 0 0, .p, .res, .any⟩ -- program 0–31
  , ⟨0x40, 0x40, 0, 7, .u8, .ro, .lin 0 0 0, .n, .any, .any⟩ -- pc
  , ⟨0x41, 0x41, 0, 7, .u16, .ro, .lin 0 0 0, .n, .any, .any⟩ -- ir
  , ⟨0x42, 0x42, 0, 7, .u8, .ro, .lin 0 0 0, .n, .any, .any⟩ -- bit_count
  , ⟨0x43, 0x43, 0, 7, .u16, .ro, .lin 0 0 0, .n, .any, .any⟩ -- k0
  , ⟨0x44, 0x44, 0, 7, .u16, .ro, .lin 0 0 0, .n, .any, .any⟩ -- k1
  , ⟨0x45, 0x45, 0, 7, .u32, .ro, .lin 0 0 0, .n, .any, .any⟩ -- osh
  , ⟨0x46, 0x46, 0, 7, .u32, .ro, .lin 0 0 0, .n, .any, .any⟩ -- ish
  , ⟨0x47, 0x47, 0, 7, .u16, .ro, .lin 0 0 0, .n, .any, .any⟩ -- shift_counts
  , ⟨0x48, 0x48, 0, 7, .u8, .ro, .lin 0 0 0, .n, .any, .any⟩ -- fifo_levels
  ] ++
  [ ⟨0x49, 0x49, 0, 7, .u8, .ro, .lin 0 0 0, .n, .any, .any⟩ -- status
  , ⟨0x4A, 0x4A, 0, 7, .u32, .ro, .lin 0 0 0, .n, .any, .any⟩ -- tick_overruns
  , ⟨0x4B, 0x4B, 0, 7, .u32, .ro, .lin 0 0 0, .n, .any, .any⟩ -- rx_overflows
  , ⟨0x4C, 0x4C, 0, 7, .u32, .ro, .lin 0 0 0, .n, .any, .any⟩ -- tx_underflows
  , ⟨0x4D, 0x4D, 0, 7, .u32, .ro, .lin 0 0 0, .n, .any, .any⟩ -- ring_stalls
  , ⟨0x4E, 0x4E, 0, 7, .u8, .cmd, .lin 0 0 0, .n, .res, .between 1 1⟩ -- clear
  ]

/-- The objects of 0x2D00 (loft_size to window). -/
def loftRows : List ObjRow :=
  [ ⟨0x01, 0x01, 0, 0, .u32, .ro, .lin 0xC00000 0 0, .n, .any, .any⟩ -- loft_size
  , ⟨0x02, 0x07, 0, 0, .u32, .ro, .tab [0x000000, 0x280000, 0x380000, 0x500000, 0x700000, 0x800000], .n, .any, .any⟩ -- region_base 0–5
  , ⟨0x08, 0x0D, 0, 0, .u32, .ro, .tab [0x280000, 0x100000, 0x180000, 0x200000, 0x100000, 0x400000], .n, .any, .any⟩ -- region_len 0–5
  , ⟨0x0E, 0x0E, 0, 0, .u32, .ro, .lin 0 0 0, .n, .any, .any⟩ -- ecc_corrected
  , ⟨0x0F, 0x0F, 0, 0, .u32, .ro, .lin 0 0 0, .n, .any, .any⟩ -- ecc_uncorrected
  , ⟨0x10, 0x10, 0, 0, .u32, .ro, .lin 0 0 0, .n, .any, .any⟩ -- last_ecc_addr
  , ⟨0x11, 0x11, 0, 0, .u64, .ro, .lin 0 0 0, .n, .any, .any⟩ -- last_ecc_time
  , ⟨0x12, 0x12, 0, 0, .u32, .ro, .lin 0 0 0, .n, .any, .any⟩ -- scrub_passes
  , ⟨0x13, 0x13, 0, 0, .u8, .rw, .lin 3 0 0, .p, .dev, .any⟩ -- src_mask
  , ⟨0x14, 0x18, 0, 0, .u32, .ro, .lin 0 0 0, .n, .any, .any⟩ -- max_wait 0–4
  , ⟨0x19, 0x19, 0, 0, .u8, .cmd, .lin 0 0 0, .n, .dev, .between 1 1⟩ -- clear
  , ⟨0x20, 0x25, 0, 0, .u32, .rw, .lin 0x800000 0 0, .n, .any, .any⟩ -- window_addr 0–5
  , ⟨0x28, 0x2D, 0, 0, .u32, .rw, .lin 64 0 0, .n, .any, .between 1 65536⟩ -- window_len 0–5
  , ⟨0x30, 0x30, 0, 0, .blob 65536, .rw, .bytes [], .n, .any, .any⟩ -- window
  ]

/-- The objects of 0x2D10 (cmd to clear). -/
def dmaRows : List ObjRow :=
  [ ⟨0x01, 0x01, 0, 15, .u8, .cmd, .lin 0 0 0, .n, .res, .between 1 3⟩ -- cmd
  , ⟨0x02, 0x02, 0, 15, .bool, .rw, .lin 0 0 0, .n, .res, .any⟩ -- pause
  , ⟨0x03, 0x03, 0, 15, .u32, .rwd, .lin 0 0 0, .p, .res, .any⟩ -- src_addr
  , ⟨0x04, 0x04, 0, 15, .u32, .rwd, .lin 0x800000 0 0, .p, .res, .any⟩ -- dst_addr
  , ⟨0x05, 0x05, 0, 15, .u8, .rwd, .lin 0 0 0, .p, .res, .between 0 3⟩ -- elem_size
  , ⟨0x06, 0x08, 0, 15, .u16, .rwd, .lin 1 0 0, .p, .res, .between 1 65535⟩ -- count0–2
  , ⟨0x09, 0x0B, 0, 15, .i32, .rwd, .lin 0 0 0, .p, .res, .any⟩ -- src_step0–2
  , ⟨0x0C, 0x0E, 0, 15, .i32, .rwd, .lin 0 0 0, .p, .res, .any⟩ -- dst_step0–2
  , ⟨0x0F, 0x0F, 0, 15, .u8, .rwd, .lin 0 0 0, .p, .res, .between 0 1⟩ -- src_mode
  , ⟨0x10, 0x10, 0, 15, .u8, .rwd, .lin 0 0 0, .p, .res, .between 0 1⟩ -- dst_mode
  , ⟨0x11, 0x11, 0, 15, .u8, .rwd, .lin 255 0 0, .p, .res, .betweenOr 0 7 255⟩ -- ring_engine
  , ⟨0x12, 0x12, 0, 15, .u16, .rwd, .lin 0xFFFF 0 0, .p, .res, .betweenOr 0 255 65535⟩ -- start_line
  , ⟨0x13, 0x13, 0, 15, .u16, .rwd, .lin 0xFFFF 0 0, .p, .res, .betweenOr 0 255 65535⟩ -- pace_line
  , ⟨0x14, 0x14, 0, 15, .u8, .rwd, .lin 0 0 0, .p, .res, .between 0 2⟩ -- pace_unit
  , ⟨0x15, 0x15, 0, 15, .u8, .rwd, .lin 0 0 0, .p, .res, .between 0 2⟩ -- restart
  , ⟨0x16, 0x16, 0, 15, .u8, .ro, .lin 0 0 0, .n, .any, .any⟩ -- state
  , ⟨0x17, 0x17, 0, 15, .u8, .ro, .lin 0 0 0, .n, .any, .any⟩ -- status
  , ⟨0x18, 0x18, 0, 15, .u32, .ro, .lin 0 0 0, .n, .any, .any⟩ -- elements_done
  , ⟨0x19, 0x19, 0, 15, .u32, .ro, .lin 0 0 0, .n, .any, .any⟩ -- runs
  , ⟨0x1A, 0x1A, 0, 15, .u8, .ro, .lin 0 0 0, .n, .any, .any⟩ -- credits
  ] ++
  [ ⟨0x1B, 0x1B, 0, 15, .u32, .ro, .lin 0 0 0, .n, .any, .any⟩ -- pace_lost
  , ⟨0x1C, 0x1C, 0, 15, .u64, .ro, .lin 0 0 0, .n, .any, .any⟩ -- last_complete
  , ⟨0x1D, 0x1D, 0, 15, .u32, .ro, .lin 0 0 0, .n, .any, .any⟩ -- error_addr
  , ⟨0x1E, 0x1E, 0, 15, .u8, .cmd, .lin 0 0 0, .n, .res, .between 1 1⟩ -- clear
  ]

/-- The objects of 0x2E00 (lock to clear). -/
def irqRows : List ObjRow :=
  [ ⟨0x01, 0x01, 0, 0, .bool, .lck, .lin 0 0 0, .n, .dev, .any⟩ -- lock
  , ⟨0x02, 0x02, 0, 0, .bool, .lck, .lin 0 0 0, .p, .dev, .any⟩ -- auto_lock
  , ⟨0x03, 0x03, 0, 0, .u8, .ro, .lin 0 0 0, .n, .any, .any⟩ -- status
  , ⟨0x04, 0x04, 0, 0, .u32, .ro, .lin 0 0 0, .n, .any, .any⟩ -- faults
  , ⟨0x05, 0x05, 0, 0, .u32, .ro, .lin 0 0 0, .n, .any, .any⟩ -- last_fault
  , ⟨0x06, 0x06, 0, 0, .u64, .ro, .lin 0 0 0, .n, .any, .any⟩ -- last_fault_time
  , ⟨0x07, 0x07, 0, 0, .u8, .cmd, .lin 0 0 0, .n, .dev, .between 1 1⟩ -- clear
  ]

/-- The objects of 0x2E01 (route 0–15 to active). -/
def sourceRows : List ObjRow :=
  [ ⟨0x01, 0x10, 0, 7, .u16, .lck, .routes, .p, .dev, .mask 0xF0F⟩ -- route 0–15
  , ⟨0x11, 0x11, 0, 7, .u16, .ro, .lin 0 0 0, .n, .any, .any⟩ -- pending
  , ⟨0x12, 0x12, 0, 7, .u16, .ro, .lin 0 0 0, .n, .any, .any⟩ -- active
  ]

/-- The objects of 0x2E10 (depth to clear). -/
def stackRows : List ObjRow :=
  [ ⟨0x01, 0x01, 0, 3, .u8, .ro, .lin 0 0 0, .n, .any, .any⟩ -- depth
  , ⟨0x02, 0x02, 0, 3, .u8, .ro, .lin 255 0 0, .n, .any, .any⟩ -- top
  , ⟨0x03, 0x03, 0, 3, .u8, .ro, .lin 255 0 0, .n, .any, .any⟩ -- top_priority
  , ⟨0x04, 0x04, 0, 3, .bool, .ro, .lin 0 0 0, .n, .any, .any⟩ -- frozen
  , ⟨0x05, 0x05, 0, 3, .u32, .ro, .lin 0 0 0, .n, .any, .any⟩ -- ignored
  , ⟨0x06, 0x06, 0, 3, .u32, .ro, .lin 0 0 0, .n, .any, .any⟩ -- faults
  , ⟨0x07, 0x07, 0, 3, .blob 16, .ro, .bytes [255, 255, 255, 255, 255, 255, 255, 255, 255, 255, 255, 255, 255, 255, 255, 255], .n, .any, .any⟩ -- stack
  , ⟨0x08, 0x08, 0, 3, .u8, .cmd, .lin 0 0 0, .n, .dev, .between 1 1⟩ -- stack_reset
  , ⟨0x09, 0x09, 0, 3, .u8, .cmd, .lin 0 0 0, .n, .dev, .between 1 1⟩ -- clear
  ]

/-- The objects of 0x2E20 (enable to log 0–7). -/
def nightRows : List ObjRow :=
  [ ⟨0x01, 0x01, 0, 0, .bool, .rw, .lin 0 0 0, .p, .dev, .any⟩ -- enable
  , ⟨0x02, 0x02, 0, 0, .u16, .rw, .lin 0x3FFE 0 0, .p, .dev, .mask 0x3FFE⟩ -- wake_domains
  , ⟨0x03, 0x03, 0, 0, .u8, .rw, .lin 1 0 0, .p, .dev, .mask 0x3F⟩ -- wake_hattn
  , ⟨0x04, 0x04, 0, 0, .u16, .rw, .lin 1000 0 0, .p, .dev, .between 1 60000⟩ -- hattn_hold
  , ⟨0x05, 0x05, 0, 0, .u32, .rw, .lin 0xEA60 0 0, .p, .dev, .between 10 86400000⟩ -- wake_period
  , ⟨0x10, 0x1F, 0, 0, .u32, .rw, .lin 0 0 0, .p, .dev, .mask 0xF000FFFF⟩ -- watch 0–15
  , ⟨0x20, 0x20, 0, 0, .u16, .ro, .lin 0 0 0, .n, .any, .any⟩ -- live
  , ⟨0x21, 0x21, 0, 0, .u16, .ro, .lin 0 0 0, .n, .any, .any⟩ -- dead
  , ⟨0x22, 0x22, 0, 0, .u32, .ro, .lin 0 0 0, .n, .any, .any⟩ -- wakes
  , ⟨0x23, 0x2A, 0, 0, .u32, .ro, .lin 0 0 0, .n, .any, .any⟩ -- log 0–7
  ]

/-- The objects of 0x2E40 (sender to last_send). -/
def mailboxRows : List ObjRow :=
  [ ⟨0x01, 0x01, 0, 31, .u8, .lck, .lin 255 0 0, .p, .dev, .betweenOr 0 5 255⟩ -- sender
  , ⟨0x02, 0x02, 0, 31, .u8, .lck, .lin 255 0 0, .p, .dev, .betweenOr 0 5 255⟩ -- receiver
  , ⟨0x03, 0x03, 0, 31, .u8, .lck, .lin 1 0 0, .p, .dev, .mask 0x3⟩ -- src_cfg
  , ⟨0x04, 0x04, 0, 31, .blob 64, .rw, .bytes [], .n, .any, .any⟩ -- message
  , ⟨0x05, 0x05, 0, 31, .u32, .ro, .lin 0 0 0, .n, .any, .any⟩ -- take
  , ⟨0x06, 0x06, 0, 31, .u8, .ro, .lin 0 0 0, .n, .any, .any⟩ -- status
  , ⟨0x07, 0x07, 0, 31, .u8, .ro, .lin 0 0 0, .n, .any, .any⟩ -- sequence
  , ⟨0x08, 0x08, 0, 31, .u32, .ro, .lin 0 0 0, .n, .any, .any⟩ -- sends
  , ⟨0x09, 0x09, 0, 31, .u32, .ro, .lin 0 0 0, .n, .any, .any⟩ -- refused
  , ⟨0x0A, 0x0A, 0, 31, .u64, .ro, .lin 0 0 0, .n, .any, .any⟩ -- last_send
  ]

/-- The objects of 0x2E60 (pair_lock to rings 0–15). -/
def doorbellRows : List ObjRow :=
  [ ⟨0x01, 0x01, 0, 0, .bool, .lck, .lin 0 0 0, .n, .dev, .any⟩ -- pair_lock
  , ⟨0x02, 0x02, 0, 0, .bool, .lck, .lin 0 0 0, .p, .dev, .any⟩ -- auto_lock
  , ⟨0x03, 0x03, 0, 0, .u16, .ro, .lin 0 0 0, .n, .any, .any⟩ -- bells
  , ⟨0x04, 0x04, 0, 0, .u16, .cmd, .lin 0 0 0, .n, .any, .any⟩ -- ring
  , ⟨0x05, 0x05, 0, 0, .u16, .cmd, .lin 0 0 0, .n, .any, .any⟩ -- answer
  , ⟨0x10, 0x1F, 0, 0, .u16, .lck, .lin 0xFFFF 0 0, .p, .dev, .any⟩ -- pair 0–15
  , ⟨0x20, 0x2F, 0, 0, .u32, .ro, .lin 0 0 0, .n, .any, .any⟩ -- rings 0–15
  ]

/-- The objects of 0x2F00 (phase to history 0–15). -/
def resetRows : List ObjRow :=
  [ ⟨0x01, 0x01, 0, 0, .u8, .ro, .lin 8 0 0, .n, .any, .any⟩ -- phase
  , ⟨0x02, 0x02, 0, 0, .u16, .ro, .lin 0 0 0, .n, .any, .any⟩ -- status
  , ⟨0x03, 0x03, 0, 0, .u8, .cmd, .lin 0 0 0, .n, .dev, .between 1 2⟩ -- hold_release
  , ⟨0x04, 0x04, 0, 0, .u8, .ro, .lin 0 0 0, .n, .any, .any⟩ -- opt_code
  , ⟨0x05, 0x05, 0, 0, .u8, .ro, .lin 0 0 0, .n, .any, .any⟩ -- opt_group
  , ⟨0x06, 0x06, 0, 0, .u8, .ro, .lin 0 0 0, .n, .any, .any⟩ -- option_restarts
  , ⟨0x07, 0x07, 0, 0, .u8, .cmd, .lin 0 0 0, .n, .devGrd, .between 1 1⟩ -- device_reset
  , ⟨0x08, 0x08, 0, 0, .u8, .cmd, .lin 0 0 0, .n, .dev, .between 4 13⟩ -- domain_reset
  , ⟨0x09, 0x09, 0, 0, .u16, .rw, .lin 2000 0 0, .p, .dev, .between 100 60000⟩ -- idle_timeout
  , ⟨0x0A, 0x0A, 0, 0, .u8, .ro, .lin 0 0 0, .n, .any, .any⟩ -- domain_reset_state
  , ⟨0x0B, 0x0B, 0, 0, .u32, .ro, .lin 1 0 0, .n, .any, .any⟩ -- reset_count
  , ⟨0x0C, 0x0C, 0, 0, .u32, .ro, .lin 0 0 0, .n, .any, .any⟩ -- core_restarts
  , ⟨0x0D, 0x0D, 0, 0, .u8, .rw, .lin 30 0 0, .p, .dev, .mask 0x1F⟩ -- src_mask
  , ⟨0x10, 0x1F, 0, 0, .u32, .ro, .lin 0 0 0, .n, .any, .any⟩ -- history 0–15
  ]

/-- The objects of 0x2F10 (domain_on to clear). -/
def powerRows : List ObjRow :=
  [ ⟨0x01, 0x01, 0, 0, .u16, .ro, .lin 0x3FFF 0 0, .n, .any, .any⟩ -- domain_on
  , ⟨0x02, 0x02, 0, 0, .u16, .rw, .lin 0x3FFF 0 0, .p, .dev, .mask 0x3FFF⟩ -- domain_req
  , ⟨0x03, 0x03, 0, 0, .u8, .cmd, .lin 0 0 0, .n, .dev, .between 1 1⟩ -- sleep
  , ⟨0x04, 0x04, 0, 0, .u16, .ro, .lin 0 0 0, .n, .any, .any⟩ -- vsup_now
  , ⟨0x05, 0x05, 0, 0, .u16, .ro, .lin 0 0 0, .n, .any, .any⟩ -- vcore_now
  , ⟨0x06, 0x06, 0, 0, .u8, .ro, .lin 0 0 0, .n, .any, .any⟩ -- status
  , ⟨0x07, 0x07, 0, 0, .u32, .ro, .lin 0 0 0, .n, .any, .any⟩ -- brownouts
  , ⟨0x08, 0x08, 0, 0, .u8, .rw, .lin 3 0 0, .p, .dev, .mask 0x3⟩ -- src_mask
  , ⟨0x09, 0x09, 0, 0, .u8, .cmd, .lin 0 0 0, .n, .dev, .between 1 1⟩ -- clear
  ]

/-- The objects of 0x2F20 (commit to log_dropped). -/
def nvRows : List ObjRow :=
  [ ⟨0x01, 0x01, 0, 0, .u8, .cmd, .lin 0 0 0, .n, .dev, .between 1 3⟩ -- commit
  , ⟨0x02, 0x02, 0, 0, .u8, .ro, .lin 0 0 0, .n, .any, .any⟩ -- commit_state
  , ⟨0x03, 0x03, 0, 0, .u8, .ro, .lin 0 0 0, .n, .any, .any⟩ -- persistent_bank
  , ⟨0x04, 0x04, 0, 0, .u32, .ro, .lin 0 0 0, .n, .any, .any⟩ -- persistent_seq
  , ⟨0x05, 0x05, 0, 0, .u8, .ro, .lin 0 0 0, .n, .any, .any⟩ -- learned_bank
  , ⟨0x06, 0x06, 0, 0, .u32, .ro, .lin 0 0 0, .n, .any, .any⟩ -- learned_seq
  , ⟨0x07, 0x07, 0, 0, .u16, .ro, .lin 0 0 0, .n, .any, .any⟩ -- tokens
  , ⟨0x08, 0x08, 0, 0, .u8, .ro, .lin 0 0 0, .n, .any, .any⟩ -- status
  , ⟨0x09, 0x09, 0, 0, .u16, .ro, .lin 0 0 0, .n, .any, .any⟩ -- restore_skipped
  , ⟨0x0A, 0x0A, 0, 0, .u32, .ro, .lin 0 0 0, .n, .any, .any⟩ -- nv_failures
  , ⟨0x0B, 0x0B, 0, 0, .u8, .rw, .lin 6 0 0, .p, .dev, .mask 0x1F⟩ -- src_mask
  , ⟨0x10, 0x10, 0, 0, .u32, .rw, .lin 0 0 0, .n, .any, .any⟩ -- log_index
  , ⟨0x11, 0x11, 0, 0, .blob 512, .ro, .bytes [], .n, .any, .any⟩ -- log_entries
  , ⟨0x12, 0x12, 0, 0, .u32, .ro, .lin 0 0 0, .n, .any, .any⟩ -- log_next
  , ⟨0x13, 0x13, 0, 0, .u32, .ro, .lin 0 0 0, .n, .any, .any⟩ -- log_dropped
  ]

/-- The objects of 0x2F30 (backup 0–31 to retained_valid). -/
def backupRows : List ObjRow :=
  [ ⟨0x01, 0x20, 0, 0, .u32, .rw, .lin 0 0 0, .n, .dev, .any⟩ -- backup 0–31
  , ⟨0x21, 0x21, 0, 0, .blob 16384, .rw, .bytes [], .n, .dev, .any⟩ -- retained_ram
  , ⟨0x22, 0x22, 0, 0, .bool, .ro, .lin 0 0 0, .n, .any, .any⟩ -- retained_valid
  ]

/-- The objects of 0x2F80 (gate to clear). -/
def routeRows : List ObjRow :=
  [ ⟨0x01, 0x01, 0, 127, .bool, .rw, .lin 1 0 0, .p, .dev, .any⟩ -- gate
  , ⟨0x11, 0x11, 0, 127, .bool, .rw, .lin 1 0 0, .p, .dev, .any⟩ -- gate
  , ⟨0x02, 0x02, 0, 127, .u32, .ro, .lin 0 0 0, .n, .any, .any⟩ -- pulses
  , ⟨0x12, 0x12, 0, 127, .u32, .ro, .lin 0 0 0, .n, .any, .any⟩ -- pulses
  , ⟨0x03, 0x03, 0, 127, .u16, .ro, .lin 0 0 0, .n, .any, .any⟩ -- merges
  , ⟨0x13, 0x13, 0, 127, .u16, .ro, .lin 0 0 0, .n, .any, .any⟩ -- merges
  , ⟨0x04, 0x04, 0, 127, .u32, .ro, .lin 0 0 0, .n, .any, .any⟩ -- suppressed
  , ⟨0x14, 0x14, 0, 127, .u32, .ro, .lin 0 0 0, .n, .any, .any⟩ -- suppressed
  , ⟨0x05, 0x05, 0, 127, .u64, .ro, .lin 0 0 0, .n, .any, .any⟩ -- last_pulse
  , ⟨0x15, 0x15, 0, 127, .u64, .ro, .lin 0 0 0, .n, .any, .any⟩ -- last_pulse
  , ⟨0x06, 0x06, 0, 127, .u8, .cmd, .lin 0 0 0, .n, .dev, .between 1 1⟩ -- clear
  , ⟨0x16, 0x16, 0, 127, .u8, .cmd, .lin 0 0 0, .n, .dev, .between 1 1⟩ -- clear
  ]

/-- The objects of 0x3000 (enable to depth). -/
def shotRows : List ObjRow :=
  [ ⟨0x01, 0x01, 0, 1023, .bool, .rw, .lin 0 0 0, .p, .res, .any⟩ -- enable
  , ⟨0x02, 0x02, 0, 1023, .u16, .rw, .lin 0 0 0, .p, .res, .any⟩ -- parent
  , ⟨0x03, 0x03, 0, 1023, .u8, .rw, .lin 255 0 0, .p, .res, .betweenOr 0 47 255⟩ -- channel
  , ⟨0x04, 0x04, 0, 1023, .u8, .rw, .lin 0 0 0, .p, .res, .between 0 63⟩ -- profile
  , ⟨0x05, 0x05, 0, 1023, .u8, .rw, .lin 1 0 0, .p, .res, .between 0 3⟩ -- role
  , ⟨0x06, 0x06, 0, 1023, .u8, .rw, .lin 0 0 0, .p, .res, .between 0 1⟩ -- dur_mode
  , ⟨0x07, 0x07, 0, 1023, .u32, .rw, .lin 0 0 0, .p, .res, .any⟩ -- duration
  , ⟨0x08, 0x08, 0, 1023, .u8, .rw, .lin 0 0 0, .p, .res, .between 0 7⟩ -- anchor_kind
  , ⟨0x09, 0x09, 0, 1023, .i32, .rw, .lin 0 0 0, .p, .res, .any⟩ -- anchor_angle
  , ⟨0x0A, 0x0A, 0, 1023, .i32, .rw, .lin 0 0 0, .p, .res, .any⟩ -- time_offset
  , ⟨0x0B, 0x0B, 0, 1023, .u64, .rw, .lin 0 0 0, .p, .res, .any⟩ -- anchor_time
  , ⟨0x0C, 0x0C, 0, 1023, .u16, .rw, .lin 0 0 0, .p, .res, .any⟩ -- ref
  , ⟨0x0D, 0x0D, 0, 1023, .u8, .rw, .lin 0 0 0, .p, .res, .between 0 2⟩ -- late_policy
  , ⟨0x0E, 0x0E, 0, 1023, .u8, .rw, .lin 0 0 0, .p, .res, .mask 0x7⟩ -- flags
  , ⟨0x0F, 0x0F, 0, 1023, .u16, .rw, .lin 0 0 0, .p, .res, .any⟩ -- cycles
  , ⟨0x10, 0x10, 0, 1023, .u8, .rw, .lin 255 0 0, .p, .res, .betweenOr 0 15 255⟩ -- evt_group
  , ⟨0x11, 0x11, 0, 1023, .u8, .cmd, .lin 0 0 0, .n, .res, .between 1 2⟩ -- cancel
  , ⟨0x12, 0x12, 0, 1023, .u8, .ro, .lin 0 0 0, .n, .any, .any⟩ -- state
  , ⟨0x13, 0x13, 0, 1023, .u16, .ro, .lin 0 0 0, .n, .any, .any⟩ -- outcome
  , ⟨0x14, 0x14, 0, 1023, .u64, .ro, .lin 0 0 0, .n, .any, .any⟩ -- next_start
  ] ++
  [ ⟨0x15, 0x15, 0, 1023, .u64, .ro, .lin 0 0 0, .n, .any, .any⟩ -- last_start
  , ⟨0x16, 0x16, 0, 1023, .u64, .ro, .lin 0 0 0, .n, .any, .any⟩ -- last_end
  , ⟨0x17, 0x17, 0, 1023, .u32, .ro, .lin 0 0 0, .n, .any, .any⟩ -- elec_duration
  , ⟨0x18, 0x18, 0, 1023, .u8, .ro, .lin 0 0 0, .n, .any, .any⟩ -- applies_from
  , ⟨0x19, 0x19, 0, 1023, .u32, .ro, .lin 0 0 0, .n, .any, .any⟩ -- occurrences
  , ⟨0x1A, 0x1A, 0, 1023, .u32, .ro, .lin 0 0 0, .n, .any, .any⟩ -- drops
  , ⟨0x1B, 0x1B, 0, 1023, .u8, .ro, .lin 255 0 0, .n, .any, .any⟩ -- domain
  , ⟨0x1C, 0x1C, 0, 1023, .u8, .ro, .lin 255 0 0, .n, .any, .any⟩ -- bank
  , ⟨0x1D, 0x1D, 0, 1023, .u8, .ro, .lin 0 0 0, .n, .any, .any⟩ -- depth
  ]

/-- The objects of 0x5000 (export to records_skipped). -/
def learnedRows : List ObjRow :=
  [ ⟨0x01, 0x01, 0, 0, .blob 65536, .ro, .bytes [], .n, .any, .any⟩ -- export
  , ⟨0x02, 0x02, 0, 0, .blob 65536, .wo, .bytes [], .n, .dev, .any⟩ -- import
  , ⟨0x03, 0x03, 0, 0, .u8, .ro, .lin 0 0 0, .n, .any, .any⟩ -- import_state
  , ⟨0x04, 0x04, 0, 0, .u8, .rw, .lin 15 0 0, .n, .dev, .mask 0xF⟩ -- import_scope
  , ⟨0x05, 0x05, 0, 0, .u32, .ro, .lin 0 0 0, .l, .any, .any⟩ -- last_import_serial
  , ⟨0x06, 0x06, 0, 0, .u64, .ro, .lin 0 0 0, .l, .any, .any⟩ -- last_import_time
  , ⟨0x07, 0x07, 0, 0, .u32, .ro, .lin 0 0 0, .l, .any, .any⟩ -- imports
  , ⟨0x08, 0x08, 0, 0, .u16, .ro, .lin 0 0 0, .n, .any, .any⟩ -- records_skipped
  ]

/-- The blocks of the index space (R40): first index, number of instances, objects. -/
def objBlocks : List ObjBlock :=
  [ ⟨0x1018, 1, .identity, identityRows⟩
  , ⟨0x1020, 1, .resources, resourcesRows⟩
  , ⟨0x1030, 1, .firmware, firmwareRows⟩
  , ⟨0x1100, 6, .port, portRows⟩
  , ⟨0x1200, 6, .session, sessionRows⟩
  , ⟨0x1300, 1, .features, featuresRows⟩
  , ⟨0x1400, 64, .cyclic, cyclicRows⟩
  , ⟨0x1600, 6, .notify, notifyRows⟩
  , ⟨0x1700, 1, .claims, claimsRows⟩
  , ⟨0x1800, 1, .guardian, guardianRows⟩
  , ⟨0x2000, 1, .timebase, timebaseRows⟩
  , ⟨0x2100, 8, .wheel, wheelRows⟩
  , ⟨0x2180, 2, .domain, domainRows⟩
  , ⟨0x2190, 2, .pattern, patternRows⟩
  , ⟨0x2200, 2, .synth, synthRows⟩
  , ⟨0x2210, 2, .tooth, toothRows⟩ ] ++
  [ ⟨0x2220, 2, .harmonic, harmonicRows⟩
  , ⟨0x2400, 512, .sheaf, sheafRows⟩
  , ⟨0x2600, 64, .profile, profileRows⟩
  , ⟨0x2700, 48, .channel, channelRows⟩
  , ⟨0x2740, 16, .bank, bankRows⟩
  , ⟨0x2780, 2, .boost, boostRows⟩
  , ⟨0x2800, 48, .closure, closureRows⟩
  , ⟨0x2840, 16, .lane, laneRows⟩
  , ⟨0x2880, 48, .chanDiag, chanDiagRows⟩
  , ⟨0x28B0, 16, .bankDiag, bankDiagRows⟩
  , ⟨0x28C0, 2, .boostDiag, boostDiagRows⟩
  , ⟨0x28C8, 1, .protect, protectRows⟩
  , ⟨0x2900, 24, .pressure, pressureRows⟩
  , ⟨0x2920, 8, .vibration, vibrationRows⟩
  , ⟨0x2A00, 16, .comparator, comparatorRows⟩
  , ⟨0x2A10, 4, .ramp, rampRows⟩ ] ++
  [ ⟨0x2B00, 32, .timer, timerRows⟩
  , ⟨0x2B80, 1, .gstart, gstartRows⟩
  , ⟨0x2C00, 8, .lantern, lanternRows⟩
  , ⟨0x2D00, 1, .loft, loftRows⟩
  , ⟨0x2D10, 16, .dma, dmaRows⟩
  , ⟨0x2E00, 1, .irq, irqRows⟩
  , ⟨0x2E01, 8, .source, sourceRows⟩
  , ⟨0x2E10, 4, .stack, stackRows⟩
  , ⟨0x2E20, 1, .night, nightRows⟩
  , ⟨0x2E40, 32, .mailbox, mailboxRows⟩
  , ⟨0x2E60, 1, .doorbell, doorbellRows⟩
  , ⟨0x2F00, 1, .reset, resetRows⟩
  , ⟨0x2F10, 1, .power, powerRows⟩
  , ⟨0x2F20, 1, .nv, nvRows⟩
  , ⟨0x2F30, 1, .backup, backupRows⟩
  , ⟨0x2F80, 128, .route, routeRows⟩ ] ++
  [ ⟨0x3000, 1024, .shot, shotRows⟩
  , ⟨0x5000, 1, .learned, learnedRows⟩ ]

/-- The block that holds an index, if the device implements one there (R40). -/
def blockOf (idx : Nat) : Option ObjBlock :=
  objBlocks.find? (fun b => b.first ≤ idx && idx < b.first + b.count)

/-- The line of a block's map for a subindex of one of its instances. -/
def ObjBlock.row (b : ObjBlock) (inst sub : Nat) : Option ObjRow :=
  b.rows.find? (fun r => r.sub0 ≤ sub && sub ≤ r.sub1 && r.inst0 ≤ inst && inst ≤ r.inst1)

/-- The highest subindex of an instance: what subindex 0x00 reads (R11). -/
def ObjBlock.highest (b : ObjBlock) (inst : Nat) : Nat :=
  (b.rows.filter (fun r => r.inst0 ≤ inst && inst ≤ r.inst1)).foldl (fun m r => max m r.sub1) 0

/-- The line of subindex 0x00 (R11). -/
def ObjBlock.row0 (b : ObjBlock) (inst : Nat) : ObjRow :=
  ⟨0, 0, inst, inst, .u8, .ro, .lin (b.highest inst) 0 0, .n, .any, .any⟩

/-- The line of an object, if it exists (R40). -/
def objRow (idx sub : Nat) : Option ObjRow :=
  match blockOf idx with
  | none => none
  | some b => if sub = 0 then some (b.row0 (idx - b.first)) else b.row (idx - b.first) sub

/-- The default value of a line's object: for a BLOB, of its symbol `off`. -/
def Dflt.value (df : Dflt) (inst subOff off : Nat) : Nat :=
  match df with
  | .lin a p q => a + p * inst + q * subOff
  | .div k => inst / k
  | .tab vs => vs.getD subOff 0
  | .tabI vs => vs.getD inst 0
  | .bytes bs => bs.getD off 0
  | .routes =>
    let src := 16 * inst + subOff
    if src = 127 then 0x0000 else if 120 ≤ src then 0x0800 else 0x0F0F

/-- The default of an object (of symbol `off` of a BLOB); 0 where there is no object. -/
def objDefault (idx sub off : Nat) : Nat :=
  match blockOf idx with
  | none => 0
  | some b =>
    if sub = 0 then b.highest (idx - b.first)
    else match b.row (idx - b.first) sub with
      | none => 0
      | some r => r.dflt.value (idx - b.first) (sub - r.sub0) off

/-- Symbols between the keys of neighbouring objects in the store. -/
def keySpan : Nat := 1048576

/-- The store key of symbol `off` of an object; scalars use offset 0. -/
def okey (idx sub off : Nat) : Nat := (idx * 256 + sub) * keySpan + off

/-- The default by store key. -/
def keyDefault (k : Nat) : Nat := objDefault (k / keySpan / 256) (k / keySpan % 256) (k % keySpan)

/-- Whether a raw value obeys a line's allowed values (R10, R11). -/
def ObjRow.allows (r : ObjRow) (raw : Nat) : Bool :=
  let v : Int := if r.ty.signed then toSigned (8 * r.ty.size) raw else raw
  (if r.ty = .bool then decide (raw ≤ 1) else true) &&
  match r.allowed with
  | .any => true
  | .between lo hi => decide (lo ≤ v ∧ v ≤ hi)
  | .betweenOr lo hi x => decide ((lo ≤ v ∧ v ≤ hi) ∨ v = x)
  | .mask m => decide (raw &&& m = raw)

end Sys2Proof.Machine
end

