-- ==== Sys2Proof/Config.lean ====
section
/-! DEFINITION. What the spec leaves open: free values, as constants with no body. Each is applied to the model's own
counter of free values (`Dev.free`), which every command moves on, and to a number that names what the value stands for;
nothing constrains what it answers. -/

namespace Sys2Proof.Config

/-- A value the spec does not state: draw `n`, purpose `k`. -/
opaque freeNat : Nat → Nat → Nat

/-- A truth value the spec does not state: draw `n`, purpose `k`. -/
opaque freeBool : Nat → Nat → Bool

/-- An integer the spec does not state: draw `n`, purpose `k`. -/
opaque freeInt : Nat → Nat → Int

end Sys2Proof.Config
end

