-- ==== Sys2Proof/Machine/State.lean ====
section
/-! DEFINITION. The state of the SD48 as plain data, and the state right after reset. Every object of the dictionary lives in
`Dev.regs`; what the chapters give the machine beside its objects stands in the typed records of this file. -/

namespace Sys2Proof.Machine

/-- A sparse store: keys strictly rising, no entry equal to its key's default. -/
abbrev Store (α : Type) := List (Nat × α)

/-- Why a run stops with a fault. -/
inductive Fault where
  /-- LOFT_ACCESS at an address outside 0 to 0xBFFFFF (R401): the address does not exist. Safe: no state follows. -/
  | loftAddress
  /-- LOFT_ACCESS for symbols that cross the end of a 64-bit word: an access reads or writes part of ONE word (R402). Safe. -/
  | loftSpan
  deriving DecidableEq, Repr

/-- Why a command is refused by the model. -/
inductive Refusal where
  /-- A command of the table that the model gives no meaning (raised by exec's arm alone). Safe: no state follows. -/
  | notModelled (mnemonic : String)
  deriving DecidableEq, Repr

/-- Status codes of SOP (chapter 00). -/
inductive Status where
  | ok | busy | notOwner | noSession | badIndex | badType | range | locked | disarmedOnly | featureOff | misaligned | tooLate
  | vetoed | nvFail | internal
  deriving DecidableEq, Repr

/-- A message the device sends: a response, a NOTIFY, a CYCLIC message or a raw CAN frame (R44, R83, R86). -/
structure Msg where
  port : Nat
  op : Nat
  tag : Nat
  index : Nat
  sub : Nat
  ctl : Nat
  data : List Byte
  canId : Option Nat := none
  addr : Nat := 0
  uport : Nat := 0
  time : Nat := 0
  /-- P4, P5: the next hop that ARP resolved, and the UDP checksum (R55). -/
  hop : Nat := 0
  sum : Nat := 0
  deriving DecidableEq, Repr

/-- A block transfer in progress (R65 to R67). -/
structure Xfer where
  isWrite : Bool
  index : Nat
  sub : Nat
  ctl : Nat
  total : Nat
  /-- Segments that have passed (R65). -/
  seq : Nat
  /-- Symbols staged by a write, or the snapshot of a read (R67). -/
  data : List Byte
  /-- A segment shorter than the full size has come, so none may follow (R65). -/
  short : Bool
  last : Nat
  deriving DecidableEq, Repr

/-- What a port holds beside its objects. -/
structure Port where
  /-- session_timeout, claim_hold, loss_action and doze_limit as they stood at the session's open (R57). -/
  timeoutMs : Nat := 1000
  holdMs : Nat := 500
  lossAction : Nat := 0
  dozeMs : Nat := 0
  /-- Instant from which the session timeout runs (R60). -/
  lastFrame : Nat := 0
  dozeSince : Nat := 0
  /-- Instant at which the port's claims entered hold (R70). -/
  holdSince : Nat := 0
  /-- Peer of the last session opened since reset (R84). -/
  peer : Option (Nat × Nat) := none
  /-- P0: frames in the receive buffer, oldest first (R49). -/
  rx : List (List Byte) := []
  crcError : Bool := false
  rxDropped : Bool := false
  /-- P0: the read-out queue, head first (R49). -/
  readout : List Msg := []
  xfer : Option Xfer := none
  /-- Batch counter, the tag of the next NOTIFY (R86). -/
  batch : Nat := 0
  /-- A batch is held (R89). -/
  held : Bool := false
  /-- HATTNn asserted by R89. -/
  hattnHeld : Bool := false
  /-- HATTNn driven low by the Nightlight until this instant (R442). -/
  hattnWake : Option Nat := none
  busOff : Bool := false
  /-- P4, P5: the physical link is up. -/
  linkPhys : Bool := false
  /-- Phy role sampled from ETHn_MS in P3: true for master (R54). -/
  strapMaster : Bool := false
  /-- P4, P5: the role the PHY takes, true for master (R54), and the next hops that ARP has resolved (R55). -/
  master : Bool := false
  arp : List Nat := []
  /-- log_index of the port (R488). -/
  logIndex : Nat := 0
  /-- An uncorrectable Loft error met a read for a request of this port (R404). -/
  eccHit : Bool := false
  /-- The configuration values :10 to :15 that took effect at the last reset of PD12 or of the device (R57). -/
  latched : List Nat := []
  deriving DecidableEq, Repr

/-- What a cyclic frame holds beside its object. -/
structure Cyc where
  /-- Instant of the next time trigger (R81). -/
  due : Nat := 0
  /-- The frame built at the last trigger and still unsent (R83). -/
  unsent : Option Msg := none
  /-- The angle word and the time of the last angle trigger, by slot; trigger 2 stands at 24. -/
  fired : Store (Nat × Nat) := []
  deriving DecidableEq, Repr

/-- One source at one target: what is pending and what is active there (R433). -/
structure Pend where
  pending : Bool := false
  active : Bool := false
  prio : Nat := 0
  occ : Nat := 0
  sat : Bool := false
  first : Nat := 0
  queuedAt : Nat := 0
  /-- At P0: the entry stands in a NOTIFY message of the read-out queue (R50, R86). -/
  batched : Bool := false
  deriving DecidableEq, Repr

/-- A supervisor core: its priority stack, top first, as (source, priority) (R435), and whether it runs. -/
structure Core where
  stack : List (Nat × Nat) := []
  frozen : Bool := false
  down : Bool := false
  /-- The source presented to the core (R435). -/
  presented : Option Nat := none
  /-- Instants of the core's restarts, newest first (R460). -/
  restarts : List Nat := []
  deriving DecidableEq, Repr

/-- An event line: its merge window and the counters of its route object (R38, R378). -/
structure EvtLine where
  began : Option Nat := none
  pulses : Nat := 0
  merges : Nat := 0
  suppressed : Nat := 0
  last : Nat := 0
  /-- The pulses that have left for the consumers, and the instants of the last two of them (R37). -/
  count : Nat := 0
  sentAt : Nat := 0
  prevAt : Nat := 0
  deriving DecidableEq, Repr

/-- The Timebase beside its object. -/
structure Tb where
  /-- Failed vernier calibrations in a row (R108). -/
  vernFails : Nat := 0
  /-- The reference that became valid in RC fallback, and since when (R113). -/
  restore : Option (Nat × Nat) := none
  /-- The last calibration of the vernier, and the instant at which vernier_fail last changed (R107, R108). -/
  calAt : Nat := 0
  vernAt : Option Nat := none
  /-- Source 125 is to be raised once its controller has power (R120). -/
  owed : Bool := false
  deriving DecidableEq, Repr
/-- A wheel input beside its object. -/
structure Wheel where
  /-- VR: peak in mV of the last positive half-wave that armed the input (R122). -/
  vrPeak : Nat := 0
  /-- The level change now in the minimum-pulse filter: instant of its crossing and new level (R126). -/
  filt : Option (Nat × Bool) := none
  /-- The level that last passed the filter, and the stamp of that change (R128). -/
  passed : Bool := false
  passedAt : Option Nat := none
  /-- Accepted edges since the domain entered STOPPED, SEARCH or LOSS, or since the assignment (R130). -/
  seen : Nat := 0
  lastIval : Nat := 0
  /-- Accepted edges so far, and that number with the stamp at each rejection in the present count, newest first (R132). -/
  edges : Nat := 0
  rejAt : List (Nat × Nat) := []
  /-- Stamps of the last accepted edges of an auxiliary input, newest first (R161), and the edges still to come before
  aux_speed may read again (R128, R132). -/
  auxStamps : List Nat := []
  auxHold : Nat := 0
  deriving DecidableEq, Repr

/-- A matcher of accepted edges against a pattern (R142, R144, R145): candidates, edges of the run, confirmations. -/
structure Matcher where
  cands : List Nat := []
  count : Nat := 0
  prev : Nat := 0
  last : Nat := 0
  conf : Nat := 0
  emptied : Bool := false
  deriving DecidableEq, Repr

/-- A reverse test on one input (R155): its forward and its reversed matcher, and the edges still to come before it ends. -/
structure RevTest where
  fwd : Matcher := {}
  bwd : Matcher := {}
  left : Nat := 0
  deriving DecidableEq, Repr

/-- An angle domain beside its objects. -/
structure Dom where
  crank : Matcher := {}
  cam : Matcher := {}
  /-- Stamps of the accepted edges of the present matching run, newest first. -/
  crankRun : List Nat := []
  camRun : List Nat := []
  /-- Index of the last crank edge in the cycle (revolution first), while the crank position is known. -/
  cur : Nat := 0
  /-- The angle word of that position, and the edges from the position before it: 1, or more where edges were skipped (R147). -/
  curWord : Nat := 0
  curSteps : Nat := 1
  /-- Stamps of the crank edges of the last revolution, by edge. -/
  stamps : Store Nat := []
  /-- Pattern errors since the crank last passed position 0 (R147). -/
  patErrs : Nat := 0
  /-- Consecutive unmatched cam edges, cam edges matched in the present cycle, whether the cycle is whole so far and free of
  unmatched crank and cam edges (R149, R157). -/
  camMiss : Nat := 0
  camSeen : List Nat := []
  cycleWhole : Bool := false
  camClean : Bool := true
  crankClean : Bool := true
  /-- The cam edge expected next, the last matched cam edge with its stamp, the stamps of matched cam edges of the last cycle. -/
  camNext : Option Nat := none
  camLast : Option (Nat × Nat) := none
  camStamps : Store Nat := []
  /-- The last cam interval in AU and TQ (R193). -/
  camIval : Option (Nat × Nat) := none
  /-- CAM_ONLY: cam edges that failed to match, and the cycle count in which they are counted (R150). -/
  camFails : Nat := 0
  camCyc : Nat := 0
  /-- CRANK_SYNC: crank edges passed since the state was entered, and whether the fault of an unresolved phase has been noted; the
  stamp of the last cam edge whose absence has been noted (R149). -/
  searchEdges : Nat := 0
  searchNoted : Bool := false
  absentNoted : Option Nat := none
  /-- LOSS: loss_dwell has elapsed (R153). -/
  dwellDone : Bool := false
  revCrank : Option RevTest := none
  revCam : Option RevTest := none
  /-- Instant at which the domain last left STOPPED (R180, R292). -/
  leftStopped : Nat := 0
  deriving DecidableEq, Repr

/-- An angle mark: the word of its next crossing with the predicted time, its frozen time, and the cycle count in which it last
fired (R190, R191). -/
structure Mark where
  target : Nat := 0
  time : Option Nat := none
  frozen : Option Nat := none
  fired : Option Nat := none
  deriving DecidableEq, Repr

/-- A new tooth table that C2 has computed and that waits for position 0 (R178): entries by position, entries of the extra
teeth, mean speed. -/
structure NewTable where
  entries : List (Nat × Int)
  extras : List (Nat × Int)
  speed : Nat
  commanded : Bool
  deriving DecidableEq, Repr

/-- The synthesiser of a domain beside its objects. -/
structure Synth where
  /-- An estimate exists (status bit predicting). -/
  live : Bool := false
  /-- A snap has been made since the last reset of PD5 (R171); its angle word, stamp and the terms of R169: q in AU/us, a in
  AU/us^2, m in TQ. -/
  snapped : Bool := false
  word : Nat := 0
  tk : Nat := 0
  /-- The angle word and the stamp of the edge before it. -/
  prev : Nat × Nat := (0, 0)
  q : Rat := 0
  a : Rat := 0
  m : Rat := 0
  /-- enable_layers as it stood at the last snap. -/
  layers : Nat := 0
  /-- Pieces of the feed-forward correction since t_k: start and slope of f in AU/us^2 (R186). -/
  ff : List (Nat × Rat) := []
  /-- Torque change at the latest grid sample in N·m and the angle word up to which it is taken (R186). -/
  ffDt : Rat := 0
  ffTo : Nat := 0
  /-- Mapped channels of the domain and those that count, at the latest grid sample (R186, R187). -/
  ffMapped : Nat := 0
  ffCounted : Nat := 0
  /-- Consecutive snaps over err_limit (R173). -/
  overs : Nat := 0
  /-- The present cycle: largest error, sum of squares, number of snaps; every one within err_limit; begun in FULL_SYNC and
  spent there; no pattern error and no model_fault (R183); the ff layer active throughout (R188); word and stamp of the snap
  that began it. -/
  cMax : Nat := 0
  cSq : Nat := 0
  cN : Nat := 0
  cOk : Bool := true
  cFull : Bool := false
  cClean : Bool := true
  cFf : Bool := false
  cFrom : Option (Nat × Nat) := none
  /-- (e0, d_ff) of the cycle's snaps (R188), and those of the last whole cycle while C2 has not used them. -/
  cInertia : List (Rat × Rat) := []
  inertiaIn : Option (List (Rat × Rat)) := none
  /-- Angle words and stamps of the cycle's snaps, oldest first (R183). -/
  cSnaps : List (Nat × Nat) := []
  /-- A refit has begun, with the mean rate and the snaps of its cycle; the coefficients it has computed wait for a snap (R183). -/
  refitBegun : Option (Nat × List (Nat × Nat)) := none
  refit : Option (List Int × Nat) := none
  /-- An inertia update computed and waiting for a snap (R188). -/
  inertia : Option Nat := none
  /-- Refits applied since the last entry to FULL_SYNC (R183). -/
  warm : Nat := 0
  /-- Learning: edges of the present revolution as (edge index of the cycle, stamp), oldest first; sums of residuals by edge of
  the revolution; revolutions of a commanded run in FULL_SYNC; sum of speeds; the revolution qualifies so far (R176, R177). -/
  revEdges : List (Nat × Nat) := []
  acc : Store Rat := []
  runRevs : Nat := 0
  speedSum : Nat := 0
  revGood : Bool := false
  /-- Stamps of the last snaps of position 0, newest first, and the start of the last shot of the domain (fuel cut). -/
  pos0 : List Nat := []
  lastShot : Option Nat := none
  tableDue : Bool := false
  table : Option NewTable := none
  /-- Speed word at the last position 0 (R184). -/
  speed0 : Option (Nat × Nat) := none
  /-- Tooth entries as last saved to the learned bank, by position (extra teeth from 1024 on) (R180). -/
  saved : Store Int := []
  marks : Store Mark := []
  deriving DecidableEq, Repr

/-- The configuration of a shot or sheaf record, as an occurrence carries it (R31). -/
structure RecCfg where
  enable : Bool := false
  parent : Nat := 0
  channel : Nat := 0xFF
  profile : Nat := 0
  role : Nat := 1
  durMode : Nat := 0
  duration : Nat := 0
  kind : Nat := 0
  angle : Int := 0
  offset : Int := 0
  atime : Nat := 0
  ref : Nat := 0
  late : Nat := 0
  lateTol : Nat := 0
  prio : Nat := 0xFF
  flags : Nat := 0
  cycles : Nat := 0
  group : Nat := 0xFF
  deriving DecidableEq, Repr

/-- How far an occurrence has come. -/
inductive OccSt where
  | armed | locked | running | done
  deriving DecidableEq, Repr

/-- An occurrence of a record (R205). A record is named by its number, plus 0x8000 for a sheaf, as in the ref field (R210). -/
structure Occ where
  rid : Nat := 0
  /-- The tree it belongs to, named by the number of its top-level occurrence. -/
  tree : Nat := 0
  dom : Nat := 0
  slot : Nat := 0
  cyc : Nat := 0
  /-- The second firing of a crank_fire slot, and whether the occurrence was armed under crank_fire (R219). -/
  half : Bool := false
  crankFire : Bool := false
  /-- The record cannot run: it only stands for what its start and end would have been (R210). -/
  ghost : Bool := false
  st : OccSt := .armed
  cfg : RecCfg := {}
  /-- TDC of the root slot as the occurrence carries it. -/
  tdc : Nat := 0
  /-- Start, end and electrical duration are frozen (R216). -/
  frozen : Bool := false
  start : Option Nat := none
  prev : Option Nat := none
  /-- The start that FIRE_LATE has given it (R211, R221). -/
  moved : Option Nat := none
  stop : Nat := 0
  dur : Nat := 0
  flags : Nat := 0
  prio : Nat := 0
  /-- Locked while a veto bit cut its scope (R77). -/
  cut : Bool := false
  lane : Option Nat := none
  noLane : Bool := false
  /-- Copies made at the lock point: profile (R244), diagnostic thresholds (R303), closure configuration (R276). -/
  shadow : List Nat := []
  diag : List Nat := []
  clo : List Nat := []
  /-- A sheaf: its first member has started, and its end event has pulsed (R233). -/
  begun : Bool := false
  ended : Bool := false
  /-- A top-level occurrence whose outcome has been counted (R205). -/
  counted : Bool := false
  deriving DecidableEq, Repr

/-- What the scheduler keeps of a top-level record: the cycle count of the occurrence armed last, and the occurrences that
have reached an outcome since it was enabled (R205, R218). -/
structure TopRec where
  armed : Option Nat := none
  count : Nat := 0
  deriving DecidableEq, Repr

/-- An accepted write to records or slots that the scheduler has not applied yet (R223): when it arrived, the records with
their new configuration, and the slots with their new TDC. -/
structure PendWrite where
  at_ : Nat
  recs : List (Nat × RecCfg)
  slots : List (Nat × Nat)
  deriving DecidableEq, Repr

/-- A low-side channel on the power die. -/
structure Chan where
  occ : Option Nat := none
  shot : Nat := 0
  prof : List Nat := []
  diag : List Nat := []
  prio : Nat := 0
  start : Nat := 0
  stop : Nat := 0
  phaseAt : Nat := 0
  low : Bool := false
  onAt : Nat := 0
  offAt : Nat := 0
  /-- Limited chop cycles of the shot, and whether the present off-interval is one (R250). -/
  limited : Nat := 0
  limitedNow : Bool := false
  slow : Bool := false
  /-- The shot holds the bank and waits for a ready rail (R305); or it waits for the bank (R253); since when. -/
  railWait : Bool := false
  deferWait : Bool := false
  waitFrom : Nat := 0
  /-- max_defer as it stood when the shot began to wait (R255). -/
  deferMax : Nat := 0
  /-- last_start of the shot's record before this start. -/
  lastWas : Nat := 0
  /-- The highest current reported in the shot (R269). -/
  most : Nat := 0
  /-- The shot runs under BATTERY, on BHS (R305). -/
  battery : Bool := false
  firstAt : Nat := 0
  started : Bool := false
  deriving DecidableEq, Repr

/-- A bank's high side on the power die. -/
structure Bank where
  bhb : Bool := false
  bhs : Bool := false
  /-- The last fall of either switch. -/
  fell : Option Nat := none
  /-- A switch that rises after the dead time: BHB or not, and when (R252). -/
  rise : Option (Bool × Nat) := none
  /-- The channel whose phase begins with that rise, and the phase. -/
  entering : Option (Nat × Nat) := none
  /-- The last rise of either switch. -/
  rose : Nat := 0
  holder : Option Nat := none
  deriving DecidableEq, Repr

/-- A boost controller on the power die. -/
structure Boost where
  /-- The rail's voltage in mV as last reported. -/
  mv : Nat := 0
  /-- The loop reference has reached v_target (R260), and since when. -/
  softDone : Bool := false
  softAt : Nat := 0
  /-- The loop reference at an instant, in mV times the TQ of 1 ms, from which it moves at soft_start (R260). -/
  ref : Nat := 0
  refAt : Nat := 0
  /-- Start and end of the last switching period, and the end of the period in which the last pulse began (R259, R260). -/
  periodAt : Option Nat := none
  periodEnd : Nat := 0
  pulseEnd : Nat := 0
  fellAt : Option Nat := none
  gate : Bool := false
  notReadyFrom : Nat := 0
  /-- Instant of the last gate pulse ended by i_limit. -/
  limitAt : Option Nat := none
  /-- The over-voltage threshold that was crossed, in mV (R303). -/
  ovThr : Nat := 0
  deriving DecidableEq, Repr

/-- A capture in progress or reserved (R276), with what its result needs of the shot. -/
structure Cap where
  occ : Nat := 0
  shot : Nat := 0
  chan : Nat := 0
  start : Nat := 0
  stop : Nat := 0
  e : Nat := 0
  t0 : Nat := 0
  /-- The domain and the slot of the occurrence. -/
  dom : Nat := 0
  slot : Nat := 0
  /-- Copies of the closure configuration, from anchor to fail_limit, and of t_decay_max (R276, R296). -/
  clo : List Nat := []
  decayMax : Nat := 0
  truncated : Bool := false
  decayEnd : Option Nat := none
  /-- Changes of a switch of the channel's bank (R285). -/
  bankChanges : List Nat := []
  startAt : Nat := 0
  duration : Nat := 0
  role : Nat := 0
  durMode : Nat := 0
  chanOutcome : Nat := 0
  shotOutcome : Nat := 0
  samples : Nat := 0
  deriving DecidableEq, Repr

/-- A capture lane beside its object. -/
structure Lane where
  cap : Option Cap := none
  res : Option Cap := none
  held : Bool := false
  holdAfter : Bool := false
  /-- End of the previous capture (R275). -/
  ended : Option Nat := none
  /-- Finished captures that the kink engine still has to search, oldest first. -/
  toSearch : List Cap := []
  deriving DecidableEq, Repr

/-- A result of the kink engine on its way to the channel object and to C3 (R286, R288). -/
structure CloRes where
  flags : Nat := 0
  close : Nat := 0
  hyd : Nat := 0
  kink : Int := 0
  lane : Nat := 0xFF
  shot : Nat := 0
  duration : Nat := 0
  role : Nat := 0
  durMode : Nat := 0
  chanOutcome : Nat := 0
  shotOutcome : Nat := 0
  clo : List Nat := []
  /-- A search was made, and its kink stands (R284). -/
  searched : Bool := false
  /-- Samples that an abandoned capture had taken, and when it was abandoned (R274). -/
  taken : Nat := 0
  cutAt : Nat := 0
  /-- Its place among the results written of its channel. -/
  serial : Nat := 0
  deriving DecidableEq, Repr

/-- Closure detection of a channel beside its object: results to be written, how many have been, those written that C3 has not
processed, oldest first, counts of failures and of results in the band by role, trims as last saved. -/
structure Closure where
  res : List CloRes := []
  written : Nat := 0
  learn : List CloRes := []
  fails : Store Nat := []
  inband : Store Nat := []
  saved : Store Int := []
  deriving DecidableEq, Repr

/-- The stop paths beside their object (R298 to R302). -/
structure Stops where
  /-- ARM_N as the start checks treat it, and KILL_N low, after their filters. -/
  armHigh : Bool := true
  killLow : Bool := false
  /-- The instant of the last fall of ARM_N at the ball, while its release is pending (R300). -/
  armFell : Option Nat := none
  /-- The last keep-alive, and whether the link is lost and has not resumed (R22, R302). -/
  lastAlive : Nat := 0
  linkDown : Bool := false
  deriving DecidableEq, Repr

/-- A window of angle of a channel: the words of its start and its end, the samples taken in it (R320, R332). -/
structure AngWin where
  from_ : Option Nat := none
  stop : Nat := 0
  isOpen : Bool := false
  n : Nat := 0
  sum : Int := 0
  deriving DecidableEq, Repr

/-- Results of a pressure cycle that C2 has to compute and write (R328): at the grid point at +180 degrees (`final` false)
and at the last one. -/
structure PressRes where
  final : Bool
  whole : Bool
  valid : Bool
  flags : Nat
  half : Nat
  tdc : Nat
  dom : Nat
  count : Nat
  deriving DecidableEq, Repr

/-- A pressure channel beside its object. -/
structure Press where
  offset : Option Int := none
  peg : AngWin := {}
  /-- The last sample: its angle word, its value, whether it is clipped. -/
  last : Option (Nat × Int × Bool) := none
  /-- The grid point to come: index and angle word; production waits for grid point 0. -/
  next : Option (Nat × Nat) := none
  from0 : Bool := false
  /-- The cycle in progress: which half of the region, its cycle count, whether every grid point so far was produced, what has
  occurred in it, its largest value from -180 to +180 degrees and its lowest one. -/
  half : Nat := 0
  begun : Bool := false
  count : Nat := 0
  whole : Bool := false
  clip : Bool := false
  pegFail : Bool := false
  limp : Bool := false
  hi : Int := -32768
  lo : Int := 32767
  /-- Index ranges produced in this cycle and in the one before (R185). -/
  got : List (Nat × Nat) := []
  gotPrev : List (Nat × Nat) := []
  /-- The half of the last complete cycle and its number of grid points (R324). -/
  lastHalf : Option (Nat × Nat) := none
  /-- A break in production is over: the channel stops being valid at its next grid point (R327). -/
  broken : Bool := false
  /-- The channel counted at its latest grid point, with its torque change there in N·m and that point's word (R186). -/
  counted : Bool := false
  dt : Rat := 0
  at_ : Nat := 0
  results : List PressRes := []
  deriving DecidableEq, Repr

/-- A band of a vibration channel (R332): its window, the configuration taken at the window's opening, the sum of the squared
filter outputs, whether the window is copied to raw_capture, and how the last window ended. -/
structure Band where
  win : AngWin := {}
  threshold : Nat := 0
  clip : Bool := false
  raw : Bool := false
  lastClip : Bool := false
  lastInc : Bool := false
  /-- The band has been written since its last window opened (R333). -/
  written : Bool := false
  /-- In band 0: the codes of raw_capture copied since the last reset (R334, R337). -/
  rawHigh : Nat := 0
  deriving DecidableEq, Repr

/-- What stood before a reported transition of a comparator: its instant, the former stamp, its event line, the target of its source
and the source's entry there (R346, R357). -/
structure CmpRep where
  at_ : Nat
  time : Nat
  line : EvtLine
  tgt : Nat
  pend : Pend
  deriving DecidableEq, Repr

/-- A comparator pair beside its object (R349): the mode in which its blanking window opened, the instant of the most recent opening
pulse, the instant at which the last window closed, the latest reported transition of the upper and of the lower comparator. -/
structure Cmp where
  mode : Nat := 0
  from_ : Nat := 0
  closed : Option Nat := none
  upper : Option CmpRep := none
  lower : Option CmpRep := none
  deriving DecidableEq, Repr

/-- A timer (R361, R362). -/
structure Timer where
  running : Bool := false
  armed : Bool := false
  /-- The prescaler and the count, and the tick of 1.28 GHz, numbered by the time counter, at which they stand so. -/
  pre : Nat := 0
  count : Nat := 0
  tick : Nat := 0
  fired0 : Bool := false
  fired1 : Bool := false
  /-- A compare unit has fired at that tick and its action list is still to be performed. -/
  hit0 : Bool := false
  hit1 : Bool := false
  /-- Start and reset inputs of actions, with the tick at which they take effect (R366). -/
  start : Option Nat := none
  reset : Option Nat := none
  /-- A period write at or below the present count awaits the next timer tick (R365). -/
  shortEnd : Bool := false
  /-- The previous rise (R369). -/
  rise : Option Nat := none
  /-- The last fall and whether it had a rise (R369); the tick of the last pulse on line A and on line B (R366). -/
  fell : Option (Nat × Bool) := none
  sentA : Option Nat := none
  sentB : Option Nat := none
  deriving DecidableEq, Repr

/-- The instruction in a Lantern engine's IR (R383): its word, whether it was injected and abandoned another, bits shifted so
far, the value an OUT gathers, whether it has begun, the delay ticks still to come, pulses seen when a WAIT began. -/
structure LanCur where
  word : Nat := 0
  inj : Bool := false
  abort : Bool := false
  bits : Nat := 0
  acc : Nat := 0
  begun : Bool := false
  delay : Option Nat := none
  seen : Nat := 0
  deriving DecidableEq, Repr

/-- A Lantern engine (R383 to R395). -/
structure Lan where
  pc : Nat := 0
  ir : Nat := 0
  k0 : Nat := 0
  k1 : Nat := 0
  osh : Nat := 0
  oshN : Nat := 0
  ish : Nat := 0
  ishN : Nat := 0
  tx : List Byte := []
  rx : List Byte := []
  /-- Levels of the group's output pins. -/
  outs : Nat := 0
  cur : Option LanCur := none
  reason : Nat := 0
  /-- The instant of enable and of the last tick (R382). -/
  from_ : Nat := 0
  lastTick : Option Nat := none
  /-- A pending injection: its instruction, abort, and the instant of its acceptance (R395). -/
  inject : Option (Nat × Bool × Nat) := none
  deriving DecidableEq, Repr

/-- A bank of the Loft: its arbiter and its scrubber (R405, R410). -/
structure LBank where
  credit : List Int := [0, 0, 0, 0, 0]
  /-- The requester granted last in each group. -/
  last : List Nat := [47, 47, 47, 47, 47]
  /-- Groups that won the last slots, newest first; 5 for the scrubber. -/
  hist : List Nat := []
  /-- Slots since the scrubber's last one. -/
  since : Nat := 0
  /-- Words scrubbed, and words that await their rewrite (R403). -/
  scrubbed : Nat := 0
  rewrite : List Nat := []
  /-- Words whose uncorrectable error a read has reported since the scrubber last came to them (R424). -/
  told : List Nat := []
  deriving DecidableEq, Repr

/-- A DMA channel (R415): the element to come, and whether every element of the run has been copied. -/
structure Dma where
  i0 : Nat := 0
  i1 : Nat := 0
  i2 : Nat := 0
  all : Bool := false
  /-- Stopped by cmd 3 with every element copied: the instant, and aborted as it stood before (R424). -/
  stopped : Option (Nat × Bool) := none
  deriving DecidableEq, Repr

/-- A mailbox (R445). -/
structure Mbox where
  full : Bool := false
  msg : List Byte := []
  deriving DecidableEq, Repr
/-- One bank of a pair of the non-volatile store: the header's fields and the body (R475). -/
structure NvBank where
  magic : Nat := 0
  kind : Nat := 0
  level : Nat := 0
  format : Nat := 0
  seq : Nat := 0
  len : Nat := 0
  crc : Nat := 0
  commit : Nat := 0
  body : List Byte := []
  deriving DecidableEq, Repr

/-- What an NV write in progress will do when its read-back is done (R476). -/
structure NvJob where
  /-- Key of the pair's bank A: 0 factory, 2 boot record, 4 persistent, 6 learned. -/
  pair : Nat
  bank : Nat
  body : List Byte
  seq : Nat
  /-- The write belongs to a commit command (R481). -/
  commit : Bool
  /-- Learned pair: the write follows an import (R500). Factory pair: it repairs one copy from the other (R477). -/
  imported : Bool
  deriving DecidableEq, Repr

/-- An entry of the event log (R483). -/
structure LogEntry where
  number : Nat
  epoch : Nat
  time : Nat
  code : Nat
  source : Nat
  phase : Nat
  data : Nat
  deriving DecidableEq, Repr

/-- The non-volatile store beside its object. -/
structure Nv where
  /-- Banks: 0, 1 factory; 2, 3 boot record; 4, 5 persistent; 6, 7 learned. -/
  banks : Store NvBank := []
  jobs : List NvJob := []
  /-- Tokens of the persistent and the learned budget, and the instants from which their next refill runs (R482). -/
  tokP : Nat := 24
  tokL : Nat := 4
  refP : Nat := 0
  refL : Nat := 0
  /-- Refill time that had run when the counter last restarted (R482). -/
  accP : Nat := 0
  accL : Nat := 0
  /-- The ring of log entries, newest first (R483). -/
  log : List LogEntry := []
  logNext : Nat := 0
  /-- Log entries that may be written at once, and the instant from which the next one accrues (R483). -/
  logBurst : Nat := 256
  logFrom : Nat := 0
  /-- Drops not yet recorded by an entry (R483). -/
  logOwed : Nat := 0
  /-- Imports accepted since power-on (R500). -/
  importsSincePower : Nat := 0
  deriving DecidableEq, Repr

/-- The reset controller and the power manager beside their objects. -/
structure Rst where
  /-- The option-restart counter of PD0 (R459). -/
  optRestarts : Nat := 0
  /-- OPT conversions of the present P3: number taken, and the codes read, newest first (R463). -/
  optCount : Nat := 0
  optCodes : List Nat := []
  optTaken : Bool := true
  /-- Reset assertion is held: by the supply below its threshold, and by RESET_N low (R456). -/
  heldPower : Bool := false
  heldPin : Bool := false
  /-- The firmware bank that P6 starts (R478). -/
  bootBank : Nat := 0
  /-- P7 and the restore of P7 are done with these banks' sequences, for hold_release (R464). -/
  heldSeq : Option (Nat × Nat) := none
  /-- The single-domain reset in progress (R468). -/
  domReset : Option Nat := none
  /-- Further domains that a brown-out has reset and that wait for their restore (R456, R466). -/
  browned : List Nat := []
  /-- Instant at which the idle request of a drive group ends in any case (R308). -/
  domDeadline : Nat := 0
  /-- The idle timeout elapsed in the present reset (R308, R468). -/
  domLate : Bool := false
  /-- The device sleeps since this instant (R472). -/
  slept : Option Nat := none
  /-- A wake is in progress (R441). -/
  waking : Bool := false
  wakeMask : Nat := 0
  /-- Neither firmware bank passed: the device stays in P6 (R478). -/
  bootStuck : Bool := false
  /-- The device keeps its logic pins released from their weak pull-up (R457). -/
  pinsOut : Bool := true
  /-- TESTMODE was high in the last pass of P3 (R508). -/
  testmode : Bool := false
  /-- PD1 has lost its supply: the PLL and the counter start again (R103, R458). -/
  tbStopped : Bool := false
  /-- The present reset is a firmware activation, whose P6 clears the Loft (R465). -/
  activated : Bool := false
  /-- Pairs that were enabled in M3 when PD13 last went off (R440). -/
  m3 : Nat := 0
  deriving DecidableEq, Repr

/-- A watch of the Nightlight beside its object: whether it was live when last looked at, and since when (R440). -/
structure NightWatch where
  live : Bool := false
  since : Nat := 0
  /-- Events of its condition since it became live; it has fired for good; the instant at which it last fired. -/
  hits : Nat := 0
  done : Bool := false
  firedAt : Option Nat := none
  deriving DecidableEq, Repr

/-- A firmware bank (R94). -/
structure FwBank where
  image : List Byte := []
  verify : Nat := 0
  version : Nat := 0
  keySlot : Nat := 0
  highestCl : Nat := 0
  rollback : Nat := 0
  deriving DecidableEq, Repr

/-- What the factory area holds for the rules of this model: the vendor keys as points of P-256, their revocations, the
rollback minimum (R94, R95, R474). -/
structure Factory where
  key0 : Nat × Nat := (0, 0)
  key1 : Nat × Nat := (0, 0)
  revoked : Nat := 0
  rollbackMin : Nat := 0
  deriving DecidableEq, Repr

/-- The test access port (R514 to R516): the current instruction by its code, the cells of the boundary register that an update
loaded last (cell 0 first), what the last capture holds for TDO, and whether the boundary drives or floats the covered outputs. -/
structure Tap where
  instr : Nat := 2
  cells : List Bool := []
  captured : List Bool := []
  driving : Bool := false
  floating : Bool := false
  /-- A reset came while EXTEST was current: the pins stay as R506 has them until Test-Logic-Reset (R517). -/
  pinned : Bool := false
  deriving DecidableEq, Repr
/-- The master identities of R32 that the last write of an object and the last access to the Loft carried: identity and index of
the write, identity of the access. -/
structure Masters where
  obj : Option (Nat × Nat) := none
  loft : Option Nat := none
  deriving DecidableEq, Repr

/-- The device apart from the Loft's contents. -/
structure Dev where
  /-- The Timebase counter at the last command (R103), and the model's own counter of draws of free values. -/
  now : Nat := 0
  free : Nat := 0
  /-- The object dictionary: the values of its objects by index, subindex and, for a BLOB, offset (R40). -/
  regs : Store Nat := []
  ports : Store Port := []
  /-- Messages sent on ports P1 to P5 and the notifications and cyclic frames of every port, newest first. -/
  sent : List Msg := []
  cyc : Store Cyc := []
  irq : Store Pend := []
  cores : Store Core := []
  faultLine : Bool := false
  evt : Store EvtLine := []
  /-- The pulses of each line that each consumer has received, by consumer and line (R36, R37). -/
  heard : Store Nat := []
  tb : Tb := {}
  rst : Rst := {}
  nv : Nv := {}
  fw : Store FwBank := []
  factory : Factory := {}
  night : Store NightWatch := []
  tap : Tap := {}
  wheels : Store Wheel := []
  doms : Store Dom := []
  synths : Store Synth := []
  occs : Store Occ := []
  nextOcc : Nat := 0
  tops : Store TopRec := []
  pendW : List PendWrite := []
  chans : Store Chan := []
  banks : Store Bank := []
  boosts : Store Boost := []
  lanes : Store Lane := []
  closures : Store Closure := []
  stops : Stops := {}
  pressures : Store Press := []
  vib : Store Band := []
  cmps : Store Cmp := []
  timers : Store Timer := []
  lans : Store Lan := []
  lbanks : Store LBank := []
  /-- Words whose uncorrectable error has been reported (R404, R424). -/
  badWords : List Nat := []
  dmas : Store Dma := []
  mboxes : Store Mbox := []
  masters : Masters := {}
  deriving DecidableEq, Repr

/-- The state of the machine: the commands that wait, first in first out; the Loft's symbols; the device. -/
structure State where
  pending : List Instr := []
  loft : Store Byte := []
  dev : Dev := {}
  deriving DecidableEq, Repr

/-- The objects that do not stand at the defaults of the dictionary once a new part has come to phase P8 from power-on: the
crystal is selected, valid and locked (R98), ARM_N high (R301), ready (R462), the first
entry of the reset history (R487), no persistent and no learned bank (R477, R488), both factory copies valid (R474). -/
def resetRegs : Store Nat :=
  [ (okey 0x2000 0x03 0, 1), (okey 0x2000 0x04 0, 3), (okey 0x28C8 0x01 0, 2)
  , (okey 0x2F00 0x02 0, 1), (okey 0x2F00 0x10 0, 0x10000001), (okey 0x2F20 0x03 0, 0xFF), (okey 0x2F20 0x05 0, 0xFF)
  , (okey 0x2F20 0x08 0, 30) ]

/-- The configuration values :10 to :15 of each port as the last reset latched them, all at the defaults of group 0 (R57). -/
def resetPorts : Store Port :=
  [ (0, { latched := [0, 0, 0, 0, 0, 0] })
  , (1, { latched := [1, 0, 0x10000000, 0x031E0707, 0x010E0303, 1] })
  , (2, { latched := [2, 0, 0x10000000, 0x031E0707, 0x010E0303, 1] })
  , (3, { latched := [3, 0, 0x10000000, 0x031E0707, 0x010E0303, 1] })
  , (4, { latched := [0xA9FE6404, 0xFFFF0000, 0, 47522, 0, 0] })
  , (5, { latched := [0xA9FE6405, 0xFFFF0000, 0, 47522, 0, 0] }) ]

/-- A factory copy of the model's new part: one symbol, the rollback minimum 0 (R474, R475); DESIGN CHOICE. -/
def resetFactory : NvBank :=
  { magic := 0x4E56424B, kind := 0, level := 1, format := 1, seq := 1, len := 1, crc := 3733745447, commit := 0x5A5AC33C, body := [0] }

/-- The machine right after reset: a new part that has come from power-on to phase P8 with OPT grounded, its straps high, the
supply good, ARM_N and KILL_N high and the crystal running. -/
def State.reset : State :=
  { dev :=
      { regs := resetRegs
        ports := resetPorts
        nv := { banks := [(0, resetFactory), (1, resetFactory)] }
        fw := [(0, { verify := 2, highestCl := 1 })]
        rst := { optCount := 3, optCodes := [0, 0, 0] } } }

end Sys2Proof.Machine
end

