-- ==== Sys2Proof/Machine/Ops.lean ====
section
/-! DEFINITION. The named operations over the state: the sparse stores, the object dictionary, the clock of the model, the
interrupt sources (R429 to R433), the event lines (R38, R372), the event log (R483) and the outcomes of commands. -/

namespace Sys2Proof.Machine

/-- The entry of a store at a key. -/
def Store.find {α : Type} : Store α → Nat → Option α
  | [], _ => none
  | (k, v) :: m, q => if q = k then some v else Store.find m q

/-- The value of a store at a key, with the default of unlisted keys. -/
def Store.get {α : Type} (dflt : Nat → α) (m : Store α) (k : Nat) : α :=
  match m.find k with
  | some v => v
  | none => dflt k

/-- The store without an entry. -/
def Store.drop {α : Type} (m : Store α) (k : Nat) : Store α :=
  m.filter (fun e => decide (e.1 ≠ k))

/-- Inserts an entry before the first larger key. -/
def Store.insert {α : Type} : Store α → Nat → α → Store α
  | [], k, v => [(k, v)]
  | (j, w) :: m, k, v => if k < j then (k, v) :: (j, w) :: m else (j, w) :: Store.insert m k v

/-- Writes a value; the value of an unlisted key removes the entry. -/
def Store.put {α : Type} [DecidableEq α] (dflt : Nat → α) (m : Store α) (k : Nat) (v : α) : Store α :=
  if v = dflt k then m.drop k else Store.insert (m.drop k) k v

/-- Removes the entries of the keys from `lo` up to, not including, `hi`. -/
def Store.clearRange {α : Type} (m : Store α) (lo hi : Nat) : Store α :=
  m.filter (fun e => decide (¬(lo ≤ e.1 ∧ e.1 < hi)))

/-- Keys strictly rise. -/
def Store.sorted {α : Type} : Store α → Bool
  | [] => true
  | [_] => true
  | (j, _) :: (k, w) :: m => decide (j < k) && Store.sorted ((k, w) :: m)

/-- The canonical form: keys strictly rise and no entry equals its key's default. -/
def Store.wf {α : Type} [DecidableEq α] (dflt : Nat → α) (m : Store α) : Bool :=
  m.sorted && m.all (fun e => decide (e.2 ≠ dflt e.1))

/-! ### Objects -/

/-- The stored value of an object. -/
def Dev.obj (d : Dev) (idx sub : Nat) : Nat := Store.get keyDefault d.regs (okey idx sub 0)

/-- Stores an object's value. -/
def Dev.setObj (d : Dev) (idx sub v : Nat) : Dev :=
  { d with regs := Store.put keyDefault d.regs (okey idx sub 0) v }

/-- The signed value of an object of width `w`. -/
def Dev.sobj (d : Dev) (w idx sub : Nat) : Int := toSigned w (d.obj idx sub)

/-- Stores a signed value in `w` bits. -/
def Dev.setSobj (d : Dev) (w idx sub : Nat) (v : Int) : Dev := d.setObj idx sub (ofSigned w v)

/-- One bit of an object. -/
def Dev.bit (d : Dev) (idx sub b : Nat) : Bool := (d.obj idx sub).testBit b

/-- Sets or clears one bit of an object. -/
def Dev.setBit (d : Dev) (idx sub b : Nat) (on : Bool) : Dev := d.setObj idx sub (bitTo (d.obj idx sub) b on)

/-- Increments a counter that saturates at 0xFFFFFFFF. -/
def Dev.inc (d : Dev) (idx sub : Nat) : Dev := d.setObj idx sub (satInc32 (d.obj idx sub))

/-- Increments a counter that saturates at 65535. -/
def Dev.inc16 (d : Dev) (idx sub : Nat) : Dev := d.setObj idx sub (satInc16 (d.obj idx sub))

/-- Writes 0 to a run of subindices. -/
def Dev.zero (d : Dev) (idx sub0 sub1 : Nat) : Dev :=
  (List.range (sub1 + 1 - sub0)).foldl (fun d k => d.setObj idx (sub0 + k) 0) d

/-- Symbol `off` of a BLOB. -/
def Dev.blobByte (d : Dev) (idx sub off : Nat) : Nat := Store.get keyDefault d.regs (okey idx sub off)

/-- Symbols `off` to `off + n - 1` of a BLOB. -/
def Dev.blobBytes (d : Dev) (idx sub off n : Nat) : List Byte :=
  (List.range n).map (fun k => BitVec.ofNat 8 (d.blobByte idx sub (off + k)))

/-- Puts symbols into a BLOB from an offset on. -/
def Dev.putBlobAt (d : Dev) (idx sub : Nat) : Nat → List Byte → Dev
  | _, [] => d
  | off, b :: bs =>
    Dev.putBlobAt { d with regs := Store.put keyDefault d.regs (okey idx sub off) b.toNat } idx sub (off + 1) bs

/-- Replaces a whole BLOB of map length `len`: the symbols beyond those written read 0 (R11). -/
def Dev.setBlob (d : Dev) (idx sub len : Nat) (bs : List Byte) : Dev :=
  Dev.putBlobAt d idx sub 0 (bs ++ List.replicate (len - bs.length) 0)

/-- Returns every object of the indices `lo` to `hi` to its default. -/
def Dev.resetObjs (d : Dev) (lo hi : Nat) : Dev :=
  { d with regs := d.regs.clearRange (okey lo 0 0) (okey (hi + 1) 0 0) }

/-- Returns one object to its default. -/
def Dev.resetObj (d : Dev) (idx sub : Nat) : Dev :=
  { d with regs := d.regs.clearRange (okey idx sub 0) (okey idx (sub + 1) 0) }

/-! ### The model's clock and free values -/

/-- The state at an instant: the counter never steps backwards (R105); the draw of free values moves on. -/
def Dev.upTo (d : Dev) (t : Nat) : Dev := { d with now := max d.now t, free := d.free + 1 }

/-- A free natural number of this command, for a purpose. -/
def Dev.openNat (d : Dev) (purpose : Nat) : Nat := Config.freeNat d.free purpose

/-- A free truth value of this command, for a purpose. -/
def Dev.openBool (d : Dev) (purpose : Nat) : Bool := Config.freeBool d.free purpose

/-- A free integer of this command, for a purpose. -/
def Dev.openInt (d : Dev) (purpose : Nat) : Int := Config.freeInt d.free purpose

/-- The integer a device makes of an exact real whose rounding the spec does not state: it or its successor. -/
def Dev.roundOpen (d : Dev) (purpose : Nat) (x : Rat) : Int :=
  if x = (x.floor : Rat) then x.floor else if d.openBool purpose then x.floor + 1 else x.floor

/-! ### Power domains and phases -/

/-- The device has reached phase P8 and no reset is asserted. -/
def Dev.ready (d : Dev) : Bool :=
  decide (d.obj 0x2F00 0x01 = 8) && d.bit 0x2F00 0x02 0 && !d.rst.heldPower && !d.rst.heldPin && d.rst.slept.isNone

/-- Power domain `k` is on (R470). -/
def Dev.pdOn (d : Dev) (k : Nat) : Bool := d.bit 0x2F10 0x01 k

/-- A block of domain `k` runs: its domain is on and the device is out of reset assertion. -/
def Dev.runs (d : Dev) (k : Nat) : Bool := d.ready && d.pdOn k

/-- A drive group has no power or is in a reset: its channels report no bank (R308). -/
def Dev.groupDown (d : Dev) (pd : Nat) : Bool := d.rst.domReset = some pd || d.rst.browned.contains pd || !d.pdOn pd

/-- EXTEST, CLAMP or HIGHZ is the current instruction of the test access port: the gates are clamped (R516). -/
def Dev.tapBlocks (d : Dev) : Bool := d.tap.instr = 0 || d.tap.instr = 3 || d.tap.instr = 4

/-- A core does not run: it is down, or its domain is off (PD3 for C0 and C1, PD4 for C2 and C3). -/
def Dev.coreDown (d : Dev) (c : Nat) : Bool :=
  (Store.get (fun _ => {}) d.cores c : Core).down || !d.pdOn (3 + c / 2)

/-! ### Interrupt sources -/

/-- The state of a source at a target. -/
def Dev.pend (d : Dev) (src tgt : Nat) : Pend := Store.get (fun _ => {}) d.irq (src * 16 + tgt)

/-- Stores the state of a source at a target. -/
def Dev.setPend (d : Dev) (src tgt : Nat) (p : Pend) : Dev :=
  { d with irq := Store.put (fun _ => {}) d.irq (src * 16 + tgt) p }

/-- What a raise does to an entry: merged if pending, else a new occurrence (R85, R433). An entry whose NOTIFY message already
stands in the read-out queue of P0 begins a new occurrence, for the next batch (R86). -/
def Pend.raised (p : Pend) (prio now : Nat) : Pend :=
  if p.pending && !p.batched then { p with occ := min 65535 (p.occ + 1), sat := p.sat || decide (65535 ≤ p.occ) }
  else { p with pending := true, batched := false, prio := prio, occ := 1, sat := false, first := now, queuedAt := now }

/-- A raise of a source at one target. -/
def Dev.raiseAt (d : Dev) (src tgt prio : Nat) : Dev := d.setPend src tgt ((d.pend src tgt).raised prio d.now)

/-- The route of a source: target and priority (R430). -/
def Dev.routeOf (d : Dev) (src : Nat) : Nat × Nat :=
  let r := d.obj (0x2E01 + src / 16) (src % 16 + 1)
  (bitsOf r 3 0, bitsOf r 11 8)

/-- A producer raises a source (R430, R433): it goes to its route's target, and nowhere when the route names none. Source 127
has a fixed route: C0's fault line and the queue of the Guardian's port (R430, R438). The controller is in PD2. -/
def Dev.raise (d : Dev) (src : Nat) : Dev :=
  if !d.pdOn 2 then d
  else if src = 127 then
    let d := { d with faultLine := true }
    let g := d.obj 0x1800 0x01
    if g ≤ 5 then d.raiseAt 127 (4 + g) 0 else d
  else
    let (tgt, prio) := d.routeOf src
    if tgt ≤ 9 then d.raiseAt src tgt prio else d

/-- A raise under a condition, such as a bit of a source mask. -/
def Dev.raiseIf (d : Dev) (c : Bool) (src : Nat) : Dev := if c then d.raise src else d

/-! ### Event lines -/

/-- The state of an event line. -/
def Dev.line (d : Dev) (n : Nat) : EvtLine := Store.get (fun _ => {}) d.evt n

/-- Stores the state of an event line. -/
def Dev.setLine (d : Dev) (n : Nat) (l : EvtLine) : Dev := { d with evt := Store.put (fun _ => {}) d.evt n l }

/-- A line's gate (R372). -/
def Dev.gateOf (d : Dev) (n : Nat) : Bool := d.bit (0x2F80 + n / 2) (0x01 + 0x10 * (n % 2)) 0

/-- A producer's event at an instant on a line with its gate open or shut: less than 50 ns (512 TQ) after the event that
began the last pulse it merges into that pulse, else it begins a pulse (R38, R372). -/
def EvtLine.event (l : EvtLine) (now : Nat) (gate : Bool) : EvtLine :=
  let merged := match l.began with
    | some b => decide (now < b + 512)
    | none => false
  if merged then { l with merges := satInc16 l.merges }
  else
    let l := { l with began := some now, pulses := satInc32 l.pulses, last := now }
    if gate then { l with count := l.count + 1, sentAt := now, prevAt := l.sentAt } else { l with suppressed := satInc32 l.suppressed }

/-- A producer's event on a line at an instant. EVT255 has no producer and never pulses (R36). The network is in PD2. -/
def Dev.pulseAt (d : Dev) (n at_ : Nat) : Dev :=
  if decide (255 ≤ n) || !d.pdOn 2 then d else d.setLine n ((d.line n).event at_ (d.gateOf n))

/-- A producer's event on a line now. -/
def Dev.pulse (d : Dev) (n : Nat) : Dev := d.pulseAt n d.now

/-- A pulse under a condition. -/
def Dev.pulseIf (d : Dev) (c : Bool) (n : Nat) : Dev := if c then d.pulse n else d

/-- What listens to event lines (R371), by the field that selects the line. -/
inductive Consumer where
  | timerStart (n : Nat) | timerReset (n : Nat) | captureRise (n : Nat) | captureFall (n : Nat) | gstart
  | dmaStart (c : Nat) | dmaPace (c : Nat) | rampReset (k : Nat) | blankOpen (n : Nat) | blankClose (n : Nat)
  | lanClock (e : Nat)
  deriving DecidableEq, Repr

/-- The place of a consumer in the book of what it has received. -/
def Consumer.code : Consumer → Nat
  | .timerStart n => n
  | .timerReset n => 32 + n
  | .captureRise n => 64 + n
  | .captureFall n => 96 + n
  | .gstart => 128
  | .dmaStart c => 160 + c
  | .dmaPace c => 192 + c
  | .rampReset k => 224 + k
  | .blankOpen n => 256 + n
  | .lanClock e => 304 + e
  | .blankClose n => 288 + n

/-- A pulse on its way on a line reaches a consumer now, at most 60 ns (614 TQ) after its producer's event (R37); each pulse reaches it
once (R36). -/
def Dev.arrives (d : Dev) (c : Consumer) (line : Nat) : Option Dev :=
  let key := c.code * 256 + line
  let l := d.line line
  let had := Store.get (fun _ => 0) d.heard key
  let took := fun (k : Nat) => some { d with heard := Store.put (fun _ => 0) d.heard key k }
  if 255 ≤ line || l.count ≤ had then none
  else if had + 2 ≤ l.count && d.now ≤ l.prevAt + 614 then took (l.count - 1)
  else if d.now ≤ l.sentAt + 614 then took l.count
  else none

/-- What a consumer does when a pulse of its line arrives; with none on its way, nothing. -/
def Dev.onPulse (d : Dev) (c : Consumer) (line : Nat) (f : Dev → Dev) : Dev :=
  match d.arrives c line with
  | some d => f d
  | none => d

/-! ### Master identities (R32) -/

/-- Records the identity of an object write. -/
def Dev.writtenBy (d : Dev) (who idx : Nat) : Dev := { d with masters := { d.masters with obj := some (who, idx) } }

/-- Records the identity of an access to the Loft. -/
def Dev.accessBy (d : Dev) (who : Nat) : Dev := { d with masters := { d.masters with loft := some who } }

/-! ### Event log -/

/-- Log entries that may be written at an instant: one accrues every 1/16 s, up to 256 (R483). -/
def Nv.logAllowance (n : Nv) (now : Nat) : Nat × Nat :=
  let k := (now - n.logFrom) / 640000000
  if 256 ≤ n.logBurst + k then (256, now) else (n.logBurst + k, n.logFrom + k * 640000000)

/-- C0 writes an event log entry, or drops it beyond the rate limit (R483). -/
def Dev.logEvent (d : Dev) (cls cause src data : Nat) : Dev :=
  let (burst, from') := d.nv.logAllowance d.now
  if burst = 0 then
    let d := { d with nv := { d.nv with logOwed := d.nv.logOwed + 1, logBurst := 0, logFrom := from' } }
    (d.inc 0x2F20 0x13).raiseIf (d.bit 0x2F20 0x0B 4) 121
  else
    let e : LogEntry :=
      { number := d.nv.logNext, epoch := d.obj 0x2000 0x02, time := d.now, code := cls * 4096 + cause % 4096
        source := src, phase := d.obj 0x2F00 0x01, data := data % 2 ^ 32 + d.nv.logOwed * 2 ^ 32 }
    { d with nv := { d.nv with log := (e :: d.nv.log).take 32768, logNext := d.nv.logNext + 1
                               logBurst := burst - 1, logFrom := from', logOwed := 0 } }

/-- A learned-data trigger falls (R180, R292, R482). -/
def Dev.learnPend (d : Dev) : Dev := d.setBit 0x2F20 0x08 0 true

/-! ### The Nightlight -/

/-- A live watch of a kind and an index, with a parameter that fits, counts an event of its condition (R440). -/
def Dev.watchNote (d : Dev) (kind ix : Nat) (fits : Nat → Bool) : Dev :=
  (List.range 16).foldl (fun (d : Dev) w =>
    let v := d.obj 0x2E20 (0x10 + w)
    let r : NightWatch := Store.get (fun _ => {}) d.night w
    if r.live && decide (v / 2 ^ 28 = kind ∧ v % 256 = ix) && fits (v / 256 % 256) then
      { d with night := Store.put (fun _ => {}) d.night w { r with hits := r.hits + 1 } }
    else d) d

/-- A live watch names a block (R440). -/
def Dev.watched (d : Dev) (kind ix : Nat) : Bool :=
  (List.range 16).any (fun w =>
    let v := d.obj 0x2E20 (0x10 + w)
    (Store.get (fun _ => {}) d.night w : NightWatch).live && decide (v / 2 ^ 28 = kind ∧ v % 256 = ix))

/-! ### Cyclic frames -/

/-- A cyclic frame's record. -/
def Dev.cycFrame (d : Dev) (f : Nat) : Cyc := Store.get (fun _ => {}) d.cyc f

/-- Stores a cyclic frame's record. -/
def Dev.setCyc (d : Dev) (f : Nat) (r : Cyc) : Dev := { d with cyc := Store.put (fun _ => {}) d.cyc f r }

/-- The estimate of a domain has ended: its angle-triggered frames wait for crossings from now on (R82, R83). -/
def Dev.cycLost (d : Dev) (k : Nat) : Dev :=
  d.cyc.foldl (fun (d : Dev) e =>
    if d.obj (0x1400 + e.1) 0x05 = k ∧ 2 ≤ d.obj (0x1400 + e.1) 0x03 then d.setCyc e.1 { e.2 with fired := [], due := d.now } else d) d

/-! ### Outcomes -/

/-- A command whose whole effect is on the device apart from the Loft, at an instant. -/
def onDev (s : State) (t : Nat) (f : Dev → Dev) : Host.Outcome State Fault Refusal :=
  .next { s with dev := f (s.dev.upTo t) }

/-- What a command does to the Loft: it is first cleared or not, then runs of symbols are written in order. -/
structure LoftEff where
  clear : Bool := false
  writes : List (Nat × List Byte) := []
  deriving DecidableEq, Repr

/-- No effect on the Loft. -/
def LoftEff.none : LoftEff := {}

/-- Two effects, one after the other. -/
def LoftEff.andThen (e f : LoftEff) : LoftEff :=
  if f.clear then f else { clear := e.clear, writes := e.writes ++ f.writes }

/-- Symbols in the Loft (R401). -/
def loftSize : Nat := 12582912

/-- A symbol of the Loft; an unlisted one reads 0 (R409). -/
def loftByte (m : Store Byte) (a : Nat) : Byte := Store.get (fun _ => (0 : Byte)) m a

/-- Symbols of the Loft from an address on. -/
def loftBytes (m : Store Byte) (a n : Nat) : List Byte := (List.range n).map (fun k => loftByte m (a + k))

/-- Writes symbols into the Loft; an address outside it takes none. -/
def loftPut (m : Store Byte) : Nat → List Byte → Store Byte
  | _, [] => m
  | a, b :: bs => loftPut (if a < loftSize then Store.put (fun _ => (0 : Byte)) m a b else m) (a + 1) bs

/-- Applies an effect on the Loft. -/
def LoftEff.apply (e : LoftEff) (m : Store Byte) : Store Byte :=
  e.writes.foldl (fun m w => loftPut m w.1 w.2) (if e.clear then [] else m)

/-- A command with an effect on the device and on the Loft, at an instant. -/
def onBoth (s : State) (t : Nat) (f : Store Byte → Dev → Dev × LoftEff) : Host.Outcome State Fault Refusal :=
  let (d, e) := f s.loft (s.dev.upTo t)
  .next { s with dev := d, loft := e.apply s.loft }

end Sys2Proof.Machine
end

