-- ==== Sys2Proof/Machine/Closure.lean ====
section
/-! DEFINITION. Closure detection and shot learning (chapter 08): capture lanes, the kink engine, results, trims. -/

namespace Sys2Proof.Machine

/-- The record of a lane. -/
def Dev.lane (d : Dev) (k : Nat) : Lane := Store.get (fun _ => {}) d.lanes k

/-- Stores the record of a lane. -/
def Dev.setLane (d : Dev) (k : Nat) (l : Lane) : Dev := { d with lanes := Store.put (fun _ => {}) d.lanes k l }

/-- The closure record of a channel. -/
def Dev.closure (d : Dev) (n : Nat) : Closure := Store.get (fun _ => {}) d.closures n

/-- Stores the closure record of a channel. -/
def Dev.setClosure (d : Dev) (n : Nat) (c : Closure) : Dev := { d with closures := Store.put (fun _ => {}) d.closures n c }

/-- Applies a change to the captures of every lane. -/
def Dev.mapCaps (d : Dev) (f : Cap → Cap) : Dev :=
  { d with lanes := d.lanes.map (fun e => (e.1, { e.2 with cap := e.2.cap.map f, res := e.2.res.map f, toSearch := e.2.toSearch.map f })) }

/-- The copy of a configuration subindex of the closure object, from :02 to :13. -/
def cloOf (clo : List Nat) (sub : Nat) : Nat := clo.getD (sub - 2) 0

/-- A cause of the sources 36 to 39 whose bit is set in the copy of clo_mask (R294, R296). -/
def Dev.cloCause (d : Dev) (clo : List Nat) (b src : Nat) : Dev := d.raiseIf ((cloOf clo 0x0A).testBit b) src

/-- The trim of a channel and role (R287). -/
def Dev.trim (d : Dev) (n k : Nat) : Int := d.sobj 32 (0x2800 + n) (0x14 + k)

/-- The electrical duration in force for a shot (R212, R287). -/
def Dev.elecDur (d : Dev) (c : RecCfg) : Nat :=
  if c.durMode = 0 then c.duration
  else (clampInt 10240 204800000 ((c.duration : Int) + d.trim c.channel c.role)).toNat

/-- Copies of the closure configuration made at a lock point (R276, R296): :02 anchor to :13 fail_limit. -/
def Dev.cloCopy (d : Dev) (n : Nat) : List Nat := (List.range 18).map (fun i => d.obj (0x2800 + n) (0x02 + i))

/-- The capture interval reserved at lock for an end E (R276). -/
def capInterval (clo : List Nat) (decayMax e : Nat) : Nat × Nat :=
  let ws := clo.getD 1 0 * 1024
  let wl := clo.getD 2 0 * 1024
  let extra := if clo.getD 0 0 = 1 then decayMax * 1024 else 0
  (e + ws - 20480, e + extra + ws + wl + 20480)

/-- A lane is able to take an interval from an instant on (R275, R280). -/
def Dev.laneFits (d : Dev) (k a : Nat) : Bool :=
  let l := d.lane k
  decide (d.obj (0x2840 + k) 0x01 = 1) && !l.held && !l.holdAfter && l.res.isNone
    && (match l.cap with | some c => decide (c.stop + 10240 ≤ a) | none => true)
    && (match l.ended with | some e => decide (e + 10240 ≤ a) | none => true)

/-- A later occurrence on the channel cuts the intervals reserved for earlier ones (R278); reserved_until of the lane that reserved
one last follows (R297). -/
def Dev.windowCut (d : Dev) (occ n start : Nat) : Dev :=
  let hit := fun (c : Cap) => c.chan = n && c.occ ≠ occ && decide (start < c.stop)
  let ks := (List.range 16).filter (fun k =>
    let l := d.lane k
    (l.res.any hit) || (l.res.isNone && l.cap.any hit))
  let d := ks.foldl (fun d k => d.setObj (0x2840 + k) 0x04 (start - 20480)) d
  d.mapCaps (fun c => if hit c then { c with stop := start - 20480, truncated := true } else c)

/-- Lane allocation at a lock point (R279 to R281): the lowest free lane able to take the interval, or no_lane. -/
def Dev.laneAlloc (d : Dev) (id : Nat) (o : Occ) : Dev × Occ :=
  let n := o.cfg.channel
  let any := (List.range 16).any (fun k => decide (d.obj (0x2840 + k) 0x01 = 1))
  if !d.pdOn 10 || d.obj (0x2800 + n) 0x01 ≠ 1 || o.cfg.flags.testBit 2 || !any then (d, o)
  else
    let clo := d.cloCopy n
    let dm := o.shadow.getD 11 0
    let (a, b) := capInterval clo dm o.stop
    match (List.range 16).find? (fun k => d.laneFits k a) with
    | some k =>
      let c : Cap := { occ := id, shot := o.rid, chan := n, dom := o.dom, slot := o.slot, start := a, stop := b, e := o.stop, clo := clo, decayMax := dm
                       duration := o.cfg.duration, role := o.cfg.role, durMode := o.cfg.durMode }
      let d := d.setLane k { (d.lane k) with res := some c }
      (d.setObj (0x2840 + k) 0x04 b, { o with lane := some k, clo := clo })
    | none => (((d.inc (0x2800 + n) 0x25).cloCause clo 3 38).pulse 118, { o with noLane := true, clo := clo })

/-- An occurrence that has not started gives its lane back, without a result (R282). -/
def Dev.laneRelease (d : Dev) (id : Nat) : Dev :=
  let hit := fun (c : Option Cap) => match c with | some c => decide (c.occ = id) | none => false
  { d with lanes := d.lanes.map (fun e => (e.1, { e.2 with
      res := if hit e.2.res then none else e.2.res
      ended := if hit e.2.cap then some d.now else e.2.ended
      held := e.2.held || (hit e.2.cap && e.2.holdAfter)
      holdAfter := e.2.holdAfter && !hit e.2.cap
      cap := if hit e.2.cap then none else e.2.cap
      toSearch := e.2.toSearch.filter (fun c => decide (c.occ ≠ id)) })) }

/-- Queues a result record for a channel. -/
def Dev.cloQueue (d : Dev) (n : Nat) (r : CloRes) : Dev :=
  let c := d.closure n
  d.setClosure n { c with res := c.res ++ [r] }

/-- The samples that a capture holds from sample 0 to an instant (R273, R274). -/
def Cap.count (c : Cap) (t : Nat) : Nat := if c.t0 ≤ t then min ((t - c.t0) / 256 + 1) 81920 else 0

/-- The result of a capture abandoned now (R274, R282): aborted; `ran` says that it had begun. -/
def Dev.aborted (d : Dev) (c : Cap) (k : Nat) (ran : Bool) : CloRes :=
  { flags := 16 + (if c.truncated then 2048 else 0), lane := k, shot := c.shot, duration := c.duration, role := c.role
    durMode := c.durMode, chanOutcome := c.chanOutcome, shotOutcome := c.shotOutcome, clo := c.clo
    taken := if ran then c.count d.now else 0, cutAt := d.now }

/-- The captures that an occurrence has on the lanes, by lane, and whether each is in progress. -/
def Dev.capsOf (d : Dev) (id : Nat) : List (Nat × Cap × Bool) :=
  d.lanes.foldr (fun e acc =>
    let mine := fun (l : List Cap) (b : Bool) => (l.filter (fun c => decide (c.occ = id))).map (fun c => (e.1, c, b))
    mine e.2.res.toList false ++ mine e.2.cap.toList true ++ mine e.2.toSearch false ++ acc) []

/-- A started occurrence ends otherwise than at its frozen end: its capture is abandoned with a result that carries aborted
(R282). -/
def Dev.capAbort (d : Dev) (id : Nat) : Dev :=
  let cs := d.capsOf id
  cs.foldl (fun d e => d.cloQueue e.2.1.chan (d.aborted e.2.1 e.1 e.2.2)) (d.laneRelease id)

/-- A stop path takes effect in a scope of domains and slots: captures in progress there are aborted, also those of shots that have
reached their end (R293). -/
def Dev.capStop (d : Dev) (scope : Nat → Nat → Bool) : Dev :=
  let ids := d.lanes.filterMap (fun e => e.2.cap.bind (fun c => if scope c.dom c.slot then some c.occ else none))
  ids.foldl (fun d id => d.capAbort id) d

/-- Notes at a shot's end what its result will need: actual start, channel outcome, shot outcome. -/
def Dev.capNote (d : Dev) (id start chanOut shotOut : Nat) : Dev :=
  d.mapCaps (fun c => if c.occ = id then { c with startAt := start, chanOutcome := chanOut, shotOutcome := shotOut } else c)

/-- Decay end of a shot on a channel (R276). -/
def Dev.capDecay (d : Dev) (n e : Nat) : Dev :=
  d.mapCaps (fun c => if c.chan = n && decide (c.e = e) && c.decayEnd.isNone then { c with decayEnd := some d.now } else c)

/-- A switch of a bank changes state while captures run on its channels (R285). -/
def Dev.capBankChange (d : Dev) (b : Nat) : Dev :=
  d.mapCaps (fun c => if d.obj (0x2700 + c.chan) 0x02 = b then { c with bankChanges := d.now :: c.bankChanges } else c)

/-- CAPTURE_START (R273): the lane begins its reserved interval; sample 0 falls on the first converter clock edge at or after
its start. A held lane takes no interval (R297): the capture is abandoned, with a result that carries aborted: DESIGN CHOICE (log
101). -/
def Dev.captureStart (d : Dev) (k : Nat) : Dev :=
  let l := d.lane k
  match l.res, l.cap with
  | some c, none =>
    if d.runs 10 && decide (c.start ≤ d.now) then
      let t0 := (c.start + 255) / 256 * 256
      if l.held then (d.setLane k { l with res := none }).cloQueue c.chan (d.aborted c k false)
      else (d.setLane k { l with res := none, cap := some { c with t0 := t0 } }).setObj (0x2840 + k) 0x03 c.chan
    else d
  | _, _ => d

/-- A lane's capture ends: the lane is free after the settling time, or held (R275, R293). -/
def Lane.finish (l : Lane) (stop : Nat) (c : Option Cap) : Lane :=
  { l with cap := none, ended := some stop, held := l.held || l.holdAfter, holdAfter := false
           toSearch := l.toSearch ++ c.toList }

/-- LANE_OVERRUN (R274): a FIFO overflow abandons the capture. -/
def Dev.laneOverrun (d : Dev) (k : Nat) : Dev :=
  let l := d.lane k
  match l.cap with
  | some c =>
    if d.runs 10 then ((d.setLane k (l.finish d.now none)).inc (0x2840 + k) 0x06).cloQueue c.chan (d.aborted c k true) else d
  | none => d

/-- The samples of a capture as the Loft holds them (R274). -/
def sampleBytes (xs : List Nat) : List Byte := (xs.map (fun x => leBytes 2 (x % 4096))).flatten

/-- CAPTURE_END (R274, R275): the interval ends; its samples stand in the lane's buffer. -/
def Dev.captureEnd (d : Dev) (k : Nat) (xs : List Nat) : Dev × LoftEff :=
  let l := d.lane k
  match l.cap with
  | some c =>
    if d.runs 10 && decide (c.stop ≤ d.now) then
      let ys := xs.take (c.count c.stop)
      let d := (d.accessBy 14).setLane k (l.finish c.stop (some { c with samples := ys.length }))
      let d := (((d.inc (0x2840 + k) 0x05).setObj (0x2840 + k) 0x08 c.t0).setObj (0x2840 + k) 0x09 ys.length)
      (d.setObj (0x2840 + k) 0x0B c.shot, { writes := [(0x28000 * k, sampleBytes ys)] })
    else (d, .none)
  | none => (d, .none)

/-! ### The kink engine (R283, R284) -/

/-- Sample `n` of a capture in a lane's buffer; one outside the capture is a value the spec does not state. -/
def Dev.sampleAt (d : Dev) (m : Store Byte) (k : Nat) (c : Cap) (n : Int) : Nat :=
  if 0 ≤ n && n.toNat < c.samples then ofLe (loftBytes m (0x28000 * k + 2 * n.toNat) 2) % 4096
  else d.openNat (3000000 + n.natAbs) % 4096

/-- y[n] in 1/16 LSB: the centred mean of 2 × smooth + 1 samples. -/
def Dev.kinkMean (d : Dev) (m : Store Byte) (k : Nat) (c : Cap) (n : Int) : Int :=
  let sm := c.clo.getD 3 0
  let sum := (List.range (2 * sm + 1)).foldl (fun s i => s + d.sampleAt m k c (n - sm + i)) 0
  d.roundOpen (4000000 + n.natAbs) ((16 * sum : Nat) / ((2 * sm + 1 : Nat) : Rat))

/-- s[n]: the second difference of y with the polarity applied. -/
def Dev.kinkS (d : Dev) (m : Store Byte) (k : Nat) (c : Cap) (n : Int) : Int :=
  let h := c.clo.getD 4 0
  let d2 := d.kinkMean m k c (n + h) - 2 * d.kinkMean m k c n + d.kinkMean m k c (n - h)
  if c.clo.getD 5 0 = 0 then d2 else -d2

/-- The first place of the largest value in a list: place and value. -/
def firstMax : List Int → Nat → Nat × Int → Nat × Int
  | [], _, best => best
  | x :: xs, i, best => firstMax xs (i + 1) (if best.2 < x then (i, x) else best)

/-- n / d rounded to the nearest integer, halves away from zero. -/
def roundAway (n d : Int) : Int :=
  let s : Int := if (n < 0) = (d < 0) then 1 else -1
  s * ((2 * n.natAbs + d.natAbs) / (2 * d.natAbs) : Nat)

/-- The refinement of a peak at n through its neighbours (R284): q. -/
def kinkRefine (a b c : Int) : Int := roundAway (8 * (a - c)) (2 * (a - 2 * b + c))

/-- The search over one finished capture: the result with its flags (R284, R285). -/
def Dev.kinkResult (d : Dev) (m : Store Byte) (k : Nat) (c : Cap) : CloRes :=
  let base := if c.clo.getD 0 0 = 1 then c.decayEnd.getD (c.e + c.decayMax * 1024) else c.e
  let ws := base + c.clo.getD 1 0 * 1024
  let we := ws + c.clo.getD 2 0 * 1024
  let we := if c.truncated then min we c.stop else we
  let na := (ws + 255 - c.t0) / 256
  let nb := if c.t0 ≤ we then (we - c.t0) / 256 else 0
  let cnt := if na ≤ nb then nb + 1 - na else 0
  let sat := (List.range cnt).any (fun i =>
    let x := d.sampleAt m k c (na + i : Nat)
    decide (x = 0) || decide (x = 4095))
  let dist := c.bankChanges.any (fun t => decide (ws ≤ t) && decide (t ≤ we))
  let side := (if c.truncated then 2048 else 0) + (if dist then 1024 else 0) + (if sat then 512 else 0)
  let r : CloRes := { lane := k, shot := c.shot, duration := c.duration, role := c.role, durMode := c.durMode
                      chanOutcome := c.chanOutcome, shotOutcome := c.shotOutcome, clo := c.clo }
  if c.truncated && decide (cnt < 3) then { r with flags := side + 2 }
  else
    let ss := (List.range cnt).map (fun i => d.kinkS m k c (na + i : Nat))
    let (i, pk) := firstMax ss 0 (0, ss.headD 0)
    let n := na + i
    let r := { r with searched := true }
    if i = 0 || i + 1 = cnt then { r with flags := side + 4, kink := pk, close := c.t0 + 256 * n }
    else if pk < (c.clo.getD 6 0 : Int) then { r with flags := side + 2, kink := pk }
    else
      let q := kinkRefine (ss.getD (i - 1) 0) pk (ss.getD (i + 1) 0)
      let close := ((c.t0 + 256 * n : Nat) + 32 * q).toNat
      { r with flags := side + 1, kink := pk, close := close, hyd := close - c.startAt }

/-- KINK_SEARCH (R284): the kink engine takes the oldest finished capture of a lane whose window has ended. -/
def Dev.kinkSearch (d : Dev) (m : Store Byte) (k : Nat) : Dev :=
  let l := d.lane k
  match l.toSearch with
  | [] => d
  | c :: rest =>
    if !d.runs 10 || (decide (c.clo.getD 0 0 = 1) && c.decayEnd.isNone) then d
    else (d.setLane k { l with toSearch := rest }).cloQueue c.chan (d.kinkResult m k c)

/-- The record of a result in the channel's result region of the Loft (R286, R407), with last_error. -/
def CloRes.bytes (r : CloRes) (err : Nat) : List Byte :=
  leBytes 8 r.close ++ leBytes 4 r.hyd ++ leBytes 4 err ++ leBytes 4 (ofSigned 32 r.kink) ++ leBytes 2 r.flags
    ++ leBytes 1 r.lane ++ leBytes 1 0 ++ leBytes 2 r.shot

/-- Where the result record of a channel stands in the Loft (R407). -/
def cloAddr (n : Nat) : Nat := 0x340000 + 0x40 * n

/-- A result as its record carries it: of close_time, hyd and kink, those that the search has not given are not stated (R284): free. -/
def Dev.resultFilled (d : Dev) (n : Nat) (r : CloRes) : CloRes :=
  let found := r.flags.testBit 0
  { r with close := if found || r.flags.testBit 2 then r.close else d.openNat (5000000 + n) % 2 ^ 64
           hyd := if found then r.hyd else d.openNat (5000100 + n) % 2 ^ 32
           kink := if r.searched then r.kink else toSigned 32 (d.openNat (5000200 + n) % 2 ^ 32) }

/-- The samples that an abandoned capture left in its lane's buffer (R274): their values are free. They stand there unless the lane has
begun another capture since. -/
def Dev.partSamples (d : Dev) (r : CloRes) : List (Nat × List Byte) :=
  let l := d.lane r.lane
  if r.taken = 0 || l.cap.isSome || l.ended ≠ some r.cutAt then []
  else [(0x28000 * r.lane, sampleBytes ((List.range r.taken).map (fun i => d.openNat (6000000 + i))))]

/-- RESULT_WRITE (R286): the oldest result of a channel is written to the Loft, and from the record to the channel object; last_error
stays that of the last result processed. A result of a hydraulic shot goes to C3, if C3 runs (R288, R292). -/
def Dev.resultWrite (d : Dev) (n : Nat) : Dev × LoftEff :=
  let c := d.closure n
  match c.res with
  | [] => (d, .none)
  | r :: rest =>
    if !d.runs 10 then (d, .none)
    else
      let i := 0x2800 + n
      let r := { (d.resultFilled n r) with serial := c.written + 1 }
      let learns := r.durMode = 1 && !d.coreDown 3
      let part := d.partSamples r
      let d := (d.accessBy 14).setClosure n { c with res := rest, written := r.serial, learn := if learns then c.learn ++ [r] else c.learn }
      let d := (((d.setObj i 0x1C r.close).setObj i 0x1D r.hyd).setSobj 32 i 0x1F r.kink)
      let d := ((d.setObj i 0x20 r.flags).setObj i 0x21 r.lane).inc i 0x22
      let d := if r.flags.testBit 1 then (d.inc i 0x23).cloCause r.clo 1 36 else d
      let d := if r.flags.testBit 2 then (d.inc i 0x24).cloCause r.clo 2 37 else d
      (d.pulse (if r.flags.testBit 0 then 116 else 117), { writes := part ++ [(cloAddr n, r.bytes (d.obj i 0x1E))] })

/-- A result is excluded from learning (R289). -/
def CloRes.excluded (r : CloRes) : Bool :=
  (r.flags.testBit 3 || r.flags.testBit 4 || r.flags.testBit 11 || r.flags.testBit 9 || r.flags.testBit 10)
    || (r.chanOutcome.testBit 4 || r.chanOutcome.testBit 7 || r.chanOutcome.testBit 1 || r.chanOutcome.testBit 2
        || r.chanOutcome.testBit 3)
    || (r.shotOutcome.testBit 3 || r.shotOutcome.testBit 9)

/-- The trim has moved more than 1 us from its last saved value: a learned-data trigger (R292). -/
def Dev.trimMoved (d : Dev) (n k : Nat) : Dev :=
  if 10240 < (d.trim n k - Store.get (fun _ => 0) (d.closure n).saved k).natAbs then d.learnPend else d

/-- A result that failed: fails and learn_state 3 at fail_limit (R288, `check`). -/
def Dev.learnFail (d : Dev) (clo : List Nat) (n k : Nat) : Dev :=
  let i := 0x2800 + n
  let c := d.closure n
  let f := Store.get (fun _ => 0) c.fails k + 1
  let d := d.setClosure n { c with fails := Store.put (fun _ => 0) c.fails k f }
  if cloOf clo 0x13 ≤ f && d.obj i (0x18 + k) ≠ 3 then (d.setObj i (0x18 + k) 3).cloCause clo 4 39 else d

/-- A trim update from an error (R288), with the configuration copied at the shot's lock point (R296): the device and the flags it adds
to the result. learn_state 3 goes back to 1, whatever the results in the band (R288, R290). -/
def Dev.learnStep (d : Dev) (clo : List Nat) (n k : Nat) (err : Int) : Dev × Nat :=
  let i := 0x2800 + n
  let c := d.closure n
  let raw := Int.tdiv (err * (cloOf clo 0x0C : Nat)) 256
  let sm : Int := cloOf clo 0x0D
  let stepClamped := decide (sm < raw.natAbs)
  let step := if stepClamped then (if err < 0 then -sm else sm) else raw
  let t := d.trim n k - step
  let lo := toSigned 32 (cloOf clo 0x0E)
  let hi := toSigned 32 (cloOf clo 0x0F)
  let atLimit := decide (t < lo) || decide (hi < max t lo)
  let t := min hi (max t lo)
  let inb := if err.natAbs ≤ cloOf clo 0x12 then Store.get (fun _ => 0) c.inband k + 1 else 0
  let d := d.setClosure n { c with fails := Store.put (fun _ => 0) c.fails k 0, inband := Store.put (fun _ => 0) c.inband k inb }
  let d := d.setSobj 32 i (0x14 + k) t
  let d := if stepClamped || atLimit then d.inc i 0x27 else d
  let d := if atLimit then d.cloCause clo 4 39 else d
  let d := (d.setObj i (0x18 + k) (if d.obj i (0x18 + k) ≠ 3 && 8 ≤ inb then 2 else 1)).pulse 119
  (d.trimMoved n k, 32 + if stepClamped || atLimit then 256 else 0)

/-- SHOT_LEARNING (R288): C3 processes the oldest result that waits for it. Its bits, and its error where one is computed, go into the
record and the object while these still show that result. -/
def Dev.shotLearning (d : Dev) (n : Nat) : Dev × LoftEff :=
  let c := d.closure n
  let i := 0x2800 + n
  match c.learn with
  | [] => (d, .none)
  | r :: rest =>
    if !d.runs 10 || d.coreDown 3 then (d, .none)
    else
      let d := d.setClosure n { c with learn := rest }
      if cloOf r.clo 0x0B = 0 then (d, .none)
      else
        let k := r.role
        let err : Int := (r.hyd : Int) - r.duration
        let d := if r.excluded || !r.flags.testBit 0 then d else d.setSobj 32 i 0x1E err
        let (d, add) :=
          if r.excluded then (d, 64)
          else if !r.flags.testBit 0 then (d.learnFail r.clo n k, 0)
          else if cloOf r.clo 0x11 < err.natAbs then ((d.inc i 0x26).learnFail r.clo n k, 128)
          else d.learnStep r.clo n k err
        let d := (d.accessBy 11).writtenBy 11 i
        if r.serial = c.written then
          (d.setObj i 0x20 (d.obj i 0x20 ||| add),
           { writes := [(cloAddr n + 12, leBytes 4 (d.obj i 0x1E)), (cloAddr n + 20, leBytes 2 (r.flags ||| add))] })
        else (d, .none)

/-- RESET_LEARNING (R291): the named roles take trim_init and learn_state 0. -/
def Dev.resetLearning (d : Dev) (n mask : Nat) : Dev :=
  let i := 0x2800 + n
  let d := (maskBits 4 mask).foldl (fun d k =>
    let c := d.closure n
    let d := d.setClosure n { c with fails := Store.put (fun _ => 0) c.fails k 0, inband := Store.put (fun _ => 0) c.inband k 0 }
    (d.setObj i (0x14 + k) (d.obj i 0x10)).setObj i (0x18 + k) 0) d
  if mask % 16 = 0 then d else d.learnPend

/-- Zeroes :22 to :27 of a closure object (R296). -/
def Dev.closureClear (d : Dev) (n : Nat) : Dev := d.zero (0x2800 + n) 0x22 0x27

/-- The hold command of a lane: 1 holds after the present capture, 2 releases (R297). -/
def Dev.laneHold (d : Dev) (k v : Nat) : Dev :=
  let l := d.lane k
  if v = 1 then (if l.cap.isSome then d.setLane k { l with holdAfter := true } else d.setLane k { l with held := true })
  else d.setLane k { l with held := false, holdAfter := false }

/-- Zeroes :05 and :06 of a lane (R297). -/
def Dev.laneClear (d : Dev) (k : Nat) : Dev := d.zero (0x2840 + k) 0x05 0x06

/-- The state of a lane as its object shows it (R297). -/
def Dev.laneState (d : Dev) (k : Nat) : Nat :=
  let l := d.lane k
  if l.cap.isSome then 2 else if l.held then 3 else if l.res.isSome then 1
  else if d.obj (0x2840 + k) 0x01 = 0 then 4 else 0

/-- A reset of PD10 (R295): every capture and reservation is abandoned, the objects return to their defaults. -/
def Dev.closureReset (d : Dev) : Dev :=
  ({ d with lanes := [], closures := d.closures.map (fun (e : Nat × Closure) => (e.1, { e.2 with res := [], written := 0, learn := [], fails := [], inband := [] })) }).resetObjs
    0x2800 0x284F

end Sys2Proof.Machine
end

