-- ==== Sys2Proof/Machine/Angle.lean ====
section
/-! DEFINITION. The angle model of the synthesiser as exact arithmetic (R168 to R170): the shape function and its integral,
the displacement of the crank since the last snap, and the time at which it reaches an angle. -/

namespace Sys2Proof.Machine

/-! ### Fixed-point sine and cosine -/

/-- One, in the fixed point of this file. -/
def fxOne : Int := 281474976710656

/-- Pi in the fixed point of this file. -/
def fxPi : Int := 884279719003555

/-- Product of two fixed-point numbers. -/
def fxMul (a b : Int) : Int := a * b / fxOne

/-- The rest of the Taylor series of sine or cosine: `term` is the last term, `n` its degree. -/
def fxSeries : Nat → Int → Int → Nat → Int
  | 0, _, _, _ => 0
  | fuel + 1, r2, term, n =>
    let next := -(fxMul term r2) / (((n + 1) * (n + 2) : Nat) : Int)
    next + fxSeries fuel r2 next (n + 2)

/-- The fraction `num / den` of a turn as fixed-point radians from -pi to pi. -/
def fxRadians (num : Int) (den : Nat) : Int :=
  let x := num % (den : Int)
  let y := if 2 * x > (den : Int) then x - (den : Int) else x
  2 * fxPi * y / (den : Int)

/-- The sine of `num / den` of a turn. -/
def fxSin (num : Int) (den : Nat) : Int :=
  let r := fxRadians num den
  r + fxSeries 16 (fxMul r r) r 1

/-- The cosine of `num / den` of a turn. -/
def fxCos (num : Int) (den : Nat) : Int :=
  let r := fxRadians num den
  fxOne + fxSeries 16 (fxMul r r) fxOne 0

/-! ### The shape function and its integral -/

/-- The coefficients in use: harmonic i, c_i and s_i in Q15; those that are 0 are left out. -/
abbrev Shape := List (Nat × Int × Int)

/-- g(theta) in fixed point (chapter 05): harmonic i turns i * revs / 2 times in a cycle. -/
def shapeAt (sh : Shape) (revs : Nat) (theta : Int) : Int :=
  sh.foldl (fun acc e =>
    acc + (e.2.1 * fxCos ((e.1 * revs : Nat) * theta) (2 * auCycle) +
           e.2.2 * fxSin ((e.1 * revs : Nat) * theta) (2 * auCycle)) / 32768) fxOne

/-- 1 / g(theta) in fixed point. -/
def shapeInv (sh : Shape) (revs : Nat) (theta : Int) : Int := fxOne * fxOne / shapeAt sh revs theta

/-- The shape integral over a short span, by Simpson's rule, in AU as a rational. -/
def gammaStep (sh : Shape) (revs : Nat) (theta : Int) (span : Rat) : Rat :=
  let mid := (theta : Rat) + span / 2
  let fin := (theta : Rat) + span
  let sum := shapeInv sh revs theta + 4 * shapeInv sh revs mid.floor + shapeInv sh revs fin.floor
  span * sum / (6 * fxOne)

/-- AU in one step of the integral: the grid of 4096 points per cycle (R170). -/
def gammaGrid : Nat := 4096

/-- The shape integral from `theta` over `n` whole grid steps. -/
def gammaRun (sh : Shape) (revs : Nat) : Nat → Int → Rat
  | 0, _ => 0
  | n + 1, theta => gammaStep sh revs theta gammaGrid + gammaRun sh revs n (theta + gammaGrid)

/-- Γ(theta, theta + span) for span not below 0 (chapter 05); with no coefficient in use g is 1 and Γ is the span. -/
def gammaFwd (sh : Shape) (revs : Nat) (theta : Int) (span : Int) : Rat :=
  if sh.isEmpty then span
  else
    let n := span.toNat / gammaGrid
    gammaRun sh revs n theta + gammaStep sh revs (theta + n * gammaGrid) ((span.toNat % gammaGrid : Nat) : Rat)

/-- Γ from `theta` to `theta + span`, for either sign of the span. -/
def gamma (sh : Shape) (revs : Nat) (theta : Int) (span : Int) : Rat :=
  if 0 ≤ span then gammaFwd sh revs theta span else - gammaFwd sh revs (theta + span) (-span)

/-- Bisects a part of one grid step whose integral is `rest`. -/
def gammaInvFine (sh : Shape) (revs : Nat) (theta : Int) (rest : Rat) : Nat → Rat → Rat → Rat
  | 0, lo, _ => lo
  | k + 1, lo, w =>
    let mid := lo + w / 2
    if gammaStep sh revs theta mid ≤ rest then gammaInvFine sh revs theta rest k mid (w / 2)
    else gammaInvFine sh revs theta rest k lo (w / 2)

/-- Walks grid steps until the integral from `theta` reaches `rest`. -/
def gammaInvRun (sh : Shape) (revs : Nat) : Nat → Int → Rat → Rat
  | 0, _, rest => rest
  | n + 1, theta, rest =>
    let s := gammaStep sh revs theta gammaGrid
    if s ≤ rest then gammaGrid + gammaInvRun sh revs n (theta + gammaGrid) (rest - s)
    else gammaInvFine sh revs theta rest 24 0 gammaGrid

/-- The span from `theta` whose shape integral is `x`; a displacement against the direction of motion is taken at g = 1. -/
def gammaInv (sh : Shape) (revs : Nat) (theta : Int) (x : Rat) : Rat :=
  if sh.isEmpty || decide (x < 0) then x else gammaInvRun sh revs 8192 theta x

/-! ### The motion since the last snap -/

/-- The model in force since a snap (R168): base angle and stamp, q in AU/µs, a in AU/µs², m in TQ, the pieces of the
feed-forward correction as (start in TQ, slope in AU/µs²), the floor rate, and the shape in use. -/
structure Model where
  theta : Nat := 0
  tk : Nat := 0
  q : Rat := 0
  a : Rat := 0
  m : Rat := 0
  ff : List (Nat × Rat) := []
  floor : Rat := 1
  shape : Shape := []
  revs : Nat := 2
  deriving DecidableEq, Repr

/-- The area under the base term over `x` µs from value `b` with slope `s`, and whether it has come to rest on the floor. -/
def areaFloor (fl b s x : Rat) : Rat × Bool :=
  if b ≤ fl then (fl * x, true)
  else if fl ≤ b + s * x then (b * x + s * x * x / 2, false)
  else
    let c := (fl - b) / s
    (b * c + s * c * c / 2 + fl * (x - c), true)

/-- Walks the pieces of the feed-forward correction from an instant: `b` is the base term there, `sl` the slope of f. -/
def dispRun (fl a : Rat) (t : Rat) : List (Nat × Rat) → Rat → Rat → Rat → Rat
  | [], t0, b, sl => (areaFloor fl b (a + sl) ((t - t0) / 10240)).1
  | (p, s) :: ps, t0, b, sl =>
    if t ≤ (p : Rat) then (areaFloor fl b (a + sl) ((t - t0) / 10240)).1
    else if (p : Rat) ≤ t0 then dispRun fl a t ps t0 b s
    else
      let x := ((p : Rat) - t0) / 10240
      let (ar, held) := areaFloor fl b (a + sl) x
      if held then ar + fl * ((t - p) / 10240)
      else ar + dispRun fl a t ps p (b + (a + sl) * x) s

/-- The integral of the base term from t_k to `t` in AU (R170), never below the floor rate (R168). -/
def Model.disp (M : Model) (t : Rat) : Rat :=
  let b := M.q + M.a * ((M.tk : Rat) - M.m) / 10240
  if (M.tk : Rat) ≤ t then dispRun M.floor M.a t M.ff M.tk b 0
  else - (areaFloor M.floor b (-M.a) (((M.tk : Rat) - t) / 10240)).1

/-- Finds the number of the first `2^k` whole quanta n after `lo` with disp (n + 1/2) not above `x`. -/
def timeBits (M : Model) (lo : Nat) (x : Rat) : Nat → Nat → Nat
  | 0, r => r
  | b + 1, r =>
    if M.disp ((lo + r + 2 ^ b - 1 : Nat) + 1 / 2) ≤ x then timeBits M lo x b (r + 2 ^ b) else timeBits M lo x b r

/-- The instant at which the displacement is `x`, to the nearest TQ, halves up (R118, R170). -/
def Model.timeOf (M : Model) (x : Rat) : Nat :=
  if 0 ≤ x then M.tk + timeBits M M.tk x 46 0
  else
    let lo := M.tk - 2 ^ 46
    lo + timeBits M lo x 47 0

/-- The modelled displacement in AU at an instant, exact. -/
def Model.angleAt (M : Model) (t : Nat) : Rat := gammaInv M.shape M.revs M.theta (M.disp t)

/-- The instant at which the crank reaches `theta + span` (R170). -/
def Model.timeAt (M : Model) (span : Int) : Nat := M.timeOf (gamma M.shape M.revs M.theta span)

/-- The modelled rate at an instant in AU/µs: base term, not below the floor, times g. -/
def Model.rateAt (M : Model) (t : Nat) : Rat :=
  let step := (M.disp ((t : Rat) + 1) - M.disp t) * 10240
  step * shapeAt M.shape M.revs (M.theta + (M.angleAt t).floor) / fxOne

end Sys2Proof.Machine
end

