-- ==== Sys2Proof/Machine/Fit.lean ====
section
/-! DEFINITION. The least squares fit of the harmonic model to the snaps of a cycle (R183): coefficients, base rate and base
acceleration such that the shape integral reproduces the angles at their stamps. The integral is not linear in the coefficients, so
the fit repeats the linear solution about the last one. Angles count in cycles and times in durations of the record. -/

namespace Sys2Proof.Machine

/-- A coefficient pair of an order in the fixed point of the angle model: order, cosine, sine. -/
abbrev Pair := Nat × Int × Int

/-- Cosine and sine of the orders 1 to `n` at an angle, by the addition theorem: order i turns i * revs / 2 times in a cycle. -/
def fxOrders (revs : Nat) (theta : Int) (n : Nat) : List (Int × Int) :=
  let c := fxCos ((revs : Int) * theta) (2 * auCycle)
  let s := fxSin ((revs : Int) * theta) (2 * auCycle)
  ((List.range n).foldl (fun (a : List (Int × Int) × Int × Int) _ =>
    (a.1 ++ [a.2], fxMul a.2.1 c - fxMul a.2.2 s, fxMul a.2.2 c + fxMul a.2.1 s)) ([], c, s)).1

/-- 1 / g at an angle, then its derivatives by the coefficients. -/
def fitPoint (revs : Nat) (cs : List Pair) (theta : Int) : List Int :=
  let tr := fxOrders revs theta 24
  let turn := fun i => tr.getD (i - 1) (0, 0)
  let g := cs.foldl (fun g e => g + fxMul e.2.1 (turn e.1).1 + fxMul e.2.2 (turn e.1).2) fxOne
  let w := fxOne * fxOne / max g (fxOne / 10)
  let w2 := fxMul w w
  w :: cs.flatMap (fun e => [-(fxMul w2 (turn e.1).1), -(fxMul w2 (turn e.1).2)])

/-- Simpson's rule over `span` AU from the values at its start, middle and end, added to an integral. -/
def fitStep (acc left mid right : List Int) (span : Nat) : List Int :=
  List.zipWith (· + ·) acc (List.zipWith (fun (a : Int) (b : Int × Int) => (a + 4 * b.1 + b.2) * span / (6 * auCycle)) left (mid.zip right))

/-- The integrals over `n` whole grid steps from an angle; the values at the end are handed on. -/
def fitRun (revs : Nat) (cs : List Pair) : Nat → Int → List Int → List Int → List Int × List Int
  | 0, _, left, acc => (left, acc)
  | n + 1, theta, left, acc =>
    let right := fitPoint revs cs (theta + gammaGrid)
    fitRun revs cs n (theta + gammaGrid) right (fitStep acc left (fitPoint revs cs (theta + gammaGrid / 2)) right gammaGrid)

/-- The integrals from one snap to the next, `span` AU on. -/
def fitSpan (revs : Nat) (cs : List Pair) (theta : Int) (span : Nat) (left acc : List Int) : List Int × List Int :=
  let n := span / gammaGrid
  let rest := span % gammaGrid
  let (left, acc) := fitRun revs cs n theta left acc
  let at_ := theta + ((n * gammaGrid : Nat) : Int)
  let right := fitPoint revs cs (at_ + rest)
  (right, fitStep acc left (fitPoint revs cs (at_ + ((rest / 2 : Nat) : Int))) right rest)

/-- The rows of the fit: for each snap after the first the integral up to it, its derivatives, and minus its time and squared time. -/
def fitRows (revs : Nat) (cs : List Pair) (t0 len : Nat) : List (Nat × Nat) → Nat → List Int → List Int → List (List Int)
  | [], _, _, _ => []
  | (w, t) :: r, prev, left, acc =>
    let (left, acc) := fitSpan revs cs prev ((w + 2 ^ 32 - prev) % 2 ^ 32) left acc
    let tau := fxOne * ((t - t0 : Nat) : Int) / ((len : Nat) : Int)
    (acc ++ [-tau, -(fxMul tau tau)]) :: fitRows revs cs t0 len r w left acc

/-- The normal equations of rows whose first entry is the residual: each row of the matrix with its right side at the end. -/
def normalEqs (rows : List (List Int)) (n : Nat) : List (List Int) :=
  (List.range n).map (fun i =>
    let dot := fun (j : Nat) => rows.foldl (fun (s : Int) r => s + fxMul (r.getD (i + 1) 0) (r.getD j 0)) 0
    (List.range n).map (fun j => dot (j + 1)) ++ [-(dot 0)])

/-- A pivot too small to divide by: its unknown stays as it is. -/
def tinyPivot (p : Int) : Bool := decide (p.natAbs < 4096)

/-- Forward elimination; each row of the result begins with its pivot. -/
def eliminate : Nat → List (List Int) → List (List Int)
  | 0, _ => []
  | _, [] => []
  | f + 1, p :: rows =>
    let h := p.headD 0
    p :: eliminate f (rows.map (fun r =>
      if tinyPivot h then r.tail else List.zipWith (fun a b => a - b * r.headD 0 / h) r.tail p.tail))

/-- Back substitution. -/
def backSolve : List (List Int) → List Int
  | [] => []
  | r :: rs =>
    let xs := backSolve rs
    let h := r.headD 0
    let sum := (List.zipWith (fun a b => fxMul a b) r.tail xs).foldl (· + ·) 0
    (if tinyPivot h then 0 else (r.getLastD 0 - sum) * fxOne / h) :: xs

/-- Adds a solution's steps to the coefficients. -/
def stepPairs : List Pair → List Int → List Pair
  | (i, c, s) :: r, x :: y :: xs => (i, c + x, s + y) :: stepPairs r xs
  | r, _ => r

/-- The fit to snaps (angle word, stamp), from given coefficients on, by a number of linear steps. -/
def harmFit (revs : Nat) (snaps : List (Nat × Nat)) : Nat → List Pair → List Pair
  | 0, cs => cs
  | f + 1, cs =>
    match snaps with
    | [] => cs
    | (w0, t0) :: rest =>
      let len := (rest.getLastD (w0, t0)).2 - t0
      let zero := 0 :: cs.flatMap (fun _ => [0, 0])
      let n := 2 * cs.length + 2
      let rows := fitRows revs cs t0 len rest w0 (fitPoint revs cs w0) zero
      harmFit revs snaps f (stepPairs cs (backSolve (eliminate n (normalEqs rows n))))

end Sys2Proof.Machine
end

