-- ==== Sys2Proof/Machine/Pattern.lean ====
section
/-! DEFINITION. Wheel patterns: the edges of a crank and a cam pattern, their angles (R137 to R139), validity (R140),
pattern_class (R141) and the pattern signature (R175). -/

namespace Sys2Proof.Machine

/-- The configuration of a domain's patterns, as plain values. -/
structure Pat where
  /-- Revolutions per cycle: 2 in four-stroke, 1 in two-stroke. -/
  revs : Nat
  n : Nat
  teeth : List Bool
  offset : Nat
  extras : List Nat
  segs : List Nat
  tol : Nat
  window : Nat
  crankIn : Option Nat
  camIn : Option Nat
  crankSel : Nat
  camSel : Nat
  deriving DecidableEq, Repr

/-- The inputs of a domain in a role: 0 crank, 1 cam, 2 auxiliary (R134). -/
def Dev.inputsOf (d : Dev) (dom role : Nat) : List Nat :=
  (List.range 8).filter (fun n => d.obj (0x2100 + n) 0x01 == dom && d.obj (0x2100 + n) 0x02 == role)

/-- Revolutions per cycle of a domain (R137). -/
def Dev.revsOf (d : Dev) (dom : Nat) : Nat := if d.obj (0x2180 + dom) 0x01 = 1 then 1 else 2

/-- The patterns of a domain. -/
def Dev.pat (d : Dev) (dom : Nat) : Pat :=
  let i := 0x2190 + dom
  let n := d.obj i 0x01
  let ci := (d.inputsOf dom 0).head?
  let mi := (d.inputsOf dom 1).head?
  { revs := d.revsOf dom, n := n
    teeth := (List.range 1024).map (fun k => (d.blobByte i 0x02 (k / 8)).testBit (k % 8))
    offset := d.obj (0x2180 + dom) 0x02
    extras := (List.range (d.obj i 0x03)).map (fun k => d.obj i (0x04 + k))
    segs := (List.range (d.obj i 0x0C)).map (fun k => d.obj i (0x0D + k))
    tol := d.obj (0x2180 + dom) 0x07, window := d.obj (0x2180 + dom) 0x0A
    crankIn := ci, camIn := mi
    crankSel := match ci with | some k => d.obj (0x2100 + k) 0x04 | none => 2
    camSel := match mi with | some k => d.obj (0x2100 + k) 0x04 | none => 2 }

/-- Inserts a number into a rising list. -/
def insertNat (k : Nat) : List Nat → List Nat
  | [] => [k]
  | j :: l => if k ≤ j then k :: j :: l else j :: insertNat k l

/-- The crank edges of one revolution in order of angle, each as 64 * position + offset (R138). -/
def Pat.crank (p : Pat) : List Nat :=
  let present := ((List.range p.n).filter (fun k => p.teeth.getD k false)).map (64 * ·)
  (p.extras.map (fun e => 64 * (e / 64) + e % 64)).foldl (fun l k => insertNat k l) present

/-- Edges in one revolution. -/
def Pat.edges (p : Pat) : Nat := p.crank.length

/-- The nominal angle of a crank edge in revolution `r`, to the nearest AU (R137, R138). -/
def Pat.nominalAt (p : Pat) (r pos : Nat) : Nat :=
  (p.offset + (divNearest (((pos + 64 * p.n * r) * auCycle : Nat) : Int) (64 * p.n * p.revs)).toNat) % auCycle

/-- The nominal angle of crank edge `c` of the cycle: edge c mod n of revolution c / n. -/
def Pat.nominal (p : Pat) (c : Nat) : Nat :=
  p.nominalAt (c / p.edges) (p.crank.getD (c % p.edges) 0)

/-- Distances in a cyclic pattern of given length: entry i is the distance from edge i - 1 to edge i. -/
def cyclicIntervals (len : Nat) (l : List Nat) : List Nat :=
  match l with
  | [] => []
  | a :: _ =>
    let z := l.getLast?.getD a
    (l.foldl (fun acc x => (acc.1 ++ [if acc.2 < x then x - acc.2 else x + len - acc.2], x)) ([], z)).1

/-- Distances between the crank edges, in 1/64 of a position. -/
def Pat.crankIv (p : Pat) : List Nat := cyclicIntervals (64 * p.n) p.crank

/-- The cam edges of a polarity selection as (angle, rising) (R139). -/
def Pat.camEdges (p : Pat) (sel : Nat) : List (Nat × Bool) :=
  (p.segs.map (fun w => (w % auCycle, w.testBit 31))).filter
    (fun e => sel = 2 || (sel = 1 && e.2) || (sel = 0 && !e.2))

/-- The cam edges of the cam input's selected polarity. -/
def Pat.cam (p : Pat) : List (Nat × Bool) := p.camEdges p.camSel

/-- Distances between the selected cam edges, in AU. -/
def Pat.camIv (p : Pat) : List Nat := cyclicIntervals auCycle (p.cam.map (·.1))

/-- The ratio of an interval to the one before matches a pattern's within a tolerance in percent (R141): `a / b` against
`x / y`. -/
def ratioMatch (tol a b x y : Nat) : Bool :=
  decide (x * (100 - tol) * b ≤ 100 * a * y) && decide (100 * a * y ≤ x * (100 + tol) * b)

/-- An interval matches an expected one within a tolerance in percent (R147). -/
def ivalMatch (tol a x : Nat) : Bool := ratioMatch tol a 1 x 1

/-- Entry `i` of a cyclic list. -/
def cyc (l : List Nat) (i : Nat) : Nat := l.getD (i % l.length) 0

/-- The pattern's ratio at edge `i`: its interval and the interval before it. -/
def ratioAt (iv : List Nat) (i : Nat) : Nat × Nat := (cyc iv i, cyc iv (i + iv.length - 1))

/-- The intervals of a pattern read in reverse order. -/
def reversedIv (iv : List Nat) : List Nat := iv.reverse

/-- Every ratio of `q` matches the ratio of `e` rotated by `s`. -/
def rotationMatches (tol : Nat) (q e : List Nat) (s : Nat) : Bool :=
  (List.range q.length).all (fun i =>
    let (a, b) := ratioAt q i
    let (x, y) := ratioAt e (i + s)
    ratioMatch tol a b x y)

/-- Some rotation of the forward ratios is matched by the ratios of the reversed pattern (R141). -/
def palindromic (tol : Nat) (rev fwd : List Nat) : Bool :=
  decide (rev.length = fwd.length) && (List.range fwd.length).any (fun s => rotationMatches tol rev fwd s)

/-- No rotation of the crank's ratio sequence other than zero matches the sequence itself (R141). -/
def crankUnique (tol : Nat) (iv : List Nat) : Bool :=
  (List.range iv.length).all (fun s => s = 0 || !(List.range iv.length).all (fun i =>
    let (a, b) := ratioAt iv (i + s)
    let (x, y) := ratioAt iv i
    ratioMatch tol a b x y))

/-- The intervals of the cam read in reverse: order reversed and polarity inverted (R141, R155). -/
def Pat.camRevIv (p : Pat) : List Nat :=
  let sel := if p.camSel = 2 then 2 else 1 - p.camSel
  reversedIv (cyclicIntervals auCycle ((p.camEdges sel).map (·.1)))

/-- The longest run of missing positions, counted around the wheel. -/
def Pat.longestGap (p : Pat) : Nat :=
  let l := (List.range p.n).map (fun k => p.teeth.getD k false)
  ((l ++ l).foldl (fun (acc : Nat × Nat) b => if b then (acc.1, 0) else (max acc.1 (acc.2 + 1), acc.2 + 1)) (0, 0)).1

/-- The list strictly rises. -/
def rising : List Nat → Bool
  | [] => true
  | [_] => true
  | a :: b :: l => decide (a < b) && rising (b :: l)

/-- Levels of the segments alternate around the cycle. -/
def alternates : List Bool → Bool
  | [] => true
  | [_] => true
  | a :: b :: l => (a != b) && alternates (b :: l)

/-- The patterns are valid (R140). -/
def Pat.valid (p : Pat) : Bool :=
  let cnt := ((List.range p.n).filter (fun k => p.teeth.getD k false)).length
  let angles := p.segs.map (· % auCycle)
  let small := (cyclicIntervals auCycle angles).foldl min auCycle
  decide (4 ≤ p.n) && decide (p.n ≤ 1024) && (p.teeth.drop p.n).all (!·) && p.teeth.getD 0 false
  && decide (p.n ≤ 2 * cnt) && decide (p.longestGap ≤ 15)
  && rising (p.extras.map (· / 64)) && p.extras.all (fun e => decide (e / 64 < p.n) && decide (0 < e % 64))
  && decide (p.segs.length % 2 = 0) && decide (p.segs.length ≤ 32) && rising angles
  && alternates (p.segs.map (·.testBit 31))
  && (p.segs.isEmpty || decide (2 * p.window < small))
  && (crankUnique p.tol p.crankIv || decide (2 * p.window * p.n * p.revs < auCycle))
  && p.crankIn.isSome && decide (p.crankSel ≤ 1)

/-- pattern_class (R141). -/
def Pat.cls (p : Pat) : Nat :=
  let cam := p.camIn.isSome
  (if p.valid then 0x80 else 0)
  + (if cam && palindromic p.tol p.camRevIv p.camIv then 8 else 0)
  + (if cam && decide (4 ≤ p.cam.length) then 4 else 0)
  + (if palindromic p.tol (reversedIv p.crankIv) p.crankIv then 2 else 0)
  + (if crankUnique p.tol p.crankIv then 1 else 0)

/-- Recomputes pattern_class (R141). -/
def Dev.classify (d : Dev) (dom : Nat) : Dev := d.setObj (0x2190 + dom) 0x2D (d.pat dom).cls

/-- The pattern signature of a domain (R175). -/
def Dev.patternSig (d : Dev) (dom : Nat) : Nat :=
  let i := 0x2190 + dom
  crc32 (leBytes 1 (d.obj (0x2180 + dom) 0x01) ++ leBytes 2 (d.obj i 0x01) ++ d.blobBytes i 0x02 0 128
    ++ leBytes 1 (d.obj i 0x03) ++ ((List.range 8).map (fun k => leBytes 2 (d.obj i (0x04 + k)))).flatten)

/-- The smallest ratio between an interval of a pattern and the interval before it, as a fraction (R130). -/
def minRatio (iv : List Nat) : Nat × Nat :=
  (List.range iv.length).foldl (fun (m : Nat × Nat) i =>
    let (x, y) := ratioAt iv i
    if x * m.2 < m.1 * y then (x, y) else m) (1, 1)

/-- TQ of one revolution at a speed in 1/16 rpm (R160). -/
def revTq (speed : Nat) : Nat := 9830400000000 / speed

/-- M of R182: selected crank edges in a cycle. -/
def Pat.edgesPerCycle (p : Pat) : Nat := p.edges * p.revs

/-- i_max of R182. -/
def Pat.iMax (p : Pat) : Nat := min 24 ((p.edgesPerCycle - 1) / 2)

end Sys2Proof.Machine
end

