-- ==== Sys2Proof/Machine/Synth.lean ====
section
/-! DEFINITION. The angle synthesiser (chapter 05): the estimate and its answers, the snap, the tooth error table and its
learning, the harmonic model, the torque feed-forward, the angle marks, the accuracy class. -/

namespace Sys2Proof.Machine

/-- The synthesiser record of a domain. -/
def Dev.synth (d : Dev) (k : Nat) : Synth := Store.get (fun _ => {}) d.synths k

/-- Stores the synthesiser record of a domain. -/
def Dev.setSynth (d : Dev) (k : Nat) (y : Synth) : Dev := { d with synths := Store.put (fun _ => {}) d.synths k y }

/-- State code of a domain: 0 STOPPED, 1 SEARCH, 2 CRANK_SYNC, 3 FULL_SYNC, 4 CAM_ONLY, 5 LOSS. -/
def Dev.domState (d : Dev) (k : Nat) : Nat := d.obj (0x2180 + k) 0x10

/-- A domain is armed (status bit 0). -/
def Dev.armed (d : Dev) (k : Nat) : Bool := d.bit (0x2180 + k) 0x11 0

/-- A cause of source 6 + d (R198). -/
def Dev.synthCause (d : Dev) (k b : Nat) : Dev := d.raiseIf (d.bit (0x2200 + k) 0x18 b) (6 + k)

/-- c_i, s_i of the harmonic model in Q15. -/
def Dev.harm (d : Dev) (k i : Nat) : Int × Int := (d.sobj 16 (0x2220 + k) (0x02 + i), d.sobj 16 (0x2220 + k) (0x1A + i))

/-- Harmonics that the domain does not hold at 0 (R181, R182). -/
def Dev.harmUsed (d : Dev) (k i : Nat) : Bool := decide (i ≤ (d.pat k).iMax) && !(d.revsOf k = 1 && i % 2 = 1)

/-- Coefficients above i_max, and the odd ones in a two-stroke domain, are held at 0 (R181, R182). -/
def Dev.harmHold (d : Dev) (k : Nat) : Dev :=
  ((List.range 24).map (· + 1)).foldl (fun (d : Dev) i =>
    if d.harmUsed k i then d else (d.setObj (0x2220 + k) (0x02 + i) 0).setObj (0x2220 + k) (0x1A + i) 0) d

/-- The coefficients in use for g (R168, R173, R181, R182). -/
def Dev.shapeOf (d : Dev) (k : Nat) : Shape :=
  let st := d.domState k
  if !(st = 2 || st = 3) || !(d.synth k).layers.testBit 1 || d.bit (0x2200 + k) 0x21 7 then []
  else ((List.range (d.pat k).iMax).map (· + 1)).filterMap (fun i =>
    let (c, s) := d.harm k i
    if (c = 0 && s = 0) || (st = 2 && i % 2 = 1) || (d.revsOf k = 1 && i % 2 = 1) then none else some (i, c, s))

/-- The floor rate of R168 in AU/us. -/
def Dev.floorRate (d : Dev) (k : Nat) : Rat := ((d.obj (0x2180 + k) 0x03 * auCycle : Nat) : Rat) / (960000000 * d.revsOf k : Nat)

/-- The model in force (R168). -/
def Dev.modelOf (d : Dev) (k : Nat) : Model :=
  let y := d.synth k
  { theta := y.word % auCycle, tk := y.tk, q := y.q, a := y.a, m := y.m
    ff := if d.bit (0x2200 + k) 0x21 6 then y.ff else []
    floor := d.floorRate k, shape := d.shapeOf k, revs := d.revsOf k }

/-- The numerical error of one evaluation: free, at most 0.0005 degrees of crank angle either way (R170). -/
def Dev.evalError (d : Dev) (k key : Nat) : Int :=
  let n : Int := if d.revsOf k = 1 then 24 else 12
  clampInt (-n) n (d.openInt (4096 + 16 * key + k))

/-- The estimate at an instant as an angle word (R170, R192). -/
def Dev.estAt (d : Dev) (k t : Nat) : Nat :=
  angleWord ((d.synth k).word + nearestRat ((d.modelOf k).angleAt t) + d.evalError k 0)

/-- The time at which the crank reaches an angle word (R170, R189). -/
def Dev.timeOfWord (d : Dev) (k target : Nat) : Nat :=
  (d.modelOf k).timeAt (angleDiff target (d.synth k).word + d.evalError k (target + 1))

/-- The answer to an angle-to-time request: no angle, or a time with the passed flag (R189). -/
def Dev.answer (d : Dev) (k target : Nat) : Option (Nat × Bool) :=
  if (d.synth k).live && decide (2 ≤ d.domState k) && decide (d.domState k ≤ 4) then
    some (d.timeOfWord k target, decide (angleDiff target (d.estAt k d.now) ≤ 0))
  else none

/-- rate_now of R192 at an instant: Q16.16, truncated. -/
def Dev.rateWord (d : Dev) (k t : Nat) : Nat := (truncRat ((d.modelOf k).rateAt t * 65536)).toNat

/-- Tooth error entry of a crank position, from 1024 on of an extra tooth (R174). -/
def Dev.toothEntry (d : Dev) (k pos : Nat) : Int :=
  let (sub, i) := if pos < 1024 then (0x03, pos) else (0x04, pos - 1024)
  toSigned 16 (d.blobByte (0x2210 + k) sub (2 * i) + 256 * d.blobByte (0x2210 + k) sub (2 * i + 1))

/-- Stores a tooth error entry. -/
def Dev.setTooth (d : Dev) (k pos : Nat) (v : Int) : Dev :=
  let (sub, i) := if pos < 1024 then (0x03, pos) else (0x04, pos - 1024)
  d.putBlobAt (0x2210 + k) sub (2 * i) (leBytes 2 (ofSigned 16 v))

/-- The table's key of a crank edge: its position, or 1024 and the number of its extra tooth. -/
def Pat.tableKey (p : Pat) (e : Nat) : Nat :=
  if e % 64 = 0 then e / 64 else 1024 + ((p.extras.filter (fun x => decide (64 * (x / 64) + x % 64 < e))).length)

/-- The table is usable (R175, R195). -/
def Dev.tableLearned (d : Dev) (k : Nat) : Bool := d.obj (0x2210 + k) 0x01 == 1 || d.obj (0x2210 + k) 0x01 == 2

/-- The snapped angle of crank edge `c` of the cycle (R171): its nominal angle and, with the tooth layer enabled and the table
usable, its entry. -/
def Dev.snapAngle (d : Dev) (k c : Nat) : Nat :=
  let p := d.pat k
  let e := if d.bit (0x2200 + k) 0x01 0 && d.tableLearned k then d.toothEntry k (p.tableKey (p.crank.getD (c % p.edges) 0)) else 0
  (((p.nominal c : Nat) : Int) + e) % auCycle |>.toNat

/-- L of R174. -/
def Dev.toothLimit (d : Dev) (k : Nat) : Nat :=
  min 32767 (auCycle / (4 * d.obj (0x2190 + k) 0x01 * d.revsOf k))

/-- The first angle word after the last snapped one with these bits 23:0 (R171). -/
def Synth.nextWord (y : Synth) (theta : Nat) : Nat :=
  if !y.snapped then theta
  else
    let s := (theta + auCycle - y.word % auCycle) % auCycle
    (y.word + if s = 0 then auCycle else s) % 2 ^ 32

/-! ### Accuracy class and status -/

/-- acc_class (R195). -/
def Dev.accClass (d : Dev) (k : Nat) : Nat :=
  let st := d.domState k
  if st = 0 || st = 1 || st = 5 then 0
  else if st = 4 then 1
  else if st = 2 || d.bit (0x2200 + k) 0x21 7 || !d.tableLearned k || !d.bit (0x2200 + k) 0x21 4
    || d.obj (0x2200 + k) 0x01 % 4 ≠ 3 then 2
  else if d.bit (0x2200 + k) 0x21 6 then 4 else 3

/-- Whether the feed-forward layer is active (R187). -/
def Dev.ffActive (d : Dev) (k : Nat) : Bool :=
  let y := d.synth k
  let i := 0x2200 + k
  y.layers.testBit 2 && decide (0 < d.obj i 0x0F) && decide (0 < d.obj i 0x10) && decide (0 < d.obj i 0x11)
    && decide (d.obj i 0x10 < 2 * d.obj i 0x11) && decide (0 < d.obj i 0x13) && decide (0 < y.ffCounted)
    && decide (d.domState k = 3) && !d.bit i 0x21 7

/-- Brings the status word and acc_class up to date; a fall of acc_class is a cause of source 6 + d (R195). -/
def Dev.synthStatus (d : Dev) (k : Nat) : Dev :=
  let y := d.synth k
  let i := 0x2200 + k
  let ff := d.ffActive k
  let d := d.setBit i 0x21 6 ff
  let d := d.setBit i 0x21 5 (decide (y.ffCounted < y.ffMapped))
  let d := d.setBit i 0x21 3 (d.tableLearned k)
  let d := d.setBit i 0x21 1 (d.obj i 0x0E == 1 || d.obj i 0x0E == 2)
  let d := d.setBit i 0x21 0 y.live
  let d := if ff then d else
    let y := d.synth k
    d.setSynth k { y with ff := [], cFf := false }
  let was := d.obj i 0x20
  let acc := d.accClass k
  let d := d.setObj i 0x20 acc
  if acc < was then d.synthCause k 0 else d

/-! ### Feed-forward -/

/-- k_au * dt / inertia of R186 in AU/us^2: slope of f for a torque change in N·m. -/
def Dev.ffSlope (d : Dev) (k : Nat) (dt : Rat) : Rat :=
  let inertia := d.obj (0x2200 + k) 0x13
  if inertia = 0 then 0
  else dt * (auCycle * fxOne * 1000 : Int) / (2 * fxPi * (d.revsOf k : Nat) * (inertia : Nat) * 1000000000000 : Int)

/-- The pieces of f from an instant on: the slope of the latest torque change up to its horizon, then 0 (R186). -/
def Dev.ffFrom (d : Dev) (k t : Nat) : Dev :=
  let y := d.synth k
  if !d.bit (0x2200 + k) 0x21 6 || angleDiff y.ffTo (d.estAt k t) ≤ 0 then
    d.setSynth k { y with ff := y.ff.filter (fun p => decide (p.1 < t)) ++ [(t, 0)] }
  else
    let ff := y.ff.filter (fun p => decide (p.1 < t)) ++ [(t, d.ffSlope k y.ffDt)]
    let d := d.setSynth k { y with ff := ff }
    let e := (d.modelOf k).timeAt (angleDiff y.ffTo y.word)
    d.setSynth k { y with ff := ff ++ [(max e t, 0)] }

/-! ### Angle marks -/

/-- The word of the first crossing of an angle after a word. -/
def nextCrossing (word angle : Nat) : Nat :=
  let s := (angle + auCycle - word % auCycle) % auCycle
  (word + if s = 0 then auCycle else s) % 2 ^ 32

/-- The mark record. -/
def Synth.mark (y : Synth) (m : Nat) : Mark := Store.get (fun _ => {}) y.marks m

/-- Stores a mark record. -/
def Synth.setMark (y : Synth) (m : Nat) (v : Mark) : Synth := { y with marks := Store.put (fun _ => {}) y.marks m v }

/-- A mark pulses its line at a time (R190). -/
def Dev.markPulse (d : Dev) (k m time word : Nat) : Dev :=
  let y := d.synth k
  let d := d.setSynth k (y.setMark m { (y.mark m) with fired := some (word / auCycle), time := none, frozen := none })
  (d.setObj (0x2200 + k) (0x2A + m) time).pulse (24 + 4 * k + m)

/-- Recomputes the predicted time of a mark that is not frozen: its first crossing after an angle word, in the next cycle where the
mark has fired in that one (R190). -/
def Dev.markFrom (d : Dev) (k m word : Nat) : Dev :=
  let y := d.synth k
  let v := y.mark m
  let w := d.obj (0x2200 + k) (0x19 + m)
  if v.frozen.isSome then d
  else if !w.testBit 31 || !y.live || !(d.domState k = 3 || d.domState k = 4) then
    d.setSynth k (y.setMark m { v with time := none })
  else
    let c := nextCrossing word (w % auCycle)
    let c := if v.fired = some (c / auCycle) then (c + auCycle) % 2 ^ 32 else c
    d.setSynth k (y.setMark m { v with target := c, time := some (d.timeOfWord k c) })

/-- Recomputes the time of a mark after a snap (R190). -/
def Dev.markTime (d : Dev) (k m : Nat) : Dev := d.markFrom k m (d.synth k).word

/-- A mark has been written: it takes its next crossing from the present estimate on (R190). -/
def Dev.markWritten (d : Dev) (k m : Nat) : Dev :=
  if (d.synth k).live then d.markFrom k m (d.estAt k d.now) else d.markTime k m

/-- Recomputes the times of the four marks. -/
def Dev.markTimes (d : Dev) (k : Nat) : Dev := (List.range 4).foldl (fun d m => d.markTime k m) d

/-- The snap has begun a cycle: marks that fired in an earlier one have not fired in it. -/
def Synth.freshMarks (y : Synth) : Synth :=
  { y with marks := y.marks.map (fun e =>
      (e.1, { e.2 with fired := if e.2.fired = some (y.word / auCycle) then e.2.fired else none })) }

/-- A snap that moves the estimate past an enabled mark, not fired in its cycle and not frozen, fires it at once (R191). -/
def Dev.markLate (d : Dev) (k before m : Nat) : Dev :=
  let y := d.synth k
  let v := y.mark m
  let w := d.obj (0x2200 + k) (0x19 + m)
  let c := (nextCrossing y.word (w % auCycle) + 2 ^ 32 - auCycle) % 2 ^ 32
  if w.testBit 31 && (d.domState k = 3 || d.domState k = 4) && v.frozen.isNone && decide (v.fired ≠ some (c / auCycle))
    && decide (0 < angleDiff c before) then
    ((d.markPulse k m d.now c).inc (0x2200 + k) 0x29).synthCause k 5
  else d

/-- What a snap does to the marks, from the estimate before it (R190, R191). -/
def Dev.marksSnap (d : Dev) (k before : Nat) : Dev := ((List.range 4).foldl (fun d m => d.markLate k before m) d).markTimes k

/-! ### Snap -/

/-- A rational rounded in a way the spec does not state, as a natural number. -/
def Dev.roundNat (d : Dev) (purpose : Nat) (x : Rat) : Nat := (d.roundOpen purpose x).toNat

/-- The end of a cycle at a snap (R173, R183, R188): the record of errors is published, model_fault may clear, C2 begins a
refit and may take the cycle for the inertia, unless it does not run (R35). -/
def Dev.cycleEnd (d : Dev) (k word t : Nat) : Dev :=
  let y := d.synth k
  let i := 0x2200 + k
  let rms := if y.cN = 0 then 0 else
    let x := isqrt (256 * y.cSq / y.cN)
    if x * x * y.cN = 256 * y.cSq then x else x + b2n (d.openBool (70 + k))
  let d := (d.setObj i 0x23 y.cMax).setObj i 0x24 rms
  let full := y.cFull && decide (d.domState k = 3)
  let d := if full && y.cOk && d.bit i 0x21 7 then d.setBit i 0x21 7 false else d
  let runs := !d.coreDown 2
  let begins := full && y.cClean && runs
  let d := if begins && y.refitBegun.isSome then d.inc i 0x27 else d
  let mean := match y.cFrom with
    | some (w, s) => (angleDiff word w).toNat * 671088640 / (t - s)
    | none => 0
  d.setSynth k { y with
    cMax := 0, cSq := 0, cN := 0, cOk := true, cFull := decide (d.domState k = 3), cClean := true
    cFf := d.bit i 0x21 6, cFrom := some (word, t), cInertia := [], cSnaps := []
    refitBegun := if begins then some (mean, y.cSnaps ++ [(word, t)]) else y.refitBegun
    inertiaIn := if full && y.cFf && runs then some y.cInertia else y.inertiaIn }

/-- Records a prediction error (R171 step 3, R173). -/
def Dev.snapError (d : Dev) (k : Nat) (eps : Int) : Dev :=
  let i := 0x2200 + k
  let y := d.synth k
  let a := eps.natAbs
  let big := decide (d.obj i 0x05 < a)
  let d := d.setSobj 32 i 0x22 eps
  let y := { y with cMax := max y.cMax a, cSq := y.cSq + a * a, cN := y.cN + 1, cOk := y.cOk && !big
                    overs := if big then y.overs + 1 else 0 }
  if big then
    let d := ((d.setSynth k y).inc i 0x25).pulse (18 + k)
    if 3 ≤ y.overs && !d.bit i 0x21 7 then
      let d := (d.setBit i 0x21 7 true).synthCause k 1
      d.setSynth k { y with cClean := false, cFf := false }
    else d
  else d.setSynth k y

/-- Applies a refit that C2 has finished (R183). -/
def Dev.refitApply (d : Dev) (k : Nat) : Dev :=
  let y := d.synth k
  match y.refit with
  | none => d
  | some (cs, mean) =>
    let j := 0x2220 + k
    let d := ((List.range 48).zip cs).foldl (fun d e => d.setSobj 16 j (0x03 + e.1) e.2) d
    let d := ((((d.harmHold k).setObj j 0x01 1).setObj j 0x02 mean).writtenBy 10 j).inc (0x2200 + k) 0x26
    let warm := y.warm + 1
    let d := d.setSynth k { y with refit := none, warm := warm }
    let d := if d.domState k = 3 && d.obj (0x2200 + k) 0x04 ≤ warm then d.setBit (0x2200 + k) 0x21 4 true else d
    d.pulse (20 + k)

/-- Applies an inertia that C2 has computed (R188). -/
def Dev.inertiaApply (d : Dev) (k : Nat) : Dev :=
  let y := d.synth k
  match y.inertia with
  | none => d
  | some j => ((d.setSynth k { y with inertia := none }).setObj (0x2200 + k) 0x13 j).writtenBy 10 (0x2200 + k)

/-- Applies a computed tooth table at a snap of position 0, whole (R178, R180). -/
def Dev.tableApply (d : Dev) (k : Nat) : Dev :=
  let y := d.synth k
  match y.table with
  | none => d
  | some n =>
    let all := n.entries ++ n.extras
    let d := all.foldl (fun d e => d.setTooth k e.1 e.2) d
    let j := 0x2210 + k
    let d := (((d.setObj j 0x01 1).setObj j 0x02 (d.patternSig k)).setObj j 0x06 n.speed).writtenBy 10 j
    let d := (d.inc j 0x05).setBit (0x2200 + k) 0x21 2 false
    let moved := n.commanded || all.any (fun e => decide (8 < (e.2 - Store.get (fun _ => 0) y.saved e.1).natAbs))
    let d := d.setSynth k { y with table := none }
    let d := d.pulse (22 + k)
    if moved then d.learnPend else d

/-- Solves the fit of R177 through points (t in us, shape integral): q and a. -/
def fitRate (pts : List (Rat × Rat)) : Rat × Rat :=
  let s := pts.foldl (fun (s : Rat × Rat × Rat × Rat × Rat) p =>
    let u := p.1
    let v := p.1 * p.1 / 2
    (s.1 + u * u, s.2.1 + u * v, s.2.2.1 + v * v, s.2.2.2.1 + u * p.2, s.2.2.2.2 + v * p.2)) (0, 0, 0, 0, 0)
  let det := s.1 * s.2.2.1 - s.2.1 * s.2.1
  if det = 0 then (0, 0)
  else ((s.2.2.2.1 * s.2.2.1 - s.2.1 * s.2.2.2.2) / det, (s.1 * s.2.2.2.2 - s.2.1 * s.2.2.2.1) / det)

/-- The residuals of one revolution by edge of the revolution (R177). -/
def Dev.residuals (d : Dev) (k : Nat) (edges : List (Nat × Nat)) : List (Nat × Rat) :=
  match edges with
  | [] => []
  | (c0, t0) :: _ =>
    let p := d.pat k
    let sh := d.shapeOf k
    let n0 := p.nominal c0
    let rows := edges.map (fun e =>
      let span := (p.nominal e.1 + auCycle - n0) % auCycle
      (e.1 % p.edges, (((e.2 - t0 : Nat) : Rat) / 10240), span))
    let (q, a) := fitRate (rows.map (fun r => (r.2.1, gamma sh p.revs n0 r.2.2)))
    rows.map (fun r => (r.1, gammaInv sh p.revs n0 (q * r.2.1 + a * r.2.1 * r.2.1 / 2) - (r.2.2 : Nat)))

/-- Adds a revolution's residuals to the accumulator. -/
def accAdd (acc : Store Rat) (rs : List (Nat × Rat)) : Store Rat :=
  rs.foldl (fun m r => Store.put (fun _ => 0) m r.1 (Store.get (fun _ => 0) m r.1 + r.2)) acc

/-- A snap of crank position 0 at a stamp: the revolution's end for the learning, which stops while C2 does not run (R35), and the
speed change (R176, R177, R184). The cycle before a revolution of which the record tells no start is as long as the revolution has it. -/
def Dev.revEnd (d : Dev) (k t : Nat) : Dev :=
  let i := 0x2200 + k
  let y := d.synth k
  let speed := d.obj (0x2180 + k) 0x14
  let change : Option (Nat × Nat) := (y.speed0.filter (fun s => decide (s.1 ≠ 0))).map (fun s => (((speed : Int) - (s.1 : Int)).natAbs * tqSec, t - s.2))
  let exceeds (lim : Nat) : Bool := match change with | some (n, dt) => decide (lim * dt < n) | none => false
  let d := match change with
    | some _ => (d.setBit i 0x21 8 (exceeds (d.obj i 0x06))).setBit i 0x21 9 (exceeds 32000)
    | none => d
  let commanded := d.obj i 0x0E == 1
  let auto := (d.obj i 0x07 == 1) && d.bit i 0x01 0 && !commanded
  let begin_ := y.pos0.headD t
  let cycleBack := y.pos0.getD (d.revsOf k) (begin_ - d.revsOf k * (t - begin_))
  let cut := match y.lastShot with | some s => decide (s < cycleBack) | none => true
  let good := y.revGood && decide (y.revEdges.length = (d.pat k).edges) && change.isSome && !exceeds (d.obj i 0x0C)
    && !y.tableDue && (commanded || (auto && cut)) && !d.coreDown 2
  let runRevs := if commanded && d.domState k = 3 && !y.pos0.isEmpty && !d.coreDown 2 then y.runRevs + 1 else y.runRevs
  let y := { y with runRevs := runRevs, speed0 := some (speed, t), pos0 := (t :: y.pos0).take 4 }
  let fresh := fun (y : Synth) => { y with revEdges := [], revGood := decide (d.domState k = 3) }
  if good then
    let revs := d.obj (0x2210 + k) 0x07 + 1
    let y := { y with acc := accAdd y.acc (d.residuals k y.revEdges), speedSum := y.speedSum + speed
                      tableDue := decide (d.obj i 0x08 ≤ revs) }
    let d := (d.setSynth k (fresh y)).setObj (0x2210 + k) 0x07 revs
    if commanded then d else d.setObj i 0x0E 2
  else d.setSynth k (fresh y)

/-- Notes a snap in the revolution's record (R176, R177). -/
def Dev.revNote (d : Dev) (k c t : Nat) : Dev :=
  let y := d.synth k
  let sp := d.obj (0x2180 + k) 0x14
  let ok := decide (d.obj (0x2200 + k) 0x0A ≤ sp) && decide (sp ≤ d.obj (0x2200 + k) 0x0B)
  d.setSynth k { y with revEdges := y.revEdges ++ [(c, t)], revGood := y.revGood && ok }

/-- The base rate over an interval (R169): the shape integral over its span, per time. -/
def Dev.rateOver (d : Dev) (k word span dt : Nat) : Rat :=
  gamma (d.shapeOf k) (d.revsOf k) ((word % auCycle : Nat) : Int) (span : Int) * 10240 / ((dt : Nat) : Rat)

/-- The first snap after entry to CRANK_SYNC, FULL_SYNC or CAM_ONLY (R169, R171): the entering edge is the base, with the rate
of the interval before it and a = 0. Where the estimate was running, marks that the snap passes fire (R191, R193). -/
def Dev.synthEnter (d : Dev) (k theta t span dt : Nat) : Dev :=
  let y := d.synth k
  let word := y.nextWord theta
  let before := if y.live then d.estAt k t else word
  let from_ := (word + 2 ^ 32 - span) % 2 ^ 32
  let d := d.setSynth k (Synth.freshMarks { y with
    live := true, snapped := true, word := word, tk := t, prev := (from_, t - dt), a := 0, layers := d.obj (0x2200 + k) 0x01
    m := ((t : Rat) - (dt : Rat) / 2), ff := [], overs := 0
    cMax := 0, cSq := 0, cN := 0, cOk := true, cFull := false, cClean := true, cFf := false, cFrom := none, cInertia := []
    cSnaps := [(word, t)], revEdges := [], revGood := false, speed0 := none, pos0 := [], warm := 0 })
  let d := d.setSynth k { (d.synth k) with q := d.rateOver k from_ span dt }
  let d := (d.setBit (0x2200 + k) 0x21 4 false).synthStatus k
  if y.live then d.marksSnap k before else d.markTimes k

/-- A snap to crank edge `c` of the cycle stamped at `t` (R171). -/
def Dev.snap (d : Dev) (k c t : Nat) : Dev :=
  let theta := d.snapAngle k c
  let y := d.synth k
  let word := y.nextWord theta
  let est := d.estAt k t
  let eps := angleDiff est word
  let noFf := ({ d.modelOf k with ff := [] }).angleAt t
  let dff := (d.modelOf k).angleAt t - noFf
  let d := if word / auCycle ≠ y.word / auCycle then d.cycleEnd k word t else d
  let d := d.snapError k eps
  let d := let y := d.synth k
    d.setSynth k { y with cInertia := y.cInertia ++ [((eps : Rat) - dff, dff)], cSnaps := y.cSnaps ++ [(word, t)]
                          layers := d.obj (0x2200 + k) 0x01 }
  let zero := decide (c % (d.pat k).edges = 0)
  let d := (d.refitApply k).inertiaApply k
  let d := if zero then d.tableApply k else d
  let y := d.synth k
  let tm := ((t : Rat) + (y.tk : Rat)) / 2
  let qk := d.rateOver k y.word (angleDiff word y.word).toNat (t - y.tk)
  let araw := (qk - y.q) * 10240 / (tm - y.m)
  let ak := y.a + (araw - y.a) * ((d.obj (0x2200 + k) 0x02 : Nat) : Rat) / 256
  let d := d.setSynth k (Synth.freshMarks { y with
    live := true, snapped := true, word := word, tk := t, prev := (y.word, y.tk), q := qk, a := ak, m := tm, ff := [] })
  let d := if zero then d.revEnd k t else d
  let d := (d.revNote k c t).synthStatus k
  let d := if d.bit (0x2200 + k) 0x21 6 then d.ffFrom k t else d
  d.marksSnap k est

/-- A snap to a cam edge in CAM_ONLY at the nominal angle of the edge: linear at the rate of the last cam interval, in AU and TQ
(R193). -/
def Dev.snapCam (d : Dev) (k theta t : Nat) (ival : Option (Nat × Nat)) : Dev :=
  let y := d.synth k
  let word := y.nextWord theta
  let est := d.estAt k t
  let d := d.setSynth k (Synth.freshMarks { y with
    live := true, snapped := true, word := word, tk := t, prev := (y.word, y.tk), a := 0, layers := d.obj (0x2200 + k) 0x01
    q := (match ival with
      | some (a, dt) => ((a : Nat) : Rat) * 10240 / ((dt : Nat) : Rat)
      | none => y.q)
    m := t, ff := [] })
  (d.synthStatus k).marksSnap k est

/-- Entry to FULL_SYNC from CRANK_SYNC. Where the phase resolves to 1 the estimate moves forward by exactly 2^23 AU (R145), which may
take it into the next cycle; a is set to 0 and q to the rate of the last interval, now that the whole shape is in use (R169). -/
def Dev.phaseShift (d : Dev) (k : Nat) (shift : Bool) : Dev :=
  let y := d.synth k
  let by_ := fun w => if shift then (w + 8388608) % 2 ^ 32 else w
  let word := by_ y.word
  let d := if word / auCycle ≠ y.word / auCycle then d.cycleEnd k word d.now else d
  let from_ := by_ y.prev.1
  d.setSynth k (Synth.freshMarks { (d.synth k) with
    a := 0, warm := 0, word := word, prev := (from_, y.prev.2), cFull := false
    q := d.rateOver k from_ (angleDiff word from_).toNat (y.tk - y.prev.2) })

/-- The learning run of a domain is aborted with learn_state 5 (R179). -/
def Dev.learnAbort (d : Dev) (k : Nat) : Dev :=
  let i := 0x2200 + k
  let y := d.synth k
  if d.obj i 0x0E = 1 || d.obj i 0x0E = 2 then
    let d := d.setSynth k { y with acc := [], speedSum := 0, runRevs := 0, tableDue := false, revGood := false }
    let d := (d.setObj i 0x0E 5).setObj (0x2210 + k) 0x07 0
    (d.synthCause k 2).setBit i 0x21 1 false
  else d

/-- The domain leaves FULL_SYNC: harmonic_warm clears, the present revolution and cycle no longer count (R179, R183). -/
def Dev.leaveFull (d : Dev) (k : Nat) : Dev :=
  let y := d.synth k
  (d.setSynth k { y with revGood := false, cFull := false, cFf := false, warm := 0 }).setBit (0x2200 + k) 0x21 4 false

/-- The synthesiser stops predicting (entry to STOPPED, SEARCH or LOSS; R193): no mark that is frozen fires any more. -/
def Dev.synthStop (d : Dev) (k : Nat) : Dev :=
  let d := d.leaveFull k
  let y := d.synth k
  let d := d.setSynth k { y with live := false, ff := [], revEdges := [], pos0 := [], speed0 := none
                                 marks := y.marks.map (fun e => (e.1, { e.2 with time := none, frozen := none })) }
  (d.cycLost k).synthStatus k

/-- The pattern signature check (R175). An empty table carries no signature: a clear makes a table usable again, whatever
pattern_sig holds. -/
def Dev.sigCheck (d : Dev) (k : Nat) : Dev :=
  if decide (d.obj (0x2210 + k) 0x01 ≠ 0) && decide (d.obj (0x2210 + k) 0x02 ≠ d.patternSig k) then
    ((d.setObj (0x2210 + k) 0x01 3).setBit (0x2200 + k) 0x21 2 true).synthCause k 3 |>.synthStatus k
  else d

/-- A reset of PD5 for the synthesiser (R194). -/
def Dev.synthReset (d : Dev) (k : Nat) : Dev :=
  (((d.setSynth k {}).resetObjs (0x2200 + k) (0x2200 + k)).resetObjs (0x2210 + k) (0x2210 + k)).resetObjs (0x2220 + k) (0x2220 + k)

/-! ### Commands -/

/-- TABLE_COMPUTE (R177): C2 completes a table from learn_revs qualifying revolutions, or fails it on range. -/
def Dev.tableCompute (d : Dev) (k : Nat) : Dev :=
  let y := d.synth k
  let i := 0x2200 + k
  let j := 0x2210 + k
  if !d.runs 4 || !y.tableDue || d.coreDown 2 then d
  else
    let p := d.pat k
    let revs := d.obj j 0x07
    let raw := (List.range p.edges).map (fun e => Store.get (fun _ => 0) y.acc e / ((revs : Nat) : Rat))
    let mean := raw.foldl (· + ·) 0 / ((p.edges : Nat) : Rat)
    let new := raw.map (· - mean)
    let commanded := d.obj i 0x0E == 1
    let fails := new.any (fun x => decide (((d.toothLimit k : Nat) : Rat) < x) || decide (x < -((d.toothLimit k : Nat) : Rat)))
    let w : Rat := ((d.obj i 0x09 : Nat) : Rat) / 256
    let replace := commanded || decide (d.obj j 0x01 = 0) || decide (d.obj j 0x01 = 3)
    let rows := ((List.range p.edges).zip new).map (fun e =>
      let key := p.tableKey (p.crank.getD e.1 0)
      let old : Rat := d.toothEntry k key
      (key, d.roundOpen (1024 + key) (if replace then e.2 else old + (e.2 - old) * w)))
    let table : NewTable :=
      { entries := rows.filter (fun e => decide (e.1 < 1024)), extras := rows.filter (fun e => decide (1024 ≤ e.1))
        speed := y.speedSum / revs, commanded := commanded }
    let d := d.setSynth k { y with acc := [], speedSum := 0, runRevs := 0, tableDue := false
                                   table := if fails then y.table else some table }
    let d := (d.setObj j 0x07 0).setObj i 0x0E (if fails then 6 else 3)
    (d.synthCause k 2).synthStatus k

/-- LEARN_TIMEOUT (R176): a commanded run fails after 4 × learn_revs revolutions in FULL_SYNC. -/
def Dev.learnTimeout (d : Dev) (k : Nat) : Dev :=
  let y := d.synth k
  let i := 0x2200 + k
  if d.runs 4 && !d.coreDown 2 && d.obj i 0x0E == 1 && decide (4 * d.obj i 0x08 ≤ y.runRevs) && !y.tableDue then
    let d := d.setSynth k { y with acc := [], speedSum := 0, runRevs := 0 }
    (((d.setObj i 0x0E 4).setObj (0x2210 + k) 0x07 0).synthCause k 2).synthStatus k
  else d

/-- Starts a commanded learning run (R176). -/
def Dev.learnStart (d : Dev) (k : Nat) : Dev :=
  let y := d.synth k
  let d := d.setSynth k { y with acc := [], speedSum := 0, runRevs := 0, tableDue := false }
  ((d.setObj (0x2200 + k) 0x0E 1).setObj (0x2210 + k) 0x07 0).synthStatus k

/-- The least squares fit of a cycle's snaps in Q15, 24 cosines and then 24 sines (R183), with the present coefficients to start
from: four linear solutions, each about the last one, and `more` beyond them. -/
def Dev.harmFitted (d : Dev) (k more : Nat) (snaps : List (Nat × Nat)) : List Rat :=
  let used := ((List.range 24).map (· + 1)).filter (d.harmUsed k)
  let one := fxOne / 32768
  let fit := harmFit (d.revsOf k) snaps (4 + more) (used.map (fun i => (i, (d.harm k i).1 * one, (d.harm k i).2 * one)))
  (List.range 48).map (fun n => match fit.find? (fun e => e.1 = n % 24 + 1) with
    | some e => ((if n < 24 then e.2.1 else e.2.2 : Int) : Rat) / ((one : Int) : Rat)
    | none => 0)

/-- The blend of R183 with its limit of 0.9, in Q15: `fit` holds 24 cosines and 24 sines. -/
def Dev.refitBlend (d : Dev) (k : Nat) (fit : List Rat) : List Int :=
  let gain : Rat := ((d.obj (0x2200 + k) 0x03 : Nat) : Rat) / 256
  let mixed : List Rat := (List.range 48).map (fun n =>
    let i := n % 24 + 1
    let old : Rat := if n < 24 then (d.harm k i).1 else (d.harm k i).2
    if d.harmUsed k i then old + (fit.getD n 0 - old) * gain else 0)
  let sum := mixed.foldl (fun s x => s + if x < 0 then -x else x) 0
  let scale : Rat := if 294912 < 10 * sum then 294912 / (10 * sum) else 1
  ((List.range 48).zip mixed).map (fun e => d.roundOpen (2200 + e.1) (e.2 * scale))

/-- REFIT (R183): C2 finishes the refit of the cycle just ended, or it is discarded. -/
def Dev.refitDone (d : Dev) (k : Nat) (finished : Bool) (more : Nat) : Dev :=
  let y := d.synth k
  match y.refitBegun with
  | none => d
  | some (mean, snaps) =>
    if !d.runs 4 || d.coreDown 2 then d
    else if finished then
      d.setSynth k { y with refitBegun := none, refit := some (d.refitBlend k (d.harmFitted k more snaps), mean) }
    else (d.setSynth k { y with refitBegun := none }).inc (0x2200 + k) 0x27

/-- INERTIA_UPDATE (R188): C2 updates the effective inertia from the cycle in which the layer was active throughout. -/
def Dev.inertiaUpdate (d : Dev) (k : Nat) : Dev :=
  let y := d.synth k
  match y.inertiaIn with
  | none => d
  | some rows =>
    if !d.runs 4 || d.coreDown 2 then d
    else
      let i := 0x2200 + k
      let used := rows.filter (fun r => decide (4 ≤ r.2) || decide (r.2 ≤ -4))
      let sxy := used.foldl (fun s r => s - r.1 * r.2) 0
      let sxx := used.foldl (fun s r => s + r.2 * r.2) 0
      let d := d.setSynth k { y with inertiaIn := none }
      if used.length < 8 || sxy ≤ 0 then d
      else
        let old : Rat := ((d.obj i 0x13 : Nat) : Rat)
        let new := d.roundNat 72 (old + (old * sxx / sxy - old) * ((d.obj i 0x16 : Nat) : Rat) / 256)
        let low := decide (new < d.obj i 0x14)
        let v := if low then d.obj i 0x14 else new
        let high := decide (d.obj i 0x15 < v)
        let v := if high then d.obj i 0x15 else v
        let y := d.synth k
        let d := d.setSynth k { y with inertia := some v }
        if low || high then (d.inc i 0x28).synthCause k 4 else d

/-- MARK_FREEZE (R190): a mark's time is frozen 40 us before it falls. -/
def Dev.markFreeze (d : Dev) (k m : Nat) : Dev :=
  let y := d.synth k
  let v := y.mark m
  match v.time, v.frozen with
  | some t, none => if d.runs 5 && decide (m < 4) && decide (t ≤ d.now + 409600) then d.setSynth k (y.setMark m { v with frozen := some t }) else d
  | _, _ => d

/-- MARK_FIRE (R190): a mark pulses its line at its frozen time. -/
def Dev.markFire (d : Dev) (k m : Nat) : Dev :=
  let v := (d.synth k).mark m
  match v.frozen with
  | some t =>
    if d.runs 5 && decide (m < 4) && decide (t ≤ d.now) && (d.domState k = 3 || d.domState k = 4) then
      (d.markPulse k m t v.target).markTime k m
    else d
  | none => d

/-- Zeroes :25 to :2D of a synthesiser (R199). -/
def Dev.synthClear (d : Dev) (k : Nat) : Dev := d.zero (0x2200 + k) 0x25 0x2D

/-- Zeroes the tooth table (R200); the write aborts a learning run (R179). -/
def Dev.toothClear (d : Dev) (k : Nat) : Dev :=
  let d := (d.learnAbort k).resetObj (0x2210 + k) 0x03
  let d := d.resetObj (0x2210 + k) 0x04
  ((d.setObj (0x2210 + k) 0x01 0).setBit (0x2200 + k) 0x21 2 false).synthStatus k

end Sys2Proof.Machine
end

