-- ==== Sys2Proof/Machine/Occs.lean ====
section
/-! DEFINITION. Records, trees and occurrences (chapter 06): the record's configuration, the resolution of anchors (R209 to
R211), outcomes and what follows from them: references (R210), sheaf events (R233), the count of cycles (R205). -/

namespace Sys2Proof.Machine

/-- The bank of a channel, 0xFF for none (R269). -/
def Dev.bankOf (d : Dev) (n : Nat) : Nat := d.obj (0x2700 + n) 0x02

/-- The index of a record's object: a shot by its number, a sheaf by 0x8000 and its number. -/
def recIx (rid : Nat) : Nat := if rid < 0x8000 then 0x3000 + rid else 0x2400 + (rid - 0x8000)

/-- The record is a sheaf. -/
def isSheaf (rid : Nat) : Bool := decide (0x8000 ≤ rid)

/-- A record's configuration as its object holds it (R235, R236). -/
def Dev.recCfg (d : Dev) (rid : Nat) : RecCfg :=
  let i := recIx rid
  if isSheaf rid then
    { enable := d.obj i 0x01 == 1, parent := d.obj i 0x02, kind := d.obj i 0x03, angle := d.sobj 32 i 0x04
      offset := d.sobj 32 i 0x05, atime := d.obj i 0x06, ref := d.obj i 0x07, late := d.obj i 0x08, lateTol := d.obj i 0x09
      prio := d.obj i 0x0A, flags := d.obj i 0x0B, cycles := d.obj i 0x0C, group := d.obj i 0x0D }
  else
    { enable := d.obj i 0x01 == 1, parent := d.obj i 0x02, channel := d.obj i 0x03, profile := d.obj i 0x04
      role := d.obj i 0x05, durMode := d.obj i 0x06, duration := d.obj i 0x07, kind := d.obj i 0x08
      angle := d.sobj 32 i 0x09, offset := d.sobj 32 i 0x0A, atime := d.obj i 0x0B, ref := d.obj i 0x0C
      late := d.obj i 0x0D, flags := d.obj i 0x0E, cycles := d.obj i 0x0F, group := d.obj i 0x10 }

/-- The records whose subindex `sub` differs from its default, in rising order of index: sheaves first. -/
def Dev.recsWith (d : Dev) (sub : Nat) : List Nat :=
  d.regs.filterMap (fun e =>
    let off := e.1 % 1048576
    let s := e.1 / 1048576 % 256
    let i := e.1 / 268435456
    if off ≠ 0 || s ≠ sub then none
    else if 0x2400 ≤ i && i < 0x2600 then some (0x8000 + (i - 0x2400))
    else if 0x3000 ≤ i && i < 0x3400 then some (i - 0x3000)
    else none)

/-- Records that name a parent (R202). -/
def Dev.rooted (d : Dev) : List Nat := d.recsWith 0x02

/-- Enabled records. -/
def Dev.enabled (d : Dev) : List Nat := d.recsWith 0x01

/-- The parent sheaf of a parent word. -/
def parentSheaf (p : Nat) : Option Nat := if p / 16384 = 2 then some (0x8000 + p % 1024) else none

/-- The parent slot of a parent word. -/
def parentSlot (p : Nat) : Option Nat := if p / 16384 = 1 then some (p % 1024) else none

/-- The ancestors of a record, nearest first, as the objects name them. -/
def Dev.ancestors (d : Dev) : Nat → Nat → List Nat
  | 0, _ => []
  | f + 1, rid =>
    match parentSheaf (d.obj (recIx rid) 0x02) with
    | some p => p :: d.ancestors f p
    | none => []

/-- Depth bound of walks over parents: sheaves nest 8 deep (R203). -/
def walkDepth : Nat := 10

/-- The root slot of a record (chapter 06). -/
def Dev.rootSlot (d : Dev) (rid : Nat) : Option Nat :=
  let top := ((d.ancestors walkDepth rid).getLast?).getD rid
  parentSlot (d.obj (recIx top) 0x02)

/-- The domain of a slot, by slot_mask (R206). -/
def Dev.slotDom (d : Dev) (k : Nat) : Option Nat :=
  if d.bit 0x2180 0x30 k then some 0 else if d.bit 0x2181 0x30 k then some 1 else none

/-- The domain of a record's root slot. -/
def Dev.recDom (d : Dev) (rid : Nat) : Option Nat := (d.rootSlot rid).bind d.slotDom

/-- Depth of a sheaf (R203). -/
def Dev.depth (d : Dev) (rid : Nat) : Nat :=
  if d.obj (recIx rid) 0x02 / 16384 = 0 then 0 else (d.ancestors walkDepth rid).length + 1

/-- The direct members of a sheaf. -/
def Dev.members (d : Dev) (h : Nat) : List Nat := d.rooted.filter (fun r => parentSheaf (d.obj (recIx r) 0x02) == some h)

/-! ### Occurrences -/

/-- An occurrence by its number; one that does not stand is over. -/
def Dev.occ (d : Dev) (id : Nat) : Occ := Store.get (fun _ => { st := .done }) d.occs id

/-- Stores an occurrence. -/
def Dev.setOcc (d : Dev) (id : Nat) (o : Occ) : Dev :=
  { d with occs := Store.insert (Store.drop d.occs id) id o }

/-- The occurrences of a tree. -/
def Dev.treeOf (d : Dev) (t : Nat) : List (Nat × Occ) := d.occs.filter (fun e => decide (e.2.tree = t))

/-- The occurrence of a record in a list of occurrences of one tree. -/
def occIn (os : List (Nat × Occ)) (rid : Nat) : Option Occ := (os.find? (fun e => decide (e.2.rid = rid))).map (·.2)

/-- The occurrence has started. -/
def Occ.started (o : Occ) : Bool := o.flags.testBit 0

/-- The occurrence is still to start. -/
def Occ.waiting (o : Occ) : Bool := !o.ghost && (o.st = .armed || o.st = .locked)

/-- The ancestor sheaves of an occurrence in its tree, nearest first. -/
def occAncestors : Nat → List (Nat × Occ) → Occ → List (Nat × Occ)
  | 0, _, _ => []
  | f + 1, os, o =>
    match parentSheaf o.cfg.parent with
    | none => []
    | some p =>
      match os.find? (fun e => decide (e.2.rid = p)) with
      | some e => e :: occAncestors f os e.2
      | none => []

/-- The angle word of an angle-bearing occurrence (R209, R219). -/
def resAngle : Nat → List (Nat × Occ) → Occ → Option Nat
  | 0, _, _ => none
  | f + 1, os, o =>
    let half := if o.half then 8388608 else 0
    if o.cfg.kind = 1 then some ((o.cyc * auCycle + o.cfg.angle.toNat + half) % 2 ^ 32)
    else if o.cfg.kind = 2 then
      some ((o.cyc * auCycle + (((o.tdc : Int) + o.cfg.angle) % (auCycle : Int)).toNat + half) % 2 ^ 32)
    else if o.cfg.kind = 4 then
      match (parentSheaf o.cfg.parent).bind (occIn os) with
      | some p => (resAngle f os p).map (fun a => angleWord (a + o.cfg.angle))
      | none => none
    else none

/-- What resolution asks for: the time part, the start, the end (R209, R211, R28). -/
inductive Part where
  | time | start | stop
  deriving DecidableEq, Repr

/-- The least or greatest of some numbers, once all are known (R214). -/
def pick (f : Nat → Nat → Nat) : List (Option Nat) → Option Nat
  | [] => none
  | [x] => x
  | x :: l => match x, pick f l with
    | some a, some b => some (f a b)
    | _, _ => none

/-- The shots below a sheaf in a tree, ghosts among them. -/
def shotsBelow (os : List (Nat × Occ)) (h : Nat) : List (Nat × Occ) :=
  os.filter (fun e => !isSheaf e.2.rid && ((occAncestors walkDepth os e.2).map (·.2.rid)).contains h)

/-- The shot occurrences that a member stands for: itself, or the shots below it. -/
def memberShots (os : List (Nat × Occ)) (e : Nat × Occ) : List (Nat × Occ) :=
  if isSheaf e.2.rid then shotsBelow os e.2.rid else [e]

/-- The members of a sheaf over which its start and end are taken (R28, R211): those of which some shot is not dropped or
cancelled; where none is left, all as they were planned. -/
def membersUsed (os : List (Nat × Occ)) (h : Nat) : List (Nat × Occ) :=
  let kids := (os.filter (fun e => parentSheaf e.2.cfg.parent == some h)).filter (fun e => !(memberShots os e).isEmpty)
  let live := kids.filter (fun e => (memberShots os e).any (fun s => !(s.2.st = .done && !s.2.started)))
  if live.isEmpty then kids else live

/-- Resolution of an occurrence within its tree, with a function that answers angle-to-time requests. A frozen shot keeps what
was frozen, and one that fires late the start it was given. -/
def resolve : Nat → List (Nat × Occ) → (Nat → Option Nat) → Part → Occ → Option Nat
  | 0, _, _, _, _ => none
  | f + 1, os, conv, part, o =>
    let shift := fun (x : Option Nat) => x.map (fun t => ((t : Int) + o.cfg.offset).toNat)
    if o.frozen then (if part = .stop then some o.stop else o.start)
    else if o.moved.isSome then (if part = .stop then o.moved.map (· + o.dur) else o.moved)
    else
      match part with
      | .time =>
        if o.cfg.kind = 3 then shift (some o.cfg.atime)
        else if o.cfg.kind = 5 then
          shift (((parentSheaf o.cfg.parent).bind (occIn os)).bind (resolve f os conv .time))
        else if o.cfg.kind = 6 then shift ((occIn os o.cfg.ref).bind (resolve f os conv .start))
        else if o.cfg.kind = 7 then shift ((occIn os o.cfg.ref).bind (resolve f os conv .stop))
        else shift ((resAngle walkDepth os o).bind conv)
      | .start =>
        if isSheaf o.rid then pick min ((membersUsed os o.rid).map (fun e => resolve f os conv .start e.2)) else resolve f os conv .time o
      | .stop =>
        if isSheaf o.rid then pick max ((membersUsed os o.rid).map (fun e => resolve f os conv .stop e.2))
        else (resolve f os conv .time o).map (· + o.dur)

/-- Fuel of resolution: longer than any chain of references and parents of one tree, which passes at most three parts of each of
the 1536 records. -/
def resFuel : Nat := 8192

/-- The scheduler's conversion of an angle word: only a target less than one cycle ahead of the estimate is converted (R214). -/
def Dev.conv (d : Dev) (dom w : Nat) : Option Nat :=
  if angleDiff w (d.estAt dom d.now) < (auCycle : Int) then (d.answer dom w).map (·.1) else none

/-- A part of an occurrence, resolved now. -/
def Dev.resolveOcc (d : Dev) (o : Occ) (part : Part) : Option Nat :=
  resolve resFuel (d.treeOf o.tree) (d.conv o.dom) part o

/-! ### Policies -/

/-- The first value of a list that satisfies a test, or a default. -/
def firstOr (l : List Nat) (p : Nat → Bool) (dflt : Nat) : Nat := (l.find? p).getD dflt

/-- Effective priority (R216). -/
def Dev.prioOf (d : Dev) (o : Occ) : Nat :=
  firstOr ((occAncestors walkDepth (d.treeOf o.tree) o).map (·.2.cfg.prio)) (fun p => decide (p ≠ 0xFF)) 0

/-- The late policy in force: 1 SKIP, 2 FIRE_LATE (R221). -/
def Dev.latePolicy (d : Dev) (o : Occ) : Nat :=
  firstOr (o.cfg.late :: (occAncestors walkDepth (d.treeOf o.tree) o).map (·.2.cfg.late)) (fun p => decide (p ≠ 0)) 1

/-- The late tolerance in force (R221). -/
def Dev.lateTol (d : Dev) (o : Occ) : Nat :=
  firstOr ((occAncestors walkDepth (d.treeOf o.tree) o).map (·.2.cfg.lateTol)) (fun p => decide (p ≠ 0))
    (d.obj (0x2180 + o.dom) 0x32)

/-- A veto bit cuts the scope of an occurrence (R77). -/
def Dev.cutNow (d : Dev) (o : Occ) : Bool := d.bit 0x1800 0x05 o.dom || d.bit 0x1800 0x06 o.slot

/-! ### Outcomes -/

/-- The outcome words of the members of a sheaf's occurrence, OR-ed (R236). -/
def memberFlags (os : List (Nat × Occ)) (h : Nat) : Nat :=
  os.foldl (fun v e =>
    if !isSheaf e.2.rid && ((occAncestors walkDepth os e.2).map (·.2.rid)).contains h then v ||| e.2.flags else v) 0

/-- Sets bits of a shot occurrence's outcome word, in its record and in the sheaves above it. -/
def Dev.occFlag (d : Dev) (id mask : Nat) : Dev :=
  let o := d.occ id
  let o := { o with flags := o.flags ||| mask }
  let d := (d.setOcc id o).setObj (recIx o.rid) 0x13 o.flags
  let os := d.treeOf o.tree
  (occAncestors walkDepth os o).foldl (fun d e => d.setObj (recIx e.2.rid) 0x10 (memberFlags os e.2.rid)) d

/-- Shot occurrences under a sheaf in a tree, other than those that only stand for a plan. -/
def shotsUnder (os : List (Nat × Occ)) (h : Nat) : List (Nat × Occ) :=
  os.filter (fun e => !isSheaf e.2.rid && !e.2.ghost && ((occAncestors walkDepth os e.2).map (·.2.rid)).contains h)

/-- The sheaf events due in a tree when a member has ended, was dropped or has left (R233): the end of each sheaf that has begun
and in which no member remains. -/
def Dev.treeEnds (d : Dev) (t : Nat) : Dev :=
  let os := d.treeOf t
  (os.filter (fun e => isSheaf e.2.rid)).foldl (fun d e =>
    if e.2.begun && !e.2.ended && (shotsUnder os e.2.rid).all (fun s => s.2.st = .done) then
      (d.setOcc e.1 { e.2 with ended := true }).pulseIf (e.2.cfg.group < 16) (80 + e.2.cfg.group)
    else d) d

/-- The top-level bookkeeping of a record. -/
def Dev.topRec (d : Dev) (rid : Nat) : TopRec := Store.get (fun _ => {}) d.tops rid

/-- Stores the top-level bookkeeping of a record. -/
def Dev.setTopRec (d : Dev) (rid : Nat) (r : TopRec) : Dev := { d with tops := Store.put (fun _ => {}) d.tops rid r }

/-- An occurrence of a top-level record has reached an outcome (R205): the count of cycles, and enable falls when it is
reached. Armed occurrences of a record so disabled are discarded. -/
def Dev.countOutcome (d : Dev) (t : Nat) : Dev :=
  let o := d.occ t
  let r := d.topRec o.rid
  let r := { r with count := r.count + 1 }
  let d := d.setTopRec o.rid r
  if o.cfg.kind = 3 || (decide (0 < o.cfg.cycles) && decide (o.cfg.cycles ≤ r.count)) then
    let d := d.setObj (recIx o.rid) 0x01 0
    let gone := (d.occs.filter (fun e => decide (e.2.rid = o.rid) && e.1 = e.2.tree && e.1 ≠ t && e.2.st = .armed)).map (·.1)
    { d with occs := d.occs.filter (fun e => !(gone.contains e.2.tree && e.2.st = .armed)) }
  else d

/-- Whether the tree's occurrence has reached its outcome: a shot that started or is done; a sheaf whose members all have, if it
has any that runs. -/
def treeSettled (os : List (Nat × Occ)) : Bool :=
  os.any (fun e => !isSheaf e.2.rid && !e.2.ghost) && os.all (fun e => isSheaf e.2.rid || e.2.ghost || e.2.st = .running || e.2.st = .done)

/-- The tree is over: no occurrence of it is armed, locked or running. -/
def treeOver (os : List (Nat × Occ)) : Bool := os.all (fun e => isSheaf e.2.rid || e.2.ghost || e.2.st = .done)

/-- What follows when an occurrence of a tree has reached an outcome: the tree's outcome is counted once, that of a crank_fire
slot at its second firing, and a tree that is over is taken away. -/
def Dev.treeCheck (d : Dev) (t : Nat) : Dev :=
  let o := d.occ t
  let d :=
    if treeSettled (d.treeOf t) && !o.counted then
      let d := d.setOcc t { o with counted := true }
      if o.crankFire && !o.half then d else d.countOutcome t
    else d
  if treeOver (d.treeOf t) then { d with occs := d.occs.filter (fun e => decide (e.2.tree ≠ t)) } else d

/-- An occurrence that has not started is dropped or cancelled with a flag in its outcome word: its lane is released (R282). -/
def Dev.occGone (d : Dev) (id mask : Nat) : Dev :=
  let d := d.occFlag id mask
  let o := d.occ id
  let d := d.setOcc id { o with st := .done }
  let d := (d.laneRelease id).inc (recIx o.rid) 0x1A
  d.treeEnds o.tree

/-- The referenced sibling's occurrence was dropped, cancelled or disabled (R210). -/
def refGone (os : List (Nat × Occ)) (ref : Nat) : Bool :=
  match occIn os ref with
  | none => true
  | some r =>
    r.ghost ||
    (if isSheaf ref then (shotsUnder os ref).all (fun e => e.2.st = .done && !e.2.started) else r.st = .done && !r.started)

/-- Shots of a tree to be dropped with their reference: an unlocked dependant with drop_with_ref whose sibling is gone, or a
member of such a sheaf. -/
def refVictims (os : List (Nat × Occ)) : List Nat :=
  let hit := fun (o : Occ) => (o.cfg.kind = 6 || o.cfg.kind = 7) && o.cfg.flags.testBit 0 && refGone os o.cfg.ref
  (os.filter (fun e => !isSheaf e.2.rid && !e.2.ghost && e.2.st = .armed
    && (hit e.2 || (occAncestors walkDepth os e.2).any (fun a => hit a.2)))).map (·.1)

/-- Drops dependants until none is left to drop (R210): fuel for every member of the tree. -/
def Dev.settleRefs : Nat → Dev → Nat → Dev
  | 0, d, _ => d
  | f + 1, d, t =>
    match refVictims (d.treeOf t) with
    | [] => d
    | v :: _ =>
      let dom := (d.occ v).dom
      let d := ((d.occGone v 256).inc (0x2180 + dom) 0x3D).raiseIf (d.bit (0x2180 + dom) 0x33 5) (26 + dom)
      Dev.settleRefs f d t

/-- What follows in a tree whose members have changed: dependants fall with what they refer to (R210), sheaves end (R233), the
tree's outcome is counted (R205). -/
def Dev.treeRefs (d : Dev) (t : Nat) : Dev :=
  let d := Dev.settleRefs ((d.treeOf t).length + 1) d t
  (d.treeEnds t).treeCheck t

/-- An occurrence that has not started is dropped or cancelled, with all that follows in its tree. -/
def Dev.occDrop (d : Dev) (id mask : Nat) : Dev :=
  let t := (d.occ id).tree
  (d.occGone id mask).treeRefs t

/-- A shot's occurrence starts at an instant (R216, R233, R235). -/
def Dev.occStart (d : Dev) (id at_ : Nat) : Dev :=
  let d := d.occFlag id 1
  let o := d.occ id
  let d := d.setOcc id { o with st := .running, start := some at_ }
  let i := recIx o.rid
  let d := ((d.setObj i 0x15 at_).inc i 0x19).inc (0x2180 + o.dom) 0x35
  let y := d.synth o.dom
  let d := d.setSynth o.dom { y with lastShot := some at_ }
  let d := d.pulseIf (o.cfg.group < 16) (32 + o.cfg.group)
  let os := d.treeOf o.tree
  let d := (occAncestors walkDepth os o).foldl (fun d e =>
    if e.2.begun then d
    else (d.setOcc e.1 { e.2 with begun := true }).pulseIf (e.2.cfg.group < 16) (64 + e.2.cfg.group)) d
  d.treeCheck o.tree

/-- A running occurrence ends: at its programmed end with `completed`, or before it with other flags (R233, R235). A shot that
found no lane queues its result record here (R281). -/
def Dev.occEnd (d : Dev) (id mask chanOut : Nat) : Dev :=
  let d := d.occFlag id mask
  let o := d.occ id
  let i := recIx o.rid
  let d := d.setOcc id { o with st := .done }
  let d := if mask.testBit 1 then (d.setObj i 0x16 o.stop).pulseIf (o.cfg.group < 16) (48 + o.cfg.group)
    else if mask = 0 then d else d.inc i 0x1A
  let d := d.capNote id (o.start.getD 0) chanOut o.flags
  let d := if o.noLane then
      d.cloQueue o.cfg.channel { flags := 8, shot := o.rid, duration := o.cfg.duration, role := o.cfg.role
                                 durMode := o.cfg.durMode, chanOutcome := chanOut, shotOutcome := o.flags, clo := o.clo }
    else d
  let d := if mask.testBit 1 then d else d.capAbort id
  (d.treeEnds o.tree).treeCheck o.tree

/-- The scheduler's view of a record: disabled, idle, armed, locked or running (R235, R236). -/
def Dev.recState (d : Dev) (rid : Nat) : Nat :=
  let mine := fun (p : Occ → Bool) => d.occs.any (fun e =>
    !e.2.ghost && p e.2 && (if isSheaf rid then
      !isSheaf e.2.rid && ((occAncestors walkDepth (d.treeOf e.2.tree) e.2).map (·.2.rid)).contains rid
      else decide (e.2.rid = rid)))
  if mine (fun o => o.st = .running) then 4 else if mine (fun o => o.st = .locked) then 3
  else if mine (fun o => o.st = .armed) then 2 else if d.obj (recIx rid) 0x01 = 1 then 1 else 0

/-- The present occurrences of a record, in order of arming. -/
def Dev.present (d : Dev) (rid : Nat) : List (Nat × Occ) :=
  d.occs.filter (fun e => decide (e.2.rid = rid) && !e.2.ghost && e.2.st ≠ .done)

end Sys2Proof.Machine
end

