-- ==== Sys2Proof/Machine/Drive.lean ====
section
/-! DEFINITION. The injector drive (chapter 07, and the start checks of chapter 09): the phases of a shot on its channel, the
sharing of a bank, the regulation. -/

namespace Sys2Proof.Machine

/-- The record of a channel. -/
def Dev.chan (d : Dev) (n : Nat) : Chan := Store.get (fun _ => {}) d.chans n

/-- Stores the record of a channel. -/
def Dev.setChan (d : Dev) (n : Nat) (c : Chan) : Dev := { d with chans := Store.put (fun _ => {}) d.chans n c }

/-- The record of a bank. -/
def Dev.bank (d : Dev) (b : Nat) : Bank := Store.get (fun _ => {}) d.banks b

/-- Stores the record of a bank. -/
def Dev.setBank (d : Dev) (b : Nat) (k : Bank) : Dev := { d with banks := Store.put (fun _ => {}) d.banks b k }

/-- The record of a boost controller. -/
def Dev.boost (d : Dev) (x : Nat) : Boost := Store.get (fun _ => {}) d.boosts x

/-- Stores the record of a boost controller. -/
def Dev.setBoost (d : Dev) (x : Nat) (b : Boost) : Dev := { d with boosts := Store.put (fun _ => {}) d.boosts x b }

/-- Phase code of a channel: 0 idle, 1 waiting, 2 boost, 3 peak, 4 hold, 5 decay (R269). -/
def Dev.phase (d : Dev) (n : Nat) : Nat := d.obj (0x2700 + n) 0x03

/-- The members of a bank (R238). -/
def Dev.bankMembers (d : Dev) (b : Nat) : List Nat :=
  ((List.range 6).map (fun i => d.obj (0x2740 + b) (0x01 + i))).filter (fun n => decide (n < 48))

/-- The power domain of a channel's drive group. -/
def groupPd (n : Nat) : Nat := if n < 24 then 7 else 8

/-- The boost controller of a bank (R270). -/
def Dev.railOf (d : Dev) (b : Nat) : Nat := d.obj (0x2740 + b) 0x07

/-- Sets bits of the channel's last_outcome (R269). -/
def Dev.chanOut (d : Dev) (n mask : Nat) : Dev := d.setObj (0x2700 + n) 0x04 (d.obj (0x2700 + n) 0x04 ||| mask)

/-- Sets bits of the channel's last_diag, and of its status, where bit 8 is live and shows the inhibit alone (R314). -/
def Dev.chanDiag (d : Dev) (n mask : Nat) : Dev :=
  let i := 0x2880 + n
  (d.setObj i 0x0A (d.obj i 0x0A ||| mask)).setObj i 0x09 (d.obj i 0x09 ||| (mask &&& 0x2FF))

/-- A cause of source 34 or 35 whose bit is set in ovl_mask (R266). -/
def Dev.ovlCause (d : Dev) (b bit_ : Nat) : Dev := d.raiseIf (d.bit (0x2740 + b) 0x0D bit_) (34 + b / 8)

/-- ARM_N counts as high for a start: high past its filter, or less than 2 us after its fall (R300). -/
def Dev.armBlocks (d : Dev) : Bool :=
  d.stops.armHigh && (match d.stops.armFell with | some f => decide (d.now < f + 2 * tqUs) | none => true)

/-- Brings state, holder and waiting of a bank's object up to date (R270). -/
def Dev.bankStatus (d : Dev) (b : Nat) : Dev :=
  let k := d.bank b
  let ms := d.bankMembers b
  let st := match k.holder with
    | some h => if d.phase h = 2 then 2 else if d.phase h = 3 then 3 else if ms.any (fun n => d.phase n = 4) then 1 else 0
    | none => if ms.any (fun n => d.phase n = 3) then 3 else if ms.any (fun n => d.phase n = 4) then 1 else 0
  ((d.setObj (0x2740 + b) 0x0E st).setObj (0x2740 + b) 0x0F (k.holder.getD 0xFF)).setObj (0x2740 + b) 0x10
    (ms.filter (fun n => (d.chan n).deferWait)).length

/-! ### The bank's switches (R252) -/

/-- Moves a bank's high side to BHB (some true), BHS (some false) or off (none), with the dead time between the two. -/
def Dev.switchBank (d : Dev) (b : Nat) (want : Option Bool) : Dev :=
  let k := d.bank b
  let dead := d.obj (0x2740 + b) 0x0B * 64
  let isOn : Option Bool := if k.bhb then some true else if k.bhs then some false else none
  match want with
  | none =>
    if isOn.isNone then d.setBank b { k with rise := none }
    else (d.setBank b { k with bhb := false, bhs := false, fell := some d.now, rise := none }).capBankChange b
  | some x =>
    if isOn = some x then d.setBank b { k with rise := none }
    else
      match isOn with
      | some _ =>
        (d.setBank b { k with bhb := false, bhs := false, fell := some d.now, rise := some (x, d.now + dead) }).capBankChange b
      | none =>
        match k.fell with
        | some f =>
          if d.now < f + dead || (k.rise.isSome && k.entering.isSome) then d.setBank b { k with rise := some (x, f + dead) }
          else (d.setBank b { k with bhb := x, bhs := !x, rise := none, rose := d.now }).capBankChange b
        | none => (d.setBank b { k with bhb := x, bhs := !x, rise := none, rose := d.now }).capBankChange b

/-- The phase that a channel is in or, in the dead time before it, is about to enter. -/
def Dev.phaseDue (d : Dev) (n : Nat) : Nat :=
  match (d.bank (d.bankOf n)).entering with
  | some (m, ph) => if m = n then ph else d.phase n
  | none => d.phase n

/-- What a bank's members need of its high side: BHB while one boosts, BHS while one is in peak or hold, else off. -/
def Dev.bankWant (d : Dev) (b : Nat) : Option Bool :=
  let phs := (d.bankMembers b).map d.phaseDue
  if phs.contains 2 then some true else if phs.contains 3 || phs.contains 4 then some false else none

/-- A member in slow decay turns to fast decay when the bank switches on (R248). -/
def Dev.slowToFast (d : Dev) (b : Nat) : Dev :=
  if !((d.bank b).bhb || (d.bank b).bhs) then d
  else (d.bankMembers b).foldl (fun d n =>
    let c := d.chan n
    if c.slow && d.phase n = 5 then d.setChan n { c with slow := false, low := false, offAt := d.now } else d) d

/-- Moves the bank's high side to what its members need. -/
def Dev.bankApply (d : Dev) (b : Nat) : Dev := ((d.switchBank b (d.bankWant b)).slowToFast b).bankStatus b

/-! ### Phases -/

/-- The upper regulation threshold of a phase: i_boost, i_peak or i_hold of the channel's copy of the profile. -/
def Chan.upper (c : Chan) (ph : Nat) : Nat := c.prof.getD (if ph = 2 then 0 else if ph = 3 then 2 else 5) 0

/-- A current has been reported in a channel's shot (R269). -/
def Dev.sawCurrent (d : Dev) (n cur : Nat) : Dev :=
  let c := d.chan n
  d.setChan n { c with most := max c.most cur }

/-- The boost phase of a channel is over: last_boost_time records it, whatever ended it (R269). -/
def Dev.boostOver (d : Dev) (n : Nat) : Dev :=
  if d.phase n = 2 && d.phaseDue n = 2 then d.setObj (0x2700 + n) 0x06 (min 65535 ((d.now - (d.chan n).phaseAt) / 1024)) else d

/-- A channel enters a phase at a current (R249): in peak and hold the low side turns off if the current is at or above the
upper threshold. -/
def Dev.enterPhase (d : Dev) (n ph cur : Nat) : Dev :=
  let d := (d.boostOver n).sawCurrent n cur
  let c := d.chan n
  let off := decide (ph ≠ 2) && decide (c.upper ph ≤ cur) && c.low
  let c := { c with phaseAt := d.now, low := c.low && !off, offAt := if off then d.now else c.offAt, limitedNow := false
                    firstAt := if c.firstAt = 0 then d.now else c.firstAt }
  ((d.setChan n c).setObj (0x2700 + n) 0x03 ph).bankStatus (d.bankOf n)

/-- A channel goes to a phase, once the bank's switch for it has risen if `wait` (R252, R254). -/
def Dev.gotoPhase (d : Dev) (n ph cur : Nat) (wait : Bool) : Dev :=
  let b := d.bankOf n
  if wait then
    let d := ((d.boostOver n).sawCurrent n cur).setBank b { (d.bank b) with entering := some (n, ph) }
    let d := (d.switchBank b (d.bankWant b)).slowToFast b
    if (d.bank b).rise.isSome then d.bankStatus b
    else (d.setBank b { (d.bank b) with entering := none }).enterPhase n ph cur
  else ((d.setBank b { (d.bank b) with entering := none }).enterPhase n ph cur).bankApply b

/-- vernier_fail as it stood when the edge at an instant was released, 180 ns before it (R107, R108). -/
def Dev.vernFailed (d : Dev) (t : Nat) : Bool :=
  let fail := d.bit 0x2000 0x04 5
  match d.tb.vernAt with
  | some c => if t < c + 1844 then !fail else fail
  | none => fail

/-- Where an output edge falls: with vernier_fail set at its release, at the tap-0 position of its tick (R108). -/
def Dev.edgeAt (d : Dev) (t : Nat) : Nat :=
  if d.vernFailed t then t / 8 * 8 else t

/-- The shot's gate rises: it has started at an instant, with its low side on. -/
def Dev.beginRun (d : Dev) (n at_ : Nat) : Dev :=
  let c := d.chan n
  let d := d.setChan n { c with started := true, low := true, onAt := d.now, railWait := false, deferWait := false, start := at_ }
  let d := (d.chanOut n 1).inc (0x2700 + n) 0x09
  match c.occ with
  | some id => (d.setChan n { (d.chan n) with lastWas := d.obj (recIx c.shot) 0x15 }).occStart id at_
  | none => d

/-- The channel takes no further part: idle, its record empty. last_max_current is at least every current reported in the shot; by how
much more is not stated. -/
def Dev.chanIdle (d : Dev) (n : Nat) : Dev :=
  let c := d.chan n
  let d := d.capDecay n c.stop
  let d := if c.started then d.setObj (0x2700 + n) 0x07 (max c.most (d.openNat (500 + n) % 65536)) else d
  ((d.setChan n {}).setObj (0x2700 + n) 0x03 0).bankApply (d.bankOf n)

/-- A shot on a channel that has not started is dropped with bits of last_outcome and last_diag (R256). -/
def Dev.driveDrop (d : Dev) (n out diag : Nat) : Dev :=
  let c := d.chan n
  let d := (d.chanOut n out).chanDiag n diag
  let d := ((d.setChan n {}).setObj (0x2700 + n) 0x03 0).bankStatus (d.bankOf n)
  match c.occ with
  | some id => d.occDrop id 0
  | none => d

/-- A drop by the overlap policy: defer_dropped or overlap_dropped (R253). Under PRIORITY it is no cause of the bank's source
(R266). -/
def Dev.overlapDrop (d : Dev) (n out : Nat) (priority : Bool) : Dev :=
  let b := d.bankOf n
  let d := (d.inc (0x2700 + n) 0x0B).inc (0x2740 + b) 0x13
  (if priority then d else d.ovlCause b 1).driveDrop n out 0

/-- The start checks 1 to 5 (R304): the first that holds, as the bit of last_diag. A group in reset reports no bank (R308). -/
def Dev.startCheck (d : Dev) (n : Nat) : Option Nat :=
  let b := d.bankOf n
  let x := d.railOf b
  if d.bit (0x2880 + n) 0x09 8 then some 8
  else if d.bit (0x28B0 + b) 0x04 4 || d.groupDown (groupPd n) then some 9
  else if d.bit (0x28B0 + b) 0x04 3 then some 6
  else if d.armBlocks then some 5
  else if d.bit (0x28C0 + x) 0x04 0 then some 7
  else none

/-- The drop of a start check, with its counters. -/
def Dev.checkDrop (d : Dev) (n bit_ : Nat) : Dev :=
  let d := d.inc (0x2880 + n) (if bit_ = 8 then 0x11 else 0x12)
  let d := if bit_ = 5 then d.inc 0x28C8 0x05 else d
  let d := if bit_ = 7 then d.inc (0x28C0 + d.railOf (d.bankOf n)) 0x06 else d
  d.driveDrop n 0 (1 <<< bit_)

/-- The shot of a channel takes the bank at an instant (R245, R305): boost, peak with skip_boost, or boost_policy if the rail is
not ready. -/
def Dev.takeBank (d : Dev) (n at_ cur : Nat) (wait : Bool) : Dev :=
  let b := d.bankOf n
  let c := d.chan n
  let x := d.railOf b
  let hold := fun (d : Dev) => d.setBank b { (d.bank b) with holder := some n }
  if c.prof.getD 14 0 % 2 = 1 then ((hold d).beginRun n at_).gotoPhase n 3 cur wait
  else if d.bit (0x2780 + x) 0x0C 2 then ((hold d).beginRun n at_).gotoPhase n 2 cur wait
  else
    let d := ((d.chanOut n 8).inc (0x2880 + n) 0x0C).raise 40
    let pol := c.prof.getD 12 0
    if pol = 1 then
      let d := (hold d).chanOut n 4
      ((d.setChan n { (d.chan n) with battery := true }).beginRun n at_).gotoPhase n 3 cur wait
    else if pol = 0 && decide (0 < c.prof.getD 13 0) then
      let d := hold d
      ((d.setChan n { (d.chan n) with railWait := true, deferWait := false, waitFrom := d.now }).setObj (0x2700 + n) 0x03 1).bankStatus b
    else d.driveDrop n 0 1

/-- The first shot that waits for a bank: the earliest frozen start, the lower channel number at equal starts (R254). -/
def Dev.firstWaiting (d : Dev) (b : Nat) : Option Nat :=
  ((d.bankMembers b).filter (fun n => (d.chan n).deferWait)).foldl (fun best n =>
    match best with
    | none => some n
    | some m =>
      let s := (d.chan n).start
      let u := (d.chan m).start
      if s < u || (s = u && n < m) then some n else some m) none

/-- The phase-clock cycle of an instant (R253). -/
def phaseCycle (t : Nat) : Nat := t / 64

/-- Waiting shots take a free bank in order, each after the start checks; one whose end has come, or whose wait has exceeded
max_defer before this phase-clock cycle, is dropped (R253, R254, R258). -/
def Dev.bankNext : Nat → Dev → Nat → Dev
  | 0, d, _ => d
  | f + 1, d, b =>
    if (d.bank b).holder.isSome then d
    else
      match d.firstWaiting b with
      | none => d
      | some n =>
        let c := d.chan n
        if phaseCycle c.stop ≤ phaseCycle d.now || phaseCycle (c.waitFrom + c.deferMax * 1024) < phaseCycle d.now then
          Dev.bankNext f (d.overlapDrop n 32 false) b
        else
          let d := d.setObj (0x2700 + n) 0x08 (min 65535 ((d.now - c.waitFrom) / 1024))
          match d.startCheck n with
          | some k => Dev.bankNext f (d.checkDrop n k) b
          | none => Dev.bankNext f ((d.setChan n { c with deferWait := false }).takeBank n (d.edgeAt d.now) 0 true) b

/-- The holder leaves high phase (R254): its line pulses and the first waiting shot takes the bank. -/
def Dev.holderLeaves (d : Dev) (b : Nat) : Dev :=
  let k := d.bank b
  let d := (d.setBank b { k with holder := none, entering := none }).pulse (100 + b)
  (Dev.bankNext 8 d b).bankApply b

/-- Releases the bank if a channel holds it, else moves the high side to what is needed. -/
def Dev.releaseIf (d : Dev) (n : Nat) : Dev :=
  let b := d.bankOf n
  if (d.bank b).holder = some n then d.holderLeaves b else d.bankApply b

/-- The holder is displaced by a shot of higher priority (R253, R258): it goes at once to hold, at the present current. -/
def Dev.displace (d : Dev) (h cur : Nat) : Dev :=
  let b := d.bankOf h
  let d := (((d.chanOut h 128).inc (0x2700 + h) 0x0C).inc (0x2740 + b) 0x14).ovlCause b 2
  let d := if (d.chan h).railWait then d.beginRun h (d.edgeAt d.now) else d
  let d := d.enterPhase h 4 cur
  (d.setBank b { (d.bank b) with holder := none, entering := none }).pulse (100 + b)

/-- A shot contends for a bank that another member holds (R253). -/
def Dev.contend (d : Dev) (n h cur : Nat) : Dev :=
  let b := d.bankOf n
  let c := d.chan n
  let pol := d.obj (0x2740 + b) 0x09
  if pol = 2 then
    if (d.chan h).prio < c.prio then
      let d := (d.displace h cur).takeBank n c.start 0 true
      (Dev.bankNext 8 d b).bankApply b
    else d.overlapDrop n 64 true
  else if pol = 0 && decide (0 < d.obj (0x2740 + b) 0x0A) then
    let d := (((d.chanOut n 16).inc (0x2700 + n) 0x0A).inc (0x2740 + b) 0x12).ovlCause b 0
    ((d.setChan n { c with deferWait := true, waitFrom := c.start, deferMax := d.obj (0x2740 + b) 0x0A }).setObj (0x2700 + n) 0x03 1).bankStatus b
  else d.overlapDrop n 64 false

/-- A locked occurrence's start on its channel (R245, R253, R304), with the present current of the bank's holder. -/
def Dev.startOcc (d : Dev) (id cur : Nat) : Dev :=
  let o := d.occ id
  let n := o.cfg.channel
  if o.cut || d.cutNow o then (d.occDrop id 16).inc (0x2180 + o.dom) 0x3B
  else if d.stops.killLow || d.bit 0x28C8 0x01 7 || d.stops.linkDown || d.tapBlocks then d
  else
    let s := d.edgeAt (o.start.getD d.now)
    let c : Chan := { occ := some id, shot := o.rid, prof := o.shadow, diag := o.diag, prio := o.prio, start := s, stop := o.stop }
    let d := (((d.setChan n c).setObj (0x2700 + n) 0x04 0).setObj (0x2880 + n) 0x0A 0)
    match d.startCheck n with
    | some k => d.checkDrop n k
    | none =>
      match (d.bank (d.bankOf n)).holder with
      | some h => if h = n then d.takeBank n s 0 false else d.contend n h cur
      | none => d.takeBank n s 0 false

/-- The occurrence of a shot that is locked and due to start, the earliest first. -/
def Dev.dueStart (d : Dev) (s : Nat) : Option (Nat × Occ) :=
  (d.occs.filter (fun e => decide (e.2.rid = s) && e.2.st = .locked && decide (d.edgeAt (e.2.start.getD 0) ≤ d.now)
    && decide ((d.chan e.2.cfg.channel).occ ≠ some e.1))).foldl (fun best e =>
      match best with
      | none => some e
      | some b => if e.2.start.getD 0 < b.2.start.getD 0 then some e else some b) none

/-- The best member of an idle bank among those whose starts fall in one phase-clock cycle: the higher effective priority, then
the lower channel (R253). -/
def Dev.bestRival (d : Dev) (e : Nat × Occ) : Nat × Occ :=
  let b := d.bankOf e.2.cfg.channel
  let cycle := e.2.start.getD 0 / 64
  if (d.bank b).holder.isSome then e
  else (d.occs.filter (fun r => !isSheaf r.2.rid && r.2.st = .locked && decide (d.bankOf r.2.cfg.channel = b)
      && decide (r.2.start.getD 0 / 64 = cycle) && decide ((d.chan r.2.cfg.channel).occ ≠ some r.1))).foldl (fun best r =>
    if best.2.prio < r.2.prio || (best.2.prio = r.2.prio && r.2.cfg.channel < best.2.cfg.channel) then r else best) e

/-- SHOT_START (R245, R253, R304). -/
def Dev.shotStart (d : Dev) (s cur : Nat) : Dev :=
  match d.dueStart s with
  | none => d
  | some e =>
    if !d.runs 6 then d
    else
      let r := d.bestRival e
      if r.1 = e.1 then d.startOcc e.1 cur else (d.startOcc r.1 cur).startOcc e.1 cur

/-- The boost phase ends (R245): peak follows, or hold with t_peak = 0 (R246). -/
def Dev.boostEnd (d : Dev) (n cur : Nat) : Dev :=
  if (d.chan n).prof.getD 4 0 = 0 then (d.enterPhase n 4 cur).holderLeaves (d.bankOf n)
  else d.gotoPhase n 3 cur true

/-- BOOST_CURRENT_END (R245): the current has reached i_boost. -/
def Dev.boostCurrentEnd (d : Dev) (n : Nat) : Dev :=
  if d.runs (groupPd n) && d.phase n = 2 && (d.bank (d.bankOf n)).entering.isNone then d.boostEnd n ((d.chan n).upper 2) else d

/-- BOOST_TIME_END (R245): t_boost_max has elapsed at a current; one that has reached i_boost in that cycle ends the phase. -/
def Dev.boostTimeEnd (d : Dev) (n cur : Nat) : Dev :=
  let c := d.chan n
  if d.runs (groupPd n) && d.phase n = 2 && (d.bank (d.bankOf n)).entering.isNone
    && decide (c.phaseAt + c.prof.getD 1 0 * 1024 ≤ d.now) then (if c.upper 2 ≤ cur then d else d.chanOut n 256).boostEnd n cur
  else d

/-- PEAK_END (R246): t_peak has elapsed; the shot passes to hold and leaves high phase. -/
def Dev.peakEnd (d : Dev) (n cur : Nat) : Dev :=
  let c := d.chan n
  if d.runs (groupPd n) && d.phase n = 3 && decide (c.phaseAt + c.prof.getD 4 0 * 1024 ≤ d.now) then
    (d.enterPhase n 4 cur).releaseIf n
  else d

/-- REGULATION_UPPER (R249): the current reaches the upper threshold after blanking. -/
def Dev.regUpper (d : Dev) (n : Nat) : Dev :=
  let c := d.chan n
  if d.runs (groupPd n) && (d.phase n = 3 || d.phase n = 4) && c.low && decide (c.onAt + c.prof.getD 9 0 * 64 ≤ d.now) then
    (d.setChan n { c with low := false, offAt := d.now, limitedNow := false }).sawCurrent n (c.upper (d.phase n))
  else d

/-- A limited chop cycle (R250), and the chop limit (R303). -/
def Dev.chopLimited (d : Dev) (n : Nat) : Dev :=
  let c := d.chan n
  let c := { c with limited := c.limited + 1, limitedNow := true }
  let d := ((d.setChan n c).inc (0x2700 + n) 0x0D).chanOut n 512
  if c.limited = c.diag.getD 6 0 then
    let i := 0x2880 + n
    ((((d.setBit i 0x09 4 true).chanDiag n 16).setObj i 0x0B d.now).inc i 0x10).raiseIf (d.bit i 0x01 1) 48
  else d

/-- REGULATION_LOWER (R249, R250): the current is at or below the lower threshold. Before t_off_min has elapsed the cycle is
limited and the low side stays off; from then on it turns on. -/
def Dev.regLower (d : Dev) (n : Nat) : Dev :=
  let c := d.chan n
  if d.runs (groupPd n) && (d.phase n = 3 || d.phase n = 4) && !c.low then
    if c.offAt + c.prof.getD 8 0 * 64 ≤ d.now then d.setChan n { c with low := true, onAt := d.now, limitedNow := false }
    else if c.limitedNow then d else d.chopLimited n
  else d

/-- A running shot leaves its phases for decay: slow if the profile asks for it and no other member is active, else fast. -/
def Dev.toDecay (d : Dev) (n : Nat) (slow : Bool) : Dev :=
  let d := d.boostOver n
  let c := d.chan n
  let d := d.setChan n { c with phaseAt := d.now, low := slow, slow := slow, offAt := if slow then c.offAt else d.now }
  (d.setObj (0x2700 + n) 0x03 5).releaseIf n

/-- The programmed end of a running shot (R247, R248). -/
def Dev.endShot (d : Dev) (n : Nat) : Dev :=
  let c := d.chan n
  let b := d.bankOf n
  let others := (d.bankMembers b).any (fun m => m ≠ n && (d.chan m).started && d.phase m ≠ 5)
  let early := d.phase n ≠ 4
  let slowAsked := c.prof.getD 7 0 = 1
  let d := d.chanOut n ((if early then 2 else 0) + (if slowAsked && others then 1024 else 0))
  let d := match c.occ with
    | some id => d.occEnd id 2 (d.obj (0x2700 + n) 0x04)
    | none => d
  d.toDecay n (slowAsked && !others)

/-- The channel whose shot is an occurrence. -/
def Dev.chanOf (d : Dev) (id : Nat) : Option Nat := (d.chans.find? (fun e => decide (e.2.occ = some id))).map (·.1)

/-- A shot that waits on a channel meets its end, or its time to wait is over (R253, R305). -/
def Dev.waitEnds (d : Dev) (n : Nat) : Dev :=
  let c := d.chan n
  if c.deferWait then d.overlapDrop n 32 false
  else if c.railWait then
    let b := d.bankOf n
    (d.driveDrop n 0 1).holderLeaves b
  else d

/-- PROGRAMMED_END (R247): E of the earliest occurrence of a shot that is on its channel. -/
def Dev.programmedEnd (d : Dev) (s : Nat) : Dev :=
  match d.chans.find? (fun e => decide (e.2.shot = s) && e.2.occ.isSome && decide (d.edgeAt e.2.stop ≤ d.now)
      && decide (d.phase e.1 ≠ 5)) with
  | none => d
  | some (n, c) =>
    if !d.runs (groupPd n) then d else if c.started then d.endShot n else d.waitEnds n

/-- DECAY_END (R248): the current has fallen to i_zero. -/
def Dev.decayEnd (d : Dev) (n : Nat) : Dev := if d.runs (groupPd n) && d.phase n = 5 then d.chanIdle n else d

/-- DECAY_TIMEOUT (R248): t_decay_max has elapsed before the current reached i_zero. -/
def Dev.decayTimeout (d : Dev) (n : Nat) : Dev :=
  let c := d.chan n
  if d.runs (groupPd n) && d.phase n = 5 && decide (c.phaseAt + c.prof.getD 11 0 * 1024 ≤ d.now) then (d.chanOut n 2048).chanIdle n
  else d

/-- DEAD_TIME (R252): the switch that waited rises, and the shot that took the bank enters its phase at a current. -/
def Dev.deadTime (d : Dev) (b cur : Nat) : Dev :=
  let k := d.bank b
  match k.rise with
  | some (x, at_) =>
    if d.runs (if b < 8 then 7 else 8) && decide (at_ ≤ d.now) then
      let d := (d.setBank b { k with bhb := x, bhs := !x, rise := none, rose := d.now }).capBankChange b
      let d := match k.entering with
        | some (n, ph) =>
          let d := d.enterPhase n ph cur
          d.setBank b { (d.bank b) with entering := none }
        | none => d
      d.slowToFast b
    else d
  | none => d

/-- The holder of a bank leaves high phase in this phase-clock cycle, as far as a programmed end, the end of its peak, of its boost
with no peak to follow or of its wait for the rail decides it (R258). -/
def Dev.leavesNow (d : Dev) (b : Nat) : Bool :=
  match (d.bank b).holder with
  | none => false
  | some h =>
    let c := d.chan h
    let p := fun i => c.prof.getD i 0 * 1024
    let now := fun (t : Nat) => decide (phaseCycle t = phaseCycle d.now)
    now c.stop || (d.phase h = 3 && now (c.phaseAt + p 4)) || (d.phase h = 2 && p 4 = 0 && now (c.phaseAt + p 1))
      || (c.railWait && now (c.waitFrom + p 13))

/-- MAX_DEFER (R253): a deferred shot's wait reaches max_defer. Where the holder leaves in the same phase-clock cycle the shot is not
dropped, and takes the bank then (R258). -/
def Dev.maxDefer (d : Dev) (n : Nat) : Dev :=
  let c := d.chan n
  if d.runs (groupPd n) && c.deferWait && decide (c.waitFrom + c.deferMax * 1024 ≤ d.now) && !d.leavesNow (d.bankOf n) then
    d.overlapDrop n 32 false
  else d

/-- T_READY_MAX (R305): a shot has waited t_ready_max for a ready rail. -/
def Dev.tReadyMax (d : Dev) (n : Nat) : Dev :=
  let c := d.chan n
  if d.runs (groupPd n) && c.railWait && decide (c.waitFrom + c.prof.getD 13 0 * 1024 ≤ d.now) then d.waitEnds n else d

/-- The rail of a boost controller has become ready: shots waiting for it under WAIT begin boost (R305), unless a start check now
holds that bars the gate (R298, R304). -/
def Dev.railServes (d : Dev) (x : Nat) : Dev :=
  (List.range 48).foldl (fun d n =>
    if (d.chan n).railWait && d.railOf (d.bankOf n) = x then
      match d.startCheck n with
      | some k => (d.checkDrop n k).holderLeaves (d.bankOf n)
      | none => (d.beginRun n (d.edgeAt d.now)).gotoPhase n 2 0 true
    else d) d

/-- A shot on a channel is ended at once in fast decay, or dropped if it has not started, with bits of its outcome word. -/
def Dev.cutChan (d : Dev) (n mask : Nat) : Dev :=
  let c := d.chan n
  match c.occ with
  | none => d
  | some id =>
    if d.phase n = 5 then (if c.slow then d.setChan n { c with slow := false, low := false, offAt := d.now } else d)
    else if c.started then (d.occEnd id mask (d.obj (0x2700 + n) 0x04)).toDecay n false
    else
      let b := d.bankOf n
      let held := (d.bank b).holder = some n
      let d := ((d.setChan n {}).setObj (0x2700 + n) 0x03 0).bankStatus b
      let d := d.occDrop id mask
      if held then d.holderLeaves b else d

/-- Zeroes :09 to :0D of a channel (R269). -/
def Dev.channelClear (d : Dev) (n : Nat) : Dev := d.zero (0x2700 + n) 0x09 0x0D

/-- Zeroes :12 to :14 of a bank (R270). -/
def Dev.bankClear (d : Dev) (b : Nat) : Dev := d.zero (0x2740 + b) 0x12 0x14

/-- Recomputes the bank of every channel and the banks of every rail from the bank map (R238, R269, R271). -/
def Dev.mapBanks (d : Dev) : Dev :=
  let d := (List.range 48).foldl (fun d n =>
    d.setObj (0x2700 + n) 0x02 (((List.range 16).find? (fun b => (d.bankMembers b).contains n)).getD 0xFF)) d
  (List.range 2).foldl (fun d x => d.setObj (0x2780 + x) 0x10 (wordOf 16 (fun b => d.railOf b = x))) d

end Sys2Proof.Machine
end

