-- ==== Sys2Proof/Machine/Sched.lean ====
section
/-! DEFINITION. The scheduler (chapter 06): arming (R218, R219), the late test (R220 to R222), the lock point (R215, R216, R229),
the application of writes (R223, R224), cancels (R227), the reactions to a change of state, a disarm and a veto (R76, R230, R299). -/

namespace Sys2Proof.Machine

/-! ### Permission to arm -/

/-- slot_flags of a slot in a domain (R237). -/
def Dev.slotFlag (d : Dev) (dom k b : Nat) : Bool := d.bit (0x2180 + dom) (0x58 + k) b

/-- A domain permits occurrences at all: armed, not blocked by reverse rotation, the scheduler's domain on (R219). -/
def Dev.domPermits (d : Dev) (dom : Nat) : Bool := d.pdOn 6 && d.armed dom && !d.bit (0x2180 + dom) 0x11 8

/-- The state of a domain permits a top-level record of a slot, given its kind and no_limp (R219). -/
def Dev.statePermits (d : Dev) (dom slot kind : Nat) (noLimp : Bool) : Bool :=
  kind = 3 || (match d.domState dom with
    | 2 => d.slotFlag dom slot 0
    | 3 => true
    | 4 => d.slotFlag dom slot 1 && !noLimp
    | _ => false)

/-- A top-level record is able to run (R204, R218, R219). -/
def Dev.able (d : Dev) (dom rid : Nat) : Bool :=
  let c := d.recCfg rid
  c.enable && d.domPermits dom && (match parentSlot c.parent with
    | some k => d.slotDom k == some dom && d.statePermits dom k c.kind (c.flags.testBit 1)
    | none => false)

/-! ### Trees -/

/-- The records below a level of a tree, with a function that gives each record's configuration. -/
def descend (cf : Nat → RecCfg) (cands : List Nat) : Nat → List Nat → List Nat
  | 0, _ => []
  | f + 1, level =>
    let next := cands.filter (fun r => match parentSheaf (cf r).parent with | some p => level.contains p | none => false)
    if next.isEmpty then [] else next ++ descend cf cands f next

/-- The record and its ancestor sheaves are enabled and, in limp, none of them carries no_limp (R204, R219). -/
def chainRuns (cf : Nat → RecCfg) (limp : Bool) : Nat → Nat → Bool
  | 0, _ => false
  | f + 1, r =>
    let c := cf r
    c.enable && !(limp && c.flags.testBit 1) && (match parentSheaf c.parent with | some p => chainRuns cf limp f p | none => true)

/-- The occurrences of a tree to be armed, without numbers, with the records that may be in it. -/
def Dev.treeBuild (d : Dev) (cf : Nat → RecCfg) (cands : List Nat) (proto : Occ) : List Occ :=
  let limp := decide (d.domState proto.dom = 4) && decide ((cf proto.rid).kind ≠ 3)
  (proto.rid :: descend cf cands walkDepth [proto.rid]).map (fun r =>
    let g := !chainRuns cf limp walkDepth r
    { proto with rid := r, ghost := g, st := if g then .done else .armed, cfg := cf r, dur := d.elecDur (cf r) })

/-- Gives numbers to the occurrences of a new tree and adds them. -/
def Dev.addTree (d : Dev) (os : List Occ) : Dev :=
  let t := d.nextOcc
  let rows := ((List.range os.length).zip os).map (fun e => (t + e.1, { e.2 with tree := t }))
  { d with occs := d.occs ++ rows, nextOcc := t + os.length }

/-- Arms occurrence `c` of a top-level record (R218, R219): under crank_fire twice, one revolution apart. -/
def Dev.armTree (d : Dev) (dom rid c : Nat) : Dev :=
  let cfg := d.recCfg rid
  let slot := (parentSlot cfg.parent).getD 0
  let fire := decide (d.domState dom = 2) && decide (cfg.kind ≠ 3)
  let proto : Occ := { rid := rid, dom := dom, slot := slot, cyc := c % 256, crankFire := fire
                       tdc := d.obj (0x2180 + dom) (0x40 + slot) }
  let t := d.nextOcc
  let d := d.addTree (d.treeBuild d.recCfg d.rooted proto)
  let u := d.nextOcc
  let d := if fire then d.addTree (d.treeBuild d.recCfg d.rooted { proto with half := true }) else d
  let d := (d.setTopRec rid { (d.topRec rid) with armed := some (c % 256) }).treeRefs t
  if fire then d.treeRefs u else d

/-- The top-level records of a domain. -/
def Dev.topRecs (d : Dev) (dom : Nat) : List Nat :=
  d.enabled.filter (fun r => match parentSlot (d.obj (recIx r) 0x02) with | some k => d.slotDom k == some dom | none => false)

/-- First occurrences (R218): each top-level record that has become able to run is armed for the present cycle count; one that
is not able will be armed afresh. -/
def Dev.schedArm (d : Dev) (dom : Nat) : Dev :=
  (d.topRecs dom).foldl (fun d r =>
    let tr := d.topRec r
    if !d.able dom r then d.setTopRec r { tr with armed := none }
    else if tr.armed.isSome then d
    else d.armTree dom r (if d.obj (recIx r) (if isSheaf r then 0x03 else 0x08) = 3 then 0 else d.estAt dom d.now / auCycle)) d

/-! ### The late test and the lock point -/

/-- lock_lead of a domain. -/
def Dev.lockLead (d : Dev) (dom : Nat) : Nat := d.obj (0x2180 + dom) 0x31

/-- Windows of two shots, each from start to end plus 20 us, overlap (R228, R229). -/
def windowsMeet (s1 e1 s2 e2 : Nat) : Bool := decide (s1 < e2 + 204800) && decide (s2 < e1 + 204800)

/-- A locked or running occurrence on the channel whose window meets another's (R229). -/
def Dev.conflicts (d : Dev) (id : Nat) (o : Occ) : Bool :=
  d.occs.any (fun e => e.1 ≠ id && !isSheaf e.2.rid && (e.2.st = .locked || e.2.st = .running)
    && decide (e.2.cfg.channel = o.cfg.channel) && windowsMeet (o.start.getD 0) o.stop (e.2.start.getD 0) e.2.stop)

/-- Copies of the diagnostic thresholds of a channel and its bank (R303): latch_open, open_thresh, t_open, i_short, vds_limit,
t_desat, chop_limit, t_sg, leak_thresh. -/
def Dev.diagCopy (d : Dev) (n : Nat) : List Nat :=
  (List.range 7).map (fun i => d.obj (0x2880 + n) (0x02 + i)) ++ (List.range 2).map (fun i => d.obj (0x28B0 + d.bankOf n) (0x01 + i))

/-- The lock point of an occurrence (R216, R229): what it carries is frozen; a conflict drops it; else it is handed to the drive
and to lane allocation. -/
def Dev.lockOcc (d : Dev) (id : Nat) (stale : Bool) : Dev :=
  let o := d.occ id
  let s := if stale then o.prev.getD (o.start.getD 0) else o.start.getD 0
  let dur := if o.cfg.durMode = 1 then d.elecDur o.cfg else o.dur
  let o := { o with start := some s, dur := dur, stop := s + dur, frozen := true, prio := d.prioOf o, cut := d.cutNow o
                    shadow := (List.range 15).map (fun i => d.obj (0x2600 + o.cfg.profile) (0x01 + i))
                    diag := d.diagCopy o.cfg.channel }
  let d := (d.setOcc id o).setObj (recIx o.rid) 0x17 dur
  let i := 0x2180 + o.dom
  let d := if stale then ((d.occFlag id 512).inc i 0x3C).raiseIf (d.bit i 0x33 4) (24 + o.dom) else d
  if d.conflicts id o then ((d.occDrop id 128).inc i 0x38).raiseIf (d.bit i 0x33 1) (18 + o.dom)
  else
    let d := d.windowCut id o.cfg.channel s
    let (d, o) := d.laneAlloc id { (d.occ id) with st := .locked }
    d.setOcc id o

/-- A late occurrence (R221, R231): vetoed if its scope is cut, given a late start, or dropped. -/
def Dev.lateOcc (d : Dev) (id : Nat) : Dev :=
  let o := d.occ id
  let i := 0x2180 + o.dom
  if d.cutNow o then (d.occDrop id 16).inc i 0x3B
  else
    let late := d.now + 20480 - o.start.getD 0
    if d.latePolicy o = 2 && decide (late ≤ d.lateTol o) then
      let s := d.now + d.openNat (600 + id) % 20481
      let d := d.setOcc id { o with start := some s, prev := some s, moved := some s, stop := s + o.dur }
      ((d.occFlag id 8).inc i 0x37).raiseIf (d.bit i 0x33 0) (16 + o.dom)
    else ((d.occDrop id 4).inc i 0x36).raiseIf (d.bit i 0x33 0) (16 + o.dom)

/-- A shot's occurrence that a late test may still decide. -/
def Occ.undecided (o : Occ) : Bool := o.st = .armed && !o.ghost && !isSheaf o.rid && o.moved.isNone

/-- The late test of an armed shot at arming, at a recomputation or at the application of a write (R220): its start is
resolved; it may be late. A start resolved `again` at the same instant replaces the first. -/
def Dev.testOcc (d : Dev) (id : Nat) (again : Bool) : Dev :=
  let o := d.occ id
  if !o.undecided then d
  else
    let o := { o with dur := d.elecDur o.cfg, prev := if again then o.prev else o.start }
    match d.resolveOcc o .start with
    | none => d.setOcc id { o with start := none }
    | some s =>
      let d := d.setOcc id { o with start := some s, stop := s + o.dur }
      if s < d.now + 20480 then d.lateOcc id else d

/-- The late tests of one instant: what is decided for one shot, a late start or a drop, moves the siblings that resolve against
it, which are then resolved again (R211). -/
def Dev.testPass : Nat → Bool → Dev → List Nat → Dev
  | 0, _, d, _ => d
  | f + 1, again, d, ids =>
    let d := ids.foldl (fun d id => d.testOcc id again) d
    let left := ids.filter (fun id => (d.occ id).undecided)
    if left.length = ids.length then d else Dev.testPass f true d left

/-- An armed shot whose start falls within lock_lead locks at once (R222). -/
def Dev.lockDue (d : Dev) (id : Nat) : Dev :=
  let o := d.occ id
  match o.start with
  | some s => if o.st = .armed && !o.ghost && decide (s ≤ d.now + d.lockLead o.dom) then d.lockOcc id false else d
  | none => d

/-- Inserts an occurrence into a list in order of start, those with none last. -/
def insertByStart (e : Nat × Option Nat) : List (Nat × Option Nat) → List (Nat × Option Nat)
  | [] => [e]
  | x :: l =>
    let before := match e.2, x.2 with | some a, some b => decide (a < b) | some _, none => true | none, _ => false
    if before then e :: x :: l else x :: insertByStart e l

/-- Tests the armed shots that satisfy a condition, in order of predicted start (R214). Those that lock at once lock at one
instant, in the order of their numbers (R222, R229). -/
def Dev.testWhere (d : Dev) (p : Occ → Bool) : Dev :=
  let es := d.occs.filter (fun e => e.2.st = .armed && !e.2.ghost && !isSheaf e.2.rid && p e.2)
  let ids := es.foldl (fun l e => insertByStart (e.1, d.resolveOcc e.2 .start) l) []
  let byRid := es.foldl (fun l e => insertByStart (e.1, some e.2.rid) l) []
  byRid.foldl (fun d e => d.lockDue e.1) (Dev.testPass (ids.length + 1) false d (ids.map (·.1)))

/-- The scheduler after a snap of a domain (R214, R218): next occurrences are armed, unlocked ones recomputed and tested. -/
def Dev.schedSnap (d : Dev) (dom : Nat) : Dev :=
  let d := (d.topRecs dom).foldl (fun d r =>
    match (d.topRec r).armed with
    | none => d
    | some c =>
      let cfg := d.recCfg r
      let slot := (parentSlot cfg.parent).getD 0
      let o : Occ := { rid := r, cyc := c, cfg := cfg, tdc := d.obj (0x2180 + dom) (0x40 + slot) }
      match resAngle 1 [] o with
      | none => d
      | some a => if d.able dom r && decide (0 < angleDiff (d.estAt dom d.now) a) then d.armTree dom r (c + 1) else d) d
  (d.schedArm dom).testWhere (fun o => decide (o.dom = dom))

/-- First occurrences are armed and tested (R218, R220). -/
def Dev.schedStart (d : Dev) (dom : Nat) : Dev := (d.schedArm dom).testWhere (fun o => decide (o.dom = dom) && o.start.isNone)

/-- The instant of an armed occurrence's lock point, if it is known. -/
def Dev.lockAt (d : Dev) (o : Occ) (stale : Bool) : Option Nat :=
  ((if stale then o.prev else o.start)).map (· - d.lockLead o.dom)

/-- LOCK_POINT (R215, R216): the earliest armed occurrence of a shot that is due locks; occurrences of lower shot numbers that
lock at the same instant lock before it (R229, R280). -/
def Dev.lockPoint (d : Dev) (s : Nat) (stale : Bool) : Dev :=
  let due := (d.occs.filter (fun e => decide (e.2.rid = s) && e.2.st = .armed && !e.2.ghost)).filterMap (fun e =>
    match d.lockAt e.2 stale with
    | some l => if l ≤ d.now then some (e.1, l) else none
    | none => none)
  if !d.runs 6 then d
  else
    match due with
    | [] => d
    | x :: xs =>
      let (id, at_) := xs.foldl (fun b e => if e.2 < b.2 then e else b) x
      let lower := (d.occs.filter (fun e => e.2.st = .armed && !e.2.ghost && decide (e.2.rid < s)
        && decide (d.lockAt e.2 false = some at_))).map (fun e => (e.1, some e.2.rid))
      let order := lower.foldl (fun l e => insertByStart e l) []
      (order.foldl (fun d e => d.lockOcc e.1 false) d).lockOcc id stale

/-! ### Cancels and stops -/

/-- An occurrence that has not started is cancelled, wherever it stands; a running one is ended in fast decay. -/
def Dev.stopOcc (d : Dev) (id mask : Nat) : Dev :=
  match d.chanOf id with
  | some n => d.cutChan n mask
  | none => d.occDrop id mask

/-- Stops shot occurrences at one instant with bits of the outcome word, counting each in a counter of its domain, if one is
named: first those that no channel holds yet, so that none of them follows another or starts on a bank that is let go; then those
that wait for a bank, those that wait for its rail, and those that have started. -/
def Dev.stopAll (d : Dev) (ids : List Nat) (mask : Nat) (cnt : Option Nat) : Dev :=
  let note := fun (d : Dev) (dom : Nat) => cnt.elim d (fun c => d.inc (0x2180 + dom) c)
  let stop := fun (d : Dev) (id : Nat) =>
    let o := d.occ id
    if o.st = .done then d else note (d.stopOcc id mask) o.dom
  let ids := ids.filter (fun id => (d.occ id).st ≠ .done)
  let loose := ids.filter (fun id => (d.chanOf id).isNone && !(d.occ id).started)
  let held := ids.filter (fun id => (d.chanOf id).isSome && !(d.occ id).started)
  let defers := fun (id : Nat) => (d.chanOf id).elim false (fun n => (d.chan n).deferWait)
  let ts := (loose.map (fun id => (d.occ id).tree)).dedup
  let d := loose.foldl (fun d id => note (d.occGone id mask) (d.occ id).dom) d
  let d := ts.foldl (fun d t => d.treeRefs t) d
  let d := (held.filter defers ++ held.filter (fun id => !defers id)).foldl stop d
  (ids.filter (fun id => (d.occ id).started)).foldl stop d

/-- Stops the shot occurrences that satisfy a condition (R230, R299, R76). -/
def Dev.stopWhere (d : Dev) (p : Occ → Bool) (mask cnt : Nat) : Dev :=
  d.stopAll ((d.occs.filter (fun e => !isSheaf e.2.rid && !e.2.ghost && e.2.st ≠ .done && p e.2)).map (·.1)) mask (some cnt)

/-- Source 20 + d, for occurrences cancelled by a change of state (R232). -/
def Dev.stateSource (d : Dev) (dom : Nat) (any : Bool) : Dev := d.raiseIf (any && d.bit (0x2180 + dom) 0x33 2) (20 + dom)

/-- Some shot occurrence satisfies a condition. -/
def Dev.anyOcc (d : Dev) (p : Occ → Bool) : Bool :=
  d.occs.any (fun e => !isSheaf e.2.rid && !e.2.ghost && e.2.st ≠ .done && p e.2)

/-- Cancels by a change of state with cancelled_state (R230). -/
def Dev.stateCancel (d : Dev) (dom : Nat) (p : Occ → Bool) : Dev :=
  let q := fun (o : Occ) => decide (o.dom = dom) && p o
  (d.stopWhere q 32 0x3A).stateSource dom (d.anyOcc q)

/-- The top-level records of a domain will be armed afresh; a time-rooted one whose occurrence still stands has no other. -/
def Dev.forgetArmed (d : Dev) (dom : Nat) : Dev :=
  (d.topRecs dom).foldl (fun d r =>
    if (d.recCfg r).kind = 3 && !(d.present r).isEmpty then d else d.setTopRec r { (d.topRec r) with armed := none }) d

/-- No shot of a tree has been locked, dropped or cancelled. -/
def treeFresh (os : List (Nat × Occ)) : Bool := os.all (fun e => isSheaf e.2.rid || e.2.ghost || e.2.st = .armed)

/-- The second firing of an occurrence is discarded whole: the occurrence has reached its outcome with the first, if that has
begun to (R205). -/
def Dev.halfGone (d : Dev) (t : Nat) : Dev :=
  let o := d.occ t
  match d.occs.find? (fun e => e.1 = e.2.tree && e.1 ≠ t && e.2.rid = o.rid && e.2.dom = o.dom && e.2.cyc = o.cyc && e.2.crankFire) with
  | none => d.countOutcome t
  | some (u, first) =>
    if treeFresh (d.treeOf u) then d else if first.counted then d.countOutcome u else d.setOcc u { first with crankFire := false }

/-- Occurrences armed under crank_fire are discarded with no outcome (R230); what of them has been locked stays and is counted. -/
def Dev.discardFire (d : Dev) (dom : Nat) : Dev :=
  let hit := fun (o : Occ) => decide (o.dom = dom) && o.crankFire
  let ts := ((d.occs.filter (fun e => e.1 = e.2.tree && hit e.2)).map (·.1))
  let whole := ts.filter (fun t => treeFresh (d.treeOf t))
  let d := (whole.filter (fun t => (d.occ t).half)).foldl (fun d t => d.halfGone t) d
  let d := { d with occs := d.occs.filter (fun e => !(whole.contains e.2.tree
    || (ts.contains e.2.tree && !isSheaf e.2.rid && (e.2.ghost || e.2.st = .armed)))) }
  (ts.filter (fun t => !whole.contains t)).foldl (fun d t => (d.treeEnds t).treeCheck t) d

/-- Occurrences whose lock point falls now are locked before a change of state is taken, in the order of their numbers (R231). -/
def Dev.lockNow (d : Dev) (dom : Nat) : Dev :=
  if !d.runs 6 then d
  else
    let es := d.occs.filter (fun e => decide (e.2.dom = dom) && e.2.undecided && (match d.lockAt e.2 false with
      | some l => decide (l ≤ d.now)
      | none => false))
    (es.foldl (fun l e => insertByStart (e.1, some e.2.rid) l) []).foldl (fun d e => d.lockDue e.1) d

/-- The scheduler's part of a change of domain state (R230, R231). -/
def Dev.schedState (d : Dev) (dom old new : Nat) : Dev :=
  let d := d.lockNow dom
  if new = 0 then ((d.stateCancel dom (fun o => o.st = .armed || o.st = .locked)).forgetArmed dom).schedStart dom
  else if new = 5 then ((d.stateCancel dom (fun o => o.st = .armed)).forgetArmed dom).schedStart dom
  else if new = 4 then
    let d := d.stateCancel dom (fun o => o.st = .armed && o.cfg.kind ≠ 3
      && !((d.able dom ((d.occ o.tree).rid)) && chainRuns (fun r => (occIn (d.treeOf o.tree) r).elim {} (·.cfg)) true walkDepth o.rid))
    (d.schedArm dom).testWhere (fun o => decide (o.dom = dom))
  else if old = 2 && new = 3 then ((d.discardFire dom).forgetArmed dom).schedStart dom
  else d.schedStart dom

/-- Reverse rotation (R156, R230): unstarted shots are cancelled, running ones end at once in fast decay. -/
def Dev.schedReverse (d : Dev) (dom : Nat) : Dev :=
  (((d.lockNow dom).stateCancel dom (fun _ => true)).capStop (fun k _ => k = dom)).forgetArmed dom

/-- The occurrences' part of a disarm (R299): with `veto`, by global_disarm. -/
def Dev.disarmOccs (d : Dev) (doms : List Nat) (veto : Bool) : Dev :=
  let q := fun (o : Occ) => doms.contains o.dom
  let any := doms.filter (fun k => d.anyOcc (fun o => decide (o.dom = k)))
  let d := if veto then d.stopWhere q 16 0x3B else any.foldl (fun d k => d.stateSource k true) (d.stopWhere q 32 0x3A)
  doms.foldl (fun d k => d.forgetArmed k) (d.capStop (fun k _ => doms.contains k))

/-- The occurrences of a newly vetoed scope (R76): unstarted ones cancelled, running ones ended in fast decay, both vetoed. -/
def Dev.vetoScope (d : Dev) (doms slots : Nat) : Dev :=
  (d.stopWhere (fun o => doms.testBit o.dom || slots.testBit o.slot) 16 0x3B).capStop (fun k s => doms.testBit k || slots.testBit s)

/-- The start edge of a locked occurrence has been released: 180 ns before its start (R109, R226). -/
def Dev.released (d : Dev) (o : Occ) : Bool := o.frozen && decide (10 * o.start.getD 0 ≤ 10 * d.now + 18432)

/-- Cancels shot occurrences by command (R227): those whose start edge has not been released. -/
def Dev.cancelOccs (d : Dev) (es : List (Nat × Occ)) : Dev :=
  d.stopAll ((es.filter (fun e => !(e.2.st = .running || d.released e.2))).map (·.1)) 64 none

/-- Cancels the present occurrence of a shot (R227), under crank_fire both its firings. -/
def Dev.cancelShot (d : Dev) (s : Nat) : Dev :=
  match d.present s with
  | [] => d
  | e :: l => d.cancelOccs (e :: l.filter (fun x => x.2.cyc = e.2.cyc && x.2.dom = e.2.dom))

/-- Cancels the present occurrence of a sheaf (R28, R227): the earliest in which a shot of it remains, whole. -/
def Dev.cancelSheaf (d : Dev) (h : Nat) : Dev :=
  let left := fun (t : Nat) => (shotsUnder (d.treeOf t) h).filter (fun e => e.2.st ≠ .done)
  let ts := ((d.occs.filter (fun e => e.2.rid = h)).map (fun e => e.2.tree)).filter (fun t => !(left t).isEmpty)
  match ts with
  | [] => d
  | t :: l =>
    let o := d.occ t
    d.cancelOccs ((t :: l.filter (fun u => (d.occ u).rid = o.rid && (d.occ u).cyc = o.cyc && (d.occ u).dom = o.dom)).flatMap left)

/-- Removes the armed occurrences of a record that is disabled, with what is below it. -/
def Dev.dropDisabled (d : Dev) (rid : Nat) : Dev :=
  let hit := fun (e : Nat × Occ) => e.2.rid = rid || ((occAncestors walkDepth (d.treeOf e.2.tree) e.2).map (·.2.rid)).contains rid
  let ts := ((d.occs.filter hit).map (fun e => e.2.tree)).dedup
  let d := { d with occs := d.occs.map (fun e => if hit e && e.2.st = .armed then (e.1, { e.2 with ghost := true, st := .done }) else e) }
  ts.foldl (fun d t => d.treeRefs t) d

/-- Cancels a record (R227): a shot's present occurrence, or that of every member of a sheaf. -/
def Dev.cancelRec (d : Dev) (rid : Nat) : Dev := if isSheaf rid then d.cancelSheaf rid else d.cancelShot rid

/-- Cancels a record and disables it (R227). -/
def Dev.cancelDisable (d : Dev) (rid : Nat) : Dev :=
  let d := (d.cancelRec rid).setObj (recIx rid) 0x01 0
  d.dropDisabled rid

/-- Cancels every record of a domain (R227), each sheaf as a whole. -/
def Dev.cancelAll (d : Dev) (dom : Nat) : Dev :=
  let rs := d.rooted.filter (fun r => (parentSlot (d.obj (recIx r) 0x02)).isSome && d.recDom r == some dom)
  rs.foldl (fun d r => d.cancelRec r) d

/-- Zeroes :35 to :3D of a domain object (R237). -/
def Dev.schedClear (d : Dev) (dom : Nat) : Dev := d.zero (0x2180 + dom) 0x35 0x3D

/-! ### Application of writes -/

/-- The trees that stand, as (number, top-level record). -/
def Dev.trees (d : Dev) : List (Nat × Nat) := (d.occs.filter (fun e => decide (e.1 = e.2.tree))).map (fun e => (e.1, e.2.rid))

/-- The place of a tree's occurrence among those of its top-level record: 0 for the present one. The two firings under crank_fire
are one occurrence. -/
def Dev.treeRank (d : Dev) (t : Nat × Nat) : Nat :=
  let o := d.occ t.1
  (((d.trees.filter (fun u => u.2 = t.2 && u.1 < t.1)).map (fun u => ((d.occ u.1).dom, (d.occ u.1).cyc))).filter
    (fun c => c ≠ (o.dom, o.cyc))).dedup.length

/-- A tree rebuilt with a write in it (R224): records the write names take its configuration, others keep what the tree carries
or, if they come with a record that the write moves into it, what their objects hold. What an occurrence has been through stays.
A top-level record that has left its slot for one of the same domain takes the tree along; one that is unrooted, a member
elsewhere or in another domain has no such tree any more (R202). -/
def Dev.rebuild (d : Dev) (w : PendWrite) (t : Nat) : List Occ :=
  let os := d.treeOf t
  let cf := fun r => match w.recs.find? (fun e => e.1 = r) with
    | some e => e.2
    | none => match occIn os r with | some o => o.cfg | none => d.recCfg r
  let top := d.occ t
  match parentSlot (cf top.rid).parent with
  | none => []
  | some k =>
    if k ≠ top.slot && !(d.slotDom k == some top.dom) then []
    else
      let tdc := if k = top.slot then top.tdc else d.obj (0x2180 + top.dom) (0x40 + k)
      let proto : Occ := { rid := top.rid, tree := t, dom := top.dom, slot := k, cyc := top.cyc, half := top.half
                           crankFire := top.crankFire, counted := top.counted
                           tdc := (w.slots.find? (fun e => e.1 = k)).elim tdc (·.2) }
      let named := w.recs.map (·.1)
      let cands := (os.map (·.2.rid) ++ named ++ descend d.recCfg d.rooted walkDepth named).dedup
      (d.treeBuild cf cands proto).map (fun o =>
        match occIn os o.rid with
        | some was =>
          if was.ghost || was.st = .armed then { o with start := was.start, flags := was.flags, begun := was.begun, ended := was.ended }
          else { was with cfg := if was.frozen then was.cfg else o.cfg, slot := o.slot, tdc := o.tdc }
        | none => o)

/-- The part of a shot's occurrence that a write can change: its start, duration, channel, profile, and whether it runs. -/
def Dev.occFace (d : Dev) (os : List (Nat × Occ)) (o : Occ) (cfg : RecCfg) : Option Nat × Nat × Nat × Nat × Bool :=
  (resolve resFuel os (d.conv o.dom) .start { o with frozen := false, cfg := cfg }, d.elecDur cfg, cfg.channel, cfg.profile, o.ghost)

/-- A write changes a tree in a part that is no longer unlocked (R224): a shot in the affected set has been locked, or its lock
point falls now. -/
def Dev.writeBlocked (d : Dev) (w : PendWrite) (t : Nat) : Bool :=
  let os := d.treeOf t
  let new := ((List.range 4096).zip (d.rebuild w t))
  os.any (fun e =>
    let o := e.2
    let locked := o.frozen || (o.st = .armed && (match o.start with | some s => decide (s ≤ d.now + d.lockLead o.dom) | none => false))
    !isSheaf o.rid && !o.ghost && locked && (match new.find? (fun n => n.2.rid = o.rid) with
      | none => true
      | some n =>
        let cfg := (w.recs.find? (fun r => r.1 = o.rid)).elim o.cfg (·.2)
        let thaw := new.map (fun x => (x.1, { x.2 with frozen := false }))
        d.occFace (os.map (fun x => (x.1, { x.2 with frozen := false }))) o o.cfg ≠ d.occFace thaw n.2 cfg))

/-- A tree takes a write. -/
def Dev.applyTree (d : Dev) (w : PendWrite) (t : Nat) : Dev :=
  let new := d.rebuild w t
  let old := d.treeOf t
  let keep := (new.filter (fun o => (occIn old o.rid).isSome)).filterMap (fun o =>
    (old.find? (fun e => decide (e.2.rid = o.rid))).map (fun e => (e.1, o)))
  let fresh := new.filter (fun o => (occIn old o.rid).isNone)
  let gone := (old.filter (fun e => !(new.any (fun o => decide (o.rid = e.2.rid))))).map (·.1)
  let d := gone.foldl (fun d id => d.laneRelease id) d
  let d := { d with occs := d.occs.filter (fun e => !gone.contains e.1) }
  let d := keep.foldl (fun d e => d.setOcc e.1 e.2) d
  let n := d.nextOcc
  let d := { d with occs := d.occs ++ ((List.range fresh.length).zip fresh).map (fun (e : Nat × Occ) => (n + e.1, e.2)), nextOcc := n + fresh.length }
  d.treeRefs t

/-- A write that could not be applied to present occurrences is counted and its records name the first cycle that carries it. -/
def Dev.writeDefer (d : Dev) (w : PendWrite) (dom from_ : Nat) : Dev :=
  let d := (d.inc (0x2180 + dom) 0x39).raiseIf (d.bit (0x2180 + dom) 0x33 3) (22 + dom)
  w.recs.foldl (fun d e => d.setObj (recIx e.1) (if isSheaf e.1 then 0x15 else 0x18) (from_ % 256)) d

/-- Whether a tree holds or takes in a record or a slot that a write names. -/
def Dev.touches (d : Dev) (w : PendWrite) (t : Nat) : Bool :=
  (d.treeOf t).any (fun e => w.recs.any (fun r => r.1 = e.2.rid))
    || (d.rebuild w t).any (fun o => w.recs.any (fun r => r.1 = o.rid))
    || w.slots.any (fun s => s.1 = (d.occ t).slot)

/-- WRITE_APPLICATION (R223, R224): the oldest accepted write is applied to the trees it touches, rank by rank: where one
occurrence of its affected set is no longer unlocked the whole write waits for the next occurrence. -/
def Dev.writeApply (d : Dev) : Dev :=
  match d.pendW with
  | [] => d
  | w :: rest =>
    if !d.runs 6 then d
    else
      let d := { d with pendW := rest }
      let ts := d.trees
      let hit := ts.filter (fun t => d.touches w t.1)
      let blockedAt := fun r => (hit.filter (fun t => d.treeRank t = r && d.writeBlocked w t.1))
      let deferred := (List.range 4).filter (fun r => !(blockedAt r).isEmpty)
      let free := hit.filter (fun t => !deferred.contains (d.treeRank t))
      let d' := match deferred.flatMap blockedAt with
        | [] => d
        | t :: _ =>
          let carries := match free.find? (fun (u : Nat × Nat) => u.2 = t.2) with
            | some u => (d.occ u.1).cyc
            | none => ((d.topRec t.2).armed.getD 0) + 1
          d.writeDefer w (d.occ t.1).dom carries
      let d' := (hit.filter (fun t => (d.rebuild w t.1).isEmpty)).foldl (fun d t =>
        d.setTopRec t.2 { (d.topRec t.2) with armed := none }) d'
      let d' := free.foldl (fun d t => d.applyTree w t.1) d'
      let d' := (d'.schedArm 0).schedArm 1
      d'.testWhere (fun o => free.any (fun t => t.1 = o.tree) || o.start.isNone)

/-- A reset of PD6 (R234): every occurrence ends without outcome. -/
def Dev.schedReset (d : Dev) : Dev :=
  let d := { d with occs := [], tops := [], pendW := [], chans := d.chans.map (fun (e : Nat × Chan) => (e.1, { e.2 with occ := none })) }
  let d := (List.range 0x40).foldl (fun d s => (d.resetObj 0x2180 (0x30 + s)).resetObj 0x2181 (0x30 + s)) d
  (d.resetObjs 0x2400 0x25FF).resetObjs 0x3000 0x33FF

end Sys2Proof.Machine
end

