-- ==== Sys2Proof/Machine/Protect.lean ====
section
/-! DEFINITION. Boost controllers (R259 to R263), the stop paths (R298 to R302), the diagnostics of the drive (R303 to R306), the
reset of a drive group (R308). -/

namespace Sys2Proof.Machine

/-! ### Boost controllers -/

/-- Notes a voltage of a rail in mV; max_v_rail follows (R316). -/
def Dev.railSeen (d : Dev) (x mv : Nat) : Dev :=
  let d := d.setBoost x { (d.boost x) with mv := mv }
  d.setObj (0x28C0 + x) 0x07 (max (d.obj (0x28C0 + x) 0x07) (min 65535 (mv / 250)))

/-- The voltage in mV from which a rail is ready (R262). -/
def Dev.readyMv (d : Dev) (x : Nat) : Nat := (d.obj (0x2780 + x) 0x02 - d.obj (0x2780 + x) 0x03) * 250

/-- A rail's ready state rises (R262, R305). -/
def Dev.readyUp (d : Dev) (x : Nat) : Dev :=
  let i := 0x2780 + x
  if d.bit i 0x0C 2 then d
  else
    let b := d.boost x
    let d := d.setBit i 0x0C 2 true
    let d := match b.fellAt with
      | some f => d.setObj i 0x0E (min 0xFFFFFFFF ((d.now - f) / 1024))
      | none => d
    ((d.pulse (96 + x)).raiseIf (d.bit i 0x0B 0) (32 + x)).railServes x

/-- A rail's ready state falls; while the rail is enabled this counts (R262). -/
def Dev.readyDown (d : Dev) (x : Nat) : Dev :=
  let i := 0x2780 + x
  if !d.bit i 0x0C 2 then d
  else
    let d := ((d.setBit i 0x0C 2 false).setBoost x { (d.boost x) with fellAt := some d.now, notReadyFrom := d.now }).pulse (98 + x)
    if d.obj i 0x01 = 1 then (d.inc i 0x0F).raiseIf (d.bit i 0x0B 1) (32 + x) else d

/-- The unit of the loop reference: mV times the TQ of 1 ms. -/
def refGoal (target : Nat) : Nat := target * 250 * tqMs

/-- The loop reference now, on its way to a v_target at a soft_start rate (R260). -/
def Dev.refNow (d : Dev) (x target rate : Nat) : Nat :=
  let b := d.boost x
  let step := rate * 250 * (d.now - b.refAt)
  if b.ref ≤ refGoal target then min (refGoal target) (b.ref + step) else max (refGoal target) (b.ref - step)

/-- The reference has reached v_target: the soft start is complete, and ready follows the comparator (R260, R262). -/
def Dev.softEnds (d : Dev) (x : Nat) : Dev :=
  let i := 0x2780 + x
  let b := d.boost x
  let d := d.setBoost x { b with softDone := true, softAt := d.now, notReadyFrom := d.now, ref := refGoal (d.obj i 0x02), refAt := d.now }
  let d := d.setBit i 0x0C 3 false
  if d.readyMv x ≤ b.mv then d.readyUp x else d

/-- A soft start begins from the rail's present voltage, with ready 0, or is complete at once (R260, R262). -/
def Dev.softStart (d : Dev) (x : Nat) : Dev :=
  let i := 0x2780 + x
  let b := d.boost x
  if d.obj i 0x02 * 250 ≤ b.mv then d.softEnds x
  else ((d.setBoost x { b with softDone := false, ref := b.mv * tqMs, refAt := d.now }).setBit i 0x0C 3 true).readyDown x

/-- rail_enable = 1 takes effect (R260, R271). -/
def Dev.railOn (d : Dev) (x : Nat) : Dev :=
  let i := 0x2780 + x
  let was := d.obj i 0x01
  let d := ((d.setObj i 0x01 1).setBit i 0x0C 5 false).setBit i 0x0C 0 true
  if was = 1 then d else d.softStart x

/-- The owner of a ramp: 0 none, 1 BST_A, 2 BST_B (R352). -/
def Dev.rampOwner (d : Dev) (k : Nat) : Nat :=
  if d.obj 0x2780 0x01 = 1 && d.obj 0x2780 0x07 = k then 1
  else if d.obj 0x2781 0x01 = 1 && d.obj 0x2781 0x07 = k then 2 else 0

/-- rail_enable = 0 takes effect (R260). The controller's ownership of its ramp ends: the ramp stands at rest until its next return
to v_start (R352). -/
def Dev.railOff (d : Dev) (x : Nat) : Dev :=
  let i := 0x2780 + x
  let k := d.obj i 0x07
  let owned := decide (d.rampOwner k = x + 1)
  let d := (d.setObj i 0x01 0).readyDown x
  let d := if owned then d.setObj (0x2A10 + k) 0x08 0 else d
  ((d.setBit i 0x0C 0 false).setBit i 0x0C 3 false).setBoost x { (d.boost x) with softDone := false }

/-- Both boost gates are driven low by the power die (R300, R301). -/
def Dev.boostGatesLow (d : Dev) : Dev := (List.range 2).foldl (fun d x => d.setBoost x { (d.boost x) with gate := false }) d

/-- The length of a switching period in TQ: 1 / fsw, with fsw in kHz (R259). -/
def Dev.boostTick (d : Dev) (x : Nat) : Nat := tqMs / d.obj (0x2780 + x) 0x04

/-- The instant by which max_duty ends the pulse of the last period (R259). -/
def Dev.dutyEnd (d : Dev) (x : Nat) : Nat := (d.boost x).periodAt.getD 0 + d.boostTick x * d.obj (0x2780 + x) 0x0A / 100

/-- A boost gate is on: its pulse has not ended, nor has max_duty been reached (R259). -/
def Dev.boostOn (d : Dev) (x : Nat) : Bool := (d.boost x).gate && decide (d.now < d.dutyEnd x)

/-- A period of a boost controller may start now: one period after the last, or afresh where none is running (R259). -/
def Dev.boostDue (d : Dev) (x : Nat) : Bool :=
  match (d.boost x).periodAt with
  | some _ => decide ((d.boost x).periodEnd ≤ d.now)
  | none => true

/-- A boost gate may rise (R298). -/
def Dev.boostMayRise (d : Dev) (x : Nat) : Bool :=
  d.runs 9 && decide (d.obj (0x2780 + x) 0x01 = 1) && !(d.stops.armHigh || d.stops.killLow || d.bit 0x28C8 0x01 7 || d.tapBlocks)

/-- BOOST_PERIOD (R259, R298): at a period's start the gate turns on, unless the rail is at or above v_target + 0.5 V. -/
def Dev.boostPeriod (d : Dev) (x mv : Nat) : Dev :=
  let i := 0x2780 + x
  let d := d.railSeen x mv
  if !d.boostMayRise x || !d.boostDue x then d
  else
    let b := d.boost x
    let e := d.now + d.boostTick x
    let on := decide (mv < d.obj i 0x02 * 250 + 500)
    d.setBoost x { b with periodAt := some d.now, periodEnd := e, gate := on, pulseEnd := if on then e else b.pulseEnd }

/-- BOOST_GATE_OFF (R259): the pulse ends; `limit` says that the sense voltage alone reached i_limit, before max_duty. -/
def Dev.boostGateOff (d : Dev) (x : Nat) (limit : Bool) : Dev :=
  let b := d.boost x
  if !d.runs 9 || !b.gate then d
  else d.setBoost x { b with gate := false, limitAt := if limit && d.boostOn x then some d.now else b.limitAt }

/-- The status word of a boost controller as it is read (R271): current_limit covers the last 10 us; switching lasts to the end of
the period in which the last pulse fell (R260). -/
def Dev.boostStatus (d : Dev) (x : Nat) : Nat :=
  let b := d.boost x
  let v := bitTo (d.obj (0x2780 + x) 0x0C) 4 (match b.limitAt with | some t => decide (d.now ≤ t + 102400) | none => false)
  bitTo v 1 (decide (d.now < b.pulseEnd))

/-- SOFT_START_DONE (R260): the loop reference reaches v_target, which it does at the soft_start rate. -/
def Dev.softStartDone (d : Dev) (x mv : Nat) : Dev :=
  let i := 0x2780 + x
  let d := d.railSeen x mv
  if d.runs 9 && decide (d.obj i 0x01 = 1) && d.bit i 0x0C 3
    && decide (d.refNow x (d.obj i 0x02) (d.obj i 0x09) = refGoal (d.obj i 0x02)) then d.softEnds x
  else d

/-- READY_RISE (R262). -/
def Dev.readyRise (d : Dev) (x mv : Nat) : Dev :=
  let d := d.railSeen x mv
  if d.runs 9 && decide (d.obj (0x2780 + x) 0x01 = 1) && (d.boost x).softDone && decide (d.readyMv x ≤ mv) then d.readyUp x else d

/-- READY_FALL (R262). -/
def Dev.readyFall (d : Dev) (x mv : Nat) : Dev :=
  let d := d.railSeen x mv
  if d.runs 9 && decide (mv + 1000 < d.readyMv x) then d.readyDown x else d

/-- A write of v_target or of soft_start while enabled: the reference moves on from where the old values have brought it (R260). It
may stand below the new target, or the target may have come down to it. -/
def Dev.targetMoved (d : Dev) (x target rate : Nat) : Dev :=
  let i := 0x2780 + x
  let r := d.refNow x target rate
  let d := d.setBoost x { (d.boost x) with ref := r, refAt := d.now }
  if r < refGoal (d.obj i 0x02) then d.setBit i 0x0C 3 true
  else if !(d.boost x).softDone then d.softEnds x
  else d.setBit i 0x0C 3 false

/-- Zeroes :0E and :0F of a boost controller (R271). -/
def Dev.boostClear (d : Dev) (x : Nat) : Dev := d.zero (0x2780 + x) 0x0E 0x0F

/-! ### Arming and the stop paths -/

/-- Brings the live bits of the protection status up to date (R317). -/
def Dev.protStatus (d : Dev) : Dev :=
  let hs := (d.armed 0 || d.armed 1) && !d.stops.linkDown
  let d := d.setBit 0x28C8 0x01 3 hs
  d.setBit 0x28C8 0x01 0 (hs && !d.bit 0x28C8 0x01 1 && !d.bit 0x28C8 0x01 2)

/-- Channels in slow decay turn to fast decay: their low sides go off. -/
def Dev.slowEnds (d : Dev) : Dev :=
  (List.range 48).foldl (fun d n => if d.phase n = 5 && (d.chan n).slow then d.cutChan n 0 else d) d

/-- Domains are disarmed at one instant (R299). With the last of them the handshake falls, and no gate stays high (R298, R307). -/
def Dev.disarmDoms (d : Dev) (doms : List Nat) (veto : Bool) : Dev :=
  let d := ((doms.foldl (fun d k => d.setBit (0x2180 + k) 0x11 0 false) d).disarmOccs doms veto).protStatus
  if d.bit 0x28C8 0x01 3 then d else d.slowEnds

/-- A domain is disarmed (R299). -/
def Dev.disarm (d : Dev) (dom : Nat) (veto : Bool) : Dev := d.disarmDoms [dom] veto

/-- Both domains are disarmed. -/
def Dev.disarmBoth (d : Dev) (veto : Bool) : Dev := d.disarmDoms [0, 1] veto

/-- A domain is armed by its owner (R162): the table's signature is checked (R175) and first occurrences arm (R218). The first
domain to be armed starts the time that keep-alives run against (R22): DESIGN CHOICE (log 100). -/
def Dev.arm (d : Dev) (dom : Nat) : Dev :=
  let first := !(d.armed 0 || d.armed 1)
  let d := (d.setBit (0x2180 + dom) 0x11 0 true).protStatus
  let d := if first then { d with stops := { d.stops with lastAlive := d.now } } else d
  (d.sigCheck dom).schedStart dom

/-- global_disarm is set (R78): both domains disarmed, both rails disabled with the vetoed bit. -/
def Dev.globalDisarm (d : Dev) : Dev :=
  let d := d.disarmBoth true
  (List.range 2).foldl (fun d x => (d.railOff x).setBit (0x2780 + x) 0x0C 5 true) d

/-- Source 52 under stop_mask (R312). -/
def Dev.stopSource (d : Dev) (b : Nat) : Dev := d.raiseIf (d.bit 0x28C8 0x09 b) 52

/-- What KILL_N and an over-temperature shutdown have in common (R301, R303). -/
def Dev.killAll (d : Dev) : Dev :=
  let d := (d.boostGatesLow.disarmBoth false)
  let d := (List.range 2).foldl (fun d x => d.railOff x) d
  (d.setObj 0x28C8 0x08 d.now).protStatus

/-- The shot of a channel has started at this very instant. -/
def Dev.startsNow (d : Dev) (n : Nat) : Bool :=
  (d.chan n).started && (d.chan n).start = d.now && d.phase n ≠ 5 && (d.chan n).occ.isSome

/-- A shot whose start instant is that of a rise of ARM_N is dropped with arm_blocked (R311): what its start has just counted is taken
back, the bank is let go, and the start check drops it. -/
def Dev.unstart (d : Dev) (n : Nat) : Dev :=
  let c := d.chan n
  let b := d.bankOf n
  match c.occ with
  | none => d
  | some id =>
    let o := d.occ id
    let i := recIx o.rid
    let less := fun (d : Dev) (ix sub : Nat) => d.setObj ix sub (d.obj ix sub - 1)
    let d := less (less (less d (0x2700 + n) 0x09) i 0x19) (0x2180 + o.dom) 0x35
    let d := (d.setObj i 0x15 c.lastWas).setObj (0x2700 + n) 0x04 (d.obj (0x2700 + n) 0x04 / 2 * 2)
    let d := (d.setOcc id { o with st := .locked, flags := o.flags / 2 * 2 }).occFlag id 0
    let os := d.treeOf o.tree
    let d := (occAncestors walkDepth os o).foldl (fun d e =>
      if (shotsUnder os e.2.rid).any (fun s => s.2.started) then d else d.setOcc e.1 { e.2 with begun := false }) d
    let held := (d.bank b).holder = some n
    let d := (d.setChan n { c with started := false, low := false }).checkDrop n 5
    if held then (Dev.bankNext 8 (d.setBank b { (d.bank b) with holder := none, entering := none }) b).bankApply b else d.bankApply b

/-- ARM_N_RISE (R300): past its filter. -/
def Dev.armNRise (d : Dev) : Dev :=
  if d.stops.armHigh && d.stops.armFell.isNone then d
  else
    let d := { d with stops := { d.stops with armHigh := true, armFell := none } }
    let d := ((d.setBit 0x28C8 0x01 1 true).setObj 0x28C8 0x08 d.now).protStatus
    let d := (d.pulse 124).stopSource 0
    let d := (List.range 48).foldl (fun d n => if d.startsNow n then d.unstart n else d) d
    let d := (List.range 48).foldl (fun d n =>
      if (d.chan n).started && d.phase n ≠ 5 && (d.chan n).occ.isSome then (d.cutChan n 0).chanDiag n 32 else d) d
    (d.capStop (fun _ _ => true)).slowEnds.boostGatesLow

/-- ARM_N_FALL (R300): the release interval starts. -/
def Dev.armNFall (d : Dev) : Dev :=
  if d.stops.armHigh && d.stops.armFell.isNone then
    let d := { d with stops := { d.stops with armFell := some d.now } }
    ((d.setBit 0x28C8 0x01 1 false).protStatus.pulse 125).stopSource 1
  else d

/-- ARM_N_RELEASE (R300): 2 us after the fall; the boost controllers resume with a soft start. -/
def Dev.armNRelease (d : Dev) : Dev :=
  match d.stops.armFell with
  | some f =>
    if f + 20480 ≤ d.now then
      let d := { d with stops := { d.stops with armHigh := false, armFell := none } }
      (List.range 2).foldl (fun d x => if d.obj (0x2780 + x) 0x01 = 1 then d.softStart x else d) d
    else d
  | none => d

/-- KILL_N_FALL (R301). -/
def Dev.killNFall (d : Dev) : Dev :=
  if d.stops.killLow then d
  else
    let d := { d with stops := { d.stops with killLow := true } }
    let d := (d.setBit 0x28C8 0x01 2 true).killAll
    ((((d.setBit 0x28C8 0x01 4 true).inc 0x28C8 0x06).pulse 122).stopSource 2)

/-- KILL_N_RISE (R301). -/
def Dev.killNRise (d : Dev) : Dev :=
  if d.stops.killLow then
    let d := { d with stops := { d.stops with killLow := false } }
    ((d.setBit 0x28C8 0x01 2 false).protStatus.pulse 123).stopSource 3
  else d

/-- KEEP_ALIVE (R22): the first good one after a loss reports the loss and lets a domain be armed again. -/
def Dev.keepAlive (d : Dev) : Dev :=
  let lost := d.stops.linkDown
  let d := { d with stops := { d.stops with lastAlive := d.now, linkDown := false } }
  if lost then (d.setBit 0x28C8 0x01 5 true).protStatus else d

/-- The power die loses the link (R22): it withdraws the handshake, ends running shots, holds gates off; both domains are
disarmed. -/
def Dev.linkLoss (d : Dev) : Dev :=
  let d := { d with stops := { d.stops with linkDown := true } }
  let d := d.disarmBoth false
  (((d.inc 0x28C8 0x07).setObj 0x28C8 0x08 d.now).protStatus.pulse 126).raise 51

/-- DIE_LINK_LOSS (R22): no keep-alive for 1 us while the handshake stands. -/
def Dev.dieLinkLoss (d : Dev) : Dev :=
  if d.bit 0x28C8 0x01 3 && decide (d.stops.lastAlive + 10240 ≤ d.now) then d.linkLoss else d

/-! ### Diagnostics -/

/-- A channel diagnostic is found: its sticky bit, last_diag, time and counter (R314). -/
def Dev.diagFound (d : Dev) (n b cnt : Nat) : Dev :=
  let i := 0x2880 + n
  (((d.setBit i 0x09 b true).chanDiag n (1 <<< b)).setObj i 0x0B d.now).inc i cnt

/-- A channel is inhibited. -/
def Dev.inhibit (d : Dev) (n : Nat) : Dev :=
  if d.bit (0x2880 + n) 0x09 8 then d else (d.setBit (0x2880 + n) 0x09 8 true).pulse 120

/-- OPEN_LOAD (R303): the test at t_open with a current. -/
def Dev.openLoad (d : Dev) (n cur : Nat) : Dev :=
  let c := d.chan n
  let t := c.firstAt + c.diag.getD 2 0 * 1024
  if d.runs (groupPd n) && c.started && c.low && (decide (2 ≤ d.phase n) && decide (d.phase n ≤ 4)) && decide (t ≤ d.now)
    && decide (t < c.stop) && decide (cur < c.diag.getD 1 0) then
    let d := (d.diagFound n 1 0x0D).raiseIf (d.bit (0x2880 + n) 0x01 0) 41
    let d := if c.diag.getD 0 0 = 1 then d.inhibit n else d
    d.cutChan n 0
  else d

/-- SHORT_TO_BATTERY (R303): over-current, or, with `desat`, the drain high when t_desat has elapsed since a turn-on. -/
def Dev.shortBattery (d : Dev) (n : Nat) (desat : Bool) : Dev :=
  let c := d.chan n
  if d.runs (groupPd n) && c.low && (!desat || decide (c.onAt + c.diag.getD 5 0 * 64 ≤ d.now)) then
    (((d.diagFound n 2 0x0E).raise 42).inhibit n).cutChan n 0
  else d

/-- Both switches of a bank go off, and every running member's shot ends in fast decay, the holder's last; what then takes the bank
switches it on after the dead time (R254, R303, R311). -/
def Dev.bankOff (d : Dev) (b : Nat) : Dev :=
  let ms := (d.bankMembers b).filter (fun m => (d.chan m).started)
  let holds := fun (m : Nat) => decide ((d.bank b).holder = some m)
  let d := (ms.filter (fun m => !holds m)).foldl (fun d m => d.cutChan m 0) d
  let d := d.switchBank b none
  ((ms.filter holds).foldl (fun d m => d.cutChan m 0) d).bankStatus b

/-- The t_sg in force on a bank: the copy of the channel's shot or else of the first member that has one (R303). -/
def Dev.shortTime (d : Dev) (n : Nat) : Nat :=
  let b := d.bankOf n
  match ((n :: d.bankMembers b).find? (fun m => (d.chan m).occ.isSome)) with
  | some m => (d.chan m).diag.getD 7 0
  | none => d.obj (0x28B0 + b) 0x01

/-- SHORT_TO_GROUND (R303): a low drain with the low side off and a bank switch on for t_sg. -/
def Dev.shortGround (d : Dev) (n : Nat) : Dev :=
  let b := d.bankOf n
  let k := d.bank b
  if d.runs (groupPd n) && !(d.chan n).low && (k.bhb || k.bhs) && decide (k.rose + d.shortTime n * 1024 ≤ d.now) then
    (((d.diagFound n 3 0x0F).raise 43).inhibit n).bankOff b
  else d

/-- BANK_SWITCH_FAILURE (R303): 0 a BHB gate fault, 1 a BHS gate fault, 2 current with both switches off. -/
def Dev.bankFailure (d : Dev) (b kind : Nat) : Dev :=
  let i := 0x28B0 + b
  if !d.runs (if b < 8 then 7 else 8) then d
  else
    let fresh := !d.bit i 0x04 4
    let d := (((d.setBit i 0x04 kind true).setBit i 0x04 4 true).setObj i 0x06 d.now).inc i 0x07
    let d := (d.pulseIf fresh 121).raiseIf (d.bit i 0x03 0) 44
    d.bankOff b

/-- One bank's driver sensor in a temperature sample (R303). -/
def Dev.driverTemp (d : Dev) (b : Nat) (temp : Int) : Dev :=
  let i := 0x28B0 + b
  let d := d.setSobj 16 i 0x05 temp
  if 160 ≤ temp && !d.bit i 0x04 3 then ((d.setBit i 0x04 3 true).inc i 0x08).raiseIf (d.bit i 0x03 1) 45
  else if temp < 145 then d.setBit i 0x04 3 false
  else d

/-- TEMPERATURE_SAMPLE (R303): driver sensors, power die and core die in °C. -/
def Dev.temperature (d : Dev) (drivers : List Int) (power core : Int) : Dev :=
  if !d.ready then d
  else
    let d := ((List.range 16).zip drivers).foldl (fun d e => d.driverTemp e.1 e.2) d
    let d := (d.setSobj 16 0x28C8 0x03 power).setSobj 16 0x28C8 0x04 core
    let hot := max power core
    let warn := d.sobj 16 0x28C8 0x02
    let d := if warn ≤ hot && !d.bit 0x28C8 0x01 6 then (d.setBit 0x28C8 0x01 6 true).raiseIf (d.bit 0x28C8 0x09 4) 46
      else if hot ≤ warn - 5 then d.setBit 0x28C8 0x01 6 false else d
    if 165 ≤ hot && !d.bit 0x28C8 0x01 7 then ((d.setBit 0x28C8 0x01 7 true).killAll.pulse 127).raise 47
    else if hot < 150 && d.bit 0x28C8 0x01 7 then (d.setBit 0x28C8 0x01 7 false).raise 47
    else d

/-- BOOST_OVER_VOLTAGE (R303): the rail has been at a voltage for 2 us. -/
def Dev.overVoltage (d : Dev) (x mv : Nat) : Dev :=
  let i := 0x28C0 + x
  let d := d.railSeen x mv
  let thr := min ((d.obj (0x2780 + x) 0x02 + d.obj i 0x01) * 250) 110000
  if !d.runs 9 then d
  else
    let d := if 110000 ≤ mv then d.setBit i 0x04 1 true else d
    if thr ≤ mv && !d.bit i 0x04 0 then
      let d := d.setBoost x { (d.boost x) with ovThr := thr }
      ((d.setBit i 0x04 0 true).inc i 0x05).raiseIf (d.bit i 0x03 0) 49
    else d

/-- OVER_VOLTAGE_CLEAR (R303). -/
def Dev.overVoltageClear (d : Dev) (x mv : Nat) : Dev :=
  let i := 0x28C0 + x
  let d := d.railSeen x mv
  let d := if mv + 4000 ≤ (d.boost x).ovThr then d.setBit i 0x04 0 false else d
  if mv < 106000 then d.setBit i 0x04 1 false else d

/-- BOOST_FAULT (R303): ready stays 0 for ready_timeout after the soft start. -/
def Dev.boostFault (d : Dev) (x : Nat) : Dev :=
  let i := 0x2780 + x
  let b := d.boost x
  if d.runs 9 && decide (d.obj i 0x01 = 1) && b.softDone && !d.bit i 0x0C 2 && !d.bit (0x28C0 + x) 0x04 2
    && decide (b.notReadyFrom + d.obj (0x28C0 + x) 0x02 * tqMs ≤ d.now) then
    (d.setBit (0x28C0 + x) 0x04 2 true).raiseIf (d.bit (0x28C0 + x) 0x03 1) 50
  else d

/-- Lifts a channel's inhibit (R306). -/
def Dev.channelClearFault (d : Dev) (n : Nat) : Dev := d.setBit (0x2880 + n) 0x09 8 false

/-- Lifts a bank's failure (R306). -/
def Dev.bankClearFault (d : Dev) (b : Nat) : Dev := d.setBit (0x28B0 + b) 0x04 4 false

/-- Zeroes :0C to :12 and the sticky bits of a channel's diagnostics (R314). -/
def Dev.channelDiagClear (d : Dev) (n : Nat) : Dev :=
  (d.zero (0x2880 + n) 0x0C 0x12).setObj (0x2880 + n) 0x09 (d.obj (0x2880 + n) 0x09 &&& 0x100)

/-- Zeroes :07, :08 and the sticky bits of a bank's diagnostics (R315). -/
def Dev.bankDiagClear (d : Dev) (b : Nat) : Dev :=
  (d.zero (0x28B0 + b) 0x07 0x08).setObj (0x28B0 + b) 0x04 (d.obj (0x28B0 + b) 0x04 &&& 0x18)

/-- Zeroes :05 to :07 and boost_fault (R316). -/
def Dev.boostDiagClear (d : Dev) (x : Nat) : Dev := (d.zero (0x28C0 + x) 0x05 0x07).setBit (0x28C0 + x) 0x04 2 false

/-- Zeroes :05 to :07 and the sticky bits of the protection object (R317). -/
def Dev.protectionClear (d : Dev) : Dev :=
  (d.zero 0x28C8 0x05 0x07).setObj 0x28C8 0x01 (d.obj 0x28C8 0x01 &&& 0xCF)

/-! ### Reset of a drive group (R308) -/

/-- The channels of a drive group: PD7 holds 0 to 23, PD8 24 to 47. -/
def groupChans (pd : Nat) : List Nat := (List.range 24).map (· + if pd = 7 then 0 else 24)

/-- The banks of a drive group. -/
def groupBanks (pd : Nat) : List Nat := (List.range 8).map (· + if pd = 7 then 0 else 8)

/-- The reset controller asks a drive group for idle: its unstarted occurrences are cancelled, running shots go on (R308). -/
def Dev.groupRequest (d : Dev) (pd : Nat) : Dev :=
  let q := fun (o : Occ) => (o.st = .armed || o.st = .locked) && decide (o.cfg.channel < 48) && decide (groupPd o.cfg.channel = pd)
  (List.range 2).foldl (fun d dom => d.stateCancel dom q) { d with rst := { d.rst with domReset := some pd } }

/-- Every channel of a group is idle. -/
def Dev.groupIdle (d : Dev) (pd : Nat) : Bool := (groupChans pd).all (fun n => d.phase n = 0)

/-- The group is reset (R267, R313): channels and banks idle, their objects at their defaults, inhibits and failures kept. -/
def Dev.groupReset (d : Dev) (pd : Nat) : Dev :=
  let d := (groupChans pd).foldl (fun d n =>
    let keep := d.obj (0x2880 + n) 0x09 &&& 0x100
    (((d.setChan n {}).resetObjs (0x2700 + n) (0x2700 + n)).resetObjs (0x2880 + n) (0x2880 + n)).setObj (0x2880 + n) 0x09 keep) d
  let d := (groupBanks pd).foldl (fun d b =>
    let keep := d.obj (0x28B0 + b) 0x04 &&& 0x18
    (((d.setBank b {}).resetObjs (0x2740 + b) (0x2740 + b)).resetObjs (0x28B0 + b) (0x28B0 + b)).setObj (0x28B0 + b) 0x04 keep) d
  d.mapBanks

/-- Running shots of a group are cut by the clamp, their captures aborted (R308). -/
def Dev.groupCut (d : Dev) (pd : Nat) : Dev :=
  (groupChans pd).foldl (fun d n => if (d.chan n).occ.isSome then d.cutChan n 0 else d) d

/-- A reset of PD9 (R267): both controllers stop. -/
def Dev.boostReset (d : Dev) : Dev :=
  let d := (d.railOff 0).railOff 1
  (({ d with boosts := d.boosts.map (fun (e : Nat × Boost) => (e.1, { mv := e.2.mv })) }).resetObjs 0x2780 0x2781).resetObjs 0x28C0 0x28C1 |>.mapBanks

end Sys2Proof.Machine
end

