-- ==== Sys2Proof/Machine/Analog.lean ====
section
/-! DEFINITION. General comparators and ramps (chapter 11): live and reported outputs, toggles, blanking windows, the ramp
generators and their ownership. -/

namespace Sys2Proof.Machine

/-- The record of a comparator pair. -/
def Dev.cmp (d : Dev) (n : Nat) : Cmp := Store.get (fun _ => {}) d.cmps n

/-- Stores the record of a comparator pair. -/
def Dev.setCmp (d : Dev) (n : Nat) (c : Cmp) : Dev := { d with cmps := Store.put (fun _ => {}) d.cmps n c }

/-- A comparator of a pair: 0 upper, 1 lower. Its bits of the status word: reported, live, unresolved. -/
def Dev.cmpOut (d : Dev) (n u : Nat) : Bool := d.bit (0x2A00 + n) 0x10 u

/-- The live output of a comparator. -/
def Dev.cmpLive (d : Dev) (n u : Nat) : Bool := d.bit (0x2A00 + n) 0x10 (2 + u)

/-- The comparator is unresolved (R344). -/
def Dev.cmpUnresolved (d : Dev) (n u : Nat) : Bool := d.bit (0x2A00 + n) 0x10 (4 + u)

/-- The pair's blanking window is open (R348). -/
def Dev.blanking (d : Dev) (n : Nat) : Bool := d.bit (0x2A00 + n) 0x10 6

/-- The latest reported transition of a comparator of a pair. -/
def Cmp.rep (c : Cmp) (u : Nat) : Option CmpRep := if u = 0 then c.upper else c.lower

/-- Stores the latest reported transition of a comparator of a pair. -/
def Cmp.setRep (c : Cmp) (u : Nat) (r : Option CmpRep) : Cmp := if u = 0 then { c with upper := r } else { c with lower := r }

/-- A reported transition, stamped at the present instant (R346). -/
def Dev.cmpReport (d : Dev) (n u : Nat) (level : Bool) : Dev :=
  let i := 0x2A00 + n
  let tgt := (d.routeOf (80 + n)).1
  let was : CmpRep :=
    { at_ := d.now, time := d.obj i (0x11 + u), line := d.line (128 + 2 * n + u), tgt := tgt, pend := d.pend (80 + n) tgt }
  let d := d.setCmp n ((d.cmp n).setRep u (some was))
  let d := (d.setBit i 0x10 u level).setObj i (0x11 + u) d.now
  let edge := d.obj i (0x09 + u)
  let d := d.pulseIf (edge = 2 || edge = b2n level) (128 + 2 * n + u)
  d.raiseIf (d.bit i 0x0F (2 * u + if level then 0 else 1)) (80 + n)

/-- A comparator's transition that was reported at this very instant is taken back: what a blanking window makes of it is decided by
the window (R357). -/
def Dev.cmpUnreport (d : Dev) (n u : Nat) : Dev :=
  let i := 0x2A00 + n
  match (d.cmp n).rep u with
  | some r =>
    if r.at_ = d.now then
      let d := ((d.setBit i 0x10 u (!d.cmpOut n u)).setObj i (0x11 + u) r.time).setLine (128 + 2 * n + u) r.line
      let d := if r.tgt ≤ 9 then d.setPend (80 + n) r.tgt r.pend else d
      d.setCmp n ((d.cmp n).setRep u none)
    else d
  | none => d

/-- A live transition is counted; the first count of 65535 sets toggle_sat (R347). -/
def Dev.cmpToggle (d : Dev) (n u : Nat) : Dev :=
  let i := 0x2A00 + n
  let d := d.inc16 i (0x13 + u)
  if d.obj i (0x13 + u) = 65535 && !d.bit i 0x10 7 then (d.setBit i 0x10 7 true).raiseIf (d.bit i 0x0F 4) (80 + n) else d

/-- LIVE_TRANSITION (R340, R344, R346 to R348): the live output of comparator `u` of a pair becomes `level`. An unresolved
comparator resolves silently; with PD13 off, in service or asleep, a pair in M3 switches seen by the Nightlight alone and the others
stand still (R355, R440). At the instant at which
a window closes the outputs are compared once, whichever comes first (R357). -/
def Dev.liveTransition (d : Dev) (n u : Nat) (level : Bool) : Dev :=
  let i := 0x2A00 + n
  if !(d.ready || d.rst.slept.isSome) || d.obj i 0x01 = 0 then d
  else if !d.pdOn 13 then
    if d.obj i 0x02 ≠ 3 then d
    else
      let seen := !d.cmpUnresolved n u && d.cmpLive n u != level
      let d := (d.setBit i 0x10 (2 + u) level).setBit i 0x10 (4 + u) false
      if seen then d.watchNote 1 n (fun p => decide (p % 4 = 2 * u + if level then 0 else 1)) else d
  else if d.cmpUnresolved n u then
    ((d.setBit i 0x10 (4 + u) false).setBit i 0x10 (2 + u) level).setBit i 0x10 u level
  else if d.cmpLive n u = level then d
  else
    let d := (d.setBit i 0x10 (2 + u) level).cmpToggle n u
    let d := if (d.cmp n).closed = some d.now then d.cmpUnreport n u else d
    if d.blanking n || d.cmpOut n u = level then d else d.cmpReport n u level

/-- A comparator becomes unresolved: it reports output 0 (R344). -/
def Dev.cmpUnresolve (d : Dev) (n u : Nat) : Dev :=
  let i := 0x2A00 + n
  (((d.setBit i 0x10 (4 + u) true).setBit i 0x10 (2 + u) false).setBit i 0x10 u false).setCmp n ((d.cmp n).setRep u none)

/-- BLANKING_WINDOW_OPEN (R349): a pulse on blank_line arrives. A live transition at the instant at which the window opens is
blanked (R357), but for the one whose own pulse opens it. -/
def Dev.blankOpen (d : Dev) (n : Nat) : Dev :=
  let i := 0x2A00 + n
  let mode := d.obj i 0x0B
  if !d.runs 13 || d.obj i 0x01 = 0 then d
  else d.onPulse (.blankOpen n) (d.obj i 0x0C) (fun d =>
    if d.blanking n then
      if (d.cmp n).mode = 1 then d.setCmp n { (d.cmp n) with from_ := d.now } else d
    else if mode = 1 || mode = 2 then
      let d := (List.range 2).foldl (fun d u => if d.obj i 0x0C = 128 + 2 * n + u then d else d.cmpUnreport n u) d
      (d.setBit i 0x10 6 true).setCmp n { (d.cmp n) with mode := mode, from_ := d.now }
    else d)

/-- The end of a window: a comparator whose outputs differ makes one reported transition (R348). -/
def Dev.blankEnd (d : Dev) (n : Nat) : Dev :=
  let d := (d.setBit (0x2A00 + n) 0x10 6 false).setCmp n { (d.cmp n) with mode := 0, from_ := 0, closed := some d.now }
  (List.range 2).foldl (fun d u =>
    if !d.cmpUnresolved n u && d.cmpLive n u != d.cmpOut n u then d.cmpReport n u (d.cmpLive n u) else d) d

/-- BLANKING_WINDOW_CLOSE (R348, R349): in mode 1 the length has run since the last pulse, in mode 2 a pulse on blank_end_line
arrives. -/
def Dev.blankClose (d : Dev) (n : Nat) : Dev :=
  let i := 0x2A00 + n
  let c := d.cmp n
  if !d.runs 13 || !d.blanking n then d
  else if c.mode = 1 then (if c.from_ + d.obj i 0x0E * tq100ns ≤ d.now then d.blankEnd n else d)
  else d.onPulse (.blankClose n) (d.obj i 0x0D) (fun d => d.blankEnd n)

/-- Zeroes :13, :14 and toggle_sat (R358). -/
def Dev.comparatorClear (d : Dev) (n : Nat) : Dev := (d.zero (0x2A00 + n) 0x13 0x14).setBit (0x2A00 + n) 0x10 7 false

/-- What a write to a pair does beyond the values (R344, R357): the old values of enable, mode, hysteresis and ref. -/
def Dev.cmpWritten (d : Dev) (n : Nat) (old : List Nat) : Dev :=
  let i := 0x2A00 + n
  let was := fun k => old.getD k 0
  let now := fun k => d.obj i (k + 1)
  let both := now 0 ≠ was 0 || now 1 ≠ was 1
  let d := if now 0 = 0 && was 0 ≠ 0 then (d.setBit i 0x10 6 false).setCmp n {} else d
  let d := if both || now 4 ≠ was 4 || now 6 ≠ was 6 then d.cmpUnresolve n 0 else d
  if both || now 5 ≠ was 5 || now 7 ≠ was 7 then d.cmpUnresolve n 1 else d

/-- PD13 is powered again without a reset of its contents (R355). -/
def Dev.cmpPowered (d : Dev) : Dev :=
  (List.range 16).foldl (fun d n =>
    let i := 0x2A00 + n
    if d.obj i 0x01 = 0 then d
    else if d.obj i 0x02 = 3 then
      (List.range 2).foldl (fun d u => if d.cmpUnresolved n u then d else d.setBit i 0x10 u (d.cmpLive n u)) d
    else (d.cmpUnresolve n 0).cmpUnresolve n 1) d

/-! ### Ramps -/

/-- The ramp's output returns to v_start and runs (R351). -/
def Dev.rampReturn (d : Dev) (k : Nat) : Dev := (d.setObj (0x2A10 + k) 0x08 1).setObj (0x2A10 + k) 0x09 d.now

/-- The ramp runs on its own settings. -/
def Dev.rampFree (d : Dev) (k : Nat) : Bool := d.runs 13 && decide (d.obj (0x2A10 + k) 0x01 = 1) && decide (d.rampOwner k = 0)

/-- RAMP_RESET (R351, R357): a pulse on reset_line arrives. -/
def Dev.rampReset (d : Dev) (k : Nat) : Dev :=
  if d.rampFree k then d.onPulse (.rampReset k) (d.obj (0x2A10 + k) 0x06) (fun d => d.rampReturn k) else d

/-- A write of 1 to start (R351). -/
def Dev.rampStart (d : Dev) (k : Nat) : Dev := if d.rampFree k then d.rampReturn k else d

/-- RAMP_END (R351): the output has reached v_end. -/
def Dev.rampEnd (d : Dev) (k : Nat) : Dev :=
  let i := 0x2A10 + k
  let span := (d.obj i 0x04 : Int) - d.obj i 0x03
  if d.rampFree k && d.bit i 0x08 0 && decide (span.natAbs * 1000 * tqUs ≤ (d.now - d.obj i 0x09) * d.obj i 0x05) then
    if d.obj i 0x02 = 1 then d.rampReturn k else d.setObj i 0x08 2
  else d

/-- A period's start of an enabled boost controller resets the ramp that it owns (R352). -/
def Dev.rampPeriod (d : Dev) (x : Nat) : Dev :=
  if d.runs 9 && d.obj (0x2780 + x) 0x01 = 1 && d.rampOwner (d.obj (0x2780 + x) 0x07) = x + 1 then
    d.rampReturn (d.obj (0x2780 + x) 0x07)
  else d

/-- A write of a ramp's enable = 0: the output is 0 V (R351). -/
def Dev.rampWritten (d : Dev) (k : Nat) : Dev := if d.obj (0x2A10 + k) 0x01 = 0 then d.setObj (0x2A10 + k) 0x08 0 else d

/-- BOOST_PERIOD with the slope compensation ramp (R259, R352). -/
def Dev.boostPeriodRamp (d : Dev) (x mv : Nat) : Dev :=
  let r := d.boostPeriod x mv
  if d.boostMayRise x && d.boostDue x then r.rampPeriod x else r

/-- A reset of PD13 for comparators and ramps (R356). -/
def Dev.analogReset (d : Dev) : Dev := { d with cmps := [] }.resetObjs 0x2A00 0x2A13

end Sys2Proof.Machine
end

