-- ==== Sys2Proof/Machine/Lantern.lean ====
section
/-! DEFINITION. Lantern engines (chapter 13): legality of instructions, conditions, shifters and FIFOs, the execution of an
instruction tick by tick, injection, the Lantern master. -/

namespace Sys2Proof.Machine

/-- An engine's record. -/
def Dev.lan (d : Dev) (e : Nat) : Lan := Store.get (fun _ => {}) d.lans e

/-- Stores an engine's record. -/
def Dev.setLan (d : Dev) (e : Nat) (l : Lan) : Dev := { d with lans := Store.put (fun _ => {}) d.lans e l }

/-- A cause of the engine's source (R398). -/
def Dev.lanCause (d : Dev) (e b : Nat) : Dev := d.raiseIf (d.bit (0x2C00 + e) 0x19 b) (104 + e)

/-- Branch mode (R391). -/
def Dev.branchMode (d : Dev) (e : Nat) : Bool := d.obj (0x2C00 + e) 0x02 == 1

/-- Pins of the engine's group. -/
def Dev.pinCount (d : Dev) (e : Nat) : Nat := d.obj (0x2C00 + e) 0x04

/-- Symbols of a PUSH (R386). -/
def Dev.pushWidth (d : Dev) (e : Nat) : Nat := 2 ^ bitsOf (d.obj (0x2C00 + e) 0x09) 7 6

/-- Symbols of a PULL (R386). -/
def Dev.pullWidth (d : Dev) (e : Nat) : Nat := 2 ^ bitsOf (d.obj (0x2C00 + e) 0x09) 5 4

/-! ### Legality (R389 to R392) -/

/-- A condition code of R390 that is not reserved, with a pin of the group. -/
def condKnown (pins c : Nat) : Bool := decide (c ≤ 0x0C) || (decide (0x10 ≤ c) && decide (c < 0x20) && decide ((c - 0x10) / 2 < pins))

/-- An instruction is allowed under a mode and a number of group pins (R389 to R391). -/
def instrOk (branch : Bool) (pins w : Nat) : Bool :=
  match w % 8 with
  | 0 => decide (bitsOf w 15 8 = 0)
  | 1 => if bitsOf w 15 14 = 0 then decide (bitsOf w 13 10 = 0) else true
  | 2 => decide (bitsOf w 12 10 ≤ 5) && decide (bitsOf w 15 13 ≤ 5) && decide (bitsOf w 7 6 = 0)
  | 3 => let c := bitsOf w 10 6; if branch then condKnown pins c else decide (c ≤ 6)
  | 4 =>
    let c := bitsOf w 10 6
    if w.testBit 15 then !w.testBit 6
    else decide (bitsOf w 14 11 = 0) && condKnown pins c && decide (c ≠ 2) && decide (c ≠ 4)
  | 5 => decide (bitsOf w 13 11 = 0) && (!branch || condKnown pins (bitsOf w 10 6))
  | 6 => decide (bitsOf w 13 11 = 0) && (!branch || condKnown pins (bitsOf w 10 6))
  | _ => decide (bitsOf w 13 6 = 0)

/-- An instruction is allowed under the engine's present mode (R392). -/
def Dev.lanOk (d : Dev) (e w : Nat) : Bool := instrOk (d.branchMode e) (d.pinCount e) w

/-! ### Pins -/

/-- Group pin `k` is an output. -/
def Dev.pinOut (d : Dev) (e k : Nat) : Bool := decide (k < d.pinCount e) && d.bit (0x2C00 + e) 0x05 k

/-- Level of group pin `k`: an output's own level, else the level at the ball (R384). -/
def Dev.pinLevel (d : Dev) (e pins k : Nat) : Bool :=
  if d.pinOut e k then (d.lan e).outs.testBit k else pins.testBit (d.obj (0x2C00 + e) 0x03 + k)

/-- Drives group pin `k`, if it is an output. -/
def Dev.drive (d : Dev) (e k : Nat) (v : Bool) : Dev :=
  if d.pinOut e k then d.setLan e { (d.lan e) with outs := bitTo (d.lan e).outs k v } else d

/-- The levels of the group in bits 7:0. -/
def Dev.groupLevels (d : Dev) (e pins : Nat) : Nat := wordOf 8 (fun k => decide (k < d.pinCount e) && d.pinLevel e pins k)

/-! ### Conditions (R390) -/

/-- Evaluates a condition; a decrementing one moves its counter. -/
def Dev.lanCond (d : Dev) (e pins c : Nat) : Dev × Bool :=
  let l := d.lan e
  match c with
  | 0 => (d, true)
  | 1 => (d, l.k0 = 0)
  | 2 => let k := (l.k0 + 65535) % 65536; (d.setLan e { l with k0 := k }, k ≠ 0)
  | 3 => (d, l.k1 = 0)
  | 4 => let k := (l.k1 + 65535) % 65536; (d.setLan e { l with k1 := k }, k ≠ 0)
  | 5 => (d, l.k0 = l.k1)
  | 6 => (d, l.k0 ≠ l.k1)
  | 7 => (d, l.oshN = 0)
  | 8 => (d, decide (8 * d.pushWidth e ≤ l.ishN))
  | 9 => (d, l.tx.isEmpty)
  | 10 => (d, !l.tx.isEmpty)
  | 11 => (d, decide (4 ≤ l.rx.length))
  | 12 => (d, decide (l.rx.length < 4))
  | c => (d, d.pinLevel e pins ((c - 0x10) / 2) == decide (c % 2 = 0))

/-! ### Shifters (R385 to R387) -/

/-- PULL; none where the transmit FIFO holds too few symbols (R386). -/
def Dev.pull (d : Dev) (e : Nat) : Option Dev :=
  let l := d.lan e
  let w := d.pullWidth e
  if l.tx.length < w then none
  else
    let v := ofLe (l.tx.take w)
    let v := if d.bit (0x2C00 + e) 0x09 0 then v else v * 2 ^ (32 - 8 * w)
    some (d.setLan e { l with osh := v, oshN := 8 * w, tx := l.tx.drop w })

/-- PUSH; none where the receive FIFO has too little room (R386). -/
def Dev.push (d : Dev) (e : Nat) : Option Dev :=
  let l := d.lan e
  let w := d.pushWidth e
  if 4 < l.rx.length + w then none
  else
    let v := if d.bit (0x2C00 + e) 0x09 1 then l.ish / 2 ^ (32 - 8 * w) else l.ish % 2 ^ (8 * w)
    some (d.setLan e { l with ish := 0, ishN := 0, rx := l.rx ++ leBytes w v })

/-- One bit out of the OSH; none where auto_load stalls (R385, R387). -/
def Dev.shiftOut (d : Dev) (e : Nat) : Option (Dev × Bool) :=
  let d? := if d.bit (0x2C00 + e) 0x09 2 && (d.lan e).oshN = 0 then d.pull e else some d
  d?.map (fun d =>
    let l := d.lan e
    let right := d.bit (0x2C00 + e) 0x09 0
    let b := if l.oshN = 0 then false else l.osh.testBit (if right then 0 else 31)
    (d.setLan e { l with osh := if right then l.osh / 2 else l.osh * 2 % 2 ^ 32, oshN := l.oshN - 1 }, b))

/-- One bit into the ISH; none where auto_store stalls (R385, R387). -/
def Dev.shiftIn (d : Dev) (e : Nat) (b : Bool) : Option Dev :=
  let l := d.lan e
  let l := { l with ish := if d.bit (0x2C00 + e) 0x09 1 then l.ish / 2 + (if b then 2 ^ 31 else 0) else (l.ish * 2 + b2n b) % 2 ^ 32
                    ishN := min 32 (l.ishN + 1) }
  let d := d.setLan e l
  if d.bit (0x2C00 + e) 0x09 3 && 8 * d.pushWidth e ≤ l.ishN then d.push e else some d

/-! ### Execution (R383, R389) -/

/-- What a tick makes of the instruction in progress. -/
inductive Tick where
  | done (d : Dev)
  | wait (d : Dev) (reason : Nat)
  | more (d : Dev)

/-- The record of the instruction in progress. -/
def Dev.lanCur (d : Dev) (e : Nat) : LanCur := (d.lan e).cur.getD {}

/-- Stores the record of the instruction in progress. -/
def Dev.setCur (d : Dev) (e : Nat) (c : LanCur) : Dev := d.setLan e { (d.lan e) with cur := some c }

/-- Reverses the order of 32 bits. -/
def rev32 (v : Nat) : Nat := wordOf 32 (fun k => v.testBit (31 - k))

/-- MOV's operations: copy, invert, reverse bits, reverse symbols. -/
def movOp (op v : Nat) : Nat :=
  match op with
  | 0 => v
  | 1 => 2 ^ 32 - 1 - v % 2 ^ 32
  | 2 => rev32 v
  | _ => ofBe (leBytes 4 v)

/-- Counter K0 or K1 takes a value. -/
def Dev.setK (d : Dev) (e k v : Nat) : Dev :=
  let l := d.lan e
  d.setLan e (if k = 0 then { l with k0 := v % 65536 } else { l with k1 := v % 65536 })

/-- Every output pin of the group takes its bit of a value. -/
def Dev.driveAll (d : Dev) (e v : Nat) : Dev := (List.range 8).foldl (fun d k => d.drive e k (v.testBit k)) d

/-- MOV (R389). -/
def Dev.execMov (d : Dev) (e w pins : Nat) : Dev :=
  let l := d.lan e
  let src := match bitsOf w 12 10 with
    | 0 => d.groupLevels e pins
    | 1 => l.k0
    | 2 => l.k1
    | 3 => l.ish
    | 4 => l.osh
    | _ => 0
  let v := movOp (bitsOf w 9 8) src
  match bitsOf w 15 13 with
  | 0 => d.driveAll e v
  | 1 => d.setK e 0 v
  | 2 => d.setK e 1 v
  | 3 => d.setLan e { l with ish := v, ishN := 32 }
  | 4 => d.setLan e { l with osh := v, oshN := 32 }
  | _ => d.setLan e { l with pc := v % 32 }

/-- SET (R389). -/
def Dev.execSet (d : Dev) (e w : Nat) : Dev :=
  let data := bitsOf w 13 6
  match bitsOf w 15 14 with
  | 0 => d.drive e (bitsOf data 3 1) (data.testBit 0)
  | 1 => d.driveAll e data
  | 2 => d.setK e 0 data
  | _ => d.setK e 1 data

/-- Bit count of an IN or OUT (R391). -/
def Dev.shiftCount (d : Dev) (e w : Nat) : Nat :=
  if d.branchMode e then d.obj (0x2C00 + e) 0x0A
  else let n := bitsOf w 10 6; if n = 0 then 32 else n

/-- The bits of an OUT to a register or to nowhere, all on one tick unless the FIFO stalls it. -/
def Dev.outRun (d : Dev) (e n : Nat) : Nat → Tick
  | 0 => .done d
  | f + 1 =>
    let c := d.lanCur e
    if n ≤ c.bits then .done d
    else match d.shiftOut e with
      | none => .wait d 3
      | some (d, b) =>
        let acc := if d.bit (0x2C00 + e) 0x09 0 then c.acc + (if b then 2 ^ c.bits else 0) else 2 * c.acc + b2n b
        (d.setCur e { c with bits := c.bits + 1, acc := acc }).outRun e n f

/-- OUT (R389): one tick per bit to a pin, one tick to a register. -/
def Dev.execOut (d : Dev) (e w : Nat) : Tick :=
  let n := d.shiftCount e w
  let dest := bitsOf w 15 14
  if dest = 0 then
    match d.shiftOut e with
    | none => .wait d 3
    | some (d, b) =>
      let d := d.drive e (d.obj (0x2C00 + e) 0x07) b
      let c := d.lanCur e
      let d := d.setCur e { c with bits := c.bits + 1 }
      if n ≤ c.bits + 1 then .done d else .more d
  else match d.outRun e n 33 with
    | .done d => .done (if dest = 1 then d.setK e 0 (d.lanCur e).acc else if dest = 2 then d.setK e 1 (d.lanCur e).acc else d)
    | t => t

/-- The bits of an IN from a register's value: highest first into a left shift, lowest first into a right shift. -/
def Dev.inRun (d : Dev) (e n v : Nat) : Nat → Tick
  | 0 => .done d
  | f + 1 =>
    let c := d.lanCur e
    if n ≤ c.bits then .done d
    else match d.shiftIn e (v.testBit (if d.bit (0x2C00 + e) 0x09 1 then c.bits else n - 1 - c.bits)) with
      | none => .wait d 4
      | some d => (d.setCur e { c with bits := c.bits + 1 }).inRun e n v f

/-- IN (R389). -/
def Dev.execIn (d : Dev) (e w pins : Nat) : Tick :=
  let n := d.shiftCount e w
  match bitsOf w 15 14 with
  | 0 =>
    match d.shiftIn e (d.pinLevel e pins (d.obj (0x2C00 + e) 0x08)) with
    | none => .wait d 4
    | some d =>
      let c := d.lanCur e
      let d := d.setCur e { c with bits := c.bits + 1 }
      if n ≤ c.bits + 1 then .done d else .more d
  | 1 => d.inRun e n (d.lan e).k0 33
  | 2 => d.inRun e n (d.lan e).k1 33
  | _ => d.inRun e n 0 33

/-- A pulse is on its way to its consumers for at most 60 ns (R37). -/
def Dev.inFlight (d : Dev) (line : Nat) : Bool := decide (d.now < (d.line line).sentAt + 614)

/-- WAIT (R389): kind 1 counts only pulses that arrived after it began; whether one on its way has arrived is open (R37). -/
def Dev.execWait (d : Dev) (e w pins : Nat) : Tick :=
  if w.testBit 15 then
    let n := bitsOf w 14 7
    let c := d.lanCur e
    let got := (d.line n).count
    if !c.begun then
      let seen := if d.inFlight n && d.openBool (700 + e) then got - 1 else got
      .wait (d.setCur e { c with begun := true, seen := seen }) 2
    else if c.seen < got && (!d.inFlight n || d.openBool (700 + e)) then .done d
    else .wait d 2
  else
    let (d, ok) := d.lanCond e pins (bitsOf w 10 6)
    if ok then .done d else .wait d 1

/-- PUSH and PULL (R389). -/
def Dev.execFifo (d : Dev) (e w : Nat) : Tick :=
  if w.testBit 15 then
    match d.pull e with
    | some d => .done d
    | none => if w.testBit 14 then .wait d 5 else .done ((d.inc (0x2C00 + e) 0x4C).lanCause e 2)
  else
    match d.push e with
    | some d => .done d
    | none =>
      if w.testBit 14 then .wait d 6
      else .done (((d.setLan e { (d.lan e) with ish := 0, ishN := 0 }).inc (0x2C00 + e) 0x4B).lanCause e 2)

/-- EVT (R389). -/
def Dev.execEvt (d : Dev) (e w : Nat) : Dev :=
  let d := d.pulseIf (w.testBit 6) (240 + e)
  if w.testBit 7 then d.lanCause e 0 else d

/-- One tick of the instruction in progress (R383). -/
def Dev.execTick (d : Dev) (e pins : Nat) : Tick :=
  let c := d.lanCur e
  let w := c.word
  match w % 8 with
  | 0 => .done (d.execEvt e w)
  | 1 => .done (d.execSet e w)
  | 2 => .done (d.execMov e w pins)
  | 3 =>
    let (d, ok) := d.lanCond e pins (bitsOf w 10 6)
    .done (if ok then d.setLan e { (d.lan e) with pc := bitsOf w 15 11 } else d)
  | 4 => d.execWait e w pins
  | 5 =>
    if d.branchMode e && !c.begun then
      let (d, ok) := d.lanCond e pins (bitsOf w 10 6)
      if ok then (d.setCur e { c with begun := true }).execOut e w else .done d
    else d.execOut e w
  | 6 =>
    if d.branchMode e && !c.begun then
      let (d, ok) := d.lanCond e pins (bitsOf w 10 6)
      if ok then (d.setCur e { c with begun := true }).execIn e w pins else .done d
    else d.execIn e w pins
  | _ => d.execFifo e w

/-- The instruction and its delay are complete: an injected one shows in inject_state, unless another is pending (R395). -/
def Dev.lanEnd (d : Dev) (e : Nat) : Dev :=
  let c := d.lanCur e
  let d := d.setLan e { (d.lan e) with cur := none, reason := 0 }
  if c.inj && (d.lan e).inject.isNone then d.setObj (0x2C00 + e) 0x1B (if c.abort then 3 else 2) else d

/-- A tick on the instruction in progress: its delay runs, or it executes (R383, R393). -/
def Dev.lanRun (d : Dev) (e pins : Nat) : Dev :=
  let c := d.lanCur e
  match c.delay with
  | some n => if n ≤ 1 then d.lanEnd e else d.setCur e { c with delay := some (n - 1) }
  | none =>
    match d.execTick e pins with
    | .wait d r => d.setLan e { (d.lan e) with reason := r }
    | .more d => d.setLan e { (d.lan e) with reason := 0 }
    | .done d =>
      let dl := bitsOf c.word 5 3
      if dl = 0 then d.lanEnd e
      else (d.setLan e { (d.lan e) with reason := 0 }).setCur e { (d.lanCur e) with delay := some dl, bits := 0 }

/-- A tick within 25 ns of the last one, or an edge of a pin clock within 50 ns, is dropped (R382). -/
def Dev.tickTooSoon (d : Dev) (e : Nat) : Bool :=
  match (d.lan e).lastTick with
  | some t => decide (d.now < t + if d.obj (0x2C00 + e) 0x0B = 2 then 512 else 256)
  | none => false

/-- The bit clock ticks now (R382): a clock of kind 0 once on each multiple of its length from the enable, one of kind 1 as a pulse of
its timer's line A arrives, one of kind 2 at the edge that the command reports. -/
def Dev.bitClock (d : Dev) (e : Nat) : Option Dev :=
  let i := 0x2C00 + e
  let l := d.lan e
  match d.obj i 0x0B with
  | 0 =>
    if (d.now - l.from_) % (8 * (d.obj i 0x0C + 1)) = 0 && decide (l.from_ < d.now) && decide (l.lastTick ≠ some d.now) then some d
    else none
  | 1 => d.arrives (.lanClock e) (160 + 2 * d.obj i 0x0D)
  | _ => some d

/-- What every tick begins with: none where the engine does not take it. -/
def Dev.tickTaken (d : Dev) (e : Nat) : Dev × Bool :=
  if !d.runs 13 || d.obj (0x2C00 + e) 0x01 = 0 then (d, false)
  else match d.bitClock e with
    | none => (d, false)
    | some d =>
      if d.tickTooSoon e then (((d.inc (0x2C00 + e) 0x4A).setBit (0x2C00 + e) 0x49 5 true).lanCause e 1, false)
      else (d.setLan e { (d.lan e) with lastTick := some d.now }, true)

/-- INJECTION (R395, R396): the tick at which the injected instruction executes: after the one in IR, or in its place. -/
def Dev.injection (d : Dev) (e pins : Nat) : Dev :=
  match (d.lan e).inject with
  | none => d
  | some (w, abort, _) =>
    if (d.lan e).cur.isSome && !abort then d
    else
      let (d, ok) := d.tickTaken e
      if !ok then d
      else
        let l := d.lan e
        let c := d.lanCur e
        let d := if abort then d.setObj (0x2C00 + e) 0x1C (if c.delay.isSome then 0 else c.bits) else d
        (d.setLan e { l with inject := none, ir := w, reason := 0, cur := some { word := w, inj := true, abort := abort } }).lanRun e pins

/-- A pending injection has reached the engine by now, 10 us after its acceptance, and its turn has come (R395). -/
def Dev.injectDue (d : Dev) (e : Nat) : Bool :=
  match (d.lan e).inject with
  | some (_, abort, at_) => decide (at_ + 10 * tqUs ≤ d.now) && (abort || (d.lan e).cur.isNone)
  | none => false

/-- LANTERN_TICK (R383): the engine continues the instruction in progress or fetches the next, or takes an injection that it must take
by now; `pins` holds the levels of the LPIN balls at the tick. -/
def Dev.lanternTick (d : Dev) (e pins : Nat) : Dev :=
  if d.injectDue e then d.injection e pins
  else
    let (d, ok) := d.tickTaken e
    if !ok then d
    else
      let l := d.lan e
      let d := if l.cur.isSome then d else
        let w := d.obj (0x2C00 + e) (0x20 + l.pc)
        d.setLan e { l with ir := w, pc := (l.pc + 1) % 32, cur := some { word := w } }
      d.lanRun e pins

/-- A write of inject: the instruction is pending (R395). -/
def Dev.injectSet (d : Dev) (e v : Nat) : Dev :=
  (d.setLan e { (d.lan e) with inject := some (v % 65536, v.testBit 16, d.now) }).setObj (0x2C00 + e) 0x1B 1

/-- An engine is enabled: its outputs take their idle levels (R381). -/
def Dev.lanOn (d : Dev) (e : Nat) : Dev :=
  d.setLan e { (d.lan e) with pc := d.obj (0x2C00 + e) 0x10, outs := d.obj (0x2C00 + e) 0x06, cur := none, reason := 0
                              from_ := (d.now / 8 + 1) * 8, lastTick := none }

/-- An engine is disabled (R381, R396, R397). -/
def Dev.lanOff (d : Dev) (e : Nat) : Dev :=
  (d.setLan e { (d.lan e) with cur := none, reason := 0, outs := 0, inject := none }).setObj (0x2C00 + e) 0x1B 0

/-! ### The Lantern master (R388) -/

/-- Symbols that a ring holds. -/
def ringLevel (len wr rd : Nat) : Nat := if len = 0 then 0 else (wr + len - rd % len) % len

/-- The ring is full. -/
def ringFull (len wr rd : Nat) : Bool := decide (0 < len) && decide (len - 4 ≤ ringLevel len wr rd)

/-- Symbols that one access may move at a ring index: up to 4, within the ring and within one word. -/
def ringSpan (base len ix n : Nat) : Nat := min (min n 4) (min (len - ix) (8 - (base + ix) % 8))

/-- A receive ring's write index advances; becoming full is counted (R388, R398). -/
def Dev.rxAdvance (d : Dev) (e n : Nat) : Dev :=
  let i := 0x2C00 + e
  let len := d.obj i 0x14
  let was := ringFull len (d.obj i 0x17) (d.obj i 0x18)
  let d := d.setObj i 0x17 ((d.obj i 0x17 + n) % len)
  if ringFull len (d.obj i 0x17) (d.obj i 0x18) && !was then (d.inc i 0x4D).lanCause e 3 else d

/-- FIFO_TRANSFER (R388): `tx` fills the transmit FIFO from its ring, else the receive FIFO drains into its ring. -/
def Dev.fifoTransfer (d : Dev) (m : Store Byte) (e : Nat) (tx : Bool) : Dev × LoftEff :=
  let i := 0x2C00 + e
  let l := d.lan e
  if !d.runs 13 || !d.pdOn 2 || d.obj i 0x01 = 0 then (d, LoftEff.none)
  else if tx then
    let len := d.obj i 0x12
    let rd := d.obj i 0x16
    let n := ringSpan (d.obj i 0x11) len rd (min (4 - l.tx.length) (ringLevel len (d.obj i 0x15) rd))
    if n = 0 then (d, LoftEff.none)
    else (((d.accessBy 13).setLan e { l with tx := l.tx ++ loftBytes m (d.obj i 0x11 + rd) n }).setObj i 0x16 ((rd + n) % len), LoftEff.none)
  else
    let len := d.obj i 0x14
    let wr := d.obj i 0x17
    let n := ringSpan (d.obj i 0x13) len wr (min l.rx.length (len - 4 - ringLevel len wr (d.obj i 0x18)))
    if n = 0 then (d, LoftEff.none)
    else (((d.accessBy 13).setLan e { l with rx := l.rx.drop n }).rxAdvance e n, { writes := [(d.obj i 0x13 + wr, l.rx.take n)] })

/-- Zeroes :4A to :4D and tick_overrun (R400). -/
def Dev.lanternClear (d : Dev) (e : Nat) : Dev := (d.zero (0x2C00 + e) 0x4A 0x4D).setBit (0x2C00 + e) 0x49 5 false

/-- State code of an engine: 0 disabled, 1 running, 2 stalled (R400). -/
def Dev.lanState (d : Dev) (e : Nat) : Nat :=
  if d.obj (0x2C00 + e) 0x01 = 0 then 0 else if (d.lan e).reason ≠ 0 then 2 else 1

/-- The status word of an engine as it is read (R400). -/
def Dev.lanStatus (d : Dev) (e : Nat) : Nat :=
  let i := 0x2C00 + e
  (d.obj i 0x49 &&& 0x20) + 16 * b2n (ringFull (d.obj i 0x14) (d.obj i 0x17) (d.obj i 0x18))
    + 8 * b2n (decide (ringLevel (d.obj i 0x12) (d.obj i 0x15) (d.obj i 0x16) = 0)) + 4 * b2n (d.lan e).inject.isSome
    + 2 * b2n (d.lanState e = 2) + b2n (d.obj i 0x01 = 1)

/-- A reset of PD13 for the engines (R399). -/
def Dev.lanternReset (d : Dev) : Dev := { d with lans := [] }.resetObjs 0x2C00 0x2C07

end Sys2Proof.Machine
end

