-- ==== Sys2Proof/Machine/LoftDma.lean ====
section
/-! DEFINITION. The Loft's arbiter, its error correction and its scrubber, the regions, and the DMA channels (chapter 14). -/

namespace Sys2Proof.Machine

/-- A bank's record. -/
def Dev.lbank (d : Dev) (b : Nat) : LBank := Store.get (fun _ => {}) d.lbanks b

/-- Stores a bank's record. -/
def Dev.setLbank (d : Dev) (b : Nat) (r : LBank) : Dev := { d with lbanks := Store.put (fun _ => {}) d.lbanks b r }

/-- The group of a requester (chapter 14). -/
def loftGroup (who : Nat) : Nat :=
  if who < 16 then 0 else if who < 20 then 1 else if who < 26 then 2 else if who < 30 then 3 else 4

/-- The master identity of a requester (R32): stream hardware, ports, cores, DMA channels, the Lanterns. -/
def loftMaster (who : Nat) : Nat :=
  if who < 20 then 14 else if who < 26 then who - 20 else if who < 30 then who - 18 else if who < 46 then 12 else 13

/-- The bank of an address (R401). -/
def loftBank (a : Nat) : Nat := a / 8 % 8

/-! ### Error correction (R403 to R405) -/

/-- Records a word's address and the time of an error. -/
def Dev.eccNote (d : Dev) (a : Nat) : Dev := (d.setObj 0x2D00 0x10 (a / 8 * 8)).setObj 0x2D00 0x11 d.now

/-- A corrected error (R403): the word is to be rewritten at its bank's next scrubber slot. -/
def Dev.eccCorrected (d : Dev) (a : Nat) : Dev :=
  let b := loftBank a
  let d := (d.inc 0x2D00 0x0E).eccNote a
  let r := d.lbank b
  (d.setLbank b { r with rewrite := a / 8 * 8 :: r.rewrite }).raiseIf (d.bit 0x2D00 0x13 2) 124

/-- A read finds an uncorrectable error (R404). One that the scrubber finds when a read has reported it since the scrubber last came
to the word is not reported again (R424). -/
def Dev.eccBad (d : Dev) (a : Nat) (scrub : Bool) : Dev :=
  let w := a / 8 * 8
  let r := d.lbank (loftBank a)
  let bad := if d.badWords.contains w then d.badWords else w :: d.badWords
  let told := r.told.filter (fun x => decide (x ≠ w))
  let d := { (d.setLbank (loftBank a) { r with told := if scrub then told else w :: told }) with badWords := bad }
  if scrub && r.told.contains w then d else ((d.inc 0x2D00 0x0F).eccNote a).raiseIf (d.bit 0x2D00 0x13 0) 124

/-- Words written whole by a run of `n` symbols from `a`: their errors are gone. -/
def Dev.eccWritten (d : Dev) (a n : Nat) : Dev :=
  { d with badWords := d.badWords.filter (fun w => decide (¬(a ≤ w ∧ w + 8 ≤ a + n))) }

/-- A run of `n` symbols from `a` meets a word whose uncorrectable error has been reported (R404). -/
def Dev.meetsBad (d : Dev) (a n : Nat) : Bool := d.badWords.any (fun w => decide (w < a + n ∧ a < w + 8))

/-- A capture whose samples meet an uncorrectable error is treated as aborted (R404, R282). -/
def Dev.eccCapture (d : Dev) (k : Nat) : Dev :=
  let l := d.lane k
  match l.toSearch with
  | [] => d
  | c :: rest => (d.setLane k { l with toSearch := rest }).cloQueue c.chan (d.aborted c k false)

/-- A frame of a port that meets an uncorrectable error is discarded and counted (R404). -/
def Dev.eccFrame (d : Dev) (p : Nat) : Dev :=
  let d := d.inc (0x1100 + p) 0x05
  if p = 0 then
    let r : Port := Store.get (fun _ => {}) d.ports 0
    { d with ports := Store.put (fun _ => {}) d.ports 0 { r with readout := r.readout.drop 1 } }
  else
    match d.sent.findIdx? (fun (m : Msg) => decide (m.port = p)) with
    | some i => { d with sent := d.sent.eraseIdx i }
    | none => d

/-- A DMA channel's run stops on an uncorrectable error (R423): it stops as cmd 3 would. -/
def Dev.dmaEcc (d : Dev) (c a : Nat) : Dev :=
  let i := 0x2D10 + c
  let d := (((d.setBit i 0x17 4 true).setBit i 0x17 3 true).setObj i 0x1D a).setObj i 0x16 0
  { d with dmas := Store.drop d.dmas c }.raiseIf (d.bit 0x2D00 0x13 1) 124

/-- What an uncorrectable error means for a requester other than a core (R404). -/
def Dev.eccRequester (d : Dev) (r : LoftReq) : Dev :=
  let w := r.who.val
  if w = 18 then (if r.addr / 0x28000 < 16 then d.eccCapture (r.addr / 0x28000) else d)
  else if 20 ≤ w && w < 26 then
    if r.frame then d.eccFrame (w - 20)
    else
      let p : Port := Store.get (fun _ => {}) d.ports (w - 20)
      { d with ports := Store.put (fun _ => {}) d.ports (w - 20) { p with eccHit := true } }
  else if 30 ≤ w && w < 46 then d.dmaEcc (w - 30) r.addr
  else d

/-! ### The arbiter (R410) -/

/-- The group with the largest credit, ties to the lower number. -/
def bestGroup : List (Nat × Int) → Option (Nat × Int)
  | [] => none
  | e :: r =>
    match bestGroup r with
    | some f => if e.2 < f.2 then some f else some e
    | none => some e

/-- The first member of a group after the one granted last, in the order of the table. -/
def nextMember (who : List Nat) (last : Nat) : Nat :=
  match (who.filter (fun w => decide (last < w))).foldl (fun m w => match m with | none => some w | some x => some (min x w)) none with
  | some w => w
  | none => who.foldl (fun m w => min m w) 47

/-- One slot of the arbiter over the requesters active at a bank: the requester granted, or none where the slot is the
scrubber's. -/
def LBank.arbitrate (r : LBank) (who : List Nat) : Option (Nat × LBank) :=
  let a := fun g => who.filter (fun w => decide (loftGroup w = g))
  let n := who.length
  if n = 0 || 1023 ≤ r.since then none
  else
    let credit := (List.range 5).map (fun g => if (a g).isEmpty then 0 else r.credit.getD g 0 + ((a g).length : Int))
    let g := if !(a 0).isEmpty && !((r.hist.take 3).contains 0) then 0
      else ((bestGroup (((List.range 5).map (fun g => (g, credit.getD g 0))).filter (fun e => !(a e.1).isEmpty))).map (·.1)).getD 0
    let w := nextMember (a g) (r.last.getD g 47 % 47)
    let w := if r.last.getD g 47 = 47 then nextMember (a g) 46 else w
    some (w, { r with credit := credit.set g (credit.getD g 0 - n), last := r.last.set g w
                      hist := (g :: r.hist).take 3, since := r.since + 1 })

/-- A granted access (R402): a wait is noted (R412), a read may meet an error, a write takes one slot for a whole word and two
for less. -/
def Dev.loftGrant (d : Dev) (b : Nat) (r : LoftReq) : Dev :=
  let sub := 0x14 + loftGroup r.who.val
  let d := (d.accessBy (loftMaster r.who.val)).setObj 0x2D00 sub (max (d.obj 0x2D00 sub) (min 0xFFFFFFFF (d.now - r.since)))
  let partWrite := r.data.isSome && r.size < 8
  let k := d.lbank b
  let d := if partWrite then d.setLbank b { k with since := k.since + 1, hist := (loftGroup r.who.val :: k.hist).take 3 } else d
  let reads := r.data.isNone || partWrite
  let bad := decide (r.ecc = 2) || d.meetsBad r.addr r.size
  let d := if reads && bad then (d.eccBad r.addr false).eccRequester r
    else if reads && r.ecc = 1 then d.eccCorrected r.addr else d
  if r.data.isSome then d.eccWritten r.addr r.size else d

/-- SCRUB (R405): the bank's slot goes to the scrubber: it rewrites a corrected word that waits, else reads the next word. -/
def Dev.scrub (d : Dev) (b ecc : Nat) : Dev :=
  if !d.runs 2 then d
  else
    let r := d.lbank b
    match r.rewrite with
    | _ :: _ => d.setLbank b { r with rewrite := r.rewrite.dropLast, since := 0, hist := (5 :: r.hist).take 3 }
    | [] =>
      let a := (r.scrubbed % 196608 * 8 + b) * 8
      let passes := fun (d : Dev) => (List.range 8).foldl (fun m k => min m ((d.lbank k).scrubbed / 196608)) (r.scrubbed + 1)
      let was := passes d
      let d := d.setLbank b { r with scrubbed := r.scrubbed + 1, since := 0, hist := (5 :: r.hist).take 3 }
      let d := if was < passes d then d.inc 0x2D00 0x12 else d
      if ecc = 1 then d.eccCorrected a else if ecc = 2 then d.eccBad a true else d

/-- Zeroes :0E, :0F, :12 and :14 to :18 (R427). -/
def Dev.loftClear (d : Dev) : Dev := ((d.zero 0x2D00 0x0E 0x0F).zero 0x2D00 0x12 0x12).zero 0x2D00 0x14 0x18

/-! ### Regions (R406) -/

/-- Every symbol of a run lies within one of some regions of the form (base, length), taken together in rising order. -/
def inRegions (regions : List (Nat × Nat)) (lo hi : Nat) : Bool :=
  regions.any (fun r => decide (r.1 ≤ lo ∧ hi < r.1 + r.2))

/-- Regions that a host window and a linear DMA side may read: capture and sensing lie side by side, as do Lantern and general. -/
def readRegions : List (Nat × Nat) := [(0x000000, 0x380000), (0x700000, 0x500000)]

/-- Regions that a linear DMA side may write. -/
def writeRegions : List (Nat × Nat) := [(0x800000, 0x400000)]

/-- The window may be read (R414). -/
def windowReads (lo n : Nat) : Bool := inRegions readRegions lo (lo + n - 1)

/-- The window lies in the regions that a host may write: Lantern and general (R406). -/
def windowWrites (lo n : Nat) : Bool := inRegions [(0x700000, 0x500000)] lo (lo + n - 1)

/-! ### DMA channels (R415 to R423) -/

/-- A channel's record. -/
def Dev.dma (d : Dev) (c : Nat) : Dma := Store.get (fun _ => {}) d.dmas c

/-- Stores a channel's record. -/
def Dev.setDma (d : Dev) (c : Nat) (r : Dma) : Dev := { d with dmas := Store.put (fun _ => {}) d.dmas c r }

/-- State code of a channel: 0 idle, 1 armed, 2 running. -/
def Dev.dmaState (d : Dev) (c : Nat) : Nat := d.obj (0x2D10 + c) 0x16

/-- The address of an element on one side (R415): base object, first step object. -/
def Dev.dmaAddr (d : Dev) (c base step : Nat) (i0 i1 i2 : Nat) : Int :=
  let i := 0x2D10 + c
  (d.obj i base : Int) + i0 * d.sobj 32 i step + i1 * d.sobj 32 i (step + 1) + i2 * d.sobj 32 i (step + 2)

/-- The symbols of an element. -/
def Dev.dmaSize (d : Dev) (c : Nat) : Nat := 2 ^ d.obj (0x2D10 + c) 0x05

/-- The counts of the three loops. -/
def Dev.dmaCount (d : Dev) (c k : Nat) : Nat := d.obj (0x2D10 + c) (0x06 + k)

/-- The corners of the loop nest. -/
def Dev.dmaCorners (d : Dev) (c : Nat) : List (Nat × Nat × Nat) :=
  let e := fun k => [0, d.dmaCount c k - 1]
  (e 0).flatMap (fun a => (e 1).flatMap (fun b => (e 2).map (fun k => (a, b, k))))

/-- A linear side reaches only what R406 allows it. -/
def Dev.dmaReach (d : Dev) (c base step : Nat) (regions : List (Nat × Nat)) : Bool :=
  let addrs := (d.dmaCorners c).map (fun k => d.dmaAddr c base step k.1 k.2.1 k.2.2)
  let lo := addrs.foldl min (addrs.headD 0)
  let hi := addrs.foldl max (addrs.headD 0) + d.dmaSize c - 1
  decide (0 ≤ lo) && inRegions regions lo.toNat hi.toNat

/-- A ring side is in order (R416). -/
def Dev.dmaRing (d : Dev) (c base step len : Nat) : Bool :=
  let i := 0x2D10 + c
  let e := d.obj i 0x11
  decide (d.obj i 0x05 ≤ 2) && decide (e < 8) && decide (0 < d.obj (0x2C00 + e) len) && d.obj i base == 0
    && (List.range 3).all (fun k => d.obj i (step + k) == 0)

/-- A step lies in the range of R415. -/
def Dev.dmaStepOk (d : Dev) (c k : Nat) : Bool :=
  let s := d.sobj 32 (0x2D10 + c) (0x09 + k)
  decide (-8388608 ≤ s) && decide (s ≤ 8388607)

/-- The descriptor's test for RANGE (R417). -/
def Dev.dmaRangeOk (d : Dev) (c : Nat) : Bool :=
  let i := 0x2D10 + c
  (List.range 3).all (fun k => decide (0 < d.dmaCount c k)) && (List.range 6).all (fun k => d.dmaStepOk c k)
    && (if d.obj i 0x0F = 1 then d.dmaRing c 0x03 0x09 0x14 else d.dmaReach c 0x03 0x09 readRegions)
    && (if d.obj i 0x10 = 1 then d.dmaRing c 0x04 0x0C 0x12 else d.dmaReach c 0x04 0x0C writeRegions)

/-- The descriptor's test for MISALIGNED (R417). -/
def Dev.dmaAligned (d : Dev) (c : Nat) : Bool :=
  let i := 0x2D10 + c
  let n := d.dmaSize c
  decide (d.obj i 0x03 % n = 0) && decide (d.obj i 0x04 % n = 0)
    && (List.range 6).all (fun k => decide (d.sobj 32 i (0x09 + k) % (n : Int) = 0))

/-- A run begins at element (0, 0, 0) (R418). -/
def Dev.dmaBegin (d : Dev) (c : Nat) : Dev := ((d.setDma c {}).setObj (0x2D10 + c) 0x16 2).setObj (0x2D10 + c) 0x18 0

/-- cmd 1 and cmd 2 once the descriptor has passed (R418, R419): credits go to 0. -/
def Dev.dmaArm (d : Dev) (c : Nat) (start : Bool) : Dev :=
  let d := ((d.setObj (0x2D10 + c) 0x1A 0).setObj (0x2D10 + c) 0x16 1).setDma c {}
  if start then d.dmaBegin c else d

/-- cmd 3 (R422): what is copied stays. -/
def Dev.dmaStop (d : Dev) (c : Nat) : Dev :=
  let i := 0x2D10 + c
  let held := if d.dmaState c = 2 && (d.dma c).all then some (d.now, d.bit i 0x17 3) else none
  if d.dmaState c = 0 then d
  else ((d.setBit i 0x17 3 true).setObj i 0x16 0).setDma c { stopped := held }

/-- DMA_START_PULSE (R418). -/
def Dev.dmaStartPulse (d : Dev) (c : Nat) : Dev :=
  if d.runs 2 && d.dmaState c = 1 then d.onPulse (.dmaStart c) (d.obj (0x2D10 + c) 0x12) (fun d => d.dmaBegin c) else d

/-- PACE_PULSE (R419). -/
def Dev.pacePulse (d : Dev) (c : Nat) : Dev :=
  let i := 0x2D10 + c
  if !d.runs 2 then d
  else d.onPulse (.dmaPace c) (d.obj i 0x13) (fun d =>
    if d.obj i 0x1A < 255 then d.setObj i 0x1A (d.obj i 0x1A + 1) else (d.inc i 0x1B).setBit i 0x17 2 true)

/-- The next element waits on its ring (R416). -/
def Dev.dmaRingWait (d : Dev) (c : Nat) : Bool :=
  let i := 0x2D10 + c
  let e := 0x2C00 + d.obj i 0x11
  let n := d.dmaSize c
  d.dmaState c = 2 && !(d.dma c).all &&
  ((d.obj i 0x0F == 1 && decide (ringLevel (d.obj e 0x14) (d.obj e 0x17) (d.obj e 0x18) < n)) ||
   (d.obj i 0x10 == 1 && decide (d.obj e 0x12 - 4 < ringLevel (d.obj e 0x12) (d.obj e 0x15) (d.obj e 0x16) + n)))

/-- The element after one, and which loops it wraps. -/
def Dev.dmaNext (d : Dev) (c : Nat) : Dma × Bool × Bool :=
  let r := d.dma c
  if r.i0 + 1 < d.dmaCount c 0 then ({ r with i0 := r.i0 + 1 }, false, false)
  else if r.i1 + 1 < d.dmaCount c 1 then ({ r with i0 := 0, i1 := r.i1 + 1 }, true, false)
  else if r.i2 + 1 < d.dmaCount c 2 then ({ r with i0 := 0, i1 := 0, i2 := r.i2 + 1 }, true, true)
  else ({ r with all := true }, true, true)

/-- Symbols of a ring from an index on, with the wrap. -/
def ringBytes (m : Store Byte) (base len ix n : Nat) : List Byte := (List.range n).map (fun k => loftByte m (base + (ix + k) % len))

/-- DMA_ELEMENT (R415, R416, R419 to R421, R423): one element is copied and its credit spent. -/
def Dev.dmaElement (d : Dev) (m : Store Byte) (c : Nat) (ecc : Bool) : Dev × LoftEff :=
  let i := 0x2D10 + c
  let r := d.dma c
  let paced := decide (d.obj i 0x13 ≤ 255)
  if !d.runs 2 || d.dmaState c ≠ 2 || r.all || d.obj i 0x02 = 1 || (paced && d.obj i 0x1A = 0) || d.dmaRingWait c then
    (d, LoftEff.none)
  else
    let d := d.accessBy 12
    let n := d.dmaSize c
    let e := 0x2C00 + d.obj i 0x11
    let src := d.obj i 0x0F = 1
    let from_ := if src then d.obj e 0x13 + d.obj e 0x18 else (d.dmaAddr c 0x03 0x09 r.i0 r.i1 r.i2).toNat
    if ecc || d.meetsBad from_ n then ((d.eccBad from_ false).dmaEcc c from_, LoftEff.none)
    else
      let bytes := if src then ringBytes m (d.obj e 0x13) (d.obj e 0x14) (d.obj e 0x18) n else loftBytes m from_ n
      let dst := d.obj i 0x10 = 1
      let writes := if dst then
          ((List.range n).zip bytes).map (fun k => (d.obj e 0x11 + (d.obj e 0x15 + k.1) % d.obj e 0x12, [k.2]))
        else [((d.dmaAddr c 0x04 0x0C r.i0 r.i1 r.i2).toNat, bytes)]
      let d := if src then d.setObj e 0x18 ((d.obj e 0x18 + n) % d.obj e 0x14) else d
      let d := if dst then d.setObj e 0x15 ((d.obj e 0x15 + n) % d.obj e 0x12) else d
      let (r', w0, w1) := d.dmaNext c
      let unit := d.obj i 0x14
      let spent := paced && (unit = 0 || (unit = 1 && w0) || (unit = 2 && w1))
      let d := if spent then d.setObj i 0x1A (d.obj i 0x1A - 1) else d
      ((d.inc i 0x18).setDma c r', { writes := writes })

/-- A run's completion is recorded and pulsed (R422). -/
def Dev.dmaDone (d : Dev) (c : Nat) : Dev := ((d.inc (0x2D10 + c) 0x19).setObj (0x2D10 + c) 0x1C d.now).pulse (224 + c)

/-- DMA_COMPLETE (R422): the last response has returned. At the instant of cmd 3 it counts first (R424): the run has completed, and
only the new run of restart 2 has been stopped. -/
def Dev.dmaComplete (d : Dev) (c : Nat) : Dev :=
  let i := 0x2D10 + c
  match (d.dma c).stopped with
  | some (a, was) =>
    if d.runs 2 && d.dmaState c = 0 && decide (a = d.now) then
      let d := (d.dmaDone c).setDma c {}
      if d.obj i 0x15 = 2 then d.setObj i 0x18 0 else d.setBit i 0x17 3 was
    else d
  | none =>
  if !d.runs 2 || d.dmaState c ≠ 2 || !(d.dma c).all then d
  else
    let d := d.dmaDone c
    match d.obj i 0x15 with
    | 0 => (d.setObj i 0x16 0).setDma c {}
    | 1 => (d.setObj i 0x16 1).setDma c {}
    | _ => d.dmaBegin c

/-- Zeroes :19, :1B and the sticky bits (R428). -/
def Dev.dmaClear (d : Dev) (c : Nat) : Dev := (((d.setObj (0x2D10 + c) 0x19 0).setObj (0x2D10 + c) 0x1B 0)).setObj (0x2D10 + c) 0x17 0

/-- The status word of a channel as it is read (R428). -/
def Dev.dmaStatus (d : Dev) (c : Nat) : Nat :=
  (d.obj (0x2D10 + c) 0x17 &&& 0x1C) + 2 * b2n (d.dmaRingWait c)
    + b2n (d.obj (0x2D10 + c) 0x02 = 1 && !(d.dmaState c = 2 && (d.dma c).all))

/-- A reset of PD2 for this chapter (R426). -/
def Dev.loftReset (d : Dev) : Dev :=
  ({ d with lbanks := [], dmas := [], badWords := [] }.resetObjs 0x2D00 0x2D00).resetObjs 0x2D10 0x2D1F

end Sys2Proof.Machine
end

