-- ==== Sys2Proof/Machine/Irq.lean ====
section
/-! DEFINITION. The interrupt controller's cores, the mailboxes and the doorbells (chapter 15). -/

namespace Sys2Proof.Machine

/-- A core's record. -/
def Dev.core (d : Dev) (c : Nat) : Core := Store.get (fun _ => {}) d.cores c

/-- Stores a core's record. -/
def Dev.setCore (d : Dev) (c : Nat) (r : Core) : Dev := { d with cores := Store.put (fun _ => {}) d.cores c r }

/-- The priority that a presented source has to beat: that of the top, or none (R435). -/
def Core.ceiling (r : Core) : Nat := match r.stack with
  | [] => 16
  | (_, p) :: _ => p

/-- The better of two candidates: the higher priority, then the lower source number (R435). -/
def betterSrc (a b : Nat × Nat) : Nat × Nat := if b.2 < a.2 ∨ (b.2 = a.2 ∧ b.1 < a.1) then b else a

/-- The first of a list of candidates under R435. -/
def bestSrc : List (Nat × Nat) → Option (Nat × Nat)
  | [] => none
  | a :: l => match bestSrc l with
    | none => some a
    | some b => some (betterSrc a b)

/-- Sources pending and not active at a target, with their priorities (R433). -/
def Dev.pendingAt (d : Dev) (tgt : Nat) : List (Nat × Nat) :=
  (d.irq.filter (fun e => decide (e.1 % 16 = tgt) && e.2.pending && !e.2.active)).map (fun e => (e.1 / 16, e.2.prio))

/-- The source that the controller presents to a core (R435, R437). -/
def Dev.presentable (d : Dev) (c : Nat) : Option Nat :=
  if (d.core c).frozen then none
  else (bestSrc ((d.pendingAt c).filter (fun e => decide (e.2 < (d.core c).ceiling)))).map (·.1)

/-- PRESENTATION (R435). -/
def Dev.presentation (d : Dev) (c : Nat) : Dev :=
  if !d.runs 2 || d.coreDown c then d else d.setCore c { (d.core c) with presented := d.presentable c }

/-- The class of the log entry that records a taken source (R431, R483); no class is stated for the others. -/
def Dev.srcClass (d : Dev) (src : Nat) : Nat :=
  if src = 121 then 2 else if src = 122 then 1 else if src = 123 then 0 else if src = 124 then 6 else if src = 125 then 3
  else if src = 127 then 5 else if 40 ≤ src ∧ src ≤ 53 then 4 else if 36 ≤ src ∧ src ≤ 39 then 8
  else d.openNat 151 % 16

/-- CORE_TAKE (R435): the presented source becomes active on the stack; C0's log records the occurrence (R431). -/
def Dev.coreTake (d : Dev) (c : Nat) : Dev :=
  let r := d.core c
  match r.presented with
  | some src =>
    let p := d.pend src c
    if !d.runs 2 || d.coreDown c || r.frozen || !p.pending || p.active || !decide (p.prio < r.ceiling) then d
    else
      let d := d.setPend src c { p with pending := false, active := true }
      let d := d.setCore c { r with stack := (src, p.prio) :: r.stack, presented := none }
      d.logEvent (d.srcClass src) src src p.occ
  | none => d

/-- A completion not at the top (R437): the stack freezes, last_fault and its time are set and source 127 is raised. -/
def Dev.freeze (d : Dev) (c src top : Nat) : Dev :=
  let d := d.setCore c { (d.core c) with frozen := true, presented := none }
  let d := (d.inc (0x2E10 + c) 0x06).inc 0x2E00 0x04
  let d := (d.setObj 0x2E00 0x05 (c * 65536 + src * 256 + top)).setObj 0x2E00 0x06 d.now
  (d.raise 127).logEvent 5 127 127 (c * 65536 + src * 256 + top)

/-- CORE_COMPLETE (R435 to R438): C0 completes source 127 on its fault line; else the top is popped, an inactive source is
ignored, any other freezes the stack. -/
def Dev.coreComplete (d : Dev) (c src : Nat) : Dev :=
  let r := d.core c
  if !d.runs 2 || d.coreDown c then d
  else if c = 0 ∧ src = 127 ∧ d.faultLine then { d with faultLine := false }
  else if r.frozen || !(d.pend src c).active then d.inc (0x2E10 + c) 0x05
  else match r.stack with
    | [] => d.inc (0x2E10 + c) 0x05
    | (top, _) :: rest =>
      if top = src then (d.setPend src c { (d.pend src c) with active := false }).setCore c { r with stack := rest, presented := none }
      else d.freeze c src top

/-- What R439 does to a core: the stack is emptied, its sources are pending again, frozen and fault_line clear. -/
def Dev.stackReset (d : Dev) (c : Nat) : Dev :=
  let r := d.core c
  let d := r.stack.foldl (fun d (e : Nat × Nat) =>
    let p := d.pend e.1 c
    d.setPend e.1 c (if p.pending then { p with active := false } else { p with active := false, pending := true, prio := e.2 })) d
  { d.setCore c { r with stack := [], frozen := false, presented := none } with faultLine := false }

/-- IRQ_CLEAR (R451). -/
def Dev.irqClear (d : Dev) : Dev := d.setObj 0x2E00 0x04 0

/-- STACK_CLEAR (R452). -/
def Dev.stackClear (d : Dev) (c : Nat) : Dev := d.zero (0x2E10 + c) 0x05 0x06

/-- status of the controller object (R451). -/
def Dev.irqStatus (d : Dev) : Nat :=
  d.obj 0x2E00 0x01 + 2 * wordOf 4 (fun c => (d.core c).frozen) + 32 * b2n d.faultLine

/-- The source whose state a bit of a pending or active word shows, at any target (R451). -/
def Dev.srcWord (d : Dev) (blk : Nat) (f : Pend → Bool) : Nat :=
  wordOf 16 (fun j => d.irq.any (fun e => decide (e.1 / 16 = 16 * blk + j) && f e.2))

/-- The stack as its 16 symbols, bottom entry first (R452). -/
def Core.stackBytes (r : Core) : List Byte :=
  let s := (r.stack.map (fun e => BitVec.ofNat 8 e.1)).reverse
  s ++ List.replicate (16 - s.length) 0xFF

/-! ### Mailboxes -/

/-- A mailbox's record. -/
def Dev.mbox (d : Dev) (m : Nat) : Mbox := Store.get (fun _ => {}) d.mboxes m

/-- Stores a mailbox's record. -/
def Dev.setMbox (d : Dev) (m : Nat) (r : Mbox) : Dev := { d with mboxes := Store.put (fun _ => {}) d.mboxes m r }

/-- An accepted send (R445). -/
def Dev.mboxSend (d : Dev) (m : Nat) (msg : List Byte) : Dev :=
  let i := 0x2E40 + m
  let d := (d.setMbox m { full := true, msg := msg }).setObj i 0x07 ((d.obj i 0x07 + 1) % 256)
  ((d.inc i 0x08).setObj i 0x0A d.now).raiseIf (d.bit i 0x03 0) (112 + m / 8)

/-- The word a read of take returns (R446). -/
def Dev.mboxWord (d : Dev) (m : Nat) : Nat :=
  d.obj (0x2E40 + m) 0x07 * 65536 + 256 * b2n (d.mbox m).full + (d.mbox m).msg.length

/-- A read of take (R446): the message leaves the mailbox. -/
def Dev.mboxTake (d : Dev) (m : Nat) : Dev :=
  if (d.mbox m).full then (d.setMbox m {}).raiseIf (d.bit (0x2E40 + m) 0x03 1) 116 else d

/-- status of a mailbox (R454). -/
def Dev.mboxStatus (d : Dev) (m : Nat) : Nat :=
  b2n (d.mbox m).full + 2 * b2n (decide (d.obj (0x2E40 + m) 0x01 ≤ 5) && decide (d.obj (0x2E40 + m) 0x02 ≤ 5))

/-! ### Doorbells -/

/-- RING (R448): for each named bell the bit, its count and its source. -/
def Dev.ringBells (d : Dev) (mask : Nat) : Dev :=
  (maskBits 16 mask).foldl (fun d k => ((d.setBit 0x2E60 0x03 k true).inc 0x2E60 (0x20 + k)).raise (117 + k / 8)) d

/-- ANSWER (R448). -/
def Dev.answerBells (d : Dev) (mask : Nat) : Dev := (maskBits 16 mask).foldl (fun d k => d.setBit 0x2E60 0x03 k false) d

/-- A port is the ringer (or the answerer) of every named bell (R448). -/
def Dev.bellsOf (d : Dev) (port mask : Nat) (ringer : Bool) : Bool :=
  (maskBits 16 mask).all (fun k =>
    let pair := d.obj 0x2E60 (0x10 + k)
    decide ((if ringer then pair / 256 else pair % 256) = port))

end Sys2Proof.Machine
end

