-- ==== Sys2Proof/Machine/Port.lean ====
section
/-! DEFINITION. The ports' shared operations (chapter 02): messages and their symbols, sessions, claims, doze, notification
batches and the Guardian's veto. -/

namespace Sys2Proof.Machine

/-- A port's record. -/
def Dev.port (d : Dev) (p : Nat) : Port := Store.get (fun _ => {}) d.ports p

/-- Stores a port's record. -/
def Dev.setPort (d : Dev) (p : Nat) (r : Port) : Dev := { d with ports := Store.put (fun _ => {}) d.ports p r }

/-- A session is open on a port (R64). -/
def Dev.sessOpen (d : Dev) (p : Nat) : Bool := decide (d.obj (0x1200 + p) 0x01 ≠ 0)

/-- The port dozes (R88). -/
def Dev.dozing (d : Dev) (p : Nat) : Bool := decide (d.obj (0x1200 + p) 0x01 = 2)

/-- A feature is accepted in the port's session (R61 to R63). -/
def Dev.feature (d : Dev) (p word b : Nat) : Bool := d.bit (0x1200 + p) (0x03 + word) b

/-- The device holds P1 to P5 silent in RC fallback (R102). -/
def Dev.rcHold (d : Dev) : Bool := d.bit 0x2000 0x04 3

/-- link_up of P4 or P5 (R57, R102). -/
def Dev.linkUp (d : Dev) (p : Nat) : Bool := (d.port p).linkPhys && !d.rcHold

/-- The port can receive and transmit: its domain is on, and no fallback, bus-off or missing link silences it. -/
def Dev.portTalks (d : Dev) (p : Nat) : Bool :=
  d.pdOn 12 && (decide (p = 0) || (decide (p ≤ 3) && !d.rcHold && !(d.port p).busOff) || (decide (4 ≤ p) && d.linkUp p))

/-! ### Messages -/

/-- A configuration value :10 to :15 in force on a port (R57): the one latched last, and between a reset and the next latch the
object's own value. -/
def Dev.inForce (d : Dev) (p k : Nat) : Nat := (d.port p).latched.getD k (d.obj (0x1100 + p) (0x10 + k))

/-- The role of a PHY (R54): 0x1100+n:14 forces it, or leaves it to the strap. -/
def Dev.phyMaster (d : Dev) (p : Nat) : Bool :=
  let v := d.inForce p 4
  v = 1 || (v ≠ 2 && (d.port p).strapMaster)

/-- The PHYs of P4 and P5 take their roles (R54). -/
def Dev.phyRoles (d : Dev) : Dev :=
  [4, 5].foldl (fun (d : Dev) p => d.setPort p { (d.port p) with master := d.phyMaster p }) d

/-- Takes the port configuration into force (R54, R57). -/
def Dev.latchPorts (d : Dev) : Dev :=
  ((List.range 6).foldl (fun (d : Dev) p =>
    d.setPort p { (d.port p) with latched := (List.range 6).map (fun k => d.obj (0x1100 + p) (0x10 + k)) }) d).phyRoles

/-- The CAN identifier of a port's traffic (R51), with bit 31 for 29 bits, bit 30 for FD and bit 29 for BRS. -/
def Dev.canIdOf (d : Dev) (p base : Nat) : Nat :=
  let id11 := base + d.inForce p 0
  let wide := d.inForce p 1 = 1
  (if wide then withBit ((d.inForce p 2 &&& 0x1FFFF800) ||| id11) 31 else id11) + 2 ^ 30 + 2 ^ 29 * (d.inForce p 5 % 2)

/-- The symbols of a SOP message (R44). -/
def Msg.bytes (m : Msg) : List Byte :=
  [BitVec.ofNat 8 m.op, BitVec.ofNat 8 m.tag] ++ leBytes 2 m.index ++ [BitVec.ofNat 8 m.sub, BitVec.ofNat 8 m.ctl] ++
    leBytes 2 m.data.length ++ m.data

/-- The smallest FD data length that holds `n` symbols (R52). -/
def fdLength (n : Nat) : Nat := (([8, 12, 16, 20, 24, 32, 48, 64] : List Nat).find? (fun k => decide (n ≤ k))).getD n

/-- The data field of the frame that carries a message: on CAN it is padded with 0x00 to an FD length, and a cyclic frame goes
without a SOP header (R52, R83). -/
def Msg.wire (m : Msg) : List Byte :=
  let b := if 1 ≤ m.port ∧ m.port ≤ 3 ∧ m.op = 0x41 then m.data else m.bytes
  if 1 ≤ m.port ∧ m.port ≤ 3 ∧ 8 < b.length then b ++ List.replicate (fdLength b.length - b.length) 0 else b

/-- What the SPI target sends for the head of the read-out queue: length, message, CRC (R47, R49). -/
def spiFrame (m : Option Msg) : List Byte :=
  let b := match m with
    | some m => m.bytes
    | none => []
  let f := leBytes 2 b.length ++ b
  f ++ leBytes 4 (crc32 f)

/-- The symbols of a datagram as the sum of 16-bit words, the first symbol of each more significant (RFC 768). -/
def wordSum : List Byte → Nat
  | a :: b :: bs => a.toNat * 256 + b.toNat + wordSum bs
  | [a] => a.toNat * 256
  | [] => 0

/-- The checksum of a UDP datagram over IPv4 (R55). -/
def udpChecksum (src dst sport dport : Nat) (payload : List Byte) : Nat :=
  65535 - (src / 65536 + src % 65536 + dst / 65536 + dst % 65536 + 17 + 2 * (8 + payload.length) + sport + dport + wordSum payload) % 65535

/-- Where a datagram goes first (R55, R57): to a host of the own network, or of any network without a gateway, itself; else to the
gateway. -/
def Dev.nextHop (d : Dev) (p addr : Nat) : Nat :=
  if addr &&& d.inForce p 1 = d.inForce p 0 &&& d.inForce p 1 ∨ d.inForce p 2 = 0 then addr else d.inForce p 2

/-- A message below SOP that a port sends: ARP (EtherType 0x0806, `ctl` 1 a request, 2 a reply) or an ICMP echo reply (protocol 1). -/
def Dev.netReply (d : Dev) (p kind ctl : Nat) (data : List Byte) : Dev :=
  { d with sent := { port := p, op := 0, tag := 0, index := kind, sub := 0, ctl := ctl, data := data, time := d.now } :: d.sent }

/-- ARP resolves a next hop that it has not resolved yet (R55). -/
def Dev.resolveHop (d : Dev) (p hop : Nat) : Dev :=
  if (d.port p).arp.contains hop then d
  else
    let d := d.netReply p 0x0806 1 (d.blobBytes (0x1100 + p) 0x15 0 6 ++ (leBytes 4 (d.inForce p 0)).reverse ++ (leBytes 4 hop).reverse)
    d.setPort p { (d.port p) with arp := (d.port p).arp ++ [hop] }

/-- A message leaves on P1 to P5; on P4 and P5 as a datagram with its checksum, to its next hop (R55). -/
def Dev.transmit (d : Dev) (m : Msg) : Dev :=
  if 4 ≤ m.port then
    let hop := d.nextHop m.port m.addr
    let m := { m with hop := hop, sum := udpChecksum (d.inForce m.port 0) m.addr (d.inForce m.port 3) m.uport m.bytes }
    let d := d.resolveHop m.port hop
    { d with sent := m :: d.sent }
  else { d with sent := m :: d.sent }

/-- A message is sent: P0 queues it for read-out (R49), the others transmit it. -/
def Dev.post (d : Dev) (m : Msg) : Dev :=
  if m.port = 0 then d.setPort 0 { (d.port 0) with readout := (d.port 0).readout ++ [m] } else d.transmit m

/-- Messages that go out before any other traffic of their port: at P0 they stand first in the read-out queue (R89). -/
def Dev.postFirst (d : Dev) (p : Nat) (ms : List Msg) : Dev :=
  if p = 0 then d.setPort 0 { (d.port 0) with readout := ms ++ (d.port 0).readout } else ms.foldl (fun (d : Dev) m => d.post m) d

/-- The address and UDP port of the session's peer on P4 and P5 (R56). -/
def Dev.peerOf (d : Dev) (p : Nat) : Nat × Nat := (d.obj (0x1200 + p) 0x07, d.obj (0x1200 + p) 0x08)

/-- A message of the device's own on a port, to the session's peer. -/
def Dev.ownMsg (d : Dev) (p base op tag index ctl : Nat) (data : List Byte) : Msg :=
  { port := p, op := op, tag := tag, index := index, sub := 0, ctl := ctl, data := data
    canId := if 1 ≤ p ∧ p ≤ 3 then some (d.canIdOf p base) else none
    addr := (d.peerOf p).1, uport := (d.peerOf p).2, time := d.now }

/-! ### Claims -/

/-- The number of instances of a claim class (R68). -/
def claimCount (cls : Nat) : Nat := [1, 2, 24, 48, 16, 2, 8, 32, 16, 16].getD cls 0

/-- The subindex of the claims table for an instance of a class (R73). -/
def claimSub (cls inst : Nat) : Nat := [0x01, 0x02, 0x04, 0x1C, 0x4C, 0x5C, 0x5E, 0x66, 0x86, 0x96].getD cls 0 + inst

/-- The entry of an instance. -/
def Dev.claimOf (d : Dev) (cls inst : Nat) : Nat := d.obj 0x1700 (claimSub cls inst)

/-- A port holds an active claim. -/
def Dev.owns (d : Dev) (p cls inst : Nat) : Bool := decide (d.claimOf cls inst = p)

/-- Applies a function to every entry of the claims table. -/
def Dev.mapClaims (d : Dev) (f : Nat → Nat) : Dev :=
  (List.range 0xA5).foldl (fun d k => d.setObj 0x1700 (k + 1) (f (d.obj 0x1700 (k + 1)))) d

/-! ### Notifications -/

/-- Entries of a queue that await delivery, in the order of R434, with their sources. -/
def Dev.queueEntries (d : Dev) (n : Nat) : List (Nat × Pend) :=
  let es := (d.irq.filter (fun e => decide (e.1 % 16 = 4 + n) && e.2.pending && !e.2.batched)).map (fun e => (e.1 / 16, e.2))
  (List.range 16).flatMap (fun pr => es.filter (fun e => decide (e.2.prio = pr)))

/-- Entries pending at a queue (R91). -/
def Dev.queuePending (d : Dev) (n : Nat) : Nat := (d.irq.filter (fun e => decide (e.1 % 16 = 4 + n) && e.2.pending)).length

/-- mod_time has elapsed since the oldest pending entry was queued (R86). -/
def Dev.modTimeDue (d : Dev) (n : Nat) : Bool :=
  (d.queueEntries n).any (fun e => decide (e.2.queuedAt + d.obj (0x1600 + n) 0x02 * tqUs ≤ d.now))

/-- A batch is due (R86). -/
def Dev.batchDue (d : Dev) (n : Nat) : Bool :=
  let k := (d.queueEntries n).length
  decide (0 < k) && (decide (d.obj (0x1600 + n) 0x01 ≤ k) || d.modTimeDue n)

/-- The 12 symbols of an entry (R86). -/
def entryBytes (held : Bool) (e : Nat × Pend) : List Byte :=
  leBytes 1 e.1 ++ leBytes 1 (b2n e.2.sat + 2 * b2n held) ++ leBytes 2 e.2.occ ++ leBytes 8 e.2.first

/-- Entries in one NOTIFY message (R86). -/
def notifyMax (p : Nat) : Nat := if p = 0 then 85 else if p ≤ 3 then 4 else 122

/-- An entry is delivered: pending no more, active (R433). -/
def Dev.delivered (d : Dev) (n src : Nat) : Dev :=
  d.setPend src (4 + n) { (d.pend src (4 + n)) with pending := false, active := true, batched := false }

/-- The batch of a queue is sent (R86), before all traffic that waits or behind it. At P0 it is queued for read-out, and its entries
are delivered as it is read. -/
def Dev.sendBatch (d : Dev) (n : Nat) (first : Bool) : Dev :=
  let es := d.queueEntries n
  let r := d.port n
  if es.isEmpty then d.setPort n { r with held := false, hattnHeld := false }
  else
    let msg := fun (part : List (Nat × Pend)) =>
      d.ownMsg n 0x400 0x40 (r.batch % 256) (0x1600 + n) part.length ((part.map (entryBytes r.held)).flatten)
    let msgs := (chunks (notifyMax n) es.length es).map msg
    let d := d.setPort n { r with batch := (r.batch + 1) % 256, held := false, hattnHeld := false }
    let d := if first then d.postFirst n msgs else msgs.foldl (fun (d : Dev) m => d.post m) d
    let d := es.foldl (fun (d : Dev) e =>
      if n = 0 then d.setPend e.1 4 { (d.pend e.1 4) with batched := true } else d.delivered n e.1) d
    (d.inc (0x1600 + n) 0x06).pulse (249 + n)

/-- The batch that fell due is held and HATTNn is asserted (R89). -/
def Dev.holdBatch (d : Dev) (n : Nat) : Dev := d.setPort n { (d.port n) with held := true, hattnHeld := true }

/-- NOTIFY can be sent: an open session that accepts it, on a port that transmits and does not doze (R85, R89). -/
def Dev.notifyOpen (d : Dev) (n : Nat) : Bool := d.sessOpen n && d.feature n 0 3 && d.portTalks n && !d.coreDown 1

/-- A due batch is sent, or held while the port dozes (R86, R89). -/
def Dev.notifyDue (d : Dev) (n : Nat) : Dev :=
  if d.dozing n then (if d.feature n 0 3 then d.holdBatch n else d) else if d.notifyOpen n then d.sendBatch n false else d

/-- NOTIFY (R86): a batch that is due goes out. -/
def Dev.notify (d : Dev) (n : Nat) : Dev := if d.runs 12 && d.runs 2 && d.batchDue n then d.notifyDue n else d

/-- MOD_TIME (R86): the moderation time of the oldest entry elapses. -/
def Dev.modTime (d : Dev) (n : Nat) : Dev := if d.runs 12 && d.runs 2 && d.modTimeDue n then d.notifyDue n else d

/-! ### Doze -/

/-- The port enters doze (R88). -/
def Dev.enterDoze (d : Dev) (p : Nat) : Dev :=
  if d.obj (0x1200 + p) 0x01 = 1 then (d.setObj (0x1200 + p) 0x01 2).setPort p { (d.port p) with dozeSince := d.now } else d

/-- The port leaves doze: the session timeout restarts and a held batch goes first (R60, R88, R89). -/
def Dev.leaveDoze (d : Dev) (p : Nat) : Dev :=
  if d.dozing p then
    let d := (d.setObj (0x1200 + p) 0x01 1).setPort p { (d.port p) with lastFrame := d.now }
    if (d.port p).held && d.notifyOpen p then d.sendBatch p true else d
  else d

/-- A valid SOP frame from the session's peer, or from any peer while no session is open (R60, R88, R442). -/
def Dev.validFrame (d : Dev) (p : Nat) : Dev :=
  let d := d.setPort p { (d.port p) with hattnWake := none, lastFrame := d.now }
  d.leaveDoze p

/-! ### Sessions -/

/-- Veto bits that a write sets are counted and their scope is cut (R74, R76 to R78). -/
def Dev.vetoWritten (d : Dev) (sub old : Nat) : Dev :=
  let new := d.obj 0x1800 sub
  let fresh := (List.range 24).filter (fun k => new.testBit k && !old.testBit k)
  if fresh.isEmpty then d
  else
    let d := d.setObj 0x1800 0x09 (min 0xFFFFFFFF (d.obj 0x1800 0x09 + fresh.length))
    let d := d.setObj 0x1800 0x07 d.now
    let mask := wordOf 24 (fun k => fresh.contains k)
    if sub = 0x04 then d.globalDisarm
    else if sub = 0x05 then d.vetoScope mask 0
    else d.vetoScope 0 mask

/-- The Guardian's session closes with guardian_loss set (R79). -/
def Dev.guardianLoss (d : Dev) (p : Nat) : Dev :=
  if d.obj 0x1800 0x01 = p && d.obj 0x1800 0x08 = 1 then
    let old := d.obj 0x1800 0x04
    (d.setObj 0x1800 0x04 1).vetoWritten 0x04 old
  else d

/-- The domains claimed by a port are disarmed where loss_action says so (R71). -/
def Dev.lossAction (d : Dev) (p : Nat) : Dev :=
  if (d.port p).lossAction = 1 then
    (List.range 2).foldl (fun d k => if d.owns p 1 k then d.disarm k false else d) d
  else d

/-- A session closes for a reason (R60, R64, R66, R70, R71, R79, R90). -/
def Dev.closeSession (d : Dev) (p reason : Nat) : Dev :=
  if d.sessOpen p then
    let d := d.lossAction p
    let d := d.mapClaims (fun e => if e = p then e + 64 else e)
    let d := d.setPort p { (d.port p) with xfer := none, holdSince := d.now }
    let i := 0x1200 + p
    let d := (((d.zero i 0x01 0x08).setObj i 0x0A reason))
    let d := d.guardianLoss p
    d.raiseIf (decide (2 ≤ reason) && decide (reason ≤ 4)) 120
  else d

/-- A session opens (R58 to R60, R70, R84). -/
def Dev.openSession (d : Dev) (p level : Nat) (words : List Nat) (addr uport : Nat) : Dev :=
  let i := 0x1200 + p
  let d := d.mapClaims (fun e => if e = p + 64 then p else e)
  let r := d.port p
  let d := d.setPort p { r with
    timeoutMs := d.obj (0x1100 + p) 0x01, holdMs := d.obj (0x1100 + p) 0x02, lossAction := d.obj (0x1100 + p) 0x03
    dozeMs := d.obj (0x1100 + p) 0x07, lastFrame := d.now, peer := some (addr, uport) }
  let d := (d.setObj i 0x01 1).setObj i 0x02 level
  let d := (List.range 4).foldl (fun d k => d.setObj i (0x03 + k) (words.getD k 0)) d
  ((d.setObj i 0x07 addr).setObj i 0x08 uport).inc i 0x09

/-- A renegotiation (R59, R66): level and features change; without BLOCK the transfer in progress is aborted. -/
def Dev.renegotiate (d : Dev) (p level : Nat) (words : List Nat) : Dev :=
  let i := 0x1200 + p
  let d := d.setObj i 0x02 level
  let d := (List.range 4).foldl (fun d k => d.setObj i (0x03 + k) (words.getD k 0)) d
  if d.feature p 0 1 then d else d.setPort p { (d.port p) with xfer := none }

/-- After the SESSION_OPEN response (R90): a held batch is sent first where NOTIFY is accepted, else HATTNn is released. -/
def Dev.afterOpen (d : Dev) (p : Nat) : Dev :=
  if (d.port p).held then
    if d.notifyOpen p then d.sendBatch p false else d.setPort p { (d.port p) with held := false, hattnHeld := false }
  else d

/-- SESSION_TIMEOUT (R60). -/
def Dev.sessionTimeout (d : Dev) (p : Nat) : Dev :=
  if d.runs 12 && d.obj (0x1200 + p) 0x01 = 1 && decide ((d.port p).lastFrame + (d.port p).timeoutMs * tqMs ≤ d.now) then
    d.closeSession p 2
  else d

/-- DOZE_LIMIT (R60). -/
def Dev.dozeLimit (d : Dev) (p : Nat) : Dev :=
  let r := d.port p
  if d.runs 12 && d.dozing p && decide (r.dozeMs ≠ 0) && decide (r.dozeSince + r.dozeMs * tqMs ≤ d.now) then d.closeSession p 3
  else d

/-- CLAIM_HOLD (R70): the hold expires and the resources become unowned. -/
def Dev.claimHold (d : Dev) (p : Nat) : Dev :=
  if d.runs 12 && !d.sessOpen p && decide ((d.port p).holdSince + (d.port p).holdMs * tqMs ≤ d.now) then
    d.mapClaims (fun e => if e = p + 64 then 0xFF else e)
  else d

/-! ### Reset -/

/-- What PD12 and every device reset do to the ports (R57, R60, R72, R79, R84, R85): sessions close with reason 5, claims
clear, every port object takes its default. The Nightlight keeps its hold on the HATTN pins. -/
def Dev.portsReset (d : Dev) : Dev :=
  let d := (List.range 6).foldl (fun d p => (d.closeSession p 5).raiseIf (decide (4 ≤ p) && d.linkUp p) 120) d
  let d := (List.range 6).foldl (fun (d : Dev) p =>
    let r := d.port p
    d.setPort p { strapMaster := r.strapMaster, master := r.master, hattnWake := r.hattnWake }) d
  let d := { d with cyc := [], irq := d.irq.map (fun (e : Nat × Pend) => (e.1, { e.2 with batched := false })) }
  (d.resetObjs 0x1100 0x17FF).resetObjs 0x1800 0x1800

end Sys2Proof.Machine
end

