-- ==== Sys2Proof/Machine/Sensing.lean ====
section
/-! DEFINITION. Cylinder pressure and vibration (chapter 10): pegging, the angle-synchronous resampler, validity, the results
of a cycle, the feed-forward's torque change (R185, R186), the band windows. -/

namespace Sys2Proof.Machine

/-- The record of a pressure channel. -/
def Dev.press (d : Dev) (c : Nat) : Press := Store.get (fun _ => {}) d.pressures c

/-- Stores the record of a pressure channel. -/
def Dev.setPress (d : Dev) (c : Nat) (p : Press) : Dev := { d with pressures := Store.put (fun _ => {}) d.pressures c p }

/-- Sets a channel's status bit. -/
def Dev.pressBit (d : Dev) (c b : Nat) (on : Bool) : Dev := d.setBit (0x2900 + c) 0x10 b on

/-! ### Windows of angle -/

/-- Where a sample stands to a window. -/
inductive WinEv where
  | out | inside | past
  deriving DecidableEq, Repr

/-- The first angle word at or after a word with given bits 23:0. -/
def atOrAfter (word angle : Nat) : Nat := (word + (angle + auCycle - word % auCycle) % auCycle) % 2 ^ 32

/-- Where a window from an angle on for a length next stands as seen from a word: a word that lies in it has entered it midway. -/
def windowFrom (angle len word : Nat) : Nat :=
  let into := (word + auCycle - angle % auCycle) % auCycle
  if into < len then angleWord ((word : Int) - (into : Nat)) else atOrAfter word angle

/-- A sample at an angle word meets a window from an angle on for a length: the window opens with the first sample that lies in it,
and closes with the first sample past it. -/
def AngWin.step (w : AngWin) (angle len word : Nat) : AngWin × WinEv :=
  let w : AngWin := if w.isOpen then w else
    let s := match w.from_ with
      | some s => if s % auCycle = angle then s else windowFrom angle len word
      | none => windowFrom angle len word
    if 0 ≤ angleDiff word s then { from_ := some s, stop := (s + len) % 2 ^ 32, isOpen := true } else { w with from_ := some s }
  if !w.isOpen then (w, .out)
  else if 0 ≤ angleDiff word w.stop then
    ({ w with isOpen := false, from_ := w.from_.map (fun s => (s + auCycle) % 2 ^ 32) }, .past)
  else (w, .inside)

/-! ### Pegging (R320) -/

/-- The offset that a window gives: none where pegging fails. The rounding of a mean that is no whole number is open. -/
def Dev.pegOffset (d : Dev) (c : Nat) (w : AngWin) : Option Int :=
  if w.n < 2 then none
  else
    let want := roundAway (d.obj (0x2900 + c) 0x07 * 32768 : Nat) (d.obj (0x2900 + c) 0x03 : Nat)
    let o := d.roundOpen (100 + c) ((want : Rat) - (w.sum : Rat) / (w.n : Rat))
    if 8192 < o.natAbs then none else some o

/-- A sample of a pegged channel meets the peg window. -/
def Dev.pegSample (d : Dev) (c tdc word : Nat) (code : Int) : Dev :=
  let p := d.press c
  let start := (((tdc : Int) + d.sobj 32 (0x2900 + c) 0x05) % (auCycle : Int)).toNat
  match p.peg.step start (d.obj (0x2900 + c) 0x06) word with
  | (w, .out) => d.setPress c { p with peg := w }
  | (w, .inside) => d.setPress c { p with peg := { w with n := w.n + 1, sum := w.sum + code } }
  | (w, .past) =>
    match d.pegOffset c w with
    | some o => d.setPress c { p with peg := w, offset := some o }
    | none => (d.setPress c { p with peg := w, pegFail := true, broken := true }).pressBit c 4 true

/-! ### The grid (R321 to R324) -/

/-- G: grid points of a cycle. -/
def gridSize (revs : Nat) : Nat := if revs = 1 then 3600 else 7200

/-- Angle of a grid point from TDC in AU. -/
def gridOff (g i : Nat) : Int := roundAway (((i : Int) - (g / 2 : Nat)) * (auCycle : Nat)) (g : Nat)

/-- The indices of -180 and +180 degrees. -/
def gridHalfTurn (g : Nat) : Nat × Nat := if g = 3600 then (0, 3599) else (1800, 5400)

/-- Loft address of a grid point: the channel's region, its half, its index. -/
def gridAddr (c half g i : Nat) : Nat := 0x280000 + 0x7080 * c + half * 2 * g + 2 * i

/-- The first grid point at or after a word: index and word. -/
def gridFirst (g tdc word : Nat) : Nat × Nat :=
  let rel := (word + 2 * auCycle - tdc % auCycle - auCycle / 2) % auCycle
  let i := (rel * g + auCycle - 1) / auCycle
  let j := if i = 0 then 0 else if (gridOff g (i - 1) + (auCycle / 2 : Nat)) % auCycle ≥ (rel : Int) then i - 1 else i
  let j := if j < g && decide ((gridOff g j + (auCycle / 2 : Nat)) % auCycle < (rel : Int)) then j + 1 else j
  let j := j % g
  (j, atOrAfter word (((tdc : Int) + gridOff g j) % (auCycle : Int)).toNat)

/-- The grid point after one: index and word. -/
def gridNext (g i word : Nat) : Nat × Nat :=
  if i + 1 < g then (i + 1, angleWord (word + (gridOff g (i + 1) - gridOff g i)))
  else (0, angleWord (word + (gridOff g 0 + auCycle - gridOff g (g - 1))))

/-- A range of indices with one more at its end. -/
def gotAdd (got : List (Nat × Nat)) (i : Nat) : List (Nat × Nat) :=
  match got with
  | (lo, hi) :: r => if hi + 1 = i then (lo, i) :: r else (i, i) :: got
  | [] => [(i, i)]

/-- An index was produced. -/
def gotHas (got : List (Nat × Nat)) (i : Nat) : Bool := got.any (fun r => r.1 ≤ i && i ≤ r.2)

/-- The geometry of the domain's synthesiser is complete (R187, R328). -/
def Dev.geometry (d : Dev) (k : Nat) : Bool :=
  let i := 0x2200 + k
  decide (0 < d.obj i 0x0F) && decide (0 < d.obj i 0x10) && decide (0 < d.obj i 0x11) && decide (d.obj i 0x10 < 2 * d.obj i 0x11)

/-- sqrt(1 - lambda^2 sin^2 beta) in fixed point, from the sine. -/
def fxRodRoot (stroke conrod : Nat) (sin : Int) : Int :=
  let l := sin * (stroke : Int) / ((2 * conrod : Nat) : Int)
  (isqrt ((fxOne * fxOne - l * l).toNat) : Nat)

/-- The torque in N·m of a pressure in Pa at an angle from TDC (R185): the area, the crank radius and h. -/
def Dev.gasTorque (d : Dev) (k : Nat) (pa : Rat) (off : Int) : Rat :=
  let i := 0x2200 + k
  let bore := d.obj i 0x0F
  let stroke := d.obj i 0x10
  let conrod := d.obj i 0x11
  let s := fxSin (off * (d.revsOf k : Nat)) auCycle
  let c := fxCos (off * (d.revsOf k : Nat)) auCycle
  let root := fxRodRoot stroke conrod s
  let h := s + (if root = 0 then 0 else fxMul s c * fxOne / root * (stroke : Int) / ((2 * conrod : Nat) : Int))
  pa * ((fxPi * h * (bore * bore * stroke : Nat) : Int) : Rat) / ((8 * fxOne * fxOne : Int) * (10 : Rat) ^ 18)

/-- A grid value in Pa (R319). -/
def Dev.gridPa (d : Dev) (c : Nat) (v : Int) : Rat := ((v * (d.obj (0x2900 + c) 0x03 * 1000 : Nat) : Int) : Rat) / 32768

/-- A grid value in the Loft. -/
def gridValue (m : Store Byte) (c half g i : Nat) : Int := toSigned 16 (ofLe (loftBytes m (gridAddr c half g i) 2))

/-- A result is queued for C2, unless C2 does not run (R329). -/
def Dev.pressResult (d : Dev) (c k tdc : Nat) (final whole valid : Bool) (flags : Nat) : Dev :=
  let p := d.press c
  if d.coreDown 2 then d
  else d.setPress c { p with results := p.results ++ [{ final := final, whole := whole, valid := valid, flags := flags
                                                        half := p.half, tdc := tdc, dom := k, count := p.count }] }

/-- The fault bits of the cycle in progress. -/
def Press.flags (p : Press) : Nat := 4 * b2n p.limp + 8 * b2n p.clip + 16 * b2n p.pegFail

/-- A cycle begins at a grid point (R321): the unfinished one before it ends incomplete. -/
def Dev.gridBegin (d : Dev) (c k tdc : Nat) (g i word : Nat) : Dev :=
  let d := if (d.press c).begun then d.pressResult c k tdc true false false (d.press c).flags else d
  let p := d.press c
  let count := angleWord ((word : Int) - gridOff g i) / auCycle
  d.setPress c { p with begun := true, half := count % 2, count := count, whole := decide (i = 0), clip := false, pegFail := false
                        limp := false, hi := -32768, lo := 32767, got := []
                        gotPrev := if (p.count + 1) % 256 = count then p.got else [] }

/-- The end of a cycle at its last grid point (R323, R327). -/
def Dev.gridEnd (d : Dev) (c k tdc : Nat) : Dev :=
  let p := d.press c
  let flat := decide (p.hi - p.lo < (d.obj (0x2900 + c) 0x0D : Int))
  let valid := p.whole && p.flags == 0 && !flat
  let d := d.pressResult c k tdc true p.whole valid (p.flags + if p.whole && flat then 32 else 0)
  let p := d.press c
  let last := if p.whole then some (p.half, gridSize (d.revsOf k)) else p.lastHalf
  let d := d.setPress c { p with begun := false, lastHalf := last }
  if p.whole then d.pressBit c 1 valid else d

/-- A grid point is produced (R322) with its value; `clipped` says that a sample it is made of is clipped. -/
def Dev.gridPoint (d : Dev) (m : Store Byte) (c k tdc g i word : Nat) (v : Int) (clipped : Bool) : Dev × List (Nat × List Byte) :=
  let p := d.press c
  let count := angleWord ((word : Int) - gridOff g i) / auCycle
  let d := if i = 0 || !p.begun || p.count ≠ count then d.gridBegin c k tdc g i word else d
  let p := d.press c
  let noPeg := decide (d.obj (0x2900 + c) 0x04 = 1) && p.offset.isNone
  let (a, b) := gridHalfTurn g
  let p := { p with clip := p.clip || clipped, pegFail := p.pegFail || noPeg, limp := p.limp || d.domState k = 4
                    hi := if a ≤ i && i ≤ b then max p.hi v else p.hi, lo := min p.lo v, got := gotAdd p.got i }
  let stops := p.clip || p.pegFail || p.broken
  let d := if stops then d.pressBit c 1 false else d
  let counted := d.bit (0x2900 + c) 0x10 1 && gotHas p.gotPrev i
  let dt := if counted then
      d.gasTorque k (d.gridPa c (v - gridValue m c (1 - p.half) g i)) (gridOff g i) else 0
  let d := d.setPress c { p with broken := false, counted := counted, dt := dt, at_ := word, next := some (gridNext g i word) }
  let d := if g = 7200 && i = 5400 && p.whole then d.pressResult c k tdc false true false p.flags else d
  let d := if i + 1 = g then d.gridEnd c k tdc else d
  (d, [(gridAddr c p.half g i, leBytes 2 (ofSigned 16 v))])

/-- The value of a grid point between the last sample and this one, in angle (R322). -/
def gridInterp (lw : Nat) (lv : Int) (w : Nat) (v : Int) (a : Nat) : Int :=
  let span := (angleDiff w lw).toNat
  if span = 0 then v else lv + divNearest ((v - lv) * angleDiff a lw) span

/-- The grid points that a sample passes, up to a bound on their number. -/
def Dev.gridRun (m : Store Byte) (c k tdc g w : Nat) (v : Int) (cl : Bool) : Nat → Dev → Dev × List (Nat × List Byte)
  | 0, d => (d, [])
  | f + 1, d =>
    match (d.press c).next, (d.press c).last with
    | some (i, a), some (lw, lv, lc) =>
      if 0 ≤ angleDiff w a then
        let (d, e) := d.gridPoint m c k tdc g i a (gridInterp lw lv w v a) (cl || lc)
        let (d, e') := Dev.gridRun m c k tdc g w v cl f d
        (d, e ++ e')
      else (d, [])
    | _, _ => (d, [])

/-- A break in production (R323): the cycle in progress is not complete, the window in progress is discarded. -/
def Press.rest (p : Press) : Press :=
  { p with next := none, last := none, peg := {}, whole := false, broken := p.broken || p.next.isSome, counted := false
           from0 := false }

/-- One channel's sample (R318, R320, R322): a clipped sample belongs to the grid points on both sides of it (R327). -/
def Dev.pressSample (d : Dev) (m : Store Byte) (c : Nat) (code : Int) : Dev × List (Nat × List Byte) :=
  let i := 0x2900 + c
  if d.obj i 0x01 = 0 then (d, [])
  else
    let code := clampInt (-32768) 32767 code
    let slot := d.obj i 0x02
    let place := (if slot < 24 then d.slotDom slot else none).bind
      (fun k => if d.domState k = 3 || d.domState k = 4 then some (k, d.obj (0x2180 + k) (0x40 + slot), d.estAt k d.now) else none)
    let d := match place with
      | some (_, tdc, w) => if d.obj i 0x04 = 1 then d.pegSample c tdc w code else d
      | none => d
    let off := if d.obj i 0x04 = 0 then some 0 else (d.press c).offset
    let raw := code + off.getD 0
    let v := clampInt (-32768) 32767 raw
    let cl := decide (code = -32768) || decide (code = 32767) || decide (raw ≠ v)
    let d := ((d.setSobj 16 i 0x0F v).setSobj 16 i 0x19 (off.getD 0)).pressBit c 2 off.isSome
    let d := if cl then (d.inc i 0x1C).pressBit c 3 true else d
    match place with
    | none => ((d.setPress c (d.press c).rest).pressBit c 0 false, [])
    | some (k, tdc, w) =>
      let g := gridSize (d.revsOf k)
      let p := d.press c
      let d := if p.next.isSome then d else
        let nx := if p.from0 then (0, atOrAfter w (((tdc : Int) + gridOff g 0) % (auCycle : Int)).toNat) else gridFirst g tdc w
        d.setPress c { p with next := some nx, from0 := false, last := some (w, v, cl) }
      let (d, e) := Dev.gridRun m c k tdc g w v cl (2 * g) d
      let held := match (d.press c).last with
        | some (_, _, lc) => e.isEmpty && lc
        | none => false
      let d := d.setPress c { (d.press c) with last := some (w, v, cl || held) }
      (d.pressBit c 0 true, e)

/-- Pressure channels mapped to a slot of a domain. -/
def Dev.mappedChannels (d : Dev) (k : Nat) : List Nat :=
  (List.range 24).filter (fun c => decide (d.obj (0x2900 + c) 0x02 < 24) && d.slotDom (d.obj (0x2900 + c) 0x02) == some k)

/-- The channel counts for the feed-forward (R185, R187). -/
def Dev.pressCounts (d : Dev) (c : Nat) : Bool :=
  d.obj (0x2900 + c) 0x01 == 1 && d.bit (0x2900 + c) 0x10 1 && (d.press c).counted

/-- The feed-forward of a domain takes up its channels' latest grid samples (R186, R187): their torque change holds from the time at
which the crank passed their angle. -/
def Dev.ffUpdate (d : Dev) (k : Nat) : Dev :=
  let chans := d.mappedChannels k
  let live := chans.filter d.pressCounts
  let dt := live.foldl (fun s c => s + (d.press c).dt) 0
  let y := d.synth k
  let far := live.foldl (fun w c => if 0 < angleDiff (d.press c).at_ w then (d.press c).at_ else w)
    (match live with | c :: _ => (d.press c).at_ | [] => y.ffTo)
  let end_ := if live.isEmpty then y.ffTo else (far + d.obj (0x2200 + k) 0x17) % 2 ^ 32
  let moved := decide (y.ffDt ≠ dt) || decide (y.ffTo ≠ end_)
  let d := (d.setSynth k { y with ffDt := dt, ffTo := end_, ffMapped := chans.length, ffCounted := live.length }).synthStatus k
  let passed := max (d.synth k).tk ((d.modelOf k).timeAt (angleDiff far (d.synth k).word))
  if moved then d.ffFrom k (if live.isEmpty then d.now else min d.now passed) else d

/-- PRESSURE_SAMPLE (R318): the sample instants are the multiples of 51 200 TQ; every converter delivers a code. -/
def Dev.pressureSample (d : Dev) (m : Store Byte) (t : Nat) (codes : List Int) : Dev × LoftEff :=
  if !d.runs 11 || decide (t % 51200 ≠ 0) then (d, LoftEff.none)
  else
    let (d, e) := (List.range 24).foldl (fun (a : Dev × List (Nat × List Byte)) c =>
      let (d, e) := a.1.pressSample m c (codes.getD c 0)
      (d, a.2 ++ e)) (d, [])
    let d := if d.pdOn 2 && !e.isEmpty then d.accessBy 14 else d
    ((d.ffUpdate 0).ffUpdate 1, if d.pdOn 2 then { writes := e } else LoftEff.none)

/-- A write to slot or to the slot's TDC: the cycle in progress is not complete; of a channel that produces, the new grid starts at
its point 0 (R335). -/
def Dev.gridRestart (d : Dev) (c : Nat) : Dev :=
  let p := d.press c
  d.setPress c { p with whole := false, next := none, last := none, from0 := p.from0 || p.next.isSome, peg := {} }

/-- A write to full_scale or peg_mode: the cycle in progress is not complete (R327). With peg_mode the peg windows start afresh. -/
def Dev.gridSpoil (d : Dev) (c : Nat) (mode : Bool) : Dev :=
  let p := d.press c
  d.setPress c { p with whole := false, peg := if mode then {} else p.peg }

/-- A write of enable (R320): a channel has no offset from its enable until its first successful peg. -/
def Dev.pressEnable (d : Dev) (c : Nat) (on : Bool) : Dev :=
  let p := d.press c
  let d := d.setPress c { p.rest with offset := none, broken := false, begun := false }
  let d := if on then d else ((d.pressBit c 0 false).pressBit c 1 false).pressBit c 2 false
  (d.ffUpdate 0).ffUpdate 1

/-! ### Results (R328, R329) -/

/-- v(i) / vd in fixed point. -/
def Dev.cylVolume (d : Dev) (c k : Nat) (off : Int) : Int :=
  let i := 0x2200 + k
  let stroke := d.obj i 0x10
  let conrod := d.obj i 0x11
  let s := fxSin (off * (d.revsOf k : Nat)) auCycle
  let co := fxCos (off * (d.revsOf k : Nat)) auCycle
  let rod := (fxOne - fxRodRoot stroke conrod s) * ((2 * conrod : Nat) : Int) / (stroke : Int)
  fxOne * 100 / ((d.obj (0x2900 + c) 0x08 : Int) - 100) + (fxOne - co + rod) / 2

/-- The sum of (p(i) + p(i + 1)) * (x(i + 1) - x(i)) over a run of (p, x). -/
def workSum : List (Int × Int) → Int
  | (p, x) :: (q, y) :: r => (p + q) * (y - x) + workSum ((q, y) :: r)
  | _ => 0

/-- The heat release qc over a run of (p, x) from a value on, scaled by 2 * (gamma - 1000) (R328). -/
def heatRun (gam : Int) : List (Int × Int) → Int → List Int
  | (p, x) :: (q, y) :: r, acc =>
    let n := acc + gam * (p + q) * (y - x) + 1000 * (x + y) * (q - p)
    acc :: heatRun gam ((q, y) :: r) n
  | [_], acc => [acc]
  | [], _ => []

/-- An integer result of C2 that the I32 holds. -/
def toI32 (x : Int) : Int := clampInt (-2147483648) 2147483647 x

/-- mfb50 in AU from TDC; none without combustion (R328). -/
def heatHalf (qs : List Int) (offs : List Int) : Option Int :=
  let qm := qs.foldl max 0
  if qm ≤ 0 then none
  else
    let j := (qs.findIdx? (fun q => decide (qm ≤ 2 * q))).getD 0
    let a0 := offs.getD (j - 1) 0
    let a1 := offs.getD j 0
    let q0 := qs.getD (j - 1) 0
    let q1 := qs.getD j 0
    some (nearestRat ((a0 : Rat) + ((qm : Rat) / 2 - q0) / (q1 - q0) * (a1 - a0)))

/-- The first write of a cycle's results: peak, peak_angle, imep_g and mfb50, from the grid between -180 and +180 degrees, with
over_pressure (R328). Answers the flags it adds. -/
def Dev.resultsMain (d : Dev) (m : Store Byte) (c : Nat) (r : PressRes) : Dev × Nat :=
  let i := 0x2900 + c
  let g := gridSize (d.revsOf r.dom)
  let (a, b) := gridHalfTurn g
  let ixs := (List.range (b + 1 - a)).map (· + a)
  let ps := ixs.map (fun j => gridValue m c r.half g j)
  let (pi, pk) := firstMax ps 0 (0, ps.headD 0)
  let d := (d.setSobj 16 i 0x12 pk).setSobj 32 i 0x13 (gridOff g (a + pi))
  let lim := d.obj i 0x0C
  let hot := decide (0 < lim) && decide ((lim * 32768 : Nat) ≤ pk * (d.obj i 0x03 : Nat))
  let d := if hot then (d.pressBit c 5 true).raiseIf (d.bit i 0x0E 2) 66 else d
  let (d, fl) :=
    if d.geometry r.dom then
      let xs := ixs.map (fun j => d.cylVolume c r.dom (gridOff g j))
      let px := ps.zip xs
      let imep := d.roundOpen (200 + c) (((workSum px * (d.obj i 0x03 * 1000 : Nat) : Int) : Rat) / ((2 * 32768 : Nat) * fxOne : Int))
      let lo := d.sobj 32 i 0x0A
      let hi := d.sobj 32 i 0x0B
      let part := (ixs.zip px).filter (fun e => decide (lo ≤ gridOff g e.1) && decide (gridOff g e.1 ≤ hi))
      let qs := heatRun (d.obj i 0x09 : Nat) (part.map (·.2)) 0
      let half := heatHalf qs (part.map (fun e => gridOff g e.1))
      let d := (d.setSobj 32 i 0x14 (toI32 imep)).setSobj 32 i 0x16 (toI32 (half.getD 0))
      (d, if half.isNone then 128 else 0)
    else ((d.setObj i 0x14 0).setObj i 0x16 0, 64)
  (d, fl + if hot then 256 else 0)

/-- The last write of a cycle's results: imep_n and torque_mean (R328). -/
def Dev.resultsLast (d : Dev) (m : Store Byte) (c : Nat) (r : PressRes) : Dev :=
  let i := 0x2900 + c
  let g := gridSize (d.revsOf r.dom)
  if d.geometry r.dom then
    let ixs := List.range g
    let ps := ixs.map (fun j => gridValue m c r.half g j)
    let xs := ixs.map (fun j => d.cylVolume c r.dom (gridOff g j))
    let imep := d.roundOpen (300 + c)
      (((workSum (ps.zip xs) * (d.obj i 0x03 * 1000 : Nat) : Int) : Rat) / ((2 * 32768 : Nat) * fxOne : Int))
    let kpa : Rat := (d.obj (0x2200 + r.dom) 0x12 * 1000 : Nat)
    let sum : Int := (ps.zip ixs).foldl (fun s e =>
      s + (d.gasTorque r.dom (d.gridPa c e.1 - kpa) (gridOff g e.2) * (fxOne : Int)).floor) 0
    let mean := d.roundOpen (400 + c) ((100 * sum : Int) / ((g : Int) * fxOne : Int))
    (d.setSobj 32 i 0x15 (toI32 imep)).setSobj 32 i 0x17 (toI32 mean)
  else (d.setObj i 0x15 0).setObj i 0x17 0

/-- The result written for a cycle whose last grid point is done (R328, R329). -/
def Dev.resultsFinal (d : Dev) (m : Store Byte) (c : Nat) (r : PressRes) : Dev :=
  let i := 0x2900 + c
  if !r.whole then d.setObj i 0x18 r.flags
  else
    let (d, extra) := if gridSize (d.revsOf r.dom) = 3600 then d.resultsMain m c r
      else (d, (d.obj i 0x18 &&& 0x180) + if d.geometry r.dom then 0 else 64)
    let d := d.resultsLast m c r
    let d := (d.setObj i 0x18 (1 + 2 * b2n r.valid + r.flags + extra)).setObj i 0x11 r.count
    let d := d.inc i (if r.valid then 0x1A else 0x1B)
    let d := d.raiseIf (d.bit i 0x0E 0) 64
    d.raiseIf (d.bit i 0x0E 1 && decide (r.flags &&& 0x38 ≠ 0)) 65

/-- CYCLE_RESULTS (R328, R329): C2 writes the oldest results of a channel that it has to write; without C2 none is written and
those cycles are not processed later. -/
def Dev.cycleResults (d : Dev) (m : Store Byte) (c : Nat) : Dev :=
  let p := d.press c
  match p.results with
  | [] => d
  | r :: rest =>
    let d' := d.setPress c { p with results := rest }
    if !d.runs 11 then d
    else if d.coreDown 2 then d'
    else if r.final then d'.resultsFinal m c r
    else
      let (e, fl) := d'.resultsMain m c r
      (e.setObj (0x2900 + c) 0x18 (r.flags + fl)).setObj (0x2900 + c) 0x11 r.count

/-- Zeroes :1A to :1C and the sticky bits (R338). -/
def Dev.pressureClear (d : Dev) (c : Nat) : Dev :=
  (d.zero (0x2900 + c) 0x1A 0x1C).setObj (0x2900 + c) 0x10 (d.obj (0x2900 + c) 0x10 &&& 0x7)

/-- grid_last as it is read: the half of the last complete cycle (R324). -/
def Dev.gridLast (d : Dev) (m : Store Byte) (c : Nat) : List Byte :=
  match (d.press c).lastHalf with
  | none => List.replicate 14400 0
  | some (h, g) =>
    let b := loftBytes m (gridAddr c h g 0) (2 * g)
    b ++ List.replicate (14400 - 2 * g) 0

/-! ### Vibration (R330 to R334) -/

/-- A band's record. -/
def Dev.band (d : Dev) (v k : Nat) : Band := Store.get (fun _ => {}) d.vib (4 * v + k)

/-- Stores a band's record. -/
def Dev.setBand (d : Dev) (v k : Nat) (b : Band) : Dev := { d with vib := Store.put (fun _ => {}) d.vib (4 * v + k) b }

/-- Brings the bits clip and incomplete of a channel up to date. -/
def Dev.vibStatus (d : Dev) (v : Nat) : Dev :=
  let d := d.setBit (0x2920 + v) 0x06 4 ((List.range 4).any (fun k => (d.band v k).lastClip))
  d.setBit (0x2920 + v) 0x06 5 ((List.range 4).any (fun k => (d.band v k).lastInc))

/-- A band's window is discarded (R332, R335). -/
def Dev.bandDiscard (d : Dev) (v k : Nat) : Dev :=
  let b := d.band v k
  if b.win.isOpen then (d.setBand v k { b with win := {}, written := false, lastInc := true }).vibStatus v
  else d.setBand v k { b with win := {}, written := false }

/-- The first sample past a band's window (R332): the mean of the squared outputs, truncated and saturating; of a window without
samples it is not stated. -/
def Dev.bandClose (d : Dev) (v k : Nat) (b : Band) (w : AngWin) : Dev :=
  let i := 0x2920 + v
  let e := if w.n = 0 then d.openNat (500 + k) % 2 ^ 32 else min 0xFFFFFFFF (w.sum.toNat / w.n)
  let d := (d.setBand v k { b with win := w, lastClip := b.clip, lastInc := false, clip := false, raw := false }).vibStatus v
  let top := d.band v 0
  let d := if b.raw then
      (d.setBand v 0 { top with rawHigh := max top.rawHigh (min 4096 w.n) }).setObj i 0x31 (min 4096 w.n) else d
  let d := d.setObj i (0x16 + 8 * k) e
  let hit := decide (0 < b.threshold) && decide (b.threshold ≤ e)
  let d := d.setBit i 0x06 k hit
  if hit then (d.inc i (0x17 + 8 * k)).raiseIf (d.bit i 0x05 0) 67 else d

/-- A sample meets a band: its window's configuration is taken at the opening, a write applies from the next window that has not
yet opened (R333); the filter's output is open. -/
def Dev.bandSample (d : Dev) (v k dom : Nat) (code : Int) (cl : Bool) : Dev × List (Nat × List Byte) :=
  let i := 0x2920 + v
  let b := d.band v k
  let slot := d.obj i (0x10 + 8 * k)
  if slot = 0xFF && !b.win.isOpen then (d, [])
  else
    let start := (((d.obj (0x2180 + dom) (0x40 + slot) : Int) + d.sobj 32 i (0x11 + 8 * k)) % (auCycle : Int)).toNat
    let was := b.win.isOpen
    let word := d.estAt dom d.now
    let b := if b.written && !was then { b with win := { from_ := some (atOrAfter word start) }, written := false } else b
    let (w, ev) := b.win.step start (d.obj i (0x12 + 8 * k)) word
    let b := if was || !(w.isOpen || ev = .past) then b
      else { b with threshold := d.obj i (0x15 + 8 * k), clip := false, raw := decide (d.obj i 0x30 = k) }
    match ev with
    | .out => (d.setBand v k { b with win := w }, [])
    | .inside =>
      let y := d.openInt (600 + k)
      let eff := if b.raw && w.n < 4096 then [(0x330000 + 0x2000 * v + 2 * w.n, leBytes 2 (ofSigned 16 code))] else []
      (d.setBand v k { b with win := { w with n := w.n + 1, sum := w.sum + y * y }, clip := b.clip || cl }, eff)
    | .past => (d.bandClose v k b w, [])

/-- VIBRATION_SAMPLE (R330): the sample instants are the multiples of 10 240 TQ. -/
def Dev.vibrationSample (d : Dev) (v t : Nat) (code : Int) : Dev × LoftEff :=
  let i := 0x2920 + v
  if !d.runs 11 || decide (t % 10240 ≠ 0) || decide (d.obj i 0x01 = 0) then (d, LoftEff.none)
  else
    let code := clampInt (-32768) 32767 code
    let cl := decide (code = -32768) || decide (code = 32767)
    let d := if cl then (((d.setBit i 0x06 4 true).setBit i 0x06 6 true).inc i 0x07).raiseIf (d.bit i 0x05 1) 68 else d
    let dom := d.obj i 0x02
    if dom < 2 && (d.domState dom = 3 || d.domState dom = 4) then
      let (d, e) := (List.range 4).foldl (fun (a : Dev × List (Nat × List Byte)) k =>
        let (d, e) := a.1.bandSample v k dom code cl
        (d, a.2 ++ e)) (d, [])
      (if d.pdOn 2 && !e.isEmpty then d.accessBy 14 else d, if d.pdOn 2 then { writes := e } else LoftEff.none)
    else ((List.range 4).foldl (fun d k => d.bandDiscard v k) d, LoftEff.none)

/-- A vibration channel is disabled: open windows are discarded with incomplete (R335). -/
def Dev.vibDisable (d : Dev) (v : Nat) : Dev := (List.range 4).foldl (fun d k => d.bandDiscard v k) d

/-- Zeroes :07, every exceeds and the sticky bits of a vibration channel (R339). -/
def Dev.vibrationClear (d : Dev) (v : Nat) : Dev :=
  let i := 0x2920 + v
  let d := (List.range 4).foldl (fun d k => d.setObj i (0x17 + 8 * k) 0) (d.setObj i 0x07 0)
  d.setBit i 0x06 6 false

/-- A band of a vibration channel has been written: the write applies from the next window that has not yet opened (R333). -/
def Dev.bandWritten (d : Dev) (v k : Nat) : Dev := d.setBand v k { (d.band v k) with written := true }

/-- raw_capture as it is read (R334): zeros where no window since the last reset of PD11 has copied a code (R337). -/
def Dev.rawCapture (d : Dev) (m : Store Byte) (v : Nat) : List Byte :=
  let n := 2 * (d.band v 0).rawHigh
  loftBytes m (0x330000 + 0x2000 * v) n ++ List.replicate (8192 - n) 0

/-- A reset of PD11 (R337). -/
def Dev.sensingReset (d : Dev) : Dev :=
  let d := ({ d with pressures := [], vib := [] }.resetObjs 0x2900 0x2917).resetObjs 0x2920 0x2927
  (d.ffUpdate 0).ffUpdate 1

end Sys2Proof.Machine
end

