-- ==== Sys2Proof/Machine/Sync.lean ====
section
/-! DEFINITION. Wheel inputs and engine synchronisation (chapter 04): conditioning, filter and plausibility of edges, the
matchers, the state machine of a domain, the reverse test. -/

namespace Sys2Proof.Machine

/-- The record of a wheel input. -/
def Dev.wheel (d : Dev) (n : Nat) : Wheel := Store.get (fun _ => {}) d.wheels n

/-- Stores the record of a wheel input. -/
def Dev.setWheel (d : Dev) (n : Nat) (w : Wheel) : Dev := { d with wheels := Store.put (fun _ => {}) d.wheels n w }

/-- The record of a domain. -/
def Dev.dom (d : Dev) (k : Nat) : Dom := Store.get (fun _ => {}) d.doms k

/-- Stores the record of a domain. -/
def Dev.setDom (d : Dev) (k : Nat) (m : Dom) : Dev := { d with doms := Store.put (fun _ => {}) d.doms k m }

/-! ### Matchers (R142, R144 to R146) -/

/-- All candidates share one edge of the pattern. -/
def Matcher.shared (m : Matcher) (edges : Nat) : Bool :=
  match m.cands with
  | [] => false
  | c :: cs => cs.all (fun x => x % edges = c % edges)

/-- A matcher with every candidate and no edge. -/
def Matcher.fresh (total : Nat) : Matcher := { cands := List.range total }

/-- An accepted edge on a matcher of a pattern with intervals `iv` and `total` candidates; true if the run restarts. -/
def Matcher.step (iv : List Nat) (total tol : Nat) (m : Matcher) (stamp : Nat) : Matcher × Bool :=
  if m.count = 0 then ({ m with count := 1, last := stamp }, false)
  else if m.count = 1 then ({ m with count := 2, prev := m.last, last := stamp }, false)
  else
    let a := stamp - m.last
    let b := m.last - m.prev
    let next := (m.cands.map (fun c => (c + 1) % total)).filter (fun c =>
      let (x, y) := ratioAt iv (c % iv.length)
      ratioMatch tol a b x y)
    if next.isEmpty then ({ cands := List.range total, count := 1, last := stamp, emptied := true }, true)
    else ({ m with cands := next, count := m.count + 1, prev := m.last, last := stamp
                   conf := if m.shared iv.length then m.conf + 1 else m.conf }, false)

/-- The matcher holds one edge after enough confirmations. -/
def Matcher.confirmed (m : Matcher) (edges need : Nat) : Bool := m.shared edges && decide (need ≤ m.conf)

/-! ### Status -/

/-- Crank candidates of a domain: pairs of edge and phase. -/
def Pat.total (p : Pat) : Nat := p.edges * p.revs

/-- limp_capable (R141). -/
def Pat.limpCapable (p : Pat) : Bool := p.camIn.isSome && decide (4 ≤ p.cam.length)

/-- Brings limp_available up to date (R166). -/
def Dev.limpStatus (d : Dev) (k : Nat) : Dev :=
  d.setBit (0x2180 + k) 0x11 1 (d.obj (0x2180 + k) 0x06 = 1 && (d.pat k).limpCapable && d.bit (0x2180 + k) 0x11 4)

/-- Shows the phase of edge `c`, where it is known, and its position, if the edge there has matched (R166). -/
def Dev.showPos (d : Dev) (k c : Nat) (phaseKnown isMatch : Bool) : Dev :=
  let p := d.pat k
  let i := 0x2180 + k
  let d := if isMatch then d.setObj i 0x12 (p.crank.getD (c % p.edges) 0 / 64) else d
  let d := d.setObj i 0x13 (if phaseKnown then c / p.edges else 0xFF)
  (d.setBit i 0x11 2 true).setBit i 0x11 3 phaseKnown

/-- The position is not known. -/
def Dev.hidePos (d : Dev) (k : Nat) : Dev :=
  let i := 0x2180 + k
  (((d.setObj i 0x12 0xFFFF).setObj i 0x13 0xFF).setBit i 0x11 2 false).setBit i 0x11 3 false

/-- Edges of a domain's inputs count afresh (R130). -/
def Dev.restartSeen (d : Dev) (k : Nat) : Dev :=
  (d.inputsOf k 0 ++ d.inputsOf k 1 ++ d.inputsOf k 2).foldl (fun d n => d.setWheel n { (d.wheel n) with seen := 0 }) d

/-- The objects' part of a change of state: code, time, source and lines (R151, R163). -/
def Dev.stateSet (d : Dev) (k new : Nat) (stall : Bool) : Dev :=
  let i := 0x2180 + k
  let d := (d.setObj i 0x10 new).setObj i 0x1B d.now
  let b := if new = 0 then 5 else new - 1
  let d := d.raiseIf (stall || d.bit i 0x0E b) k
  let d := d.pulseIf (new = 3) (12 + k)
  d.pulseIf (new = 5 || new = 0) (14 + k)

/-- Entry to STOPPED, SEARCH or LOSS: no angle, no speed, cam_matched cleared (R149, R160). -/
def Dev.angleLost (d : Dev) (k : Nat) : Dev :=
  let i := 0x2180 + k
  let m := d.dom k
  let d := d.setDom k { m with stamps := [], camStamps := [], camLast := none, camIval := none, camNext := none, camSeen := []
                               cycleWhole := false, patErrs := 0, camMiss := 0, camFails := 0, searchEdges := 0
                               searchNoted := false, crankRun := [], camRun := [] }
  let d := ((d.hidePos k).setObj i 0x14 0).setBit i 0x11 4 false
  ((d.limpStatus k).restartSeen k)

/-- Entry to LOSS with a cause (R151); a further cause at the same instant counts if it comes first in the order of R152. Only a
configuration change moves a domain in LOSS, afresh. -/
def Dev.toLoss (d : Dev) (k cause : Nat) : Dev :=
  let i := 0x2180 + k
  let st := d.domState k
  if st = 0 then d
  else if st = 5 && d.obj i 0x1B = d.now then
    if cause < d.obj i 0x15 then d.setObj i 0x15 cause else d
  else if st = 5 && cause ≠ 3 then d
  else
    let d := ((d.stateSet k 5 false).setObj i 0x15 cause).inc i 0x16
    let d := (d.angleLost k).synthStop k
    let d := d.setDom k { (d.dom k) with dwellDone := false }
    d.schedState k st 5

/-- Entry to STOPPED by a stall (R133, R157, R179, R180). -/
def Dev.toStopped (d : Dev) (k : Nat) : Dev :=
  let i := 0x2180 + k
  let st := d.domState k
  let long := decide ((d.dom k).leftStopped + 600 * tqSec ≤ d.now)
  let d := (d.stateSet k 0 true).setObj i 0x15 9
  let d := ((d.setBit i 0x11 7 true).setBit i 0x11 8 false)
  let d := ((d.angleLost k).learnAbort k).synthStop k
  let d := d.setDom k { (d.dom k) with revCrank := none, revCam := none, dwellDone := false }
  let d := if long then d.learnPend else d
  d.schedState k st 0

/-- Entry to SEARCH by an accepted edge of an input (R142, R146, R153). -/
def Dev.toSearch (d : Dev) (k n : Nat) : Dev :=
  let p := d.pat k
  let st := d.domState k
  let d := d.sigCheck k
  let d := d.stateSet k 1 false
  let d := (d.angleLost k).synthStop k
  let m := d.dom k
  let d := d.setDom k { m with crank := Matcher.fresh p.total, cam := Matcher.fresh p.cam.length
                               leftStopped := if st = 0 then d.now else m.leftStopped }
  let d := d.setWheel n { (d.wheel n) with seen := 1 }
  d.schedState k st 1

/-! ### Expected intervals (R130) -/

/-- The word at which crank edge `c` falls next after the present position. -/
def Dev.crankTarget (d : Dev) (k c : Nat) : Nat := nextCrossing (d.dom k).curWord (d.snapAngle k c)

/-- The cam edge expected after the last accepted one. -/
def Dev.camExpected (d : Dev) (k last : Nat) : Nat :=
  let p := d.pat k
  match (d.dom k).camNext with
  | some j => j % p.cam.length
  | none =>
    let a := d.estAt k last % auCycle + p.window
    ((List.range p.cam.length).find? (fun j => decide (a < (p.cam.getD j (0, false)).1))).getD 0

/-- The angle word of the cam edge accepted last, from which the next one is looked for: the crossing of the pattern edge that it
matched, else the estimate at its stamp, beyond its own window where nothing tells whether it matched. -/
def Dev.camFrom (d : Dev) (k last : Nat) : Nat :=
  let p := d.pat k
  let m := d.dom k
  let est := d.estAt k last
  match m.camLast with
  | some (j, s) =>
    if s = last then nextCrossing ((est + 2 ^ 32 - p.window - 1) % 2 ^ 32) (p.cam.getD j (0, false)).1
    else if m.camNext.isSome then est else (est + p.window) % 2 ^ 32
  | none => if m.camNext.isSome then est else (est + p.window) % 2 ^ 32

/-- The predicted instant of the next cam edge after a stamp (R130). -/
def Dev.camPredict (d : Dev) (k last : Nat) : Nat :=
  d.timeOfWord k (nextCrossing (d.camFrom k last) (((d.pat k).cam.getD (d.camExpected k last) (0, false)).1))

/-- E of an input (R130): the expected time from its last accepted edge to its next. -/
def Dev.expected (d : Dev) (n : Nat) : Rat :=
  let i := 0x2100 + n
  let k := d.obj i 0x01
  let role := d.obj i 0x02
  let w := d.wheel n
  let last := d.obj i 0x0C
  if 1 < k then 0
  else
    let p := d.pat k
    let st := d.domState k
    let rev : Rat := (9830400000000 : Rat) / ((d.obj (0x2180 + k) 0x04 : Nat) : Rat)
    if role = 0 && (st = 2 || st = 3) then
      ((d.timeOfWord k (d.crankTarget k (((d.dom k).cur + 1) % p.total)) - last : Nat) : Rat)
    else if role = 1 && (st = 3 || st = 4) then ((d.camPredict k last - last : Nat) : Rat)
    else
      let iv := if role = 0 then p.crankIv else if role = 1 then p.camIv else [1]
      let len : Nat := if role = 0 then 64 * p.n else if role = 1 then auCycle else d.obj i 0x0A
      let turns : Rat := if role = 1 then ((p.revs : Nat) : Rat) else 1
      if 2 ≤ w.seen then
        let (x, y) := minRatio iv
        ((w.lastIval : Nat) : Rat) * ((x : Nat) : Rat) / ((y : Nat) : Rat)
      else rev * turns * ((iv.foldl min len : Nat) : Rat) / ((len : Nat) : Rat)

/-! ### The reverse test (R155, R156) -/

/-- A reverse test starts on each non-palindromic input of the domain, if none runs. -/
def Dev.revStart (d : Dev) (k : Nat) : Dev :=
  let p := d.pat k
  let m := d.dom k
  if m.revCrank.isSome || m.revCam.isSome then d
  else
    let c := p.cls
    let crank : Option RevTest := if p.crankIn.isSome && !c.testBit 1 then
        some { fwd := Matcher.fresh p.edges, bwd := Matcher.fresh p.edges, left := p.edges } else none
    let cam : Option RevTest := if p.camIn.isSome && !c.testBit 3 && !p.cam.isEmpty then
        some { fwd := Matcher.fresh p.cam.length, bwd := Matcher.fresh p.camRevIv.length, left := p.cam.length } else none
    d.setDom k { m with revCrank := crank, revCam := cam }

/-- One following edge on a test: the test, whether reverse is detected, whether the test is over. -/
def RevTest.step (fwdIv bwdIv : List Nat) (tol need : Nat) (r : RevTest) (stamp : Nat) : RevTest × Bool × Bool :=
  let f := r.fwd
  let (f', _) := f.step fwdIv fwdIv.length tol stamp
  let f' := { f' with emptied := f.emptied || f'.emptied }
  let (b', _) := r.bwd.step bwdIv bwdIv.length tol stamp
  let fc := f'.confirmed fwdIv.length need
  let rev := b'.confirmed bwdIv.length need && f'.emptied && !fc
  ({ fwd := f', bwd := b', left := r.left - 1 }, rev, fc || decide (r.left ≤ 1))

/-- Detection of reverse rotation (R156). -/
def Dev.reverse (d : Dev) (k : Nat) : Dev :=
  let i := 0x2180 + k
  let d := ((d.inc i 0x17).setBit i 0x11 8 true).raise (2 + k)
  let d := d.pulse (16 + k)
  let d := d.setDom k { (d.dom k) with revCrank := none, revCam := none }
  let d := d.schedReverse k
  if d.domState k = 5 then (d.synthStop k).setObj i 0x15 1 else d.toLoss k 1

/-- An accepted edge on the tests that run: the device and whether the edge decides for reverse (R156). -/
def Dev.revFeed (d : Dev) (k role stamp : Nat) : Dev × Bool :=
  let p := d.pat k
  let m := d.dom k
  let need := d.obj (0x2180 + k) 0x0D
  match role, m.revCrank, m.revCam with
  | 0, some r, _ =>
    let (r, rev, over_) := r.step p.crankIv (reversedIv p.crankIv) p.tol need stamp
    (d.setDom k { m with revCrank := if over_ && !rev then none else some r }, rev)
  | 1, _, some r =>
    let (r, rev, over_) := r.step p.camIv p.camRevIv p.tol need stamp
    (d.setDom k { m with revCam := if over_ && !rev then none else some r }, rev)
  | _, _, _ => (d, false)

/-! ### Crank edges -/

/-- cam_fault is set (R149). -/
def Dev.camFault (d : Dev) (k : Nat) : Dev :=
  (((d.setBit (0x2180 + k) 0x11 5 true).setBit (0x2180 + k) 0x11 4 false).limpStatus k).raise (4 + k)

/-- The end of a domain cycle at a crank edge (R149, R157). -/
def Dev.domCycle (d : Dev) (k : Nat) : Dev :=
  let i := 0x2180 + k
  let m := d.dom k
  let p := d.pat k
  let full := decide (d.domState k = 3)
  let whole := m.cycleWhole && full
  let camAll := p.camIn.isSome && (List.range p.cam.length).all (fun j => m.camSeen.contains j)
  let camOk := camAll && m.camClean
  let d := if whole && camAll then ((d.setBit i 0x11 4 true).setBit i 0x11 5 false).limpStatus k else d
  let c := p.cls
  let crankPal := c.testBit 1
  let camPal := c.testBit 3 || p.camIn.isNone
  let clear := whole && !(crankPal && camPal) && (crankPal || m.crankClean) && (camPal || camOk)
  let d := if clear then d.setBit i 0x11 8 false else d
  d.setDom k { (d.dom k) with camSeen := [], cycleWhole := full, camClean := true, crankClean := true }

/-- The steps from crank edge `c` to crank edge `e` of the cycle, forward. -/
def Pat.steps (p : Pat) (c e : Nat) : Nat :=
  let s := (e + p.total - c % p.total) % p.total
  if s = 0 then p.total else s

/-- The crank position advances to edge `e` (R147, R132, R149), by an edge that matched or did not: what happens when position 0 or
the start of a cycle is passed; edges stepped over have no stamp in this revolution. -/
def Dev.advance (d : Dev) (k e stamp : Nat) (isMatch : Bool) : Dev :=
  let p := d.pat k
  let m := d.dom k
  let n := p.steps m.cur e
  let path := (List.range n).map (fun j => (m.cur + j + 1) % p.total)
  let zero := path.any (fun c => c % p.edges = 0)
  let wrap := path.any (fun c => p.nominal c < p.nominal ((c + p.total - 1) % p.total))
  let st := path.foldl (fun s c => s.drop (c % p.edges)) m.stamps
  let m := { m with cur := e, curWord := nextCrossing m.curWord (d.snapAngle k e), curSteps := n
                    stamps := Store.insert (st.drop (e % p.edges)) (e % p.edges) stamp
                    patErrs := if zero then 0 else m.patErrs
                    searchEdges := if d.domState k = 2 then m.searchEdges + n else m.searchEdges }
  let d := (d.setDom k m).showPos k e (decide (d.domState k = 3)) isMatch
  let d := if zero then
      (d.inputsOf k 0 ++ d.inputsOf k 1).foldl (fun d w => d.setWheel w { (d.wheel w) with rejAt := [] }) d else d
  if wrap then d.domCycle k else d

/-- The edge of position 0 pulses its line (R163). -/
def Dev.zeroPulse (d : Dev) (k c : Nat) : Dev := d.pulseIf (decide (c % (d.pat k).edges = 0)) (8 + k)

/-- A matched crank edge (R147, R160, R171): the speed, the snap, the scheduler. -/
def Dev.matched (d : Dev) (k e stamp : Nat) : Dev :=
  let p := d.pat k
  let was := ((d.dom k).stamps).find (e % p.edges)
  let d := d.advance k e stamp true
  let d := match was with
    | some s => if s < stamp then d.setObj (0x2180 + k) 0x14 (9830400000000 / (stamp - s)) else d
    | none => d
  let d := (d.zeroPulse k e).snap k e stamp
  (d.setDom k { (d.dom k) with curWord := (d.synth k).word }).schedSnap k

/-- The rejections of an input that still count as the crank position becomes known (R132): those within its last N accepted edges
and, where the run of edges reaches back to position 0, stamped after that edge. -/
def Dev.rejSince (d : Dev) (n len : Nat) (zero : Option Nat) : Dev :=
  let w := d.wheel n
  d.setWheel n { w with rejAt := w.rejAt.filter (fun a => decide (w.edges < a.1 + len) && (match zero with
    | some z => decide (z ≤ a.2)
    | none => true)) }

/-- Entry to CRANK_SYNC or FULL_SYNC at an accepted crank edge `c` (R145, R150, R169). -/
def Dev.toSync (d : Dev) (k new c stamp : Nat) : Dev :=
  let i := 0x2180 + k
  let p := d.pat k
  let st := d.domState k
  let m := d.dom k
  let run := m.crankRun
  let stamps : Store Nat := (List.range p.edges).filterMap (fun e =>
    (run[(c % p.edges + p.edges - e) % p.edges]?).map (fun s => (e, s)))
  let zero := run[c % p.edges]?
  let d := (p.crankIn.toList).foldl (fun (d : Dev) n => d.rejSince n p.edges zero) d
  let d := (p.camIn.toList).foldl (fun (d : Dev) n => d.rejSince n p.cam.length zero) d
  let d := d.setDom k { m with cur := c, curSteps := 1, stamps := stamps, patErrs := 0, camMiss := 0, searchEdges := 0
                               searchNoted := false, cycleWhole := false, camSeen := [], camClean := true, crankClean := true }
  let d := d.stateSet k new false
  let d := if new = 3 then d.setBit i 0x11 6 false else d
  let d := d.showPos k c (decide (new = 3)) true
  let d := match run[p.edges]? with
    | some s => d.setObj i 0x14 (9830400000000 / (stamp - s))
    | none => d
  let span := (d.snapAngle k c + auCycle - d.snapAngle k ((c + p.total - 1) % p.total)) % auCycle
  let d := d.zeroPulse k c
  let d := d.synthEnter k (d.snapAngle k c) stamp span (stamp - run.getD 1 0)
  let d := d.setDom k { (d.dom k) with curWord := (d.synth k).word }
  (d.limpStatus k).schedState k st new

/-- An accepted crank edge in SEARCH (R142, R144, R145). -/
def Dev.crankSearch (d : Dev) (k stamp : Nat) : Dev :=
  let p := d.pat k
  let m := d.dom k
  let (c, restart) := m.crank.step p.crankIv p.total p.tol stamp
  let run := if restart || m.crank.count = 0 then [stamp] else (stamp :: m.crankRun).take (p.edges + 1)
  let d := d.setDom k { m with crank := c, crankRun := run }
  let d := if restart then d.inc (0x2180 + k) 0x1A else d
  if c.confirmed p.edges (d.obj (0x2180 + k) 0x08) then
    match c.cands with
    | [x] => d.toSync k 3 x stamp
    | x :: y :: _ => d.toSync k 2 (if x < p.edges then x else y) stamp
    | [] => d
  else d

/-- All positions of the crank and its extra teeth after the present one, up to one revolution ahead, as (1/64 of a position
from position 0 of the present revolution, missing). -/
def Pat.ahead (p : Pat) (pos : Nat) : List (Nat × Bool) :=
  let all := ((List.range p.n).map (64 * ·)).filter (fun x => !p.crank.contains x)
  let both := p.crank.map (fun x => (x, false)) ++ all.map (fun x => (x, true))
  let sorted := both.foldl (fun (l : List Nat) x => insertNat x.1 l) []
  let turn := 64 * p.n
  ((sorted.filter (fun x => decide (pos < x))) ++ ((sorted.filter (fun x => decide (x ≤ pos))).map (· + turn))).map
    (fun x => (x, all.contains (x % turn)))

/-- The crank edge of the cycle that lies at a place, counted from position 0 of revolution `rev`. -/
def Pat.edgeAt (p : Pat) (rev x : Nat) : Nat :=
  (rev + x / (64 * p.n)) % p.revs * p.edges + (p.crank.filter (fun q => decide (q < x % (64 * p.n)))).length

/-- The predicted time of a place ahead of the present position (R147): of the snapped angle where it carries a tooth, else of the
nominal angle. -/
def Dev.placeTime (d : Dev) (k rev x : Nat) (missing : Bool) : Nat :=
  let p := d.pat k
  let angle := if missing then p.nominalAt (rev + x / (64 * p.n)) (x % (64 * p.n)) else d.snapAngle k (p.edgeAt rev x)
  d.timeOfWord k (nextCrossing (d.dom k).curWord angle)

/-- A pattern error (R147, R155): the edge is assigned to the nearest place ahead; a missing one is a gap error. -/
def Dev.patternError (d : Dev) (k stamp : Nat) : Dev :=
  let i := 0x2180 + k
  let p := d.pat k
  let m := d.dom k
  let held := d.bit i 0x11 8
  let d := (d.inc i 0x18).revStart k
  let y := d.synth k
  let d := d.setSynth k { y with revGood := false, cClean := false }
  let d := d.setDom k { (d.dom k) with patErrs := m.patErrs + 1, crankClean := false }
  let pos := p.crank.getD (m.cur % p.edges) 0
  let rev := m.cur / p.edges
  let dist := fun (x : Nat × Bool) => let t := d.placeTime k rev x.1 x.2; if t ≤ stamp then stamp - t else t - stamp
  let best := (p.ahead pos).foldl (fun (b : Option (Nat × Bool × Nat)) x =>
    let dx := dist x
    match b with
    | none => some (x.1, x.2, dx)
    | some (y, z, dy) => if dx < dy then some (x.1, x.2, dx) else some (y, z, dy)) none
  match best with
  | none => d
  | some (_, true, _) => d.toLoss k 4
  | some (x, false, _) =>
    let e := p.edgeAt rev x
    let bad := decide (d.obj i 0x09 ≤ m.patErrs + 1)
    let zero := decide (p.steps m.cur e ≥ p.edges) || decide (e % p.edges < m.cur % p.edges) || decide (e % p.edges = 0)
    let d := d.advance k e stamp false
    let d := if zero then d.setSynth k { (d.synth k) with speed0 := none, revEdges := [] } else d
    if bad then d.toLoss k 6 else if held && !d.bit i 0x11 8 then d.schedStart k else d

/-- The interval of an accepted crank edge matches the expected one (R147). -/
def Pat.crankMatches (p : Pat) (ival : Nat) (e : Rat) : Bool :=
  let a : Rat := ((ival : Nat) : Rat) * 100
  decide (e * ((100 - p.tol : Nat) : Rat) ≤ a) && decide (a ≤ e * ((100 + p.tol : Nat) : Rat))

/-- An accepted crank edge in CRANK_SYNC or FULL_SYNC, an interval after the one before (R147). -/
def Dev.crankSynced (d : Dev) (k stamp ival : Nat) (e : Rat) : Dev :=
  let p := d.pat k
  if p.crankMatches ival e then d.matched k (((d.dom k).cur + 1) % p.total) stamp else d.patternError k stamp

/-- An accepted crank edge in CAM_ONLY (R150): the crank matcher runs afresh; a confirmed candidate that agrees with the
cam-derived angle returns the domain to FULL_SYNC. -/
def Dev.crankLimp (d : Dev) (k stamp : Nat) : Dev :=
  let p := d.pat k
  let m := d.dom k
  let (c, restart) := m.crank.step p.crankIv p.total p.tol stamp
  let run := if restart || m.crank.count = 0 then [stamp] else (stamp :: m.crankRun).take (p.edges + 1)
  let d := d.setDom k { m with crank := c, crankRun := run }
  let d := if restart then d.inc (0x2180 + k) 0x1A else d
  if c.confirmed p.edges (d.obj (0x2180 + k) 0x08) then
    let w := d.estAt k stamp % auCycle
    let near := fun x =>
      let g := (p.nominal x + auCycle - w) % auCycle
      decide (2 * min g (auCycle - g) * p.n * p.revs ≤ auCycle)
    match c.cands.find? near with
    | some x => d.toSync k 3 x stamp
    | none => (d.inc (0x2180 + k) 0x1A).setDom k { (d.dom k) with crank := { (Matcher.fresh p.total) with count := 1, last := stamp }, crankRun := [stamp] }
  else d

/-! ### Cam edges -/

/-- The selected cam edge of a polarity nearest to an angle, if it lies within cam_window (R143, R149). -/
def Pat.camNear (p : Pat) (angle : Nat) (rise : Bool) : Option Nat :=
  let rows := ((List.range p.cam.length).zip p.cam).filter (fun e => e.2.2 == rise)
  (rows.foldl (fun (b : Option (Nat × Nat)) e =>
    let g := (e.2.1 + auCycle - angle % auCycle) % auCycle
    let g := min g (auCycle - g)
    if p.window < g then b
    else match b with
      | none => some (e.1, g)
      | some (i, h) => if g < h then some (e.1, g) else some (i, h)) none).map (·.1)

/-- α of a candidate for a cam edge (R143): from the candidate's angle at the last crank edge, at the rate of the last crank
interval, which spans `steps` edges of the pattern. A cam edge stamped before that crank edge lies behind it. -/
def Pat.alpha (p : Pat) (m : Matcher) (steps c stamp : Nat) : Nat :=
  let span := (p.nominal c + auCycle - p.nominal ((c + p.total - steps) % p.total)) % auCycle
  let span := if span = 0 then auCycle else span
  (((p.nominal c : Nat) : Int) + ((span : Nat) : Int) * ((stamp : Int) - (m.last : Int)) / ((m.last - m.prev : Nat) : Int)) % auCycle |>.toNat

/-- The candidates that a cam edge keeps (R143). -/
def Pat.camKeeps (p : Pat) (m : Matcher) (steps : Nat) (cands : List Nat) (stamp : Nat) (rise : Bool) : List Nat :=
  cands.filter (fun c => (p.camNear (p.alpha m steps c stamp) rise).isSome)

/-- The cam matcher takes an accepted cam edge (R146); its restarts count as R144 counts those of the crank. -/
def Dev.camMatch (d : Dev) (k stamp : Nat) : Dev :=
  let p := d.pat k
  if !p.limpCapable then d
  else
    let n := p.cam.length
    let m := d.dom k
    let (c, restart) := m.cam.step p.camIv n p.tol stamp
    let run := if restart || m.cam.count = 0 then [stamp] else (stamp :: m.camRun).take (n + 1)
    let d := d.setDom k { m with cam := c, camRun := run }
    if restart then d.inc (0x2180 + k) 0x1A else d

/-- A matched cam edge is noted: what is expected next, the last interval, the stamp one cycle earlier. -/
def Dev.camNote (d : Dev) (k j stamp : Nat) : Dev :=
  let p := d.pat k
  let m := d.dom k
  let ang := fun x => (p.cam.getD x (0, false)).1
  let n := p.cam.length
  let (ival, st) : Option (Nat × Nat) × Store Nat := match m.camLast with
    | some (i, s) =>
      let a := (ang j + auCycle - ang i) % auCycle
      let skipped := (List.range ((j + n - i) % n)).map (fun x => (i + x + 1) % n)
      (some (if a = 0 then auCycle else a, stamp - s), skipped.foldl (fun (st : Store Nat) (x : Nat) => if x = j then st else Store.drop st x) m.camStamps)
    | none => (m.camIval, m.camStamps)
  d.setDom k { m with camNext := some (j + 1), camLast := some (j, stamp), camIval := ival
                      camStamps := Store.insert (st.drop j) j stamp, camMiss := 0, camSeen := j :: m.camSeen }

/-- A cam edge that does not match (R149, R150, R155): counted, and a reverse test starts. -/
def Dev.camMissed (d : Dev) (k stamp : Nat) : Dev :=
  let p := d.pat k
  let d := (d.inc (0x2180 + k) 0x19).revStart k
  let a := d.estAt k stamp % auCycle
  let nxt := ((List.range p.cam.length).find? (fun j => decide (a < (p.cam.getD j (0, false)).1))).getD 0
  let m := d.dom k
  d.setDom k { m with camNext := some nxt, camClean := false }

/-- Entry to CAM_ONLY (R148, R151, R193) with the rate of the last cam interval; the crank matcher starts afresh. -/
def Dev.toCamOnly (d : Dev) (k : Nat) : Dev :=
  let p := d.pat k
  let st := d.domState k
  let m := d.dom k
  let d := d.setDom k { m with crank := Matcher.fresh p.total, crankRun := [], stamps := [], camFails := 0
                               camCyc := (d.estAt k d.now) / auCycle, cycleWhole := false }
  let d := d.stateSet k 4 false
  let d := (d.hidePos k).setBit (0x2180 + k) 0x11 3 true
  let d := d.leaveFull k
  let y := d.synth k
  let q := match m.camIval with | some (a, t) => ((a : Rat) * 10240) / ((t : Nat) : Rat) | none => y.q
  let d := d.setSynth k { y with a := 0, q := q, ff := [] }
  ((d.synthStatus k).markTimes k).schedState k st 4

/-- The domain enters CAM_ONLY from SEARCH at cam edge `j` (R151, R160, R193): the rate of the last cam interval, the speed of the
last cam cycle. -/
def Dev.camEnter (d : Dev) (k j stamp : Nat) : Dev :=
  let i := 0x2180 + k
  let p := d.pat k
  let n := p.cam.length
  let run := (d.dom k).camRun
  let ang := fun x => (p.cam.getD x (0, false)).1
  let span := (ang j + auCycle - ang ((j + n - 1) % n)) % auCycle
  let dt := stamp - run.getD 1 0
  let stamps : Store Nat := (List.range n).filterMap (fun e => (run[(j + n - e) % n]?).map (fun s => (e, s)))
  let d := d.setDom k { (d.dom k) with camLast := some (j, stamp), camNext := some (j + 1), camIval := some (span, dt), camStamps := stamps }
  let d := match run[n]? with
    | some s => d.setObj i 0x14 (9830400000000 * p.revs / (stamp - s))
    | none => d
  let d := d.setObj i 0x10 4
  let d := d.synthEnter k (ang j) stamp span dt
  ((d.setObj i 0x10 1).toCamOnly k).pulse (10 + k)

/-- No crank edge has been accepted since the cam edge one cam cycle before the last one (R151). -/
def Dev.crankQuiet (d : Dev) (k : Nat) : Bool :=
  let p := d.pat k
  match (d.dom k).camRun[p.cam.length]? with
  | some s => (match p.crankIn with
    | some w => decide ((d.wheel w).edges = 0) || decide (d.obj (0x2100 + w) 0x0C ≤ s)
    | none => true)
  | none => false

/-- An accepted cam edge in SEARCH (R143, R146, R151). -/
def Dev.camSearch (d : Dev) (k stamp : Nat) (rise : Bool) : Dev :=
  let i := 0x2180 + k
  let p := d.pat k
  let m := d.dom k
  let d :=
    if m.crank.count < 2 then d
    else
      match p.camKeeps m.crank 1 m.crank.cands stamp rise with
      | [] => d.inc i 0x19
      | cs => d.setDom k { m with crank := { m.crank with cands := cs } }
  let c := (d.dom k).cam
  match c.cands with
  | [j] => if p.limpCapable && d.obj i 0x06 = 1 && decide (d.obj i 0x08 ≤ c.conf) && d.crankQuiet k then d.camEnter k j stamp else d
  | _ => d

/-- The phase is resolved in CRANK_SYNC by a cam edge (R145). -/
def Dev.phaseResolved (d : Dev) (k c : Nat) : Dev :=
  let i := 0x2180 + k
  let m := d.dom k
  let shift := decide (c ≠ m.cur)
  let word := if shift then (m.curWord + 8388608) % 2 ^ 32 else m.curWord
  let d := d.setDom k { m with cur := c, curWord := word, cycleWhole := false, camSeen := [], camClean := true, crankClean := true, camMiss := 0 }
  let d := d.stateSet k 3 false
  let d := (d.setBit i 0x11 6 false).showPos k c true false
  let d := ((d.phaseShift k shift).synthStatus k).markTimes k
  (d.limpStatus k).schedState k 2 3

/-- A change of an input stamped at or before a deadline is still in its filter. -/
def Dev.edgePending (d : Dev) (ns : List Nat) (deadline : Rat) : Bool :=
  ns.any (fun n => match (d.wheel n).filt with | some (s, _) => decide (((s : Nat) : Rat) ≤ deadline) | none => false)

/-- CRANK_ABSENT (R148). -/
def Dev.crankAbsent (d : Dev) (k : Nat) : Dev :=
  let i := 0x2180 + k
  match (d.pat k).crankIn with
  | none => d
  | some n =>
    let dl := ((d.obj (0x2100 + n) 0x0C : Nat) : Rat) + 3 * d.expected n
    if d.runs 5 && (d.domState k = 2 || d.domState k = 3) && decide (dl < ((d.now : Nat) : Rat)) && !d.edgePending [n] dl then
      let d := d.setBit i 0x11 6 true
      if d.domState k = 3 && d.bit i 0x11 1 then d.toCamOnly k else d.toLoss k 7
    else d

/-- An accepted cam edge in CRANK_SYNC (R143, R145). A phase that it resolves is discarded where the crank is lost with it (R159):
where the edge decides for reverse (`lost`), or where it comes when the crank is already absent. -/
def Dev.camPhase (d : Dev) (k stamp ival : Nat) (rise lost : Bool) : Dev :=
  let p := d.pat k
  let m := d.dom k
  match p.crankIn with
  | none => d
  | some w =>
    let last := d.obj (0x2100 + w) 0x0C
    let mm : Matcher := { last := last, prev := last - ival }
    match p.camKeeps mm m.curSteps [m.cur, (m.cur + p.edges) % p.total] stamp rise with
    | [] => (d.inc (0x2180 + k) 0x19).revStart k
    | [c] =>
      let d := d.crankAbsent k
      if lost || d.domState k ≠ 2 then d.pulse (10 + k) else (d.phaseResolved k c).pulse (10 + k)
    | _ => d.pulse (10 + k)

/-- An accepted cam edge in FULL_SYNC (R149). -/
def Dev.camFull (d : Dev) (k stamp : Nat) (rise : Bool) : Dev :=
  match (d.pat k).camNear (d.estAt k stamp) rise with
  | some j => (d.camNote k j stamp).pulse (10 + k)
  | none =>
    let d := d.camMissed k stamp
    let m := d.dom k
    if m.camMiss + 1 ≥ 3 then (d.setDom k { m with camMiss := 0 }).camFault k
    else d.setDom k { m with camMiss := m.camMiss + 1 }

/-- An accepted cam edge in CAM_ONLY (R150, R160, R193). -/
def Dev.camLimp (d : Dev) (k stamp : Nat) (rise : Bool) : Dev :=
  let i := 0x2180 + k
  let p := d.pat k
  let w := d.estAt k stamp
  let m := d.dom k
  let m := if w / auCycle = m.camCyc then m else { m with camFails := 0, camCyc := w / auCycle }
  let d := d.setDom k m
  match p.camNear w rise with
  | some j =>
    let was := m.camStamps.find j
    let d := d.camNote k j stamp
    let d := match was with
      | some s => if s < stamp then d.setObj i 0x14 (9830400000000 * p.revs / (stamp - s)) else d
      | none => d
    ((d.snapCam k ((p.cam.getD j (0, false)).1) stamp (d.dom k).camIval).schedSnap k).pulse (10 + k)
  | none =>
    let d := d.camMissed k stamp
    let n := m.camFails + 1
    let d := d.setDom k { (d.dom k) with camFails := n }
    if d.obj i 0x09 ≤ n then d.toLoss k 8 else d

/-! ### Accepted edges -/

/-- An accepted edge that decides for reverse, in a state that follows the crank or the cam: if it does not match, its errors count and
their reactions apply beside those of the reverse rotation (R152); if it matches, its line pulses (R163). -/
def Dev.decidingEdge (d : Dev) (k role stamp ival crankIval : Nat) (e : Rat) (rise : Bool) : Dev :=
  let p := d.pat k
  let st := d.domState k
  if role = 0 then
    if st = 2 || st = 3 then
      if p.crankMatches ival e then d.zeroPulse k (((d.dom k).cur + 1) % p.total) else d.patternError k stamp
    else d
  else if st = 2 then d.camPhase k stamp crankIval rise true
  else if st = 3 || st = 4 then
    if (p.camNear (d.estAt k stamp) rise).isSome then d.pulse (10 + k)
    else if st = 3 then d.camFull k stamp rise else d.camLimp k stamp rise
  else d

/-- An accepted edge of a crank or cam input reaches its domain (R151, R153, R155), with the interval before it, the expected
interval, and the interval before that of the crank. -/
def Dev.domEdge (d : Dev) (n k role stamp ival crankIval : Nat) (e : Rat) (rise : Bool) : Dev :=
  let (d, rev) := d.revFeed k role stamp
  let i := 0x2180 + k
  let st := d.domState k
  if rev then (d.decidingEdge k role stamp ival crankIval e rise).reverse k
  else if st = 5 && !((d.dom k).dwellDone || decide (d.obj i 0x1B + d.obj i 0x0C * tqMs ≤ stamp)) then d
  else if (st = 0 || st = 5) && !(d.pat k).valid then d
  else
    let d := if st = 0 || st = 5 then d.toSearch k n else d
    let d := if role = 1 then d.camMatch k stamp else d
    let st := d.domState k
    if role = 0 then
      if st = 1 then d.crankSearch k stamp else if st = 4 then d.crankLimp k stamp else d.crankSynced k stamp ival e
    else if st = 1 then d.camSearch k stamp rise
    else if st = 2 then d.camPhase k stamp crankIval rise false
    else if st = 3 then d.camFull k stamp rise
    else d.camLimp k stamp rise

/-- aux_speed after an accepted edge of an auxiliary input (R161, R128, R132). -/
def Dev.auxEdge (d : Dev) (n stamp : Nat) : Dev :=
  let i := 0x2100 + n
  let w := d.wheel n
  let teeth := d.obj i 0x0A
  let st := (stamp :: w.auxStamps).take (teeth + 1)
  let hold := w.auxHold - 1
  let d := d.setWheel n { w with auxStamps := st, auxHold := hold }
  match st[teeth]? with
  | some s => d.setObj i 0x11 (if hold = 0 && s < stamp then 9830400000000 / (stamp - s) else 0)
  | none => d.setObj i 0x11 0

/-- aux_speed reads 0 until aux_teeth further edges have been accepted (R128, R132). -/
def Dev.auxBlank (d : Dev) (n : Nat) : Dev :=
  let i := 0x2100 + n
  (d.setWheel n { (d.wheel n) with auxHold := d.obj i 0x0A }).setObj i 0x11 0

/-- An overrun or a reject limit on an input (R128, R132): LOSS of its domain with a cause, or no aux_speed. -/
def Dev.inputFault (d : Dev) (n cause : Nat) : Dev :=
  let i := 0x2100 + n
  let k := d.obj i 0x01
  if d.obj i 0x02 = 2 then d.auxBlank n
  else if 1 < k then d
  else d.toLoss k cause

/-- Interval of the last two accepted edges of a domain's crank input. -/
def Dev.crankIval (d : Dev) (k : Nat) : Nat :=
  match (d.pat k).crankIn with
  | some w => (d.wheel w).lastIval
  | none => 0

/-- An edge is accepted (R130, R132, R163). -/
def Dev.acceptEdge (d : Dev) (n stamp : Nat) (rise : Bool) : Dev :=
  let i := 0x2100 + n
  let k := d.obj i 0x01
  let role := d.obj i 0x02
  let e := d.expected n
  let w := d.wheel n
  let ival := stamp - d.obj i 0x0C
  let d := d.setWheel n { w with seen := w.seen + 1, edges := w.edges + 1, lastIval := ival }
  let d := ((d.setObj i 0x0C stamp).inc i 0x0D).setBit i 0x0B 2 false
  let d := d.pulse n
  if 1 < k then d
  else if role = 2 then d.auxEdge n stamp
  else d.domEdge n k role stamp ival (d.crankIval k) e rise

/-- Rejections that count at present (R132): since the crank passed position 0, or within the last N accepted edges. -/
def Dev.rejectCount (d : Dev) (n : Nat) : Nat :=
  let i := 0x2100 + n
  let k := d.obj i 0x01
  let role := d.obj i 0x02
  let w := d.wheel n
  if k ≤ 1 && role < 2 && (d.domState k = 2 || d.domState k = 3) then w.rejAt.length
  else
    let len := if k ≤ 1 && role = 0 then (d.pat k).edges else if k ≤ 1 && role = 1 then (d.pat k).cam.length else d.obj i 0x0A
    (w.rejAt.filter (fun a => decide (w.edges < a.1 + len))).length

/-- A selected edge too early for its input is rejected as noise (R131, R132). -/
def Dev.rejectEdge (d : Dev) (n stamp : Nat) : Dev :=
  let i := 0x2100 + n
  let w := d.wheel n
  let d := (d.setWheel n { w with rejAt := ((w.edges, stamp) :: w.rejAt).take 4096 }).inc i 0x0F
  if d.rejectCount n = 16 then ((d.setBit i 0x0B 4 true).raise (8 + n)).inputFault n 5 else d

/-- A level change passes the minimum-pulse filter (R128, R129, R131): overrun check, polarity, plausibility. -/
def Dev.passFilter (d : Dev) (n stamp : Nat) (lvl : Bool) : Dev :=
  let i := 0x2100 + n
  let w := d.wheel n
  let over_ := match w.passedAt with | some p => decide (stamp < p + 20480) | none => false
  let d := d.setWheel n { w with filt := none, passed := lvl, passedAt := some stamp }
  if over_ then (((d.inc i 0x10).setBit i 0x0B 3 true).raise (8 + n)).inputFault n 2
  else
    let sel := d.obj i 0x04
    if !(sel = 2 || (sel = 1 && lvl) || (sel = 0 && !lvl)) then d
    else if decide (0 < w.edges) && decide (4 * ((stamp - d.obj i 0x0C : Nat) : Rat) < d.expected n) then d.rejectEdge n stamp
    else d.acceptEdge n stamp lvl

/-- A new level of an input has persisted for the filter time, in units of 10 ns (R126). -/
def Dev.filterDone (d : Dev) (n : Nat) : Dev :=
  match (d.wheel n).filt with
  | some (s, lvl) =>
    if d.runs 5 && decide (n < 8) && decide (10 * s + 1024 * d.obj (0x2100 + n) 0x05 ≤ 10 * d.now) then d.passFilter n s lvl else d
  | none => d

/-- A crank change of the same stamp in the domain of a cam input, still in its filter (R159). -/
def Dev.crankTwin (d : Dev) (n : Nat) : Option Nat :=
  let k := d.obj (0x2100 + n) 0x01
  if 1 < k || d.obj (0x2100 + n) 0x02 ≠ 1 then none
  else
    match (d.pat k).crankIn, (d.wheel n).filt with
    | some c, some (s, _) => (match (d.wheel c).filt with
      | some (u, _) => if u = s then some c else none
      | none => none)
    | _, _ => none

/-- MIN_PULSE_FILTER (R126): of a crank and a cam change with equal stamps the crank's is processed first (R159), so the cam's waits
for it. -/
def Dev.minPulse (d : Dev) (n : Nat) : Dev :=
  match d.crankTwin n with
  | some c =>
    let d := d.filterDone c
    if (d.crankTwin n).isSome then d else d.filterDone n
  | none => d.filterDone n

/-- The level at which an input goes high in mV: upper_threshold, or in VR mode the arming level (R121, R122). -/
def Dev.armingLevel (d : Dev) (n : Nat) : Rat :=
  let i := 0x2100 + n
  let up : Rat := ((d.sobj 16 i 0x06 : Int) : Rat)
  if d.obj i 0x03 = 0 then max up ((((d.wheel n).vrPeak * d.obj i 0x08 : Nat) : Rat) / 16) else up

/-- A change of the conditioned level (R121, R126): it enters the filter, or ends the pulse that is in it. -/
def Dev.levelChange (d : Dev) (n : Nat) (lvl : Bool) : Dev :=
  let i := 0x2100 + n
  let w := d.wheel n
  let d := d.setBit i 0x0B 0 lvl
  match w.filt with
  | some _ => (d.setWheel n { w with filt := none }).inc i 0x0E
  | none => d.setWheel n { w with filt := some (d.now, lvl) }

/-- With PD5 off, the front end of an input that a live watch names is powered: its conditioned level changes, seen by the Nightlight
alone; the crossing that resolves it does not count (R125, R440). -/
def Dev.nightCrossing (d : Dev) (n : Nat) (high low : Bool) : Dev :=
  let i := 0x2100 + n
  if !d.watched 2 n || !(high || low) then d
  else if d.bit i 0x0B 1 then (d.setBit i 0x0B 1 false).setBit i 0x0B 0 high
  else if d.bit i 0x0B 0 != high then (d.setBit i 0x0B 0 high).watchNote 2 n (fun _ => true)
  else d

/-- THRESHOLD_CROSSING (R121, R122, R125): the differential voltage has moved to a value in mV; in VR mode a fall below the
lower threshold ends a positive half-wave of a peak. -/
def Dev.threshold (d : Dev) (n : Nat) (mv : Int) (peak : Nat) : Dev :=
  let i := 0x2100 + n
  if 8 ≤ n then d
  else if !d.runs 5 then
    if d.pdOn 5 then d else d.nightCrossing n (decide (d.armingLevel n < ((mv : Int) : Rat))) (decide (mv < d.sobj 16 i 0x07))
  else
    let d := d.minPulse n
    let high := decide (d.armingLevel n < ((mv : Int) : Rat))
    let low := decide (mv < d.sobj 16 i 0x07)
    let vr := decide (d.obj i 0x03 = 0)
    let lvl := d.bit i 0x0B 0
    let note := fun (d : Dev) => if vr && low && decide (d.armingLevel n < ((peak : Nat) : Rat)) then
      d.setWheel n { (d.wheel n) with vrPeak := peak } else d
    if d.bit i 0x0B 1 then
      if high || low then
        let d := note ((d.setBit i 0x0B 1 false).setBit i 0x0B 0 high)
        let d := if vr && high then d.setBit i 0x0B 2 true else d
        d.setWheel n { (d.wheel n) with passed := high, filt := none }
      else d
    else if high && !lvl then
      let d := if vr then d.setBit i 0x0B 2 true else d
      d.levelChange n true
    else if low && lvl then (note d).levelChange n false
    else d

/-- ARMING_FALLBACK (R122): no positive half-wave has armed a VR input for twice the expected interval. -/
def Dev.armingFallback (d : Dev) (n : Nat) : Dev :=
  let i := 0x2100 + n
  if d.runs 5 && decide (n < 8) && decide (d.obj i 0x03 = 0) && !d.bit i 0x0B 2
    && decide (((d.obj i 0x0C : Nat) : Rat) + 2 * d.expected n ≤ ((d.now : Nat) : Rat)) then
    d.setWheel n { (d.wheel n) with vrPeak := 0 }
  else d

/-! ### Timeouts -/

/-- The last accepted stamp of inputs. -/
def Dev.lastOf (d : Dev) (ns : List Nat) : Nat := ns.foldl (fun m n => max m (d.obj (0x2100 + n) 0x0C)) 0

/-- L of R133 for the crank or the cam pattern, in TQ at min_rpm. -/
def Dev.longest (d : Dev) (k : Nat) (cam : Bool) : Rat :=
  let p := d.pat k
  let rev : Rat := (9830400000000 : Rat) / ((d.obj (0x2180 + k) 0x03 : Nat) : Rat)
  if cam then rev * ((p.revs * (p.camIv.foldl max 0) : Nat) : Rat) / ((auCycle : Nat) : Rat)
  else rev * ((p.crankIv.foldl max 0 : Nat) : Rat) / ((64 * p.n : Nat) : Rat)

/-- The stall deadline of a domain (R133), and the inputs whose edges it waits for. -/
def Dev.stallDeadline (d : Dev) (k : Nat) : Rat × List Nat :=
  let p := d.pat k
  let st := d.domState k
  let ci := p.crankIn.toList
  let mi := p.camIn.toList
  let lc := d.longest k false
  let lm := if p.camIn.isSome then d.longest k true else 0
  let (l, ns) := if st = 2 || st = 3 || p.camIn.isNone then (lc, ci) else if st = 4 then (lm, mi) else (max lc lm, ci ++ mi)
  let t := max (((d.obj (0x2180 + k) 0x05 * tqMs : Nat) : Rat)) (3 * l)
  (((d.lastOf ns : Nat) : Rat) + t, ns)

/-- STALL (R133): no accepted edge is stamped at or before the deadline. -/
def Dev.stall (d : Dev) (k : Nat) : Dev :=
  let (dl, ns) := d.stallDeadline k
  if d.runs 5 && decide (k < 2) && decide (d.domState k ≠ 0) && decide (dl < ((d.now : Nat) : Rat)) && !d.edgePending ns dl then d.toStopped k
  else d

/-- CAM_ABSENT (R149, R150). -/
def Dev.camAbsent (d : Dev) (k : Nat) : Dev :=
  match (d.pat k).camIn with
  | none => d
  | some n =>
    let dl := ((d.obj (0x2100 + n) 0x0C : Nat) : Rat) + 3 * d.expected n
    if d.runs 5 && decide (0 < (d.wheel n).edges) && !(d.pat k).cam.isEmpty && decide (dl < ((d.now : Nat) : Rat)) && !d.edgePending [n] dl then
      if d.domState k = 3 then
        let last := d.obj (0x2100 + n) 0x0C
        let m := d.dom k
        if m.absentNoted = some last then d else (d.setDom k { m with absentNoted := some last }).camFault k
      else if d.domState k = 4 then d.toLoss k 8 else d
    else d

/-- CAM_SEARCH_REVS (R149): cam_search_revs whole revolutions have passed since CRANK_SYNC was entered. -/
def Dev.camSearchRevs (d : Dev) (k : Nat) : Dev :=
  let i := 0x2180 + k
  let m := d.dom k
  if d.runs 5 && decide (d.domState k = 2) && decide (d.obj i 0x0B * (d.pat k).edges ≤ m.searchEdges) && !m.searchNoted then
    (d.setDom k { m with searchNoted := true }).camFault k
  else d

/-- LOSS_DWELL (R153). -/
def Dev.lossDwell (d : Dev) (k : Nat) : Dev :=
  let i := 0x2180 + k
  if d.runs 5 && decide (d.domState k = 5) && decide (d.obj i 0x1B + d.obj i 0x0C * tqMs ≤ d.now) then
    d.setDom k { (d.dom k) with dwellDone := true }
  else d

/-- AUX_SPEED_TIMEOUT (R161). -/
def Dev.auxTimeout (d : Dev) (n : Nat) : Dev :=
  let i := 0x2100 + n
  if d.runs 5 && decide (d.obj i 0x02 = 2) && decide (((d.obj i 0x0C : Nat) : Rat) + 3 * d.expected n < ((d.now : Nat) : Rat)) then
    d.setObj i 0x11 0
  else d

/-! ### Writes and resets -/

/-- A write to sensor, thresholds or pull_up leaves the input unresolved (R125). -/
def Dev.unresolve (d : Dev) (n : Nat) : Dev :=
  let w := d.wheel n
  let i := 0x2100 + n
  (d.setObj i 0x0B ((d.obj i 0x0B &&& 0x18) + 2)).setWheel n { w with filt := none, vrPeak := 0, passed := false }

/-- A configuration change of a domain (R154): LOSS unless STOPPED, afresh for a domain in LOSS, the learning run aborted (R179), the
class recomputed, coefficients that the patterns no longer carry held at 0 (R181, R182). -/
def Dev.configChange (d : Dev) (k : Nat) : Dev :=
  let d := (d.classify k).limpStatus k
  let d := (d.learnAbort k).harmHold k
  (d.toLoss k 3).synthStatus k

/-- Zeroes :0D to :10 and the sticky bits of a wheel input (R165). -/
def Dev.wheelClear (d : Dev) (n : Nat) : Dev :=
  (d.zero (0x2100 + n) 0x0D 0x10).setObj (0x2100 + n) 0x0B (d.obj (0x2100 + n) 0x0B &&& 0x07)

/-- Zeroes :16 to :1A and the sticky bit of a domain (R166). -/
def Dev.domainClear (d : Dev) (k : Nat) : Dev := (d.zero (0x2180 + k) 0x16 0x1A).setBit (0x2180 + k) 0x11 7 false

/-- A reset of PD5 (R164, R194): inputs unresolved, domains STOPPED and disarmed, objects at their defaults. The scheduler's
subindices of the domain object belong to PD6 and keep their values. -/
def Dev.syncReset (d : Dev) : Dev :=
  let keep := (List.range 2).flatMap (fun k => ((List.range 0x40).map (fun s => (k, 0x30 + s, d.obj (0x2180 + k) (0x30 + s)))))
  let d := (d.disarm 0 false).disarm 1 false
  let d := { d with wheels := [], doms := [] }
  let d := (d.resetObjs 0x2100 0x2107).resetObjs 0x2180 0x2191
  let d := keep.foldl (fun d e => d.setObj (0x2180 + e.1) e.2.1 e.2.2) d
  (d.synthReset 0).synthReset 1

end Sys2Proof.Machine
end

