-- ==== Sys2Proof/Machine/Timers.lean ====
section
/-! DEFINITION. Timers, captures, GSTART and the route objects (chapter 12). A tick of the procedure of R362 comes in parts:
TIMER_TICK advances, PERIOD_END ends the period, COMPARE_MATCH performs the list of a unit that the tick's test has fired, and
START_INPUT and RESET_INPUT make the tick whose new count is 0. A timer's ticks follow from the time counter (R360): its record
stands at a tick, and every command of it first brings it up to the present one, stopping where something is to be done. -/

namespace Sys2Proof.Machine

/-- A timer's record. -/
def Dev.timer (d : Dev) (n : Nat) : Timer := Store.get (fun _ => {}) d.timers n

/-- Stores a timer's record. -/
def Dev.setTimer (d : Dev) (n : Nat) (r : Timer) : Dev := { d with timers := Store.put (fun _ => {}) d.timers n r }

/-- A cause of the timer's source (R374). -/
def Dev.timerCause (d : Dev) (n b : Nat) : Dev := d.raiseIf (d.bit (0x2B00 + n) 0x11 b) (96 + n / 4)

/-- The latest tick of 1.28 GHz at or before now, and the tick from which what arrives now takes effect (R362). -/
def Dev.tickNow (d : Dev) : Nat := d.now / 8

/-- The tick from which what arrives now takes effect (R362). -/
def Dev.tickNext (d : Dev) : Nat := d.now / 8 + 1

/-- Performs an action list of a timer whose trigger falls at an instant (R366, R367): a line emitted twice in one tick carries one
pulse; self and linked inputs take effect at the next tick. -/
def Dev.act (d : Dev) (n acts at_ : Nat) : Dev :=
  let tick := at_ / 8
  let r := d.timer n
  let d := if acts.testBit 4 && r.sentA ≠ some tick then d.pulseAt (160 + 2 * n) at_ else d
  let d := if acts.testBit 5 && r.sentB ≠ some tick then d.pulseAt (161 + 2 * n) at_ else d
  let d := d.setTimer n { r with sentA := if acts.testBit 4 then some tick else r.sentA
                                 sentB := if acts.testBit 5 then some tick else r.sentB }
  let link := d.obj (0x2B00 + n) 0x0C
  let mark := fun (d : Dev) (k : Nat) (start reset : Bool) =>
    let r := d.timer k
    d.setTimer k { r with start := if start then some (tick + 1) else r.start, reset := if reset then some (tick + 1) else r.reset }
  let d := if link < 32 && (acts.testBit 2 || acts.testBit 3) then mark d link (acts.testBit 3) (acts.testBit 2) else d
  if acts.testBit 0 || acts.testBit 1 then mark d n (acts.testBit 1) (acts.testBit 0) else d

/-- Whether unit `u` hits at a new count (R362). -/
def Dev.cmpHit (d : Dev) (n u new : Nat) (fired : Bool) : Bool :=
  if d.bit (0x2B00 + n) 0x06 u then decide (d.obj (0x2B00 + n) (0x04 + u) ≤ new) && !fired
  else decide (new = d.obj (0x2B00 + n) (0x04 + u))

/-- The test part of the procedure of R362 at a new count. -/
def Dev.timerTest (d : Dev) (n new : Nat) : Dev :=
  let r := d.timer n
  let f0 := if new = 0 then false else r.fired0
  let f1 := if new = 0 then false else r.fired1
  let h0 := d.cmpHit n 0 new f0
  let h1 := d.cmpHit n 1 new f1
  d.setTimer n { r with count := new, fired0 := f0 || h0, fired1 := f1 || h1, hit0 := r.hit0 || h0, hit1 := r.hit1 || h1 }

/-- The first count above the present one at which unit `u` hits (R362). -/
def Dev.nextHit (d : Dev) (n u : Nat) : Option Nat :=
  let r := d.timer n
  let v := d.obj (0x2B00 + n) (0x04 + u)
  if d.bit (0x2B00 + n) 0x06 u then (if (if u = 0 then r.fired0 else r.fired1) then none else some (max v (r.count + 1)))
  else if r.count < v then some v else none

/-- The count up to which a timer counts with nothing to do on the way: the first hit, or the period. -/
def Dev.timerStopAt (d : Dev) (n : Nat) : Nat :=
  let r := d.timer n
  let low := fun (s : Nat) (h : Option Nat) => min s (h.getD s)
  max r.count (low (low (d.obj (0x2B00 + n) 0x03) (d.nextHit n 0)) (d.nextHit n 1))

/-- A timer counts to a tick, or to the count at which it stops on the way; at that count its prescaler waits for the next timer
tick (R360, R362). -/
def Timer.ride (r : Timer) (prescale stop tick : Nat) : Timer :=
  let total := r.pre + (tick - r.tick)
  let k := min (total / (prescale + 1)) (stop - r.count)
  if r.count + k < stop then { r with count := r.count + k, pre := total % (prescale + 1), tick := tick }
  else if k = 0 then
    let p := max r.pre (min total prescale)
    { r with pre := p, tick := r.tick + (p - r.pre) }
  else { r with count := stop, pre := 0, tick := r.tick + k * (prescale + 1) - r.pre }

/-- A running timer is brought up to a tick, but not past a count at which something is to be done (R360, R362): one that hits leaves
its lists to be performed, one at its period waits for its end. -/
def Dev.timerRide (d : Dev) (n tick : Nat) : Dev :=
  let r := d.timer n
  if !r.running || r.hit0 || r.hit1 || decide (tick ≤ r.tick) then d
  else
    let r' := r.ride (d.obj (0x2B00 + n) 0x02) (d.timerStopAt n) tick
    let d := d.setTimer n r'
    if r'.count = r.count then d else d.timerTest n r'.count

/-- A timer is brought up to now: a reset that waits keeps it before its tick. -/
def Dev.timerTo (d : Dev) (n : Nat) : Dev :=
  let tick := match (d.timer n).reset with
    | some a => min d.tickNow (a - 1)
    | none => d.tickNow
  (d.timerRide n tick).timerRide n tick

/-- A start on an armed timer that is not running takes effect at a tick (R361, R362). -/
def Dev.timerGo (d : Dev) (n tick : Nat) : Dev :=
  let r := d.timer n
  if r.armed && !r.running then
    (d.setTimer n { r with running := true, pre := 0, tick := tick, start := none, reset := none }).timerTest n 0
  else d.setTimer n { r with start := none }

/-- A reset at a tick: that tick's new count is 0 on a running timer, a count of 0 on another (R362). -/
def Dev.timerZero (d : Dev) (n tick : Nat) : Dev :=
  let r := d.timer n
  if r.running then (d.setTimer n { r with pre := 0, tick := tick, reset := none, shortEnd := false }).timerTest n 0
  else d.setTimer n { r with count := 0, reset := none }

/-- The period is over at the timer's next tick, which has come; a reset on that tick wins (R362, R365, R373). -/
def Dev.periodDue (d : Dev) (n : Nat) : Bool :=
  let r := d.timer n
  r.running && !r.hit0 && !r.hit1 && decide (r.reset ≠ some (r.tick + 1)) && decide (d.obj (0x2B00 + n) 0x02 ≤ r.pre) &&
    decide (d.obj (0x2B00 + n) 0x03 ≤ r.count) && decide (r.tick < d.tickNow)

/-- The inputs of actions that have come due are taken, a reset before a start (R362, R366). -/
def Dev.timerInputs (d : Dev) (n : Nat) : Dev :=
  let r := d.timer n
  let d := match r.reset with
    | some a => if a ≤ d.tickNow && (!r.running || decide (a ≤ r.tick + 1)) && !r.hit0 && !r.hit1 then d.timerZero n a else d
    | none => d
  match (d.timer n).start with
  | some a => if a ≤ d.tickNow then d.timerGo n a else d
  | none => d

/-- TIMER_TICK (R360, R362): the timer's ticks up to now, those at which nothing is to be done but count; what actions have sent it
is taken at its tick; the end of a period is PERIOD_END's, the list of a unit that has fired COMPARE_MATCH's. -/
def Dev.timerTick (d : Dev) (n : Nat) : Dev :=
  if d.runs 1 then ((d.timerTo n).timerInputs n).timerTo n else d

/-- PERIOD_END (R362, R365): act_period, then the wrap to 0 or the end of a one-shot timer. -/
def Dev.periodEnd (d : Dev) (n : Nat) : Dev :=
  let i := 0x2B00 + n
  if !d.runs 1 then d
  else
    let d := d.timerTo n
    if !d.periodDue n then d
    else
      let r := d.timer n
      let at_ := 8 * (r.tick + 1)
      let acts := d.obj i 0x09
      let d := (d.setObj i 0x1B at_).timerCause n 2
      let d := if r.shortEnd then (d.setBit i 0x15 2 true).timerCause n 6 else d
      if d.obj i 0x01 = 1 then
        let d := d.setTimer n { r with running := false, armed := acts.testBit 1, count := 0, pre := 0, tick := r.tick + 1
                                       shortEnd := false, start := none }
        d.act n acts at_
      else
        let d := (d.setTimer n { r with pre := 0, tick := r.tick + 1, shortEnd := false, start := none }).timerTest n 0
        d.act n acts at_

/-- COMPARE_MATCH (R363, R364, R366): unit `u` has fired at a tick that has come; its list is performed. -/
def Dev.compareMatch (d : Dev) (n u : Nat) : Dev :=
  if !d.runs 1 then d
  else
    let d := d.timerTo n
    let r := d.timer n
    if d.tickNow < r.tick then d
    else if u = 0 && r.hit0 then
      ((d.setTimer n { r with hit0 := false }).act n (d.obj (0x2B00 + n) 0x07) (8 * r.tick)).timerCause n 0
    else if u = 1 && r.hit1 then
      ((d.setTimer n { r with hit1 := false }).act n (d.obj (0x2B00 + n) 0x08) (8 * r.tick)).timerCause n 1
    else d

/-- cmd 1 (R361). -/
def Dev.timerArm (d : Dev) (n : Nat) : Dev := d.setTimer n { (d.timer n) with armed := true }

/-- cmd 2 (R361). -/
def Dev.timerStart (d : Dev) (n : Nat) : Dev := (d.timerArm n).timerGo n d.tickNext

/-- cmd 3 (R361): idle, the count held. A list that a tick already come has fired is still performed. -/
def Dev.timerStop (d : Dev) (n : Nat) : Dev :=
  let d := d.timerTo n
  let r := d.timer n
  let keep := decide (r.tick ≤ d.tickNow)
  d.setTimer n { r with running := false, armed := false, start := none, reset := none, shortEnd := false
                        hit0 := r.hit0 && keep, hit1 := r.hit1 && keep }

/-- START_INPUT (R361): a start of a link or of the timer itself whose tick is the next one takes effect, or a pulse on start_line
arrives. -/
def Dev.startInput (d : Dev) (n : Nat) : Dev :=
  if !d.runs 1 then d else
    match (d.timer n).start with
    | some a => if a ≤ d.tickNext then d.timerGo n a else d
    | none => d.onPulse (.timerStart n) (d.obj (0x2B00 + n) 0x0D) (fun d => d.timerGo n d.tickNext)

/-- RESET_INPUT (R362): a reset of a link or of the timer itself whose tick is the next one takes effect, or a pulse on reset_line
arrives. -/
def Dev.resetInput (d : Dev) (n : Nat) : Dev :=
  if !d.runs 1 then d else
    let d := d.timerTo n
    match (d.timer n).reset with
    | some a => if a ≤ d.tickNext then d.timerZero n a else d
    | none => d.onPulse (.timerReset n) (d.obj (0x2B00 + n) 0x0E) (fun d => d.timerZero n d.tickNext)

/-- The count of a timer now (R369, R376). -/
def Dev.timerCount (d : Dev) (n : Nat) : Nat := ((d.timerTo n).timer n).count

/-- A rise is captured now (R369). Of a rise and a fall of one instant the rise is taken first, whichever is reported first. -/
def Dev.captureRose (d : Dev) (n : Nat) : Dev :=
  let i := 0x2B00 + n
  let r := d.timer n
  let count := d.timerCount n
  let d := match r.rise with
    | some p => d.setObj i 0x19 (d.now - p)
    | none => d
  let d := (((d.setObj i 0x16 d.now).setObj i 0x1A count).setBit i 0x15 3 true).inc i 0x1C
  let d := match r.fell with
    | some (a, paired) =>
      if a = d.now then
        let d := (d.setObj i 0x18 0).setBit i 0x15 3 false
        if paired then d else d.setObj i 0x1D (d.obj i 0x1D - 1)
      else d
    | none => d
  ((d.setTimer n { r with rise := some d.now, fell := none }).act n (d.obj i 0x0A) d.now).timerCause n 3

/-- A fall is captured now (R369). -/
def Dev.captureFell (d : Dev) (n : Nat) : Dev :=
  let i := 0x2B00 + n
  let d := (d.setObj i 0x17 d.now).inc i 0x1C
  let d := d.setTimer n { (d.timer n) with fell := if (d.timer n).rise = some d.now then none else some (d.now, d.bit i 0x15 3) }
  let d := if d.bit i 0x15 3 then (d.setObj i 0x18 (d.now - d.obj i 0x16)).setBit i 0x15 3 false else d.inc i 0x1D
  (d.act n (d.obj i 0x0B) d.now).timerCause n 4

/-- CAPTURE_RISE (R369): an edge at the pin, or the arrival of a pulse of the line that cap_src names (R37). -/
def Dev.captureRise (d : Dev) (n : Nat) : Dev :=
  let src := d.obj (0x2B00 + n) 0x0F
  if !d.runs 1 || src = 0xFFFF then d
  else if src < 0x100 then d.onPulse (.captureRise n) src (fun d => d.captureRose n) else d.captureRose n

/-- CAPTURE_FALL (R369): an edge at the pin, or the arrival of a pulse of the line that cap_fall names. -/
def Dev.captureFall (d : Dev) (n : Nat) : Dev :=
  let i := 0x2B00 + n
  let src := d.obj i 0x0F
  if !d.runs 1 || src = 0xFFFF then d
  else if src < 0x100 then d.onPulse (.captureFall n) (d.obj i 0x10) (fun d => d.captureFell n) else d.captureFell n

/-- Zeroes :1C, :1D and the sticky bits (R376). -/
def Dev.timerClear (d : Dev) (n : Nat) : Dev :=
  (d.zero (0x2B00 + n) 0x1C 0x1D).setObj (0x2B00 + n) 0x15 (d.obj (0x2B00 + n) 0x15 &&& 0x8)

/-- A release of the timers of a mask on one tick (R368): the first after the command reaches the Timebase. -/
def Dev.gstart (d : Dev) (mask : Nat) : Dev :=
  let tick := d.tickNext
  let d := (maskBits 32 mask).foldl (fun d n =>
    let r := d.timer n
    if r.running then (d.timerTo n).timerZero n tick else if r.armed then d.timerGo n tick else d.inc 0x2B80 0x06) d
  ((d.setObj 0x2B80 0x04 (8 * tick)).inc 0x2B80 0x05).pulseAt 248 (8 * tick)

/-- GSTART_LINE (R368): a pulse on the line arrives. -/
def Dev.gstartLine (d : Dev) : Dev :=
  if d.runs 1 then d.onPulse .gstart (d.obj 0x2B80 0x03) (fun d => d.gstart (d.obj 0x2B80 0x02)) else d

/-- State code of a timer: 0 idle, 1 armed, 2 running (R376). -/
def Dev.timerState (d : Dev) (n : Nat) : Nat :=
  let r := d.timer n
  if r.running then 2 else if r.armed then 1 else 0

/-- A unit's value lies behind (R363): `any` false tests only against the period. -/
def Dev.behind (d : Dev) (n u : Nat) (any : Bool) : Dev :=
  let i := 0x2B00 + n
  let r := d.timer n
  let v := d.obj i (0x04 + u)
  let passed := any && r.running && d.obj i 0x01 = 1 && !d.bit i 0x06 u && decide (v ≤ r.count)
  if d.obj i 0x03 < v || passed then (d.setBit i 0x15 u true).timerCause n 5 else d

/-- A write of a compare value (R363): the fired flag clears. -/
def Dev.compareWritten (d : Dev) (n u : Nat) : Dev :=
  let r := d.timer n
  (d.setTimer n (if u = 0 then { r with fired0 := false } else { r with fired1 := false })).behind n u true

/-- A write of the period (R363, R365). -/
def Dev.periodWritten (d : Dev) (n : Nat) : Dev :=
  let r := d.timer n
  let d := d.setTimer n { r with shortEnd := r.running && decide (d.obj (0x2B00 + n) 0x03 ≤ r.count) }
  (d.behind n 0 false).behind n 1 false

/-- Zeroes the counters of a line's route object (R378). -/
def Dev.routeClear (d : Dev) (line : Nat) : Dev :=
  d.setLine line { (d.line line) with pulses := 0, merges := 0, suppressed := 0 }

/-- A reset of PD1 or PD2 for this chapter (R375): every timer idle, counters zero, gates open. -/
def Dev.timersReset (d : Dev) : Dev :=
  (({ d with timers := [], evt := [], heard := [] }.resetObjs 0x2B00 0x2B1F).resetObjs 0x2B80 0x2B80).resetObjs 0x2F80 0x2FFF

end Sys2Proof.Machine
end

