-- ==== Sys2Proof/Machine/Power.lean ====
section
/-! DEFINITION. Reset assertion, resets of single domains, core restarts, power domains switched off and on, and the
Nightlight's watches (R440, R456 to R460, R465, R468, R471; chapter 16). -/

namespace Sys2Proof.Machine

/-! ### The Nightlight's watches -/

/-- The domain that must be off for a watch to be live, or none is needed (R440). -/
def watchDomain (kind : Nat) : Option Nat :=
  if kind = 1 then some 13 else if kind = 2 then some 5 else if kind = 3 then some 12 else none

/-- A watch is live, in service or asleep: the Nightlight is enabled, its kind is not 0 and its domain is off; a comparator pair was enabled in M3
as PD13 went off (R440). -/
def Dev.watchLive (d : Dev) (w : Nat) : Bool :=
  let v := d.obj 0x2E20 (0x10 + w)
  let kind := v / 2 ^ 28
  (d.ready || d.rst.slept.isSome) && d.obj 0x2E20 0x01 = 1 && decide (1 ≤ kind) && decide (kind ≤ 4) &&
    (match watchDomain kind with
      | some k => !d.pdOn k
      | none => true) &&
    (kind ≠ 1 || d.rst.m3.testBit (v % 256))

/-- A comparator watch that cannot become live (R440). -/
def Dev.watchDead (d : Dev) (w : Nat) : Bool :=
  let v := d.obj 0x2E20 (0x10 + w)
  d.obj 0x2E20 0x01 = 1 && decide (v / 2 ^ 28 = 1) && !d.pdOn 13 && !d.rst.m3.testBit (v % 256)

/-- Looks at every watch again: one that has become live counts from now. -/
def Dev.nightLook (d : Dev) : Dev :=
  (List.range 16).foldl (fun (d : Dev) w =>
    let old : NightWatch := Store.get (fun _ => {}) d.night w
    let new : NightWatch := if d.watchLive w then (if old.live then old else { live := true, since := d.now }) else {}
    { d with night := Store.put (fun _ => {}) d.night w new }) d

/-- The pairs enabled in M3 now (R355). -/
def Dev.m3Pairs (d : Dev) : Nat := wordOf 16 (fun n => d.obj (0x2A00 + n) 0x01 = 1 && d.obj (0x2A00 + n) 0x02 = 3)

/-! ### Domains switched off and on -/

/-- A domain loses its power outside a reset (R471): its contents stay; captures in progress are abandoned. -/
def Dev.powerOff (d : Dev) (k : Nat) : Dev :=
  if !d.pdOn k then d
  else
    let d := if k = 13 then { d with rst := { d.rst with m3 := d.m3Pairs } } else d
    let d := if k = 9 then d.boostGatesLow else d
    let d := if k = 11 then
      (List.range 8).foldl (fun d v => d.vibDisable v) ((List.range 24).foldl (fun (d : Dev) c => d.setPress c (d.press c).rest) d) else d
    let d := if k = 10 then
      (List.range 16).foldl (fun (d : Dev) n => d.setLane n { (d.lane n) with cap := none, res := none }) d else d
    d.setBit 0x2F10 0x01 k false

/-- A domain is powered again without a reset of its contents (R355, R471). -/
def Dev.powerUp (d : Dev) (k : Nat) : Dev :=
  if d.pdOn k then d
  else
    let d := d.setBit 0x2F10 0x01 k true
    if k = 13 then d.cmpPowered else d

/-- The domains from PD1 to PD13 take the states of a mask (R471). -/
def Dev.powerMask (d : Dev) (mask : Nat) : Dev :=
  ((List.range 14).foldl (fun d k => if mask.testBit k then d.powerUp k else d.powerOff k) d).nightLook

/-! ### History -/

/-- A history entry: cause, phase at assertion, detail, number (R486). -/
def Dev.history (d : Dev) (cause detail : Nat) : Dev :=
  let e := cause * 2 ^ 28 + d.obj 0x2F00 0x01 * 2 ^ 24 + detail % 256 * 2 ^ 16 + d.obj 0x2F00 0x0B % 2 ^ 16
  let d := (List.range 15).foldl (fun (d : Dev) k => d.setObj 0x2F00 (0x1F - k) (d.obj 0x2F00 (0x1E - k))) d
  d.setObj 0x2F00 0x10 e

/-! ### Device resets -/

/-- Objects that every device reset but power-on leaves as they are (R42, R120, R450, R465, R469, R486): as pairs of a first and a
last object by index and subindex. -/
def keptObjs : List (Nat × Nat) :=
  [ (0x1018 * 256, 0x1018 * 256 + 0xFF), (0x1104 * 256 + 0x15, 0x1104 * 256 + 0x15), (0x1105 * 256 + 0x15, 0x1105 * 256 + 0x15)
  , (0x2000 * 256 + 0x02, 0x2000 * 256 + 0x06), (0x2000 * 256 + 0x08, 0x2000 * 256 + 0x08)
  , (0x2E20 * 256, 0x2E20 * 256 + 0xFF), (0x2F00 * 256 + 0x02, 0x2F00 * 256 + 0x02)
  , (0x2F00 * 256 + 0x04, 0x2F00 * 256 + 0x06), (0x2F00 * 256 + 0x0B, 0x2F00 * 256 + 0x0C)
  , (0x2F00 * 256 + 0x10, 0x2F00 * 256 + 0x1F), (0x2F10 * 256 + 0x06, 0x2F10 * 256 + 0x06)
  , (0x2F30 * 256, 0x2F30 * 256 + 0xFF) ]

/-- An object keeps its value over a device reset. -/
def keptKey (k : Nat) : Bool := keptObjs.any (fun r => decide (r.1 ≤ k / keySpan) && decide (k / keySpan ≤ r.2))

/-- The port defaults that the OPT group sets (R57). -/
def Dev.groupDefaults (d : Dev) : Dev :=
  let g := d.obj 0x2F00 0x05
  let d := ([1, 2, 3] : List Nat).foldl (fun d n => d.setObj (0x1100 + n) 0x10 (16 * g + n)) d
  ([4, 5] : List Nat).foldl (fun d n => d.setObj (0x1100 + n) 0x10 (((169 * 256 + 254) * 256 + 100 + g) * 256 + n)) d

/-- The stop inputs as the pins stand (R300, R301, R317). -/
def Dev.stopPins (d : Dev) : Dev :=
  ((d.setBit 0x28C8 0x01 1 (d.stops.armHigh && d.stops.armFell.isNone)).setBit 0x28C8 0x01 2 d.stops.killLow).protStatus

/-- The logic of PD2 to PD13 is reset (R465): objects take their defaults, everything in progress is gone, the non-volatile
store, the firmware banks, the factory area, the test port and what PD0 and PD1 hold stay. -/
def Dev.clearLogic (d : Dev) (kept : Nat → Bool) : Dev :=
  let e : Dev :=
    { now := d.now, free := d.free, regs := d.regs.filter (fun r => kept r.1), sent := d.sent
      ports := d.ports.map (fun (r : Nat × Port) => (r.1, { strapMaster := r.2.strapMaster }))
      tb := d.tb, rst := d.rst, nv := { d.nv with jobs := [] }, fw := d.fw, factory := d.factory, night := d.night, tap := d.tap
      nextOcc := d.nextOcc, boosts := d.boosts.map (fun (r : Nat × Boost) => (r.1, { mv := r.2.mv }))
      stops := { armHigh := d.stops.armHigh, killLow := d.stops.killLow, armFell := d.stops.armFell } }
  e.groupDefaults.stopPins

/-- The counter starts again at 0 (R103): refill times that have run are kept (R482), other marks start over. -/
def Dev.restartCounter (d : Dev) : Dev :=
  { d with
    now := 0
    tb := { d.tb with restore := none, calAt := 0, vernAt := none }
    night := d.night.map (fun (e : Nat × NightWatch) => (e.1, { e.2 with since := 0 }))
    nv := { d.nv with accP := d.nv.accP + (d.now - d.nv.refP), accL := d.nv.accL + (d.now - d.nv.refL), refP := 0, refL := 0
                      logFrom := 0 } }

/-- The phase at which a device reset restarts (R456, R458, R484): `target` 1 for power-on, 2, 5 for a wake, 6 for an
activation. While a cause still holds the reset, the earlier restart governs. -/
def Dev.restartPhase (d : Dev) (target : Nat) : Nat :=
  let ph := d.obj 0x2F00 0x01
  let new := if target ≠ 1 && (ph = 3 || ph = 4) then 3 else target
  if d.rst.heldPower || d.rst.heldPin then min ph new else new

/-- Reset assertion (R456 to R458, R465): the cause is recorded, all logic of PD2 to PD13 is reset, sessions close and claims
clear, and the sequence restarts. The domains stay powered for a firmware activation. -/
def Dev.assertReset (d : Dev) (cause detail target : Nat) : Dev :=
  let new := d.restartPhase target
  let on := d.obj 0x2F10 0x01
  let d := (d.inc 0x2F00 0x0B).history cause detail
  let again := target ≠ 1 && new = 3
  let r := d.rst
  let d := { d with rst := { r with
    optRestarts := if again then min 15 (r.optRestarts + 1) else r.optRestarts
    optCount := 0, optCodes := [], optTaken := false, bootStuck := false, heldSeq := none, domReset := none, domLate := false, browned := []
    slept := none, waking := decide (target = 5), activated := decide (target = 6), pinsOut := false } }
  let d := if d.tap.instr = 0 then { d with tap := { d.tap with driving := false, pinned := true } } else d
  let d := (d.clearLogic keptKey).setObj 0x2F00 0x01 new
  let d := (d.setBit 0x2F00 0x02 0 false).setBit 0x2F00 0x02 1 false
  let d := d.setObj 0x2F10 0x06 (d.obj 0x2F10 0x06 % 2)
  (d.setObj 0x2F10 0x01 (if new = 6 then on else 3)).nightLook

/-- Objects that a power-on keeps: identity and the MAC addresses (R42). -/
def bornObjs (k : Nat) : Bool :=
  decide (k / keySpan / 256 = 0x1018) || decide (k / keySpan = 0x1104 * 256 + 0x15) || decide (k / keySpan = 0x1105 * 256 + 0x15)

/-- POWER_ON (R456, R465, R482, R486): PD0 is cleared, the counter and the epoch are 0, the reset is held until the supply is
back; supply_low stands. -/
def Dev.powerOn (d : Dev) : Dev :=
  let d := { d with tb := {}, rst := { heldPower := true, heldPin := d.rst.heldPin, pinsOut := false, optTaken := false, tbStopped := true }
                    night := [], tap := {} }
  let d := (d.clearLogic bornObjs).restartCounter
  let d := { d with nv := { d.nv with tokP := 1, tokL := 1, accP := 0, accL := 0, importsSincePower := 0 } }
  let d := ((d.setObj 0x2F00 0x01 1).setObj 0x2F00 0x0B 1).setObj 0x2F00 0x10 0x10000001
  (d.setObj 0x2F10 0x06 1).setObj 0x2F10 0x01 3

/-- POWER_ON_RELEASE (R456). -/
def Dev.powerOnRelease (d : Dev) : Dev := { d with rst := { d.rst with heldPower := false } }

/-- RESET_N low for 1 us (R456). -/
def Dev.resetN (d : Dev) : Dev :=
  if d.rst.heldPin then d
  else
    let d := d.assertReset 3 0 2
    { d with rst := { d.rst with heldPin := true } }

/-- RESET_N rises (R456). -/
def Dev.resetNRelease (d : Dev) : Dev := { d with rst := { d.rst with heldPin := false } }

/-! ### Cores -/

/-- C0 restarts a core, or the third restart within 60 s, or a fault of C0, makes a device reset (R460). -/
def Dev.coreRestart (d : Dev) (c : Nat) : Dev :=
  if c = 0 then d.assertReset 6 0x80 2
  else
    let r := d.core c
    let times := d.now :: r.restarts.filter (fun t => decide (d.now < t + 60 * tqSec))
    let d := (d.history 9 c).inc 0x2F00 0x0C
    let d := d.setCore c { r with down := true, presented := none, restarts := times }
    let d := d.raiseIf (d.bit 0x2F00 0x0D 1) 123
    if 3 ≤ times.length then d.assertReset 6 (0x80 + c) 2 else d

/-- The firmware runs: from phase P6 on, out of reset assertion and sleep (R458, R461). -/
def Dev.coresRun (d : Dev) : Bool :=
  decide (6 ≤ d.obj 0x2F00 0x01) && !d.rst.bootStuck && !d.rst.heldPower && !d.rst.heldPin && d.rst.slept.isNone

/-- WATCHDOG (R456, R460): of a core that runs. -/
def Dev.watchdog (d : Dev) (c : Nat) : Dev := if d.coresRun && !d.coreDown c then d.coreRestart c else d

/-- CORE_RESUME (R460). -/
def Dev.coreResume (d : Dev) (c : Nat) : Dev :=
  if d.coresRun && (d.core c).down then d.setCore c { (d.core c) with down := false } else d

/-! ### Resets of single domains -/

/-- The keep-alive stops while the blocks that send it are out (R22). -/
def Dev.aliveStops (d : Dev) : Dev := if d.bit 0x28C8 0x01 3 then d.linkLoss else d

/-- The contents of a domain from PD4 to PD13 are reset (the reset rules of the chapters). -/
def Dev.pdReset (d : Dev) (k : Nat) : Dev :=
  if k = 4 then
    let d := (d.aliveStops.stackReset 2).stackReset 3
    (d.setCore 2 { (d.core 2) with down := false }).setCore 3 { (d.core 3) with down := false }
  else if k = 5 then d.syncReset
  else if k = 6 then d.aliveStops.schedReset
  else if k = 7 ∨ k = 8 then d.groupReset k
  else if k = 9 then d.boostReset
  else if k = 10 then d.closureReset
  else if k = 11 then d.sensingReset
  else if k = 12 then d.portsReset.groupDefaults
  else if k = 13 then d.analogReset.lanternReset
  else d

/-- The reset of a domain takes place; its restore follows (R466, R468). -/
def Dev.domainGo (d : Dev) (k : Nat) : Dev :=
  let d := (d.pdReset k).setObj 0x2F00 0x0A 3
  { d with rst := { d.rst with domReset := some k } }

/-- A single-domain reset is asked for (R308, R468): a drive group is first asked for idle. -/
def Dev.domainAsk (d : Dev) (k : Nat) : Dev :=
  let d := { d with rst := { d.rst with domReset := some k, domLate := false } }
  if k = 7 ∨ k = 8 then
    let d := (d.setObj 0x2F00 0x0A 1).groupRequest k
    { d with rst := { d.rst with domDeadline := d.now + d.obj 0x2F00 0x09 * tqUs } }
  else d.domainGo k

/-- DOMAIN_RESET (R468): the reset is recorded as cause 7. -/
def Dev.domainReset (d : Dev) (k : Nat) : Dev := ((d.inc 0x2F00 0x0B).history 7 k).domainAsk k

/-- A brown-out of PD4 to PD13 (R456, R473): both causes whose conditions it meets are recorded; the domain is reset at once. A reset of
another domain that is in progress goes on, and this one waits for its own restore (R520). -/
def Dev.brownSingle (d : Dev) (k : Nat) : Dev :=
  let d := (((d.inc 0x2F00 0x0B).history 2 k).history 7 k).inc 0x2F10 0x07
  let d := (d.setBit 0x2F10 0x06 2 true).raiseIf (d.bit 0x2F10 0x08 1) 122
  let d := if k = 7 ∨ k = 8 then d.groupCut k else d
  match d.rst.domReset with
  | some j =>
    if j = k then
      let d := d.domainGo k
      { d with rst := { d.rst with domLate := false } }
    else
      let d := d.pdReset k
      { d with rst := { d.rst with browned := d.rst.browned.erase k ++ [k] } }
  | none =>
    let d := d.domainGo k
    { d with rst := { d.rst with domLate := false, browned := d.rst.browned.erase k } }

/-- BROWN_OUT (R456, R458, R465): PD1 to PD3 restart the device, the others only themselves; PD0 has no switched rail. -/
def Dev.brownOut (d : Dev) (k : Nat) : Dev :=
  if k = 0 || !d.pdOn k then d
  else if k = 1 then
    let d := (d.assertReset 2 1 2).restartCounter
    { d.inc 0x2000 0x02 with rst := { d.rst with tbStopped := true } }
  else if k ≤ 3 then d.assertReset 2 k 2
  else if d.coresRun then d.brownSingle k
  else d

/-- DRIVE_GROUP_IDLE (R308): the group that was asked for idle is idle and is reset. -/
def Dev.driveGroupIdle (d : Dev) : Dev :=
  match d.rst.domReset with
  | some k => if d.ready && d.obj 0x2F00 0x0A = 1 && d.groupIdle k then d.domainGo k else d
  | none => d

/-- DRIVE_RESET_TIMEOUT (R308): running shots are cut by the clamp, drive_reset_timeout and source 53, then the reset. -/
def Dev.driveResetTimeout (d : Dev) : Dev :=
  match d.rst.domReset with
  | some k =>
    if d.ready && d.obj 0x2F00 0x0A = 1 && decide (d.rst.domDeadline ≤ d.now) then
      let d := (d.groupCut k).setBit 0x28C8 0x01 8 true
      let d := (d.raise 53).domainGo k
      { d with rst := { d.rst with domLate := true } }
    else d
  | none => d

/-! ### Wake and sleep -/

/-- SLEEP (R472): every domain but PD0 and PD1 goes off, the test access port of PD2 among them. -/
def Dev.sleep (d : Dev) : Dev :=
  let d := { d with rst := { d.rst with slept := some d.now, m3 := d.m3Pairs, pinsOut := false }, tap := {} }
  ((d.setObj 0x2F10 0x01 3).nightLook)

/-- Milliseconds of sleep by the RC oscillator, within 2 % (R440, R443). -/
def Dev.sleptMs (d : Dev) (from_ : Nat) : Nat :=
  let ms := (d.now - from_) / tqMs
  min 0xFFFFFF (ms * 98 / 100 + d.openNat 152 % (ms * 4 / 100 + 1))

/-- Where the record of a watch goes: newest first, but of watches that fire together the lower number was first (R449). -/
def Dev.wakePlace (d : Dev) (w : Nat) : Nat :=
  ((List.range (min 7 (d.obj 0x2E20 0x22))).takeWhile (fun k =>
    let v := d.obj 0x2E20 (0x23 + k) / 2 ^ 28
    decide (w < v) && decide ((Store.get (fun _ => {}) d.night v : NightWatch).firedAt = some d.now))).length

/-- The record of a firing goes into the wake log (R443). -/
def Dev.wakeRecord (d : Dev) (w : Nat) : Dev :=
  let kind := d.obj 0x2E20 (0x10 + w) / 2 ^ 28
  let ms := match d.rst.slept with
    | some t => d.sleptMs t
    | none => 0
  let at_ := d.wakePlace w
  let d' := (List.range (7 - at_)).foldl (fun (d : Dev) k => d.setObj 0x2E20 (0x2A - k) (d.obj 0x2E20 (0x29 - k))) d
  ((d'.setObj 0x2E20 (0x23 + at_) (w * 2 ^ 28 + kind * 2 ^ 24 + ms)).inc 0x2E20 0x22).writtenBy 15 0x2E20

/-- The wake in progress was begun at this instant by a watch of a higher number: the lower one was first (R449). -/
def Dev.wakeFirst (d : Dev) (w : Nat) : Dev :=
  let e := d.obj 0x2F00 0x10
  let v := e / 2 ^ 16 % 256
  if e / 2 ^ 28 = 8 && decide (w < v) && decide ((Store.get (fun _ => {}) d.night v : NightWatch).firedAt = some d.now) then
    d.setObj 0x2F00 0x10 (e - (v - w) * 2 ^ 16)
  else d

/-- HATTNn is driven low where wake_hattn names it (R441, R442). -/
def Dev.wakePins (d : Dev) (mask hold : Nat) : Dev :=
  (maskBits 6 mask).foldl (fun (d : Dev) n => d.setPort n { (d.port n) with hattnWake := some (d.now + hold * tqMs) }) d

/-- A watch may fire now (R440): kind 1 on a transition that it names, kind 2 on its param-th change, kind 4 once, no earlier than
wake_period less 2 %, kind 3 as its port shows. -/
def Dev.watchDue (d : Dev) (w : Nat) : Bool :=
  let r : NightWatch := Store.get (fun _ => {}) d.night w
  let v := d.obj 0x2E20 (0x10 + w)
  r.live && (match v / 2 ^ 28 with
    | 1 => decide (0 < r.hits)
    | 2 => !r.done && decide (v / 256 % 256 ≤ r.hits)
    | 4 => !r.done && decide (r.since + d.obj 0x2E20 0x05 * tqMs * 98 / 100 ≤ d.now)
    | _ => true)

/-- WATCH_FIRE (R441, R456, R472): a record, the HATTN pins, and power for wake_domains; out of sleep the device restarts at P5
with cause 8. While a wake is in progress only the record is written. -/
def Dev.watchFire (d : Dev) (w : Nat) : Dev :=
  if !d.watchDue w then d
  else
    let mask := d.obj 0x2E20 0x02 ||| 0x000F
    let pins := d.obj 0x2E20 0x03
    let hold := d.obj 0x2E20 0x04
    let d := d.wakeRecord w
    let r : NightWatch := Store.get (fun _ => {}) d.night w
    let kind := d.obj 0x2E20 (0x10 + w) / 2 ^ 28
    let r := { r with hits := 0, done := decide (kind = 2 ∨ kind = 4), firedAt := some d.now }
    let d := { d with night := Store.put (fun _ => {}) d.night w r }
    if d.rst.waking then d.wakeFirst w
    else if d.rst.slept.isSome then
      let keep := d.night
      let d := (d.assertReset 8 w 5).wakePins pins hold
      { d with rst := { d.rst with wakeMask := mask }, night := keep }
    else
      let d := (d.wakePins pins hold).raise 126
      let want := d.obj 0x2F10 0x02 ||| mask
      (d.setObj 0x2F10 0x02 want).powerMask want

/-- HATTN_RELEASE (R442): hattn_hold has elapsed. -/
def Dev.hattnRelease (d : Dev) (p : Nat) : Dev :=
  match (d.port p).hattnWake with
  | some t => if t ≤ d.now then d.setPort p { (d.port p) with hattnWake := none } else d
  | none => d

/-- HATTNn is low: by a read-out pending on P0 (R50), by a held batch (R89) or by the Nightlight (R441). -/
def Dev.hattnLow (d : Dev) (n : Nat) : Bool :=
  let r := d.port n
  r.hattnHeld || r.hattnWake.isSome || (decide (n = 0) && !r.readout.isEmpty && !d.dozing 0)

/-- REPLICA_FAULT (R26, R473), from phase P6 on, when the power manager runs: both domains disarmed, the fault bit, source 122 and a log entry. -/
def Dev.replicaFault (d : Dev) : Dev :=
  if d.coresRun then (((d.disarmBoth false).setBit 0x2F10 0x06 1 true).raise 122).logEvent 1 122 122 0 else d

/-- SUPPLY_LOW (R473). -/
def Dev.supplyLow (d : Dev) : Dev :=
  if d.bit 0x2F10 0x06 0 then d
  else (d.setBit 0x2F10 0x06 0 true).raiseIf (d.bit 0x2F10 0x08 0) 122

/-- SUPPLY_LOW_CLEAR (R473). -/
def Dev.supplyLowClear (d : Dev) : Dev := d.setBit 0x2F10 0x06 0 false

/-- POWER_CLEAR (R487). -/
def Dev.powerClear (d : Dev) : Dev := (d.setObj 0x2F10 0x07 0).setBit 0x2F10 0x06 2 false

end Sys2Proof.Machine
end

