-- ==== Sys2Proof/Machine/Views.lean ====
section
/-! DEFINITION. What a read of an object returns (R11, R12, R43): the stored value, or what the object shows of the machine's
state at the instant of the read. -/

namespace Sys2Proof.Machine

/-- The power domain that holds an object, where it can be switched off (R470, R471). -/
def objPd (idx sub : Nat) : Option Nat :=
  if 0x2180 ≤ idx ∧ idx ≤ 0x2181 ∧ 0x30 ≤ sub then some 6
  else if 0x2100 ≤ idx ∧ idx < 0x2300 then some 5
  else if (0x2400 ≤ idx ∧ idx < 0x2640) ∨ (0x3000 ≤ idx ∧ idx < 0x3400) then some 6
  else if (0x2700 ≤ idx ∧ idx < 0x2730) then some (groupPd (idx - 0x2700))
  else if (0x2880 ≤ idx ∧ idx < 0x28B0) then some (groupPd (idx - 0x2880))
  else if (0x2740 ≤ idx ∧ idx < 0x2750) then some (7 + (idx - 0x2740) / 8)
  else if (0x28B0 ≤ idx ∧ idx < 0x28C0) then some (7 + (idx - 0x28B0) / 8)
  else if idx = 0x2780 ∨ idx = 0x2781 ∨ idx = 0x28C0 ∨ idx = 0x28C1 then some 9
  else if 0x2800 ≤ idx ∧ idx < 0x2850 then some 10
  else if 0x2900 ≤ idx ∧ idx < 0x2928 then some 11
  else if (0x2A00 ≤ idx ∧ idx < 0x2A14) ∨ (0x2C00 ≤ idx ∧ idx < 0x2C08) then some 13
  else none

/-- The object's domain is off (R471). -/
def Dev.objOff (d : Dev) (idx sub : Nat) : Bool :=
  match objPd idx sub with
  | some k => !d.pdOn k
  | none => false

/-! ### Views of the scheduler -/

/-- The present occurrence of a record that a read shows: the first that has not ended. -/
def Dev.shown (d : Dev) (rid : Nat) : Option Occ := ((d.present rid).head?).map (·.2)

/-- A part of the present occurrence, 0 where there is none or it does not resolve. -/
def Dev.shownPart (d : Dev) (rid : Nat) (p : Part) : Nat :=
  match d.shown rid with
  | some o => (d.resolveOcc o p).getD 0
  | none => 0

/-- The bank that a channel reports: none from the request of a reset of its drive group until the group is ready (R308). -/
def Dev.bankShown (d : Dev) (n : Nat) : Nat :=
  if d.groupDown (groupPd n) then 0xFF else d.bankOf n

/-- Computed subindices of a shot record (R235). -/
def Dev.viewShot (d : Dev) (s sub : Nat) : Option Nat :=
  let c := d.recCfg s
  if sub = 0x12 then some (d.recState s)
  else if sub = 0x14 then some (match d.shown s with
    | some o => o.start.getD 0
    | none => 0)
  else if sub = 0x17 then some (match d.shown s with
    | some o => if o.frozen then o.dur else d.elecDur c
    | none => d.elecDur c)
  else if sub = 0x1B then some ((d.recDom s).getD 0xFF)
  else if sub = 0x1C then some (if c.channel < 48 then d.bankShown c.channel else 0xFF)
  else if sub = 0x1D then some (match parentSheaf c.parent with
    | some h => d.depth h
    | none => 0)
  else none

/-- Computed subindices of a sheaf record (R236). -/
def Dev.viewSheaf (d : Dev) (h sub : Nat) : Option Nat :=
  let rid := 0x8000 + h
  if sub = 0x0F then some (d.recState rid)
  else if sub = 0x11 then some (d.shownPart rid .time)
  else if sub = 0x12 then some (d.shownPart rid .start)
  else if sub = 0x13 then some (d.shownPart rid .stop)
  else if sub = 0x14 then some (d.members rid).length
  else if sub = 0x16 then some ((d.recDom rid).getD 0xFF)
  else if sub = 0x17 then some (d.depth rid)
  else none

/-! ### Views of the other blocks -/

/-- Computed subindices of the synthesiser (R192): all 0 in STOPPED, SEARCH and LOSS. -/
def Dev.viewSynth (d : Dev) (k sub : Nat) : Option Nat :=
  let known := (d.synth k).live && decide (2 ≤ d.domState k) && decide (d.domState k ≤ 4)
  if sub = 0x1D then some (if known then d.estAt k d.now else 0)
  else if sub = 0x1E then some (if known then d.now else 0)
  else if sub = 0x1F then some (if known then d.rateWord k d.now else 0)
  else none

/-- Computed subindices of the firmware object (R95). -/
def Dev.viewFirmware (d : Dev) (sub : Nat) : Option Nat :=
  let bank := fun b : Nat => (Store.get (fun _ => {}) d.fw b : FwBank)
  let other := bank (1 - d.rst.bootBank)
  if sub = 0x04 then some (bank d.rst.bootBank).version
  else if sub = 0x05 then some (if other.verify = 2 then other.version else 0)
  else if sub = 0x06 then some d.rst.bootBank
  else none

/-- Computed subindices of an event line's half of a route object (R378). -/
def Dev.viewRoute (d : Dev) (line sub : Nat) : Option Nat :=
  let l := d.line line
  if sub = 0x02 then some l.pulses else if sub = 0x03 then some l.merges else if sub = 0x04 then some l.suppressed
  else if sub = 0x05 then some l.last else none

/-- Computed subindices of a Lantern engine (R400). -/
def Dev.viewLantern (d : Dev) (e sub : Nat) : Option Nat :=
  let l := d.lan e
  if sub = 0x1D then some (d.lanState e)
  else if sub = 0x1E then some l.reason
  else if sub = 0x40 then some l.pc
  else if sub = 0x41 then some l.ir
  else if sub = 0x42 then some (match l.cur with
    | some c => c.bits
    | none => 0)
  else if sub = 0x43 then some l.k0
  else if sub = 0x44 then some l.k1
  else if sub = 0x45 then some l.osh
  else if sub = 0x46 then some l.ish
  else if sub = 0x47 then some (l.oshN * 256 + l.ishN)
  else if sub = 0x48 then some (l.tx.length * 16 + l.rx.length)
  else if sub = 0x49 then some (d.lanStatus e)
  else none

/-- Computed subindices of a core's stack (R452). -/
def Dev.viewStack (d : Dev) (c sub : Nat) : Option Nat :=
  let r := d.core c
  if sub = 0x01 then some r.stack.length
  else if sub = 0x02 then some (match r.stack with
    | (s, _) :: _ => s
    | [] => 0xFF)
  else if sub = 0x03 then some (match r.stack with
    | (_, p) :: _ => p
    | [] => 0xFF)
  else if sub = 0x04 then some (b2n r.frozen)
  else none

/-- Computed subindices of the reset, power, store and backup objects (R486 to R489): the supplies are as measured, free within R25,
which lets the core supply fall below 0.72 V only below 150 degrees. -/
def Dev.viewPower (d : Dev) (kind : ObjKind) (port sub : Nat) : Option Nat :=
  match kind with
  | .power =>
    if sub = 0x04 then some (d.openNat 161 % 65536)
    else if sub = 0x05 then some (if 150 ≤ d.sobj 16 0x28C8 0x04 then 720 + d.openNat 162 % 181 else 620 + d.openNat 162 % 281)
    else none
  | .nv =>
    if sub = 0x07 then some (d.nv.tokP * 256 + d.nv.tokL)
    else if sub = 0x10 then some (d.port port).logIndex
    else if sub = 0x12 then some (d.nv.logNext % 2 ^ 32)
    else none
  | _ => none

/-- The number of enabled shots that name a profile (R268). -/
def Dev.profileUsers (d : Dev) (p : Nat) : Nat := (d.enabled.filter (fun r => !isSheaf r && d.obj (0x3000 + r) 0x04 = p)).length

/-- Computed subindices of the Timebase (R119): the counter advances by 8, so time_now is a multiple of 8 (R6, R106). Between a loss
and REF_RESTORE no command tells when a reference becomes valid again (R113): ref_valid is free there. The PLL locks to the RC
oscillator within 202 us of the loss (R101, R111); pll_locked is free till then. -/
def Dev.viewTimebase (d : Dev) (sub : Nat) : Option Nat :=
  let st := d.obj 0x2000 0x04
  if sub = 0x01 then some (d.now / 8 * 8)
  else if sub = 0x04 && st.testBit 3 && !st.testBit 4 then
    let lost := (d.tb.restore.getD (0, 0)).2
    let st := if lost < d.now then bitTo st 0 (d.openBool 171) else st
    some (if d.now < lost + 202 * tqUs then bitTo st 1 (d.openBool 170) else st)
  else none

/-- Computed subindices of a domain. In CAM_ONLY the cycle is known, so phase shows the revolution in which the estimate lies (R137,
R166); slot_tdc and slot_flags of a slot outside the domain's mask read 0 (R207). -/
def Dev.viewDomain (d : Dev) (k sub : Nat) : Option Nat :=
  if sub = 0x13 ∧ d.domState k = 4 then
    let p := d.pat k
    some ((d.estAt k d.now + auCycle - p.offset % auCycle) % auCycle * p.revs / auCycle)
  else if 0x40 ≤ sub ∧ sub ≤ 0x6F ∧ !d.bit (0x2180 + k) 0x30 ((sub - 0x40) % 24) then some 0 else none

/-- What a read shows in place of a stored value. -/
def Dev.viewOf (d : Dev) (port : Nat) (b : ObjBlock) (inst sub : Nat) : Option Nat :=
  match b.kind with
  | .timebase => d.viewTimebase sub
  | .port => if 4 ≤ inst ∧ sub = 0x16 then some (b2n (d.linkUp inst)) else none
  | .notify =>
    if sub = 0x03 then some (d.queuePending inst) else if sub = 0x04 then some (b2n (d.port inst).held) else none
  | .firmware => d.viewFirmware sub
  | .domain => d.viewDomain inst sub
  | .synth => d.viewSynth inst sub
  | .harmonic => if sub = 0x33 then some (d.pat inst).iMax else none
  | .shot => d.viewShot inst sub
  | .sheaf => d.viewSheaf inst sub
  | .profile => if sub = 0x10 then some (d.profileUsers inst) else none
  | .channel =>
    if sub = 0x02 then some (d.bankShown inst) else if sub = 0x05 then some (d.openNat (256 + inst) % 1024) else none
  | .bank => if sub = 0x11 then some (d.openNat (320 + inst) % 1024) else none
  | .boost =>
    if sub = 0x0C then some (d.boostStatus inst) else if sub = 0x0D then some ((d.boost inst).mv / 250) else none
  | .lane => if sub = 0x02 then some (d.laneState inst) else none
  | .ramp => if sub = 0x07 then some (d.rampOwner inst) else none
  | .timer => if sub = 0x13 then some (d.timerState inst) else if sub = 0x14 then some (d.timerCount inst) else none
  | .route => d.viewRoute (2 * inst + sub / 16) (sub % 16)
  | .lantern => d.viewLantern inst sub
  | .dma => if sub = 0x16 then some (d.dmaState inst) else if sub = 0x17 then some (d.dmaStatus inst) else none
  | .irq => if sub = 0x03 then some d.irqStatus else none
  | .source =>
    if sub = 0x11 then some (d.srcWord inst (·.pending)) else if sub = 0x12 then some (d.srcWord inst (·.active)) else none
  | .stack => d.viewStack inst sub
  | .night => if sub = 0x20 then some (wordOf 16 d.watchLive) else if sub = 0x21 then some (wordOf 16 d.watchDead) else none
  | .mailbox =>
    if sub = 0x05 then some (d.mboxWord inst) else if sub = 0x06 then some (d.mboxStatus inst) else none
  | .power | .nv => d.viewPower b.kind port sub
  | _ => none

/-- The value of a scalar object as a read on a port returns it: WO and CMD objects read 0 (R12), RO objects of a domain that
is off read 0 (R471). -/
def Dev.view (d : Dev) (port idx sub : Nat) : Nat :=
  match blockOf idx, objRow idx sub with
  | some b, some r =>
    if sub = 0 then d.obj idx sub
    else if r.acc = .wo ∨ r.acc = .cmd ∨ (r.acc = .ro ∧ d.objOff idx sub) then 0
    else (d.viewOf port b (idx - b.first) sub).getD (d.obj idx sub)
  | _, _ => 0

/-- The 32 symbols of a log entry; an entry that the ring does not hold reads 0 throughout (R483). -/
def Dev.logBytes (d : Dev) (number : Nat) : List Byte :=
  match d.nv.log.find? (fun e => e.number = number) with
  | some e =>
    let b := leBytes 4 e.number ++ leBytes 4 e.epoch ++ leBytes 8 e.time ++ leBytes 2 e.code ++ leBytes 1 e.source ++
      leBytes 1 e.phase ++ leBytes 8 e.data
    b ++ leBytes 4 (crc32 b)
  | none => List.replicate 32 0

/-- The symbols of a BLOB as a read on a port returns them. A write-only one reads 0 (R12), as one symbol: DESIGN CHOICE (log 15). -/
def Dev.viewBlob (d : Dev) (m : Store Byte) (port idx sub len : Nat) : List Byte :=
  match blockOf idx, objRow idx sub with
  | some b, some r =>
    let inst := idx - b.first
    if r.acc = .wo then [0]
    else if r.acc = .ro ∧ d.objOff idx sub then List.replicate len 0
    else match b.kind, sub with
      | .stack, 0x07 => (d.core inst).stackBytes
      | .mailbox, 0x04 => (d.mbox inst).msg
      | .lane, 0x0A => loftBytes m (163840 * inst) len
      | .pressure, 0x1D => d.gridLast m inst
      | .vibration, 0x32 => d.rawCapture m inst
      | .loft, 0x30 => loftBytes m (d.obj 0x2D00 (0x20 + port)) (d.obj 0x2D00 (0x28 + port))
      | .nv, 0x11 => (List.range 16).flatMap (fun k => d.logBytes ((d.port port).logIndex + k))
      | _, _ => d.blobBytes idx sub 0 len
  | _, _ => []

/-- The symbols of an object as a read returns them. -/
def Dev.readObj (d : Dev) (m : Store Byte) (port idx sub : Nat) : List Byte :=
  match objRow idx sub with
  | some r => match r.ty with
    | .blob n => d.viewBlob m port idx sub n
    | ty => leBytes ty.size (d.view port idx sub)
  | none => []

/-- The length of an object as a read returns it, without its symbols. -/
def Dev.readLen (d : Dev) (port idx sub : Nat) : Nat :=
  match objRow idx sub with
  | some r => match r.ty with
    | .blob n =>
      if r.acc = .wo then 1 else if 0x2E40 ≤ idx ∧ idx < 0x2E60 then (d.mbox (idx - 0x2E40)).msg.length
      else if idx = 0x2D00 then d.obj 0x2D00 (0x28 + port) else n
    | ty => ty.size
  | none => 0

/-- What a read does beyond reading: a read of take empties its mailbox (R446). -/
def Dev.readDone (d : Dev) (idx sub : Nat) : Dev :=
  if 0x2E40 ≤ idx ∧ idx < 0x2E60 ∧ sub = 0x05 then d.mboxTake (idx - 0x2E40) else d

end Sys2Proof.Machine
end

