-- ==== Sys2Proof/Machine/Check.lean ====
section
/-! DEFINITION. What refuses a write of objects (R10 to R16, R40 to R45, R61 to R63 and the refusals the chapters name), stage by
stage in the order of R15. -/

namespace Sys2Proof.Machine

/-- One value of a write: its subindex, its raw value and its symbols. -/
structure Put where
  sub : Nat
  raw : Nat
  bytes : List Byte
  deriving DecidableEq, Repr

/-- A write of subindices of one index, as one request (R16). `host` is false for the restore of phase P7 and for an import,
where ownership, session features, RWD and LCK are not tested (R480, R499). -/
structure Wr where
  port : Nat
  host : Bool
  idx : Nat
  inst : Nat
  kind : ObjKind
  puts : List Put
  deriving DecidableEq, Repr

/-- The value the write gives a subindex. -/
def Wr.val (w : Wr) (sub : Nat) : Option Nat := (w.puts.find? (fun p => p.sub = sub)).map (·.raw)

/-- The write names a subindex. -/
def Wr.has (w : Wr) (sub : Nat) : Bool := w.puts.any (fun p => p.sub = sub)

/-- The write names a subindex from `lo` to `hi`. -/
def Wr.span (w : Wr) (lo hi : Nat) : Bool := w.puts.any (fun p => lo ≤ p.sub && p.sub ≤ hi)

/-- The write gives a subindex a value. -/
def Wr.is (w : Wr) (sub v : Nat) : Bool := w.val sub == some v

/-- The write names a subindex of an access code. -/
def Wr.acc (w : Wr) (a : Access) : Bool :=
  w.puts.any (fun p => match objRow w.idx p.sub with | some r => decide (r.acc = a) | none => false)

/-- The write names a subindex of an owner class. -/
def Wr.owned (w : Wr) (o : OwnerClass) : Bool :=
  w.puts.any (fun p => match objRow w.idx p.sub with | some r => decide (r.owner = o) | none => false)

/-- A subindex whose write stores nothing in the dictionary: a command, a window, a message, an image, an import, log_index. -/
def unstored (kind : ObjKind) (sub : Nat) (a : Access) : Bool :=
  a = .cmd || (kind = .loft && sub = 0x30) || (kind = .mailbox && sub = 0x04) || (kind = .firmware && sub = 0x01) ||
    (kind = .learned && sub = 0x02) || (kind = .nv && sub = 0x10)

/-- One value goes into the dictionary. -/
def Dev.storePut (d : Dev) (w : Wr) (p : Put) : Dev :=
  match objRow w.idx p.sub with
  | some r =>
    if unstored w.kind p.sub r.acc then d
    else match r.ty with
      | .blob n => d.setBlob w.idx p.sub n p.bytes
      | _ => d.setObj w.idx p.sub p.raw
  | none => d

/-- The dictionary as the write would leave it: the values that every check "when the request completes" sees. -/
def Dev.stored (d : Dev) (w : Wr) : Dev := w.puts.foldl (fun d p => d.storePut w p) d

/-! ### Features (R61 to R63) -/

/-- The features that gate an object, as (word, bit). -/
def objGates (kind : ObjKind) (inst sub : Nat) : List (Nat × Nat) :=
  match kind with
  | .notify => [(0, 3)]
  | .domain | .pattern | .synth | .tooth | .harmonic => if inst = 1 then [(0, 8)] else []
  | .closure => if 0x0B ≤ sub ∧ sub ≤ 0x1B then [(0, 12), (0, 11)] else [(0, 12)]
  | .lane => [(0, 12)]
  | .pressure => [(0, 14)]
  | .vibration => [(0, 15)]
  | .lantern => [(0, 16)]
  | .dma => [(0, 17)]
  | .mailbox | .doorbell => [(0, 18)]
  | .timer | .gstart => [(0, 19)]
  | .comparator | .ramp => [(0, 20)]
  | .firmware => [(0, 21)]
  | .nv => if 0x10 ≤ sub then [(0, 23)] else []
  | .backup => [(1, 7)]
  | _ => []

/-- The features that gate a write to an object beside those that gate the object. -/
def writeGates (kind : ObjKind) (sub : Nat) : List (Nat × Nat) :=
  match kind with
  | .claims => [(0, 2)]
  | .guardian => if 0x04 ≤ sub ∧ sub ≤ 0x06 then [(0, 7)] else []
  | .harmonic => [(1, 1)]
  | .synth => if 0x0F ≤ sub ∧ sub ≤ 0x17 then [(0, 13)] else if sub = 0x0D then [(1, 0)] else []
  | .lantern => if sub = 0x1A then [(1, 5)] else []
  | .learned => [(0, 22)]
  | .route => [(1, 8)]
  | .night => [(1, 6)]
  | _ => []

/-- A parent word of a sheaf names a sheaf (R203). -/
def nestsSheaf (w : Wr) : Bool := w.kind = .sheaf && (match w.val 0x02 with
  | some v => decide (v / 16384 = 2)
  | none => false)

/-- The features that the values of a write select (R61): a two-stroke cycle, DOM_B, hydraulic durations, late policy and boost
policy values, PRIORITY, cyclic triggers, bit 2 of enable_layers. -/
def Dev.valueGates (d c : Dev) (w : Wr) : List (Nat × Nat) :=
  match w.kind with
  | .domain => if w.is 0x01 1 then [(0, 9)] else []
  | .wheel => if w.is 0x01 1 then [(0, 8)] else []
  | .sheaf => (if nestsSheaf w then [(0, 10)] else []) ++ (if w.is 0x08 2 then [(1, 2)] else [])
  | .shot => (if w.is 0x06 1 then [(0, 11)] else []) ++ (if w.is 0x0D 2 then [(1, 2)] else [])
  | .bank => if w.is 0x09 2 then [(1, 3)] else []
  | .profile => if w.is 0x0D 1 then [(1, 4)] else []
  | .synth =>
    if w.has 0x01 && (c.bit w.idx 0x01 2 || d.bit w.idx 0x01 2 ≠ c.bit w.idx 0x01 2) then [(0, 13)] else []
  | .cyclic =>
    let tr := c.obj w.idx 0x03
    if w.has 0x03 || w.is 0x01 1 then (if tr = 1 then [(0, 5)] else if tr = 2 ∨ tr = 3 then [(0, 6)] else []) else []
  | _ => []

/-- The map entries in use of a cyclic frame, as (index, sub, size) (R80). -/
def Dev.cycMap (d : Dev) (f : Nat) : List (Nat × Nat × Nat) :=
  (((List.range 8).map (fun k => d.obj (0x1400 + f) (0x0A + k))).takeWhile (· ≠ 0)).map
    (fun e => (e / 65536, e / 256 % 256, e % 256))

/-- Every entry of a frame's map that names something, those behind an unused one among them, all of which a write of enable = 1
checks (R80). -/
def Dev.cycEntries (d : Dev) (f : Nat) : List (Nat × Nat × Nat) :=
  (((List.range 8).map (fun k => d.obj (0x1400 + f) (0x0A + k))).filter (· ≠ 0)).map (fun e => (e / 65536, e / 256 % 256, e % 256))

/-- The write turns a cyclic frame on, so that its map is checked (R80). -/
def Wr.cycOn (w : Wr) : Bool := w.kind = .cyclic && w.is 0x01 1

/-- A feature is missing in the writer's session. -/
def Dev.lacks (d : Dev) (p : Nat) (gs : List (Nat × Nat)) : Bool := gs.any (fun g => !d.feature p g.1 g.2)

/-- FEATURE_OFF of a write. -/
def Dev.wFeature (d c : Dev) (w : Wr) : Bool :=
  d.lacks w.port (w.puts.flatMap (fun p => objGates w.kind w.inst p.sub ++ writeGates w.kind p.sub)) ||
    d.lacks w.port (d.valueGates c w) ||
    (w.cycOn && (c.cycEntries w.inst).any (fun e => match blockOf e.1 with
      | some b => d.lacks w.port (objGates b.kind (e.1 - b.first) e.2.1)
      | none => false))

/-! ### BUSY and BAD_INDEX of the object itself -/

/-- A commit would be refused with BUSY: a write of its pair is in progress, or its budget holds no token (R481). -/
def Dev.commitBusy (d : Dev) (v : Nat) : Bool :=
  if v = 3 then d.nv.jobs.any (fun j => j.pair = 6) || decide (d.nv.tokL = 0)
  else d.nv.jobs.any (fun j => j.pair = 4) || decide (d.nv.tokP = 0)

/-- An import would be refused with BUSY (R500). -/
def Dev.importBusy (d : Dev) : Bool :=
  d.nv.jobs.any (fun j => j.pair = 6) || decide (d.nv.tokL = 0) || decide (4 ≤ d.nv.importsSincePower)

/-- BUSY of a write: a full mailbox (R445), a pending injection (R395), a domain reset in progress (R468), a commit or
an import that cannot begin (R481, R500). -/
def Dev.wBusy (d : Dev) (w : Wr) : Bool :=
  match w.kind with
  | .mailbox => w.has 0x04 && (d.mbox w.inst).full
  | .lantern => w.has 0x1A && (d.lan w.inst).inject.isSome
  | .reset => w.has 0x08 && (d.rst.domReset.isSome || !d.rst.browned.isEmpty)
  | .nv => (match w.val 0x01 with
    | some v => d.commitBusy v
    | none => false)
  | .learned => w.has 0x02 && d.importBusy
  | _ => false

/-- BAD_INDEX of a write: an object does not exist (R40), or the map of a frame turned on names none (R80). -/
def Dev.wIndex (c : Dev) (w : Wr) : Bool :=
  w.puts.any (fun p => (objRow w.idx p.sub).isNone) ||
    (w.cycOn && (c.cycEntries w.inst).any (fun e => (objRow e.1 e.2.1).isNone))

/-! ### BAD_TYPE -/

/-- BAD_TYPE of a write whose data has been split into values. -/
def Dev.wType (d c : Dev) (w : Wr) : Bool :=
  match w.kind with
  | .tooth => w.puts.any (fun p => (p.sub = 3 || p.sub = 4) && p.bytes.length % 2 = 1)
  | .loft => w.puts.any (fun p => p.sub = 0x30 && p.bytes.length ≠ d.obj 0x2D00 (0x28 + w.port))
  | .mailbox => w.puts.any (fun p => p.sub = 0x04 && (p.bytes.isEmpty || 64 < p.bytes.length))
  | .cyclic => w.cycOn && (c.cycEntries w.inst).any (fun e => match objRow e.1 e.2.1 with
    | some r => r.ty.size ≠ e.2.2
    | none => false)
  | _ => false

/-! ### NOT_OWNER -/

/-- The port holds the claim on a domain, if the number names one. -/
def Dev.ownsDom (d : Dev) (p k : Nat) : Bool := k ≤ 1 && d.owns p 1 k

/-- A write to a resource of one domain, present or none, and the domain it would have (R135, R326). -/
def Dev.domClaims (d : Dev) (p : Nat) (old new : Option Nat) : Bool :=
  (match old with
    | some k => d.ownsDom p k
    | none => d.owns p 1 0 || d.owns p 1 1) &&
  (match new with
    | some k => d.ownsDom p k
    | none => true)

/-- The domain a domain field names. -/
def domField (v : Nat) : Option Nat := if v ≤ 1 then some v else none

/-- The claims on a record: its root slot and, for a shot, its channel, present and new (R213). -/
def Dev.recClaims (d : Dev) (p rid : Nat) : Bool :=
  (match d.rootSlot rid with
    | some k => d.owns p 2 k
    | none => true) &&
  (isSheaf rid || decide (48 ≤ d.obj (recIx rid) 0x03) || d.owns p 3 (d.obj (recIx rid) 0x03))

/-- The number of the record of a write. -/
def Wr.rid (w : Wr) : Nat := if w.kind = .sheaf then 0x8000 + w.inst else w.inst

/-- The channels that a bank's map names. -/
def Dev.mapOf (d : Dev) (b : Nat) : List Nat := ((List.range 6).map (fun k => d.obj (0x2740 + b) (0x01 + k))).filter (· < 48)

/-- Channels that a write adds to a bank or removes from it (R239). -/
def Dev.mapMoves (d c : Dev) (b : Nat) : List Nat :=
  (d.mapOf b).filter (fun n => !(c.mapOf b).contains n) ++ (c.mapOf b).filter (fun n => !(d.mapOf b).contains n)

/-- The linked timer must be claimed as well (R367): the write names link, or gives an action list a linked bit. -/
def Dev.linkClaim (d c : Dev) (w : Wr) : Bool :=
  let linked := w.has 0x0C || w.puts.any (fun p => 0x07 ≤ p.sub && p.sub ≤ 0x0B && (p.raw.testBit 2 || p.raw.testBit 3))
  let k := c.obj w.idx 0x0C
  !linked || decide (32 ≤ k) || d.owns w.port 7 k

/-- Every symbol of a run lies in a ring of an engine that the port has claimed (R414). -/
def Dev.inHeldRing (d : Dev) (p a : Nat) : Bool :=
  (List.range 8).any (fun e => d.owns p 6 e &&
    ((d.obj (0x2C00 + e) 0x11 ≤ a && a < d.obj (0x2C00 + e) 0x11 + d.obj (0x2C00 + e) 0x12) ||
     (d.obj (0x2C00 + e) 0x13 ≤ a && a < d.obj (0x2C00 + e) 0x13 + d.obj (0x2C00 + e) 0x14)))

/-- A window write reaches into the Lantern region outside the rings of held engines (R414). -/
def Dev.windowForeign (d : Dev) (p : Nat) : Bool :=
  let a := d.obj 0x2D00 (0x20 + p)
  (List.range (d.obj 0x2D00 (0x28 + p))).any (fun k => 0x700000 ≤ a + k && a + k < 0x800000 && !d.inHeldRing p (a + k))

/-- A descriptor with a ring side needs the claim on its engine (R416). -/
def Dev.ringClaim (d : Dev) (p c : Nat) : Bool :=
  let ring := d.obj (0x2D10 + c) 0x0F = 1 || d.obj (0x2D10 + c) 0x10 = 1
  !ring || decide (8 ≤ d.obj (0x2D10 + c) 0x11) || d.owns p 6 (d.obj (0x2D10 + c) 0x11)

/-- The claim on the resource of an object of class RES or DOM (R14). -/
def Dev.resClaims (d c : Dev) (w : Wr) : Bool :=
  let p := w.port
  match w.kind with
  | .wheel => d.domClaims p (domField (d.obj w.idx 0x01)) (if w.has 0x01 then domField (c.obj w.idx 0x01) else none)
  | .domain =>
    (!w.span 0x01 0x3E || d.owns p 1 w.inst) &&
      w.puts.all (fun q => if 0x40 ≤ q.sub ∧ q.sub ≤ 0x57 then d.owns p 2 (q.sub - 0x40)
        else if 0x58 ≤ q.sub ∧ q.sub ≤ 0x6F then d.owns p 2 (q.sub - 0x58) else true) &&
      (maskBits 24 (d.obj w.idx 0x30 ^^^ c.obj w.idx 0x30)).all (fun k => d.owns p 2 k)
  | .pattern | .synth | .tooth | .harmonic => d.owns p 1 w.inst
  | .pressure =>
    let slotDomain := fun k => if k < 24 then d.slotDom k else none
    d.domClaims p (slotDomain (d.obj w.idx 0x02)) (if w.has 0x02 then slotDomain (c.obj w.idx 0x02) else none)
  | .vibration => d.domClaims p (domField (d.obj w.idx 0x02)) (if w.has 0x02 then domField (c.obj w.idx 0x02) else none)
  | .shot | .sheaf => d.recClaims p w.rid && (match c.rootSlot w.rid with
      | some k => 24 ≤ k || d.owns p 2 k
      | none => true) && (isSheaf w.rid || decide (48 ≤ c.obj w.idx 0x03) || d.owns p 3 (c.obj w.idx 0x03))
  | .channel | .closure | .chanDiag => d.owns p 3 w.inst
  | .bank => d.owns p 4 w.inst && (d.mapMoves c w.inst).all (fun n => d.owns p 3 n)
  | .bankDiag => d.owns p 4 w.inst
  | .boost | .boostDiag => d.owns p 5 w.inst
  | .comparator => d.owns p 9 w.inst
  | .timer => d.owns p 7 w.inst && d.linkClaim c w
  | .gstart => (match w.val 0x01 with
    | some m => (maskBits 32 m).all (fun k => d.owns p 7 k)
    | none => true)
  | .lantern => d.owns p 6 w.inst
  | .dma => d.owns p 8 w.inst && (!(w.is 0x01 1 || w.is 0x01 2) || d.ringClaim p w.inst)
  | _ => true

/-- What class ANY is narrowed to: a port's own notification object and window (R91, R414), a mailbox's sender (R445), a bell's
ringer and answerer (R448). -/
def Dev.anyClaims (d : Dev) (w : Wr) : Bool :=
  match w.kind with
  | .notify => w.inst = w.port
  | .loft => w.puts.all (fun q => if 0x20 ≤ q.sub ∧ q.sub ≤ 0x25 then q.sub = 0x20 + w.port
      else if 0x28 ≤ q.sub ∧ q.sub ≤ 0x2D then q.sub = 0x28 + w.port
      else if q.sub = 0x30 then !d.windowForeign w.port else true)
  | .mailbox => !w.has 0x04 || (d.obj w.idx 0x01 = w.port && d.obj w.idx 0x02 ≤ 5)
  | .doorbell =>
    (match w.val 0x04 with | some m => d.bellsOf w.port m true | none => true) &&
      (match w.val 0x05 with | some m => d.bellsOf w.port m false | none => true)
  | _ => true

/-- NOT_OWNER of a write (R14). -/
def Dev.wOwner (d c : Dev) (w : Wr) : Bool :=
  let p := w.port
  (w.owned .dev && !d.owns p 0 0) || (w.owned .grd && d.obj 0x1800 0x01 ≠ p) ||
    (w.owned .devGrd && !d.owns p 0 0 && d.obj 0x1800 0x01 ≠ p) ||
    ((w.owned .res || w.owned .dom) && !d.resClaims c w) || !d.anyClaims w

/-! ### VETOED, LOCKED, DISARMED_ONLY -/

/-- VETOED (R78, R162, R261). -/
def Dev.wVetoed (d : Dev) (w : Wr) : Bool :=
  d.obj 0x1800 0x04 = 1 && ((w.kind = .domain && w.is 0x0F 1) || (w.kind = .boost && w.is 0x01 1))

/-- The device is in configuration hold (R464). -/
def Dev.inHold (d : Dev) : Bool := d.bit 0x2F00 0x02 1

/-- The lock bit of an LCK subindex is set (R74, R240, R432, R444). -/
def Dev.lckSet (d : Dev) (w : Wr) (sub : Nat) : Bool :=
  match w.kind with
  | .guardian => d.obj 0x1800 0x02 = 1
  | .bank => d.obj w.idx 0x08 = 1
  | .irq | .source => d.obj 0x2E00 0x01 = 1 || (w.kind = .source && w.inst = 7 && sub = 0x10)
  | .mailbox | .doorbell => d.obj 0x2E60 0x01 = 1
  | _ => false

/-- LOCKED: a read-only object, a set lock bit, the fixed route of source 127 (R451), a ramp that belongs to a controller (R263),
an arm or rail_enable in configuration hold (R162, R261). -/
def Dev.wLocked (d : Dev) (w : Wr) : Bool :=
  w.acc .ro ||
    w.puts.any (fun p => match objRow w.idx p.sub with
      | some r => decide (r.acc = .lck) && d.lckSet w p.sub
      | none => false) ||
    (w.kind = .ramp && decide (d.rampOwner w.inst ≠ 0)) ||
    (d.inHold && ((w.kind = .domain && w.is 0x0F 1) || (w.kind = .boost && w.is 0x01 1)))

/-- Any domain is armed. -/
def Dev.anyArmed (d : Dev) : Bool := d.armed 0 || d.armed 1

/-- A domain number names an armed domain. -/
def Dev.armedAt (d : Dev) (o : Option Nat) : Bool := match o with
  | some k => k ≤ 1 && d.armed k
  | none => false

/-- DISARMED_ONLY. -/
def Dev.wArmed (d c : Dev) (w : Wr) : Bool :=
  let rwd := w.acc .rwd
  match w.kind with
  | .wheel => rwd && (d.armedAt (domField (d.obj w.idx 0x01)) || d.armedAt (domField (c.obj w.idx 0x01)))
  | .domain | .pattern | .synth | .harmonic => rwd && d.armed w.inst
  | .tooth => (rwd || w.has 0x08) && d.armed w.inst
  | .channel => rwd && d.anyArmed
  | .bank => (rwd || w.span 0x01 0x07) && d.anyArmed
  | .boost => rwd && d.obj w.idx 0x01 = 1
  | .pressure => rwd && (d.armedAt (d.slotDom (d.obj w.idx 0x02)) || d.armedAt (d.slotDom (c.obj w.idx 0x02)))
  | .vibration => rwd && (d.armedAt (domField (d.obj w.idx 0x02)) || d.armedAt (domField (c.obj w.idx 0x02)))
  | .timer => rwd && d.timerState w.inst ≠ 0
  | .lantern => rwd && d.obj w.idx 0x01 = 1
  | .dma => rwd && d.dmaState w.inst ≠ 0
  | .firmware => w.has 0x03 && d.anyArmed
  | .learned => w.has 0x02 && d.anyArmed
  | .power => (w.has 0x03 && d.anyArmed) || (match w.val 0x02 with
    | some v => d.anyArmed && (List.range 5).any (fun k => d.bit 0x2F10 0x02 (5 + k) && !v.testBit (5 + k))
    | none => false)
  | .reset => (w.has 0x07 && d.anyArmed && d.obj 0x1800 0x01 ≠ w.port) ||
      (d.anyArmed && (w.is 0x08 5 || w.is 0x08 6 || w.is 0x08 9))
  | _ => false

/-! ### RANGE -/

/-- Every value obeys its map row (R10, R11); the STR rule has no object. -/
def Wr.valuesOk (w : Wr) : Bool :=
  w.puts.all (fun p => match objRow w.idx p.sub with
    | some r => r.ty.isBlob || r.allows p.raw
    | none => true)

/-- The thresholds, pull_up and edge_select of an input fit its sensor (R123, R124). -/
def Dev.sensorOk (c : Dev) (n : Nat) : Bool :=
  let i := 0x2100 + n
  let up := c.sobj 16 i 0x06
  let lo := c.sobj 16 i 0x07
  if c.obj i 0x03 = 0 then
    decide (20 ≤ up ∧ up ≤ 2000 ∧ -200 ≤ lo ∧ lo ≤ 0) && c.obj i 0x09 = 0 && c.obj i 0x04 = 0
  else if c.obj i 0x03 = 1 then decide (100 ≤ up ∧ up ≤ 4900 ∧ lo + 50 ≤ up)
  else decide (10 ≤ up ∧ up ≤ 1000 ∧ lo + 10 ≤ up) && c.obj i 0x09 = 0

/-- A domain has at most one crank and one cam input (R134); a crank input has edge_select 0 or 1 (R165). -/
def Dev.rolesOk (c : Dev) (n : Nat) : Bool :=
  let i := 0x2100 + n
  let k := c.obj i 0x01
  let role := c.obj i 0x02
  (role = 2 || 2 ≤ k || decide ((c.inputsOf k role).length ≤ 1)) && !(role = 0 && c.obj i 0x04 = 2)

/-- A slot is named by a rooted record, a pressure channel or a vibration band (R206, R325). -/
def Dev.slotNamed (d : Dev) (k : Nat) : Bool :=
  d.rooted.any (fun r => parentSlot (d.obj (recIx r) 0x02) == some k) ||
    (List.range 24).any (fun c => d.obj (0x2900 + c) 0x02 = k) ||
    (List.range 8).any (fun v => (List.range 4).any (fun b => d.obj (0x2920 + v) (0x10 + 8 * b) = k))

/-- Slot masks (R206) and entries of slots outside them (R207, tested of host writes only). -/
def Dev.slotsOk (d c : Dev) (w : Wr) : Bool :=
  let mask := c.obj w.idx 0x30
  c.obj 0x2180 0x30 &&& c.obj 0x2181 0x30 = 0 &&
    (maskBits 24 (d.obj w.idx 0x30)).all (fun k => mask.testBit k || !d.slotNamed k) &&
    (!w.host || w.puts.all (fun p =>
      if 0x40 ≤ p.sub ∧ p.sub ≤ 0x57 then mask.testBit (p.sub - 0x40)
      else if 0x58 ≤ p.sub ∧ p.sub ≤ 0x6F then mask.testBit (p.sub - 0x58) else true))

/-- Tooth entries in use lie within the limit of R174. -/
def Dev.teethOk (c : Dev) (k : Nat) : Bool :=
  let n := c.obj (0x2190 + k) 0x01
  let fits := fun (v : Int) => decide (v.natAbs ≤ 32767 ∧ v.natAbs * (4 * n * c.revsOf k) ≤ auCycle)
  let at' := fun sub j => toSigned 16 (ofLe (c.blobBytes (0x2210 + k) sub (2 * j) 2))
  (List.range (min n 1024)).all (fun j => fits (at' 0x03 j)) &&
    (List.range (min (c.obj (0x2190 + k) 0x03) 8)).all (fun j => fits (at' 0x04 j))

/-- Harmonic coefficients: the sum of magnitudes stays within 0.9 (R201), no odd one in two-stroke (R181). -/
def Dev.harmOk (c : Dev) (w : Wr) : Bool :=
  let sum := (List.range 48).foldl (fun n k => n + (c.sobj 16 w.idx (0x03 + k)).natAbs) 0
  decide (sum * 10 ≤ 294912) &&
    (c.revsOf w.inst = 2 || w.puts.all (fun p => !(3 ≤ p.sub && p.sub ≤ 0x32 && p.sub % 2 = 1) || p.raw = 0))

/-! #### Records -/

/-- A parent word names nothing, a slot of a domain, or a sheaf (R202). -/
def Dev.parentOk (c : Dev) (p : Nat) : Bool :=
  let n := p % 1024
  p / 1024 % 16 = 0 &&
    (p / 16384 = 0 || (p / 16384 = 1 && n < 24 && (c.slotDom n).isSome) || (p / 16384 = 2 && n < 512))

/-- The subindices of anchor_kind and ref. -/
def kindSub (rid : Nat) : Nat := if isSheaf rid then 0x03 else 0x08

/-- The anchor kind of a record. -/
def Dev.kindOf (d : Dev) (rid : Nat) : Nat := d.obj (recIx rid) (kindSub rid)

/-- The ref field of a record. -/
def Dev.refOf (d : Dev) (rid : Nat) : Nat := d.obj (recIx rid) (if isSheaf rid then 0x07 else 0x0C)

/-- A kind with an angle part. -/
def angleKind (k : Nat) : Bool := k = 1 || k = 2 || k = 4

/-- The anchor kind is allowed for the record's parent, and anchor_angle for the kind: R115 holds it for kinds 2 and 4 (R208). -/
def Dev.kindOk (c : Dev) (rid : Nat) : Bool :=
  let kind := c.kindOf rid
  let angle := c.sobj 32 (recIx rid) (if isSheaf rid then 0x04 else 0x09)
  let parent := c.obj (recIx rid) 0x02
  !(isSheaf rid && kind = 3) &&
    (match parentSheaf parent with
      | some h => (kind = 0 || (4 ≤ kind && kind ≤ 7)) && (kind ≠ 4 || angleKind (c.kindOf h))
      | none => parent / 16384 = 0 || kind ≤ 3) &&
    (!angleKind kind || decide ((if kind = 1 then 0 else -16777215) ≤ angle ∧ angle ≤ 16777215))

/-- A record refers to a sibling: kinds 6 and 7 (R208). -/
def Dev.refers (d : Dev) (rid : Nat) : Bool := d.kindOf rid = 6 || d.kindOf rid = 7

/-- The chain of references from a record leads back to it (R210). -/
def Dev.refLoop (c : Dev) (start : Nat) : Nat → Nat → Bool
  | 0, _ => false
  | f + 1, r =>
    if !c.refers r then false
    else if c.refOf r = start then true
    else c.refLoop start f (c.refOf r)

/-- A rooted dependant and its referent share their parent (R210). -/
def Dev.siblings (c : Dev) (r : Nat) : Bool :=
  !c.refers r || c.obj (recIx r) 0x02 / 16384 = 0 || c.obj (recIx r) 0x02 = c.obj (recIx (c.refOf r)) 0x02

/-- References (R210). -/
def Dev.refOk (c : Dev) (rid : Nat) : Bool :=
  let ref := c.refOf rid
  ref / 1024 % 32 = 0 && (ref < 0x8000 || ref % 1024 < 512) && !c.refLoop rid 1600 rid && c.siblings rid &&
    c.rooted.all (fun r => !(c.refers r && c.refOf r = rid) || c.siblings r)

/-- The shape of the sheaf tree (R203): depth, number of members, no sheaf its own ancestor; angle parts of members (R208). -/
def Dev.treeOk (c : Dev) (rid : Nat) : Bool :=
  c.rooted.all (fun r => !isSheaf r || decide ((c.ancestors walkDepth r).length ≤ 7)) &&
    (match parentSheaf (c.obj (recIx rid) 0x02) with
      | some h => decide ((c.members h).length ≤ 32)
      | none => true) &&
    (!isSheaf rid || angleKind (c.kindOf rid) || (c.members rid).all (fun r => c.kindOf r ≠ 4))

/-- What an enabled record needs (R204, R212, R241, the anchor table), the duration's range (R212), and an anchor time that does
not fall before 0 (R115). -/
def Dev.recValuesOk (c : Dev) (rid : Nat) : Bool :=
  let r := c.recCfg rid
  let dur := isSheaf rid || r.duration = 0 || (10240 ≤ r.duration && r.duration ≤ 204800000)
  let on := !r.enable || (decide (r.kind ≠ 0) && (isSheaf rid ||
    (decide (r.channel < 48) && decide (r.duration ≠ 0) && decide (c.bankOf r.channel < 16))))
  dur && on && (r.kind ≠ 3 || decide (0 ≤ (r.atime : Int) + r.offset))

/-- A record's own checks. -/
def Dev.recOk (c : Dev) (rid : Nat) : Bool :=
  c.parentOk (c.obj (recIx rid) 0x02) && c.kindOk rid && c.refOk rid && c.treeOk rid && c.recValuesOk rid

/-! #### Nominal windows (R228) -/

/-- A configuration with its times in units of 1/k TQ. -/
def RecCfg.scaled (r : RecCfg) (k : Nat) : RecCfg :=
  { r with offset := r.offset * (k : Int), duration := r.duration * k, atime := r.atime * k }

/-- The tree of a top-level record, as occurrences with their times in units of 1/k TQ; records that are not enabled with every
ancestor count as gone. -/
def Dev.nomTree (c : Dev) (k top slot dom : Nat) : List (Nat × Occ) :=
  let rs := top :: descend c.recCfg c.rooted walkDepth [top]
  (rs.map (fun r =>
    let cfg := (c.recCfg r).scaled k
    let on := chainRuns c.recCfg false walkDepth r
    (r, ({ rid := r, dom := dom, slot := slot, cyc := 128, st := if on then .armed else .done, cfg := cfg, dur := cfg.duration
           tdc := c.obj (0x2180 + dom) (0x40 + slot) } : Occ))))

/-- The place of an enabled shot: its top-level record, root slot and domain, and whether its tree is time-rooted. -/
structure ShotRoot where
  shot : Nat
  top : Nat
  slot : Nat
  dom : Nat
  timed : Bool
  deriving DecidableEq, Repr

/-- The rooted, enabled shots of a channel. -/
def Dev.channelShots (c : Dev) (n : Nat) : List ShotRoot :=
  (c.enabled.filter (fun r => !isSheaf r && c.obj (recIx r) 0x03 = n)).filterMap (fun r =>
    let top := ((c.ancestors walkDepth r).getLast?).getD r
    match parentSlot (c.obj (recIx top) 0x02) with
    | some s => (c.slotDom s).map (fun dom => ⟨r, top, s, dom, decide (c.kindOf top = 3)⟩)
    | none => none)

/-- The nominal start and end of a shot in units of 1/(2v) TQ at a speed of v/16 rpm with g = 1. -/
def Dev.nominal (c : Dev) (v : Nat) (s : ShotRoot) : Option (Nat × Nat) :=
  let os := c.nomTree (2 * v) s.top s.slot s.dom
  let conv := fun w => some (w * 1171875 * c.revsOf s.dom)
  match occIn os s.shot with
  | some o => match resolve resFuel os conv .start o with
    | some a => some (a, a + o.dur + 204800 * (2 * v))
    | none => none
  | none => none

/-- Two half-open windows overlap modulo a cycle. -/
def meetModulo (cyc : Nat) (a b : Nat × Nat) : Bool :=
  let gap := fun (x y : Nat × Nat) => (y.1 + cyc * (1 + x.1 / cyc) - x.1) % cyc < x.2 - x.1
  gap a b || gap b a

/-- Two shots of a channel clash (R228). -/
def Dev.shotsClash (c : Dev) (a b : ShotRoot) : Bool :=
  if a.dom ≠ b.dom || a.timed ≠ b.timed then true
  else if a.timed then
    (match c.nominal 1 a, c.nominal 1 b with
      | some x, some y => decide (x.1 < y.2) && decide (y.1 < x.2)
      | _, _ => false)
  else
    [c.obj (0x2180 + a.dom) 0x03, c.obj (0x2180 + a.dom) 0x04].any (fun v =>
      match c.nominal v a, c.nominal v b with
        | some x, some y => meetModulo (2 * 9830400000000 * c.revsOf a.dom) x y
        | _, _ => false)

/-- No two of the shots clash. -/
def Dev.apart (c : Dev) : List ShotRoot → Bool
  | [] => true
  | a :: l => l.all (fun b => !c.shotsClash a b) && c.apart l

/-- No two enabled shots of one channel clash (R228). -/
def Dev.noClash (c : Dev) : Bool := (List.range 48).all (fun n => c.apart (c.channelShots n))

/-! #### The other blocks -/

/-- The bank map is a map (R238), and a channel that the write takes out of its bank is named by no enabled shot (R239). -/
def Dev.mapOk (d c : Dev) (b : Nat) : Bool :=
  let all := (List.range 16).flatMap (fun k => c.mapOf k)
  (c.mapOf b).all (fun n => decide ((all.filter (· = n)).length ≤ 1) && decide (n / 24 = b / 8)) &&
    (d.mapOf b).all (fun n => (c.mapOf b).contains n ||
      !c.enabled.any (fun r => !isSheaf r && c.obj (recIx r) 0x03 = n))

/-- A profile holds together (R243). -/
def Dev.profileOk (c : Dev) (p : Nat) : Bool :=
  let v := fun sub => c.obj (0x2600 + p) sub
  [v 1, v 3, v 6].all (fun x => 4 ≤ x && x ≤ 1023) && decide (v 6 ≤ v 3) && (decide (v 3 ≤ v 1) || (v 0x0F).testBit 0) &&
    decide (2 ≤ v 4 ∧ v 4 + 1 ≤ v 3) && decide (2 ≤ v 7 ∧ v 7 + 1 ≤ v 6) && decide (1 ≤ v 0x0B ∧ v 0x0B + v 7 + 1 ≤ v 6)

/-- A boost controller's ramp is not the other's and no enabled pair's (R263, R353). -/
def Dev.boostRampOk (c : Dev) (w : Wr) : Bool :=
  let k := c.obj w.idx 0x07
  !w.has 0x07 || (k ≠ c.obj (0x2781 - w.inst) 0x07 &&
    (List.range 16).all (fun n => c.obj (0x2A00 + n) 0x01 = 0 ||
      (c.obj (0x2A00 + n) 0x07 ≠ k + 1 && c.obj (0x2A00 + n) 0x08 ≠ k + 1)))

/-- A write of 1 to rail_enable may pass (R261, R302, R516). -/
def Dev.railOk (d : Dev) (x : Nat) : Bool :=
  d.obj (0x2780 + x) 0x10 ≠ 0 && !d.stops.killLow && !d.bit 0x28C8 0x01 7 && !d.tapBlocks

/-- A write of 1 to arm may pass (R162, R302, R516). -/
def Dev.armOk (d : Dev) (k : Nat) : Bool :=
  (d.pat k).valid && d.bit 0x2000 0x04 0 && !d.bit 0x2000 0x04 3 && !d.bit 0x2000 0x04 4 && !d.stops.killLow &&
    !d.bit 0x28C8 0x01 7 && !d.stops.linkDown && !d.tapBlocks

/-- Trims stay within their limits (R291). In a restore a trim that its request does not name takes its default, trim_init (R296). -/
def Dev.trimsOk (c : Dev) (w : Wr) : Bool :=
  let trim := fun k => if !w.host && w.has 0x10 && !w.has (0x14 + k) then c.sobj 32 w.idx 0x10 else c.trim w.inst k
  let lo := c.sobj 32 w.idx 0x0E
  let hi := c.sobj 32 w.idx 0x0F
  let inside := fun v => decide (lo ≤ v ∧ v ≤ hi)
  (!w.span 0x0E 0x10 || (inside (c.sobj 32 w.idx 0x10) && (List.range 4).all (fun k => inside (trim k)))) &&
    (List.range 4).all (fun k => !w.has (0x14 + k) || inside (trim k)) &&
    (match w.val 0x0A with | some v => v &&& 0xE1 = 0 | none => true)

/-- 180 degrees of crank angle in AU of the slot's domain; four-stroke while the slot is in none (R7, R338). -/
def Dev.halfTurn (c : Dev) (slot : Nat) : Int :=
  match (if slot < 24 then c.slotDom slot else none) with
  | some k => 8388608 / (c.revsOf k : Nat)
  | none => 4194304

/-- A pressure channel's slot (R325), and its heat-release window (R338). -/
def Dev.pressOk (c : Dev) (w : Wr) : Bool :=
  let slot := c.obj w.idx 0x02
  let a := c.sobj 32 w.idx 0x0A
  let b := c.sobj 32 w.idx 0x0B
  (!w.has 0x02 || slot = 255 || (slot < 24 && (c.slotDom slot).isSome &&
    (List.range 24).all (fun k => k = w.inst || c.obj (0x2900 + k) 0x02 ≠ slot))) &&
    (!w.span 0x0A 0x0B || decide (-(c.halfTurn slot) ≤ a ∧ a < b ∧ b ≤ c.halfTurn slot))

/-- The bands of a vibration channel (R333). -/
def Dev.vibOk (c : Dev) (w : Wr) : Bool :=
  let dom := c.obj w.idx 0x02
  (List.range 4).all (fun k =>
    let s := c.obj w.idx (0x10 + 8 * k)
    (s = 255 || (s < 24 && decide (dom < 2) && c.slotDom s == some dom) || !(w.has (0x10 + 8 * k) || w.has 0x02)) &&
      decide (c.obj w.idx (0x14 + 8 * k) ≤ c.obj w.idx (0x13 + 8 * k)))

/-- The hysteresis of a code in mV (R341). -/
def hystMv (code : Nat) : Nat := ([2, 5, 10, 20, 40, 80, 160, 320] : List Nat).getD code 0

/-- A comparator pair's configuration (R342, R349, R353). -/
def Dev.cmpOk (c : Dev) (w : Wr) : Bool :=
  let v := fun sub => c.obj w.idx sub
  let apart := (v 4 * 4 : Nat) + hystMv (v 5) < v 3 * 4
  let named := fun r => r ≠ 0 && (c.obj 0x2780 0x07 = r - 1 || c.obj 0x2781 0x07 = r - 1)
  (v 1 = 0 || v 7 ≠ 0 || v 8 ≠ 0 || decide apart) && v 0x0B ≤ 2 &&
    (!w.has 0x0B || ((v 0x0B = 0 || v 0x0C ≤ 255) && (v 0x0B ≠ 2 || v 0x0D ≤ 255))) &&
    !(w.has 0x07 && named (v 7)) && !(w.has 0x08 && named (v 8))

/-- A ring lies within the Lantern region (R388). -/
def ringPlaced (base len : Nat) : Bool := len = 0 || (16 ≤ len && len ≤ 65536 && 0x700000 ≤ base && base + len ≤ 0x800000)

/-- Two pin groups share a pin (R380). -/
def Dev.pinsMeet (c : Dev) (a b : Nat) : Bool :=
  let lo := fun e => c.obj (0x2C00 + e) 0x03
  let hi := fun e => c.obj (0x2C00 + e) 0x03 + c.pinCount e
  decide (lo a < hi b) && decide (lo b < hi a)

/-- A Lantern's configuration, program, indices and injection (R379, R380, R382, R388, R392, R395, R398). -/
def Dev.lantOk (d c : Dev) (w : Wr) : Bool :=
  let e := w.inst
  let v := fun sub => c.obj w.idx sub
  decide (v 3 + v 4 ≤ 32) && v 9 / 64 ≠ 3 && v 9 / 16 % 4 ≠ 3 && v 0x0B ≤ 2 && v 0x19 < 16 &&
    (!w.span 0x11 0x12 || ringPlaced (v 0x11) (v 0x12)) && (!w.span 0x13 0x14 || ringPlaced (v 0x13) (v 0x14)) &&
    (!w.has 0x15 || decide (v 0x15 < v 0x12)) && (!w.has 0x18 || decide (v 0x18 < v 0x14)) &&
    w.puts.all (fun p => !(0x20 ≤ p.sub && p.sub ≤ 0x3F) || c.lanOk e p.raw) &&
    (!w.is 0x01 1 || ((List.range 32).all (fun k => c.lanOk e (v (0x20 + k))) && decide (v 7 < v 4) && decide (v 8 < v 4) &&
      (List.range 8).all (fun k => k = e || c.obj (0x2C00 + k) 0x01 = 0 || !c.pinsMeet e k))) &&
    (match w.val 0x1A with
      | some i => d.obj w.idx 0x01 = 1 && d.lanOk e (i % 65536)
      | none => true)

/-- An access of the window lies within the regions R406 opens to it (R414). -/
def Dev.windowOk (d : Dev) (p : Nat) (write : Bool) : Bool :=
  let a := d.obj 0x2D00 (0x20 + p)
  let n := d.obj 0x2D00 (0x28 + p)
  if write then windowWrites a n else windowReads a n

/-- A watch word (R440). -/
def watchOk (v : Nat) : Bool :=
  let kind := v / 2 ^ 28
  let ix := v % 256
  let par := v / 256 % 256
  if kind = 0 then true
  else if kind = 1 then ix < 16 && par < 4
  else if kind = 2 then ix < 8 && decide (0 < par)
  else if kind = 3 then ix < 6
  else kind = 4 && ix = 0

/-- The payload of a cyclic frame fits (R80): 8 symbols in a classical frame, else 64. -/
def Dev.cycFits (c : Dev) (w : Wr) : Bool :=
  let n := ((c.cycMap w.inst).map (fun e => e.2.2)).foldl (· + ·) 0 + (if c.bit w.idx 0x09 0 then 8 else 0)
  let classical := 1 ≤ c.obj w.idx 0x02 && c.obj w.idx 0x02 ≤ 3 && !c.bit w.idx 0x08 30
  decide (n ≤ if classical then 8 else 64)

/-- A half of a doorbell's pair is a port or unbound (R447). -/
def pairHalf (v : Nat) : Bool := v ≤ 5 || v = 255

/-- At least one watch will become live in sleep (R472). -/
def Dev.watchWill (d : Dev) : Bool :=
  (List.range 16).any (fun w =>
    let v := d.obj 0x2E20 (0x10 + w)
    let kind := v / 2 ^ 28
    decide (1 ≤ kind) && decide (kind ≤ 4) && (kind ≠ 1 || (if d.pdOn 13 then d.m3Pairs else d.rst.m3).testBit (v % 256)))

/-- RANGE of a write, beyond the map rows. -/
def Dev.wRangeKind (d c : Dev) (w : Wr) : Bool :=
  let i := w.inst
  match w.kind with
  | .cyclic => !w.cycOn || c.cycFits w
  | .wheel => (!(w.span 0x03 0x04 || w.span 0x06 0x07 || w.has 0x09) || c.sensorOk i) &&
      (!(w.span 0x01 0x02 || w.has 0x04) || c.rolesOk i)
  | .domain => decide (c.obj w.idx 0x03 ≤ c.obj w.idx 0x04) && d.slotsOk c w && (!w.is 0x0F 1 || d.armOk i) &&
      (!(w.span 0x01 0x04 || w.has 0x30 || w.span 0x40 0x57) || c.noClash)
  | .pattern => w.puts.all (fun p =>
      if p.sub = 0x0C then p.raw % 2 = 0
      else if 0x0D ≤ p.sub ∧ p.sub ≤ 0x2C then p.raw / 2 ^ 24 % 128 = 0
      else if 0x04 ≤ p.sub ∧ p.sub ≤ 0x0B then p.raw = 0 || p.raw % 64 ≠ 0 else true)
  | .tooth => !w.span 0x03 0x04 || c.teethOk i
  | .harmonic => c.harmOk w
  | .shot | .sheaf => c.recOk w.rid && c.noClash
  | .profile => c.profileOk i
  | .bank => !w.span 0x01 0x06 || d.mapOk c i
  | .boost => c.boostRampOk w && (!w.is 0x01 1 || d.railOk i)
  | .closure => c.trimsOk w
  | .pressure => c.pressOk w
  | .vibration => c.vibOk w
  | .comparator => c.cmpOk w
  | .ramp => c.obj w.idx 0x03 ≠ c.obj w.idx 0x04
  | .lantern => d.lantOk c w
  | .loft => (!w.has 0x30 || d.windowOk w.port true) && (match w.val 0x13 with | some v => v < 8 | none => true)
  | .dma => !(w.is 0x01 1 || w.is 0x01 2) || d.dmaRangeOk i
  | .source => w.puts.all (fun p => p.raw % 16 ≤ 9 || p.raw % 16 = 15)
  | .stack => !w.has 0x08 || (d.core i).frozen
  | .night => (match w.val 0x02 with | some v => v ≠ 0 | none => true) &&
      w.puts.all (fun p => !(0x10 ≤ p.sub && p.sub ≤ 0x1F) || watchOk p.raw)
  | .doorbell => w.puts.all (fun p => !(0x10 ≤ p.sub && p.sub ≤ 0x1F) || (pairHalf (p.raw / 256) && pairHalf (p.raw % 256)))
  | .reset => !w.has 0x03 || d.inHold
  | .power => (match w.val 0x02 with | some v => v &&& 0x100F = 0x100F | none => true) &&
      (!w.has 0x03 || (d.obj 0x2E20 0x01 = 1 && d.watchWill))
  | .firmware => !w.has 0x03 || d.obj 0x1030 0x02 = 2
  | _ => true

/-- RANGE of a write. -/
def Dev.wRange (d c : Dev) (w : Wr) : Bool := !w.valuesOk || !d.wRangeKind c w

/-! ### MISALIGNED, TOO_LATE, NV_FAIL -/

/-- MISALIGNED (R388, R417). -/
def Dev.wMisaligned (d c : Dev) (w : Wr) : Bool :=
  match w.kind with
  | .lantern => w.span 0x11 0x14 && (List.range 4).any (fun k => c.obj w.idx (0x11 + k) % 4 ≠ 0)
  | .dma => (w.is 0x01 1 || w.is 0x01 2) && !d.dmaAligned w.inst
  | _ => false

/-- TOO_LATE (R226): a write that leaves a time-rooted record enabled and comes later than lock_lead + 160 us before its present
start: the start of its occurrence, or what its present anchor gives. DEDUCED (log 46): a record left disabled is set up freely. -/
def Dev.wLate (d c : Dev) (w : Wr) : Bool :=
  w.kind = .shot && !w.is 0x01 0 && c.obj w.idx 0x01 = 1 && !(w.puts.all (fun p => p.sub = 0x11)) && d.kindOf w.inst = 3 &&
    (match d.recDom w.inst with
      | some k =>
        let own : Int := Int.ofNat (d.obj w.idx 0x0B) + d.sobj 32 w.idx 0x0A
        let start : Int := match d.shown w.inst with
          | some o => (match o.start with | some s => Int.ofNat s | none => own)
          | none => own
        decide (start < Int.ofNat (d.now + d.lockLead k + 160 * tqUs))
      | none => false)

/-- The bank that P7 selected still passes and carries its sequence (R464). -/
def Dev.heldBankOk (d : Dev) (valid : NvBank → Bool) : Bool :=
  match d.rst.heldSeq with
  | some (b, seq) =>
    let k : NvBank := Store.get (fun _ => {}) d.nv.banks b
    valid k && decide (k.seq = seq)
  | none => true

/-- NV_FAIL (R464, R481). -/
def Dev.wNvFail (d : Dev) (valid : NvBank → Bool) (w : Wr) : Bool :=
  match w.kind with
  | .nv => w.has 0x01 && d.bit 0x2F10 0x06 0
  | .reset => w.is 0x03 1 && !d.heldBankOk valid
  | _ => false

/-! ### The order of R15 -/

/-- The first status whose condition holds. -/
def firstStatus : List (Status × Bool) → Option Status
  | [] => none
  | (s, b) :: l => if b then some s else firstStatus l

/-- What refuses a host write of values that have been split by their types: the first condition in the order of R15 that holds. -/
def Dev.wRefusal (d : Dev) (valid : NvBank → Bool) (w : Wr) : Option Status :=
  let c := d.stored w
  firstStatus
    [ (.busy, d.wBusy w), (.noSession, !d.sessOpen w.port), (.badIndex, c.wIndex w), (.featureOff, d.wFeature c w)
    , (.badType, d.wType c w), (.notOwner, d.wOwner c w), (.vetoed, d.wVetoed w), (.locked, d.wLocked w)
    , (.disarmedOnly, d.wArmed c w), (.range, d.wRange c w), (.misaligned, d.wMisaligned c w), (.tooLate, d.wLate c w)
    , (.nvFail, d.wNvFail valid w) ]

/-- What skips a request of a restore or an import (R480, R499). -/
def Dev.restoreRefused (d : Dev) (w : Wr) : Bool :=
  let c := d.stored w
  c.wIndex w || d.wType c w || d.wRange c w || d.wMisaligned c w

end Sys2Proof.Machine
end

