-- ==== Sys2Proof/Machine/Hooks.lean ====
section
/-! DEFINITION. What an accepted write does beyond storing its values: each block's reaction to its own objects. -/

namespace Sys2Proof.Machine

/-! ### Wheel inputs, domains, patterns -/

/-- An input's domain or role has changed: its counts start afresh, and aux_speed reads 0 (R130, R161). -/
def Dev.wheelMoved (d : Dev) (n : Nat) : Dev :=
  (d.setWheel n { (d.wheel n) with seen := 0, lastIval := 0, rejAt := [], auxStamps := [], auxHold := 0 }).setObj (0x2100 + n) 0x11 0

/-- A write to an input (R125, R130, R154). -/
def Dev.wheelHook (old d : Dev) (w : Wr) : Dev :=
  let n := w.inst
  let ks := ((domField (old.obj w.idx 0x01)).toList ++ (domField (d.obj w.idx 0x01)).toList).dedup
  let d := if w.span 0x03 0x03 || w.span 0x06 0x07 || w.has 0x09 then d.unresolve n else d
  let d := if old.obj w.idx 0x01 ≠ d.obj w.idx 0x01 || old.obj w.idx 0x02 ≠ d.obj w.idx 0x02 then d.wheelMoved n else d
  ks.foldl (fun d k => if !w.acc .rwd then d else if w.host then d.configChange k else (d.classify k).harmHold k) d

/-- A pressure channel mapped to a slot. -/
def Dev.pressOf (d : Dev) (slot : Nat) : Option Nat := (List.range 24).find? (fun c => d.obj (0x2900 + c) 0x02 = slot)

/-- The TDC of a slot has been written: the scheduler is told, the pressure channel's cycle is broken (R207, R327). -/
def Dev.tdcHook (d : Dev) (slot : Nat) : Dev :=
  match d.pressOf slot with
  | some c => d.gridRestart c
  | none => d

/-- A write to a domain object (R154, R207). -/
def Dev.domainHook (d : Dev) (w : Wr) : Dev :=
  let k := w.inst
  let d := if w.acc .rwd then (if w.host then d.configChange k else (d.classify k).harmHold k) else d
  let slots := w.puts.filter (fun p => 0x40 ≤ p.sub && p.sub ≤ 0x57)
  let d := slots.foldl (fun d p => d.tdcHook (p.sub - 0x40)) d
  if w.host && !slots.isEmpty then
    { d with pendW := d.pendW ++ [⟨d.now, [], slots.map (fun p => (p.sub - 0x40, p.raw))⟩] }
  else d

/-! ### Synthesiser, tooth table, harmonic model -/

/-- A write to a synthesiser object: marks apply to the next crossing (R190), the host's inertia replaces one that C2 has learned
(R188), geometry changes what the status shows. -/
def Dev.synthHook (d : Dev) (w : Wr) : Dev :=
  let d := (List.range 4).foldl (fun d m => if w.has (0x19 + m) then d.markWritten w.inst m else d) d
  let d := if w.has 0x13 then d.setSynth w.inst { (d.synth w.inst) with inertia := none } else d
  d.synthStatus w.inst

/-- A host write of tooth entries (R175, R179, R200); a restore takes table_state and pattern_sig from its bank (R480). -/
def Dev.toothHook (d : Dev) (w : Wr) : Dev :=
  let k := w.inst
  if w.host && w.span 0x03 0x04 then
    let d := d.learnAbort k
    let d := (d.setObj w.idx 0x01 2).setObj w.idx 0x02 (d.patternSig k)
    (d.setBit (0x2200 + k) 0x21 2 false).synthStatus k
  else d.synthStatus k

/-- Coefficients have been written or restored (R181, R182, R201). -/
def Dev.harmHook (d : Dev) (w : Wr) : Dev := ((d.setObj w.idx 0x01 2).harmHold w.inst).synthStatus w.inst

/-! ### Records -/

/-- A record's configuration has been written (R205, R218, R223): enabled or rooted, it is armed afresh unless an occurrence of it
still stands; the scheduler will apply the write to its present occurrences. -/
def Dev.recHook (old d : Dev) (w : Wr) : Dev :=
  let rid := w.rid
  if !w.host || !w.acc .rw then d
  else
    let was := old.topRec rid
    let armed := if (old.present rid).isEmpty then none else was.armed
    let roots := (parentSlot (old.obj w.idx 0x02)).isNone && (parentSlot (d.obj w.idx 0x02)).isSome
    let d := if old.obj w.idx 0x01 = 0 && d.obj w.idx 0x01 = 1 then d.setTopRec rid { armed := armed }
      else if roots then d.setTopRec rid { was with armed := armed } else d
    { d with pendW := d.pendW ++ [⟨d.now, [(rid, d.recCfg rid)], []⟩] }

/-! ### Boost controllers -/

/-- A write to a boost controller (R78, R260). -/
def Dev.boostHook (old d : Dev) (w : Wr) : Dev :=
  let x := w.inst
  let was := old.obj w.idx 0x01
  let d := match w.val 0x01 with
    | some 1 => (d.setObj w.idx 0x01 was).railOn x
    | some _ => if was = 1 then d.railOff x else d
    | none => d
  let r := old.obj w.idx 0x07
  let d := if old.rampOwner r ≠ 0 && d.rampOwner r = 0 then d.setObj (0x2A10 + r) 0x08 0 else d
  if (w.has 0x02 || w.has 0x09) && was = 1 && d.obj w.idx 0x01 = 1 then d.targetMoved x (old.obj w.idx 0x02) (old.obj w.idx 0x09) else d

/-! ### Closure detection -/

/-- A write to a closure object: a host's trim is a learned-data trigger (R292); with trim_init a restore sets the trims to their
default (R296). -/
def Dev.closureHook (d : Dev) (w : Wr) : Dev :=
  if w.host then (if w.span 0x14 0x17 then d.learnPend else d)
  else if w.has 0x10 then
    (List.range 4).foldl (fun d k => if w.has (0x14 + k) then d else d.setObj w.idx (0x14 + k) (d.obj w.idx 0x10)) d
  else d

/-! ### Sensing -/

/-- A write to a pressure channel (R318, R327). -/
def Dev.pressHook (old d : Dev) (w : Wr) : Dev :=
  let c := w.inst
  let d := if old.obj w.idx 0x01 ≠ d.obj w.idx 0x01 then d.pressEnable c (d.obj w.idx 0x01 = 1) else d
  let d := if w.has 0x03 || w.has 0x04 then d.gridSpoil c (w.has 0x04) else d
  if w.has 0x02 then ((d.gridRestart c).ffUpdate 0).ffUpdate 1 else d

/-- A write to a vibration channel (R333, R335): disabled, or taken to another domain, it discards its open windows. -/
def Dev.vibHook (old d : Dev) (w : Wr) : Dev :=
  let d := (List.range 4).foldl (fun d k => if w.span (0x10 + 8 * k) (0x15 + 8 * k) then d.bandWritten w.inst k else d) d
  let off := old.obj w.idx 0x01 = 1 && d.obj w.idx 0x01 = 0
  if off || old.obj w.idx 0x02 ≠ d.obj w.idx 0x02 then d.vibDisable w.inst else d

/-! ### Timers, Lanterns -/

/-- A write to a timer (R363 to R365): up to the present tick the old values hold (R362, R373). -/
def Dev.timerHook (old d : Dev) (w : Wr) : Dev :=
  let d := d.setTimer w.inst ((old.timerTo w.inst).timer w.inst)
  let d := if w.has 0x04 then d.compareWritten w.inst 0 else d
  let d := if w.has 0x05 then d.compareWritten w.inst 1 else d
  if w.has 0x03 then d.periodWritten w.inst else d

/-- A write to a Lantern: enable is turned on or off (R381). -/
def Dev.lanternHook (old d : Dev) (w : Wr) : Dev :=
  let e := w.inst
  let was := old.obj w.idx 0x01
  match w.val 0x01 with
  | some 1 => if was = 1 then d else d.lanOn e
  | some _ => if was = 1 then d.lanOff e else d
  | none => d

/-! ### Cyclic frames -/

/-- A cyclic frame is turned on or takes another trigger: a time trigger first fires one period later (R81), an angle trigger at
the first crossing from now on; turned off, it has nothing to send. -/
def Dev.cycHook (old d : Dev) (w : Wr) : Dev :=
  let set := fun (r : Cyc) => { d with cyc := Store.put (fun _ => {}) d.cyc w.inst r }
  let tr := d.obj w.idx 0x03
  if d.obj w.idx 0x01 = 0 then set {}
  else if old.obj w.idx 0x01 = 0 || old.obj w.idx 0x03 ≠ tr then
    set { due := if tr = 1 then d.now + d.obj w.idx 0x04 * tqUs else d.now }
  else d

/-! ### All blocks -/

/-- The reaction of the block whose object was written: `old` before the write, `d` with its values stored. -/
def Dev.hooks (old d : Dev) (w : Wr) : Dev :=
  match w.kind with
  | .guardian => [0x04, 0x05, 0x06].foldl (fun (d : Dev) s => if w.has s then d.vetoWritten s (old.obj w.idx s) else d) d
  | .cyclic => Dev.cycHook old d w
  | .wheel => Dev.wheelHook old d w
  | .domain => d.domainHook w
  | .pattern => if w.host then d.configChange w.inst else (d.classify w.inst).harmHold w.inst
  | .synth => d.synthHook w
  | .tooth => d.toothHook w
  | .harmonic => d.harmHook w
  | .shot | .sheaf => Dev.recHook old d w
  | .bank => if w.span 0x01 0x07 then d.mapBanks else d
  | .boost => Dev.boostHook old d w
  | .closure => d.closureHook w
  | .pressure => Dev.pressHook old d w
  | .vibration => Dev.vibHook old d w
  | .comparator => d.cmpWritten w.inst ((List.range 8).map (fun k => old.obj w.idx (k + 1)))
  | .ramp => d.rampWritten w.inst
  | .timer => Dev.timerHook old d w
  | .lantern => Dev.lanternHook old d w
  | .night => (((List.range 16).filter (fun k => w.has (0x10 + k))).foldl (fun (d : Dev) k =>
      { d with night := Store.drop d.night k }) d).nightLook
  | .power => if w.has 0x02 then d.powerMask (d.obj 0x2F10 0x02) else d
  | .backup => d.setObj 0x2F30 0x22 1
  | .nv => (match w.val 0x10 with
    | some v => d.setPort w.port { (d.port w.port) with logIndex := v }
    | none => d)
  | _ => d

/-- The identity that an object write carries (R32, R33): the port of a SOP request, C0's for what a start restores. -/
def Wr.master (w : Wr) : Nat := if w.host then w.port else 8

/-- Stores a write and lets the blocks react. -/
def Dev.accept (d : Dev) (w : Wr) : Dev := Dev.hooks d ((d.stored w).writtenBy w.master w.idx) w

/-- The symbols that a write sends to the window of its port (R414). -/
def Dev.windowEff (d : Dev) (w : Wr) : LoftEff :=
  match w.kind, w.puts.find? (fun p => p.sub = 0x30) with
  | .loft, some p => { writes := [(d.obj 0x2D00 (0x20 + w.port), p.bytes)] }
  | _, _ => LoftEff.none

/-- A message goes to a mailbox (R445), and words written afresh lose their error (R404). -/
def Dev.sendPart (d : Dev) (w : Wr) : Dev :=
  match w.kind with
  | .mailbox => (match w.puts.find? (fun p => p.sub = 0x04) with
    | some p => d.mboxSend w.inst p.bytes
    | none => d)
  | .loft => if w.has 0x30 then d.eccWritten (d.obj 0x2D00 (0x20 + w.port)) (d.obj 0x2D00 (0x28 + w.port)) else d
  | _ => d

end Sys2Proof.Machine
end

