-- ==== Sys2Proof/Machine/NvStore.lean ====
section
/-! DEFINITION. The non-volatile store: banks and their selection (R475 to R477), saved objects and their restore (R479, R480,
R464, R466), commits and tokens (R481, R482). -/

namespace Sys2Proof.Machine

/-! ### Banks -/

/-- A bank of the store: 0, 1 factory; 2, 3 boot record; 4, 5 persistent; 6, 7 learned. -/
def Dev.nvBank (d : Dev) (b : Nat) : NvBank := Store.get (fun _ => {}) d.nv.banks b

/-- Stores a bank. -/
def Dev.setNvBank (d : Dev) (b : Nat) (r : NvBank) : Dev :=
  { d with nv := { d.nv with banks := Store.put (fun _ => {}) d.nv.banks b r } }

/-- The kind of a pair, named by its bank A (R474). -/
def nvKind (pair : Nat) : Nat := if pair = 0 then 0 else if pair = 2 then 4 else if pair = 4 then 2 else 3

/-- Symbols of a bank of a pair (R474). -/
def nvSize (pair : Nat) : Nat := if pair = 0 then 65536 else if pair = 2 then 4096 else 1048576

/-- The first 16 symbols of a header (R475). -/
def NvBank.head (b : NvBank) : List Byte :=
  leBytes 4 b.magic ++ leBytes 1 b.kind ++ leBytes 1 b.level ++ leBytes 2 b.format ++ leBytes 4 b.seq ++ leBytes 4 b.len

/-- A bank is valid (R475). -/
def NvBank.valid (b : NvBank) (pair : Nat) : Bool :=
  b.magic = 0x4E56424B && b.kind = nvKind pair && b.format = 1 && b.len = b.body.length && decide (b.len + 32 ≤ nvSize pair) &&
    b.commit = 0x5A5AC33C && b.crc = crc32 (b.head ++ b.body)

/-- A written bank, its commit word aside. -/
def nvMake (pair seq : Nat) (body : List Byte) (commit : Bool) : NvBank :=
  let b : NvBank := { magic := 0x4E56424B, kind := nvKind pair, level := 1, format := 1, seq := seq % 2 ^ 32, len := body.length
                      body := body, commit := if commit then 0x5A5AC33C else 0 }
  { b with crc := crc32 (b.head ++ body) }

/-- The selected bank of a pair: the valid one, or the newer of two, A when they are equal (R477). -/
def Dev.selected (d : Dev) (pair : Nat) : Option Nat :=
  let a := d.nvBank pair
  let b := d.nvBank (pair + 1)
  if a.valid pair then
    if b.valid pair && 0 < toSigned 32 (b.seq + 2 ^ 32 - a.seq) then some (pair + 1) else some pair
  else if b.valid pair then some (pair + 1) else none

/-- Shows the selected banks of the persistent and the learned pair (R488). -/
def Dev.showBanks (d : Dev) : Dev :=
  let show' := fun (d : Dev) (pair sub : Nat) => match d.selected pair with
    | some b => (d.setObj 0x2F20 sub (b - pair)).setObj 0x2F20 (sub + 1) (d.nvBank b).seq
    | none => (d.setObj 0x2F20 sub 0xFF).setObj 0x2F20 (sub + 1) 0
  show' (show' d 4 0x03) 6 0x05

/-! ### Saved objects (R479) -/

/-- The symbols of an object as the store holds them. -/
def Dev.savedData (d : Dev) (idx sub : Nat) (ty : OTy) : List Byte :=
  match ty with
  | .blob n => d.blobBytes idx sub 0 n
  | ty => leBytes ty.size (d.obj idx sub)

/-- One record of a body. -/
def nvRecord (idx sub : Nat) (data : List Byte) : List Byte :=
  leBytes 2 idx ++ leBytes 1 sub ++ leBytes 1 0 ++ leBytes 2 data.length ++ data

/-- The body with every object of a persistence code that a filter of indices lets through, in ascending order (R479, R496). -/
def Dev.nvBody (d : Dev) (code : Persist) (keep : Nat → Bool) : List Byte :=
  objBlocks.flatMap (fun b => (List.range b.count).flatMap (fun i =>
    if keep (b.first + i) then
      (List.range 256).flatMap (fun s => match b.row i s with
        | some r => if r.persist = code then nvRecord (b.first + i) s (d.savedData (b.first + i) s r.ty) else []
        | none => [])
    else []))

/-- A record of a body as read back. -/
structure NvRec where
  idx : Nat
  sub : Nat
  data : List Byte
  deriving DecidableEq, Repr

/-- Reads the records of a body. -/
def parseRecs : Nat → List Byte → List NvRec
  | 0, _ => []
  | f + 1, bs =>
    let n := ofLe ((bs.drop 4).take 2)
    if bs.length < 6 + n then []
    else ⟨ofLe (bs.take 2), ofLe ((bs.drop 2).take 1), (bs.drop 6).take n⟩ :: parseRecs f (bs.drop (6 + n))

/-- Adds a record to the requests, one request for each index. -/
def addRec (l : List (Nat × List NvRec)) (r : NvRec) : List (Nat × List NvRec) :=
  match l with
  | (i, rs) :: rest => if i = r.idx then (i, rs ++ [r]) :: rest else (r.idx, [r]) :: l
  | [] => [(r.idx, [r])]

/-- The requests of a body, in its order. -/
def requestsOf (body : List Byte) : List (Nat × List NvRec) := ((parseRecs body.length body).foldl addRec []).reverse

/-! ### Restore (R480) -/

/-- A record's data fits its object's type. -/
def recFits (r : NvRec) : Bool :=
  match objRow r.idx r.sub with
  | some row => (match row.ty with
    | .blob n => decide (r.data.length ≤ n)
    | ty => decide (r.data.length = ty.size))
  | none => false

/-- The request that a restore makes of the records of an index. -/
def restoreWr (idx : Nat) (rs : List NvRec) : Option Wr :=
  match blockOf idx with
  | some b => some { port := 0, host := false, idx := idx, inst := idx - b.first, kind := b.kind
                     puts := rs.map (fun r => ⟨r.sub, ofLe r.data, r.data⟩) }
  | none => none

/-- Applies the records of one index as one request; none where a check refuses it. -/
def Dev.restoreReq (d : Dev) (idx : Nat) (rs : List NvRec) : Option Dev :=
  match restoreWr idx rs with
  | some w => if rs.all recFits && !d.restoreRefused w then some (d.accept w) else none
  | none => none

/-- A request of a restore was refused and skipped whole (R480). -/
def Dev.restoreSkip (d : Dev) : Dev :=
  ((d.inc16 0x2F20 0x09).logEvent 2 121 121 0).raiseIf (d.bit 0x2F20 0x0B 2) 121

/-- The part has a record's index and subindex and, where the bank comes from a higher level, knows its value (R494). -/
def recKnown (above : Bool) (r : NvRec) : Bool :=
  match objRow r.idx r.sub with
  | some row => !above || row.ty.isBlob || row.allows (ofLe r.data)
  | none => false

/-- Applies a body's requests to the objects that a filter lets through; a record that the part does not know is skipped by itself
(R480, R494). -/
def Dev.restoreBody (d : Dev) (keep : Nat → Nat → Bool) (above : Bool) (body : List Byte) : Dev :=
  (requestsOf body).foldl (fun d q =>
    let rs := q.2.filter (fun r => keep r.idx r.sub)
    let known := rs.filter (recKnown above)
    let d := (rs.filter (fun r => !recKnown above r)).foldl (fun d _ => d.restoreSkip) d
    if known.isEmpty then d
    else match d.restoreReq q.1 known with
      | some e => e
      | none => d.restoreSkip) d

/-- The indices of the shot and sheaf records. -/
def recIndex (idx : Nat) : Bool := (0x2400 ≤ idx && idx < 0x2600) || (0x3000 ≤ idx && idx < 0x3400)

/-- The objects of a power domain, for its restore (R466). -/
def pdObject (k idx sub : Nat) : Bool :=
  objPd idx sub == some k || (k = 12 && ((0x1100 ≤ idx && idx < 0x1700) || idx = 0x1800))

/-- The tooth tables as last saved (R180). -/
def Dev.teethSaved (d : Dev) : Dev :=
  (List.range 2).foldl (fun d k =>
    d.setSynth k { (d.synth k) with saved := (List.range 1032).filterMap (fun p =>
      let v := toSigned 16 (ofLe (if p < 1024 then d.blobBytes (0x2210 + k) 0x03 (2 * p) 2 else d.blobBytes (0x2210 + k) 0x04 (2 * (p - 1024)) 2))
      if v = 0 then none else some (p, v)) }) d

/-- Tables restored are held against the present pattern (R175). -/
def Dev.learnedIn (d : Dev) : Dev := ((d.sigCheck 0).sigCheck 1).teethSaved

/-- The trims as last saved (R292). -/
def Dev.trimsSaved (d : Dev) : Dev :=
  (List.range 48).foldl (fun d n =>
    d.setClosure n { (d.closure n) with saved := (List.range 4).filterMap (fun k => if d.trim n k = 0 then none else some (k, d.trim n k)) }) d

/-- The body of the selected bank of a pair. -/
def Dev.bodyOf (d : Dev) (pair : Nat) : List Byte :=
  match d.selected pair with
  | some b => (d.nvBank b).body
  | none => []

/-- The selected bank of a pair was written at a level above the part's (R494). -/
def Dev.bankAbove (d : Dev) (pair : Nat) : Bool :=
  match d.selected pair with
  | some b => decide (1 < (d.nvBank b).level)
  | none => false

/-- A selected bank written at a level above the part's is named by a log entry (R494). -/
def Dev.levelNote (d : Dev) (pair : Nat) : Dev :=
  match d.selected pair with
  | some b => if 1 < (d.nvBank b).level then d.logEvent 2 121 121 (d.nvBank b).level else d
  | none => d

/-- The restore of phase P7 (R464, R480): the persistent bank, then the learned one; in hold without shots and sheaves. -/
def Dev.restoreAll (d : Dev) : Dev :=
  let hold := d.inHold
  let d := d.showBanks
  let d := { d with rst := { d.rst with heldSeq := (d.selected 4).map (fun b => (b, (d.nvBank b).seq)) } }
  let d := (d.setBit 0x2F20 0x08 1 (d.selected 4).isNone).setBit 0x2F20 0x08 2 (d.selected 6).isNone
  let d := (d.levelNote 4).levelNote 6
  let d := d.restoreBody (fun i _ => !(hold && recIndex i)) (d.bankAbove 4) (d.bodyOf 4)
  ((d.restoreBody (fun _ _ => true) (d.bankAbove 6) (d.bodyOf 6)).learnedIn).trimsSaved

/-- The lock bits that a domain restore leaves clear (R466). -/
def lockSub (idx sub : Nat) : Bool :=
  (0x2740 ≤ idx && idx < 0x2750 && sub = 0x08) || (idx = 0x1800 && sub = 0x02) || (idx = 0x2E00 && sub = 0x01) ||
    (idx = 0x2E60 && sub = 0x01)

/-- A domain restore (R466). -/
def Dev.restoreDomain (d : Dev) (k : Nat) : Dev :=
  let hold := d.inHold
  let keep := fun i s => pdObject k i s && !lockSub i s && !(hold && recIndex i)
  let d := d.restoreBody keep (d.bankAbove 4) (d.bodyOf 4)
  let d := d.restoreBody keep (d.bankAbove 6) (d.bodyOf 6)
  let d := if k = 5 then d.learnedIn else if k = 10 then d.trimsSaved else d
  if k = 12 then d.latchPorts else if k = 5 ∨ k = 6 then (d.schedArm 0).schedArm 1 else d

/-- The lock bits take effect at the end of phase P7 (R74, R240, R432, R444). -/
def Dev.autoLock (d : Dev) : Dev :=
  let on := fun (d : Dev) (idx auto lock : Nat) => if d.obj idx auto = 1 then d.setObj idx lock 1 else d
  on (on (on d 0x1800 0x03 0x02) 0x2E00 0x02 0x01) 0x2E60 0x02 0x01

/-- A pair with no valid bank gets its full budget at the end of phase P7 (R482). -/
def Dev.fullBudget (d : Dev) : Dev :=
  let n := d.nv
  let n := if d.bit 0x2F20 0x08 1 then { n with tokP := 24, accP := 0, refP := d.now } else n
  let n := if d.bit 0x2F20 0x08 2 then { n with tokL := 4, accL := 0, refL := d.now } else n
  { d with nv := n }

/-! ### NV writes (R476, R481, R482) -/

/-- The bank of a pair that a write takes: the one that is not selected; A where none is. -/
def Dev.writeBank (d : Dev) (pair : Nat) : Nat :=
  match d.selected pair with
  | some b => if b = pair then pair + 1 else pair
  | none => pair

/-- The sequence of the next bank of a pair: one above the selected one's, or 1. -/
def Dev.nextSeq (d : Dev) (pair : Nat) : Nat :=
  match d.selected pair with
  | some b => ((d.nvBank b).seq + 1) % 2 ^ 32
  | none => 1

/-- An NV write begins: the bank loses its commit word (R476). -/
def Dev.nvBegin (d : Dev) (pair bank : Nat) (body : List Byte) (commit imported : Bool) : Dev :=
  let j : NvJob := { pair := pair, bank := bank, body := body, seq := d.nextSeq pair, commit := commit, imported := imported }
  let d := d.setNvBank bank { (d.nvBank bank) with commit := 0 }
  { d with nv := { d.nv with jobs := d.nv.jobs ++ [j] } }

/-- A token of the persistent budget is drawn; from a full budget the refill time starts now (R482). -/
def Nv.drawP (n : Nv) (now : Nat) : Nv :=
  if n.tokP = 24 then { n with tokP := 23, accP := 0, refP := now } else { n with tokP := n.tokP - 1 }

/-- A token of the learned budget is drawn (R482). -/
def Nv.drawL (n : Nv) (now : Nat) : Nv :=
  if n.tokL = 4 then { n with tokL := 3, accL := 0, refL := now } else { n with tokL := n.tokL - 1 }

/-- COMMIT_PERSISTENT and COMMIT_EMPTY (R481). -/
def Dev.commitP (d : Dev) (empty : Bool) : Dev :=
  let body := if empty then [] else d.nvBody .p (fun _ => true)
  let d := { d with nv := d.nv.drawP d.now }
  (d.nvBegin 4 (d.writeBank 4) body true false).setObj 0x2F20 0x02 1

/-- A learned bank is written with the values of now; the triggers pending are served (R482). Coefficients are saved while
harmonic_warm is set (R184), or as an import has brought them (R500). -/
def Dev.learnedBegin (d : Dev) (commit imported : Bool) : Dev :=
  let body := d.nvBody .l (fun idx => imported || decide (idx < 0x2220) || decide (0x2221 < idx) || d.bit (idx - 0x20) 0x21 4)
  let d := { d with nv := d.nv.drawL d.now }
  (((d.nvBegin 6 (d.writeBank 6) body commit imported).setBit 0x2F20 0x08 0 false).teethSaved).trimsSaved

/-- COMMIT_LEARNED (R481). -/
def Dev.commitL (d : Dev) : Dev := (d.learnedBegin true false).setObj 0x2F20 0x02 1

/-- LEARNED_WRITE (R482): triggers are pending, a token is there, no write of the pair is in progress, the supply is not low. -/
def Dev.learnedWrite (d : Dev) : Dev :=
  if d.ready && d.bit 0x2F20 0x08 0 && decide (0 < d.nv.tokL) && !d.nv.jobs.any (fun j => j.pair = 6) && !d.bit 0x2F10 0x06 0 then
    d.learnedBegin false false
  else d

/-- The end of an import's write (R500). -/
def Dev.importSaved (d : Dev) (ok : Bool) : Dev :=
  d.setObj 0x5000 0x03 (if !ok then 8 else if d.obj 0x5000 0x08 ≠ 0 then 7 else 2)

/-- The rollback minimum that the valid factory copies hold: the larger one (R484). -/
def Dev.factoryMin (d : Dev) : Nat :=
  ([0, 1] : List Nat).foldl (fun m b => if (d.nvBank b).valid 0 then max m (ofLe ((d.nvBank b).body.take 1)) else m) 0

/-- The validity of the factory copies as the store's status shows it (R488). -/
def Dev.factoryBits (d : Dev) : Dev := (d.setBit 0x2F20 0x08 3 ((d.nvBank 0).valid 0)).setBit 0x2F20 0x08 4 ((d.nvBank 1).valid 0)

/-- The outcome of a write: commit_state and source 121 for a commit, the counters of failures, a factory copy repaired (R481,
R485). -/
def Dev.jobOutcome (d : Dev) (j : NvJob) (ok : Bool) : Dev :=
  let d := if j.commit then d.setObj 0x2F20 0x02 (if ok then 2 else 3) else d
  let d := if ok then d.raiseIf ((j.commit && d.bit 0x2F20 0x0B 0) || (j.pair = 0 && j.imported && d.bit 0x2F20 0x0B 3)) 121
    else ((d.inc 0x2F20 0x0A).raiseIf (d.bit 0x2F20 0x0B 1) 121).logEvent 2 121 121 0
  let d := if j.pair = 6 && !ok then d.learnPend else d
  if j.pair = 6 && j.imported then d.importSaved ok else d

/-- The pair's selection as the objects show it after a write. -/
def Dev.afterWrite (d : Dev) (pair : Nat) : Dev :=
  let d := if pair = 4 ∨ pair = 6 then d.showBanks else d
  let d := if pair = 4 then d.setBit 0x2F20 0x08 1 (d.selected 4).isNone else if pair = 6 then d.setBit 0x2F20 0x08 2 (d.selected 6).isNone else d
  if pair = 0 then { d.factoryBits with factory := { d.factory with rollbackMin := d.factoryMin } } else d

/-- The other copy of the factory area follows copy A (R476). -/
def Dev.copyFollows (d : Dev) (j : NvJob) : Dev :=
  if j.pair = 0 ∧ j.bank = 0 ∧ j.imported = false then { d with nv := { d.nv with jobs := { j with bank := 1 } :: d.nv.jobs } } else d

/-- NV_WRITE_DONE (R476): body and header are written and read back; the commit word is written if they match. -/
def Dev.nvWriteDone (d : Dev) (pair : Nat) (readOk imports : Bool) : Dev :=
  match d.nv.jobs.find? (fun j => decide (j.pair = pair) && (decide (pair ≠ 6) || j.imported == imports)) with
  | none => d
  | some j =>
    if !d.coresRun then d
    else
      let d := { d with nv := { d.nv with jobs := d.nv.jobs.erase j } }
      let d := d.setNvBank j.bank (nvMake j.pair j.seq j.body readOk)
      ((d.jobOutcome j readOk).afterWrite j.pair).copyFollows j

/-- TOKEN_REFILL (R482): 15 minutes for a persistent token, 20 minutes for a learned one. -/
def Dev.tokenRefill (d : Dev) (learned : Bool) : Dev :=
  let n := d.nv
  if learned then
    let run := n.accL + (d.now - n.refL)
    let per := 1200 * tqSec
    if n.tokL < 4 && per ≤ run then { d with nv := { n with tokL := n.tokL + 1, accL := run - per, refL := d.now } } else d
  else
    let run := n.accP + (d.now - n.refP)
    let per := 900 * tqSec
    if n.tokP < 24 && per ≤ run then { d with nv := { n with tokP := n.tokP + 1, accP := run - per, refP := d.now } } else d

/-- HOLD_RELEASE (R464): with the saved records of the bank selected in P7, or without. -/
def Dev.holdRelease (d : Dev) (schedules : Bool) : Dev :=
  let d := if schedules then (match d.rst.heldSeq with
    | some (b, _) => d.restoreBody (fun i _ => recIndex i) (decide (1 < (d.nvBank b).level)) (d.nvBank b).body
    | none => d) else d
  (d.setBit 0x2F00 0x02 1 false)

end Sys2Proof.Machine
end

