-- ==== Sys2Proof/Machine/Cmd.lean ====
section
/-! DEFINITION. What the commands of the object maps start once a write of them is accepted (R12, R16). -/

namespace Sys2Proof.Machine

/-- The boot record is written whole: selected bank, previous bank, trial, attempts, reserved (R476, R478). While the supply is
low no write begins (R473). -/
def Dev.bootWrite (d : Dev) (selected previous trial attempts : Nat) : Dev :=
  if d.bit 0x2F10 0x06 0 then d
  else d.setNvBank (d.writeBank 2) (nvMake 2 (d.nextSeq 2) ([selected, previous, trial, attempts, 0].map (BitVec.ofNat 8)) true)

/-- Activation (R97, R478): the boot record selects the inactive bank on trial, then the device is reset into phase P6. -/
def Dev.activate (d : Dev) (port : Nat) : Dev :=
  (d.bootWrite (1 - d.rst.bootBank) d.rst.bootBank 1 0).assertReset 5 (0x80 + port) 6

/-- The commands of the drive chapters' objects and of the scheduler's records. -/
def Dev.driveCommand (d : Dev) (w : Wr) (sub v : Nat) : Dev :=
  let n := w.inst
  match w.kind with
  | .shot | .sheaf => if v = 1 then d.cancelRec w.rid else d.cancelDisable w.rid
  | .channel => d.channelClear n
  | .bank => d.bankClear n
  | .boost => d.boostClear n
  | .closure => if sub = 0x28 then d.resetLearning n v else d.closureClear n
  | .lane => if sub = 0x07 then d.laneHold n v else d.laneClear n
  | .chanDiag => if sub = 0x13 then d.channelClearFault n else d.channelDiagClear n
  | .bankDiag => if sub = 0x09 then d.bankClearFault n else d.bankDiagClear n
  | .boostDiag => d.boostDiagClear n
  | .protect => d.protectionClear
  | _ => d

/-- The commands of the domains, their synthesisers and their wheel inputs. -/
def Dev.domainCommand (d : Dev) (w : Wr) (sub v : Nat) : Dev :=
  let k := w.inst
  match w.kind with
  | .wheel => d.wheelClear k
  | .domain =>
    if sub = 0x0F then (if v = 1 then d.arm k else d.disarm k false)
    else if sub = 0x1C then d.domainClear k
    else if sub = 0x34 then d.cancelAll k
    else d.schedClear k
  | .synth => if sub = 0x0D then (if v = 1 then d.learnStart k else d.learnAbort k) else d.synthClear k
  | .tooth => d.toothClear k
  | _ => d

/-- The commands of the sensing, timing, Lantern and DMA objects. -/
def Dev.blockCommand (d : Dev) (w : Wr) (sub v : Nat) : Dev :=
  let n := w.inst
  match w.kind with
  | .pressure => d.pressureClear n
  | .vibration => d.vibrationClear n
  | .comparator => d.comparatorClear n
  | .ramp => d.rampStart n
  | .timer => if sub = 0x12 then (if v = 1 then d.timerArm n else if v = 2 then d.timerStart n else d.timerStop n) else d.timerClear n
  | .gstart => d.gstart v
  | .route => d.routeClear (2 * n + sub / 16)
  | .lantern => if sub = 0x1A then d.injectSet n v else d.lanternClear n
  | .loft => d.loftClear
  | .dma => if sub = 0x01 then (if v = 1 then d.dmaArm n false else if v = 2 then d.dmaArm n true else d.dmaStop n) else d.dmaClear n
  | _ => d

/-- The commands of the objects that manage the device. -/
def Dev.deviceCommand (d : Dev) (w : Wr) (sub v : Nat) : Dev :=
  match w.kind with
  | .session => d.closeSession w.inst 4
  | .firmware => d.activate w.port
  | .timebase => d.setBit 0x2000 0x04 2 false
  | .irq => d.irqClear
  | .stack => if sub = 0x08 then d.stackReset w.inst else d.stackClear w.inst
  | .doorbell => if sub = 0x04 then d.ringBells v else d.answerBells v
  | .reset => if sub = 0x03 then d.holdRelease (v = 1) else if sub = 0x07 then d.assertReset 5 w.port 2 else d.domainReset v
  | .power => if sub = 0x03 then d.sleep else d.powerClear
  | .nv => if v = 1 then d.commitP false else if v = 2 then d.commitP true else d.commitL
  | _ => d

/-- The action that a write of a CMD subindex starts. -/
def Dev.command (d : Dev) (w : Wr) (sub v : Nat) : Dev :=
  match w.kind with
  | .wheel | .domain | .synth | .tooth => d.domainCommand w sub v
  | .pressure | .vibration | .comparator | .ramp | .timer | .gstart | .route | .lantern | .loft | .dma => d.blockCommand w sub v
  | .session | .firmware | .timebase | .irq | .stack | .doorbell | .reset | .power | .nv => d.deviceCommand w sub v
  | _ => d.driveCommand w sub v

/-- A CMD subindex of a write. -/
def Wr.isCommand (w : Wr) (p : Put) : Bool := match objRow w.idx p.sub with
  | some r => decide (r.acc = .cmd)
  | none => false

/-- The actions of a write, in the order of its subindices. -/
def Dev.commands (d : Dev) (w : Wr) : Dev :=
  (w.puts.filter w.isCommand).foldl (fun d p => d.command w p.sub p.raw) d

/-- The write resets the ports or the device, or puts it to sleep, so its response goes out before the action (R457, R468,
R472). -/
def Wr.silences (w : Wr) : Bool :=
  (w.kind = .firmware && w.has 0x03) || (w.kind = .reset && (w.has 0x07 || w.is 0x08 12)) || (w.kind = .power && w.has 0x03)

end Sys2Proof.Machine
end

