-- ==== Sys2Proof/Machine/Crypto.lean ====
section
/-! DEFINITION. SHA-256 (FIPS 180-4) and the verification of ECDSA over P-256 (FIPS 186-4), which R94 names for firmware images.
Words are natural numbers below 2^32, field elements natural numbers below the prime. -/

namespace Sys2Proof.Machine

/-! ### SHA-256 -/

/-- A word rotated right. -/
def rotr (n x : Nat) : Nat := (x >>> n) ||| ((x <<< (32 - n)) % 2 ^ 32)

/-- A sum modulo 2^32. -/
def addW (a b : Nat) : Nat := (a + b) % 2 ^ 32

/-- The round constants. -/
def shaK : List Nat :=
  [ 0x428a2f98, 0x71374491, 0xb5c0fbcf, 0xe9b5dba5, 0x3956c25b, 0x59f111f1, 0x923f82a4, 0xab1c5ed5 ] ++
  [ 0xd807aa98, 0x12835b01, 0x243185be, 0x550c7dc3, 0x72be5d74, 0x80deb1fe, 0x9bdc06a7, 0xc19bf174 ] ++
  [ 0xe49b69c1, 0xefbe4786, 0x0fc19dc6, 0x240ca1cc, 0x2de92c6f, 0x4a7484aa, 0x5cb0a9dc, 0x76f988da ] ++
  [ 0x983e5152, 0xa831c66d, 0xb00327c8, 0xbf597fc7, 0xc6e00bf3, 0xd5a79147, 0x06ca6351, 0x14292967 ] ++
  [ 0x27b70a85, 0x2e1b2138, 0x4d2c6dfc, 0x53380d13, 0x650a7354, 0x766a0abb, 0x81c2c92e, 0x92722c85 ] ++
  [ 0xa2bfe8a1, 0xa81a664b, 0xc24b8b70, 0xc76c51a3, 0xd192e819, 0xd6990624, 0xf40e3585, 0x106aa070 ] ++
  [ 0x19a4c116, 0x1e376c08, 0x2748774c, 0x34b0bcb5, 0x391c0cb3, 0x4ed8aa4a, 0x5b9cca4f, 0x682e6ff3 ] ++
  [ 0x748f82ee, 0x78a5636f, 0x84c87814, 0x8cc70208, 0x90befffa, 0xa4506ceb, 0xbef9a3f7, 0xc67178f2 ]

/-- The initial hash value. -/
def shaInit : List Nat := [ 0x6a09e667, 0xbb67ae85, 0x3c6ef372, 0xa54ff53a, 0x510e527f, 0x9b05688c, 0x1f83d9ab, 0x5be0cd19 ]

/-- One more word of the schedule; the words so far newest first. -/
def shaWord (w : List Nat) : Nat :=
  let a := w.getD 14 0
  let b := w.getD 1 0
  let s0 := (rotr 7 a ^^^ rotr 18 a) ^^^ (a >>> 3)
  let s1 := (rotr 17 b ^^^ rotr 19 b) ^^^ (b >>> 10)
  addW (addW (w.getD 15 0) s0) (addW (w.getD 6 0) s1)

/-- The schedule of a block, newest first, with `n` further words. -/
def shaSchedule : Nat → List Nat → List Nat
  | 0, w => w
  | n + 1, w => shaSchedule n (shaWord w :: w)

/-- One round. -/
def shaRound (v : List Nat) (kw : Nat × Nat) : List Nat :=
  match v with
  | [a, b, c, d, e, f, g, h] =>
    let s1 := (rotr 6 e ^^^ rotr 11 e) ^^^ rotr 25 e
    let ch := (e &&& f) ^^^ ((2 ^ 32 - 1 - e) &&& g)
    let t1 := addW (addW h s1) (addW ch (addW kw.1 kw.2))
    let s0 := (rotr 2 a ^^^ rotr 13 a) ^^^ rotr 22 a
    let maj := ((a &&& b) ^^^ (a &&& c)) ^^^ (b &&& c)
    [addW t1 (addW s0 maj), a, b, c, addW d t1, e, f, g]
  | _ => v

/-- One block of 64 symbols. -/
def shaBlock (h : List Nat) (blk : List Byte) : List Nat :=
  let w := (chunks 4 16 blk).map ofBe
  let v := ((shaK.zip (shaSchedule 48 w.reverse).reverse)).foldl shaRound h
  (h.zip v).map (fun p => addW p.1 p.2)

/-- A message with its padding. -/
def shaPad (m : List Byte) : List Byte :=
  let z := (119 - m.length % 64) % 64
  m ++ [0x80] ++ List.replicate z 0 ++ (leBytes 8 (8 * m.length)).reverse

/-- The digest as a number, most significant symbol first. -/
def sha256 (m : List Byte) : Nat :=
  let p := shaPad m
  ((chunks 64 (p.length / 64) p).foldl shaBlock shaInit).foldl (fun n w => n * 2 ^ 32 + w) 0

/-! ### P-256 -/

/-- The prime of the field. -/
def p256 : Nat := 0xFFFFFFFF00000001000000000000000000000000FFFFFFFFFFFFFFFFFFFFFFFF

/-- The order of the group. -/
def n256 : Nat := 0xFFFFFFFF00000000FFFFFFFFFFFFFFFFBCE6FAADA7179E84F3B9CAC2FC632551

/-- The coefficient b of the curve; a is -3. -/
def b256 : Nat := 0x5AC635D8AA3A93E7B3EBBD55769886BC651D06B0CC53B0F63BCE3C3E27D2604B

/-- The base point. -/
def g256 : Nat × Nat :=
  (0x6B17D1F2E12C4247F8BCE6E563A440F277037D812DEB33A0F4A13945D898C296,
   0x4FE342E2FE1A7F9B8EE7EB4A7C0F9E162BCE33576B315ECECBB6406837BF51F5)

/-- A power modulo m, over the low `k` bits of the exponent, most significant first. -/
def powMod (m x e : Nat) : Nat → Nat
  | 0 => 1 % m
  | k + 1 =>
    let r := powMod m x (e / 2) k
    if e % 2 = 1 then r * r % m * x % m else r * r % m

/-- The inverse modulo a prime. -/
def invMod (m x : Nat) : Nat := powMod m x (m - 2) 256

/-- A point of the curve in Jacobian coordinates; z = 0 is the point at infinity. -/
structure JPoint where
  x : Nat
  y : Nat
  z : Nat
  deriving DecidableEq, Repr

/-- Difference in the field. -/
def subP (a b : Nat) : Nat := (a + (p256 - b % p256)) % p256

/-- Twice a point (a = -3). -/
def dbl (q : JPoint) : JPoint :=
  if q.z = 0 ∨ q.y = 0 then ⟨1, 1, 0⟩
  else
    let zz := q.z * q.z % p256
    let yy := q.y * q.y % p256
    let s := 4 * q.x * yy % p256
    let m := 3 * subP q.x zz * ((q.x + zz) % p256) % p256
    let x := subP (m * m % p256) (2 * s)
    ⟨x, subP (m * subP s x % p256) (8 * (yy * yy % p256)), 2 * q.y * q.z % p256⟩

/-- The sum of two points. -/
def addJ (a b : JPoint) : JPoint :=
  if a.z = 0 then b
  else if b.z = 0 then a
  else
    let za := a.z * a.z % p256
    let zb := b.z * b.z % p256
    let u1 := a.x * zb % p256
    let u2 := b.x * za % p256
    let s1 := a.y * (zb * b.z % p256) % p256
    let s2 := b.y * (za * a.z % p256) % p256
    if u1 = u2 then (if s1 = s2 then dbl a else ⟨1, 1, 0⟩)
    else
      let h := subP u2 u1
      let r := subP s2 s1
      let hh := h * h % p256
      let hhh := hh * h % p256
      let v := u1 * hh % p256
      let x := subP (r * r % p256) (hhh + 2 * v)
      ⟨x, subP (r * subP v x % p256) (s1 * hhh % p256), h * (a.z * b.z % p256) % p256⟩

/-- A multiple of a point, over the low `bits` bits of the factor. -/
def mulJ (q : JPoint) (k : Nat) : Nat → JPoint
  | 0 => ⟨1, 1, 0⟩
  | n + 1 =>
    let r := dbl (mulJ q (k / 2) n)
    if k % 2 = 1 then addJ r q else r

/-- A pair is a point of the curve other than infinity. -/
def onCurve (q : Nat × Nat) : Bool :=
  q.1 < p256 && q.2 < p256 && q.2 * q.2 % p256 = (q.1 * q.1 % p256 * q.1 + (p256 - 3) * q.1 + b256) % p256

/-- ECDSA verification of a digest under a public key (FIPS 186-4). -/
def ecdsaOk (key : Nat × Nat) (e r s : Nat) : Bool :=
  if onCurve key && 0 < r && r < n256 && 0 < s && s < n256 then
    let w := invMod n256 s
    let u1 := e % n256 * w % n256
    let u2 := r * w % n256
    let q := addJ (mulJ ⟨g256.1, g256.2, 1⟩ u1 256) (mulJ ⟨key.1, key.2, 1⟩ u2 256)
    if q.z = 0 then false
    else
      let zi := invMod p256 q.z
      (q.x * (zi * zi % p256) % p256) % n256 = r
  else false

end Sys2Proof.Machine
end

