-- ==== Sys2Proof/Machine/Learned.lean ====
section
/-! DEFINITION. The learned-data image: export, the checks and the application of an import (R496 to R500). -/

namespace Sys2Proof.Machine

/-- Magic of a learned-data image (R496). -/
def imageMagic : Nat := 0x4C524E44

/-- The body of an image: every object of persistence L except 0x5000 (R496). -/
def Dev.imageBody (d : Dev) : List Byte := d.nvBody .l (fun idx => decide (idx ≠ 0x5000))

/-- Symbols 0 to 59 of the header of an image (R496). -/
def Dev.imageHead (d : Dev) (bodyLength : Nat) : List Byte :=
  leBytes 4 imageMagic ++ leBytes 2 1 ++ leBytes 1 1 ++ leBytes 1 0 ++ leBytes 4 (d.obj 0x1018 0x02) ++
    leBytes 4 (d.obj 0x1018 0x04) ++ leBytes 4 (d.obj 0x1018 0x03) ++ leBytes 4 (d.obj 0x2000 0x02) ++ leBytes 8 d.now ++
    leBytes 4 (d.obj 0x2F20 0x06) ++ leBytes 4 bodyLength ++ List.replicate 20 0

/-- The image a read of export returns (R497). -/
def Dev.exportImage (d : Dev) : List Byte :=
  let body := d.imageBody
  let head := d.imageHead body.length
  head ++ leBytes 4 (crc32 (head ++ body)) ++ body

/-- A little-endian field of an image. -/
def fieldOf (image : List Byte) (off n : Nat) : Nat := ofLe ((image.drop off).take n)

/-- The import_state of the first check of R498 that fails. -/
def Dev.importState (d : Dev) (image : List Byte) : Option Nat :=
  if image.length < 64 || fieldOf image 0 4 ≠ imageMagic || fieldOf image 4 2 ≠ 1 || fieldOf image 36 4 ≠ image.length - 64 then some 3
  else if fieldOf image 60 4 ≠ crc32 (image.take 60 ++ image.drop 64) then some 4
  else if fieldOf image 8 4 ≠ d.obj 0x1018 0x02 then some 5
  else if 1 < fieldOf image 6 1 then some 6
  else none

/-- The bit of import_scope that covers an index (R501). -/
def scopeBit (idx : Nat) : Option Nat :=
  if idx = 0x2210 ∨ idx = 0x2211 then some 0
  else if idx = 0x2220 ∨ idx = 0x2221 then some 1
  else if idx = 0x2200 ∨ idx = 0x2201 then some 2
  else if 0x2800 ≤ idx ∧ idx ≤ 0x282F then some 3
  else none

/-- A record of an object of persistence L. -/
def learnedRec (r : NvRec) : Bool := match objRow r.idx r.sub with
  | some row => decide (row.persist = .l)
  | none => false

/-- The records of one index of an image (R499): left out by the scope, applied, or skipped whole and counted. -/
def Dev.importReq (d : Dev) (scope : Nat) (q : Nat × List NvRec) : Dev :=
  match scopeBit q.1 with
  | some b =>
    if !scope.testBit b then d
    else match if q.2.all learnedRec then d.restoreReq q.1 q.2 else none with
      | some e => e
      | none => d.inc16 0x5000 0x08
  | none => d.inc16 0x5000 0x08

/-- What C2 and C3 had computed and not yet applied is discarded, a learning run is aborted (R499). -/
def Dev.importStops (d : Dev) : Dev :=
  let d := (d.learnAbort 0).learnAbort 1
  let d := (List.range 2).foldl (fun (d : Dev) k =>
    d.setSynth k { (d.synth k) with refitBegun := none, refit := none, inertiaIn := none, inertia := none }) d
  (List.range 48).foldl (fun (d : Dev) n => d.setClosure n { (d.closure n) with learn := [] }) d

/-- A checked image is applied, then a learned bank is written (R499, R500). While the supply is low no write begins (R473): the
save has failed and the learned data stay pending. -/
def Dev.importApply (d : Dev) (image : List Byte) : Dev :=
  let d := (d.importStops).setObj 0x5000 0x08 0
  let scope := d.obj 0x5000 0x04
  let d := (requestsOf (image.drop 64)).foldl (fun d q => d.importReq scope q) d
  let d := ((d.setObj 0x5000 0x05 (fieldOf image 12 4)).setObj 0x5000 0x06 d.now).inc 0x5000 0x07
  let d := { d with nv := { d.nv with importsSincePower := d.nv.importsSincePower + 1 } }
  if d.bit 0x2F10 0x06 0 then (d.setObj 0x5000 0x03 8).learnPend else (d.learnedBegin false true).setObj 0x5000 0x03 1

/-! ### Firmware images (R94 to R96) -/

/-- A firmware bank. -/
def Dev.fwBank (d : Dev) (b : Nat) : FwBank := Store.get (fun _ => {}) d.fw b

/-- Stores a firmware bank. -/
def Dev.setFwBank (d : Dev) (b : Nat) (r : FwBank) : Dev := { d with fw := Store.put (fun _ => {}) d.fw b r }

/-- The magic, version and lengths of an image fit (R94, R95). -/
def fwHeadOk (image : List Byte) : Bool :=
  decide (256 ≤ image.length ∧ image.length ≤ 4190208) && fieldOf image 0 4 = 0x5A3C0D48 && fieldOf image 4 2 = 1 &&
    fieldOf image 8 4 = image.length - 256

/-- The public key of an unrevoked key slot (R94). -/
def Factory.key (f : Factory) (slot : Nat) : Option (Nat × Nat) :=
  if f.revoked.testBit slot then none else if slot = 0 then some f.key0 else if slot = 1 then some f.key1 else none

/-- The signature of an image verifies under its key slot (R94, R95). -/
def Dev.fwSigned (d : Dev) (image : List Byte) : Bool :=
  match d.factory.key (fieldOf image 6 2) with
  | some k => ecdsaOk k (sha256 (image.take 192)) (ofBe ((image.drop 192).take 32)) (ofBe ((image.drop 224).take 32))
  | none => false

/-- verify_state of an image (R95): header and length, hash, signature, rollback, level. -/
def Dev.fwVerify (d : Dev) (image : List Byte) : Nat :=
  if !fwHeadOk image then 6
  else if ofBe ((image.drop 20).take 32) ≠ sha256 (image.drop 256) then 4
  else if !d.fwSigned image then 3
  else if fieldOf image 17 1 < d.factory.rollbackMin then 5
  else if fieldOf image 16 1 < d.obj 0x1300 0x05 then 6
  else 2

/-- The bank that holds an image. -/
def fwBankOf (image : List Byte) (verify : Nat) : FwBank :=
  { image := image, verify := verify, version := fieldOf image 12 4, keySlot := fieldOf image 6 2
    highestCl := fieldOf image 16 1, rollback := fieldOf image 17 1 }

/-- An image write begins: the inactive bank no longer holds a valid image (R96). -/
def Dev.imageBegin (d : Dev) : Dev := (d.setFwBank (1 - d.rst.bootBank) {}).setObj 0x1030 0x02 1

/-- The end of an image write (R96): the inactive bank takes the image if its memory does. -/
def Dev.imageEnd (d : Dev) (image : List Byte) (nvOk : Bool) : Dev × Option Status :=
  if !nvOk then (d.setObj 0x1030 0x02 7, some .nvFail)
  else
    let v := d.fwVerify image
    ((d.setFwBank (1 - d.rst.bootBank) (fwBankOf image v)).setObj 0x1030 0x02 v, if v = 2 then none else some .range)

/-- A bank passes the checks of P6 (R95, R478): it reads back intact, it was verified, and its key and rollback still stand. -/
def Dev.fwPasses (d : Dev) (b : Nat) (intact : Bool) : Bool :=
  let r := d.fwBank b
  intact && r.verify = 2 && (d.factory.key r.keySlot).isSome && decide (d.factory.rollbackMin ≤ r.rollback) &&
    decide (d.obj 0x1300 0x05 ≤ r.highestCl)

end Sys2Proof.Machine
end

