-- ==== Sys2Proof/Machine/Sop.lean ====
section
/-! DEFINITION. SOP requests (R41, R43 to R45, R58 to R69, R87, R88, R92): how a request reaches a port, what refuses it, what it
does and how it is answered. -/

namespace Sys2Proof.Machine

/-! ### Requests and responses -/

/-- The code of a status (chapter 00). -/
def Status.code : Status → Nat
  | .ok => 0x00
  | .busy => 0x01
  | .notOwner => 0x02
  | .noSession => 0x03
  | .badIndex => 0x04
  | .badType => 0x05
  | .range => 0x06
  | .locked => 0x07
  | .disarmedOnly => 0x08
  | .featureOff => 0x09
  | .misaligned => 0x0A
  | .tooLate => 0x0B
  | .vetoed => 0x0C
  | .nvFail => 0x0D
  | .internal => 0x0E

/-- The place of a refusal in the order of R15. -/
def Status.rank : Status → Nat
  | .ok => 0
  | .busy => 1
  | .noSession => 2
  | .badIndex => 3
  | .featureOff => 4
  | .badType => 5
  | .notOwner => 6
  | .vetoed => 7
  | .locked => 8
  | .disarmedOnly => 9
  | .range => 10
  | .misaligned => 11
  | .tooLate => 12
  | .nvFail => 13
  | .internal => 14

/-- What a request answers: the device after it, its effect on the Loft, the status, the response data, and what follows the
response. `first`: the response is on its way before the action can silence the port (R457). -/
structure Answer where
  dev : Dev
  st : Status := .ok
  data : List Byte := []
  eff : LoftEff := {}
  after : Dev → Dev := id
  first : Bool := false

/-- A refusal with nothing but its status. -/
def refuse (d : Dev) (st : Status) : Answer := { dev := d, st := st }

/-- The response to a request (R44): it goes to where the request came from (R56); a refusal with BUSY is counted (R92). -/
def Dev.respond (d : Dev) (f : Frame) (st : Status) (data : List Byte) (first : Bool) : Dev :=
  let p := f.req.port.val
  let d := if st = .busy then d.inc (0x1100 + p) 0x06 else d
  let m : Msg :=
    { port := p, op := f.op ||| 0x80, tag := f.req.tag, index := f.index, sub := f.sub, ctl := st.code, data := data
      canId := if 1 ≤ p ∧ p ≤ 3 then some (d.canIdOf p 0x380) else none
      addr := if 4 ≤ p then f.req.peerAddr else 0, uport := if 4 ≤ p then f.req.peerPort else 0, time := d.now }
  if first then { d with sent := m :: d.sent } else d.post m

/-- The port receives: powered, not silenced, out of reset assertion and sleep. -/
def Dev.hears (d : Dev) (p : Nat) : Bool := d.portTalks p && !d.rst.heldPower && !d.rst.heldPin && d.rst.slept.isNone

/-- The symbols of a request (R44). -/
def frameBytes (f : Frame) : List Byte :=
  [BitVec.ofNat 8 f.op, BitVec.ofNat 8 f.req.tag] ++ leBytes 2 f.index ++ [BitVec.ofNat 8 f.sub, BitVec.ofNat 8 f.ctl] ++ leBytes 2 f.len ++ f.data

/-- The request as its receiver takes it: on CAN it uses len and ignores the padding (R52). -/
def frameUnpad (f : Frame) : Frame :=
  if 1 ≤ f.req.port.val ∧ f.req.port.val ≤ 3 then { f with data := f.data.take f.len } else f

/-- The request is the one that comes up on its port: on P0 the head of the receive buffer while that holds a frame (R49), else a
frame that arrives as it is taken up; on the other ports any request that the port hears. -/
def Dev.comes (d : Dev) (f : Frame) : Bool :=
  d.hears f.req.port && (match (d.port f.req.port).rx with
    | h :: _ => f.req.port.val ≠ 0 || h = (frameBytes f)
    | [] => true)

/-- A datagram that P4 or P5 discards (R55): a payload over 1472 symbols, or a non-zero checksum that does not verify. -/
def Dev.datagramBad (d : Dev) (f : Frame) : Bool :=
  let p := f.req.port.val
  4 ≤ p && (decide (1472 < (frameBytes f).length) || (f.req.udpSum ≠ 0 &&
    f.req.udpSum ≠ udpChecksum f.req.peerAddr (d.inForce p 0) f.req.peerPort (d.inForce p 3) (frameBytes f)))

/-- The request comes from the peer of the open session: any host on P0 to P3 (R56, R60). -/
def Dev.fromPeer (d : Dev) (r : Req) : Bool :=
  decide (r.port.val ≤ 3) || !d.sessOpen r.port || decide ((r.peerAddr, r.peerPort) = d.peerOf r.port)

/-- A valid SOP frame is received (R60). -/
def Dev.frameIn (d : Dev) (p : Nat) (peer : Bool) : Dev :=
  let d := d.inc (0x1100 + p) 0x04
  if peer then d.validFrame p else d

/-- A request is taken up: on P0 the head of the receive buffer, if its frame came by WRITE_FRAME (R49). -/
def Dev.arrive (d : Dev) (r : Req) : Dev :=
  let p := r.port.val
  match (d.port p).rx with
  | _ :: rest => if p = 0 then d.setPort 0 { (d.port 0) with rx := rest } else d.frameIn p (d.fromPeer r)
  | [] => d.frameIn p (d.fromPeer r)

/-- A veto write of the Guardian, which needs no core (R76). -/
def Dev.isVeto (d : Dev) (f : Frame) : Bool :=
  f.op = 0x02 && f.index = 0x1800 && d.obj 0x1800 0x01 = f.req.port.val &&
    (List.range (max 1 f.ctl)).any (fun k => decide (4 ≤ f.sub + k ∧ f.sub + k ≤ 6))

/-- Requests outstanding on a port as one arrives (R92): those that the request brings along as in progress, and at P0 the frames of
the receive buffer and the responses that the host has not read. -/
def Dev.outstanding (d : Dev) (r : Req) : Nat :=
  r.outstanding + if r.port.val = 0 then (d.port 0).rx.length + ((d.port 0).readout.filter (fun m => decide (0x80 ≤ m.op))).length else 0

/-- BUSY of the port (R34, R92, R462). -/
def Dev.portBusy (d : Dev) (f : Frame) : Bool :=
  !d.ready || (d.coreDown 1 && !d.isVeto f) || decide (2048 ≤ d.outstanding f.req) || decide (f.req.shareFree < f.data.length)

/-- The form of a request is wrong (R44). -/
def Dev.formBad (d : Dev) (f : Frame) : Bool :=
  f.len ≠ f.data.length || f.op = 0 || 0x0C < f.op ||
    ((f.op = 0x01 || f.op = 0x09 || f.op = 0x0A || f.op = 0x0C) && 0 < f.len) ||
    (f.op = 0x05 && 0 < f.len && (match (d.port f.req.port).xfer with
      | some x => !x.isWrite
      | none => false))

/-- What refuses a request before its opcode is looked at further: BUSY, a foreign peer (R56), the wrong form (R44). -/
def Dev.sopGate (d : Dev) (f : Frame) : Option Status :=
  if d.portBusy f then some .busy
  else if !d.fromPeer f.req then some .noSession
  else if d.formBad f then (if !d.sessOpen f.req.port && f.op ≠ 0x01 && f.op ≠ 0x08 then some .noSession else some .badType)
  else none

/-- The data of a refused SESSION_OPEN (R58). -/
def Dev.openRefusal (d : Dev) : List Byte := [0, BitVec.ofNat 8 (d.obj 0x1300 0x05)] ++ List.replicate 18 0

/-- The data of a response that the gate refuses. -/
def Dev.gateData (d : Dev) (f : Frame) (st : Status) : List Byte := if f.op = 0x08 && st = .noSession then d.openRefusal else []

/-- A BLOCK_END refused for its form ends the transfer (R67). -/
def Dev.gateDone (d : Dev) (f : Frame) (st : Status) : Dev :=
  if f.op = 0x05 && st = .badType then d.setPort f.req.port { (d.port f.req.port) with xfer := none } else d

/-- A read for the request met an uncorrectable error of the Loft (R404): INTERNAL, with an entry in the event log. -/
def Dev.eccAnswer (d : Dev) (f : Frame) (a : Answer) : Answer :=
  let p := f.req.port.val
  if (d.port p).eccHit then
    let d := d.setPort p { (d.port p) with eccHit := false }
    if a.st = .ok then { dev := d.logEvent 6 0x0E 0xFF 0, st := .internal } else { a with dev := a.dev.setPort p { (a.dev.port p) with eccHit := false } }
  else a

/-- C1 stages a request in the Loft under its own identity 9; the veto path needs no core (R33, R76). -/
def Dev.staged (d : Dev) (f : Frame) : Dev :=
  if d.isVeto f then d else d.accessBy 9

/-- A request: heard, taken up, refused or served, answered (R44); a datagram that does not verify is discarded (R55). -/
def Dev.sop (d : Dev) (f : Frame) (body : Dev → Answer) : Dev × LoftEff :=
  if !d.comes f then (d, {})
  else if d.datagramBad f then (d.inc (0x1100 + f.req.port) 0x05, {})
  else
    let d := d.arrive f.req
    match d.sopGate f with
    | some st => ((d.gateDone f st).respond f st (d.gateData f st) false, {})
    | none =>
      let a := d.eccAnswer f (body (d.staged f))
      (a.after (a.dev.respond f a.st a.data a.first), a.eff)

/-- The refusals of a non-zero index or sub where the table requires 0 (R44). -/
def addressed (f : Frame) : Bool := decide (f.index ≠ 0 ∨ f.sub ≠ 0)

/-! ### READ -/

/-- The subindices a request names (R43). -/
def subsOf (f : Frame) : List Nat := (List.range (max 1 f.ctl)).map (f.sub + ·)

/-- The largest data of a message (R45). -/
def maxData (p : Nat) : Nat := if p = 0 then 1024 else if p ≤ 3 then 56 else 1464

/-- An object that only block transfers move (R95, R489, R501). -/
def blockOnly (idx sub : Nat) : Bool :=
  (idx = 0x1030 && sub = 0x01) || (idx = 0x5000 && (sub = 0x01 || sub = 0x02)) || (idx = 0x2F30 && sub = 0x21)

/-- A write-only object, whose READ answers 0 (R12). -/
def writeOnly (idx sub : Nat) : Bool := match objRow idx sub with
  | some r => decide (r.acc = .wo)
  | none => false

/-- An object of a REC or ARR that is a BLOB. -/
def isBlob (idx sub : Nat) : Bool := match objRow idx sub with
  | some r => r.ty.isBlob
  | none => false

/-- A BLOB stands before the last subindex of a range (R43). -/
def blobEarly (idx : Nat) (subs : List Nat) : Bool := subs.dropLast.any (isBlob idx)

/-- An object that an unopened port may read (R41). -/
def openRead (idx : Nat) : Bool := decide ((0x1000 ≤ idx ∧ idx ≤ 0x10FF) ∨ (0x1200 ≤ idx ∧ idx ≤ 0x1205))

/-- A feature that gates an object is missing (R61). -/
def Dev.gatesShut (d : Dev) (p idx : Nat) (subs : List Nat) : Bool :=
  match blockOf idx with
  | some b => d.lacks p (subs.flatMap (fun s => objGates b.kind (idx - b.first) s))
  | none => false

/-- A port other than the receiver reads message or take (R446). -/
def Dev.foreignBox (d : Dev) (p idx : Nat) (subs : List Nat) : Bool :=
  decide (0x2E40 ≤ idx ∧ idx < 0x2E60) && subs.any (fun s => s = 0x04 || s = 0x05) && d.obj idx 0x02 ≠ p

/-- The read takes the port's Loft window. -/
def readsWindow (idx : Nat) (subs : List Nat) : Bool := idx = 0x2D00 && subs.contains 0x30

/-- The refusals common to READ and to a read by block transfer, but for BAD_TYPE. A port without a session reads the identity
and session objects whatever features gate them (R41). -/
def Dev.readChecks (d : Dev) (p idx : Nat) (subs : List Nat) (typeBad : Bool) : List (Status × Bool) :=
  [ (.badIndex, subs.any (fun s => (objRow idx s).isNone)), (.featureOff, d.sessOpen p && d.gatesShut p idx subs), (.badType, typeBad)
  , (.notOwner, d.foreignBox p idx subs), (.range, readsWindow idx subs && !d.windowOk p false)
  , (.internal, readsWindow idx subs && d.meetsBad (d.obj 0x2D00 (0x20 + p)) (d.obj 0x2D00 (0x28 + p))) ]

/-- The symbols of a range of subindices. -/
def Dev.readAll (d : Dev) (m : Store Byte) (p idx : Nat) (subs : List Nat) : List Byte := subs.flatMap (fun s => d.readObj m p idx s)

/-- What reading a range does to the device (R446). -/
def Dev.readsDone (d : Dev) (idx : Nat) (subs : List Nat) : Dev := subs.foldl (fun d s => d.readDone idx s) d

/-- READ (R43). -/
def Dev.sopRead (d : Dev) (m : Store Byte) (f : Frame) : Answer :=
  let p := f.req.port.val
  let subs := (subsOf f)
  let total := (subs.map (fun s => d.readLen p f.index s)).foldl (· + ·) 0
  let typeBad := blobEarly f.index subs || subs.any (fun s => blockOnly f.index s && !writeOnly f.index s) || decide (maxData p < total)
  match firstStatus ((.noSession, !d.sessOpen p && !openRead f.index) :: d.readChecks p f.index subs typeBad) with
  | some st => refuse d st
  | none => { dev := d.readsDone f.index subs, data := d.readAll m p f.index subs }

/-! ### WRITE -/

/-- Splits the data of a write into the values of its subindices (R11, R43). -/
def splitPuts (idx : Nat) : List Nat → List Byte → Option (List Put)
  | [], bs => if bs.isEmpty then some [] else none
  | s :: subs, bs =>
    match objRow idx s with
    | some r =>
      let n := match r.ty with
        | .blob _ => bs.length
        | ty => ty.size
      let fits := match r.ty with
        | .blob k => decide (bs.length ≤ k) && subs.isEmpty
        | _ => decide (n ≤ bs.length)
      if fits then (splitPuts idx subs (bs.drop n)).map (fun ps => ⟨s, ofLe (bs.take n), bs.take n⟩ :: ps) else none
    | none => none

/-- The write that a port makes of values. -/
def hostWr (p idx : Nat) (b : ObjBlock) (puts : List Put) : Wr :=
  { port := p, host := true, idx := idx, inst := idx - b.first, kind := b.kind, puts := puts }

/-- The features that gate a write of subindices, whatever their values. -/
def Dev.writeShut (d : Dev) (p idx : Nat) (b : ObjBlock) (subs : List Nat) : Bool :=
  d.lacks p (subs.flatMap (fun s => objGates b.kind (idx - b.first) s ++ writeGates b.kind s))

/-- A bank of persistent objects is valid, for the check of R464. -/
def savedBankValid (b : NvBank) : Bool := b.valid 4

/-- A send refused while its mailbox is full is counted (R445). -/
def Dev.countFull (d : Dev) (b : ObjBlock) (idx : Nat) (subs : List Nat) (st : Status) : Dev :=
  if st = .busy && b.kind = .mailbox && subs.contains 0x04 then d.inc idx 0x09 else d

/-- An accepted write: the values are stored, the blocks react, a message or a window takes its symbols; the actions of commands
follow the response. -/
def Dev.applied (d : Dev) (w : Wr) : Answer :=
  { dev := (d.sendPart w).accept w, eff := d.windowEff w, after := fun d => d.commands w, first := w.silences }

/-- A write of the values that the objects hold, on which access and ownership are checked at BLOCK_START. -/
def Dev.presentWr (d : Dev) (p idx : Nat) (b : ObjBlock) (subs : List Nat) : Wr :=
  hostWr p idx b (subs.map (fun s => ⟨s, d.obj idx s, []⟩))

/-- BUSY of objects whatever is written to them; a commit's depends on its value (R395, R445, R468, R500). -/
def Dev.busyHere (d : Dev) (p idx : Nat) (b : ObjBlock) (subs : List Nat) : Bool :=
  b.kind ≠ .nv && d.wBusy (d.presentWr p idx b subs)

/-- The refusal of a write whose data does not split into the values of its subindices (R15): BAD_TYPE, unless a code before it
applies. -/
def Dev.shapeRefusal (d : Dev) (p idx : Nat) (b : ObjBlock) (subs : List Nat) : Status :=
  (firstStatus [(.busy, d.busyHere p idx b subs), (.noSession, !d.sessOpen p), (.featureOff, d.writeShut p idx b subs)]).getD .badType

/-- WRITE (R43). -/
def Dev.sopWrite (d : Dev) (f : Frame) : Answer :=
  let p := f.req.port.val
  let subs := (subsOf f)
  match blockOf f.index with
  | none => refuse d (if d.sessOpen p then .badIndex else .noSession)
  | some b =>
    if subs.any (fun s => (objRow f.index s).isNone) then refuse d (if d.sessOpen p then .badIndex else .noSession)
    else
      let typeBad := subs.any (blockOnly f.index) || decide (maxData p < f.data.length)
      match if typeBad then none else splitPuts f.index subs f.data with
      | none =>
        let st := d.shapeRefusal p f.index b subs
        refuse (d.countFull b f.index subs st) st
      | some puts =>
        let w := hostWr p f.index b puts
        match d.wRefusal savedBankValid w with
        | some st => refuse (d.countFull b f.index subs st) st
        | none => d.applied w

/-! ### Block transfer (R65 to R67) -/

/-- The segment size of a port. -/
def segSize (p : Nat) : Nat := if p = 0 then 1016 else if p ≤ 3 then 48 else 1456

/-- The transfer of a port. -/
def Dev.setXfer (d : Dev) (p : Nat) (x : Option Xfer) : Dev := d.setPort p { (d.port p) with xfer := x }

/-- The declared total of a write fits its objects (R67). -/
def totalFits (idx : Nat) : List Nat → Nat → Bool
  | [], n => n = 0
  | s :: subs, n =>
    match objRow idx s with
    | some r => (match r.ty with
      | .blob k => decide (n ≤ k) && subs.isEmpty
      | ty => decide (ty.size ≤ n) && totalFits idx subs (n - ty.size))
    | none => false

/-- The refusals of a write's BLOCK_START (R67). -/
def Dev.startChecks (d : Dev) (p idx : Nat) (subs : List Nat) (typeBad dirBad : Bool) : List (Status × Bool) :=
  let none' := subs.any (fun s => (objRow idx s).isNone)
  match blockOf idx with
  | some b =>
    let w := d.presentWr p idx b subs
    [ (.busy, !none' && d.busyHere p idx b subs), (.badIndex, none'), (.featureOff, !d.feature p 0 1 || d.writeShut p idx b subs)
    , (.badType, typeBad), (.notOwner, d.wOwner d w), (.locked, d.wLocked w), (.disarmedOnly, d.wArmed d w)
    , (.range, dirBad || (w.kind = .loft && subs.contains 0x30 && !d.windowOk p true)) ]
  | none => [(.badIndex, true)]

/-- The symbols that a block read moves: the image of a learned-data export, else the objects' present values (R67, R497). -/
def Dev.snapshot (d : Dev) (m : Store Byte) (p idx : Nat) (subs : List Nat) : List Byte :=
  if idx = 0x5000 ∧ subs = [0x01] then d.exportImage else d.readAll m p idx subs

/-- BLOCK_START (R66, R67). -/
def Dev.blockStart (d : Dev) (m : Store Byte) (f : Frame) : Answer :=
  let p := f.req.port.val
  let subs := (subsOf f)
  let write := f.data.head? == some 0
  let total := fieldOf f.data 4 4
  let dirBad := decide (1 < fieldOf f.data 0 1) || decide (fieldOf f.data 1 3 ≠ 0)
  let lenBad := f.data.length ≠ 8
  let early := blobEarly f.index subs
  let checks := if write then d.startChecks p f.index subs (lenBad || early || !totalFits f.index subs total) dirBad
    else d.readChecks p f.index subs (lenBad || early) ++ [(.featureOff, !d.feature p 0 1), (.range, dirBad)]
  let busy := (d.port p).xfer.isSome
  let first := [(Status.busy, busy), (.noSession, !d.sessOpen p), (.featureOff, d.sessOpen p && !d.feature p 0 1 && (blockOf f.index).isSome)]
  let found := (first ++ checks).filterMap (fun c => if c.2 then some c.1 else none)
  match found.foldl (fun (o : Option Status) st => match o with
      | some s => if st.rank < s.rank then some st else some s
      | none => some st) none with
  | some st =>
    refuse (match blockOf f.index with
      | some b => if write && !busy then d.countFull b f.index subs st else d
      | none => d) st
  | none =>
    let data := if write then [] else d.snapshot m p f.index subs
    let n := if write then total else data.length
    let x : Xfer := { isWrite := write, index := f.index, sub := f.sub, ctl := f.ctl, total := n, seq := 0, data := data, short := false, last := d.now }
    let d := if write then (if f.index = 0x1030 then d.imageBegin else d) else d.readsDone f.index subs
    { dev := d.setXfer p (some x), data := leBytes 4 n ++ leBytes 2 (segSize p) }

/-- The transfer that a BLOCK_DATA or BLOCK_END belongs to. -/
def Dev.xferOf (d : Dev) (f : Frame) : Option Xfer :=
  match (d.port f.req.port).xfer with
  | some x => if x.index = f.index ∧ x.sub = f.sub ∧ x.ctl = f.ctl then some x else none
  | none => none

/-- A segment of a write has the wrong size (R65). -/
def Xfer.sizeBad (x : Xfer) (seg n : Nat) : Bool := n = 0 || decide (seg < n) || x.short || decide (x.total < x.data.length + n)

/-- The request names an index, a subindex or an instance that does not exist (R2, R40). -/
def absent (f : Frame) : Bool := (subsOf f).any (fun s => (objRow f.index s).isNone)

/-- BLOCK_DATA (R65, R66). -/
def Dev.blockData (d : Dev) (f : Frame) (segs : Nat) : Answer :=
  let p := f.req.port.val
  let seg := segSize p
  let x := d.xferOf f
  let writing := match x with
    | some x => x.isWrite
    | none => false
  match firstStatus [ (.busy, writing && decide (8 ≤ segs)), (.noSession, !d.sessOpen p), (.badIndex, absent f), (.featureOff, !d.feature p 0 1)
                    , (.badType, decide (f.data.length < 2) || (x.isSome && !writing && f.data.length ≠ 2)) ], x with
  | some st, _ => refuse d st
  | none, none => refuse d .range
  | none, some x =>
    let body := f.data.drop 2
    let off := x.seq * seg
    let bad := decide (fieldOf f.data 0 2 ≠ x.seq % 65536) ||
      (if x.isWrite then x.sizeBad seg body.length else decide (0 < x.seq ∧ x.total ≤ off))
    if bad then refuse (d.setXfer p none) .range
    else if x.isWrite then
      { dev := d.setXfer p (some { x with seq := x.seq + 1, data := x.data ++ body, short := decide (body.length < seg), last := d.now })
        data := f.data.take 2 }
    else
      { dev := d.setXfer p (some { x with seq := x.seq + 1, last := d.now }), data := f.data.take 2 ++ (x.data.drop off).take seg }

/-- The earlier of two refusals in the order of R15. -/
def earlier (a b : Option Status) : Option Status :=
  match a, b with
  | some s, some t => if t.rank < s.rank then some t else some s
  | some s, none => some s
  | none, o => o

/-- What a block write does once its checks have passed: an image, an import, or one atomic write (R67, R96, R498). -/
def Dev.blockApply (d : Dev) (w : Wr) (data : List Byte) (nvOk : Bool) : Answer :=
  if w.kind = .firmware then
    let (e, o) := d.imageEnd data nvOk
    { dev := e, st := o.getD .ok }
  else if w.kind = .learned && w.has 0x02 then
    match d.importState data with
    | some st => refuse (d.setObj 0x5000 0x03 st) .range
    | none => { dev := (d.importApply data).writtenBy w.port 0x5000 }
  else d.applied w

/-- A write's BLOCK_END (R67): length, CRC and access are checked again; the transfer has ended. -/
def Dev.blockWrite (d : Dev) (f : Frame) (x : Xfer) (nvOk : Bool) : Answer :=
  let p := f.req.port.val
  let subs := (subsOf f)
  let crcBad := if fieldOf f.data 0 4 = crc32 x.data then none else some Status.range
  match blockOf x.index with
  | none => refuse d .badIndex
  | some b =>
    let lenBad := f.data.length ≠ 4 || x.data.length ≠ x.total
    match if lenBad then none else splitPuts x.index subs x.data with
    | none =>
      let st := d.shapeRefusal p x.index b subs
      refuse (d.countFull b x.index subs st) st
    | some puts =>
      let w := hostWr p x.index b puts
      match earlier (d.wRefusal savedBankValid w) crcBad with
      | some st => refuse (d.countFull b x.index subs st) st
      | none => d.blockApply w x.data nvOk

/-- BLOCK_END (R67). -/
def Dev.blockEnd (d : Dev) (f : Frame) (nvOk : Bool) : Answer :=
  let p := f.req.port.val
  match firstStatus [(.noSession, !d.sessOpen p), (.badIndex, absent f), (.featureOff, !d.feature p 0 1)], d.xferOf f with
  | some st, x => refuse (if x.isSome then d.setXfer p none else d) st
  | none, none => refuse d .range
  | none, some x =>
    let d := d.setXfer p none
    if x.isWrite then d.blockWrite f x nvOk else { dev := d, data := leBytes 4 (crc32 x.data) }

/-- BLOCK_TIMEOUT (R66). -/
def Dev.blockTimeout (d : Dev) (p : Nat) : Dev :=
  match (d.port p).xfer with
  | some x => if d.runs 12 && decide (x.last + tqSec ≤ d.now) then d.setXfer p none else d
  | none => d

/-! ### CLAIM and RELEASE -/

/-- The existing instances that a CLAIM or RELEASE names. -/
def claimNames (data : List Byte) : List Nat :=
  let first := fieldOf data 1 1
  let top := min (first + fieldOf data 2 1) (claimCount (fieldOf data 0 1))
  (List.range (top - first)).map (first + ·)

/-- RANGE of a CLAIM or RELEASE (R68, R69). -/
def claimRange (f : Frame) : Bool :=
  let cls := fieldOf f.data 0 1
  let first := fieldOf f.data 1 1
  let count := fieldOf f.data 2 1
  addressed f || decide (9 < cls) || count = 0 || decide ((if 9 < cls then 0 else claimCount cls) < first + count) || fieldOf f.data 3 1 ≠ 0

/-- The existing instances named, none for a class that does not exist. -/
def claimList (f : Frame) : List Nat := if 9 < fieldOf f.data 0 1 then [] else claimNames f.data

/-- The port in an entry of the claims table; 0xFF where unowned (R73). -/
def entryPort (e : Nat) : Nat := if e = 0xFF then 0xFF else e % 8

/-- The data of a refused CLAIM or RELEASE: the instance that conflicts and its holder. -/
def conflictData (d : Dev) (cls : Nat) (conflict : Option Nat) : List Byte :=
  match conflict with
  | some i => [BitVec.ofNat 8 i, BitVec.ofNat 8 (entryPort (d.claimOf cls i))]
  | none => []

/-- Gives the named instances of a class an entry. -/
def Dev.setClaims (d : Dev) (cls : Nat) (insts : List Nat) (e : Nat) : Dev :=
  insts.foldl (fun d i => d.setObj 0x1700 (claimSub cls i) e) d

/-- The answer to a CLAIM or RELEASE whose conflict and refusals are known. -/
def Dev.claimAnswer (d : Dev) (cls entry : Nat) (insts : List Nat) (conflict : Option Nat) (o : Option Status) : Answer :=
  match o with
  | some st => { dev := d, st := st, data := if st = .notOwner then conflictData d cls conflict else [] }
  | none => { dev := d.setClaims cls insts entry }

/-- CLAIM (R68). -/
def Dev.sopClaim (d : Dev) (f : Frame) : Answer :=
  let p := f.req.port.val
  let cls := fieldOf f.data 0 1
  let insts := claimList f
  let conflict := insts.find? (fun i => d.claimOf cls i ≠ 0xFF && d.claimOf cls i ≠ p)
  d.claimAnswer cls p insts conflict (firstStatus
    [ (.noSession, !d.sessOpen p), (.featureOff, !d.feature p 0 2), (.badType, f.data.length ≠ 4), (.notOwner, conflict.isSome)
    , (.range, claimRange f) ])

/-- RELEASE (R69). -/
def Dev.sopRelease (d : Dev) (f : Frame) : Answer :=
  let p := f.req.port.val
  let cls := fieldOf f.data 0 1
  let insts := claimList f
  let conflict := insts.find? (fun i => d.claimOf cls i ≠ p)
  d.claimAnswer cls 0xFF insts conflict (firstStatus
    [ (.noSession, !d.sessOpen p), (.featureOff, !d.feature p 0 2), (.badType, f.data.length ≠ 4), (.notOwner, conflict.isSome)
    , (.disarmedOnly, decide (1 ≤ cls ∧ cls ≤ 5) && d.anyArmed), (.range, claimRange f) ])

/-! ### Sessions, doze, NOTIFY_ACK, PING -/

/-- The words a SESSION_OPEN offers, ANDed with the device's capability (R58, R63). -/
def Dev.acceptWords (d : Dev) (data : List Byte) : List Nat :=
  (List.range 4).map (fun k => fieldOf data (4 + 4 * k) 4 &&& d.obj 0x1300 (0x01 + k))

/-- RANGE of a SESSION_OPEN (R44, R58, R10). -/
def Dev.openRange (d : Dev) (f : Frame) : Bool :=
  let level := fieldOf f.data 0 1
  addressed f || decide (level < 1) || decide (d.obj 0x1300 0x05 < level) || fieldOf f.data 1 3 ≠ 0 ||
    !(fieldOf f.data 4 4).testBit 0

/-- SESSION_OPEN (R58, R59). -/
def Dev.sopOpen (d : Dev) (f : Frame) : Answer :=
  let p := f.req.port.val
  if f.data.length ≠ 20 then refuse d .badType
  else if d.openRange f then { dev := d, st := .range, data := d.openRefusal }
  else
    let level := fieldOf f.data 0 1
    let words := d.acceptWords f.data
    let reply := [BitVec.ofNat 8 level, BitVec.ofNat 8 (d.obj 0x1300 0x05)] ++ leBytes 2 0 ++ words.flatMap (leBytes 4)
    let (addr, uport) := if 4 ≤ p then (f.req.peerAddr, f.req.peerPort) else (0, 0)
    let e := if d.sessOpen p then d.renegotiate p level words else d.openSession p level words addr uport
    { dev := e, data := reply, after := fun d => d.afterOpen p }

/-- A request with neither object nor data, behind a feature or none. -/
def Dev.plainCheck (d : Dev) (f : Frame) (gate : Option Nat) : Option Status :=
  firstStatus [ (.noSession, !d.sessOpen f.req.port), (.featureOff, match gate with
    | some b => !d.feature f.req.port 0 b
    | none => false), (.range, addressed f) ]

/-- SESSION_CLOSE (R60). -/
def Dev.sopClose (d : Dev) (f : Frame) : Answer :=
  match d.plainCheck f none with
  | some st => refuse d st
  | none => { dev := d, after := fun d => d.closeSession f.req.port 1 }

/-- DOZE (R88): the port dozes once its response is sent, which at P0 is when the host has read it. -/
def Dev.sopDoze (d : Dev) (f : Frame) : Answer :=
  match d.plainCheck f (some 4) with
  | some st => refuse d st
  | none => { dev := d, after := fun d => if f.req.port.val = 0 then d else d.enterDoze f.req.port }

/-- PING. -/
def Dev.sopPing (d : Dev) (f : Frame) : Answer :=
  match d.plainCheck f (some 0) with
  | some st => refuse d st
  | none => { dev := d }

/-- One source of a NOTIFY_ACK (R87). -/
def Dev.ackOne (d : Dev) (p src : Nat) : Dev :=
  if decide (src < 128) && (d.pend src (4 + p)).active then d.setPend src (4 + p) { (d.pend src (4 + p)) with active := false }
  else d.inc (0x1600 + p) 0x05

/-- NOTIFY_ACK (R87). -/
def Dev.sopAck (d : Dev) (f : Frame) : Answer :=
  match d.plainCheck f (some 3) with
  | some st => refuse d st
  | none => { dev := f.data.foldl (fun d b => d.ackOne f.req.port b.toNat) d }

/-! ### Dispatch of a frame -/

/-- What a frame asks for, by its opcode; another opcode is refused for its form before it comes here. -/
def Dev.sopBody (m : Store Byte) (f : Frame) (segs : Nat) (nvOk : Bool) (d : Dev) : Answer :=
  match f.op with
  | 0x01 => d.sopRead m f
  | 0x02 => d.sopWrite f
  | 0x03 => d.blockStart m f
  | 0x04 => d.blockData f segs
  | 0x05 => d.blockEnd f nvOk
  | 0x06 => d.sopClaim f
  | 0x07 => d.sopRelease f
  | 0x08 => d.sopOpen f
  | 0x09 => d.sopClose f
  | 0x0A => d.sopDoze f
  | 0x0B => d.sopAck f
  | _ => d.sopPing f

/-- A frame with one of a row's opcodes; a frame that is none of the row's has no effect. -/
def Dev.frame (d : Dev) (m : Store Byte) (f : Frame) (ops : Nat → Bool) (segs : Nat) (nvOk : Bool) : Dev × LoftEff :=
  if ops f.op then d.sop (frameUnpad f) (Dev.sopBody m (frameUnpad f) segs nvOk) else (d, {})

/-- The WRITE of values that a row with its own name stands for. -/
def putFrame (r : Req) (idx sub count : Nat) (data : List Byte) : Frame :=
  { req := r, op := 0x02, index := idx, sub := sub, ctl := count, len := data.length, data := data }

/-- A WRITE of one object of `n` symbols. -/
def Dev.putOne (d : Dev) (m : Store Byte) (r : Req) (idx sub n v : Nat) : Dev × LoftEff :=
  d.sop (putFrame r idx sub 1 (leBytes n v)) (Dev.sopBody m (putFrame r idx sub 1 (leBytes n v)) 0 true)

/-- A READ of one object. -/
def Dev.getOne (d : Dev) (m : Store Byte) (r : Req) (idx sub : Nat) : Dev × LoftEff :=
  let f : Frame := { req := r, op := 0x01, index := idx, sub := sub, ctl := 1, len := 0, data := [] }
  d.sop f (Dev.sopBody m f 0 true)

/-! ### P0's transport (R47 to R49) -/

/-- The SPI status symbol (R48). -/
def Dev.spiStatus (d : Dev) : Nat :=
  let r := d.port 0
  0x80 + 32 * b2n (!r.readout.isEmpty) + 16 * b2n (decide (r.rx.length < 4)) + 8 * b2n r.crcError + 4 * b2n r.rxDropped +
    2 * b2n (d.sessOpen 0) + b2n (d.dozing 0)

/-- What the SPI target sends in a transaction with a command: the status symbol, then symbols. -/
def Dev.spiSent (d : Dev) (command : Nat) (out : List Byte) : Dev :=
  let m : Msg := { port := 0, op := command, tag := 0, index := 0, sub := 0, ctl := 0, data := BitVec.ofNat 8 d.spiStatus :: out, time := d.now }
  { d with sent := m :: d.sent }

/-- A frame discarded on P0 (R49). -/
def Dev.rxDiscard (d : Dev) (crc dropped : Bool) : Dev :=
  (d.setPort 0 { (d.port 0) with crcError := crc, rxDropped := dropped }).inc 0x1100 0x05

/-- WRITE_FRAME (R47, R49). A frame shorter than the header of a SOP message carries none and is discarded: DESIGN CHOICE (log 44). -/
def Dev.writeFrame (d : Dev) (bytes : List Byte) (cut : Bool) : Dev :=
  if !d.hears 0 then d
  else
    let d := d.spiSent 0xA1 []
    let r := d.port 0
    let n := fieldOf bytes 0 2
    if 4 ≤ r.rx.length then d.rxDiscard false true
    else if cut || bytes.length < n + 6 then d.rxDiscard false false
    else if fieldOf bytes (n + 2) 4 ≠ crc32 (bytes.take (n + 2)) then d.rxDiscard true false
    else if n < 8 then d.rxDiscard false false
    else
      let d := d.setPort 0 { r with rx := r.rx ++ [(bytes.drop 2).take n], crcError := false, rxDropped := false }
      d.frameIn 0 true

/-- An entry whose NOTIFY message the host has read (R86, R433). -/
def Dev.readOut (d : Dev) (src : Nat) : Dev :=
  let e := d.pend src 4
  if e.batched then d.setPend src 4 { e with pending := false, batched := false, active := true } else d.setPend src 4 { e with active := true }

/-- A message has left the read-out queue: its entries are delivered, a cyclic frame is sent, and behind the response to DOZE the
port dozes (R49, R83, R86, R88). -/
def Dev.msgRead (d : Dev) (m : Msg) : Dev :=
  if m.op = 0x40 then (List.range m.ctl).foldl (fun d k => d.readOut (fieldOf m.data (12 * k) 1)) d
  else if m.op = 0x8A ∧ m.ctl = 0 then d.enterDoze 0
  else d

/-- READ_FRAME (R47, R49): a message leaves the queue once its last CRC symbol has been clocked out. -/
def Dev.readFrame (d : Dev) (clocks : Nat) : Dev :=
  if !d.hears 0 then d
  else
    let r := d.port 0
    let out := spiFrame r.readout.head?
    let d := d.spiSent 0xA2 (out.take clocks ++ List.replicate (clocks - out.length) 0)
    match r.readout with
    | m :: rest => if out.length ≤ clocks then (d.setPort 0 { (d.port 0) with readout := rest }).msgRead m else d
    | [] => d

/-- STATUS (R48). -/
def Dev.spiStatusRead (d : Dev) : Dev :=
  if !d.hears 0 then d
  else
    let d := d.spiSent 0xA3 []
    d.setPort 0 { (d.port 0) with crcError := false, rxDropped := false }

/-- SLEEP_N falls (R62, R88). -/
def Dev.sleepNFall (d : Dev) : Dev := if d.runs 12 && d.feature 0 0 4 then d.enterDoze 0 else d

/-- SLEEP_N rises (R88). -/
def Dev.sleepNRise (d : Dev) : Dev := if d.runs 12 then d.leaveDoze 0 else d

/-! ### CAN and Ethernet transports -/

/-- CLASSICAL_DISCARD (R52). -/
def Dev.classicalDiscard (d : Dev) (p : Nat) : Dev :=
  if 1 ≤ p ∧ p ≤ 3 ∧ d.hears p then (d.inc (0x1100 + p) 0x16).inc (0x1100 + p) 0x05 else d

/-- BUS_OFF (R53). -/
def Dev.busOff (d : Dev) (p : Nat) : Dev :=
  if 1 ≤ p ∧ p ≤ 3 ∧ d.hears p then (d.setPort p { (d.port p) with busOff := true }).inc (0x1100 + p) 0x17 else d

/-- BUS_OFF_RECOVERY (R53). -/
def Dev.busOn (d : Dev) (p : Nat) : Dev := if (d.port p).busOff then d.setPort p { (d.port p) with busOff := false } else d

/-- FRAGMENTS_DISCARDED (R55). -/
def Dev.fragmentDiscard (d : Dev) (p : Nat) : Dev :=
  if 4 ≤ p ∧ d.hears p then (d.inc (0x1100 + p) 0x17).inc (0x1100 + p) 0x05 else d

/-- ARP_REQUEST (R55): the MAC and the IPv4 address answer a request for the port's own address. -/
def Dev.arpRequest (d : Dev) (p target : Nat) : Dev :=
  if 4 ≤ p ∧ d.hears p ∧ target = d.inForce p 0 then
    d.netReply p 0x0806 2 (d.blobBytes (0x1100 + p) 0x15 0 6 ++ (leBytes 4 target).reverse)
  else d

/-- ICMP_ECHO (R55). -/
def Dev.icmpEcho (d : Dev) (p target : Nat) (data : List Byte) : Dev :=
  if 4 ≤ p ∧ d.hears p ∧ target = d.inForce p 0 then d.netReply p 1 0 data else d

/-- LINK_UP_FALL (R57). -/
def Dev.linkFall (d : Dev) (p : Nat) : Dev :=
  if 4 ≤ p then (d.setPort p { (d.port p) with linkPhys := false }).raiseIf (d.linkUp p) 120 else d

/-- LINK_UP_RISE (R57, R102). -/
def Dev.linkRise (d : Dev) (p : Nat) : Dev :=
  if 4 ≤ p ∧ d.pdOn 12 then d.setPort p { (d.port p) with linkPhys := true } else d

/-! ### Cyclic frames (R80 to R84) -/

/-- The payload of a frame at a trigger (R80, R82). -/
def Dev.cycPayload (d : Dev) (m : Store Byte) (f time : Nat) : List Byte :=
  let p := d.obj (0x1400 + f) 0x02
  (d.cycMap f).flatMap (fun e => d.readObj m p e.1 e.2.1) ++ (if d.bit (0x1400 + f) 0x09 0 then leBytes 8 time else [])

/-- The message of a frame (R83, R84): raw on CAN; to the peer of the open session, or of the last one, on P4 and P5. -/
def Dev.cycMsg (d : Dev) (f : Nat) (payload : List Byte) : Msg :=
  let p := d.obj (0x1400 + f) 0x02
  let peer := if d.sessOpen p then d.peerOf p else ((d.port p).peer.getD (0, 0))
  { port := p, op := 0x41, tag := f, index := 0x1400 + f, sub := 0, ctl := 0, data := payload
    canId := if 1 ≤ p ∧ p ≤ 3 then some (d.obj (0x1400 + f) 0x08) else none
    addr := if 4 ≤ p then peer.1 else 0, uport := if 4 ≤ p then peer.2 else 0, time := d.now }

/-- The frame is dropped at its trigger: the port dozes and the frame asks for it, or P4 or P5 knows no peer (R83, R84). -/
def Dev.cycDrops (d : Dev) (f : Nat) : Bool :=
  let p := d.obj (0x1400 + f) 0x02
  (d.dozing p && d.bit (0x1400 + f) 0x09 1) || (decide (4 ≤ p) && (d.port p).peer.isNone)

/-- A frame of the same number stands in the read-out queue of P0. -/
def Dev.cycQueued (d : Dev) (f : Nat) : Bool := (d.port 0).readout.any (fun m => m.op = 0x41 && m.tag = f)

/-- A trigger takes its snapshot (R82, R83): it replaces an unsent one, counted in overruns. -/
def Dev.cycTrigger (d : Dev) (m : Store Byte) (f time : Nat) : Dev :=
  if d.cycDrops f then d.inc16 (0x1400 + f) 0x12
  else
    let msg := d.cycMsg f (d.cycPayload m f time)
    if msg.port = 0 ∧ d.cycQueued f then
      (d.setPort 0 { (d.port 0) with readout := (d.port 0).readout.map (fun q => if q.op = 0x41 ∧ q.tag = f then msg else q) }).inc16 (0x1400 + f) 0x12
    else
      let r := d.cycFrame f
      let d := if r.unsent.isSome then d.inc16 (0x1400 + f) 0x12 else d
      d.setCyc f { r with unsent := some msg }

/-- CYCLIC_TIME_TRIGGER (R81, R82). -/
def Dev.cycTime (d : Dev) (m : Store Byte) (f : Nat) : Dev :=
  let i := 0x1400 + f
  let due := (d.cycFrame f).due
  if d.runs 12 && d.obj i 0x01 = 1 && d.obj i 0x03 = 1 && decide (due ≤ d.now) then
    (d.setCyc f { (d.cycFrame f) with due := due + d.obj i 0x04 * tqUs }).cycTrigger m f due
  else d

/-- The angle at which a frame fires: its own, or the TDC of a slot of its mask (R82). -/
def Dev.cycAngle (d : Dev) (f slot : Nat) : Option Nat :=
  let i := 0x1400 + f
  let k := d.obj i 0x05
  if d.obj i 0x03 = 2 then some (d.obj i 0x06 % auCycle)
  else if d.obj i 0x03 = 3 ∧ d.bit i 0x07 slot ∧ d.slotDom slot = some k then some (d.obj (0x2180 + k) (0x40 + slot) % auCycle)
  else none

/-- The key under which a frame's angle triggers are kept: the slot for trigger 3, 24 for trigger 2. -/
def Dev.cycKey (d : Dev) (f slot : Nat) : Nat := if d.obj (0x1400 + f) 0x03 = 2 then 24 else slot

/-- The crossing of an angle at a time is new to a frame: it is not the word at which the frame fired last for that angle, and it
lies after that firing. -/
def Cyc.fresh (r : Cyc) (key target time : Nat) : Bool :=
  decide (r.due ≤ time) && (match r.fired.find key with
    | some (w, t) => decide (w ≠ target) && decide (t < time)
    | none => true)

/-- CYCLIC_ANGLE_TRIGGER (R82, R83): the estimate has passed the angle since the frame was turned on. -/
def Dev.cycAngleTrigger (d : Dev) (m : Store Byte) (f slot : Nat) : Dev :=
  let i := 0x1400 + f
  let k := d.obj i 0x05
  match d.cycAngle f slot with
  | some angle =>
    let est := d.estAt k d.now
    let target := angleWord ((est : Int) - ((est % auCycle + auCycle - angle) % auCycle : Nat))
    let r := d.cycFrame f
    (match d.answer k target with
    | some (time, _) =>
      if d.runs 12 && d.pdOn 5 && d.obj i 0x01 = 1 && r.fresh (d.cycKey f slot) target time then
        (d.setCyc f { r with fired := Store.put (fun _ => (0, 0)) r.fired (d.cycKey f slot) (target, time) }).cycTrigger m f time
      else d
    | none => d)
  | none => d

/-- CYCLIC (R83, R84): the snapshot goes out on its port. -/
def Dev.cycSend (d : Dev) (f : Nat) : Dev :=
  match (d.cycFrame f).unsent with
  | some msg => if d.runs 12 && d.portTalks msg.port then (d.setCyc f { (d.cycFrame f) with unsent := none }).post msg else d
  | none => d

end Sys2Proof.Machine
end

