-- ==== Sys2Proof/Machine/Timebase.lean ====
section
/-! DEFINITION. The Timebase: loss and return of the reference, and the vernier (R107, R108, R111 to R114, R120). -/

namespace Sys2Proof.Machine

/-- Bits of the Timebase status (R119). -/
def Dev.tbBit (d : Dev) (b : Nat) : Bool := d.bit 0x2000 0x04 b

/-- Sets or clears a bit of the Timebase status. -/
def Dev.tbSet (d : Dev) (b : Nat) (on : Bool) : Dev := d.setBit 0x2000 0x04 b on

/-- Source 125 is raised (R120); before PD2 has power the raise waits for phase P8. -/
def Dev.raiseTb (d : Dev) : Dev := if d.pdOn 2 then d.raise 125 else { d with tb := { d.tb with owed := true } }

/-- The clock on REF_IN as ref_source names it (R98): at least 64 edges, at a frequency within 5 percent of 20, 25 or 40 MHz. -/
def refInOf (edges kHz : Nat) : Nat :=
  if edges < 64 then 0
  else if 19000 ≤ kHz ∧ kHz ≤ 21000 then 2
  else if 23750 ≤ kHz ∧ kHz ≤ 26250 then 3
  else if 38000 ≤ kHz ∧ kHz ≤ 42000 then 4
  else 0

/-- The reference that phase P2 selects (R98): REF_IN, else the crystal, else the RC oscillator. -/
def refChoice (refIn : Nat) (crystal : Bool) : Nat := if 2 ≤ refIn then refIn else if crystal then 1 else 0

/-- The reference that runs is still valid, as phase P2 finds it (R103). -/
def Dev.refHolds (d : Dev) (edges kHz : Nat) (crystal : Bool) : Bool :=
  let r := d.obj 0x2000 0x03
  r = 0 || (r = 1 && crystal) || (2 ≤ r && refInOf edges kHz = r)

/-- A loss is recorded (R111, R113): ref_lost, ref_losses, last_loss_time, source 125, an entry in the event log; the wait for
ref_restore_time starts over, and the PLL locks to the RC oscillator. -/
def Dev.lossNote (d : Dev) : Dev :=
  let d := ((((d.tbSet 2 true).tbSet 1 true).inc 0x2000 0x05).setObj 0x2000 0x06 d.now).setObj 0x2000 0x03 0
  ({ d with tb := { d.tb with restore := some (0, d.now) } }.raiseTb).logEvent 3 125 125 0

/-- REF_LOSS (R111, R113). -/
def Dev.refLoss (d : Dev) : Dev :=
  if d.tbBit 3 then (if d.tbBit 4 then ((d.tbSet 4 false).tbSet 0 false).lossNote else d)
  else if !d.tbBit 0 then d
  else
    let d := (d.tbSet 0 false).disarmBoth false
    let d := ([4, 5] : List Nat).foldl (fun (d : Dev) p => d.raiseIf (d.linkUp p) 120) d
    (d.tbSet 3 true).lossNote

/-- REF_RESTORE (R113): a reference has stayed valid for ref_restore_time, and the PLL locks to it, REF_IN before the crystal. -/
def Dev.refRestore (d : Dev) (refIn : Nat) (crystal : Bool) : Dev :=
  let ref := refChoice refIn crystal
  let from_ := (d.tb.restore.getD (0, 0)).2
  if d.tbBit 3 && !d.tbBit 4 && decide (ref ≠ 0) && decide (from_ + d.obj 0x2000 0x07 * tqMs ≤ d.now) then
    (((d.tbSet 0 true).tbSet 4 true).tbSet 1 false).setObj 0x2000 0x03 ref
  else d

/-- RELOCK_DONE (R113). -/
def Dev.relockDone (d : Dev) : Dev :=
  if d.tbBit 3 && d.tbBit 4 then
    let d := ((d.tbSet 3 false).tbSet 4 false).tbSet 1 true
    { d with tb := { d.tb with restore := none } }.raiseTb
  else d

/-- vernier_fail takes a value, from the next edge released on (R107, R108). -/
def Dev.vernierSet (d : Dev) (fail : Bool) : Dev :=
  if d.tbBit 5 = fail then d else { d.tbSet 5 fail with tb := { d.tb with vernAt := some d.now } }

/-- A calibration of the vernier with its largest tap error in 0.1 ps (R107, R108): three failures in a row set vernier_fail, the
first success clears it. -/
def Dev.vernierRun (d : Dev) (worst : Nat) : Dev :=
  let d := { d.setObj 0x2000 0x08 (min 65535 worst) with tb := { d.tb with calAt := d.now } }
  if worst ≤ 200 then
    let d := d.vernierSet false
    { d with tb := { d.tb with vernFails := 0 } }
  else
    let n := min 3 (d.tb.vernFails + 1)
    let d := { d with tb := { d.tb with vernFails := n } }
    if n = 3 && !d.tbBit 5 then (d.vernierSet true).raiseTb else d

/-- VERNIER_CALIBRATION (R107): every 1 ms while the Timebase runs. -/
def Dev.vernier (d : Dev) (worst : Nat) : Dev :=
  if d.rst.heldPower || d.rst.tbStopped || decide (d.now < d.tb.calAt + tqMs) then d else d.vernierRun worst

end Sys2Proof.Machine
end

