-- ==== Sys2Proof/Machine/Reset.lean ====
section
/-! DEFINITION. The phases of a reset, the restore of a single domain, and the non-volatile work of phase P8 (R456 to R463, R466,
R470, R473, R477, R478, R480, R482). -/

namespace Sys2Proof.Machine

/-- A phase's work can complete: the device is in it and no cause holds the reset. -/
def Dev.inPhase (d : Dev) (n : Nat) : Bool :=
  decide (d.obj 0x2F00 0x01 = n) && !d.rst.heldPower && !d.rst.heldPin && d.rst.slept.isNone

/-- The sequence goes on with a phase. -/
def Dev.toPhase (d : Dev) (n : Nat) : Dev := d.setObj 0x2F00 0x01 n

/-- The counter starts on the first tick after the PLL locks, where PD1 had lost its supply (R103, R458). -/
def Dev.tbStart (d : Dev) : Dev :=
  if d.rst.tbStopped then { d.restartCounter with rst := { d.rst with tbStopped := false } } else d

/-- PHASE_P1 (R461). -/
def Dev.phaseP1 (d : Dev) : Dev := if d.inPhase 1 then d.toPhase 2 else d

/-- The PLL locks to the reference that P2 selects, or to the RC oscillator (R98, R114). -/
def Dev.refSelect (d : Dev) (ref : Nat) : Dev :=
  let d := (d.tbSet 4 false).tbSet 1 true
  if ref ≠ 0 then ((d.tbSet 0 true).tbSet 3 false).setObj 0x2000 0x03 ref
  else
    let d := ((d.tbSet 0 false).tbSet 3 true).setObj 0x2000 0x03 0
    { d with tb := { d.tb with restore := some (0, d.now) } }.raiseTb

/-- PHASE_P2 (R98, R103, R107, R461): reference, PLL and vernier; with PD1 running only a check of the reference. -/
def Dev.phaseP2 (d : Dev) (edges kHz : Nat) (crystal : Bool) (worst : Nat) : Dev :=
  if !d.inPhase 2 then d
  else if d.rst.tbStopped then ((d.tbStart.refSelect (refChoice (refInOf edges kHz) crystal)).vernierRun worst).toPhase 3
  else (if d.refHolds edges kHz crystal then d else d.refLoss).toPhase 3

/-- The code of the OPT pin is taken, and its group sets the port defaults (R57, R463). -/
def Dev.optTake (d : Dev) (code : Nat) (unstable : Bool) : Dev :=
  let d := ((d.setObj 0x2F00 0x04 code).setObj 0x2F00 0x05 (code % 8)).setBit 0x2F00 0x02 5 unstable
  ({ d with rst := { d.rst with optTaken := true } }).groupDefaults

/-- OPT_CONVERSION (R463): three equal codes in a row are taken; after 32 conversions code 8. -/
def Dev.optConversion (d : Dev) (code : Nat) : Dev :=
  if !d.inPhase 3 || d.rst.optTaken then d
  else
    let codes := (code :: d.rst.optCodes).take 3
    let n := d.rst.optCount + 1
    let d := { d with rst := { d.rst with optCodes := codes, optCount := n } }
    if codes = [code, code, code] then d.optTake code false else if 32 ≤ n then d.optTake 8 true else d

/-- PHASE_P3 (R54, R458, R461, R508): the straps are sampled, low for master. -/
def Dev.phaseP3 (d : Dev) (ms4 ms5 testmode : Bool) : Dev :=
  if !d.inPhase 3 || !d.rst.optTaken then d
  else
    let d := d.tbStart
    let d := d.setPort 4 { (d.port 4) with strapMaster := !ms4 }
    let d := d.setPort 5 { (d.port 5) with strapMaster := !ms5 }
    { d.phyRoles.toPhase 4 with rst := { d.rst with testmode := testmode } }

/-- PHASE_P4 (R459, R461, R477, R508): the factory area copy A, copy B or the built-in defaults. -/
def Dev.phaseP4 (d : Dev) : Dev :=
  if !d.inPhase 4 || d.rst.testmode then d
  else
    let a := (d.nvBank 0).valid 0
    let b := (d.nvBank 1).valid 0
    let defaults := decide (15 ≤ d.rst.optRestarts) || (!a && !b)
    let d := (d.setBit 0x2F00 0x02 2 defaults).setBit 0x2F00 0x02 3 (!defaults && !a)
    let d := { d with factory := { d.factory with rollbackMin := if defaults then d.factory.rollbackMin else d.factoryMin } }
    let d := d.setObj 0x2F00 0x06 d.rst.optRestarts
    { d.toPhase 5 with rst := { d.rst with optRestarts := 0 } }

/-- PHASE_P5 (R409, R470): the domains come up and the Loft is cleared; a rail that is not good restarts from P2. -/
def Dev.phaseP5 (d : Dev) (bad : Option Nat) : Dev × LoftEff :=
  if !d.inPhase 5 then (d, {})
  else match bad with
    | some k => (d.assertReset 2 k 2, {})
    | none =>
      let on := if d.rst.waking then d.rst.wakeMask % 16384 ||| 0x000F else 0x3FFF
      ((d.setObj 0x2F10 0x01 on).toPhase 6, { clear := true })

/-- A field of the selected boot record; 0 where no bank is valid (R478). -/
def Dev.bootField (d : Dev) (k : Nat) : Nat := ofLe (((d.bodyOf 2).drop k).take 1)

/-- Boots a bank, or the other one, or neither (R478). -/
def Dev.bootBank (d : Dev) (b : Nat) (okA okB : Bool) : Dev :=
  let passes := fun b => d.fwPasses b (if b = 0 then okA else okB)
  let run := fun (d : Dev) b => { d.toPhase 7 with rst := { d.rst with bootBank := b, bootStuck := false } }
  if passes b then run d b
  else if passes (1 - b) then run (d.setBit 0x2F00 0x02 4 true) (1 - b)
  else { d with rst := { d.rst with bootBank := b, bootStuck := true } }

/-- The boot record decides which bank is tried first (R478). -/
def Dev.bootSelect (d : Dev) : Dev × Nat :=
  let sel := d.bootField 0 % 2
  let prev := d.bootField 1 % 2
  let d := d.setBit 0x2F00 0x02 4 false
  if d.bootField 2 = 1 then
    if d.bootField 3 = 0 then (d.bootWrite sel prev 1 1, sel)
    else ((d.bootWrite prev prev 0 (d.bootField 3)).setBit 0x2F00 0x02 4 true, prev)
  else (d, sel)

/-- PHASE_P6 (R465, R478): a firmware activation clears the Loft at its start. -/
def Dev.phaseP6 (d : Dev) (okA okB : Bool) : Dev × LoftEff :=
  if !d.inPhase 6 || d.rst.bootStuck then (d, {})
  else
    let eff : LoftEff := { clear := d.rst.activated }
    let (d, b) := d.bootSelect
    ({ d with rst := { d.rst with activated := false } }.bootBank b okA okB, eff)

/-- BOOT_RETRY (R478): every second while neither bank passes. -/
def Dev.bootRetry (d : Dev) (okA okB : Bool) : Dev :=
  if d.inPhase 6 && d.rst.bootStuck then d.bootBank d.rst.bootBank okA okB else d

/-- After a wake the domains left out of wake_domains stay off and their bits of domain_req read 0 (R472). -/
def Dev.wakeDomains (d : Dev) : Dev :=
  if d.rst.waking then
    let want := d.obj 0x2F10 0x02 &&& (d.rst.wakeMask % 16384 ||| 0x000F)
    (d.setObj 0x2F10 0x02 want).powerMask want
  else d

/-- PHASE_P7 (R459, R463, R464, R480, R482): configuration hold by the OPT code or by default trims, the restore, the locks and the
budgets. -/
def Dev.phaseP7 (d : Dev) : Dev :=
  if !d.inPhase 7 then d
  else
    let d := d.setBit 0x2F00 0x02 1 (decide (8 ≤ d.obj 0x2F00 0x04) || d.bit 0x2F00 0x02 2)
    ((((d.factoryBits.restoreAll).autoLock).fullBudget).wakeDomains).toPhase 8

/-- The boot record and factory writes that phase P8 asks for (R476 to R478): the trial ends, the rollback minimum rises, a factory
copy is repaired. While the supply is low no write begins (R473). -/
def Dev.p8Writes (d : Dev) : Dev :=
  if !d.ready || d.bit 0x2F10 0x06 0 then d
  else
    let idle := fun (d : Dev) pair => !d.nv.jobs.any (fun j => j.pair = pair)
    let trial := d.bootField 2 = 1
    let run := d.fwBank d.rst.bootBank
    let d := if trial && idle d 2 then
      d.nvBegin 2 (d.writeBank 2) ([d.bootField 0, d.bootField 1, 0, d.bootField 3, 0].map (BitVec.ofNat 8)) false false else d
    let a := (d.nvBank 0).valid 0
    let b := (d.nvBank 1).valid 0
    if !idle d 0 then d
    else if trial && decide (d.factory.rollbackMin < run.rollback) then d.nvBegin 0 0 [BitVec.ofNat 8 run.rollback] false false
    else if a && !b then d.nvBegin 0 1 (d.nvBank 0).body false true
    else if b && !a then d.nvBegin 0 0 (d.nvBank 1).body false true
    else d

/-- Enabled cyclic frames start (R81, R462). -/
def Dev.cycStart (d : Dev) : Dev :=
  (List.range 64).foldl (fun (d : Dev) f =>
    let i := 0x1400 + f
    d.setCyc f (if d.obj i 0x01 = 1 then { due := if d.obj i 0x03 = 1 then d.now + d.obj i 0x04 * tqUs else d.now } else {})) d

/-- The sources of phase P8 (R461, R478, R485): P8 reached, firmware fallback, trims from defaults; 126 after a wake (R429); 125
where RC fallback or vernier_fail came before PD2 had power (R120). -/
def Dev.p8Sources (d : Dev) : Dev :=
  let d := d.raiseIf (d.bit 0x2F00 0x0D 0) 123
  let d := d.raiseIf (d.bit 0x2F00 0x02 4 && d.bit 0x2F00 0x0D 3) 123
  let d := d.raiseIf (d.bit 0x2F00 0x02 2 && d.bit 0x2F00 0x0D 4) 123
  let d := d.raiseIf d.rst.waking 126
  let d := d.raiseIf d.tb.owed 125
  { d with rst := { d.rst with waking := false, pinsOut := true }, tb := { d.tb with owed := false } }

/-- PHASE_P8 (R57, R462): ready and disarmed. -/
def Dev.phaseP8 (d : Dev) : Dev :=
  if !d.inPhase 8 || d.ready then d
  else (((((d.setBit 0x2F00 0x02 0 true).latchPorts).cycStart).p8Sources).p8Writes).nightLook

/-- SUPPLY_LOW_CLEAR (R473): writes that waited begin. -/
def Dev.supplyBack (d : Dev) : Dev := (d.supplyLowClear).p8Writes

/-- The restore of a further domain that a brown-out has reset (R456, R466, R485). -/
def Dev.brownRestore (d : Dev) : Dev :=
  match d.rst.browned with
  | k :: rest => ({ d with rst := { d.rst with browned := rest } }.restoreDomain k).raiseIf (d.bit 0x2F00 0x0D 2) 123
  | [] => d

/-- DOMAIN_RESTORE (R466, R468): the reset that domain_reset_state shows first, then those that brown-outs left. -/
def Dev.domainRestore (d : Dev) : Dev :=
  if !d.coresRun then d
  else match d.rst.domReset with
    | some k =>
      if d.obj 0x2F00 0x0A = 3 then
        let d := (d.restoreDomain k).setObj 0x2F00 0x0A (if d.rst.domLate then 5 else 4)
        { d with rst := { d.rst with domReset := none, domLate := false } }.raiseIf (d.bit 0x2F00 0x0D 2) 123
      else d.brownRestore
    | none => d.brownRestore

end Sys2Proof.Machine
end

