-- ==== Sys2Proof/Machine/Balls.lean ====
section
/-! DEFINITION. The balls of the package (R503, R504) and the cells of the boundary register (R514). -/

namespace Sys2Proof.Machine

/-- The letters of the rows, in order of row index 1 to 30 (R503). -/
def rowNames : List String :=
  [ "A", "B", "C", "D", "E", "F", "G", "H", "J", "K", "L", "M", "N", "P", "T", "U", "V", "W", "Y", "AA", "AB", "AC", "AD", "AE", "AF", "AG"
  , "AH", "AJ", "AK", "AL" ]

/-- What a ball carries (R504). Numbers are those of the channel, bank, pair, port or pin; boost controllers are 0 for BSTA, 1 for BSTB. -/
inductive Ball where
  | lsg (n : Nat) | lssP (n : Nat) | lssM (n : Nat) | dsn (n : Nat)
  | bhbg (b : Nat) | bhbs (b : Nat) | bhsg (b : Nat) | bhss (b : Nat) | bisP (b : Nat) | bisM (b : Nat)
  | cmpP (n : Nat) | cmpM (n : Nat) | whlP (n : Nat) | whlM (n : Nat)
  | bstGate (x : Nat) | bstCsp (x : Nat) | bstCsn (x : Nat) | bstVs (x : Nat) | bstGnd (x : Nat)
  | armN | killN | preBst | drvCfp | drvCfm | lpin (k : Nat)
  | spiCsN | spiSck | spiSdi | spiSdo | sleepN | hattn (n : Nat) | canTxd (p : Nat) | canRxd (p : Nat)
  | ethP (p : Nat) | ethM (p : Nat) | ethMs (p : Nat) | tck | tms | tdi | tdo | trstN
  | xtalIn | xtalOut | refIn | opt | resetN | testmode
  | knkP (n : Nat) | knkM (n : Nat) | prsP (n : Nat) | prsM (n : Nat)
  | vsup | preSw | vpre | vdrv | vio | vioSw | vcoreSw | vcore | vana | gnd | pgnd | agnd | rsvd
  deriving DecidableEq, Repr

/-- Row G or H of columns 9 to 16, by the controller whose balls it holds. -/
def boostRow (x : Nat) (others : List Ball) (k : Nat) : Ball :=
  (([.bstGate x, .bstCsp x, .bstCsn x, .bstVs x, .bstGnd x] : List Ball) ++ others).getD k .rsvd

/-- Columns 1 to 16, the power die. -/
def powerBall (i c : Nat) : Ball :=
  if 25 ≤ i then
    let b := c - 1
    ([.bhbg b, .bhbs b, .bhsg b, .bhss b, .bisP b, .bisM b] : List Ball).getD (i - 25) .rsvd
  else if c ≤ 8 then
    let n := if c ≤ 4 then i - 1 else i + 23
    ([.lsg n, .lssP n, .lssM n, .dsn n] : List Ball).getD ((c - 1) % 4) .rsvd
  else
    let k := c - 9
    if i = 1 then .cmpP k else if i = 2 then .cmpM k
    else if i = 3 then .cmpP (k + 8) else if i = 4 then .cmpM (k + 8)
    else if i = 5 then .whlP k else if i = 6 then .whlM k
    else if i = 7 then boostRow 0 [.armN, .killN, .preBst] k
    else if i = 8 then boostRow 1 [.drvCfp, .drvCfm, .pgnd] k
    else ([.vsup, .preSw, .vpre, .vdrv] : List Ball).getD (i - 9) .pgnd

/-- Columns 25 and 26, rows A to T: the ports and the test access port. -/
def portBall (i c : Nat) : Ball :=
  let pair := fun (a b : Ball) => if c = 25 then a else b
  if i = 1 then pair .spiCsN .spiSck else if i = 2 then pair .spiSdi .spiSdo
  else if i = 3 then pair (.hattn 0) .sleepN else if i = 4 then pair (.hattn 1) (.hattn 2)
  else if i = 5 then pair (.hattn 3) (.hattn 4) else if i = 6 then pair (.hattn 5) .rsvd
  else if i ≤ 9 then pair (.canTxd (i - 6)) (.canRxd (i - 6))
  else if i ≤ 11 then pair (.ethP (i - 6)) (.ethM (i - 6))
  else if i = 12 then pair (.ethMs 4) (.ethMs 5)
  else if i = 13 then pair .tck .tms else if i = 14 then pair .tdi .tdo else pair .trstN .rsvd

/-- Columns 17 to 30, the core die. -/
def coreBall (i c : Nat) : Ball :=
  if c ≤ 24 then
    if i ≤ 4 then .lpin (8 * (i - 1) + (c - 17)) else if i ≤ 7 then .vcore else if i = 8 then .rsvd else .gnd
  else if c ≤ 26 then
    if i ≤ 15 then portBall i c else if i ≤ 21 then .vio else if i ≤ 23 then .vioSw else if i ≤ 26 then .vcoreSw else .rsvd
  else if c = 27 then
    if i ≤ 22 then .agnd else ([.xtalIn, .xtalOut, .refIn, .opt, .resetN, .testmode] : List Ball).getD (i - 23) .rsvd
  else if c = 28 then
    if i ≤ 16 then (if i % 2 = 1 then .knkP ((i - 1) / 2) else .knkM ((i - 1) / 2)) else .agnd
  else if i ≤ 24 then (if c = 30 then .prsP (i - 1) else .prsM (i - 1))
  else if i ≤ 28 then .vana else .agnd

/-- The ball at a row index and a column, both 1 to 30 (R504). -/
def ballAt (i c : Nat) : Ball := if c ≤ 16 then powerBall i c else coreBall i c

/-- The name of a ball (R503). -/
def ballName (i c : Nat) : String := rowNames.getD (i - 1) "" ++ toString c

/-- A cell of the boundary register. -/
inductive CellKind where
  | input | output | control
  deriving DecidableEq, Repr

/-- The cells of a ball: none for a ball that the register does not cover (R514). -/
def Ball.cells : Ball → List CellKind
  | .armN | .killN | .spiCsN | .spiSck | .spiSdi | .sleepN | .canRxd _ | .ethMs _ | .resetN => [.input]
  | .lpin _ => [.input, .output, .control]
  | .spiSdo | .hattn _ | .canTxd _ => [.output, .control]
  | _ => []

/-- The balls in order of column and then row index. -/
def ballOrder : List Ball := (List.range 30).flatMap (fun c => (List.range 30).map (fun i => ballAt (i + 1) (c + 1)))

/-- The boundary register, cell 0 first (R514). -/
def boundary : List (Ball × CellKind) := ballOrder.flatMap (fun b => b.cells.map (fun k => (b, k)))

/-- The number of the cell of a ball. -/
def cellIndex (b : Ball) (k : CellKind) : Nat := boundary.findIdx (fun c => c = (b, k))

end Sys2Proof.Machine
end

