-- ==== Sys2Proof/Machine/Tap.lean ====
section
/-! DEFINITION. The test access port (R514 to R517). -/

namespace Sys2Proof.Machine

/-- The IDCODE word (R515): the major revision, part 0x5030, manufacturer 0x21F, 1. -/
def Dev.idcodeWord (d : Dev) : Nat := d.obj 0x1018 0x03 / 65536 % 16 * 2 ^ 28 + 0x503043F

/-- The test access port is powered: VSUP is above its threshold and the device does not sleep (R506, R472). -/
def Dev.tapOn (d : Dev) : Bool := !d.rst.heldPower && d.rst.slept.isNone

/-- What the 5-bit instruction register captures, and the instruction of a code: every other code is BYPASS (R515). -/
def irCapture : Nat := 0b00001
def tapInstruction (code : Nat) : Nat := if code ≤ 4 then code else 0b11111

/-- An instruction becomes current (R515, R516): EXTEST, CLAMP and HIGHZ clamp the gates and disarm both domains. -/
def Dev.tapLoad (d : Dev) (instr : Nat) (driving floating : Bool) (captured : List Bool) : Dev :=
  let d := { d with tap := { d.tap with instr := tapInstruction instr, driving := driving, floating := floating, captured := captured } }
  if d.tapBlocks then (d.boostGatesLow).disarmBoth false else d

/-- EXTEST: the cells drive the covered outputs. -/
def Dev.tapExtest (d : Dev) (cells : List Bool) : Dev :=
  if d.tapOn then ({ d with tap := { d.tap with cells := cells } }).tapLoad 0 true false d.tap.captured else d

/-- SAMPLE/PRELOAD: the levels are captured, the cells take what is shifted in. -/
def Dev.tapSample (d : Dev) (pins cells : List Bool) : Dev :=
  if d.tapOn then ({ d with tap := { d.tap with cells := cells } }).tapLoad 1 false false pins else d

/-- IDCODE: the 32 bits for TDO, bit 0 first. -/
def Dev.tapIdcode (d : Dev) : Dev :=
  if d.tapOn then d.tapLoad 2 false false ((List.range 32).map (fun k => d.idcodeWord.testBit k)) else d

/-- CLAMP: the outputs hold the cells, the bypass register is selected. -/
def Dev.tapClamp (d : Dev) : Dev := if d.tapOn then d.tapLoad 3 true false [false] else d

/-- HIGHZ: every covered output floats, the bypass register is selected. -/
def Dev.tapHighz (d : Dev) : Dev := if d.tapOn then d.tapLoad 4 false true [false] else d

/-- BYPASS: the bypass register, one cell that captures 0. -/
def Dev.tapBypass (d : Dev) : Dev := if d.tapOn then d.tapLoad 31 false false [false] else d

/-- Test-Logic-Reset selects IDCODE; pins that a reset under EXTEST left at R506 follow the device again (R517). -/
def Dev.tapReset (d : Dev) : Dev :=
  if d.tapOn then ({ d with tap := { d.tap with pinned := false } }).tapLoad 2 false false d.tap.captured else d

/-- What the test access port makes of a covered output: after a reset under EXTEST the state of R506, under EXTEST and CLAMP its
output cell where its control cell is 1, under HIGHZ nothing; none where the port leaves the pin to the device. -/
def Dev.scanPin (d : Dev) (b : Ball) : Option (Option Bool) :=
  let cell := fun k => d.tap.cells.getD (cellIndex b k) false
  if d.tap.pinned || d.tap.floating then some none
  else if d.tap.driving then some (if cell .control then some (cell .output) else none)
  else none

end Sys2Proof.Machine
end

