-- ==== Sys2Proof/Machine/Angles.lean ====
section
/-! DEFINITION. The meanings of the commands of the angle synthesiser (chapter 05). -/

namespace Sys2Proof.Machine

/-- LEARN_CMD_START (R176). -/
def execLearnCmdStart (t : Nat) (r : Req) (k : Fin 2) (s : State) : Host.Outcome State Fault Refusal :=
  onBoth s t (fun m d => d.putOne m r (0x2200 + k) 0x0D 1 1)

/-- LEARN_CMD_ABORT (R179). -/
def execLearnCmdAbort (t : Nat) (r : Req) (k : Fin 2) (s : State) : Host.Outcome State Fault Refusal :=
  onBoth s t (fun m d => d.putOne m r (0x2200 + k) 0x0D 1 2)

/-- TABLE_COMPUTE (R177). -/
def execTableCompute (t : Nat) (k : Fin 2) (s : State) : Host.Outcome State Fault Refusal :=
  onDev s t (fun d => d.tableCompute k)

/-- LEARN_TIMEOUT (R176). -/
def execLearnTimeout (t : Nat) (k : Fin 2) (s : State) : Host.Outcome State Fault Refusal :=
  onDev s t (fun d => d.learnTimeout k)

/-- TOOTH_TABLE_CLEAR (R200). -/
def execToothTableClear (t : Nat) (r : Req) (k : Fin 2) (s : State) : Host.Outcome State Fault Refusal :=
  onBoth s t (fun m d => d.putOne m r (0x2210 + k) 0x08 1 1)

/-- REFIT (R183). -/
def execRefit (t : Nat) (k : Fin 2) (finished : Bool) (more : Fin 5) (s : State) : Host.Outcome State Fault Refusal :=
  onDev s t (fun d => d.refitDone k finished more)

/-- INERTIA_UPDATE (R188). -/
def execInertiaUpdate (t : Nat) (k : Fin 2) (s : State) : Host.Outcome State Fault Refusal :=
  onDev s t (fun d => d.inertiaUpdate k)

/-- MARK_FREEZE (R190). -/
def execMarkFreeze (t : Nat) (k : Fin 2) (mk : Fin 4) (s : State) : Host.Outcome State Fault Refusal :=
  onDev s t (fun d => d.markFreeze k mk)

/-- MARK_FIRE (R190). -/
def execMarkFire (t : Nat) (k : Fin 2) (mk : Fin 4) (s : State) : Host.Outcome State Fault Refusal :=
  onDev s t (fun d => d.markFire k mk)

/-- SYNTH_CLEAR (R199). -/
def execSynthClear (t : Nat) (r : Req) (k : Fin 2) (s : State) : Host.Outcome State Fault Refusal :=
  onBoth s t (fun m d => d.putOne m r (0x2200 + k) 0x2E 1 1)

end Sys2Proof.Machine
end

