-- ==== Sys2Proof/Machine/Clock.lean ====
section
/-! DEFINITION. The meanings of the commands of the Timebase (chapter 03). -/

namespace Sys2Proof.Machine

/-- REF_LOSS (R111). -/
def execRefLoss (t : Nat) (s : State) : Host.Outcome State Fault Refusal :=
  onDev s t (fun d => d.refLoss)

/-- REF_RESTORE (R113). -/
def execRefRestore (t : Nat) (refs : RefsValid) (s : State) : Host.Outcome State Fault Refusal :=
  onDev s t (fun d => d.refRestore refs.refIn refs.crystal)

/-- RELOCK_DONE (R113). -/
def execRelockDone (t : Nat) (s : State) : Host.Outcome State Fault Refusal :=
  onDev s t (fun d => d.relockDone)

/-- VERNIER_CALIBRATION (R107). -/
def execVernierCalibration (t : Nat) (worst : Nat) (s : State) : Host.Outcome State Fault Refusal :=
  onDev s t (fun d => d.vernier worst)

/-- CLEAR_FLAGS (R119). -/
def execClearFlags (t : Nat) (r : Req) (s : State) : Host.Outcome State Fault Refusal :=
  onBoth s t (fun m d => d.putOne m r 0x2000 0x09 1 1)

end Sys2Proof.Machine
end

