-- ==== Sys2Proof/Machine/Comparators.lean ====
section
/-! DEFINITION. The meanings of the commands of comparators and ramps (chapter 11). -/

namespace Sys2Proof.Machine

/-- LIVE_TRANSITION (R340). -/
def execLiveTransition (t : Nat) (n : Fin 16) (lower : Bool) (level : Bool) (s : State) : Host.Outcome State Fault Refusal :=
  onDev s t (fun d => d.liveTransition n (b2n lower) level)

/-- BLANKING_WINDOW_OPEN (R349). -/
def execBlankingWindowOpen (t : Nat) (n : Fin 16) (s : State) : Host.Outcome State Fault Refusal :=
  onDev s t (fun d => d.blankOpen n)

/-- BLANKING_WINDOW_CLOSE (R348). -/
def execBlankingWindowClose (t : Nat) (n : Fin 16) (s : State) : Host.Outcome State Fault Refusal :=
  onDev s t (fun d => d.blankClose n)

/-- COMPARATOR_CLEAR (R358). -/
def execComparatorClear (t : Nat) (r : Req) (n : Fin 16) (s : State) : Host.Outcome State Fault Refusal :=
  onBoth s t (fun m d => d.putOne m r (0x2A00 + n) 0x15 1 1)

/-- RAMP_RESET (R351). -/
def execRampReset (t : Nat) (k : Fin 4) (s : State) : Host.Outcome State Fault Refusal :=
  onDev s t (fun d => d.rampReset k)

/-- RAMP_START (R351). -/
def execRampStart (t : Nat) (r : Req) (k : Fin 4) (s : State) : Host.Outcome State Fault Refusal :=
  onBoth s t (fun m d => d.putOne m r (0x2A10 + k) 0x0A 1 1)

/-- RAMP_END (R351). -/
def execRampEnd (t : Nat) (k : Fin 4) (s : State) : Host.Outcome State Fault Refusal :=
  onDev s t (fun d => d.rampEnd k)

end Sys2Proof.Machine
end

