-- ==== Sys2Proof/Machine/Counters.lean ====
section
/-! DEFINITION. The meanings of the commands of timers and the event network (chapter 12). -/

namespace Sys2Proof.Machine

/-- TIMER_TICK (R362). -/
def execTimerTick (t : Nat) (n : Fin 32) (s : State) : Host.Outcome State Fault Refusal :=
  onDev s t (fun d => d.timerTick n)

/-- PERIOD_END (R365). -/
def execPeriodEnd (t : Nat) (n : Fin 32) (s : State) : Host.Outcome State Fault Refusal :=
  onDev s t (fun d => d.periodEnd n)

/-- COMPARE_MATCH (R363). -/
def execCompareMatch (t : Nat) (n : Fin 32) (u : Fin 2) (s : State) : Host.Outcome State Fault Refusal :=
  onDev s t (fun d => d.compareMatch n u)

/-- TIMER_ARM (R361). -/
def execTimerArm (t : Nat) (r : Req) (n : Fin 32) (s : State) : Host.Outcome State Fault Refusal :=
  onBoth s t (fun m d => d.putOne m r (0x2B00 + n) 0x12 1 1)

/-- TIMER_START (R361). -/
def execTimerStart (t : Nat) (r : Req) (n : Fin 32) (s : State) : Host.Outcome State Fault Refusal :=
  onBoth s t (fun m d => d.putOne m r (0x2B00 + n) 0x12 1 2)

/-- TIMER_STOP (R361). -/
def execTimerStop (t : Nat) (r : Req) (n : Fin 32) (s : State) : Host.Outcome State Fault Refusal :=
  onBoth s t (fun m d => d.putOne m r (0x2B00 + n) 0x12 1 3)

/-- START_INPUT (R361). -/
def execStartInput (t : Nat) (n : Fin 32) (s : State) : Host.Outcome State Fault Refusal :=
  onDev s t (fun d => d.startInput n)

/-- RESET_INPUT (R362). -/
def execResetInput (t : Nat) (n : Fin 32) (s : State) : Host.Outcome State Fault Refusal :=
  onDev s t (fun d => d.resetInput n)

/-- CAPTURE_RISE (R369). -/
def execCaptureRise (t : Nat) (n : Fin 32) (s : State) : Host.Outcome State Fault Refusal :=
  onDev s t (fun d => d.captureRise n)

/-- CAPTURE_FALL (R369). -/
def execCaptureFall (t : Nat) (n : Fin 32) (s : State) : Host.Outcome State Fault Refusal :=
  onDev s t (fun d => d.captureFall n)

/-- TIMER_CLEAR (R376). -/
def execTimerClear (t : Nat) (r : Req) (n : Fin 32) (s : State) : Host.Outcome State Fault Refusal :=
  onBoth s t (fun m d => d.putOne m r (0x2B00 + n) 0x1E 1 1)

/-- GSTART_RELEASE (R368). -/
def execGstartRelease (t : Nat) (r : Req) (mask : Nat) (s : State) : Host.Outcome State Fault Refusal :=
  onBoth s t (fun m d => d.putOne m r 0x2B80 0x01 4 mask)

/-- GSTART_LINE (R368). -/
def execGstartLine (t : Nat) (s : State) : Host.Outcome State Fault Refusal :=
  onDev s t (fun d => d.gstartLine)

/-- ROUTE_CLEAR (R378). -/
def execRouteClear (t : Nat) (r : Req) (line : Fin 256) (s : State) : Host.Outcome State Fault Refusal :=
  onBoth s t (fun m d => d.putOne m r (0x2F80 + line / 2) (0x06 + 0x10 * (line.val % 2)) 1 1)

end Sys2Proof.Machine
end

