-- ==== Sys2Proof/Machine/Cylinders.lean ====
section
/-! DEFINITION. The meanings of the commands of pressure and vibration (chapter 10). -/

namespace Sys2Proof.Machine

/-- PRESSURE_SAMPLE (R318). -/
def execPressureSample (t : Nat) (codes : List Int) (s : State) : Host.Outcome State Fault Refusal :=
  onBoth s t (fun m d => d.pressureSample m t codes)

/-- CYCLE_RESULTS (R328). -/
def execCycleResults (t : Nat) (c : Fin 24) (s : State) : Host.Outcome State Fault Refusal :=
  onBoth s t (fun m d => (d.cycleResults m c, {}))

/-- PRESSURE_CLEAR (R338). -/
def execPressureClear (t : Nat) (r : Req) (c : Fin 24) (s : State) : Host.Outcome State Fault Refusal :=
  onBoth s t (fun m d => d.putOne m r (0x2900 + c) 0x1E 1 1)

/-- VIBRATION_SAMPLE (R330). -/
def execVibrationSample (t : Nat) (v : Fin 8) (code : Int) (s : State) : Host.Outcome State Fault Refusal :=
  onBoth s t (fun _ d => d.vibrationSample v t code)

/-- VIBRATION_CLEAR (R339). -/
def execVibrationClear (t : Nat) (r : Req) (v : Fin 8) (s : State) : Host.Outcome State Fault Refusal :=
  onBoth s t (fun m d => d.putOne m r (0x2920 + v) 0x33 1 1)

end Sys2Proof.Machine
end

