-- ==== Sys2Proof/Machine/Ends.lean ====
section
/-! DEFINITION. The meanings of the commands of the ends of faults, resets and stops. -/

namespace Sys2Proof.Machine

/-- REPLICA_FAULT (R26). -/
def execReplicaFault (t : Nat) (s : State) : Host.Outcome State Fault Refusal :=
  onDev s t (fun d => d.replicaFault)

/-- POWER_ON_RELEASE (R456). -/
def execPowerOnRelease (t : Nat) (s : State) : Host.Outcome State Fault Refusal :=
  onDev s t (fun d => d.powerOnRelease)

/-- RESET_N_RELEASE (R456). -/
def execResetNRelease (t : Nat) (s : State) : Host.Outcome State Fault Refusal :=
  onDev s t (fun d => d.resetNRelease)

/-- BUS_OFF_RECOVERY (R53). -/
def execBusOffRecovery (t : Nat) (p : Fin 6) (s : State) : Host.Outcome State Fault Refusal :=
  onDev s t (fun d => d.busOn p)

/-- LINK_UP_RISE (R102). -/
def execLinkUpRise (t : Nat) (p : Fin 6) (s : State) : Host.Outcome State Fault Refusal :=
  onDev s t (fun d => d.linkRise p)

/-- CORE_RESUME (R460). -/
def execCoreResume (t : Nat) (c : Fin 4) (s : State) : Host.Outcome State Fault Refusal :=
  onDev s t (fun d => d.coreResume c)

/-- OVER_VOLTAGE_CLEAR (R303). -/
def execOverVoltageClear (t : Nat) (x : Fin 2) (mv : Nat) (s : State) : Host.Outcome State Fault Refusal :=
  onDev s t (fun d => d.overVoltageClear x mv)

/-- BOOT_RETRY (R478). -/
def execBootRetry (t : Nat) (okA : Bool) (okB : Bool) (s : State) : Host.Outcome State Fault Refusal :=
  onDev s t (fun d => d.bootRetry okA okB)

end Sys2Proof.Machine
end

