-- ==== Sys2Proof/Machine/Injection.lean ====
section
/-! DEFINITION. The meanings of the commands of the injector drive and the boost supply (chapter 07). -/

namespace Sys2Proof.Machine

/-- BOOST_CURRENT_END (R245). -/
def execBoostCurrentEnd (t : Nat) (n : Fin 48) (s : State) : Host.Outcome State Fault Refusal :=
  onDev s t (fun d => d.boostCurrentEnd n)

/-- BOOST_TIME_END (R245). -/
def execBoostTimeEnd (t : Nat) (n : Fin 48) (cur : Nat) (s : State) : Host.Outcome State Fault Refusal :=
  onDev s t (fun d => d.boostTimeEnd n cur)

/-- PEAK_END (R246). -/
def execPeakEnd (t : Nat) (n : Fin 48) (cur : Nat) (s : State) : Host.Outcome State Fault Refusal :=
  onDev s t (fun d => d.peakEnd n cur)

/-- REGULATION_UPPER (R249). -/
def execRegulationUpper (t : Nat) (n : Fin 48) (s : State) : Host.Outcome State Fault Refusal :=
  onDev s t (fun d => d.regUpper n)

/-- REGULATION_LOWER (R249). -/
def execRegulationLower (t : Nat) (n : Fin 48) (s : State) : Host.Outcome State Fault Refusal :=
  onDev s t (fun d => d.regLower n)

/-- DECAY_END (R248). -/
def execDecayEnd (t : Nat) (n : Fin 48) (s : State) : Host.Outcome State Fault Refusal :=
  onDev s t (fun d => d.decayEnd n)

/-- DECAY_TIMEOUT (R248). -/
def execDecayTimeout (t : Nat) (n : Fin 48) (s : State) : Host.Outcome State Fault Refusal :=
  onDev s t (fun d => d.decayTimeout n)

/-- DEAD_TIME (R252). -/
def execDeadTime (t : Nat) (b : Fin 16) (cur : Nat) (s : State) : Host.Outcome State Fault Refusal :=
  onDev s t (fun d => d.deadTime b cur)

/-- MAX_DEFER (R253). -/
def execMaxDefer (t : Nat) (n : Fin 48) (s : State) : Host.Outcome State Fault Refusal :=
  onDev s t (fun d => d.maxDefer n)

/-- T_READY_MAX (R305). -/
def execTReadyMax (t : Nat) (n : Fin 48) (s : State) : Host.Outcome State Fault Refusal :=
  onDev s t (fun d => d.tReadyMax n)

/-- READY_RISE (R262). -/
def execReadyRise (t : Nat) (x : Fin 2) (mv : Nat) (s : State) : Host.Outcome State Fault Refusal :=
  onDev s t (fun d => d.readyRise x mv)

/-- READY_FALL (R262). -/
def execReadyFall (t : Nat) (x : Fin 2) (mv : Nat) (s : State) : Host.Outcome State Fault Refusal :=
  onDev s t (fun d => d.readyFall x mv)

/-- BOOST_PERIOD (R259). -/
def execBoostPeriod (t : Nat) (x : Fin 2) (mv : Nat) (s : State) : Host.Outcome State Fault Refusal :=
  onDev s t (fun d => d.boostPeriodRamp x mv)

/-- BOOST_GATE_OFF (R259). -/
def execBoostGateOff (t : Nat) (x : Fin 2) (limit : Bool) (s : State) : Host.Outcome State Fault Refusal :=
  onDev s t (fun d => d.boostGateOff x limit)

/-- RAIL_ENABLE (R260). -/
def execRailEnable (t : Nat) (r : Req) (x : Fin 2) (s : State) : Host.Outcome State Fault Refusal :=
  onBoth s t (fun m d => d.putOne m r (0x2780 + x) 0x01 1 1)

/-- RAIL_DISABLE (R260). -/
def execRailDisable (t : Nat) (r : Req) (x : Fin 2) (s : State) : Host.Outcome State Fault Refusal :=
  onBoth s t (fun m d => d.putOne m r (0x2780 + x) 0x01 1 0)

/-- SOFT_START_DONE (R260). -/
def execSoftStartDone (t : Nat) (x : Fin 2) (mv : Nat) (s : State) : Host.Outcome State Fault Refusal :=
  onDev s t (fun d => d.softStartDone x mv)

/-- MAP_LOCK (R240). -/
def execMapLock (t : Nat) (r : Req) (b : Fin 16) (s : State) : Host.Outcome State Fault Refusal :=
  onBoth s t (fun m d => d.putOne m r (0x2740 + b) 0x08 1 1)

/-- CHANNEL_CLEAR (R269). -/
def execChannelClear (t : Nat) (r : Req) (n : Fin 48) (s : State) : Host.Outcome State Fault Refusal :=
  onBoth s t (fun m d => d.putOne m r (0x2700 + n) 0x0E 1 1)

/-- BANK_CLEAR (R270). -/
def execBankClear (t : Nat) (r : Req) (b : Fin 16) (s : State) : Host.Outcome State Fault Refusal :=
  onBoth s t (fun m d => d.putOne m r (0x2740 + b) 0x15 1 1)

/-- BOOST_CLEAR (R271). -/
def execBoostClear (t : Nat) (r : Req) (x : Fin 2) (s : State) : Host.Outcome State Fault Refusal :=
  onBoth s t (fun m d => d.putOne m r (0x2780 + x) 0x11 1 1)

end Sys2Proof.Machine
end

