-- ==== Sys2Proof/Machine/Kinks.lean ====
section
/-! DEFINITION. The meanings of the commands of closure detection and shot learning (chapter 08). -/

namespace Sys2Proof.Machine

/-- CAPTURE_START (R273). -/
def execCaptureStart (t : Nat) (k : Fin 16) (s : State) : Host.Outcome State Fault Refusal :=
  onDev s t (fun d => d.captureStart k)

/-- LANE_OVERRUN (R274). -/
def execLaneOverrun (t : Nat) (k : Fin 16) (s : State) : Host.Outcome State Fault Refusal :=
  onDev s t (fun d => d.laneOverrun k)

/-- CAPTURE_END (R275). -/
def execCaptureEnd (t : Nat) (k : Fin 16) (xs : List Nat) (s : State) : Host.Outcome State Fault Refusal :=
  onBoth s t (fun _ d => d.captureEnd k xs)

/-- KINK_SEARCH (R284). -/
def execKinkSearch (t : Nat) (k : Fin 16) (s : State) : Host.Outcome State Fault Refusal :=
  onBoth s t (fun m d => (d.kinkSearch m k, {}))

/-- RESULT_WRITE (R286). -/
def execResultWrite (t : Nat) (n : Fin 48) (s : State) : Host.Outcome State Fault Refusal :=
  onBoth s t (fun _ d => d.resultWrite n)

/-- SHOT_LEARNING (R288). -/
def execShotLearning (t : Nat) (n : Fin 48) (s : State) : Host.Outcome State Fault Refusal :=
  onBoth s t (fun _ d => d.shotLearning n)

/-- RESET_LEARNING (R291). -/
def execResetLearning (t : Nat) (r : Req) (n : Fin 48) (mask : Nat) (s : State) : Host.Outcome State Fault Refusal :=
  onBoth s t (fun m d => d.putOne m r (0x2800 + n) 0x28 1 mask)

/-- CLOSURE_CLEAR (R296). -/
def execClosureClear (t : Nat) (r : Req) (n : Fin 48) (s : State) : Host.Outcome State Fault Refusal :=
  onBoth s t (fun m d => d.putOne m r (0x2800 + n) 0x29 1 1)

/-- LANE_HOLD (R297). -/
def execLaneHold (t : Nat) (r : Req) (k : Fin 16) (s : State) : Host.Outcome State Fault Refusal :=
  onBoth s t (fun m d => d.putOne m r (0x2840 + k) 0x07 1 1)

/-- LANE_RELEASE (R297). -/
def execLaneRelease (t : Nat) (r : Req) (k : Fin 16) (s : State) : Host.Outcome State Fault Refusal :=
  onBoth s t (fun m d => d.putOne m r (0x2840 + k) 0x07 1 2)

/-- LANE_CLEAR (R297). -/
def execLaneClear (t : Nat) (r : Req) (k : Fin 16) (s : State) : Host.Outcome State Fault Refusal :=
  onBoth s t (fun m d => d.putOne m r (0x2840 + k) 0x0C 1 1)

end Sys2Proof.Machine
end

