-- ==== Sys2Proof/Machine/Lanterns.lean ====
section
/-! DEFINITION. The meanings of the commands of the Lantern engines (chapter 13). -/

namespace Sys2Proof.Machine

/-- A write of program words from an address on (R394). -/
def Dev.programWrite (d : Dev) (m : Store Byte) (r : Req) (e first : Nat) (words : List Nat) : Dev × LoftEff :=
  let f := putFrame r (0x2C00 + e) (0x20 + first) words.length (words.flatMap (leBytes 2))
  d.sop f (Dev.sopBody m f 0 true)

/-- LANTERN_TICK (R383). -/
def execLanternTick (t : Nat) (e : Fin 8) (pins : Nat) (s : State) : Host.Outcome State Fault Refusal :=
  onDev s t (fun d => d.lanternTick e pins)

/-- FIFO_TRANSFER (R388). -/
def execFifoTransfer (t : Nat) (e : Fin 8) (tx : Bool) (s : State) : Host.Outcome State Fault Refusal :=
  onBoth s t (fun m d => d.fifoTransfer m e tx)

/-- LANTERN_ENABLE (R380). -/
def execLanternEnable (t : Nat) (r : Req) (e : Fin 8) (s : State) : Host.Outcome State Fault Refusal :=
  onBoth s t (fun m d => d.putOne m r (0x2C00 + e) 0x01 1 1)

/-- LANTERN_DISABLE (R381). -/
def execLanternDisable (t : Nat) (r : Req) (e : Fin 8) (s : State) : Host.Outcome State Fault Refusal :=
  onBoth s t (fun m d => d.putOne m r (0x2C00 + e) 0x01 1 0)

/-- PROGRAM_WRITE (R394). -/
def execProgramWrite (t : Nat) (r : Req) (e : Fin 8) (first : Fin 32) (words : List Nat) (s : State) : Host.Outcome State Fault Refusal :=
  onBoth s t (fun m d => d.programWrite m r e first words)

/-- INJECT (R395). -/
def execInject (t : Nat) (r : Req) (e : Fin 8) (word : Nat) (s : State) : Host.Outcome State Fault Refusal :=
  onBoth s t (fun m d => d.putOne m r (0x2C00 + e) 0x1A 4 word)

/-- INJECTION (R395). -/
def execInjection (t : Nat) (e : Fin 8) (pins : Nat) (s : State) : Host.Outcome State Fault Refusal :=
  onDev s t (fun d => d.injection e pins)

/-- LANTERN_CLEAR (R400). -/
def execLanternClear (t : Nat) (r : Req) (e : Fin 8) (s : State) : Host.Outcome State Fault Refusal :=
  onBoth s t (fun m d => d.putOne m r (0x2C00 + e) 0x4E 1 1)

end Sys2Proof.Machine
end

