-- ==== Sys2Proof/Machine/Memory.lean ====
section
/-! DEFINITION. The meanings of the commands of the Loft and DMA (chapter 14). -/

namespace Sys2Proof.Machine

/-- A request that LOFT_ACCESS names at an address that does not exist (R401). -/
def reqOutside (r : LoftReq) : Bool := decide (loftSize ≤ r.addr)

/-- A request that is no access of part of one word, or whose symbols do not match its size (R402). -/
def reqSpans (r : LoftReq) : Bool :=
  r.size = 0 || decide (8 < r.addr % 8 + r.size) || (match r.data with
    | some bs => decide (bs.length ≠ r.size)
    | none => false)

/-- An uncorrectable error in a core's data (R404, R460): the core is restarted, an entry goes to the event log. -/
def Dev.eccCore (d : Dev) (r : LoftReq) : Dev :=
  if 26 ≤ r.who.val ∧ r.who.val < 30 ∧ (r.ecc = 2 ∨ d.meetsBad r.addr r.size) ∧ d.coresRun ∧ (r.data.isNone ∨ r.size < 8) then
    (d.logEvent 6 (r.who.val - 26) 0xFF r.addr).coreRestart (r.who.val - 26)
  else d

/-- One access that a bank's arbiter grants (R402 to R405, R410); none while no request is pending or the slot is the
scrubber's. -/
def Dev.loftAccess (d : Dev) (b : Nat) (reqs : List LoftReq) : Dev × LoftEff :=
  if !d.pdOn 2 then (d, {})
  else
    let here := reqs.filter (fun r => decide (loftBank r.addr = b))
    match (d.lbank b).arbitrate ((here.map (·.who.val)).eraseDups) with
    | none => (d, {})
    | some (w, k) =>
      match here.find? (fun r => decide (r.who.val = w)) with
      | none => (d, {})
      | some r =>
        (((d.setLbank b k).loftGrant b r).eccCore r, match r.data with
          | some bs => { writes := [(r.addr, bs)] }
          | none => {})

/-- LOFT_ACCESS (R402). -/
def execLoftAccess (t : Nat) (bank : Fin 8) (reqs : List LoftReq) (s : State) : Host.Outcome State Fault Refusal :=
  if reqs.any reqOutside then .fault .loftAddress
  else if reqs.any reqSpans then .fault .loftSpan
  else onBoth s t (fun _ d => d.loftAccess bank reqs)

/-- SCRUB (R405). -/
def execScrub (t : Nat) (bank : Fin 8) (ecc : Fin 3) (s : State) : Host.Outcome State Fault Refusal :=
  onDev s t (fun d => d.scrub bank ecc)

/-- WINDOW (R414). -/
def execWindow (t : Nat) (f : Frame) (s : State) : Host.Outcome State Fault Refusal :=
  onBoth s t (fun m d => if f.index = 0x2D00 ∧ f.sub = 0x30 then d.frame m f (fun o => decide (1 ≤ o ∧ o ≤ 5)) 0 true else (d, {}))

/-- LOFT_CLEAR (R427). -/
def execLoftClear (t : Nat) (r : Req) (s : State) : Host.Outcome State Fault Refusal :=
  onBoth s t (fun m d => d.putOne m r 0x2D00 0x19 1 1)

/-- DMA_ARM (R418). -/
def execDmaArm (t : Nat) (r : Req) (c : Fin 16) (s : State) : Host.Outcome State Fault Refusal :=
  onBoth s t (fun m d => d.putOne m r (0x2D10 + c) 0x01 1 1)

/-- DMA_ARM_START (R418). -/
def execDmaArmStart (t : Nat) (r : Req) (c : Fin 16) (s : State) : Host.Outcome State Fault Refusal :=
  onBoth s t (fun m d => d.putOne m r (0x2D10 + c) 0x01 1 2)

/-- DMA_STOP (R422). -/
def execDmaStop (t : Nat) (r : Req) (c : Fin 16) (s : State) : Host.Outcome State Fault Refusal :=
  onBoth s t (fun m d => d.putOne m r (0x2D10 + c) 0x01 1 3)

/-- DMA_START_PULSE (R418). -/
def execDmaStartPulse (t : Nat) (c : Fin 16) (s : State) : Host.Outcome State Fault Refusal :=
  onDev s t (fun d => d.dmaStartPulse c)

/-- PACE_PULSE (R419). -/
def execPacePulse (t : Nat) (c : Fin 16) (s : State) : Host.Outcome State Fault Refusal :=
  onDev s t (fun d => d.pacePulse c)

/-- DMA_PAUSE (R420). -/
def execDmaPause (t : Nat) (r : Req) (c : Fin 16) (on : Bool) (s : State) : Host.Outcome State Fault Refusal :=
  onBoth s t (fun m d => d.putOne m r (0x2D10 + c) 0x02 1 (b2n on))

/-- DMA_ELEMENT (R415). -/
def execDmaElement (t : Nat) (c : Fin 16) (ecc : Bool) (s : State) : Host.Outcome State Fault Refusal :=
  onBoth s t (fun m d => d.dmaElement m c ecc)

/-- DMA_COMPLETE (R422). -/
def execDmaComplete (t : Nat) (c : Fin 16) (s : State) : Host.Outcome State Fault Refusal :=
  onDev s t (fun d => d.dmaComplete c)

/-- DMA_CLEAR (R428). -/
def execDmaClear (t : Nat) (r : Req) (c : Fin 16) (s : State) : Host.Outcome State Fault Refusal :=
  onBoth s t (fun m d => d.putOne m r (0x2D10 + c) 0x1E 1 1)

end Sys2Proof.Machine
end

