-- ==== Sys2Proof/Machine/Ports.lean ====
section
/-! DEFINITION. The meanings of the commands of host ports, sessions, claims and cyclic frames (chapter 02). -/

namespace Sys2Proof.Machine

/-- READ (R43). A request with an opcode that the table of chapter 02 lacks comes by this row too: it is refused (R44). -/
def execRead (t : Nat) (f : Frame) (s : State) : Host.Outcome State Fault Refusal :=
  onBoth s t (fun m d => d.frame m f (fun o => decide (o ≤ 0x01 ∨ 0x0C < o)) 0 true)

/-- WRITE (R43). -/
def execWrite (t : Nat) (f : Frame) (s : State) : Host.Outcome State Fault Refusal :=
  onBoth s t (fun m d => d.frame m f (fun o => o = 0x02) 0 true)

/-- BLOCK_START (R67). -/
def execBlockStart (t : Nat) (f : Frame) (s : State) : Host.Outcome State Fault Refusal :=
  onBoth s t (fun m d => d.frame m f (fun o => o = 0x03) 0 true)

/-- BLOCK_DATA (R65). -/
def execBlockData (t : Nat) (f : Frame) (segs : Nat) (s : State) : Host.Outcome State Fault Refusal :=
  onBoth s t (fun m d => d.frame m f (fun o => o = 0x04) segs true)

/-- BLOCK_END (R67). -/
def execBlockEnd (t : Nat) (f : Frame) (nvOk : Bool) (s : State) : Host.Outcome State Fault Refusal :=
  onBoth s t (fun m d => d.frame m f (fun o => o = 0x05) 0 nvOk)

/-- BLOCK_TIMEOUT (R66). -/
def execBlockTimeout (t : Nat) (p : Fin 6) (s : State) : Host.Outcome State Fault Refusal :=
  onDev s t (fun d => d.blockTimeout p)

/-- CLAIM (R68). -/
def execClaim (t : Nat) (f : Frame) (s : State) : Host.Outcome State Fault Refusal :=
  onBoth s t (fun m d => d.frame m f (fun o => o = 0x06) 0 true)

/-- RELEASE (R69). -/
def execRelease (t : Nat) (f : Frame) (s : State) : Host.Outcome State Fault Refusal :=
  onBoth s t (fun m d => d.frame m f (fun o => o = 0x07) 0 true)

/-- SESSION_OPEN (R58). -/
def execSessionOpen (t : Nat) (f : Frame) (s : State) : Host.Outcome State Fault Refusal :=
  onBoth s t (fun m d => d.frame m f (fun o => o = 0x08) 0 true)

/-- SESSION_CLOSE (R60). -/
def execSessionClose (t : Nat) (f : Frame) (s : State) : Host.Outcome State Fault Refusal :=
  onBoth s t (fun m d => d.frame m f (fun o => o = 0x09) 0 true)

/-- SESSION_TIMEOUT (R60). -/
def execSessionTimeout (t : Nat) (p : Fin 6) (s : State) : Host.Outcome State Fault Refusal :=
  onDev s t (fun d => d.sessionTimeout p)

/-- DOZE_LIMIT (R60). -/
def execDozeLimit (t : Nat) (p : Fin 6) (s : State) : Host.Outcome State Fault Refusal :=
  onDev s t (fun d => d.dozeLimit p)

/-- FORCE_CLOSE (R64). -/
def execForceClose (t : Nat) (r : Req) (n : Fin 6) (s : State) : Host.Outcome State Fault Refusal :=
  onBoth s t (fun m d => d.putOne m r (0x1200 + n) 0x0B 1 1)

/-- CLAIM_HOLD (R70). -/
def execClaimHold (t : Nat) (p : Fin 6) (s : State) : Host.Outcome State Fault Refusal :=
  onDev s t (fun d => d.claimHold p)

/-- DOZE (R88). -/
def execDoze (t : Nat) (f : Frame) (s : State) : Host.Outcome State Fault Refusal :=
  onBoth s t (fun m d => d.frame m f (fun o => o = 0x0A) 0 true)

/-- SLEEP_N_FALL (R88). -/
def execSleepNFall (t : Nat) (s : State) : Host.Outcome State Fault Refusal :=
  onDev s t (fun d => d.sleepNFall)

/-- SLEEP_N_RISE (R88). -/
def execSleepNRise (t : Nat) (s : State) : Host.Outcome State Fault Refusal :=
  onDev s t (fun d => d.sleepNRise)

/-- NOTIFY_ACK (R87). -/
def execNotifyAck (t : Nat) (f : Frame) (s : State) : Host.Outcome State Fault Refusal :=
  onBoth s t (fun m d => d.frame m f (fun o => o = 0x0B) 0 true)

/-- PING (R44). -/
def execPing (t : Nat) (f : Frame) (s : State) : Host.Outcome State Fault Refusal :=
  onBoth s t (fun m d => d.frame m f (fun o => o = 0 || decide (0x0C ≤ o)) 0 true)

/-- WRITE_FRAME (R47). -/
def execWriteFrame (t : Nat) (bytes : List Byte) (cut : Bool) (s : State) : Host.Outcome State Fault Refusal :=
  onDev s t (fun d => d.writeFrame bytes cut)

/-- READ_FRAME (R49). -/
def execReadFrame (t : Nat) (clocks : Nat) (s : State) : Host.Outcome State Fault Refusal :=
  onDev s t (fun d => d.readFrame clocks)

/-- STATUS (R48). -/
def execStatus (t : Nat) (s : State) : Host.Outcome State Fault Refusal :=
  onDev s t (fun d => d.spiStatusRead)

/-- CLASSICAL_DISCARD (R52). -/
def execClassicalDiscard (t : Nat) (p : Fin 6) (s : State) : Host.Outcome State Fault Refusal :=
  onDev s t (fun d => d.classicalDiscard p)

/-- BUS_OFF (R53). -/
def execBusOff (t : Nat) (p : Fin 6) (s : State) : Host.Outcome State Fault Refusal :=
  onDev s t (fun d => d.busOff p)

/-- FRAGMENTS_DISCARDED (R55). -/
def execFragmentsDiscarded (t : Nat) (p : Fin 6) (s : State) : Host.Outcome State Fault Refusal :=
  onDev s t (fun d => d.fragmentDiscard p)

/-- ARP_REQUEST (R55). -/
def execArpRequest (t : Nat) (p : Fin 6) (target : Nat) (s : State) : Host.Outcome State Fault Refusal :=
  onDev s t (fun d => d.arpRequest p target)

/-- ICMP_ECHO (R55). -/
def execIcmpEcho (t : Nat) (p : Fin 6) (target : Nat) (data : List Byte) (s : State) : Host.Outcome State Fault Refusal :=
  onDev s t (fun d => d.icmpEcho p target data)

/-- LINK_UP_FALL (R57). -/
def execLinkUpFall (t : Nat) (p : Fin 6) (s : State) : Host.Outcome State Fault Refusal :=
  onDev s t (fun d => d.linkFall p)

/-- VETO_WRITE (R76). -/
def execVetoWrite (t : Nat) (f : Frame) (s : State) : Host.Outcome State Fault Refusal :=
  onBoth s t (fun m d => if d.isVeto f then d.frame m f (fun o => o = 0x02) 0 true else (d, {}))

/-- GUARDIAN_LOCK (R74). -/
def execGuardianLock (t : Nat) (r : Req) (s : State) : Host.Outcome State Fault Refusal :=
  onBoth s t (fun m d => d.putOne m r 0x1800 0x02 1 1)

/-- CYCLIC_ENABLE (R80). -/
def execCyclicEnable (t : Nat) (r : Req) (n : Fin 64) (s : State) : Host.Outcome State Fault Refusal :=
  onBoth s t (fun m d => d.putOne m r (0x1400 + n) 0x01 1 1)

/-- CYCLIC_TIME_TRIGGER (R82). -/
def execCyclicTimeTrigger (t : Nat) (n : Fin 64) (s : State) : Host.Outcome State Fault Refusal :=
  onBoth s t (fun m d => (d.cycTime m n, {}))

/-- CYCLIC_ANGLE_TRIGGER (R82). -/
def execCyclicAngleTrigger (t : Nat) (n : Fin 64) (slot : Fin 24) (s : State) : Host.Outcome State Fault Refusal :=
  onBoth s t (fun m d => (d.cycAngleTrigger m n slot, {}))

/-- CYCLIC (R83). -/
def execCyclic (t : Nat) (n : Fin 64) (s : State) : Host.Outcome State Fault Refusal :=
  onDev s t (fun d => d.cycSend n)

/-- MOD_TIME (R86). -/
def execModTime (t : Nat) (p : Fin 6) (s : State) : Host.Outcome State Fault Refusal :=
  onDev s t (fun d => d.modTime p)

/-- NOTIFY (R86). -/
def execNotify (t : Nat) (p : Fin 6) (s : State) : Host.Outcome State Fault Refusal :=
  onDev s t (fun d => d.notify p)

/-- ACTIVATE (R97). -/
def execActivate (t : Nat) (r : Req) (s : State) : Host.Outcome State Fault Refusal :=
  onBoth s t (fun m d => d.putOne m r 0x1030 0x03 1 1)

end Sys2Proof.Machine
end

