-- ==== Sys2Proof/Machine/Scan.lean ====
section
/-! DEFINITION. The meanings of the commands of the test access port (chapter 18). -/

namespace Sys2Proof.Machine

/-- EXTEST (R516). -/
def execExtest (t : Nat) (cells : List Bool) (s : State) : Host.Outcome State Fault Refusal :=
  onDev s t (fun d => d.tapExtest cells)

/-- SAMPLE_PRELOAD (R515). -/
def execSamplePreload (t : Nat) (pins : List Bool) (cells : List Bool) (s : State) : Host.Outcome State Fault Refusal :=
  onDev s t (fun d => d.tapSample pins cells)

/-- IDCODE (R515). -/
def execIdcode (t : Nat) (s : State) : Host.Outcome State Fault Refusal :=
  onDev s t (fun d => d.tapIdcode)

/-- CLAMP (R516). -/
def execClamp (t : Nat) (s : State) : Host.Outcome State Fault Refusal :=
  onDev s t (fun d => d.tapClamp)

/-- HIGHZ (R516). -/
def execHighz (t : Nat) (s : State) : Host.Outcome State Fault Refusal :=
  onDev s t (fun d => d.tapHighz)

/-- BYPASS (R515). -/
def execBypass (t : Nat) (s : State) : Host.Outcome State Fault Refusal :=
  onDev s t (fun d => d.tapBypass)

/-- TEST_LOGIC_RESET (R515). -/
def execTestLogicReset (t : Nat) (s : State) : Host.Outcome State Fault Refusal :=
  onDev s t (fun d => d.tapReset)

end Sys2Proof.Machine
end

