-- ==== Sys2Proof/Machine/Shots.lean ====
section
/-! DEFINITION. The meanings of the commands of sheaves and shots (chapter 06). -/

namespace Sys2Proof.Machine

/-- LOCK_POINT (R216). -/
def execLockPoint (t : Nat) (s_ : Fin 1024) (stale : Bool) (s : State) : Host.Outcome State Fault Refusal :=
  onDev s t (fun d => d.lockPoint s_ stale)

/-- SHOT_START (R245). -/
def execShotStart (t : Nat) (s_ : Fin 1024) (cur : Nat) (s : State) : Host.Outcome State Fault Refusal :=
  onDev s t (fun d => d.shotStart s_ cur)

/-- PROGRAMMED_END (R247). -/
def execProgrammedEnd (t : Nat) (s_ : Fin 1024) (s : State) : Host.Outcome State Fault Refusal :=
  onDev s t (fun d => d.programmedEnd s_)

/-- WRITE_APPLICATION (R224). -/
def execWriteApplication (t : Nat) (s : State) : Host.Outcome State Fault Refusal :=
  onDev s t (fun d => d.writeApply)

/-- SHOT_CANCEL (R227). -/
def execShotCancel (t : Nat) (r : Req) (s_ : Fin 1024) (s : State) : Host.Outcome State Fault Refusal :=
  onBoth s t (fun m d => d.putOne m r (0x3000 + s_) 0x11 1 1)

/-- SHOT_CANCEL_DISABLE (R227). -/
def execShotCancelDisable (t : Nat) (r : Req) (s_ : Fin 1024) (s : State) : Host.Outcome State Fault Refusal :=
  onBoth s t (fun m d => d.putOne m r (0x3000 + s_) 0x11 1 2)

/-- SHEAF_CANCEL (R227). -/
def execSheafCancel (t : Nat) (r : Req) (h : Fin 512) (s : State) : Host.Outcome State Fault Refusal :=
  onBoth s t (fun m d => d.putOne m r (0x2400 + h) 0x0E 1 1)

/-- SHEAF_CANCEL_DISABLE (R227). -/
def execSheafCancelDisable (t : Nat) (r : Req) (h : Fin 512) (s : State) : Host.Outcome State Fault Refusal :=
  onBoth s t (fun m d => d.putOne m r (0x2400 + h) 0x0E 1 2)

/-- CANCEL_ALL (R227). -/
def execCancelAll (t : Nat) (r : Req) (k : Fin 2) (s : State) : Host.Outcome State Fault Refusal :=
  onBoth s t (fun m d => d.putOne m r (0x2180 + k) 0x34 1 1)

/-- SCHED_CLEAR (R237). -/
def execSchedClear (t : Nat) (r : Req) (k : Fin 2) (s : State) : Host.Outcome State Fault Refusal :=
  onBoth s t (fun m d => d.putOne m r (0x2180 + k) 0x3E 1 1)

end Sys2Proof.Machine
end

