-- ==== Sys2Proof/Machine/Signals.lean ====
section
/-! DEFINITION. The meanings of the commands of interrupts, the Nightlight, mailboxes and doorbells (chapter 15). -/

namespace Sys2Proof.Machine

/-- A write of a message to a mailbox (R445). -/
def Dev.sendTo (d : Dev) (m : Store Byte) (r : Req) (box : Nat) (data : List Byte) : Dev × LoftEff :=
  let f := putFrame r (0x2E40 + box) 0x04 1 data
  d.sop f (Dev.sopBody m f 0 true)

/-- PRESENTATION (R435). -/
def execPresentation (t : Nat) (c : Fin 4) (s : State) : Host.Outcome State Fault Refusal :=
  onDev s t (fun d => d.presentation c)

/-- CORE_TAKE (R435). -/
def execCoreTake (t : Nat) (c : Fin 4) (s : State) : Host.Outcome State Fault Refusal :=
  onDev s t (fun d => d.coreTake c)

/-- CORE_COMPLETE (R435). -/
def execCoreComplete (t : Nat) (c : Fin 4) (src : Fin 128) (s : State) : Host.Outcome State Fault Refusal :=
  onDev s t (fun d => d.coreComplete c src)

/-- STACK_RESET (R439). -/
def execStackReset (t : Nat) (r : Req) (c : Fin 4) (s : State) : Host.Outcome State Fault Refusal :=
  onBoth s t (fun m d => d.putOne m r (0x2E10 + c) 0x08 1 1)

/-- ROUTE_LOCK (R432). -/
def execRouteLock (t : Nat) (r : Req) (s : State) : Host.Outcome State Fault Refusal :=
  onBoth s t (fun m d => d.putOne m r 0x2E00 0x01 1 1)

/-- IRQ_CLEAR (R451). -/
def execIrqClear (t : Nat) (r : Req) (s : State) : Host.Outcome State Fault Refusal :=
  onBoth s t (fun m d => d.putOne m r 0x2E00 0x07 1 1)

/-- STACK_CLEAR (R452). -/
def execStackClear (t : Nat) (r : Req) (c : Fin 4) (s : State) : Host.Outcome State Fault Refusal :=
  onBoth s t (fun m d => d.putOne m r (0x2E10 + c) 0x09 1 1)

/-- WATCH_FIRE (R441). -/
def execWatchFire (t : Nat) (w : Fin 16) (s : State) : Host.Outcome State Fault Refusal :=
  onDev s t (fun d => d.watchFire w)

/-- HATTN_RELEASE (R442). -/
def execHattnRelease (t : Nat) (p : Fin 6) (s : State) : Host.Outcome State Fault Refusal :=
  onDev s t (fun d => d.hattnRelease p)

/-- SEND (R445). -/
def execSend (t : Nat) (r : Req) (mb : Fin 32) (data : List Byte) (s : State) : Host.Outcome State Fault Refusal :=
  onBoth s t (fun m d => d.sendTo m r mb data)

/-- TAKE (R446). -/
def execTake (t : Nat) (r : Req) (mb : Fin 32) (s : State) : Host.Outcome State Fault Refusal :=
  onBoth s t (fun m d => d.getOne m r (0x2E40 + mb) 0x05)

/-- PAIR_LOCK (R444). -/
def execPairLock (t : Nat) (r : Req) (s : State) : Host.Outcome State Fault Refusal :=
  onBoth s t (fun m d => d.putOne m r 0x2E60 0x01 1 1)

/-- RING (R448). -/
def execRing (t : Nat) (r : Req) (mask : Nat) (s : State) : Host.Outcome State Fault Refusal :=
  onBoth s t (fun m d => d.putOne m r 0x2E60 0x04 2 mask)

/-- ANSWER (R448). -/
def execAnswer (t : Nat) (r : Req) (mask : Nat) (s : State) : Host.Outcome State Fault Refusal :=
  onBoth s t (fun m d => d.putOne m r 0x2E60 0x05 2 mask)

end Sys2Proof.Machine
end

