-- ==== Sys2Proof/Machine/Start.lean ====
section
/-! DEFINITION. The meanings of the commands of resets, power and the non-volatile store (chapters 16 and 17). -/

namespace Sys2Proof.Machine

/-- POWER_ON (R456). -/
def execPowerOn (t : Nat) (s : State) : Host.Outcome State Fault Refusal :=
  onDev s t (fun d => d.powerOn)

/-- BROWN_OUT (R456). -/
def execBrownOut (t : Nat) (pd : Fin 14) (s : State) : Host.Outcome State Fault Refusal :=
  onDev s t (fun d => d.brownOut pd)

/-- RESET_N (R456). -/
def execResetN (t : Nat) (s : State) : Host.Outcome State Fault Refusal :=
  onDev s t (fun d => d.resetN)

/-- WATCHDOG (R456). -/
def execWatchdog (t : Nat) (c : Fin 4) (s : State) : Host.Outcome State Fault Refusal :=
  onDev s t (fun d => d.watchdog c)

/-- PHASE_P1 (R461). -/
def execPhaseP1 (t : Nat) (s : State) : Host.Outcome State Fault Refusal :=
  onDev s t (fun d => d.phaseP1)

/-- PHASE_P2 (R461). -/
def execPhaseP2 (t : Nat) (refIn : RefClock) (crystal : Bool) (worst : Nat) (s : State) : Host.Outcome State Fault Refusal :=
  onDev s t (fun d => d.phaseP2 refIn.edges refIn.kHz crystal worst)

/-- OPT_CONVERSION (R463). -/
def execOptConversion (t : Nat) (code : Fin 16) (s : State) : Host.Outcome State Fault Refusal :=
  onDev s t (fun d => d.optConversion code)

/-- PHASE_P3 (R461). -/
def execPhaseP3 (t : Nat) (ms4 : Bool) (ms5 : Bool) (testmode : Bool) (s : State) : Host.Outcome State Fault Refusal :=
  onDev s t (fun d => d.phaseP3 ms4 ms5 testmode)

/-- PHASE_P4 (R461). -/
def execPhaseP4 (t : Nat) (s : State) : Host.Outcome State Fault Refusal :=
  onDev s t (fun d => d.phaseP4)

/-- PHASE_P5 (R470). -/
def execPhaseP5 (t : Nat) (bad : Option (Fin 14)) (s : State) : Host.Outcome State Fault Refusal :=
  onBoth s t (fun _ d => d.phaseP5 (bad.map (·.val)))

/-- PHASE_P6 (R478). -/
def execPhaseP6 (t : Nat) (okA : Bool) (okB : Bool) (s : State) : Host.Outcome State Fault Refusal :=
  onBoth s t (fun _ d => d.phaseP6 okA okB)

/-- PHASE_P7 (R480). -/
def execPhaseP7 (t : Nat) (s : State) : Host.Outcome State Fault Refusal :=
  onDev s t (fun d => d.phaseP7)

/-- PHASE_P8 (R462). -/
def execPhaseP8 (t : Nat) (s : State) : Host.Outcome State Fault Refusal :=
  onDev s t (fun d => d.phaseP8)

/-- HOLD_RELEASE_SCHEDULES (R464). -/
def execHoldReleaseSchedules (t : Nat) (r : Req) (s : State) : Host.Outcome State Fault Refusal :=
  onBoth s t (fun m d => d.putOne m r 0x2F00 0x03 1 1)

/-- HOLD_RELEASE_DEFAULTS (R464). -/
def execHoldReleaseDefaults (t : Nat) (r : Req) (s : State) : Host.Outcome State Fault Refusal :=
  onBoth s t (fun m d => d.putOne m r 0x2F00 0x03 1 2)

/-- DEVICE_RESET (R467). -/
def execDeviceReset (t : Nat) (r : Req) (s : State) : Host.Outcome State Fault Refusal :=
  onBoth s t (fun m d => d.putOne m r 0x2F00 0x07 1 1)

/-- DOMAIN_RESET (R468). -/
def execDomainReset (t : Nat) (r : Req) (v : Fin 256) (s : State) : Host.Outcome State Fault Refusal :=
  onBoth s t (fun m d => d.putOne m r 0x2F00 0x08 1 v)

/-- DOMAIN_RESTORE (R466). -/
def execDomainRestore (t : Nat) (s : State) : Host.Outcome State Fault Refusal :=
  onDev s t (fun d => d.domainRestore)

/-- DOMAIN_REQ (R471). -/
def execDomainReq (t : Nat) (r : Req) (v : Nat) (s : State) : Host.Outcome State Fault Refusal :=
  onBoth s t (fun m d => d.putOne m r 0x2F10 0x02 2 v)

/-- SLEEP (R472). -/
def execSleep (t : Nat) (r : Req) (s : State) : Host.Outcome State Fault Refusal :=
  onBoth s t (fun m d => d.putOne m r 0x2F10 0x03 1 1)

/-- SUPPLY_LOW (R473). -/
def execSupplyLow (t : Nat) (s : State) : Host.Outcome State Fault Refusal :=
  onDev s t (fun d => d.supplyLow)

/-- SUPPLY_LOW_CLEAR (R473). -/
def execSupplyLowClear (t : Nat) (s : State) : Host.Outcome State Fault Refusal :=
  onDev s t (fun d => d.supplyBack)

/-- POWER_CLEAR (R487). -/
def execPowerClear (t : Nat) (r : Req) (s : State) : Host.Outcome State Fault Refusal :=
  onBoth s t (fun m d => d.putOne m r 0x2F10 0x09 1 1)

/-- COMMIT_PERSISTENT (R481). -/
def execCommitPersistent (t : Nat) (r : Req) (s : State) : Host.Outcome State Fault Refusal :=
  onBoth s t (fun m d => d.putOne m r 0x2F20 0x01 1 1)

/-- COMMIT_EMPTY (R481). -/
def execCommitEmpty (t : Nat) (r : Req) (s : State) : Host.Outcome State Fault Refusal :=
  onBoth s t (fun m d => d.putOne m r 0x2F20 0x01 1 2)

/-- COMMIT_LEARNED (R481). -/
def execCommitLearned (t : Nat) (r : Req) (s : State) : Host.Outcome State Fault Refusal :=
  onBoth s t (fun m d => d.putOne m r 0x2F20 0x01 1 3)

/-- NV_WRITE_DONE (R476). -/
def execNvWriteDone (t : Nat) (pair : Fin 4) (readOk : Bool) (s : State) : Host.Outcome State Fault Refusal :=
  onDev s t (fun d => d.nvWriteDone (2 * pair) readOk false)

/-- TOKEN_REFILL (R482). -/
def execTokenRefill (t : Nat) (learned : Bool) (s : State) : Host.Outcome State Fault Refusal :=
  onDev s t (fun d => d.tokenRefill learned)

/-- LEARNED_WRITE (R482). -/
def execLearnedWrite (t : Nat) (s : State) : Host.Outcome State Fault Refusal :=
  onDev s t (fun d => d.learnedWrite)

/-- EXPORT (R497). -/
def execLearnedExport (t : Nat) (f : Frame) (s : State) : Host.Outcome State Fault Refusal :=
  onBoth s t (fun m d => if f.index = 0x5000 ∧ f.sub = 0x01 then d.frame m f (fun o => decide (3 ≤ o ∧ o ≤ 5)) 0 true else (d, {}))

/-- IMPORT (R498). -/
def execLearnedImport (t : Nat) (f : Frame) (s : State) : Host.Outcome State Fault Refusal :=
  onBoth s t (fun m d => if f.index = 0x5000 ∧ f.sub = 0x02 then d.frame m f (fun o => decide (3 ≤ o ∧ o ≤ 5)) 0 true else (d, {}))

/-- IMPORT_SAVE (R500). -/
def execImportSave (t : Nat) (readOk : Bool) (s : State) : Host.Outcome State Fault Refusal :=
  onDev s t (fun d => d.nvWriteDone 6 readOk true)

end Sys2Proof.Machine
end

