-- ==== Sys2Proof/Machine/Stops.lean ====
section
/-! DEFINITION. The meanings of the commands of drive protection (chapter 09). -/

namespace Sys2Proof.Machine

/-- OPEN_LOAD (R303). -/
def execOpenLoad (t : Nat) (n : Fin 48) (cur : Nat) (s : State) : Host.Outcome State Fault Refusal :=
  onDev s t (fun d => d.openLoad n cur)

/-- SHORT_TO_BATTERY (R303). -/
def execShortToBattery (t : Nat) (n : Fin 48) (desat : Bool) (s : State) : Host.Outcome State Fault Refusal :=
  onDev s t (fun d => d.shortBattery n desat)

/-- SHORT_TO_GROUND (R303). -/
def execShortToGround (t : Nat) (n : Fin 48) (s : State) : Host.Outcome State Fault Refusal :=
  onDev s t (fun d => d.shortGround n)

/-- BANK_SWITCH_FAILURE (R303). -/
def execBankSwitchFailure (t : Nat) (b : Fin 16) (kind : Fin 3) (s : State) : Host.Outcome State Fault Refusal :=
  onDev s t (fun d => d.bankFailure b kind)

/-- TEMPERATURE_SAMPLE (R303). -/
def execTemperatureSample (t : Nat) (drivers : List Int) (power : Int) (core : Int) (s : State) : Host.Outcome State Fault Refusal :=
  onDev s t (fun d => d.temperature drivers power core)

/-- BOOST_OVER_VOLTAGE (R303). -/
def execBoostOverVoltage (t : Nat) (x : Fin 2) (mv : Nat) (s : State) : Host.Outcome State Fault Refusal :=
  onDev s t (fun d => d.overVoltage x mv)

/-- BOOST_FAULT (R303). -/
def execBoostFault (t : Nat) (x : Fin 2) (s : State) : Host.Outcome State Fault Refusal :=
  onDev s t (fun d => d.boostFault x)

/-- KEEP_ALIVE (R22). -/
def execKeepAlive (t : Nat) (s : State) : Host.Outcome State Fault Refusal :=
  onDev s t (fun d => d.keepAlive)

/-- DIE_LINK_LOSS (R22). -/
def execDieLinkLoss (t : Nat) (s : State) : Host.Outcome State Fault Refusal :=
  onDev s t (fun d => d.dieLinkLoss)

/-- ARM_N_RISE (R300). -/
def execArmNRise (t : Nat) (s : State) : Host.Outcome State Fault Refusal :=
  onDev s t (fun d => d.armNRise)

/-- ARM_N_FALL (R300). -/
def execArmNFall (t : Nat) (s : State) : Host.Outcome State Fault Refusal :=
  onDev s t (fun d => d.armNFall)

/-- ARM_N_RELEASE (R300). -/
def execArmNRelease (t : Nat) (s : State) : Host.Outcome State Fault Refusal :=
  onDev s t (fun d => d.armNRelease)

/-- KILL_N_FALL (R301). -/
def execKillNFall (t : Nat) (s : State) : Host.Outcome State Fault Refusal :=
  onDev s t (fun d => d.killNFall)

/-- KILL_N_RISE (R301). -/
def execKillNRise (t : Nat) (s : State) : Host.Outcome State Fault Refusal :=
  onDev s t (fun d => d.killNRise)

/-- CHANNEL_CLEAR_FAULT (R306). -/
def execChannelClearFault (t : Nat) (r : Req) (n : Fin 48) (s : State) : Host.Outcome State Fault Refusal :=
  onBoth s t (fun m d => d.putOne m r (0x2880 + n) 0x13 1 1)

/-- BANK_CLEAR_FAULT (R306). -/
def execBankClearFault (t : Nat) (r : Req) (b : Fin 16) (s : State) : Host.Outcome State Fault Refusal :=
  onBoth s t (fun m d => d.putOne m r (0x28B0 + b) 0x09 1 1)

/-- CHANNEL_DIAG_CLEAR (R314). -/
def execChannelDiagClear (t : Nat) (r : Req) (n : Fin 48) (s : State) : Host.Outcome State Fault Refusal :=
  onBoth s t (fun m d => d.putOne m r (0x2880 + n) 0x14 1 1)

/-- BANK_DIAG_CLEAR (R315). -/
def execBankDiagClear (t : Nat) (r : Req) (b : Fin 16) (s : State) : Host.Outcome State Fault Refusal :=
  onBoth s t (fun m d => d.putOne m r (0x28B0 + b) 0x0A 1 1)

/-- BOOST_DIAG_CLEAR (R316). -/
def execBoostDiagClear (t : Nat) (r : Req) (x : Fin 2) (s : State) : Host.Outcome State Fault Refusal :=
  onBoth s t (fun m d => d.putOne m r (0x28C0 + x) 0x08 1 1)

/-- DRIVE_PROTECTION_CLEAR (R317). -/
def execDriveProtectionClear (t : Nat) (r : Req) (s : State) : Host.Outcome State Fault Refusal :=
  onBoth s t (fun m d => d.putOne m r 0x28C8 0x0A 1 1)

/-- DRIVE_GROUP_IDLE (R308). -/
def execDriveGroupIdle (t : Nat) (s : State) : Host.Outcome State Fault Refusal :=
  onDev s t (fun d => d.driveGroupIdle)

/-- DRIVE_RESET_TIMEOUT (R308). -/
def execDriveResetTimeout (t : Nat) (s : State) : Host.Outcome State Fault Refusal :=
  onDev s t (fun d => d.driveResetTimeout)

end Sys2Proof.Machine
end

