-- ==== Sys2Proof/Machine/Wheels.lean ====
section
/-! DEFINITION. The meanings of the commands of wheel inputs and synchronisation (chapter 04). -/

namespace Sys2Proof.Machine

/-- THRESHOLD_CROSSING (R121). -/
def execThresholdCrossing (t : Nat) (n : Fin 8) (mv : Int) (peak : Nat) (s : State) : Host.Outcome State Fault Refusal :=
  onDev s t (fun d => d.threshold n mv peak)

/-- ARMING_FALLBACK (R122). -/
def execArmingFallback (t : Nat) (n : Fin 8) (s : State) : Host.Outcome State Fault Refusal :=
  onDev s t (fun d => d.armingFallback n)

/-- MIN_PULSE_FILTER (R126). -/
def execMinPulseFilter (t : Nat) (n : Fin 8) (s : State) : Host.Outcome State Fault Refusal :=
  onDev s t (fun d => d.minPulse n)

/-- STALL (R133). -/
def execStall (t : Nat) (k : Fin 2) (s : State) : Host.Outcome State Fault Refusal :=
  onDev s t (fun d => d.stall k)

/-- CRANK_ABSENT (R148). -/
def execCrankAbsent (t : Nat) (k : Fin 2) (s : State) : Host.Outcome State Fault Refusal :=
  onDev s t (fun d => d.crankAbsent k)

/-- CAM_ABSENT (R149). -/
def execCamAbsent (t : Nat) (k : Fin 2) (s : State) : Host.Outcome State Fault Refusal :=
  onDev s t (fun d => d.camAbsent k)

/-- CAM_SEARCH_REVS (R149). -/
def execCamSearchRevs (t : Nat) (k : Fin 2) (s : State) : Host.Outcome State Fault Refusal :=
  onDev s t (fun d => d.camSearchRevs k)

/-- LOSS_DWELL (R153). -/
def execLossDwell (t : Nat) (k : Fin 2) (s : State) : Host.Outcome State Fault Refusal :=
  onDev s t (fun d => d.lossDwell k)

/-- AUX_SPEED_TIMEOUT (R161). -/
def execAuxSpeedTimeout (t : Nat) (n : Fin 8) (s : State) : Host.Outcome State Fault Refusal :=
  onDev s t (fun d => d.auxTimeout n)

/-- ARM (R162). -/
def execArm (t : Nat) (r : Req) (k : Fin 2) (s : State) : Host.Outcome State Fault Refusal :=
  onBoth s t (fun m d => d.putOne m r (0x2180 + k) 0x0F 1 1)

/-- DISARM (R162). -/
def execDisarm (t : Nat) (r : Req) (k : Fin 2) (s : State) : Host.Outcome State Fault Refusal :=
  onBoth s t (fun m d => d.putOne m r (0x2180 + k) 0x0F 1 2)

/-- WHEEL_CLEAR (R165). -/
def execWheelClear (t : Nat) (r : Req) (n : Fin 8) (s : State) : Host.Outcome State Fault Refusal :=
  onBoth s t (fun m d => d.putOne m r (0x2100 + n) 0x12 1 1)

/-- DOMAIN_CLEAR (R166). -/
def execDomainClear (t : Nat) (r : Req) (k : Fin 2) (s : State) : Host.Outcome State Fault Refusal :=
  onBoth s t (fun m d => d.putOne m r (0x2180 + k) 0x1C 1 1)

end Sys2Proof.Machine
end

