-- ==== Sys2Proof/Machine/Dispatch.lean ====
section
/-! DEFINITION. The effect of a command: one arm for each constructor, each one call of its meaning. -/

namespace Sys2Proof.Machine

/-- The effect of a command on everything but the queue. -/
def exec (i : Instr) (s : State) : Host.Outcome State Fault Refusal :=
  match i with
  | .read t f => Sys2Proof.Machine.execRead t f s
  | .write t f => Sys2Proof.Machine.execWrite t f s
  | .blockStart t f => Sys2Proof.Machine.execBlockStart t f s
  | .blockData t f segs => Sys2Proof.Machine.execBlockData t f segs s
  | .blockEnd t f nvOk => Sys2Proof.Machine.execBlockEnd t f nvOk s
  | .blockTimeout t p => Sys2Proof.Machine.execBlockTimeout t p s
  | .claim t f => Sys2Proof.Machine.execClaim t f s
  | .release t f => Sys2Proof.Machine.execRelease t f s
  | .sessionOpen t f => Sys2Proof.Machine.execSessionOpen t f s
  | .sessionClose t f => Sys2Proof.Machine.execSessionClose t f s
  | .sessionTimeout t p => Sys2Proof.Machine.execSessionTimeout t p s
  | .dozeLimit t p => Sys2Proof.Machine.execDozeLimit t p s
  | .forceClose t r n => Sys2Proof.Machine.execForceClose t r n s
  | .claimHold t p => Sys2Proof.Machine.execClaimHold t p s
  | .doze t f => Sys2Proof.Machine.execDoze t f s
  | .sleepNFall t => Sys2Proof.Machine.execSleepNFall t s
  | .sleepNRise t => Sys2Proof.Machine.execSleepNRise t s
  | .notifyAck t f => Sys2Proof.Machine.execNotifyAck t f s
  | .ping t f => Sys2Proof.Machine.execPing t f s
  | .writeFrame t bytes cut => Sys2Proof.Machine.execWriteFrame t bytes cut s
  | .readFrame t clocks => Sys2Proof.Machine.execReadFrame t clocks s
  | .status t => Sys2Proof.Machine.execStatus t s
  | .classicalDiscard t p => Sys2Proof.Machine.execClassicalDiscard t p s
  | .busOff t p => Sys2Proof.Machine.execBusOff t p s
  | .fragmentsDiscarded t p => Sys2Proof.Machine.execFragmentsDiscarded t p s
  | .arpRequest t p target => Sys2Proof.Machine.execArpRequest t p target s
  | .icmpEcho t p target data => Sys2Proof.Machine.execIcmpEcho t p target data s
  | .linkUpFall t p => Sys2Proof.Machine.execLinkUpFall t p s
  | .vetoWrite t f => Sys2Proof.Machine.execVetoWrite t f s
  | .guardianLock t r => Sys2Proof.Machine.execGuardianLock t r s
  | .cyclicEnable t r n => Sys2Proof.Machine.execCyclicEnable t r n s
  | .cyclicTimeTrigger t n => Sys2Proof.Machine.execCyclicTimeTrigger t n s
  | .cyclicAngleTrigger t n slot => Sys2Proof.Machine.execCyclicAngleTrigger t n slot s
  | .cyclic t n => Sys2Proof.Machine.execCyclic t n s
  | .modTime t p => Sys2Proof.Machine.execModTime t p s
  | .notify t p => Sys2Proof.Machine.execNotify t p s
  | .activate t r => Sys2Proof.Machine.execActivate t r s
  | .refLoss t => Sys2Proof.Machine.execRefLoss t s
  | .refRestore t refs => Sys2Proof.Machine.execRefRestore t refs s
  | .relockDone t => Sys2Proof.Machine.execRelockDone t s
  | .vernierCalibration t worst => Sys2Proof.Machine.execVernierCalibration t worst s
  | .clearFlags t r => Sys2Proof.Machine.execClearFlags t r s
  | .thresholdCrossing t n mv peak => Sys2Proof.Machine.execThresholdCrossing t n mv peak s
  | .armingFallback t n => Sys2Proof.Machine.execArmingFallback t n s
  | .minPulseFilter t n => Sys2Proof.Machine.execMinPulseFilter t n s
  | .stall t k => Sys2Proof.Machine.execStall t k s
  | .crankAbsent t k => Sys2Proof.Machine.execCrankAbsent t k s
  | .camAbsent t k => Sys2Proof.Machine.execCamAbsent t k s
  | .camSearchRevs t k => Sys2Proof.Machine.execCamSearchRevs t k s
  | .lossDwell t k => Sys2Proof.Machine.execLossDwell t k s
  | .auxSpeedTimeout t n => Sys2Proof.Machine.execAuxSpeedTimeout t n s
  | .arm t r k => Sys2Proof.Machine.execArm t r k s
  | .disarm t r k => Sys2Proof.Machine.execDisarm t r k s
  | .wheelClear t r n => Sys2Proof.Machine.execWheelClear t r n s
  | .domainClear t r k => Sys2Proof.Machine.execDomainClear t r k s
  | .learnCmdStart t r k => Sys2Proof.Machine.execLearnCmdStart t r k s
  | .learnCmdAbort t r k => Sys2Proof.Machine.execLearnCmdAbort t r k s
  | .tableCompute t k => Sys2Proof.Machine.execTableCompute t k s
  | .learnTimeout t k => Sys2Proof.Machine.execLearnTimeout t k s
  | .toothTableClear t r k => Sys2Proof.Machine.execToothTableClear t r k s
  | .refit t k finished more => Sys2Proof.Machine.execRefit t k finished more s
  | .inertiaUpdate t k => Sys2Proof.Machine.execInertiaUpdate t k s
  | .markFreeze t k mk => Sys2Proof.Machine.execMarkFreeze t k mk s
  | .markFire t k mk => Sys2Proof.Machine.execMarkFire t k mk s
  | .synthClear t r k => Sys2Proof.Machine.execSynthClear t r k s
  | .lockPoint t shot stale => Sys2Proof.Machine.execLockPoint t shot stale s
  | .shotStart t shot cur => Sys2Proof.Machine.execShotStart t shot cur s
  | .programmedEnd t shot => Sys2Proof.Machine.execProgrammedEnd t shot s
  | .writeApplication t => Sys2Proof.Machine.execWriteApplication t s
  | .shotCancel t r shot => Sys2Proof.Machine.execShotCancel t r shot s
  | .shotCancelDisable t r shot => Sys2Proof.Machine.execShotCancelDisable t r shot s
  | .sheafCancel t r h => Sys2Proof.Machine.execSheafCancel t r h s
  | .sheafCancelDisable t r h => Sys2Proof.Machine.execSheafCancelDisable t r h s
  | .cancelAll t r k => Sys2Proof.Machine.execCancelAll t r k s
  | .schedClear t r k => Sys2Proof.Machine.execSchedClear t r k s
  | .boostCurrentEnd t n => Sys2Proof.Machine.execBoostCurrentEnd t n s
  | .boostTimeEnd t n cur => Sys2Proof.Machine.execBoostTimeEnd t n cur s
  | .peakEnd t n cur => Sys2Proof.Machine.execPeakEnd t n cur s
  | .regulationUpper t n => Sys2Proof.Machine.execRegulationUpper t n s
  | .regulationLower t n => Sys2Proof.Machine.execRegulationLower t n s
  | .decayEnd t n => Sys2Proof.Machine.execDecayEnd t n s
  | .decayTimeout t n => Sys2Proof.Machine.execDecayTimeout t n s
  | .deadTime t b cur => Sys2Proof.Machine.execDeadTime t b cur s
  | .maxDefer t n => Sys2Proof.Machine.execMaxDefer t n s
  | .tReadyMax t n => Sys2Proof.Machine.execTReadyMax t n s
  | .readyRise t x mv => Sys2Proof.Machine.execReadyRise t x mv s
  | .readyFall t x mv => Sys2Proof.Machine.execReadyFall t x mv s
  | .boostPeriod t x mv => Sys2Proof.Machine.execBoostPeriod t x mv s
  | .boostGateOff t x limit => Sys2Proof.Machine.execBoostGateOff t x limit s
  | .railEnable t r x => Sys2Proof.Machine.execRailEnable t r x s
  | .railDisable t r x => Sys2Proof.Machine.execRailDisable t r x s
  | .softStartDone t x mv => Sys2Proof.Machine.execSoftStartDone t x mv s
  | .mapLock t r b => Sys2Proof.Machine.execMapLock t r b s
  | .channelClear t r n => Sys2Proof.Machine.execChannelClear t r n s
  | .bankClear t r b => Sys2Proof.Machine.execBankClear t r b s
  | .boostClear t r x => Sys2Proof.Machine.execBoostClear t r x s
  | .openLoad t n cur => Sys2Proof.Machine.execOpenLoad t n cur s
  | .shortToBattery t n desat => Sys2Proof.Machine.execShortToBattery t n desat s
  | .shortToGround t n => Sys2Proof.Machine.execShortToGround t n s
  | .bankSwitchFailure t b kind => Sys2Proof.Machine.execBankSwitchFailure t b kind s
  | .temperatureSample t drivers power core => Sys2Proof.Machine.execTemperatureSample t drivers power core s
  | .boostOverVoltage t x mv => Sys2Proof.Machine.execBoostOverVoltage t x mv s
  | .boostFault t x => Sys2Proof.Machine.execBoostFault t x s
  | .keepAlive t => Sys2Proof.Machine.execKeepAlive t s
  | .dieLinkLoss t => Sys2Proof.Machine.execDieLinkLoss t s
  | .armNRise t => Sys2Proof.Machine.execArmNRise t s
  | .armNFall t => Sys2Proof.Machine.execArmNFall t s
  | .armNRelease t => Sys2Proof.Machine.execArmNRelease t s
  | .killNFall t => Sys2Proof.Machine.execKillNFall t s
  | .killNRise t => Sys2Proof.Machine.execKillNRise t s
  | .channelClearFault t r n => Sys2Proof.Machine.execChannelClearFault t r n s
  | .bankClearFault t r b => Sys2Proof.Machine.execBankClearFault t r b s
  | .channelDiagClear t r n => Sys2Proof.Machine.execChannelDiagClear t r n s
  | .bankDiagClear t r b => Sys2Proof.Machine.execBankDiagClear t r b s
  | .boostDiagClear t r x => Sys2Proof.Machine.execBoostDiagClear t r x s
  | .driveProtectionClear t r => Sys2Proof.Machine.execDriveProtectionClear t r s
  | .driveGroupIdle t => Sys2Proof.Machine.execDriveGroupIdle t s
  | .driveResetTimeout t => Sys2Proof.Machine.execDriveResetTimeout t s
  | .captureStart t k => Sys2Proof.Machine.execCaptureStart t k s
  | .laneOverrun t k => Sys2Proof.Machine.execLaneOverrun t k s
  | .captureEnd t k xs => Sys2Proof.Machine.execCaptureEnd t k xs s
  | .kinkSearch t k => Sys2Proof.Machine.execKinkSearch t k s
  | .resultWrite t n => Sys2Proof.Machine.execResultWrite t n s
  | .shotLearning t n => Sys2Proof.Machine.execShotLearning t n s
  | .resetLearning t r n mask => Sys2Proof.Machine.execResetLearning t r n mask s
  | .closureClear t r n => Sys2Proof.Machine.execClosureClear t r n s
  | .laneHold t r k => Sys2Proof.Machine.execLaneHold t r k s
  | .laneRelease t r k => Sys2Proof.Machine.execLaneRelease t r k s
  | .laneClear t r k => Sys2Proof.Machine.execLaneClear t r k s
  | .pressureSample t codes => Sys2Proof.Machine.execPressureSample t codes s
  | .cycleResults t c => Sys2Proof.Machine.execCycleResults t c s
  | .pressureClear t r c => Sys2Proof.Machine.execPressureClear t r c s
  | .vibrationSample t v code => Sys2Proof.Machine.execVibrationSample t v code s
  | .vibrationClear t r v => Sys2Proof.Machine.execVibrationClear t r v s
  | .liveTransition t n lower level => Sys2Proof.Machine.execLiveTransition t n lower level s
  | .blankingWindowOpen t n => Sys2Proof.Machine.execBlankingWindowOpen t n s
  | .blankingWindowClose t n => Sys2Proof.Machine.execBlankingWindowClose t n s
  | .comparatorClear t r n => Sys2Proof.Machine.execComparatorClear t r n s
  | .rampReset t k => Sys2Proof.Machine.execRampReset t k s
  | .rampStart t r k => Sys2Proof.Machine.execRampStart t r k s
  | .rampEnd t k => Sys2Proof.Machine.execRampEnd t k s
  | .timerTick t n => Sys2Proof.Machine.execTimerTick t n s
  | .periodEnd t n => Sys2Proof.Machine.execPeriodEnd t n s
  | .compareMatch t n u => Sys2Proof.Machine.execCompareMatch t n u s
  | .timerArm t r n => Sys2Proof.Machine.execTimerArm t r n s
  | .timerStart t r n => Sys2Proof.Machine.execTimerStart t r n s
  | .timerStop t r n => Sys2Proof.Machine.execTimerStop t r n s
  | .startInput t n => Sys2Proof.Machine.execStartInput t n s
  | .resetInput t n => Sys2Proof.Machine.execResetInput t n s
  | .captureRise t n => Sys2Proof.Machine.execCaptureRise t n s
  | .captureFall t n => Sys2Proof.Machine.execCaptureFall t n s
  | .timerClear t r n => Sys2Proof.Machine.execTimerClear t r n s
  | .gstartRelease t r mask => Sys2Proof.Machine.execGstartRelease t r mask s
  | .gstartLine t => Sys2Proof.Machine.execGstartLine t s
  | .routeClear t r line => Sys2Proof.Machine.execRouteClear t r line s
  | .lanternTick t e pins => Sys2Proof.Machine.execLanternTick t e pins s
  | .fifoTransfer t e tx => Sys2Proof.Machine.execFifoTransfer t e tx s
  | .lanternEnable t r e => Sys2Proof.Machine.execLanternEnable t r e s
  | .lanternDisable t r e => Sys2Proof.Machine.execLanternDisable t r e s
  | .programWrite t r e first words => Sys2Proof.Machine.execProgramWrite t r e first words s
  | .inject t r e word => Sys2Proof.Machine.execInject t r e word s
  | .injection t e pins => Sys2Proof.Machine.execInjection t e pins s
  | .lanternClear t r e => Sys2Proof.Machine.execLanternClear t r e s
  | .loftAccess t bank reqs => Sys2Proof.Machine.execLoftAccess t bank reqs s
  | .scrub t bank ecc => Sys2Proof.Machine.execScrub t bank ecc s
  | .window t f => Sys2Proof.Machine.execWindow t f s
  | .loftClear t r => Sys2Proof.Machine.execLoftClear t r s
  | .dmaArm t r c => Sys2Proof.Machine.execDmaArm t r c s
  | .dmaArmStart t r c => Sys2Proof.Machine.execDmaArmStart t r c s
  | .dmaStop t r c => Sys2Proof.Machine.execDmaStop t r c s
  | .dmaStartPulse t c => Sys2Proof.Machine.execDmaStartPulse t c s
  | .pacePulse t c => Sys2Proof.Machine.execPacePulse t c s
  | .dmaPause t r c on => Sys2Proof.Machine.execDmaPause t r c on s
  | .dmaElement t c ecc => Sys2Proof.Machine.execDmaElement t c ecc s
  | .dmaComplete t c => Sys2Proof.Machine.execDmaComplete t c s
  | .dmaClear t r c => Sys2Proof.Machine.execDmaClear t r c s
  | .presentation t c => Sys2Proof.Machine.execPresentation t c s
  | .coreTake t c => Sys2Proof.Machine.execCoreTake t c s
  | .coreComplete t c src => Sys2Proof.Machine.execCoreComplete t c src s
  | .stackReset t r c => Sys2Proof.Machine.execStackReset t r c s
  | .routeLock t r => Sys2Proof.Machine.execRouteLock t r s
  | .irqClear t r => Sys2Proof.Machine.execIrqClear t r s
  | .stackClear t r c => Sys2Proof.Machine.execStackClear t r c s
  | .watchFire t w => Sys2Proof.Machine.execWatchFire t w s
  | .hattnRelease t p => Sys2Proof.Machine.execHattnRelease t p s
  | .send t r box data => Sys2Proof.Machine.execSend t r box data s
  | .take t r box => Sys2Proof.Machine.execTake t r box s
  | .pairLock t r => Sys2Proof.Machine.execPairLock t r s
  | .ring t r mask => Sys2Proof.Machine.execRing t r mask s
  | .answer t r mask => Sys2Proof.Machine.execAnswer t r mask s
  | .powerOn t => Sys2Proof.Machine.execPowerOn t s
  | .brownOut t pd => Sys2Proof.Machine.execBrownOut t pd s
  | .resetN t => Sys2Proof.Machine.execResetN t s
  | .watchdog t c => Sys2Proof.Machine.execWatchdog t c s
  | .phaseP1 t => Sys2Proof.Machine.execPhaseP1 t s
  | .phaseP2 t refIn crystal worst => Sys2Proof.Machine.execPhaseP2 t refIn crystal worst s
  | .optConversion t code => Sys2Proof.Machine.execOptConversion t code s
  | .phaseP3 t ms4 ms5 testmode => Sys2Proof.Machine.execPhaseP3 t ms4 ms5 testmode s
  | .phaseP4 t => Sys2Proof.Machine.execPhaseP4 t s
  | .phaseP5 t bad => Sys2Proof.Machine.execPhaseP5 t bad s
  | .phaseP6 t okA okB => Sys2Proof.Machine.execPhaseP6 t okA okB s
  | .phaseP7 t => Sys2Proof.Machine.execPhaseP7 t s
  | .phaseP8 t => Sys2Proof.Machine.execPhaseP8 t s
  | .holdReleaseSchedules t r => Sys2Proof.Machine.execHoldReleaseSchedules t r s
  | .holdReleaseDefaults t r => Sys2Proof.Machine.execHoldReleaseDefaults t r s
  | .deviceReset t r => Sys2Proof.Machine.execDeviceReset t r s
  | .domainReset t r v => Sys2Proof.Machine.execDomainReset t r v s
  | .domainRestore t => Sys2Proof.Machine.execDomainRestore t s
  | .domainReq t r v => Sys2Proof.Machine.execDomainReq t r v s
  | .sleep t r => Sys2Proof.Machine.execSleep t r s
  | .supplyLow t => Sys2Proof.Machine.execSupplyLow t s
  | .supplyLowClear t => Sys2Proof.Machine.execSupplyLowClear t s
  | .powerClear t r => Sys2Proof.Machine.execPowerClear t r s
  | .commitPersistent t r => Sys2Proof.Machine.execCommitPersistent t r s
  | .commitEmpty t r => Sys2Proof.Machine.execCommitEmpty t r s
  | .commitLearned t r => Sys2Proof.Machine.execCommitLearned t r s
  | .nvWriteDone t pair readOk => Sys2Proof.Machine.execNvWriteDone t pair readOk s
  | .tokenRefill t learned => Sys2Proof.Machine.execTokenRefill t learned s
  | .learnedWrite t => Sys2Proof.Machine.execLearnedWrite t s
  | .learnedExport t f => Sys2Proof.Machine.execLearnedExport t f s
  | .learnedImport t f => Sys2Proof.Machine.execLearnedImport t f s
  | .importSave t readOk => Sys2Proof.Machine.execImportSave t readOk s
  | .extest t cells => Sys2Proof.Machine.execExtest t cells s
  | .samplePreload t pins cells => Sys2Proof.Machine.execSamplePreload t pins cells s
  | .idcode t => Sys2Proof.Machine.execIdcode t s
  | .clamp t => Sys2Proof.Machine.execClamp t s
  | .highz t => Sys2Proof.Machine.execHighz t s
  | .bypass t => Sys2Proof.Machine.execBypass t s
  | .testLogicReset t => Sys2Proof.Machine.execTestLogicReset t s
  | .replicaFault t => Sys2Proof.Machine.execReplicaFault t s
  | .powerOnRelease t => Sys2Proof.Machine.execPowerOnRelease t s
  | .resetNRelease t => Sys2Proof.Machine.execResetNRelease t s
  | .busOffRecovery t p => Sys2Proof.Machine.execBusOffRecovery t p s
  | .linkUpRise t p => Sys2Proof.Machine.execLinkUpRise t p s
  | .coreResume t c => Sys2Proof.Machine.execCoreResume t c s
  | .overVoltageClear t x mv => Sys2Proof.Machine.execOverVoltageClear t x mv s
  | .bootRetry t okA okB => Sys2Proof.Machine.execBootRetry t okA okB s

end Sys2Proof.Machine
end

