-- ==== Sys2Proof/Machine/Step.lean ====
section
/-! DEFINITION. One step: the command at the front of the queue is taken off it and run; on an empty queue the device idles. -/

namespace Sys2Proof.Machine

/-- One step of the block. On an empty queue it idles (DESIGN CHOICE): everything that time does to the device comes as a command
with its instant. -/
def step (s : State) : Host.Outcome State Fault Refusal :=
  match s.pending with
  | [] => .next s
  | c :: rest => exec c { s with pending := rest }

/-- The state with a command that comes next. -/
def State.front (s : State) (c : Instr) : State := { s with pending := c :: s.pending }

/-- The state with the command that a word spells at the front of its queue; unchanged where it spells none. -/
def State.withFetchWord (s : State) (nbits w : Nat) : State :=
  match Sys2Proof.decodeTableWord nbits w with
  | some c => s.front c
  | none => s

end Sys2Proof.Machine
end

