-- ==== Sys2Proof/WellFormed.lean ====
section
/-! DEFINITION. Well-formed commands: every operand in the range that its pin, message field, register or converter can carry. -/

namespace Sys2Proof

/-- What a request carries beside its message: a tag of 8 bits, an IPv4 address, a UDP port and a UDP checksum (R44, R55, R56). -/
def Req.wf (r : Req) : Bool := decide (r.tag < 256 ∧ r.peerAddr < 2 ^ 32 ∧ r.peerPort < 65536 ∧ r.udpSum < 65536)

/-- A message: opcode, sub and ctl of 8 bits, index and len of 16 bits (R44), and no more data than a CAN FD frame or an IPv4
datagram can carry after the header (R52, R55), or on P0 than its len counts. -/
def Frame.wf (f : Frame) : Bool :=
  f.req.wf && decide (f.op < 256 ∧ f.index < 65536 ∧ f.sub < 256 ∧ f.ctl < 256 ∧ f.len < 65536) &&
    decide (f.data.length ≤ (if f.req.port.val = 0 then 65535 else if f.req.port.val ≤ 3 then 56 else 65499))

/-- A request at a bank of the Loft: 1 to 8 symbols (R402), and as many of them as it writes. -/
def LoftReq.wf (q : LoftReq) : Bool :=
  decide (1 ≤ q.size ∧ q.size ≤ 8) && (match q.data with
    | some bs => decide (bs.length = q.size)
    | none => true)

/-- A value of 16 bits read as signed: a converter code (R318, R330). -/
def isI16 (v : Int) : Bool := decide (-32768 ≤ v ∧ v ≤ 32767)

/-- The levels of the 32 balls LPIN0 to LPIN31 (R380). -/
def isPins (v : Nat) : Bool := decide (v < 2 ^ 32)

/-- The ports P4 and P5, which speak Ethernet. -/
def isEth (p : Fin 6) : Bool := decide (4 ≤ p.val)

/-- The ports P1 to P3, which speak CAN. -/
def isCan (p : Fin 6) : Bool := decide (1 ≤ p.val ∧ p.val ≤ 3)

/-- The well-formedness of a command. -/
def Instr.wf : Instr → Bool
  | .read _ f => f.wf
  | .write _ f => f.wf
  | .blockStart _ f => f.wf
  | .blockData _ f _ => f.wf
  | .blockEnd _ f _ => f.wf
  | .blockTimeout _ _ => true
  | .claim _ f => f.wf
  | .release _ f => f.wf
  | .sessionOpen _ f => f.wf
  | .sessionClose _ f => f.wf
  | .sessionTimeout _ _ => true
  | .dozeLimit _ _ => true
  | .forceClose _ r _ => r.wf
  | .claimHold _ _ => true
  | .doze _ f => f.wf
  | .sleepNFall _ => true
  | .sleepNRise _ => true
  | .notifyAck _ f => f.wf
  | .ping _ f => f.wf
  | .writeFrame _ bytes _ => decide (bytes.length ≤ 1038)
  | .readFrame _ _ => true
  | .status _ => true
  | .classicalDiscard _ p => isCan p
  | .busOff _ p => isCan p
  | .fragmentsDiscarded _ p => isEth p
  | .arpRequest _ p target => isEth p && decide (target < 2 ^ 32)
  | .icmpEcho _ p target _ => isEth p && decide (target < 2 ^ 32)
  | .linkUpFall _ p => isEth p
  | .vetoWrite _ f => f.wf
  | .guardianLock _ r => r.wf
  | .cyclicEnable _ r _ => r.wf
  | .cyclicTimeTrigger _ _ => true
  | .cyclicAngleTrigger _ _ _ => true
  | .cyclic _ _ => true
  | .modTime _ _ => true
  | .notify _ _ => true
  | .activate _ r => r.wf
  | .refLoss _ => true
  | .refRestore _ _ => true
  | .relockDone _ => true
  | .vernierCalibration _ _ => true
  | .clearFlags _ r => r.wf
  | .thresholdCrossing _ _ _ _ => true
  | .armingFallback _ _ => true
  | .minPulseFilter _ _ => true
  | .stall _ _ => true
  | .crankAbsent _ _ => true
  | .camAbsent _ _ => true
  | .camSearchRevs _ _ => true
  | .lossDwell _ _ => true
  | .auxSpeedTimeout _ _ => true
  | .arm _ r _ => r.wf
  | .disarm _ r _ => r.wf
  | .wheelClear _ r _ => r.wf
  | .domainClear _ r _ => r.wf
  | .learnCmdStart _ r _ => r.wf
  | .learnCmdAbort _ r _ => r.wf
  | .tableCompute _ _ => true
  | .learnTimeout _ _ => true
  | .toothTableClear _ r _ => r.wf
  | .refit _ _ _ _ => true
  | .inertiaUpdate _ _ => true
  | .markFreeze _ _ _ => true
  | .markFire _ _ _ => true
  | .synthClear _ r _ => r.wf
  | .lockPoint _ _ _ => true
  | .shotStart _ _ _ => true
  | .programmedEnd _ _ => true
  | .writeApplication _ => true
  | .shotCancel _ r _ => r.wf
  | .shotCancelDisable _ r _ => r.wf
  | .sheafCancel _ r _ => r.wf
  | .sheafCancelDisable _ r _ => r.wf
  | .cancelAll _ r _ => r.wf
  | .schedClear _ r _ => r.wf
  | .boostCurrentEnd _ _ => true
  | .boostTimeEnd _ _ _ => true
  | .peakEnd _ _ _ => true
  | .regulationUpper _ _ => true
  | .regulationLower _ _ => true
  | .decayEnd _ _ => true
  | .decayTimeout _ _ => true
  | .deadTime _ _ _ => true
  | .maxDefer _ _ => true
  | .tReadyMax _ _ => true
  | .readyRise _ _ _ => true
  | .readyFall _ _ _ => true
  | .boostPeriod _ _ _ => true
  | .boostGateOff _ _ _ => true
  | .railEnable _ r _ => r.wf
  | .railDisable _ r _ => r.wf
  | .softStartDone _ _ _ => true
  | .mapLock _ r _ => r.wf
  | .channelClear _ r _ => r.wf
  | .bankClear _ r _ => r.wf
  | .boostClear _ r _ => r.wf
  | .openLoad _ _ _ => true
  | .shortToBattery _ _ _ => true
  | .shortToGround _ _ => true
  | .bankSwitchFailure _ _ _ => true
  | .temperatureSample _ drivers _ _ => decide (drivers.length = 16)
  | .boostOverVoltage _ _ _ => true
  | .boostFault _ _ => true
  | .keepAlive _ => true
  | .dieLinkLoss _ => true
  | .armNRise _ => true
  | .armNFall _ => true
  | .armNRelease _ => true
  | .killNFall _ => true
  | .killNRise _ => true
  | .channelClearFault _ r _ => r.wf
  | .bankClearFault _ r _ => r.wf
  | .channelDiagClear _ r _ => r.wf
  | .bankDiagClear _ r _ => r.wf
  | .boostDiagClear _ r _ => r.wf
  | .driveProtectionClear _ r => r.wf
  | .driveGroupIdle _ => true
  | .driveResetTimeout _ => true
  | .captureStart _ _ => true
  | .laneOverrun _ _ => true
  | .captureEnd _ _ xs => xs.all (fun x => decide (x < 4096))
  | .kinkSearch _ _ => true
  | .resultWrite _ _ => true
  | .shotLearning _ _ => true
  | .resetLearning _ r _ mask => r.wf && decide (mask < 256)
  | .closureClear _ r _ => r.wf
  | .laneHold _ r _ => r.wf
  | .laneRelease _ r _ => r.wf
  | .laneClear _ r _ => r.wf
  | .pressureSample _ codes => decide (codes.length = 24) && codes.all isI16
  | .cycleResults _ _ => true
  | .pressureClear _ r _ => r.wf
  | .vibrationSample _ _ code => isI16 code
  | .vibrationClear _ r _ => r.wf
  | .liveTransition _ _ _ _ => true
  | .blankingWindowOpen _ _ => true
  | .blankingWindowClose _ _ => true
  | .comparatorClear _ r _ => r.wf
  | .rampReset _ _ => true
  | .rampStart _ r _ => r.wf
  | .rampEnd _ _ => true
  | .timerTick _ _ => true
  | .periodEnd _ _ => true
  | .compareMatch _ _ _ => true
  | .timerArm _ r _ => r.wf
  | .timerStart _ r _ => r.wf
  | .timerStop _ r _ => r.wf
  | .startInput _ _ => true
  | .resetInput _ _ => true
  | .captureRise _ _ => true
  | .captureFall _ _ => true
  | .timerClear _ r _ => r.wf
  | .gstartRelease _ r mask => r.wf && isPins mask
  | .gstartLine _ => true
  | .routeClear _ r _ => r.wf
  | .lanternTick _ _ pins => isPins pins
  | .fifoTransfer _ _ _ => true
  | .lanternEnable _ r _ => r.wf
  | .lanternDisable _ r _ => r.wf
  | .programWrite _ r _ first words => r.wf && decide (words.length ≤ 32 - first.val) && words.all (fun w => decide (w < 65536))
  | .inject _ r _ word => r.wf && decide (word < 65536)
  | .injection _ _ pins => isPins pins
  | .lanternClear _ r _ => r.wf
  | .loftAccess _ bank reqs => reqs.all LoftReq.wf && reqs.all (fun q => decide (q.addr / 8 % 8 = bank.val))
  | .scrub _ _ _ => true
  | .window _ f => f.wf
  | .loftClear _ r => r.wf
  | .dmaArm _ r _ => r.wf
  | .dmaArmStart _ r _ => r.wf
  | .dmaStop _ r _ => r.wf
  | .dmaStartPulse _ _ => true
  | .pacePulse _ _ => true
  | .dmaPause _ r _ _ => r.wf
  | .dmaElement _ _ _ => true
  | .dmaComplete _ _ => true
  | .dmaClear _ r _ => r.wf
  | .presentation _ _ => true
  | .coreTake _ _ => true
  | .coreComplete _ _ _ => true
  | .stackReset _ r _ => r.wf
  | .routeLock _ r => r.wf
  | .irqClear _ r => r.wf
  | .stackClear _ r _ => r.wf
  | .watchFire _ _ => true
  | .hattnRelease _ _ => true
  | .send _ r _ data => r.wf && decide (1 ≤ data.length ∧ data.length ≤ 64)
  | .take _ r _ => r.wf
  | .pairLock _ r => r.wf
  | .ring _ r mask => r.wf && isPins mask
  | .answer _ r mask => r.wf && isPins mask
  | .powerOn _ => true
  | .brownOut _ _ => true
  | .resetN _ => true
  | .watchdog _ _ => true
  | .phaseP1 _ => true
  | .phaseP2 _ _ _ _ => true
  | .optConversion _ _ => true
  | .phaseP3 _ _ _ _ => true
  | .phaseP4 _ => true
  | .phaseP5 _ _ => true
  | .phaseP6 _ _ _ => true
  | .phaseP7 _ => true
  | .phaseP8 _ => true
  | .holdReleaseSchedules _ r => r.wf
  | .holdReleaseDefaults _ r => r.wf
  | .deviceReset _ r => r.wf
  | .domainReset _ r _ => r.wf
  | .domainRestore _ => true
  | .domainReq _ r v => r.wf && decide (v < 65536)
  | .sleep _ r => r.wf
  | .supplyLow _ => true
  | .supplyLowClear _ => true
  | .powerClear _ r => r.wf
  | .commitPersistent _ r => r.wf
  | .commitEmpty _ r => r.wf
  | .commitLearned _ r => r.wf
  | .nvWriteDone _ _ _ => true
  | .tokenRefill _ _ => true
  | .learnedWrite _ => true
  | .learnedExport _ f => f.wf
  | .learnedImport _ f => f.wf
  | .importSave _ _ => true
  | .extest _ cells => decide (cells.length = 128)
  | .samplePreload _ pins cells => decide (pins.length = 128 ∧ cells.length = 128)
  | .idcode _ => true
  | .clamp _ => true
  | .highz _ => true
  | .bypass _ => true
  | .testLogicReset _ => true
  | .replicaFault _ => true
  | .powerOnRelease _ => true
  | .resetNRelease _ => true
  | .busOffRecovery _ p => isCan p
  | .linkUpRise _ p => isEth p
  | .coreResume _ _ => true
  | .overVoltageClear _ _ _ => true
  | .bootRetry _ _ _ => true

end Sys2Proof
end

