-- ==== Sys2Proof/Safety.lean ====
section
/-! DEFINITION. The terms that the statements use: the invariant of the Loft, a step that does not stop, the device at a command's
instant, a request that none of the refusals of R15 meets, and the message that a port has sent last. -/

namespace Sys2Proof.Machine

/-- The Loft holds its canonical form, and nothing outside its addresses 0 to 0xBFFFFF (R401). -/
def State.loftInv (s : State) : Prop :=
  Store.wf (fun _ => (0 : Byte)) s.loft = true ∧ ∀ a v, s.loft.find a = some v → a < loftSize

/-- A step that answers a next state. -/
def State.goesOn (s : State) : Prop := ∃ t, step s = .next t

/-- A well-formed queue: every waiting command is. -/
def State.queueWf (s : State) : Bool := s.pending.all Sys2Proof.Instr.wf

/-- The device at the instant of a command. -/
def State.devAt (s : State) (t : Nat) : Dev := s.dev.upTo t

/-- A request is heard and taken up, and its status is OK: no refusal of R15 meets it. `segs` and `nvOk` are the operands of
BLOCK_DATA and BLOCK_END. -/
def State.serves (s : State) (t : Nat) (f : Frame) (segs : Nat) (nvOk : Bool) : Bool :=
  let d := s.devAt t
  let f := frameUnpad f
  let e := d.arrive f.req
  d.comes f && !d.datagramBad f && (e.sopGate f).isNone && !(e.port f.req.port).eccHit &&
    decide ((Dev.sopBody s.loft f segs nvOk (e.staged f)).st = .ok)

/-- A request is taken up by its port (R44, R49, R52, R55, R56, R92): the port hears it, its frame or datagram is whole, the port is not
BUSY, the request comes from the session's peer and has the form of its opcode, and no read of the Loft for it has failed. -/
def State.admits (s : State) (t : Nat) (f : Frame) : Bool :=
  let d := s.devAt t
  let f := frameUnpad f
  let e := d.arrive f.req
  d.comes f && !d.datagramBad f && (e.sopGate f).isNone && !(e.port f.req.port).eccHit

/-- The WRITE of a value of `n` symbols to one object is accepted. -/
def State.takes (s : State) (t : Nat) (r : Req) (idx sub n v : Nat) : Bool :=
  s.serves t (putFrame r idx sub 1 (leBytes n v)) 0 true

/-- The newest message on its way out of a port: at P0 the last one queued for read-out. -/
def Dev.lastSent (d : Dev) (p : Nat) : Option Msg := if p = 0 then (d.port 0).readout.getLast? else d.sent.head?

/-- The newest message of a port is the response to a request (R44). -/
def Dev.answered (d : Dev) (f : Frame) (st : Status) (data : List Byte) : Prop :=
  ∃ m, d.lastSent f.req.port = some m ∧ m.op = f.op ||| 0x80 ∧ m.tag = f.req.tag ∧ m.index = f.index ∧ m.sub = f.sub ∧
    m.ctl = st.code ∧ m.data = data

/-- The domain has no armed bit. -/
def Dev.disarmed (d : Dev) (k : Nat) : Prop := d.bit (0x2180 + k) 0x11 0 = false

/-- The objects that a port's traffic may change: those of chapter 02. -/
def portObj (i : Nat) : Bool := decide (0x1100 ≤ i ∧ i ≤ 0x17FF)

/-- The blocks that do nothing more than store what is written to them. -/
def ObjKind.quiet (k : ObjKind) : Bool :=
  decide (k ∈ ([.port, .notify, .profile, .channel, .lane, .chanDiag, .bankDiag, .boostDiag, .protect, .irq, .source, .stack, .doorbell
    , .route, .dma, .timebase, .reset] : List ObjKind))

/-- Every object reads the same on two devices, but for those of a set. -/
def Dev.sameBut (d e : Dev) (P : Nat → Nat → Bool) : Prop := ∀ i w, w < 256 → P i w = false → e.obj i w = d.obj i w

/-- A command answers a next state whose device meets `post` and whose objects, but for those of chapter 02 and those of a list, are
those of the command's instant. -/
def State.does (s : State) (t : Nat) (c : Instr) (changed : List (Nat × Nat)) (post : Dev → Prop) : Prop :=
  ∃ u, exec c s = .next u ∧ post u.dev ∧ u.loft = s.loft ∧ (s.devAt t).sameBut u.dev (fun i w => portObj i || changed.contains (i, w))

/-- The Loft after symbols have been stored from an address on: they stand there, and every other symbol reads as before. -/
def State.puts (s u : State) (a : Nat) (bs : List Byte) : Prop :=
  ∀ q, loftByte u.loft q = if a ≤ q ∧ q < a + bs.length ∧ q < loftSize then bs.getD (q - a) 0 else loftByte s.loft q

/-- Every object but those of a list is that of the command's instant. -/
def State.keeps (s : State) (t : Nat) (u : State) (changed : List (Nat × Nat)) : Prop :=
  (s.devAt t).sameBut u.dev (fun i w => changed.contains (i, w))

/-- The subindices from `a` to `b` of an object. -/
def span (i a b : Nat) : List (Nat × Nat) := (List.range (b + 1 - a)).map (fun k => (i, a + k))

/-- Some objects of a device read 0. -/
def Dev.zeroed (d : Dev) (l : List (Nat × Nat)) : Prop := ∀ e ∈ l, d.obj e.1 e.2 = 0

/-- A record has one present occurrence, in a tree whose top-level occurrence is there, which has not started, whose edge is not on its
way, and which no channel has. -/
def Dev.cancellable (d : Dev) (rid id : Nat) : Prop :=
  ∃ o, d.present rid = [(id, o)] ∧ (∃ e ∈ d.occs, e.1 = o.tree) ∧ o.st ≠ .running ∧ d.released o = false ∧ d.chanOf id = none

/-- What every assertion of the device reset leaves (R456 to R458, R465, R486): the phase from which the sequence restarts, the reset
count and the history entry with cause, phase and detail, no session, no source pending, no shot in flight, both domains STOPPED
and disarmed. -/
def Dev.resetBy (d u : Dev) (cause detail target : Nat) : Prop :=
  u.obj 0x2F00 0x01 = d.restartPhase target ∧ u.ready = false ∧ u.obj 0x2F00 0x0B = satInc32 (d.obj 0x2F00 0x0B) ∧
    u.obj 0x2F00 0x10 = cause * 2 ^ 28 + d.obj 0x2F00 0x01 * 2 ^ 24 + detail % 256 * 2 ^ 16 + u.obj 0x2F00 0x0B % 2 ^ 16 ∧
    u.irq = [] ∧ u.occs = [] ∧ (∀ p < 6, u.sessOpen p = false) ∧
    ∀ k < 2, u.domState k = 0 ∧ u.bit (0x2180 + k) 0x11 0 = false

end Sys2Proof.Machine

namespace Sys2Proof

/-- The commands that store nothing into the Loft: all but the writes through a window, the engines that write results and
captures, DMA, the bank arbiters and the memory test of a start. -/
def Instr.sparesLoft : Instr → Bool
  | .write .. | .blockEnd .. | .captureEnd .. | .resultWrite .. | .shotLearning .. | .pressureSample .. | .vibrationSample ..
  | .fifoTransfer .. | .loftAccess .. | .window .. | .dmaElement .. | .phaseP5 .. | .phaseP6 .. => false
  | _ => true

end Sys2Proof
end

