-- ==== Sys2Proof/Certificates/Slice0/Obligations.lean ====
section
/-! DEFINITION. The statements for the provers: what the commands of the device do, family by family, in terms of exec, step and
the read of one object. `s.does t c l post` says that command c answers a next state of which post holds, with the Loft unchanged and every
object outside chapter 02 that l does not name as it was. -/

open Sys2Proof Sys2Proof.Machine

/-- The first waiting command is taken off the queue and run; the step is its effect on the rest (the model's reading of the hardware as a
block: the queue is the model's own). -/
def Obligations.StepRunsFront : Prop :=
  ∀ (c : Instr) (rest : List Instr) (s : State),
    step { s with pending := c :: rest } = exec c { s with pending := rest }

/-- A step takes exactly the first command off the queue, and changes nothing where none waits (the idle step is the model's choice, log 2). -/
def Obligations.StepTakesFront : Prop :=
  (∀ s u, step s = .next u → u.pending = s.pending.tail) ∧ ∀ s, s.pending = [] → step s = .next s

/-- No command is refused, and the only stop is that of LOFT_ACCESS at an address that does not exist (R401) or with a request that is no
access of part of one word (R402): every other command answers a next state in every state. -/
def Obligations.StopsOnlyAtLoftAccess : Prop :=
  (∀ c s e, exec c s ≠ .refused e) ∧
    ∀ c s e, exec c s = .fault e →
      ∃ t b reqs, c = .loftAccess t b reqs ∧
        ((e = .loftAddress ∧ ∃ r ∈ reqs, loftSize ≤ r.addr) ∨
          (e = .loftSpan ∧ ∃ r ∈ reqs, reqSpans r = true ∧ ∀ q ∈ reqs, q.addr < loftSize))

/-- The machine right after reset: nothing waits, the Loft reads zero, no session is open and no claim held, the counter stands at 0, no
domain is armed or synchronised, no tooth table is present, no rail enabled, no record enabled, no source pending and the device is in
service. -/
def Obligations.ResetState : Prop :=
  State.reset.pending = [] ∧ (∀ a, loftByte State.reset.loft a = 0) ∧ State.reset.dev.now = 0 ∧
    State.reset.dev.ready = true ∧ State.reset.dev.irq = [] ∧
    (∀ p < 6, State.reset.dev.obj (0x1200 + p) 0x01 = 0) ∧
    (∀ u, 1 ≤ u → u ≤ 0xA5 → State.reset.dev.obj 0x1700 u = 0xFF) ∧
    (∀ k < 2, State.reset.dev.domState k = 0 ∧ State.reset.dev.bit (0x2180 + k) 0x11 0 = false ∧ State.reset.dev.obj (0x2210 + k) 0x01 = 0) ∧
    (∀ x < 2, State.reset.dev.obj (0x2780 + x) 0x01 = 0) ∧
    (∀ n < 1024, State.reset.dev.obj (0x3000 + n) 0x01 = 0) ∧ ∀ n < 512, State.reset.dev.obj (0x2400 + n) 0x01 = 0

/-- The Loft's invariant holds at reset. -/
def Obligations.ResetKeepsLoftForm : Prop := State.reset.loftInv

/-- Every step keeps the Loft in its canonical form and inside its addresses (R401), from every state that has it. -/
def Obligations.StepKeepsLoftForm : Prop :=
  ∀ s u, s.loftInv → step s = .next u → u.loftInv

/-- Only the commands that the chapters let store into the Loft change it. -/
def Obligations.LoftUnchanged : Prop :=
  ∀ c s u, c.sparesLoft = true → exec c s = .next u → u.loft = s.loft


/-- READ and PING complete (R43, R44). A request that its port takes up is served: a READ in an open session, or without one of the objects
that R41 opens, of subindices that exist, are not gated, can be read by READ and fit one message, is answered with OK and the values of
its subindices in rising order; a PING in an open session, whose index and subindex are 0, with OK and no data. Neither stores into the
Loft; PING changes no object outside chapter 02, nor does READ (a read of take empties a mailbox, R446, which is no stored object). The
answer carries the tag and the address of the request. -/
def Obligations.ReadAndPingAnswer : Prop :=
  ∀ (s : State) (t : Nat) (f : Frame), s.admits t f = true →
    let e := (s.devAt t).arrive f.req
    let p := f.req.port.val
    let subs := subsOf f
    (f.op = 0x01 → (∀ w ∈ subs, (objRow f.index w).isSome = true) → e.sessOpen p = true ∨ openRead f.index = true →
      (e.sessOpen p = true → e.gatesShut p f.index subs = false) → (∀ w ∈ subs.dropLast, isBlob f.index w = false) →
      (∀ w ∈ subs, blockOnly f.index w = true → writeOnly f.index w = true) →
      (subs.map (e.readLen p f.index)).foldl (· + ·) 0 ≤ maxData p → e.foreignBox p f.index subs = false →
      (readsWindow f.index subs = true → e.windowOk p false = true ∧
        e.meetsBad (e.obj 0x2D00 (0x20 + p)) (e.obj 0x2D00 (0x28 + p)) = false) →
      ∃ u, exec (.read t f) s = .next u ∧ u.dev.answered f .ok (e.readAll s.loft p f.index subs) ∧ u.loft = s.loft ∧
        (s.devAt t).sameBut u.dev (fun i _ => portObj i)) ∧
    (f.op = 0x0C → e.sessOpen p = true → e.feature p 0 0 = true → f.index = 0 → f.sub = 0 →
      ∃ u, exec (.ping t f) s = .next u ∧ u.dev.answered f .ok [] ∧ u.loft = s.loft ∧
        (s.devAt t).sameBut u.dev (fun i _ => portObj i))

/-- WRITE completes (R43). A WRITE that its port takes up, of subindices that exist, whose data splits into their values (R11) and that none
of the refusals of R15 meets, answers OK without data: of every block, unless the write itself silences the port (R457). A value of a
block that does nothing more when it is written stands in its object, and every object outside chapter 02 but the written ones reads as
before: port settings, notification settings, drive profiles, diagnosis settings, the injector bank of a channel, lanes, the routes of
event lines, DMA descriptors, the routes and stacks of the interrupt controller, doorbells, watchdogs, reset and power settings. -/
def Obligations.WriteStores : Prop :=
  ∀ (s : State) (t : Nat) (f : Frame), f.op = 0x02 → s.admits t f = true →
    let g := frameUnpad f
    let p := f.req.port.val
    (∀ w ∈ subsOf f, (objRow f.index w).isSome = true ∧ blockOnly f.index w = false) → g.data.length ≤ maxData p →
    ∀ b, blockOf f.index = some b → ∀ puts, splitPuts f.index (subsOf f) g.data = some puts →
    let w := hostWr p f.index b puts
    (((s.devAt t).arrive f.req).staged g).wRefusal savedBankValid w = none →
    ∃ u, exec (.write t f) s = .next u ∧ (w.silences = false → u.dev.answered f .ok []) ∧
      (b.kind.quiet = true → w.silences = false → (∀ q ∈ puts, ∀ row, objRow f.index q.sub = some row → unstored b.kind q.sub row.acc = false) →
        (∀ q ∈ puts, isBlob f.index q.sub = false → u.dev.obj f.index q.sub = q.raw) ∧
        (s.devAt t).sameBut u.dev (fun i w => portObj i || (decide (i = f.index) && (subsOf f).contains w)))

/-- Refusals of a WRITE in the order of R15: BUSY of the port before all others, then a port without a session, then an object that does not
exist; each refusal answers its status without data and changes no object outside chapter 02, and no symbol of the Loft. -/
def Obligations.RefusalsInOrder : Prop :=
  ∀ (s : State) (t : Nat) (f : Frame), f.op = 0x02 → (s.devAt t).comes (frameUnpad f) = true → (s.devAt t).datagramBad (frameUnpad f) = false →
    let e := (s.devAt t).arrive f.req
    let g := frameUnpad f
    let absent := blockOf f.index = none ∨ ∃ w ∈ subsOf f, objRow f.index w = none
    let refused := fun (st : Status) => ∃ u, exec (.write t f) s = .next u ∧ u.dev.answered f st [] ∧ u.loft = s.loft ∧
      (s.devAt t).sameBut u.dev (fun i _ => portObj i)
    (e.portBusy g = true → refused .busy) ∧
    (e.sopGate g = none → (e.port f.req.port).eccHit = false → absent → e.sessOpen f.req.port = false → refused .noSession) ∧
    (e.sopGate g = none → (e.port f.req.port).eccHit = false → absent → e.sessOpen f.req.port = true → refused .badIndex) ∧
    ∀ b, e.sopGate g = none → (e.port f.req.port).eccHit = false → ¬absent → blockOf f.index = some b → b.kind.quiet = true →
      b.kind ≠ .reset → e.sessOpen f.req.port = false → refused .noSession


/-- A block transfer (R65 to R67): BLOCK_START opens it and answers its total and the segment size, each BLOCK_DATA of a write takes one
segment and each of a read gives the next one, BLOCK_END of a read answers the CRC-32 of all it read and ends it, and one second without
a segment ends it too. A write by block transfer (R67): where BLOCK_END finds length, CRC and access right, the values are stored as by
one WRITE and the transfer has ended. Stated of the blocks that do nothing more when they are written. -/
def Obligations.BlockTransfersRun : Prop :=
  ((∀ (s : State) (t : Nat) (f : Frame), f.op = 0x03 → s.serves t f 0 true = true →
    ∃ u x, exec (.blockStart t f) s = .next u ∧ (u.dev.port f.req.port).xfer = some x ∧ x.index = f.index ∧ x.sub = f.sub ∧
      x.ctl = f.ctl ∧ x.seq = 0 ∧ x.isWrite = (f.data.head? == some 0) ∧
      x.total = (if x.isWrite then fieldOf f.data 4 4 else x.data.length) ∧
      u.dev.answered f .ok (leBytes 4 x.total ++ leBytes 2 (segSize f.req.port)) ∧ u.loft = s.loft) ∧
  (∀ (s : State) (t : Nat) (f : Frame) (segs : Nat), f.op = 0x04 → s.serves t f segs true = true →
    ∃ u x y, exec (.blockData t f segs) s = .next u ∧ ((s.devAt t).arrive f.req).xferOf f = some x ∧
      (u.dev.port f.req.port).xfer = some y ∧ y.seq = x.seq + 1 ∧ fieldOf f.data 0 2 = x.seq % 65536 ∧
      y.data = (if x.isWrite then x.data ++ f.data.drop 2 else x.data) ∧
      u.dev.answered f .ok (if x.isWrite then f.data.take 2
        else f.data.take 2 ++ (x.data.drop (x.seq * segSize f.req.port)).take (segSize f.req.port)) ∧ u.loft = s.loft) ∧
  (∀ (s : State) (t : Nat) (f : Frame) (ok : Bool) (x : Xfer), f.op = 0x05 → s.serves t f 0 ok = true →
    ((s.devAt t).arrive f.req).xferOf f = some x → x.isWrite = false →
    ∃ u, exec (.blockEnd t f ok) s = .next u ∧ (u.dev.port f.req.port).xfer = none ∧
      u.dev.answered f .ok (leBytes 4 (crc32 x.data)) ∧ u.loft = s.loft) ∧
  ∀ (s : State) (t : Nat) (p : Fin 6) (x : Xfer), ((s.devAt t).port p).xfer = some x → (s.devAt t).runs 12 = true →
    x.last + tqSec ≤ (s.devAt t).now →
    ∃ u, exec (.blockTimeout t p) s = .next u ∧ (u.dev.port p).xfer = none ∧ u.dev.regs = s.dev.regs) ∧
  (∀ (s : State) (t : Nat) (f : Frame) (ok : Bool) (x : Xfer) (b : ObjBlock) (row : ObjRow), f.op = 0x05 →
    s.serves t f 0 ok = true → ((s.devAt t).arrive f.req).xferOf f = some x → x.isWrite = true → x.ctl ≤ 1 →
    blockOf x.index = some b → b.kind.quiet = true → objRow x.index x.sub = some row → row.ty.isBlob = false →
    unstored b.kind x.sub row.acc = false →
    ∃ u, exec (.blockEnd t f ok) s = .next u ∧ fieldOf f.data 0 4 = crc32 x.data ∧ x.data.length = x.total ∧
      u.dev.obj x.index x.sub = ofLe x.data ∧ (u.dev.port f.req.port).xfer = none ∧ u.dev.answered f .ok [])

/-- Claims (R68 to R70): CLAIM gives every named instance to the port, RELEASE gives every one back, and the end of claim_hold frees what a
port without session still held; every other entry of the claims table and every object outside chapter 02 stands. -/
def Obligations.ClaimsChange : Prop :=
  (∀ (s : State) (t : Nat) (f : Frame), f.op = 0x06 → s.serves t f 0 true = true →
    ∃ u, exec (.claim t f) s = .next u ∧ u.dev.answered f .ok [] ∧
      (∀ i ∈ claimList f, u.dev.claimOf (fieldOf f.data 0 1) i = f.req.port) ∧
      (∀ w < 256, (∀ i ∈ claimList f, w ≠ claimSub (fieldOf f.data 0 1) i) → u.dev.obj 0x1700 w = (s.devAt t).obj 0x1700 w) ∧
      (s.devAt t).sameBut u.dev (fun i _ => portObj i)) ∧
  (∀ (s : State) (t : Nat) (f : Frame), f.op = 0x07 → s.serves t f 0 true = true →
    ∃ u, exec (.release t f) s = .next u ∧ u.dev.answered f .ok [] ∧
      (∀ i ∈ claimList f, (s.devAt t).claimOf (fieldOf f.data 0 1) i = f.req.port ∧
        u.dev.claimOf (fieldOf f.data 0 1) i = 0xFF) ∧
      (∀ w < 256, (∀ i ∈ claimList f, w ≠ claimSub (fieldOf f.data 0 1) i) → u.dev.obj 0x1700 w = (s.devAt t).obj 0x1700 w) ∧
      (s.devAt t).sameBut u.dev (fun i _ => portObj i)) ∧
  ∀ (s : State) (t : Nat) (p : Fin 6), (s.devAt t).runs 12 = true → (s.devAt t).sessOpen p = false →
    ((s.devAt t).port p).holdSince + ((s.devAt t).port p).holdMs * tqMs ≤ (s.devAt t).now →
    ∃ u, exec (.claimHold t p) s = .next u ∧
      (∀ w, 1 ≤ w → w ≤ 0xA5 → u.dev.obj 0x1700 w =
        if (s.devAt t).obj 0x1700 w = p + 64 then 0xFF else (s.devAt t).obj 0x1700 w) ∧
      (s.devAt t).sameBut u.dev (fun i _ => decide (i = 0x1700))

/-- SESSION_OPEN that is accepted opens a session, or renegotiates the open one (R58, R59): state (a session that is open keeps its own),
level and the feature words that the device accepts stand in the session object, and the answer carries them. A session closes (R60,
R64, R70): on SESSION_CLOSE, on its timeout, at the doze limit and on force_close; the session object reads zero but for the reason, and
the port's claims go into hold. -/
def Obligations.SessionsOpenAndClose : Prop :=
  (∀ (s : State) (t : Nat) (f : Frame), f.op = 0x08 → s.serves t f 0 true = true →
    let i := 0x1200 + f.req.port.val
    let e := (s.devAt t).arrive f.req
    ∃ u, exec (.sessionOpen t f) s = .next u ∧ u.dev.obj i 0x01 = (if e.obj i 0x01 = 0 then 1 else e.obj i 0x01) ∧
      u.dev.obj i 0x02 = fieldOf f.data 0 1 ∧
      (∀ k < 4, u.dev.obj i (0x03 + k) = fieldOf f.data (4 + 4 * k) 4 &&& e.obj 0x1300 (0x01 + k)) ∧
      (e.sessOpen f.req.port = false → ∀ w, 1 ≤ w → w ≤ 0xA5 → u.dev.obj 0x1700 w =
        if e.obj 0x1700 w = f.req.port.val + 64 then f.req.port.val else e.obj 0x1700 w) ∧
      (s.devAt t).sameBut u.dev (fun i _ => portObj i)) ∧
  (let closed := fun (d u : Dev) (p reason : Nat) =>
    (∀ w, 1 ≤ w → w ≤ 0x08 → u.obj (0x1200 + p) w = 0) ∧ u.obj (0x1200 + p) 0x0A = reason ∧
      ∀ w, 1 ≤ w → w ≤ 0xA5 → u.obj 0x1700 w = if d.obj 0x1700 w = p then p + 64 else d.obj 0x1700 w
  (∀ (s : State) (t : Nat) (f : Frame), f.op = 0x09 → s.serves t f 0 true = true →
    ∃ u, exec (.sessionClose t f) s = .next u ∧ closed (s.devAt t) u.dev f.req.port 1) ∧
  (∀ (s : State) (t : Nat) (p : Fin 6), (s.devAt t).runs 12 = true → (s.devAt t).obj (0x1200 + p) 0x01 = 1 →
    ((s.devAt t).port p).lastFrame + ((s.devAt t).port p).timeoutMs * tqMs ≤ (s.devAt t).now →
    ∃ u, exec (.sessionTimeout t p) s = .next u ∧ closed (s.devAt t) u.dev p 2) ∧
  (∀ (s : State) (t : Nat) (p : Fin 6), (s.devAt t).runs 12 = true → (s.devAt t).obj (0x1200 + p) 0x01 = 2 →
    ((s.devAt t).port p).dozeMs ≠ 0 → ((s.devAt t).port p).dozeSince + ((s.devAt t).port p).dozeMs * tqMs ≤ (s.devAt t).now →
    ∃ u, exec (.dozeLimit t p) s = .next u ∧ closed (s.devAt t) u.dev p 3) ∧
  ∀ (s : State) (t : Nat) (r : Req) (n : Fin 6), s.takes t r (0x1200 + n) 0x0B 1 1 = true →
    (s.devAt t).sessOpen n = true →
    ∃ u, exec (.forceClose t r n) s = .next u ∧ closed (s.devAt t) u.dev n 4)

/-- Doze (R88): a DOZE that is accepted and a fall of SLEEP_N put the port into doze, P0 once the host has read the response (READ_FRAME), a
rise of SLEEP_N takes P0 out of it; and NOTIFY_ACK (R87) ends the active state of every source it names. -/
def Obligations.DozeAndAck : Prop :=
  (∀ (s : State) (t : Nat) (f : Frame), f.op = 0x0A → s.serves t f 0 true = true →
    (s.devAt t).obj (0x1200 + f.req.port.val) 0x01 ≤ 2 →
    ∃ u, exec (.doze t f) s = .next u ∧ u.dev.obj (0x1200 + f.req.port.val) 0x01 =
        (if f.req.port.val = 0 then ((s.devAt t).arrive f.req).obj 0x1200 0x01 else 2) ∧
      u.dev.answered f .ok [] ∧
      (s.devAt t).sameBut u.dev (fun i _ => portObj i)) ∧
  (∀ (s : State) (t : Nat), (s.devAt t).runs 12 = true → (s.devAt t).obj 0x1200 0x01 = 1 → (s.devAt t).feature 0 0 4 = true →
    ∃ u, exec (.sleepNFall t) s = .next u ∧ u.dev.obj 0x1200 0x01 = 2 ∧
      (s.devAt t).sameBut u.dev (fun i w => decide (i = 0x1200) && decide (w = 0x01))) ∧
  (∀ (s : State) (t : Nat), (s.devAt t).runs 12 = true → (s.devAt t).obj 0x1200 0x01 = 2 →
    ∃ u, exec (.sleepNRise t) s = .next u ∧ u.dev.obj 0x1200 0x01 = 1 ∧
      (s.devAt t).sameBut u.dev (fun i _ => portObj i)) ∧
  ∀ (s : State) (t : Nat) (f : Frame), f.op = 0x0B → s.serves t f 0 true = true →
    ∃ u, exec (.notifyAck t f) s = .next u ∧ u.dev.answered f .ok [] ∧
      (∀ b ∈ f.data, b.toNat < 128 → (u.dev.pend b.toNat (4 + f.req.port)).active = false) ∧
      (s.devAt t).sameBut u.dev (fun i _ => portObj i)


/-- P0's transport (R47 to R49, R88): WRITE_FRAME puts an intact message at the end of the receive buffer while a slot is free, and counts
one whose CRC is wrong; READ_FRAME takes the head off the read-out queue once its last symbol is clocked out, and a DOZE response so
read puts P0 into doze (R88); STATUS sends the status symbol and clears the two error bits. Events of the CAN and Ethernet ports (R52,
R53, R55, R57): a classical frame and discarded fragments are counted, bus-off silences its port and its end lets the port talk again,
an ARP request and an ICMP echo for the port's own address are answered, and the physical link follows its events. -/
def Obligations.PortsCarryMessages : Prop :=
  ((∀ (s : State) (t : Nat) (bytes : List Byte), let n := fieldOf bytes 0 2
    (s.devAt t).hears 0 = true → ((s.devAt t).port 0).rx.length < 4 → 8 ≤ n → n + 6 ≤ bytes.length →
    fieldOf bytes (n + 2) 4 = crc32 (bytes.take (n + 2)) →
    ∃ u, exec (.writeFrame t bytes false) s = .next u ∧
      (u.dev.port 0).rx = ((s.devAt t).port 0).rx ++ [(bytes.drop 2).take n] ∧ (u.dev.port 0).crcError = false ∧
      (u.dev.port 0).rxDropped = false ∧ (s.devAt t).sameBut u.dev (fun i _ => portObj i)) ∧
  (∀ (s : State) (t : Nat) (bytes : List Byte), let n := fieldOf bytes 0 2
    (s.devAt t).hears 0 = true → ((s.devAt t).port 0).rx.length < 4 → n + 6 ≤ bytes.length →
    fieldOf bytes (n + 2) 4 ≠ crc32 (bytes.take (n + 2)) →
    ∃ u, exec (.writeFrame t bytes false) s = .next u ∧ (u.dev.port 0).rx = ((s.devAt t).port 0).rx ∧
      (u.dev.port 0).crcError = true ∧ u.dev.obj 0x1100 0x05 = satInc32 ((s.devAt t).obj 0x1100 0x05) ∧
      (s.devAt t).sameBut u.dev (fun i w => decide (i = 0x1100) && decide (w = 0x05))) ∧
  (∀ (s : State) (t clocks : Nat) (m : Msg) (rest : List Msg), (s.devAt t).hears 0 = true →
    ((s.devAt t).port 0).readout = m :: rest → (spiFrame (some m)).length ≤ clocks →
    ∃ u, exec (.readFrame t clocks) s = .next u ∧ (u.dev.port 0).readout = rest ∧
      (m.op ≠ 0x8A → u.dev.regs = s.dev.regs) ∧
      (m.op = 0x8A → m.ctl = 0 → s.dev.obj 0x1200 0x01 = 1 → u.dev.obj 0x1200 0x01 = 2) ∧
      ∃ q ∈ u.dev.sent, q.port = 0 ∧ q.data = BitVec.ofNat 8 ((s.devAt t).spiStatus) ::
        (spiFrame (some m) ++ List.replicate (clocks - (spiFrame (some m)).length) 0)) ∧
  ∀ (s : State) (t : Nat), (s.devAt t).hears 0 = true →
    ∃ u, exec (.status t) s = .next u ∧ (u.dev.port 0).crcError = false ∧ (u.dev.port 0).rxDropped = false ∧
      u.dev.regs = s.dev.regs ∧ ∃ q ∈ u.dev.sent, q.port = 0 ∧ q.data = [BitVec.ofNat 8 (s.devAt t).spiStatus]) ∧
  ((∀ (s : State) (t : Nat) (p : Fin 6), 1 ≤ p.val → p.val ≤ 3 → (s.devAt t).hears p = true →
    let i := 0x1100 + p.val
    (∃ u, exec (.classicalDiscard t p) s = .next u ∧ u.dev.obj i 0x16 = satInc32 (s.dev.obj i 0x16) ∧
      u.dev.obj i 0x05 = satInc32 (s.dev.obj i 0x05) ∧
      s.dev.sameBut u.dev (fun j w => decide (j = i) && (decide (w = 0x16) || decide (w = 0x05)))) ∧
    ∃ u, exec (.busOff t p) s = .next u ∧ u.dev.portTalks p = false ∧ u.dev.obj i 0x17 = satInc32 (s.dev.obj i 0x17) ∧
      s.dev.sameBut u.dev (fun j w => decide (j = i) && decide (w = 0x17))) ∧
  (∀ (s : State) (t : Nat) (p : Fin 6), (s.dev.port p).busOff = true →
    ∃ u, exec (.busOffRecovery t p) s = .next u ∧ (u.dev.port p).busOff = false ∧ u.dev.regs = s.dev.regs) ∧
  (∀ (s : State) (t : Nat) (p : Fin 6), 4 ≤ p.val → (s.devAt t).hears p = true →
    let i := 0x1100 + p.val
    (∃ u, exec (.fragmentsDiscarded t p) s = .next u ∧ u.dev.obj i 0x17 = satInc32 (s.dev.obj i 0x17) ∧
      u.dev.obj i 0x05 = satInc32 (s.dev.obj i 0x05) ∧
      s.dev.sameBut u.dev (fun j w => decide (j = i) && (decide (w = 0x17) || decide (w = 0x05)))) ∧
    (∃ u m, exec (.arpRequest t p ((s.devAt t).inForce p 0)) s = .next u ∧ u.dev.lastSent p = some m ∧ m.port = p ∧
      m.data = (s.devAt t).blobBytes i 0x15 0 6 ++ (leBytes 4 ((s.devAt t).inForce p 0)).reverse ∧ u.dev.regs = s.dev.regs) ∧
    ∀ data, ∃ u m, exec (.icmpEcho t p ((s.devAt t).inForce p 0) data) s = .next u ∧ u.dev.lastSent p = some m ∧ m.port = p ∧
      m.data = data ∧ u.dev.regs = s.dev.regs) ∧
  ∀ (s : State) (t : Nat) (p : Fin 6), 4 ≤ p.val →
    (∃ u, exec (.linkUpFall t p) s = .next u ∧ (u.dev.port p).linkPhys = false ∧ u.dev.regs = s.dev.regs) ∧
    ((s.devAt t).pdOn 12 = true →
      ∃ u, exec (.linkUpRise t p) s = .next u ∧ (u.dev.port p).linkPhys = true ∧ u.dev.regs = s.dev.regs))

/-- The Guardian (R74, R76, R78): its lock stands once it is set; a veto write that sets global_disarm disarms both domains, disables both
rails with the vetoed bit, is stamped and counted. -/
def Obligations.GuardianActs : Prop :=
  (∀ (s : State) (t : Nat) (r : Req), s.takes t r 0x1800 0x02 1 1 = true →
    ∃ u, exec (.guardianLock t r) s = .next u ∧ u.dev.obj 0x1800 0x02 = 1 ∧
      (s.devAt t).sameBut u.dev (fun i w => portObj i || (decide (i = 0x1800) && decide (w = 0x02)))) ∧
  ∀ (s : State) (t : Nat) (f : Frame), f.op = 0x02 → f.index = 0x1800 → f.sub = 0x04 → f.ctl ≤ 1 → f.data = [1] →
    (s.devAt t).isVeto f = true → s.serves t f 0 true = true → (s.devAt t).obj 0x1800 0x04 = 0 →
    ∃ u, exec (.vetoWrite t f) s = .next u ∧ u.dev.obj 0x1800 0x04 = 1 ∧
      u.dev.obj 0x1800 0x07 = (s.devAt t).now ∧ u.dev.obj 0x1800 0x09 = satInc32 (s.dev.obj 0x1800 0x09) ∧
      (∀ k < 2, u.dev.bit (0x2180 + k) 0x11 0 = false) ∧
      ∀ x < 2, u.dev.obj (0x2780 + x) 0x01 = 0 ∧ u.dev.bit (0x2780 + x) 0x0C 5 = true


/-- Cyclic frames (R80 to R84): a frame is turned on with its first trigger set, a time trigger moves on by its period, an angle trigger
remembers the crossing it fired at, and the frame built goes out on its port. Notifications (R86): a batch that is due by its size or by
mod_time goes out as NOTIFY messages of its queue, numbered by the batch counter, and is counted. -/
def Obligations.CyclicFramesAndNotifies : Prop :=
  ((∀ (s : State) (t : Nat) (r : Req) (n : Fin 64), let i := 0x1400 + n.val
    s.takes t r i 0x01 1 1 = true →
    ∃ u, exec (.cyclicEnable t r n) s = .next u ∧ u.dev.obj i 0x01 = 1 ∧ (s.devAt t).sameBut u.dev (fun i _ => portObj i) ∧
      (s.dev.obj i 0x01 = 0 → (u.dev.cycFrame n).due =
        if s.dev.obj i 0x03 = 1 then (s.devAt t).now + s.dev.obj i 0x04 * tqUs else (s.devAt t).now)) ∧
  (∀ (s : State) (t : Nat) (n : Fin 64), let i := 0x1400 + n.val
    (s.devAt t).runs 12 = true → s.dev.obj i 0x01 = 1 → s.dev.obj i 0x03 = 1 → (s.dev.cycFrame n).due ≤ (s.devAt t).now →
    ∃ u, exec (.cyclicTimeTrigger t n) s = .next u ∧ (u.dev.cycFrame n).due = (s.dev.cycFrame n).due + s.dev.obj i 0x04 * tqUs ∧
      (s.dev.cycDrops n = false → s.dev.obj i 0x02 ≠ 0 → (u.dev.cycFrame n).unsent.isSome = true) ∧
      s.dev.sameBut u.dev (fun j w => decide (j = i) && decide (w = 0x12))) ∧
  (∀ (s : State) (t : Nat) (n : Fin 64) (slot : Fin 24) (angle target time : Nat) (late : Bool), let i := 0x1400 + n.val
    let d := s.devAt t
    let k := d.obj i 0x05
    d.cycAngle n slot = some angle → target = angleWord ((d.estAt k d.now : Int) -
      ((d.estAt k d.now % auCycle + auCycle - angle) % auCycle : Nat)) → d.answer k target = some (time, late) →
    d.runs 12 = true → d.pdOn 5 = true → d.obj i 0x01 = 1 → (d.cycFrame n).fresh (d.cycKey n slot) target time = true →
    ∃ u, exec (.cyclicAngleTrigger t n slot) s = .next u ∧
      Store.get (fun _ => (0, 0)) (u.dev.cycFrame n).fired (d.cycKey n slot) = (target, time) ∧
      (d.cycDrops n = false → d.obj i 0x02 ≠ 0 → (u.dev.cycFrame n).unsent.isSome = true) ∧
      d.sameBut u.dev (fun j w => decide (j = i) && decide (w = 0x12))) ∧
  ∀ (s : State) (t : Nat) (n : Fin 64) (m : Msg), (s.dev.cycFrame n).unsent = some m → (s.devAt t).runs 12 = true →
    (s.devAt t).portTalks m.port = true →
    ∃ u, exec (.cyclic t n) s = .next u ∧ (u.dev.cycFrame n).unsent = none ∧ u.dev.regs = s.dev.regs ∧
      ∃ e ∈ u.dev.lastSent m.port, e.op = m.op ∧ e.index = m.index ∧ e.data = m.data ∧ e.canId = m.canId ∧ e.addr = m.addr) ∧
  (∀ (s : State) (t : Nat) (p : Fin 6), let d := s.devAt t
    let sends := fun (u : State) => u.dev.obj (0x1600 + p.val) 0x06 = satInc32 (s.dev.obj (0x1600 + p.val) 0x06) ∧
      (u.dev.port p).batch = ((s.dev.port p).batch + 1) % 256 ∧
      (∃ m ∈ (if p.val = 0 then (u.dev.port 0).readout else u.dev.sent), m.port = p ∧ m.op = 0x40 ∧ m.index = 0x1600 + p.val ∧
        m.tag = (s.dev.port p).batch % 256) ∧
      s.dev.sameBut u.dev (fun i w => decide (i = 0x1600 + p.val) && decide (w = 0x06))
    d.runs 12 = true → d.runs 2 = true → d.notifyOpen p = true → d.dozing p = false →
    (d.batchDue p = true → ∃ u, exec (.notify t p) s = .next u ∧ sends u) ∧
    (d.modTimeDue p = true → ∃ u, exec (.modTime t p) s = .next u ∧ sends u))

/-- Every device reset (each cause of R456, the escalation of a core's third restart and a start whose rails fail among them) and every PD12
reset leaves all resources unowned (R72). -/
def Obligations.ClaimsUnowned : Prop :=
  ∀ (s : State) (t : Nat),
    let d := s.devAt t
    let unowned := fun (c : Instr) => ∃ u, exec c s = .next u ∧ ∀ w, 1 ≤ w → w ≤ 0xA5 → u.dev.obj 0x1700 w = 0xFF
    unowned (.powerOn t) ∧
    (s.dev.rst.heldPin = false → unowned (.resetN t)) ∧
    (∀ r, s.takes t r 0x2F00 0x07 1 1 = true → unowned (.deviceReset t r)) ∧
    (∀ r, s.takes t r 0x1030 0x03 1 1 = true → unowned (.activate t r)) ∧
    (∀ k : Fin 14, 1 ≤ k.val → k.val ≤ 3 → d.pdOn k = true → unowned (.brownOut t k)) ∧
    (∀ c : Fin 4, d.coresRun = true → d.coreDown c = false →
      (c = 0 ∨ 2 ≤ ((d.core c).restarts.filter (fun x => decide (d.now < x + 60 * tqSec))).length) → unowned (.watchdog t c)) ∧
    (∀ w : Fin 16, d.watchDue w = true → d.rst.waking = false → d.rst.slept.isSome = true → unowned (.watchFire t w)) ∧
    (∀ k : Fin 14, d.inPhase 5 = true → unowned (.phaseP5 t (some k))) ∧
    (∀ r, s.takes t r 0x2F00 0x08 1 12 = true → unowned (.domainReset t r 12)) ∧
    (d.pdOn 12 = true → d.coresRun = true → unowned (.brownOut t 12))

/-- The loss of the reference (R111, R113): the first loss disarms both domains, enters RC fallback and is counted with its time; a loss
during relocking is counted too and ends the relocking. The way back from RC fallback (R113) and the calibrations of the vernier (R107,
R108): a reference that has stayed valid for ref_restore_time is locked to, REF_IN before the crystal, the lock ends the fallback, a
calibration that passes clears vernier_fail and the third failure in a row sets it. No other object changes. -/
def Obligations.ReferenceLostAndBack : Prop :=
  (∀ (s : State) (t : Nat),
    let d := s.devAt t
    let counted := fun (u : Dev) => u.obj 0x2000 0x05 = satInc32 (d.obj 0x2000 0x05) ∧ u.obj 0x2000 0x06 = d.now ∧
      u.obj 0x2000 0x03 = 0 ∧ u.tbBit 2 = true ∧ u.tbBit 3 = true ∧ u.tbBit 0 = false
    (d.tbBit 3 = false → d.tbBit 0 = true → ∃ u, exec (.refLoss t) s = .next u ∧ counted u.dev ∧ ∀ k < 2, u.dev.disarmed k) ∧
    (d.tbBit 3 = true → d.tbBit 4 = true → ∃ u, exec (.refLoss t) s = .next u ∧ counted u.dev ∧ u.dev.tbBit 4 = false)) ∧
  (∀ (s : State) (t : Nat),
    let d := s.devAt t
    (∀ (refIn : Fin 5) (crystal : Bool), refChoice refIn crystal ≠ 0 → d.tbBit 3 = true → d.tbBit 4 = false → ∀ x since, d.tb.restore = some (x, since) →
      since + d.obj 0x2000 0x07 * tqMs ≤ d.now →
      s.does t (.refRestore t ⟨refIn, crystal⟩) [(0x2000, 0x03), (0x2000, 0x04)] (fun u =>
        u.obj 0x2000 0x03 = (if 2 ≤ refIn.val then refIn.val else 1) ∧ u.tbBit 4 = true ∧ u.tbBit 3 = true ∧ u.tbBit 0 = true ∧ u.tbBit 1 = false)) ∧
    (d.tbBit 3 = true → d.tbBit 4 = true →
      s.does t (.relockDone t) [(0x2000, 0x04)] (fun u =>
        u.tbBit 3 = false ∧ u.tbBit 4 = false ∧ u.tbBit 1 = true ∧ u.tbBit 2 = d.tbBit 2 ∧ u.tb.restore = none)) ∧
    ∀ worst, d.rst.heldPower = false → d.rst.tbStopped = false → d.tb.calAt + tqMs ≤ d.now →
      s.does t (.vernierCalibration t worst) [(0x2000, 0x04), (0x2000, 0x08)] (fun u =>
        u.obj 0x2000 0x08 = min 65535 worst ∧
          (worst ≤ 200 → u.tbBit 5 = false ∧ u.tb.vernFails = 0) ∧
          (200 < worst → d.tb.vernFails < 2 → u.tbBit 5 = d.tbBit 5 ∧ u.tb.vernFails = d.tb.vernFails + 1) ∧
          (200 < worst → d.tb.vernFails = 2 → u.tbBit 5 = true)))

/-- The timebase epoch counts the restarts of the counter by a brown-out of PD1, and power-on sets it to 0 (R104); both set the counter to 0
(R103). -/
def Obligations.EpochCounts : Prop :=
  ∀ (s : State) (t : Nat),
    ((s.devAt t).pdOn 1 = true → ∃ u, exec (.brownOut t 1) s = .next u ∧ u.dev.now = 0 ∧
      u.dev.obj 0x2000 0x02 = satInc32 ((s.devAt t).obj 0x2000 0x02)) ∧
    (∃ u, exec (.powerOn t) s = .next u ∧ u.dev.now = 0 ∧ u.dev.obj 0x2000 0x02 = 0) ∧
    ∀ k : Fin 14, k ≠ 1 → ∃ u, exec (.brownOut t k) s = .next u ∧ u.dev.obj 0x2000 0x02 = (s.devAt t).obj 0x2000 0x02


/-- The conditioned level and its filter (R121, R122, R125, R126, R129, R159, R161): a crossing of the upper threshold of a low input and
one of the lower threshold of a high input enter the filter with their instant; between the thresholds nothing changes; the first
crossing of an unresolved input resolves it. A change that has passed the filter is discarded if its polarity is not selected, and its
stamp is taken on an input without a domain; a cam's change waits for a crank's of the same stamp that is still in its filter. The
fallback of a VR input and the timeout of aux_speed reset the arming peak and the speed. No other object changes. -/
def Obligations.WheelLevels : Prop :=
  ∀ (s : State) (t : Nat) (n : Fin 8),
    let d := s.devAt t
    let i := 0x2100 + n.val
    let w := d.wheel n
    d.runs 5 = true →
    (d.obj i 0x03 ≠ 0 → w.filt = none → ∀ mv peak,
      (d.bit i 0x0B 1 = false → d.bit i 0x0B 0 = false → d.armingLevel n < ((mv : Int) : Rat) →
        s.does t (.thresholdCrossing t n mv peak) [(i, 0x0B)] (fun u => u.bit i 0x0B 0 = true ∧ (u.wheel n).filt = some (d.now, true))) ∧
      (d.bit i 0x0B 1 = false → d.bit i 0x0B 0 = true → mv < d.sobj 16 i 0x07 →
        s.does t (.thresholdCrossing t n mv peak) [(i, 0x0B)] (fun u => u.bit i 0x0B 0 = false ∧ (u.wheel n).filt = some (d.now, false))) ∧
      (¬d.armingLevel n < ((mv : Int) : Rat) → ¬mv < d.sobj 16 i 0x07 →
        s.does t (.thresholdCrossing t n mv peak) [] (fun u => u.wheels = d.wheels)) ∧
      (d.bit i 0x0B 1 = true → d.armingLevel n < ((mv : Int) : Rat) →
        s.does t (.thresholdCrossing t n mv peak) [(i, 0x0B)] (fun u =>
          u.bit i 0x0B 1 = false ∧ u.bit i 0x0B 0 = true ∧ (u.wheel n).filt = none))) ∧
    (∀ c, d.crankTwin n = some c → (∀ st lvl, (d.wheel c).filt = some (st, lvl) → 10 * d.now < 10 * st + 1024 * d.obj (0x2100 + c) 0x05) →
      s.does t (.minPulseFilter t n) [] (fun u => u.wheels = d.wheels)) ∧
    (∀ st lvl, d.crankTwin n = none → w.filt = some (st, lvl) → 10 * st + 1024 * d.obj i 0x05 ≤ 10 * d.now → (∀ p, w.passedAt = some p → p + 20480 ≤ st) →
      (d.obj i 0x04 = (if lvl then 0 else 1) →
        s.does t (.minPulseFilter t n) [] (fun u => u.wheel n = { w with filt := none, passed := lvl, passedAt := some st })) ∧
      (d.obj i 0x04 = 2 → 1 < d.obj i 0x01 →
        s.does t (.minPulseFilter t n) [(i, 0x0B), (i, 0x0C), (i, 0x0D)] (fun u =>
          u.obj i 0x0C = st ∧ u.obj i 0x0D = satInc32 (d.obj i 0x0D) ∧ (u.wheel n).edges = w.edges + 1))) ∧
    (d.obj i 0x03 = 0 → d.bit i 0x0B 2 = false → ((d.obj i 0x0C : Nat) : Rat) + 2 * d.expected n ≤ ((d.now : Nat) : Rat) →
      s.does t (.armingFallback t n) [] (fun u => u.wheel n = { w with vrPeak := 0 })) ∧
    (d.obj i 0x02 = 2 → ((d.obj i 0x0C : Nat) : Rat) + 3 * d.expected n < ((d.now : Nat) : Rat) →
      s.does t (.auxSpeedTimeout t n) [(i, 0x11)] (fun u => u.obj i 0x11 = 0))

/-- A selected edge that comes less than E/4 after the last accepted one is rejected as noise (R131): it is not accepted, its line does not
pulse, no matcher and no synthesiser sees it, and rate_rejects counts it; last_edge, from which the next interval is measured, stays, as
does every other object. Only the rejection that is the sixteenth to count does more (R132): it sets reject_limit and blanks aux_speed
or moves the domain; of the edge itself the same holds, as it does of a cam edge that a crank edge of the same stamp goes before. -/
def Obligations.NoiseRejected : Prop :=
  ∀ (s : State) (t : Nat) (n : Fin 8) (st : Nat) (lvl : Bool),
    let d := s.devAt t
    let i := 0x2100 + n.val
    let early := fun (e : Dev) => e.runs 5 = true ∧ (e.wheel n).filt = some (st, lvl) ∧ 10 * st + 1024 * e.obj i 0x05 ≤ 10 * e.now ∧
      (∀ p, (e.wheel n).passedAt = some p → p + 20480 ≤ st) ∧ (e.obj i 0x04 = 2 ∨ e.obj i 0x04 = (if lvl then 1 else 0)) ∧
      0 < (e.wheel n).edges ∧ ((st - e.obj i 0x0C : Nat) : Rat) < e.expected n / 4
    let count := fun (e : Dev) =>
      (e.setWheel n { (e.wheel n) with rejAt := (((e.wheel n).edges, st) :: (e.wheel n).rejAt).take 4096 }).rejectCount n
    (d.crankTwin n = none → early d →
      (count d ≠ 16 → s.does t (.minPulseFilter t n) [(i, 0x0F)] (fun u => u.obj i 0x0F = satInc32 (d.obj i 0x0F) ∧
        (u.wheel n).edges = (d.wheel n).edges ∧ u.doms = d.doms ∧ u.synths = d.synths ∧ u.evt = d.evt)) ∧
      (count d = 16 → ∃ u, exec (.minPulseFilter t n) s = .next u ∧ u.dev.obj i 0x0F = satInc32 (d.obj i 0x0F) ∧
        u.dev.obj i 0x0C = d.obj i 0x0C ∧ u.dev.bit i 0x0B 4 = true ∧ (u.dev.wheel n).edges = (d.wheel n).edges ∧
        u.dev.line n = d.line n ∧ u.loft = s.loft)) ∧
    ∀ c, d.crankTwin n = some c → let e := d.filterDone c
      e.crankTwin n = none → early e → count e ≠ 16 →
      ∃ u, exec (.minPulseFilter t n) s = .next u ∧ u.dev.obj i 0x0F = satInc32 (e.obj i 0x0F) ∧ u.dev.obj i 0x0C = e.obj i 0x0C ∧
        (u.dev.wheel n).edges = (e.wheel n).edges ∧ u.dev.doms = e.doms ∧ u.dev.synths = e.synths ∧ u.dev.evt = e.evt ∧ u.loft = s.loft

/-- The timeouts of a domain (R133, R148 to R150, R153): a stall stops it, a lost crank or cam leads to LOSS or CAM_ONLY with its cause or
sets cam_fault, and the dwell in LOSS ends. The state of the other domain does not change. -/
def Obligations.DomainTimeouts : Prop :=
  ∀ (s : State) (t : Nat) (k : Fin 2),
    let d := s.devAt t
    let i := 0x2180 + k.val
    let late := fun n => ((d.obj (0x2100 + n) 0x0C : Nat) : Rat) + 3 * d.expected n
    let other := fun (u : Dev) => u.domState (1 - k) = d.domState (1 - k)
    d.runs 5 = true →
    (d.domState k ≠ 0 → (d.stallDeadline k).1 < ((d.now : Nat) : Rat) → d.edgePending (d.stallDeadline k).2 (d.stallDeadline k).1 = false →
      ∃ u, exec (.stall t k) s = .next u ∧ u.dev.domState k = 0 ∧ u.dev.obj i 0x15 = 9 ∧ u.dev.obj i 0x1B = d.now ∧
        u.dev.bit i 0x11 7 = true ∧ other u.dev) ∧
    (∀ n, (d.pat k).crankIn = some n → late n < ((d.now : Nat) : Rat) → d.edgePending [n] (late n) = false →
      (d.domState k = 2 ∨ (d.domState k = 3 ∧ d.bit i 0x11 1 = false) →
        ∃ u, exec (.crankAbsent t k) s = .next u ∧ u.dev.domState k = 5 ∧ u.dev.obj i 0x15 = 7 ∧
          u.dev.obj i 0x16 = satInc32 (d.obj i 0x16) ∧ u.dev.bit i 0x11 6 = true ∧ other u.dev) ∧
      (d.domState k = 3 → d.bit i 0x11 1 = true →
        ∃ u, exec (.crankAbsent t k) s = .next u ∧ u.dev.domState k = 4 ∧ u.dev.bit i 0x11 6 = true ∧ other u.dev)) ∧
    (∀ n, (d.pat k).camIn = some n → 0 < (d.wheel n).edges → (d.pat k).cam ≠ [] → late n < ((d.now : Nat) : Rat) →
      d.edgePending [n] (late n) = false →
      (d.domState k = 4 → ∃ u, exec (.camAbsent t k) s = .next u ∧ u.dev.domState k = 5 ∧ u.dev.obj i 0x15 = 8 ∧
        u.dev.obj i 0x16 = satInc32 (d.obj i 0x16) ∧ other u.dev) ∧
      (d.domState k = 3 → (d.dom k).absentNoted ≠ some (d.obj (0x2100 + n) 0x0C) →
        s.does t (.camAbsent t k) [(i, 0x11)] (fun u => u.bit i 0x11 5 = true ∧ u.bit i 0x11 4 = false ∧ u.domState k = 3))) ∧
    (d.domState k = 2 → d.obj i 0x0B * (d.pat k).edges ≤ (d.dom k).searchEdges → (d.dom k).searchNoted = false →
      s.does t (.camSearchRevs t k) [(i, 0x11)] (fun u => u.bit i 0x11 5 = true ∧ u.bit i 0x11 4 = false)) ∧
    (d.domState k = 5 → d.obj i 0x1B + d.obj i 0x0C * tqMs ≤ d.now →
      s.does t (.lossDwell t k) [] (fun u => (u.dom k).dwellDone = true))

/-- The arm command (R162): an accepted 1 arms the domain and an accepted 2 disarms it, whatever its synchronisation; the other domain stays
as it was, and neither domain changes its state. -/
def Obligations.ArmAndDisarm : Prop :=
  ∀ (s : State) (t : Nat) (r : Req) (k : Fin 2),
    let d := s.devAt t
    let i := 0x2180 + k.val
    let others := fun (u : Dev) => u.armed (1 - k) = d.armed (1 - k) ∧ ∀ j < 2, u.domState j = d.domState j
    (s.takes t r i 0x0F 1 1 = true → ∃ u, exec (.arm t r k) s = .next u ∧ u.dev.armed k = true ∧ others u.dev ∧ u.loft = s.loft) ∧
    (s.takes t r i 0x0F 1 2 = true → ∃ u, exec (.disarm t r k) s = .next u ∧ u.dev.armed k = false ∧ others u.dev ∧ u.loft = s.loft)


/-- Learning of the tooth table (R176, R177, R179): an accepted start begins a commanded run with no revolution, an abort ends a run with
state 5, the computation of a table that is due ends it with 3 or, out of range, 6, and a run that has spent its revolutions ends with
4; each leaves learn_count 0. No run changes the state of a domain. Refit and inertia (R183, R188): a refit that C2 finishes is the fit
of its cycle's snaps blended into the coefficients and waits for a snap with the mean rate of its cycle, one that is discarded is
counted; an inertia that is computed lies within its limits when they are ordered. Both leave the coefficients and the inertia in use as
they were. Angle marks (R190): the time of a mark is frozen from 40 us before it, and at its frozen time it is stamped and has fired in
the cycle of its word. -/
def Obligations.LearningAndPrediction : Prop :=
  (∀ (s : State) (t : Nat) (r : Req) (k : Fin 2),
    let d := s.devAt t
    let i := 0x2200 + k.val
    let j := 0x2210 + k.val
    let l := [(i, 0x0E), (i, 0x20), (i, 0x21), (j, 0x07), (0x2220 + k.val, 0x33)]
    (s.takes t r i 0x0D 1 1 = true → s.does t (.learnCmdStart t r k) l (fun u => u.obj i 0x0E = 1 ∧ u.obj j 0x07 = 0 ∧
      (u.synth k).acc = [] ∧ (u.synth k).tableDue = false)) ∧
    (s.takes t r i 0x0D 1 2 = true →
      (d.obj i 0x0E = 1 ∨ d.obj i 0x0E = 2 → s.does t (.learnCmdAbort t r k) l (fun u => u.obj i 0x0E = 5 ∧ u.obj j 0x07 = 0)) ∧
      (d.obj i 0x0E ≠ 1 → d.obj i 0x0E ≠ 2 → s.does t (.learnCmdAbort t r k) l (fun u => u.obj i 0x0E = d.obj i 0x0E))) ∧
    (d.runs 4 = true → (d.synth k).tableDue = true → d.coreDown 2 = false →
      s.does t (.tableCompute t k) l (fun u => (u.obj i 0x0E = 3 ∨ u.obj i 0x0E = 6) ∧ u.obj j 0x07 = 0 ∧ (u.synth k).tableDue = false ∧
        (u.obj i 0x0E = 3 → (u.synth k).table.isSome = true))) ∧
    (d.runs 4 = true → d.coreDown 2 = false → d.obj i 0x0E = 1 → 4 * d.obj i 0x08 ≤ (d.synth k).runRevs → (d.synth k).tableDue = false →
      s.does t (.learnTimeout t k) l (fun u => u.obj i 0x0E = 4 ∧ u.obj j 0x07 = 0))) ∧
  (∀ (s : State) (t : Nat) (k : Fin 2),
    let d := s.devAt t
    let i := 0x2200 + k.val
    d.runs 4 = true → d.coreDown 2 = false →
    (∀ mean snaps, (d.synth k).refitBegun = some (mean, snaps) →
      (∀ more : Fin 5, s.does t (.refit t k true more) [] (fun u =>
        (u.synth k).refit = some (d.refitBlend k (d.harmFitted k more snaps), mean) ∧ (u.synth k).refitBegun = none)) ∧
      (∀ more : Fin 5, s.does t (.refit t k false more) [(i, 0x27)] (fun u => u.obj i 0x27 = satInc32 (d.obj i 0x27) ∧ (u.synth k).refitBegun = none ∧
        (u.synth k).refit = (d.synth k).refit))) ∧
    ∀ rows, (d.synth k).inertiaIn = some rows → d.obj i 0x14 ≤ d.obj i 0x15 →
      s.does t (.inertiaUpdate t k) [(i, 0x28)] (fun u => (u.synth k).inertiaIn = none ∧
        ((u.synth k).inertia = (d.synth k).inertia ∨ ∃ v, (u.synth k).inertia = some v ∧ d.obj i 0x14 ≤ v ∧ v ≤ d.obj i 0x15))) ∧
  (∀ (s : State) (t : Nat) (k : Fin 2) (m : Fin 4) (at_ : Nat),
    let d := s.devAt t
    let v := (d.synth k).mark m
    d.runs 5 = true →
    (v.time = some at_ → v.frozen = none → at_ ≤ d.now + 40 * tqUs →
      s.does t (.markFreeze t k m) [] (fun u => (u.synth k).mark m = { v with frozen := some at_ })) ∧
    (v.frozen = some at_ → at_ ≤ d.now → d.domState k = 3 ∨ d.domState k = 4 →
      ∃ u, exec (.markFire t k m) s = .next u ∧ u.dev.obj (0x2200 + k) (0x2A + m) = at_ ∧ ((u.dev.synth k).mark m).fired = some (v.target / auCycle) ∧
        ((u.dev.synth k).mark m).frozen = none ∧ u.loft = s.loft))

/-- The clears of the wheel inputs, domains, synthesisers, tooth tables, scheduler, channels, banks and boost controllers (R119, R165, R166,
R199, R200, R237, R269 to R271): the counters named read 0, the sticky bits named are cleared with the other bits as they were, and no
object outside chapter 02 but these changes (the tooth table's clear aborts a learning run, R179, and brings the synthesiser's status up
to date). -/
def Obligations.ClearsOfAngle : Prop :=
  ∀ (s : State) (t : Nat) (r : Req),
    let d := s.devAt t
    (s.takes t r 0x2000 0x09 1 1 = true → s.does t (.clearFlags t r) [(0x2000, 0x04)] (fun u =>
      u.obj 0x2000 0x04 = bitTo (d.obj 0x2000 0x04) 2 false)) ∧
    (∀ n : Fin 8, s.takes t r (0x2100 + n) 0x12 1 1 = true →
      s.does t (.wheelClear t r n) ((0x2100 + n, 0x0B) :: span (0x2100 + n) 0x0D 0x10) (fun u =>
        u.zeroed (span (0x2100 + n) 0x0D 0x10) ∧ u.obj (0x2100 + n) 0x0B = d.obj (0x2100 + n) 0x0B &&& 0x07)) ∧
    (∀ k : Fin 2, s.takes t r (0x2180 + k) 0x1C 1 1 = true →
      s.does t (.domainClear t r k) ((0x2180 + k, 0x11) :: span (0x2180 + k) 0x16 0x1A) (fun u =>
        u.zeroed (span (0x2180 + k) 0x16 0x1A) ∧ u.obj (0x2180 + k) 0x11 = bitTo (d.obj (0x2180 + k) 0x11) 7 false)) ∧
    (∀ k : Fin 2, s.takes t r (0x2180 + k) 0x3E 1 1 = true →
      s.does t (.schedClear t r k) (span (0x2180 + k) 0x35 0x3D) (fun u => u.zeroed (span (0x2180 + k) 0x35 0x3D))) ∧
    (∀ k : Fin 2, s.takes t r (0x2200 + k) 0x2E 1 1 = true →
      s.does t (.synthClear t r k) ((0x2200 + k, 0x20) :: (0x2200 + k, 0x21) :: (0x2220 + k, 0x33) :: span (0x2200 + k) 0x25 0x2D) (fun u =>
        u.zeroed (span (0x2200 + k) 0x25 0x2D))) ∧
    (∀ k : Fin 2, s.takes t r (0x2210 + k) 0x08 1 1 = true →
      s.does t (.toothTableClear t r k) ((0x2200 + k, 0x20) :: (0x2200 + k, 0x21) :: (0x2220 + k, 0x33) :: [(0x2200 + k.val, 0x0E), (0x2210 + k, 0x01), (0x2210 + k, 0x03), (0x2210 + k, 0x04), (0x2210 + k, 0x07)]) (fun u =>
        u.obj (0x2210 + k) 0x01 = 0 ∧ (d.obj (0x2200 + k) 0x0E = 1 ∨ d.obj (0x2200 + k) 0x0E = 2 → u.obj (0x2200 + k) 0x0E = 5) ∧ u.bit (0x2200 + k) 0x21 2 = false)) ∧
    (∀ n : Fin 48, s.takes t r (0x2700 + n) 0x0E 1 1 = true →
      s.does t (.channelClear t r n) (span (0x2700 + n) 0x09 0x0D) (fun u => u.zeroed (span (0x2700 + n) 0x09 0x0D))) ∧
    (∀ b : Fin 16, s.takes t r (0x2740 + b) 0x15 1 1 = true →
      s.does t (.bankClear t r b) (span (0x2740 + b) 0x12 0x14) (fun u => u.zeroed (span (0x2740 + b) 0x12 0x14))) ∧
    ∀ x : Fin 2, s.takes t r (0x2780 + x) 0x11 1 1 = true →
      s.does t (.boostClear t r x) (span (0x2780 + x) 0x0E 0x0F) (fun u => u.zeroed (span (0x2780 + x) 0x0E 0x0F))

/-- The lock point (R216): the armed occurrence of a shot whose start is no further than lock_lead away locks, with its start frozen as
resolved and its end after the duration; stated where no lower shot is armed and nothing is locked or running. A shot starts (R245): a
locked occurrence that is due, on an idle bank with a ready rail and with nothing that holds the gates, takes the bank and enters boost
with its low side on; it runs, and its start and its counters are recorded. -/
def Obligations.ShotsLockAndStart : Prop :=
  (∀ (s : State) (t : Nat) (sh : Fin 1024) (id : Nat) (o : Occ) (start : Nat),
    let d := s.devAt t
    d.runs 6 = true → d.occ id = o → o.dur = d.elecDur o.cfg →
    d.occs.filter (fun e => decide (e.2.rid = sh.val) && e.2.st = .armed && !e.2.ghost) = [(id, o)] →
    (∀ e ∈ d.occs, e.2.st ≠ .locked ∧ e.2.st ≠ .running ∧ (e.2.rid < sh.val → e.2.st ≠ .armed)) →
    o.start = some start → start ≤ d.now + d.lockLead o.dom →
    ∃ u, exec (.lockPoint t sh false) s = .next u ∧ (u.dev.occ id).st = .locked ∧ (u.dev.occ id).frozen = true ∧
      (u.dev.occ id).start = some start ∧ (u.dev.occ id).stop = start + o.dur ∧ (u.dev.occ id).rid = o.rid ∧ u.loft = s.loft) ∧
  (∀ (s : State) (t : Nat) (sh : Fin 1024) (cur id start : Nat) (o : Occ),
    let d := s.devAt t
    let n := o.cfg.channel
    let b := d.bankOf n
    d.runs 6 = true → d.dueStart sh = some (id, o) → d.bestRival (id, o) = (id, o) → d.occ id = o → o.rid = sh → o.ghost = false →
    o.start = some start → n < 48 → o.cut = false → d.cutNow o = false → d.stops.killLow = false →
    d.bit 0x28C8 0x01 7 = false → d.stops.linkDown = false → d.tapBlocks = false → d.startCheck n = none →
    (d.bank b).holder = none → o.shadow.getD 14 0 % 2 = 0 → d.bit (0x2780 + d.railOf b) 0x0C 2 = true →
    ∃ u, exec (.shotStart t sh cur) s = .next u ∧ u.dev.phase n = 2 ∧ (u.dev.chan n).started = true ∧ (u.dev.chan n).low = true ∧
      (u.dev.chan n).occ = some id ∧ (u.dev.bank b).holder = some n ∧ (u.dev.occ id).st = .running ∧
      u.dev.obj (0x3000 + sh) 0x15 = d.edgeAt start ∧ u.dev.obj (0x3000 + sh) 0x19 = satInc32 (d.obj (0x3000 + sh) 0x19) ∧
      u.dev.obj (0x2700 + n) 0x09 = satInc32 (d.obj (0x2700 + n) 0x09) ∧ u.loft = s.loft)

/-- The programmed end (R247, R248): a started shot whose end has come goes to decay, whatever its phase, and its end is recorded; in fast
decay its low side is off. The oldest write that waits is taken from the queue of writes when it is applied (R224). Cancels (R227): an
accepted cancel takes away the present occurrence of a shot that has not started and whose edge is not on its way, of a sheaf's one
member, or of a domain's one top-level record; a running occurrence stays. The disabling forms also clear enable. -/
def Obligations.ShotsEndOrAreCancelled : Prop :=
  ((∀ (s : State) (t : Nat) (sh : Fin 1024) (n id : Nat) (c : Chan),
    let d := s.devAt t
    d.chans.find? (fun e => decide (e.2.shot = sh.val) && e.2.occ.isSome && decide (d.edgeAt e.2.stop ≤ d.now) && decide (d.phase e.1 ≠ 5))
      = some (n, c) →
    d.chan n = c → d.runs (groupPd n) = true → c.started = true → c.deferWait = false → c.occ = some id →
    ∃ u, exec (.programmedEnd t sh) s = .next u ∧ u.dev.phase n = 5 ∧
      u.dev.obj (recIx (d.occ id).rid) 0x16 = (d.occ id).stop ∧ (c.prof.getD 7 0 ≠ 1 → (u.dev.chan n).low = false) ∧ u.loft = s.loft) ∧
  ∀ (s : State) (t : Nat) (w : PendWrite) (rest : List PendWrite), (s.devAt t).runs 6 = true → (s.devAt t).pendW = w :: rest →
    ∃ u, exec (.writeApplication t) s = .next u ∧ u.dev.pendW = rest ∧ u.loft = s.loft) ∧
  (∀ (s : State) (t : Nat) (r : Req),
    let e := (s.devAt t).arrive r
    let oneOf := fun (h m id : Nat) => (e.occs.filter (fun x => x.2.rid = 0x8000 + h)).map (fun x =>
      ((shotsUnder (e.treeOf x.2.tree) (0x8000 + h)).filter (fun y => y.2.st ≠ .done)).map (fun y => (y.1, y.2.rid))) = [[(id, m)]]
    (∀ sh : Fin 1024, s.takes t r (0x3000 + sh) 0x11 1 1 = true →
      (∀ id, e.cancellable sh id → ∃ u, exec (.shotCancel t r sh) s = .next u ∧ u.dev.present sh = [] ∧ u.loft = s.loft) ∧
      (∀ x l, e.present sh = x :: l → x.2.st = .running → s.does t (.shotCancel t r sh) [] (fun u => u.occs = e.occs))) ∧
    (∀ (sh : Fin 1024) (id : Nat), s.takes t r (0x3000 + sh) 0x11 1 2 = true → e.cancellable sh id →
      ∃ u, exec (.shotCancelDisable t r sh) s = .next u ∧ u.dev.present sh = [] ∧ u.dev.obj (0x3000 + sh) 0x01 = 0 ∧ u.loft = s.loft) ∧
    (∀ (h : Fin 512) (m id : Nat), oneOf h m id → e.cancellable m id →
      (s.takes t r (0x2400 + h) 0x0E 1 1 = true → ∃ u, exec (.sheafCancel t r h) s = .next u ∧ u.dev.present m = [] ∧ u.loft = s.loft) ∧
      (s.takes t r (0x2400 + h) 0x0E 1 2 = true → ∃ u, exec (.sheafCancelDisable t r h) s = .next u ∧ u.dev.present m = [] ∧
        u.dev.obj (0x2400 + h) 0x01 = 0 ∧ u.loft = s.loft)) ∧
    ∀ (k : Fin 2) (x m id : Nat), s.takes t r (0x2180 + k) 0x34 1 1 = true →
      e.rooted.filter (fun r => (parentSlot (e.obj (recIx r) 0x02)).isSome && e.recDom r == some k.val) = [x] →
      ((isSheaf x = false ∧ m = x) ∨ ∃ h < 512, x = 0x8000 + h ∧ oneOf h m id) → e.cancellable m id →
      ∃ u, exec (.cancelAll t r k) s = .next u ∧ u.dev.present m = [] ∧ u.loft = s.loft)

/-- The phases of a shot (R245, R246, R248, R252): boost ends by current or by time, with its duration recorded (a current that has reached
i_boost at the same instant ends it by current), and peak follows, once the bank's switch has risen, or hold where t_peak is 0; peak
ends in hold; decay ends idle, with the channel's record empty. -/
def Obligations.PhasesOfAShot : Prop :=
  ∀ (s : State) (t : Nat) (n : Fin 48) (cur : Nat),
    let d := s.devAt t
    let i := 0x2700 + n.val
    let c := d.chan n
    let boostOver := fun (u : Dev) => u.obj i 0x06 = min 65535 ((d.now - c.phaseAt) / 1024) ∧
      (c.prof.getD 4 0 = 0 → u.phase n = 4) ∧
      (c.prof.getD 4 0 ≠ 0 → u.phase n = 3 ∨ (u.phase n = 2 ∧ (u.bank (d.bankOf n)).entering = some (n.val, 3)))
    d.runs (groupPd n) = true → c.deferWait = false →
    (d.phase n = 2 → (d.bank (d.bankOf n)).entering = none →
      (∃ u, exec (.boostCurrentEnd t n) s = .next u ∧ boostOver u.dev ∧ u.loft = s.loft) ∧
      (c.phaseAt + c.prof.getD 1 0 * 1024 ≤ d.now →
        ∃ u, exec (.boostTimeEnd t n cur) s = .next u ∧ boostOver u.dev ∧
          u.dev.bit i 0x04 8 = (if c.upper 2 ≤ cur then d.bit i 0x04 8 else true) ∧ u.loft = s.loft)) ∧
    (d.phase n = 3 → c.phaseAt + c.prof.getD 4 0 * 1024 ≤ d.now →
      ∃ u, exec (.peakEnd t n cur) s = .next u ∧ u.dev.phase n = 4 ∧ u.loft = s.loft) ∧
    (d.phase n = 5 →
      (∃ u, exec (.decayEnd t n) s = .next u ∧ u.dev.phase n = 0 ∧ u.dev.chan n = {} ∧ u.loft = s.loft) ∧
      (c.phaseAt + c.prof.getD 11 0 * 1024 ≤ d.now →
        ∃ u, exec (.decayTimeout t n) s = .next u ∧ u.dev.phase n = 0 ∧ u.dev.chan n = {} ∧ u.dev.bit i 0x04 11 = true ∧ u.loft = s.loft))

/-- Regulation in peak and hold (R249, R250): the upper threshold turns the low side off after blanking, the lower one turns it on once
t_off_min has run; before that the cycle is limited and counted, and the chop limit is a fault of the channel. No other object changes. -/
def Obligations.RegulationChops : Prop :=
  ∀ (s : State) (t : Nat) (n : Fin 48),
    let d := s.devAt t
    let i := 0x2700 + n.val
    let j := 0x2880 + n.val
    let c := d.chan n
    d.runs (groupPd n) = true → d.phase n = 3 ∨ d.phase n = 4 →
    (c.low = true → c.onAt + c.prof.getD 9 0 * 64 ≤ d.now →
      s.does t (.regulationUpper t n) [] (fun u => (u.chan n).low = false ∧ (u.chan n).offAt = d.now)) ∧
    (c.low = false →
      (c.offAt + c.prof.getD 8 0 * 64 ≤ d.now →
        s.does t (.regulationLower t n) [] (fun u => (u.chan n).low = true ∧ (u.chan n).onAt = d.now)) ∧
      (d.now < c.offAt + c.prof.getD 8 0 * 64 → c.limitedNow = false →
        (c.limited + 1 ≠ c.diag.getD 6 0 →
          s.does t (.regulationLower t n) [(i, 0x04), (i, 0x0D)] (fun u => (u.chan n).low = false ∧ (u.chan n).limited = c.limited + 1 ∧
            u.obj i 0x0D = satInc32 (d.obj i 0x0D) ∧ u.bit i 0x04 9 = true)) ∧
        (c.limited + 1 = c.diag.getD 6 0 →
          s.does t (.regulationLower t n) [(i, 0x04), (i, 0x0D), (j, 0x09), (j, 0x0A), (j, 0x0B), (j, 0x10)] (fun u =>
            (u.chan n).limited = c.limited + 1 ∧ u.bit j 0x09 4 = true ∧ u.obj j 0x0B = d.now ∧ u.obj j 0x10 = satInc32 (d.obj j 0x10)))))

/-- The sharing of a bank (R252, R253, R255, R258, R305): after the dead time the switch that waited rises and the shot that took the bank
enters its phase; a deferred shot whose wait reaches the max_defer that it began under (unless the holder leaves in that cycle, R258),
and one that has waited t_ready_max for its rail, are dropped and leave their channel idle. The map lock (R238, R270) is stored and
changes nothing else. The boost controllers (R259, R260, R262): ready rises and falls with the rail's voltage, periods of 1/fsw follow
each other; the gate turns on at a period's start below the target, with the ramp it owns set back (R352), and off at its end, the soft
start completes once its reference is at the target, and rail_enable turns a controller on and off. -/
def Obligations.BanksAndRails : Prop :=
  ((∀ (s : State) (t : Nat) (b : Fin 16) (cur at_ : Nat) (x : Bool),
    let d := s.devAt t
    (d.bank b).rise = some (x, at_) → d.runs (if b.val < 8 then 7 else 8) = true → at_ ≤ d.now →
    ∃ u, exec (.deadTime t b cur) s = .next u ∧ (u.dev.bank b).bhb = x ∧ (u.dev.bank b).bhs = !x ∧ (u.dev.bank b).rise = none ∧
      (u.dev.bank b).entering = none ∧ (∀ n ph, (d.bank b).entering = some (n, ph) → u.dev.phase n = ph) ∧ u.loft = s.loft) ∧
  (∀ (s : State) (t : Nat) (n : Fin 48),
    let d := s.devAt t
    let i := 0x2700 + n.val
    let c := d.chan n
    d.runs (groupPd n) = true →
    (c.deferWait = true → c.waitFrom + c.deferMax * 1024 ≤ d.now →
      (d.leavesNow (d.bankOf n) = false → ∃ u, exec (.maxDefer t n) s = .next u ∧ u.dev.phase n = 0 ∧ u.dev.chan n = {} ∧
        u.dev.obj i 0x0B = satInc32 (d.obj i 0x0B) ∧ u.dev.bit i 0x04 5 = true ∧ u.loft = s.loft) ∧
      (d.leavesNow (d.bankOf n) = true → s.does t (.maxDefer t n) [] (fun u => u.chans = d.chans))) ∧
    (c.deferWait = false → c.railWait = true → c.waitFrom + c.prof.getD 13 0 * 1024 ≤ d.now →
      ∃ u, exec (.tReadyMax t n) s = .next u ∧ u.dev.phase n = 0 ∧ u.dev.chan n = {} ∧ u.dev.bit (0x2880 + n) 0x0A 0 = true ∧
        u.loft = s.loft)) ∧
  ∀ (s : State) (t : Nat) (r : Req) (b : Fin 16), s.takes t r (0x2740 + b) 0x08 1 1 = true →
    s.does t (.mapLock t r b) [(0x2740 + b, 0x08)] (fun u => u.obj (0x2740 + b) 0x08 = 1)) ∧
  (∀ (s : State) (t : Nat) (x : Fin 2) (mv : Nat),
    let d := s.devAt t
    let i := 0x2780 + x.val
    let seen := (0x28C0 + x.val, 0x07)
    let ramp := fun (w : Nat) => (0x2A10 + d.obj i 0x07, w)
    (d.runs 9 = true →
      (d.obj i 0x01 = 1 → (d.boost x).softDone = true → d.readyMv x ≤ mv →
        ∃ u, exec (.readyRise t x mv) s = .next u ∧ u.dev.bit i 0x0C 2 = true ∧ u.loft = s.loft) ∧
      (mv + 1000 < d.readyMv x → s.does t (.readyFall t x mv) [seen, (i, 0x0C), (i, 0x0F)] (fun u => u.bit i 0x0C 2 = false ∧
        (d.bit i 0x0C 2 = true → d.obj i 0x01 = 1 → u.obj i 0x0F = satInc32 (d.obj i 0x0F)))) ∧
      (d.obj i 0x01 = 1 → d.stops.armHigh = false → d.stops.killLow = false → d.bit 0x28C8 0x01 7 = false → d.tapBlocks = false →
        let e := d.now + tqMs / d.obj i 0x04
        (d.boostDue x = true →
          (mv < d.obj i 0x02 * 250 + 500 → s.does t (.boostPeriod t x mv) [seen, ramp 0x08, ramp 0x09] (fun u =>
            (u.boost x).gate = true ∧ (u.boost x).periodAt = some d.now ∧ (u.boost x).periodEnd = e ∧ (u.boost x).pulseEnd = e)) ∧
          (d.obj i 0x02 * 250 + 500 ≤ mv → s.does t (.boostPeriod t x mv) [seen, ramp 0x08, ramp 0x09] (fun u =>
            (u.boost x).gate = false ∧ (u.boost x).periodAt = some d.now ∧ (u.boost x).periodEnd = e ∧
              (u.boost x).pulseEnd = (d.boost x).pulseEnd))) ∧
        (d.boostDue x = false → s.does t (.boostPeriod t x mv) [seen] (fun u => u.boost x = { (d.boost x) with mv := mv }))) ∧
      (∀ limit, (d.boost x).gate = true → s.does t (.boostGateOff t x limit) [] (fun u =>
        (u.boost x).gate = false ∧ (limit = true → d.boostOn x = true → (u.boost x).limitAt = some d.now))) ∧
      (d.obj i 0x01 = 1 → d.bit i 0x0C 3 = true → d.refNow x (d.obj i 0x02) (d.obj i 0x09) = refGoal (d.obj i 0x02) →
        ∃ u, exec (.softStartDone t x mv) s = .next u ∧ u.dev.bit i 0x0C 3 = false ∧ (u.dev.boost x).softDone = true ∧ u.loft = s.loft)) ∧
    ∀ r, (s.takes t r i 0x01 1 1 = true →
        ∃ u, exec (.railEnable t r x) s = .next u ∧ u.dev.obj i 0x01 = 1 ∧ u.dev.bit i 0x0C 0 = true ∧ u.dev.bit i 0x0C 5 = false ∧
          u.loft = s.loft) ∧
      (s.takes t r i 0x01 1 0 = true →
        ∃ u, exec (.railDisable t r x) s = .next u ∧ u.dev.obj i 0x01 = 0 ∧ u.loft = s.loft ∧
          (d.obj i 0x01 = 1 → u.dev.bit i 0x0C 0 = false ∧ u.dev.bit i 0x0C 2 = false ∧ u.dev.bit i 0x0C 3 = false)))

/-- The capture lanes (R273 to R275, R282, R297): a reserved interval begins at the first converter clock edge at or after its start, but
not on a held lane (log 101), an overrun abandons it with a result, its end stores its samples in the lane's buffer and nowhere else,
and a lane is held at once or after its capture, and released. The kink engine and the results (R284, R286): the oldest finished capture
of a lane is searched and its result queued; the oldest result of a channel is written to its record in the Loft (with what an abandoned
capture left in its lane's buffer, and nowhere else), to its object, and on to C3, if that runs, if its shot learns. A search that gives
no close_time, hyd or kink leaves these free (the spec states none). -/
def Obligations.CapturesAndResults : Prop :=
  (∀ (s : State) (t : Nat) (k : Fin 16),
    let d := s.devAt t
    let i := 0x2840 + k.val
    let l := d.lane k
    (d.runs 10 = true →
      (∀ c, l.res = some c → l.cap = none → c.start ≤ d.now →
        (l.held = false → s.does t (.captureStart t k) [(i, 0x03)] (fun u => u.obj i 0x03 = c.chan ∧
          ∃ t0, u.lane k = { l with res := none, cap := some { c with t0 := t0 } } ∧ c.start ≤ t0 ∧ t0 < c.start + 256 ∧ t0 % 256 = 0)) ∧
        (l.held = true → s.does t (.captureStart t k) [] (fun u => u.lane k = { l with res := none } ∧
          (u.closure c.chan).res = (d.closure c.chan).res ++ [d.aborted c k false]))) ∧
      (∀ c, l.cap = some c → s.does t (.laneOverrun t k) [(i, 0x06)] (fun u => (u.lane k).cap = none ∧ (u.lane k).ended = some d.now ∧
        u.obj i 0x06 = satInc32 (d.obj i 0x06) ∧ (u.closure c.chan).res = (d.closure c.chan).res ++ [d.aborted c k true])) ∧
      (∀ c xs, l.cap = some c → c.stop ≤ d.now →
        let ys := xs.take (c.count c.stop)
        ∃ u, exec (.captureEnd t k xs) s = .next u ∧ s.puts u (0x28000 * k) (sampleBytes ys) ∧ (u.dev.lane k).cap = none ∧
          u.dev.obj i 0x05 = satInc32 (d.obj i 0x05) ∧ u.dev.obj i 0x08 = c.t0 ∧ u.dev.obj i 0x09 = ys.length ∧ u.dev.obj i 0x0B = c.shot ∧
          s.keeps t u [(i, 0x05), (i, 0x08), (i, 0x09), (i, 0x0B)])) ∧
    ∀ r, (s.takes t r i 0x07 1 1 = true → s.does t (.laneHold t r k) [] (fun u =>
        u.lane k = if l.cap.isSome then { l with holdAfter := true } else { l with held := true })) ∧
      (s.takes t r i 0x07 1 2 = true → s.does t (.laneRelease t r k) [] (fun u => u.lane k = { l with held := false, holdAfter := false }))) ∧
  ((∀ (s : State) (t : Nat) (k : Fin 16) (c : Cap) (rest : List Cap),
    let d := s.devAt t
    d.runs 10 = true → (d.lane k).toSearch = c :: rest → (c.clo.getD 0 0 ≠ 1 ∨ c.decayEnd.isSome = true) →
    s.does t (.kinkSearch t k) [] (fun u => u.lane k = { (d.lane k) with toSearch := rest } ∧
      (u.closure c.chan).res = (d.closure c.chan).res ++ [d.kinkResult s.loft k c])) ∧
  ∀ (s : State) (t : Nat) (n : Fin 48) (r : CloRes) (rest : List CloRes),
    let d := s.devAt t
    let i := 0x2800 + n.val
    let q := { (d.resultFilled n r) with serial := (d.closure n).written + 1 }
    d.runs 10 = true → (d.closure n).res = r :: rest →
    ∃ u, exec (.resultWrite t n) s = .next u ∧ (u.dev.closure n).res = rest ∧ (u.dev.closure n).written = q.serial ∧
      (∀ x < 26, loftByte u.loft (cloAddr n + x) = (q.bytes (d.obj i 0x1E)).getD x 0) ∧
      (∀ x, ¬(cloAddr n ≤ x ∧ x < cloAddr n + 26) → ¬(0x28000 * r.lane ≤ x ∧ x < 0x28000 * r.lane + 2 * r.taken) →
        loftByte u.loft x = loftByte s.loft x) ∧
      (u.dev.closure n).learn = (d.closure n).learn ++ (if r.durMode = 1 ∧ d.coreDown 3 = false then [q] else []) ∧
      u.dev.obj i 0x1C = q.close ∧ u.dev.obj i 0x1D = q.hyd ∧ u.dev.obj i 0x20 = r.flags ∧ u.dev.obj i 0x21 = r.lane ∧
      u.dev.obj i 0x22 = satInc32 (d.obj i 0x22) ∧ (r.flags.testBit 0 = true → q.close = r.close ∧ q.hyd = r.hyd) ∧
      (r.flags.testBit 1 = true → u.dev.obj i 0x23 = satInc32 (d.obj i 0x23)) ∧
      (r.flags.testBit 2 = true → u.dev.obj i 0x24 = satInc32 (d.obj i 0x24)) ∧
      s.keeps t u [(i, 0x1C), (i, 0x1D), (i, 0x1F), (i, 0x20), (i, 0x21), (i, 0x22), (i, 0x23), (i, 0x24)])

/-- Shot learning (R288, R291): C3 processes each written result of a channel once, oldest first. With learning on, a result that is
excluded, or off the window, or not detected moves no trim; one that counts moves the trim of its role by its error times the gain, the
step held to step_max and the trim to its limits. Of the Loft only the error and the flags of the channel's record change.
RESET_LEARNING gives the named roles their initial trim and state 0, and leaves the others. -/
def Obligations.TrimsLearn : Prop :=
  ∀ (s : State) (t : Nat) (n : Fin 48),
    let d := s.devAt t
    let i := 0x2800 + n.val
    (∀ (r : CloRes) (rest : List CloRes), d.runs 10 = true → d.coreDown 3 = false → (d.closure n).learn = r :: rest → r.role < 4 →
      let err : Int := (r.hyd : Int) - r.duration
      let raw := Int.tdiv (err * (cloOf r.clo 0x0C : Nat)) 256
      let most : Int := (cloOf r.clo 0x0D : Nat)
      let step := if most < raw.natAbs then (if err < 0 then -most else most) else raw
      let lo := toSigned 32 (cloOf r.clo 0x0E)
      let hi := toSigned 32 (cloOf r.clo 0x0F)
      ∃ u, exec (.shotLearning t n) s = .next u ∧ (u.dev.closure n).learn = rest ∧
        (∀ q, ¬(cloAddr n + 12 ≤ q ∧ q < cloAddr n + 16) → ¬(cloAddr n + 20 ≤ q ∧ q < cloAddr n + 22) → loftByte u.loft q = loftByte s.loft q) ∧
        s.keeps t u ((0x2F20, 0x08) :: (i, 0x14 + r.role) :: (i, 0x18 + r.role) :: [(i, 0x1E), (i, 0x20), (i, 0x26), (i, 0x27)]) ∧
        (cloOf r.clo 0x0B = 0 → s.keeps t u []) ∧
        (cloOf r.clo 0x0B ≠ 0 →
          (r.excluded = true ∨ r.flags.testBit 0 = false ∨ cloOf r.clo 0x11 < err.natAbs → u.dev.trim n r.role = d.trim n r.role) ∧
          (r.excluded = false → r.flags.testBit 0 = true → cloOf r.clo 0x11 < err.natAbs → u.dev.obj i 0x26 = satInc32 (d.obj i 0x26)) ∧
          (r.excluded = false → r.flags.testBit 0 = true → err.natAbs ≤ cloOf r.clo 0x11 → cloOf r.clo 0x0E < 2 ^ 32 → cloOf r.clo 0x0F < 2 ^ 32 →
            u.dev.trim n r.role = min hi (max (d.trim n r.role - step) lo) ∧
              (u.dev.obj i (0x18 + r.role) = 1 ∨ u.dev.obj i (0x18 + r.role) = 2)))) ∧
    ∀ r mask, s.takes t r i 0x28 1 mask = true →
      s.does t (.resetLearning t r n mask) ((0x2F20, 0x08) :: span i 0x14 0x1B) (fun u =>
        ∀ k < 4, if mask.testBit k then u.obj i (0x14 + k) = d.obj i 0x10 ∧ u.obj i (0x18 + k) = 0
          else u.obj i (0x14 + k) = d.obj i (0x14 + k) ∧ u.obj i (0x18 + k) = d.obj i (0x18 + k))


/-- The clears of closure sensing, of the diagnostics and protection, and of the pressure and vibration channels (R296, R297, R306, R314 to
R317, R338, R339): the counters named read 0, the sticky bits named are cleared with the other bits as they were, an inhibit or a bank
failure is lifted by its own command; no object outside chapter 02 but these changes. -/
def Obligations.ClearsOfSensing : Prop :=
  ∀ (s : State) (t : Nat) (r : Req),
    let d := s.devAt t
    (∀ n : Fin 48, s.takes t r (0x2800 + n) 0x29 1 1 = true →
      s.does t (.closureClear t r n) (span (0x2800 + n) 0x22 0x27) (fun u => u.zeroed (span (0x2800 + n) 0x22 0x27))) ∧
    (∀ k : Fin 16, s.takes t r (0x2840 + k) 0x0C 1 1 = true →
      s.does t (.laneClear t r k) (span (0x2840 + k) 0x05 0x06) (fun u => u.zeroed (span (0x2840 + k) 0x05 0x06))) ∧
    (∀ n : Fin 48, s.takes t r (0x2880 + n) 0x13 1 1 = true →
      s.does t (.channelClearFault t r n) [(0x2880 + n, 0x09)] (fun u => u.obj (0x2880 + n) 0x09 = bitTo (d.obj (0x2880 + n) 0x09) 8 false)) ∧
    (∀ b : Fin 16, s.takes t r (0x28B0 + b) 0x09 1 1 = true →
      s.does t (.bankClearFault t r b) [(0x28B0 + b, 0x04)] (fun u => u.obj (0x28B0 + b) 0x04 = bitTo (d.obj (0x28B0 + b) 0x04) 4 false)) ∧
    (∀ n : Fin 48, s.takes t r (0x2880 + n) 0x14 1 1 = true →
      s.does t (.channelDiagClear t r n) ((0x2880 + n, 0x09) :: span (0x2880 + n) 0x0C 0x12) (fun u =>
        u.zeroed (span (0x2880 + n) 0x0C 0x12) ∧ u.obj (0x2880 + n) 0x09 = d.obj (0x2880 + n) 0x09 &&& 0x100)) ∧
    (∀ b : Fin 16, s.takes t r (0x28B0 + b) 0x0A 1 1 = true →
      s.does t (.bankDiagClear t r b) ((0x28B0 + b, 0x04) :: span (0x28B0 + b) 0x07 0x08) (fun u =>
        u.zeroed (span (0x28B0 + b) 0x07 0x08) ∧ u.obj (0x28B0 + b) 0x04 = d.obj (0x28B0 + b) 0x04 &&& 0x18)) ∧
    (∀ x : Fin 2, s.takes t r (0x28C0 + x) 0x08 1 1 = true →
      s.does t (.boostDiagClear t r x) ((0x28C0 + x, 0x04) :: span (0x28C0 + x) 0x05 0x07) (fun u =>
        u.zeroed (span (0x28C0 + x) 0x05 0x07) ∧ u.obj (0x28C0 + x) 0x04 = bitTo (d.obj (0x28C0 + x) 0x04) 2 false)) ∧
    (s.takes t r 0x28C8 0x0A 1 1 = true →
      s.does t (.driveProtectionClear t r) ((0x28C8, 0x01) :: span 0x28C8 0x05 0x07) (fun u =>
        u.zeroed (span 0x28C8 0x05 0x07) ∧ u.obj 0x28C8 0x01 = d.obj 0x28C8 0x01 &&& 0xCF)) ∧
    (∀ c : Fin 24, s.takes t r (0x2900 + c) 0x1E 1 1 = true →
      s.does t (.pressureClear t r c) ((0x2900 + c, 0x10) :: span (0x2900 + c) 0x1A 0x1C) (fun u =>
        u.zeroed (span (0x2900 + c) 0x1A 0x1C) ∧ u.obj (0x2900 + c) 0x10 = d.obj (0x2900 + c) 0x10 &&& 0x07)) ∧
    ∀ v : Fin 8, s.takes t r (0x2920 + v) 0x33 1 1 = true →
      let l := [(0x2920 + v.val, 0x07), (0x2920 + v.val, 0x17), (0x2920 + v.val, 0x1F), (0x2920 + v.val, 0x27), (0x2920 + v.val, 0x2F)]
      s.does t (.vibrationClear t r v) ((0x2920 + v, 0x06) :: l) (fun u =>
        u.zeroed l ∧ u.obj (0x2920 + v) 0x06 = bitTo (d.obj (0x2920 + v) 0x06) 6 false)

/-- The diagnostics of a channel and of a bank (R303): an open load, a short to battery, a short to ground and a failed bank switch set
their sticky bit and count; the shorts inhibit the channel, an open load only with latch_open; the shot ends in decay; a short to ground
and a failed switch turn the bank off. The counters are stated of states in which every channel's bank field holds a U8. Temperatures
and the rails' diagnostics (R303): a sample is recorded, a die at 165 °C or more disarms both domains and disables both rails, a driver
at 160 °C or more blocks its bank; an over-voltage is noted and counted, and ends 4 V below its threshold; a rail that is not ready in
its time is a boost fault. The power die's reading is stated of states whose channel records belong to channels 0 to 47. -/
def Obligations.DiagnosticsAndLimits : Prop :=
  ((∀ (s : State) (t : Nat) (n : Fin 48) (cur id : Nat) (desat : Bool),
    let d := s.devAt t
    let j := 0x2880 + n.val
    let c := d.chan n
    let found := fun (u : Dev) (b cnt : Nat) => u.bit j 0x09 b = true ∧ u.obj j 0x0B = d.now ∧
      ((∀ m < 48, d.bankOf m ≤ 0xFF) → u.obj j cnt = satInc32 (d.obj j cnt))
    d.runs (groupPd n) = true → c.started = true → c.deferWait = false → c.occ = some id → 2 ≤ d.phase n → d.phase n ≤ 4 → c.low = true →
    (c.firstAt + c.diag.getD 2 0 * 1024 ≤ d.now → c.firstAt + c.diag.getD 2 0 * 1024 < c.stop → cur < c.diag.getD 1 0 →
      ∃ u, exec (.openLoad t n cur) s = .next u ∧ found u.dev 1 0x0D ∧ u.dev.phase n = 5 ∧ (u.dev.chan n).low = false ∧ u.loft = s.loft ∧
        u.dev.bit j 0x09 8 = (d.bit j 0x09 8 || decide (c.diag.getD 0 0 = 1))) ∧
    ((desat = true → c.onAt + c.diag.getD 5 0 * 64 ≤ d.now) →
      ∃ u, exec (.shortToBattery t n desat) s = .next u ∧ found u.dev 2 0x0E ∧ u.dev.phase n = 5 ∧ (u.dev.chan n).low = false ∧
        u.dev.bit j 0x09 8 = true ∧ u.loft = s.loft)) ∧
  (∀ (s : State) (t : Nat) (n : Fin 48),
    let d := s.devAt t
    let j := 0x2880 + n.val
    let b := d.bankOf n
    d.runs (groupPd n) = true → (d.chan n).low = false → (d.bank b).bhb = true ∨ (d.bank b).bhs = true →
    (d.bank b).rose + d.obj (0x28B0 + b) 0x01 * 1024 ≤ d.now →
    ∃ u, exec (.shortToGround t n) s = .next u ∧ u.dev.bit j 0x09 3 = true ∧ u.dev.bit j 0x09 8 = true ∧
      ((∀ m < 48, d.bankOf m ≤ 0xFF) → u.dev.obj j 0x0F = satInc32 (d.obj j 0x0F)) ∧ (u.dev.bank b).bhb = false ∧
      (u.dev.bank b).bhs = false ∧ u.loft = s.loft) ∧
  ∀ (s : State) (t : Nat) (b : Fin 16) (kind : Fin 3),
    let d := s.devAt t
    let j := 0x28B0 + b.val
    d.runs (if b.val < 8 then 7 else 8) = true →
    ∃ u, exec (.bankSwitchFailure t b kind) s = .next u ∧ u.dev.bit j 0x04 kind = true ∧ u.dev.bit j 0x04 4 = true ∧
      u.dev.obj j 0x07 = satInc32 (d.obj j 0x07) ∧ u.dev.obj j 0x06 = d.now ∧ (u.dev.bank b).bhb = false ∧ (u.dev.bank b).bhs = false ∧
      u.loft = s.loft) ∧
  (∀ (s : State) (t : Nat),
    let d := s.devAt t
    (∀ drivers power core, d.ready = true →
      ∃ u, exec (.temperatureSample t drivers power core) s = .next u ∧ u.loft = s.loft ∧ u.dev.obj 0x28C8 0x04 = ofSigned 16 core ∧
        ((∀ e ∈ d.chans, e.1 < 48) → u.dev.obj 0x28C8 0x03 = ofSigned 16 power) ∧
        (165 ≤ max power core → d.bit 0x28C8 0x01 7 = false → u.dev.bit 0x28C8 0x01 7 = true ∧ (∀ k < 2, u.dev.disarmed k) ∧
          ∀ x < 2, u.dev.obj (0x2780 + x) 0x01 = 0) ∧
        (max power core < 150 → u.dev.bit 0x28C8 0x01 7 = false) ∧
        ∀ b < 16, ∀ temp, drivers[b]? = some temp → 160 ≤ temp → u.dev.bit (0x28B0 + b) 0x04 3 = true) ∧
    ∀ (x : Fin 2) (mv : Nat),
      let j := 0x28C0 + x.val
      (d.runs 9 = true → d.bit j 0x04 0 = false → min ((d.obj (0x2780 + x) 0x02 + d.obj j 0x01) * 250) 110000 ≤ mv →
        s.does t (.boostOverVoltage t x mv) [(j, 0x04), (j, 0x05), (j, 0x07)] (fun u => u.bit j 0x04 0 = true ∧
          u.obj j 0x05 = satInc32 (d.obj j 0x05) ∧ (u.boost x).mv = mv)) ∧
      (mv + 4000 ≤ (d.boost x).ovThr → s.does t (.overVoltageClear t x mv) [(j, 0x04), (j, 0x07)] (fun u =>
        u.bit j 0x04 0 = false ∧ (u.boost x).mv = mv)) ∧
      (d.runs 9 = true → d.obj (0x2780 + x) 0x01 = 1 → (d.boost x).softDone = true → d.bit (0x2780 + x) 0x0C 2 = false → d.bit j 0x04 2 = false →
        (d.boost x).notReadyFrom + d.obj j 0x02 * tqMs ≤ d.now → s.does t (.boostFault t x) [(j, 0x04)] (fun u => u.bit j 0x04 2 = true)))

/-- The die link (R22) and the ARM_N path (R300): a lost link disarms both domains, a keep-alive ends the loss and changes nothing else, a
rise of ARM_N drives both boost gates low and leaves the domains armed and the rails enabled, a fall starts the release, and 2 us after
it ARM_N no longer counts as high. The KILL_N path (R301): its fall disarms both domains, clears rail_enable of both controllers, drives
both boost gates low and is recorded; its rise re-arms nothing. The count is stated of states in which boost_sel of every bank is 0 or 1
(R270). -/
def Obligations.ArmPathAndLink : Prop :=
  (∀ (s : State) (t : Nat),
    let d := s.devAt t
    (d.stops.linkDown = true → s.does t (.keepAlive t) [(0x28C8, 0x01)] (fun u =>
      u.stops.linkDown = false ∧ u.stops.lastAlive = d.now ∧ u.bit 0x28C8 0x01 5 = true)) ∧
    (d.bit 0x28C8 0x01 3 = true → d.stops.lastAlive + 1 * tqUs ≤ d.now →
      ∃ u, exec (.dieLinkLoss t) s = .next u ∧ u.dev.stops.linkDown = true ∧ (∀ k < 2, u.dev.disarmed k) ∧
        u.dev.obj 0x28C8 0x07 = satInc32 (d.obj 0x28C8 0x07) ∧ u.dev.obj 0x28C8 0x08 = d.now ∧ u.loft = s.loft) ∧
    (d.stops.armHigh = false →
      ∃ u, exec (.armNRise t) s = .next u ∧ u.dev.stops.armHigh = true ∧ u.dev.stops.armFell = none ∧ u.dev.bit 0x28C8 0x01 1 = true ∧
        u.dev.obj 0x28C8 0x08 = d.now ∧ (∀ x < 2, (u.dev.boost x).gate = false ∧ u.dev.obj (0x2780 + x) 0x01 = d.obj (0x2780 + x) 0x01) ∧
        (∀ k < 2, u.dev.armed k = d.armed k) ∧ u.loft = s.loft) ∧
    (d.stops.armHigh = true → d.stops.armFell = none → s.does t (.armNFall t) [(0x28C8, 0x01)] (fun u =>
      u.stops = { d.stops with armFell := some d.now } ∧ u.bit 0x28C8 0x01 1 = false)) ∧
    ∀ f, d.stops.armFell = some f → f + 2 * tqUs ≤ d.now →
      ∃ u, exec (.armNRelease t) s = .next u ∧ u.dev.stops.armHigh = false ∧ u.dev.stops.armFell = none ∧ u.loft = s.loft) ∧
  (∀ (s : State) (t : Nat),
    let d := s.devAt t
    (d.stops.killLow = false →
      ∃ u, exec (.killNFall t) s = .next u ∧ u.dev.stops.killLow = true ∧ (∀ k < 2, u.dev.disarmed k) ∧
        (∀ x < 2, u.dev.obj (0x2780 + x) 0x01 = 0 ∧ (u.dev.boost x).gate = false) ∧ u.dev.bit 0x28C8 0x01 2 = true ∧
        u.dev.bit 0x28C8 0x01 4 = true ∧ ((∀ b, d.railOf b ≤ 1) → u.dev.obj 0x28C8 0x06 = satInc32 (d.obj 0x28C8 0x06)) ∧
        u.dev.obj 0x28C8 0x08 = d.now ∧ u.loft = s.loft) ∧
    (d.stops.killLow = true → s.does t (.killNRise t) [(0x28C8, 0x01)] (fun u =>
      u.stops = { d.stops with killLow := false } ∧ u.bit 0x28C8 0x01 2 = false ∧ ∀ k < 2, u.armed k = d.armed k)))

/-- The reset of a drive group (R308): once every channel of the group is idle it goes ahead; at the end of its time running shots are cut,
which the protection object notes, and it goes ahead all the same. Either leaves every channel of the group idle and the reset in its
third state. -/
def Obligations.DriveGroupResets : Prop :=
  ∀ (s : State) (t k : Nat),
    let d := s.devAt t
    let idle := fun (u : Dev) => u.obj 0x2F00 0x0A = 3 ∧ ∀ n ∈ groupChans k, u.chan n = {} ∧ u.phase n = 0
    k = 7 ∨ k = 8 → d.ready = true → d.obj 0x2F00 0x0A = 1 → d.rst.domReset = some k →
    (d.groupIdle k = true → ∃ u, exec (.driveGroupIdle t) s = .next u ∧ idle u.dev ∧ u.loft = s.loft) ∧
    (d.rst.domDeadline ≤ d.now → ∃ u, exec (.driveResetTimeout t) s = .next u ∧ idle u.dev ∧ u.dev.rst.domLate = true ∧
      u.dev.bit 0x28C8 0x01 8 = true ∧ u.loft = s.loft)


/-- Samples (R318, R319, R330, R335): at a sample instant an enabled pressure channel without pegging reads its code, and counts a clipped
one; a vibration channel counts a clipped sample. While no domain gives them an angle, no result of theirs is stored in the Loft and the
windows of the vibration channel are closed. The results of a cycle (R328, R329): C2 writes the oldest results of a channel once, with
the count of their cycle; a complete cycle is counted as valid or invalid; one that is not complete writes result_flags alone. No other
object changes. -/
def Obligations.SamplesAndCycles : Prop :=
  (∀ (s : State) (t : Nat),
    let d := s.devAt t
    d.runs 11 = true →
    (∀ codes, t % 51200 = 0 → ∃ u, exec (.pressureSample t codes) s = .next u ∧
      (∀ c < 24, d.obj (0x2900 + c) 0x01 ≠ 0 → d.obj (0x2900 + c) 0x04 = 0 →
        let code := clampInt (-32768) 32767 (codes.getD c 0)
        u.dev.obj (0x2900 + c) 0x0F = ofSigned 16 code ∧
          (code = -32768 ∨ code = 32767 → u.dev.obj (0x2900 + c) 0x1C = satInc32 (d.obj (0x2900 + c) 0x1C) ∧ u.dev.bit (0x2900 + c) 0x10 3 = true)) ∧
      (∀ c < 24, d.obj (0x2900 + c) 0x01 = 0 → u.dev.obj (0x2900 + c) 0x0F = d.obj (0x2900 + c) 0x0F) ∧
      ((∀ k < 2, d.domState k ≠ 3 ∧ d.domState k ≠ 4) → u.loft = s.loft)) ∧
    ∀ (v : Fin 8) code, t % 10240 = 0 → d.obj (0x2920 + v) 0x01 ≠ 0 →
      let i := 0x2920 + v.val
      ∃ u, exec (.vibrationSample t v code) s = .next u ∧
        (code ≤ -32768 ∨ 32767 ≤ code → u.dev.obj i 0x07 = satInc32 (d.obj i 0x07) ∧ u.dev.bit i 0x06 6 = true) ∧
        (-32768 < code → code < 32767 → u.dev.obj i 0x07 = d.obj i 0x07) ∧
        (d.domState (d.obj i 0x02) ≠ 3 → d.domState (d.obj i 0x02) ≠ 4 →
          u.loft = s.loft ∧ ∀ k < 4, (u.dev.band v k).win.isOpen = false) ∧
        s.keeps t u ((i, 0x06) :: (i, 0x07) :: (i, 0x31) :: (span i 0x16 0x17 ++ span i 0x1E 0x1F ++ span i 0x26 0x27 ++ span i 0x2E 0x2F))) ∧
  (∀ (s : State) (t : Nat) (c : Fin 24) (r : PressRes) (rest : List PressRes),
    let d := s.devAt t
    let i := 0x2900 + c.val
    d.runs 11 = true → d.coreDown 2 = false → (d.press c).results = r :: rest →
    s.does t (.cycleResults t c) ((i, 0x10) :: (i, 0x1A) :: (i, 0x1B) :: span i 0x11 0x18) (fun u =>
      (u.press c).results = rest ∧ (r.final = false ∨ r.whole = true → u.obj i 0x11 = r.count) ∧
      (r.final = true → r.whole = false → u.obj i 0x18 = r.flags ∧ (d.sameBut u fun a w => portObj a || a == i && w == 0x18)) ∧
      (r.final = true → r.whole = true →
        u.obj i (if r.valid then 0x1A else 0x1B) = satInc32 (d.obj i (if r.valid then 0x1A else 0x1B)) ∧
        u.obj i (if r.valid then 0x1B else 0x1A) = d.obj i (if r.valid then 0x1B else 0x1A))))

/-- Comparators (R340, R344, R346 to R349): a live transition of an unresolved comparator resolves it silently; of a resolved one it is
counted and, outside a blanking window, reported with its instant; a window opens when a pulse of its line arrives (R36), and at its end
a comparator whose outputs differ reports. No other object changes. Ramps (R351): on a ramp that no boost controller owns, a pulse that
arrives on reset_line and a write of start set the output back to v_start at that instant; a ramp that has reached v_end goes back or
rests, as its mode says. -/
def Obligations.ComparatorsAndRamps : Prop :=
  (∀ (s : State) (t : Nat) (n : Fin 16),
    let d := s.devAt t
    let i := 0x2A00 + n.val
    d.runs 13 = true → d.obj i 0x01 ≠ 0 →
    (∀ (u : Fin 2) (level : Bool),
      (d.cmpUnresolved n u = true → s.does t (.liveTransition t n u level) [(i, 0x10)] (fun e =>
        e.cmpUnresolved n u = false ∧ e.cmpLive n u = level ∧ e.cmpOut n u = level)) ∧
      (d.cmpUnresolved n u = false → d.cmpLive n u = !level →
        (d.blanking n = false → s.does t (.liveTransition t n u level) [(i, 0x10), (i, 0x11 + u), (i, 0x13 + u)] (fun e =>
          e.cmpLive n u = level ∧ e.cmpOut n u = level ∧ e.obj i (0x13 + u) = satInc16 (d.obj i (0x13 + u)) ∧
          ((d.cmp n).closed ≠ some d.now → e.obj i (0x11 + u) = if d.cmpOut n u = level then d.obj i (0x11 + u) else d.now))) ∧
        (d.blanking n = true → (d.cmp n).closed ≠ some d.now → s.does t (.liveTransition t n u level) [(i, 0x10), (i, 0x13 + u)] (fun e =>
          e.cmpLive n u = level ∧ e.cmpOut n u = d.cmpOut n u ∧ e.obj i (0x13 + u) = satInc16 (d.obj i (0x13 + u)))))) ∧
    ((d.arrives (.blankOpen n) (d.obj i 0x0C)).isSome = true → d.blanking n = false → d.obj i 0x0B = 1 ∨ d.obj i 0x0B = 2 →
      s.does t (.blankingWindowOpen t n) [(i, 0x10), (i, 0x11), (i, 0x12)] (fun e => e.blanking n = true ∧ (e.cmp n).mode = d.obj i 0x0B ∧ (e.cmp n).from_ = d.now)) ∧
    (d.blanking n = true → (if (d.cmp n).mode = 1 then (d.cmp n).from_ + d.obj i 0x0E * tq100ns ≤ d.now else (d.arrives (.blankClose n) (d.obj i 0x0D)).isSome = true) →
      s.does t (.blankingWindowClose t n) [(i, 0x10), (i, 0x11), (i, 0x12)] (fun e => e.blanking n = false ∧
        ∀ u < 2, d.cmpUnresolved n u = false → e.cmpOut n u = d.cmpLive n u ∧
          (d.cmpOut n u ≠ d.cmpLive n u → e.obj i (0x11 + u) = d.now)))) ∧
  (∀ (s : State) (t : Nat) (k : Fin 4),
    let d := s.devAt t
    let i := 0x2A10 + k.val
    let back := fun (u : Dev) => u.obj i 0x08 = 1 ∧ u.obj i 0x09 = d.now
    d.rampFree k = true →
    ((d.arrives (.rampReset k) (d.obj i 0x06)).isSome = true → s.does t (.rampReset t k) [(i, 0x08), (i, 0x09)] back) ∧
    (∀ r, s.takes t r i 0x0A 1 1 = true → s.does t (.rampStart t r k) [(i, 0x08), (i, 0x09)] back) ∧
    (d.bit i 0x08 0 = true → ((d.obj i 0x04 : Int) - d.obj i 0x03).natAbs * 1000 * tqUs ≤ (d.now - d.obj i 0x09) * d.obj i 0x05 →
      (d.obj i 0x02 = 1 → s.does t (.rampEnd t k) [(i, 0x08), (i, 0x09)] back) ∧
      (d.obj i 0x02 ≠ 1 → s.does t (.rampEnd t k) [(i, 0x08)] (fun u => u.obj i 0x08 = 2))))

/-- The count of a timer (R360 to R362, R365, R366): its ticks of 1.28 GHz up to now, in between which neither a unit hits nor the period
ends, advance the prescaler, and one count for every prescale + 1 of them; a start input that has come due starts an armed timer at
count 0; at the end of its period a one-shot timer stops and a periodic one begins at 0; a unit that has fired performs its list once,
whose own inputs take effect at the next tick. -/
def Obligations.TimersCount : Prop :=
  ∀ (s : State) (t : Nat) (n : Fin 32),
    let d := s.devAt t
    let i := 0x2B00 + n.val
    let r := d.timer n
    let all := r.pre + (d.now / 8 - r.tick)
    let new := r.count + all / (d.obj i 0x02 + 1)
    let free := fun (u : Nat) (fired : Bool) =>
      new < d.obj i (0x04 + u) ∨ if d.bit i 0x06 u then fired = true else d.obj i (0x04 + u) ≤ r.count
    d.runs 1 = true →
    (r.running = true → r.reset = none → r.start = none → r.hit0 = false → r.hit1 = false → r.tick ≤ d.now / 8 →
      r.pre ≤ d.obj i 0x02 → new < d.obj i 0x03 → free 0 r.fired0 → free 1 r.fired1 →
      s.does t (.timerTick t n) [] (fun u => (u.timer n).running = true ∧ (u.timer n).count = new ∧
        (u.timer n).pre = all % (d.obj i 0x02 + 1))) ∧
    (∀ a, r.running = false → r.reset = none → r.start = some a → a ≤ d.now / 8 → r.armed = true → r.hit0 = false → r.hit1 = false →
      s.does t (.timerTick t n) [] (fun u => (u.timer n).running = true ∧
        (a = d.now / 8 → (u.timer n).count = 0 ∧ (u.timer n).pre = 0))) ∧
    (d.periodDue n = true →
      (d.obj i 0x01 = 1 → s.does t (.periodEnd t n) [(i, 0x15), (i, 0x1B)] (fun u => u.obj i 0x1B = 8 * (r.tick + 1) ∧
        (u.timer n).running = false ∧ (u.timer n).count = 0 ∧ (u.timer n).armed = (d.obj i 0x09).testBit 1)) ∧
      (d.obj i 0x01 ≠ 1 → s.does t (.periodEnd t n) [(i, 0x15), (i, 0x1B)] (fun u => u.obj i 0x1B = 8 * (r.tick + 1) ∧
        (u.timer n).running = true ∧ (u.timer n).count = 0))) ∧
    (r.hit0 = true → r.tick ≤ d.now / 8 → s.does t (.compareMatch t n 0) [] (fun u => (u.timer n).hit0 = false ∧
      ((d.obj i 0x07).testBit 0 = true → (u.timer n).reset = some (r.tick + 1)) ∧
      ((d.obj i 0x07).testBit 1 = true → (u.timer n).start = some (r.tick + 1)))) ∧
    (r.hit1 = true → r.tick ≤ d.now / 8 → s.does t (.compareMatch t n 1) [] (fun u => (u.timer n).hit1 = false ∧
      ((d.obj i 0x08).testBit 0 = true → (u.timer n).reset = some (r.tick + 1)) ∧
      ((d.obj i 0x08).testBit 1 = true → (u.timer n).start = some (r.tick + 1))))

/-- Commands and inputs of a timer (R361, R362, R368): arm, start and stop, which holds the count of now; a pulse that arrives on the start
or the reset input; and the release of a mask of timers by write or by a pulse on the line, which on the next tick starts each armed
one, resets each running one, and is counted. Captures (R369), of an edge at a pin or of a pulse that arrives on the selected line: a
rise records its time and the timer's count and is counted, with the period since the rise before; a fall records its time and, after a
rise, the width since it; a fall without a rise is counted as unpaired; where a rise and a fall fall on one instant the width is 0. -/
def Obligations.TimersStartAndCapture : Prop :=
  (∀ (s : State) (t : Nat),
    let d := s.devAt t
    (∀ (n : Fin 32),
      let i := 0x2B00 + n.val
      let r := d.timer n
      (∀ q, (s.takes t q i 0x12 1 1 = true → s.does t (.timerArm t q n) [] (fun u => u.timer n = { (d.timerTo n).timer n with armed := true })) ∧
        (s.takes t q i 0x12 1 2 = true → r.running = false →
          s.does t (.timerStart t q n) [] (fun u => (u.timer n).running = true ∧ (u.timer n).count = 0 ∧
            (u.timer n).tick = d.now / 8 + 1)) ∧
        (s.takes t q i 0x12 1 3 = true →
          s.does t (.timerStop t q n) [] (fun u => (u.timer n).running = false ∧ (u.timer n).armed = false ∧
            (u.timer n).count = d.timerCount n))) ∧
      (d.runs 1 = true →
        (r.start = none → (d.arrives (.timerStart n) (d.obj i 0x0D)).isSome = true → r.armed = true → r.running = false →
          s.does t (.startInput t n) [] (fun u => (u.timer n).running = true ∧ (u.timer n).count = 0 ∧ (u.timer n).tick = d.now / 8 + 1)) ∧
        (r.reset = none → (d.arrives (.timerReset n) (d.obj i 0x0E)).isSome = true →
          s.does t (.resetInput t n) [] (fun u => (u.timer n).count = 0 ∧ (u.timer n).running = r.running)))) ∧
    let released := fun (mask : Nat) (u : Dev) => u.obj 0x2B80 0x05 = satInc32 (d.obj 0x2B80 0x05) ∧ d.now < u.obj 0x2B80 0x04 ∧
      u.obj 0x2B80 0x04 % 8 = 0 ∧ ∀ n < 32, (d.timer n).armed = true ∨ (d.timer n).running = true →
        if mask.testBit n then (u.timer n).running = true ∧ (u.timer n).count = 0 else u.timer n = d.timer n
    let l := [(0x2B80, 0x04), (0x2B80, 0x05), (0x2B80, 0x06)]
    (∀ q mask, s.takes t q 0x2B80 0x01 4 mask = true → s.does t (.gstartRelease t q mask) l (released mask)) ∧
    (d.runs 1 = true → (d.arrives .gstart (d.obj 0x2B80 0x03)).isSome = true →
      s.does t (.gstartLine t) l (released (d.obj 0x2B80 0x02)))) ∧
  (∀ (s : State) (t : Nat) (n : Fin 32),
    let d := s.devAt t
    let i := 0x2B00 + n.val
    let r := d.timer n
    d.runs 1 = true → d.obj i 0x0F ≠ 0xFFFF →
    ((d.obj i 0x0F < 0x100 → (d.arrives (.captureRise n) (d.obj i 0x0F)).isSome = true) →
      s.does t (.captureRise t n) [(i, 0x15), (i, 0x16), (i, 0x18), (i, 0x19), (i, 0x1A), (i, 0x1C), (i, 0x1D)] (fun u =>
        u.obj i 0x16 = d.now ∧ u.obj i 0x1A = d.timerCount n ∧ u.obj i 0x1C = satInc32 (d.obj i 0x1C) ∧
        (r.fell.map (·.1) ≠ some d.now → u.bit i 0x15 3 = true ∧ u.obj i 0x18 = d.obj i 0x18 ∧ u.obj i 0x1D = d.obj i 0x1D) ∧
        (r.fell.map (·.1) = some d.now → u.bit i 0x15 3 = false ∧ u.obj i 0x18 = 0) ∧
        ∀ p, r.rise = some p → u.obj i 0x19 = d.now - p)) ∧
    ((d.obj i 0x0F < 0x100 → (d.arrives (.captureFall n) (d.obj i 0x10)).isSome = true) →
      s.does t (.captureFall t n) [(i, 0x15), (i, 0x17), (i, 0x18), (i, 0x1C), (i, 0x1D)] (fun u =>
        u.obj i 0x17 = d.now ∧ u.obj i 0x1C = satInc32 (d.obj i 0x1C) ∧
        (d.bit i 0x15 3 = true → u.obj i 0x18 = d.now - d.obj i 0x16 ∧ u.bit i 0x15 3 = false) ∧
        (d.bit i 0x15 3 = false → u.obj i 0x1D = satInc32 (d.obj i 0x1D)))))

/-- A tick of an engine's bit clock (R382, R383, R389, R393, R395): one that comes too soon is dropped and counted; a fetch takes the word
at pc into the IR and moves pc on; EVT, SET, MOV and JMP end on their tick unless they carry a delay; a jump goes to its target; a WAIT
whose condition does not hold stalls the engine; a FIFO instruction that does not block discards or leaves its data and counts; an
injected instruction runs at INJECTION's tick, and at any tick once 10 us have passed, and leaves the bit count of an instruction it
aborts. -/
def Obligations.LanternTicks : Prop :=
  ∀ (s : State) (t : Nat) (e : Fin 8) (pins : Nat),
    let d := s.devAt t
    let i := 0x2C00 + e.val
    let l := d.lan e
    let w := d.obj i (0x20 + l.pc)
    let c := Instr.lanternTick t e pins
    let own := [(i, 0x49), (i, 0x4A), (i, 0x4B), (i, 0x4C), (i, 0x1B), (i, 0x1C)]
    let ends := fun (w : Nat) (u : Dev) => (u.lan e).ir = w ∧ if bitsOf w 5 3 = 0 then (u.lan e).cur = none else
      ∃ k, (u.lan e).cur = some k ∧ k.delay = some (bitsOf w 5 3)
    d.runs 13 = true → d.obj i 0x01 = 1 → (d.bitClock e).isSome = true →
    (d.injectDue e = false → d.tickTooSoon e = true → s.does t c own (fun u => u.lan e = l ∧ u.obj i 0x4A = satInc32 (d.obj i 0x4A) ∧ u.bit i 0x49 5 = true)) ∧
    (d.injectDue e = false → d.tickTooSoon e = false → l.cur = none →
      s.does t c own (fun u => (u.lan e).ir = w) ∧
      (w % 8 = 0 → s.does t c own (fun u => ends w u ∧ (u.lan e).pc = (l.pc + 1) % 32 ∧ (u.lan e).k0 = l.k0 ∧ (u.lan e).outs = l.outs)) ∧
      (w % 8 = 1 → s.does t c own (fun u => ends w u ∧ (u.lan e).pc = (l.pc + 1) % 32 ∧
        (bitsOf w 15 14 = 2 → (u.lan e).k0 = bitsOf w 13 6) ∧ (bitsOf w 15 14 = 3 → (u.lan e).k1 = bitsOf w 13 6) ∧
        (bitsOf w 15 14 = 0 → d.pinOut e (bitsOf w 9 7) = true → (u.lan e).outs = bitTo l.outs (bitsOf w 9 7) (w.testBit 6)))) ∧
      (w % 8 = 2 → bitsOf w 12 10 = 1 → bitsOf w 9 8 = 0 →
        (bitsOf w 15 13 = 5 → s.does t c own (fun u => ends w u ∧ (u.lan e).pc = l.k0 % 32)) ∧
        (bitsOf w 15 13 = 4 → s.does t c own (fun u => ends w u ∧ (u.lan e).osh = l.k0 ∧ (u.lan e).oshN = 32))) ∧
      (w % 8 = 3 →
        (bitsOf w 10 6 = 0 → s.does t c own (fun u => ends w u ∧ (u.lan e).pc = bitsOf w 15 11)) ∧
        (bitsOf w 10 6 = 1 → s.does t c own (fun u => ends w u ∧ (u.lan e).pc = if l.k0 = 0 then bitsOf w 15 11 else (l.pc + 1) % 32)) ∧
        (bitsOf w 10 6 = 2 → s.does t c own (fun u => ends w u ∧ (u.lan e).k0 = (l.k0 + 65535) % 65536 ∧
          (u.lan e).pc = if (l.k0 + 65535) % 65536 = 0 then (l.pc + 1) % 32 else bitsOf w 15 11))) ∧
      (w % 8 = 4 → w.testBit 15 = false → bitsOf w 10 6 = 10 →
        (l.tx = [] → s.does t c own (fun u => (u.lan e).reason = 1 ∧ ∃ k, (u.lan e).cur = some k ∧ k.word = w ∧ k.delay = none)) ∧
        (l.tx ≠ [] → s.does t c own (ends w))) ∧
      (w % 8 = 7 → w.testBit 15 = false → w.testBit 14 = false → 4 < l.rx.length + d.pushWidth e →
        s.does t c own (fun u => ends w u ∧ (u.lan e).ish = 0 ∧ (u.lan e).ishN = 0 ∧ (u.lan e).rx = l.rx ∧ u.obj i 0x4B = satInc32 (d.obj i 0x4B)))) ∧
    ∀ v abort a, d.tickTooSoon e = false → l.inject = some (v, abort, a) → (l.cur = none ∨ abort = true) →
      let took := fun (u : Dev) => (u.lan e).ir = v ∧ (u.lan e).inject = none ∧
        (abort = true → u.obj i 0x1C = if (d.lanCur e).delay.isSome then 0 else (d.lanCur e).bits) ∧
        (v % 8 ≤ 1 → (u.lan e).pc = l.pc ∧ (bitsOf v 5 3 = 0 → (u.lan e).cur = none ∧ u.obj i 0x1B = if abort then 3 else 2))
      s.does t (.injection t e pins) own took ∧ (a + 10 * tqUs ≤ d.now → s.does t c own took)

/-- Requests to an engine (R381, R394 to R396): enabling takes pc from start_pc and the outputs from idle_levels, disabling lets the pins go
and discards a pending injection; program words are stored whole and touch neither IR nor pc; an injection becomes pending. The Lantern
master (R388): symbols go from the tx ring into the transmit FIFO, and from the receive FIFO into the rx ring in the Loft, as many as
the ring, the FIFO and one access allow, and the ring's index moves on by as many. -/
def Obligations.LanternRequestsAndRings : Prop :=
  (∀ (s : State) (t : Nat) (r : Req) (e : Fin 8),
    let d := s.devAt t
    let i := 0x2C00 + e.val
    let l := d.lan e
    (s.takes t r i 0x01 1 1 = true → d.obj i 0x01 = 0 → s.does t (.lanternEnable t r e) [(i, 0x01)] (fun u => u.obj i 0x01 = 1 ∧
      (u.lan e).pc = d.obj i 0x10 ∧ (u.lan e).outs = d.obj i 0x06 ∧ (u.lan e).cur = none)) ∧
    (s.takes t r i 0x01 1 0 = true → d.obj i 0x01 = 1 → s.does t (.lanternDisable t r e) [(i, 0x01), (i, 0x1B)] (fun u => u.obj i 0x01 = 0 ∧
      u.obj i 0x1B = 0 ∧ (u.lan e).outs = 0 ∧ (u.lan e).cur = none ∧ (u.lan e).inject = none)) ∧
    (∀ (first : Fin 32) (words : List Nat), s.serves t (putFrame r i (0x20 + first) words.length (words.flatMap (leBytes 2))) 0 true = true →
      s.does t (.programWrite t r e first words) ((List.range words.length).map (fun k => (i, 0x20 + first.val + k))) (fun u =>
        u.lan e = l ∧ ∀ k < words.length, u.obj i (0x20 + first.val + k) = words.getD k 0 % 65536)) ∧
    ∀ v, s.takes t r i 0x1A 4 v = true → s.does t (.inject t r e v) [(i, 0x1B)] (fun u => u.obj i 0x1B = 1 ∧
      u.lan e = { l with inject := some (v % 65536, v.testBit 16, d.now) })) ∧
  (∀ (s : State) (t : Nat) (e : Fin 8),
    let d := s.devAt t
    let i := 0x2C00 + e.val
    let l := d.lan e
    let n := ringSpan (d.obj i 0x11) (d.obj i 0x12) (d.obj i 0x16) (min (4 - l.tx.length) (ringLevel (d.obj i 0x12) (d.obj i 0x15) (d.obj i 0x16)))
    let k := ringSpan (d.obj i 0x13) (d.obj i 0x14) (d.obj i 0x17)
      (min l.rx.length (d.obj i 0x14 - 4 - ringLevel (d.obj i 0x14) (d.obj i 0x17) (d.obj i 0x18)))
    d.runs 13 = true → d.pdOn 2 = true → d.obj i 0x01 ≠ 0 →
    (0 < n → s.does t (.fifoTransfer t e true) [(i, 0x16)] (fun u => u.obj i 0x16 = (d.obj i 0x16 + n) % d.obj i 0x12 ∧
      (u.lan e).tx = l.tx ++ loftBytes s.loft (d.obj i 0x11 + d.obj i 0x16) n ∧ (u.lan e).rx = l.rx)) ∧
    (0 < k → ∃ u, exec (.fifoTransfer t e false) s = .next u ∧ s.puts u (d.obj i 0x13 + d.obj i 0x17) (l.rx.take k) ∧
      s.keeps t u [(i, 0x17), (i, 0x4D)] ∧ u.dev.obj i 0x17 = (d.obj i 0x17 + k) % d.obj i 0x14 ∧
      (u.dev.lan e).rx = l.rx.drop k ∧ (u.dev.lan e).tx = l.tx))

/-- The clears of the comparators, timers, event lines, Lanterns, the Loft, DMA, the interrupt controller and its stacks (R358, R376, R378,
R400, R427, R428, R451, R452), in the same way. -/
def Obligations.ClearsOfEngines : Prop :=
  ∀ (s : State) (t : Nat) (r : Req),
    let d := s.devAt t
    (∀ n : Fin 16, s.takes t r (0x2A00 + n) 0x15 1 1 = true →
      s.does t (.comparatorClear t r n) ((0x2A00 + n, 0x10) :: span (0x2A00 + n) 0x13 0x14) (fun u =>
        u.zeroed (span (0x2A00 + n) 0x13 0x14) ∧ u.obj (0x2A00 + n) 0x10 = bitTo (d.obj (0x2A00 + n) 0x10) 7 false)) ∧
    (∀ n : Fin 32, s.takes t r (0x2B00 + n) 0x1E 1 1 = true →
      s.does t (.timerClear t r n) ((0x2B00 + n, 0x15) :: span (0x2B00 + n) 0x1C 0x1D) (fun u =>
        u.zeroed (span (0x2B00 + n) 0x1C 0x1D) ∧ u.obj (0x2B00 + n) 0x15 = d.obj (0x2B00 + n) 0x15 &&& 0x08)) ∧
    (∀ line : Fin 256, s.takes t r (0x2F80 + line / 2) (0x06 + 0x10 * (line.val % 2)) 1 1 = true →
      s.does t (.routeClear t r line) [] (fun u =>
        u.line line = { (d.line line) with pulses := 0, merges := 0, suppressed := 0 })) ∧
    (∀ e : Fin 8, s.takes t r (0x2C00 + e) 0x4E 1 1 = true →
      s.does t (.lanternClear t r e) ((0x2C00 + e, 0x49) :: span (0x2C00 + e) 0x4A 0x4D) (fun u =>
        u.zeroed (span (0x2C00 + e) 0x4A 0x4D) ∧ u.obj (0x2C00 + e) 0x49 = bitTo (d.obj (0x2C00 + e) 0x49) 5 false)) ∧
    (s.takes t r 0x2D00 0x19 1 1 = true →
      let l := (0x2D00, 0x12) :: (span 0x2D00 0x0E 0x0F ++ span 0x2D00 0x14 0x18)
      s.does t (.loftClear t r) l (fun u => u.zeroed l)) ∧
    (∀ c : Fin 16, s.takes t r (0x2D10 + c) 0x1E 1 1 = true →
      let l := [(0x2D10 + c.val, 0x17), (0x2D10 + c.val, 0x19), (0x2D10 + c.val, 0x1B)]
      s.does t (.dmaClear t r c) l (fun u => u.zeroed l)) ∧
    (s.takes t r 0x2E00 0x07 1 1 = true → s.does t (.irqClear t r) [(0x2E00, 0x04)] (fun u => u.obj 0x2E00 0x04 = 0)) ∧
    ∀ c : Fin 4, s.takes t r (0x2E10 + c) 0x09 1 1 = true →
      s.does t (.stackClear t r c) (span (0x2E10 + c) 0x05 0x06) (fun u => u.zeroed (span (0x2E10 + c) 0x05 0x06))


/-- A bank's slot under LOFT_ACCESS (R402 to R404, R410, R412), whatever well-addressed requests are pending: with PD2 off nothing is
served; with no request at the bank, or none of its last 1023 slots the scrubber's, the slot is the scrubber's; else one of the pending
requests is granted: a capture lane's where a lane waits and none won the last three slots, else one of the group with the largest
credit, ties to the lower group, and in its group the first after the one granted last. The granted write stores its symbols and the
granted read none; the group's longest wait follows. A read, or the read half of a partial write, counts the error it meets, which stops
a DMA channel and restarts a core. -/
def Obligations.LoftGrants : Prop :=
  ∀ (s : State) (t : Nat) (b : Fin 8) (reqs : List LoftReq),
    let d := s.devAt t
    let k := d.lbank b
    let here := reqs.filter (fun r => decide (loftBank r.addr = b))
    let active := (here.map (·.who.val)).eraseDups
    let credit := fun (g : Nat) => k.credit.getD g 0 + ((active.filter (fun w => decide (loftGroup w = g))).length : Int)
    let after := fun (w g : Nat) => (w + 46 - (if k.last.getD g 47 = 47 then 46 else k.last.getD g 47 % 47)) % 47
    let c := Instr.loftAccess t b reqs
    (∀ q ∈ reqs, q.addr < loftSize ∧ reqSpans q = false) →
    (d.pdOn 2 = false ∨ here = [] ∨ 1023 ≤ k.since → s.does t c [] (fun u => u.lbank b = k)) ∧
    (d.pdOn 2 = true → here ≠ [] → k.since < 1023 → ∃ u, exec c s = .next u ∧ ∃ r ∈ here,
      let g := loftGroup r.who
      let reads := r.data = none ∨ r.size < 8
      let bad := r.ecc = 2 ∨ d.meetsBad r.addr r.size = true
      (((∃ q ∈ here, q.who.val < 16) ∧ 0 ∉ k.hist.take 3 ∧ r.who.val < 16) ∨
        (((∀ q ∈ here, 16 ≤ q.who.val) ∨ 0 ∈ k.hist.take 3) ∧ ∀ q ∈ here, credit (loftGroup q.who) < credit g ∨
          (credit (loftGroup q.who) = credit g ∧ g ≤ loftGroup q.who))) ∧
      (∀ q ∈ here, loftGroup q.who = g → after r.who g ≤ after q.who g) ∧
      (r.data = none → u.loft = s.loft) ∧ (∀ bs, r.data = some bs → s.puts u r.addr bs) ∧
      (¬bad ∨ ¬reads → u.dev.obj 0x2D00 (0x14 + g) = max (d.obj 0x2D00 (0x14 + g)) (min 0xFFFFFFFF (d.now - r.since)) ∧
        (u.dev.lbank b).since = k.since + (if r.data.isSome ∧ r.size < 8 then 2 else 1) ∧
        (u.dev.lbank b).credit = (List.range 5).map (fun h => (if h ∈ active.map loftGroup then credit h else 0) -
          (if h = g then (active.length : Int) else 0))) ∧
      (¬bad → r.ecc = 0 ∨ ¬reads → s.keeps t u [(0x2D00, 0x14 + g)]) ∧
      (¬bad → r.ecc = 1 → reads → s.keeps t u [(0x2D00, 0x14 + g), (0x2D00, 0x0E), (0x2D00, 0x10), (0x2D00, 0x11)] ∧
        u.dev.obj 0x2D00 0x0E = satInc32 (d.obj 0x2D00 0x0E) ∧ u.dev.obj 0x2D00 0x10 = r.addr / 8 * 8 ∧ u.dev.obj 0x2D00 0x11 = d.now) ∧
      (bad → reads → r.who.val < 26 ∨ 30 ≤ r.who.val →
        u.dev.obj 0x2D00 0x0F = satInc32 (d.obj 0x2D00 0x0F) ∧ u.dev.obj 0x2D00 0x10 = r.addr / 8 * 8 ∧ u.dev.obj 0x2D00 0x11 = d.now ∧
        (30 ≤ r.who.val → r.who.val < 46 → let i := 0x2D10 + (r.who.val - 30)
          u.dev.obj i 0x16 = 0 ∧ u.dev.bit i 0x17 3 = true ∧ u.dev.bit i 0x17 4 = true ∧ u.dev.obj i 0x1D = r.addr)) ∧
      (bad → reads → 26 < r.who.val → r.who.val < 30 → d.coresRun = true →
        ((d.core (r.who.val - 26)).restarts.filter (fun a => decide (d.now < a + 60 * tqSec))).length < 2 →
        (u.dev.core (r.who.val - 26)).down = true))

/-- The scrubber and the window (R403 to R405, R414): a slot of the scrubber rewrites a word that waits, else reads the next word of its
bank and counts an error it meets, but for an uncorrectable one that a read has reported since the scrubber last came (R424); a port's
window reads and stores the symbols from window_addr on. -/
def Obligations.ScrubberAndWindow : Prop :=
  ∀ (s : State) (t : Nat),
    let d := s.devAt t
    (∀ b : Fin 8, d.runs 2 = true →
      let r := d.lbank b
      let a := (r.scrubbed % 196608 * 8 + b) * 8
      let own := [(0x2D00, 0x0E), (0x2D00, 0x0F), (0x2D00, 0x10), (0x2D00, 0x11), (0x2D00, 0x12)]
      (r.rewrite ≠ [] → ∀ e, s.does t (.scrub t b e) [] (fun u => (u.lbank b).rewrite = r.rewrite.dropLast ∧ (u.lbank b).since = 0)) ∧
      (r.rewrite = [] →
        s.does t (.scrub t b 0) [(0x2D00, 0x12)] (fun u => (u.lbank b).scrubbed = r.scrubbed + 1 ∧ (u.lbank b).since = 0) ∧
        s.does t (.scrub t b 1) own (fun u => u.obj 0x2D00 0x0E = satInc32 (d.obj 0x2D00 0x0E) ∧ u.obj 0x2D00 0x10 = a ∧
          (u.lbank b).rewrite = [a] ∧ (u.lbank b).scrubbed = r.scrubbed + 1) ∧
        s.does t (.scrub t b 2) own (fun u => u.obj 0x2D00 0x0F = (if r.told.contains a then d.obj 0x2D00 0x0F else satInc32 (d.obj 0x2D00 0x0F)) ∧
          (u.lbank b).scrubbed = r.scrubbed + 1))) ∧
    ∀ f : Frame, f.index = 0x2D00 → f.sub = 0x30 → f.ctl ≤ 1 → s.serves t f 0 true = true →
      let a := d.obj 0x2D00 (0x20 + f.req.port)
      (f.op = 1 → ∃ u, exec (.window t f) s = .next u ∧ u.dev.answered f .ok (loftBytes s.loft a (d.obj 0x2D00 (0x28 + f.req.port))) ∧
        u.loft = s.loft ∧ (s.devAt t).sameBut u.dev (fun i _ => portObj i)) ∧
      (f.op = 2 → ∃ u, exec (.window t f) s = .next u ∧ u.dev.answered f .ok [] ∧ f.data.length = d.obj 0x2D00 (0x28 + f.req.port) ∧
        s.puts u a f.data ∧ (s.devAt t).sameBut u.dev (fun i _ => portObj i))

/-- The states of a DMA channel (R418 to R420, R422): cmd 1 arms and cmd 2 starts with no credit, cmd 3 stops with aborted set, a start
pulse that arrives starts an armed channel and is ignored in any other state, a pace pulse adds a credit up to 255 and is lost beyond,
pause is stored, and a completed run is counted, timed and followed by what restart says. -/
def Obligations.DmaCommands : Prop :=
  ∀ (s : State) (t : Nat) (r : Req) (c : Fin 16),
    let d := s.devAt t
    let i := 0x2D10 + c.val
    let k := d.dma c
    (s.takes t r i 0x01 1 1 = true → s.does t (.dmaArm t r c) [(i, 0x16), (i, 0x1A)] (fun u => u.obj i 0x16 = 1 ∧ u.obj i 0x1A = 0)) ∧
    (s.takes t r i 0x01 1 2 = true → s.does t (.dmaArmStart t r c) [(i, 0x16), (i, 0x18), (i, 0x1A)] (fun u => u.obj i 0x16 = 2 ∧ u.obj i 0x1A = 0 ∧
      u.obj i 0x18 = 0 ∧ u.dma c = {})) ∧
    (s.takes t r i 0x01 1 3 = true → d.dmaState c ≠ 0 → s.does t (.dmaStop t r c) [(i, 0x16), (i, 0x17)] (fun u => u.obj i 0x16 = 0 ∧ u.bit i 0x17 3 = true)) ∧
    (∀ on : Bool, s.takes t r i 0x02 1 (if on then 1 else 0) = true → s.does t (.dmaPause t r c on) [(i, 0x02)] (fun u =>
      u.obj i 0x02 = (if on then 1 else 0) ∧ u.dma c = k)) ∧
    (d.runs 2 = true →
      ((d.arrives (.dmaStart c) (d.obj i 0x12)).isSome = true → d.dmaState c = 1 → s.does t (.dmaStartPulse t c) [(i, 0x16), (i, 0x18)] (fun u => u.obj i 0x16 = 2 ∧ u.obj i 0x18 = 0 ∧ u.dma c = {})) ∧
      (d.dmaState c ≠ 1 → s.does t (.dmaStartPulse t c) [] (fun u => u.dma c = k)) ∧
      ((d.arrives (.dmaPace c) (d.obj i 0x13)).isSome = true → d.obj i 0x1A < 255 → s.does t (.pacePulse t c) [(i, 0x1A)] (fun u => u.obj i 0x1A = d.obj i 0x1A + 1)) ∧
      ((d.arrives (.dmaPace c) (d.obj i 0x13)).isSome = true → 255 ≤ d.obj i 0x1A → s.does t (.pacePulse t c) [(i, 0x17), (i, 0x1B)] (fun u =>
        u.obj i 0x1B = satInc32 (d.obj i 0x1B) ∧ u.bit i 0x17 2 = true)) ∧
      (d.dmaState c = 2 → k.all = true → s.does t (.dmaComplete t c) [(i, 0x16), (i, 0x18), (i, 0x19), (i, 0x1C)] (fun u =>
        u.obj i 0x19 = satInc32 (d.obj i 0x19) ∧ u.obj i 0x1C = d.now ∧ u.line (224 + c) = (d.line (224 + c)).event d.now (d.gateOf (224 + c)) ∧
        u.obj i 0x16 = (if d.obj i 0x15 = 0 then 0 else if d.obj i 0x15 = 1 then 1 else 2) ∧ u.dma c = {})))

/-- One element of a DMA run (R415, R416, R419, R423): its symbols are copied from the address of the source's nest to that of the
destination's, it is counted, the innermost loop that has elements left moves on, and a credit for one element is spent; a ring side
reads at rx_read of its engine or writes at tx_write, and moves that on; a read that meets an uncorrectable error writes nothing and
stops the channel. -/
def Obligations.DmaCopies : Prop :=
  ∀ (s : State) (t : Nat) (c : Fin 16),
    let d := s.devAt t
    let i := 0x2D10 + c.val
    let e := 0x2C00 + d.obj i 0x11
    let k := d.dma c
    let n := 2 ^ d.obj i 0x05
    let src := (d.dmaAddr c 0x03 0x09 k.i0 k.i1 k.i2).toNat
    let dst := (d.dmaAddr c 0x04 0x0C k.i0 k.i1 k.i2).toNat
    let moved := fun (u : Dev) => u.obj i 0x18 = satInc32 (d.obj i 0x18) ∧
      (d.obj i 0x13 ≤ 255 → d.obj i 0x14 = 0 → u.obj i 0x1A = d.obj i 0x1A - 1) ∧ (255 < d.obj i 0x13 → u.obj i 0x1A = d.obj i 0x1A) ∧
      u.dma c = (if k.i0 + 1 < d.obj i 0x06 then { k with i0 := k.i0 + 1 }
        else if k.i1 + 1 < d.obj i 0x07 then { k with i0 := 0, i1 := k.i1 + 1 }
        else if k.i2 + 1 < d.obj i 0x08 then { k with i0 := 0, i1 := 0, i2 := k.i2 + 1 } else { k with all := true })
    let bytes := if d.obj i 0x0F = 1 then ringBytes s.loft (d.obj e 0x13) (d.obj e 0x14) (d.obj e 0x18) n else loftBytes s.loft src n
    let at_ := fun (j : Nat) => d.obj e 0x11 + (d.obj e 0x15 + j) % d.obj e 0x12
    let own := if d.obj i 0x0F = 1 then [(i, 0x18), (i, 0x1A), (e, 0x18)] else [(i, 0x18), (i, 0x1A)]
    let from_ := if d.obj i 0x0F = 1 then d.obj e 0x13 + d.obj e 0x18 else src
    d.runs 2 = true → d.dmaState c = 2 → k.all = false → d.obj i 0x02 ≠ 1 → (d.obj i 0x13 ≤ 255 → d.obj i 0x1A ≠ 0) → d.dmaRingWait c = false →
    (d.obj i 0x0F = 1 ∨ d.obj i 0x10 = 1 → d.obj i 0x11 < 8) →
    (d.obj i 0x10 ≠ 1 → d.meetsBad from_ n = false → ∃ u, exec (.dmaElement t c false) s = .next u ∧ s.puts u dst bytes ∧ s.keeps t u own ∧ moved u.dev ∧
      (d.obj i 0x0F = 1 → u.dev.obj e 0x18 = (d.obj e 0x18 + n) % d.obj e 0x14)) ∧
    (d.obj i 0x10 = 1 → d.obj e 0x11 + d.obj e 0x12 ≤ loftSize → d.meetsBad from_ n = false → ∃ u, exec (.dmaElement t c false) s = .next u ∧
      (∀ j < n, loftByte u.loft (at_ j) = bytes.getD j 0) ∧ (∀ q, (∀ j < n, q ≠ at_ j) → loftByte u.loft q = loftByte s.loft q) ∧
      s.keeps t u ((e, 0x15) :: own) ∧ moved u.dev ∧ u.dev.obj e 0x15 = (d.obj e 0x15 + n) % d.obj e 0x12) ∧
    ∀ ecc, ecc = true ∨ d.meetsBad from_ n = true →
      s.does t (.dmaElement t c ecc) [(i, 0x16), (i, 0x17), (i, 0x1D), (0x2D00, 0x0F), (0x2D00, 0x10), (0x2D00, 0x11)] (fun u =>
        u.obj i 0x16 = 0 ∧ u.bit i 0x17 3 = true ∧ u.bit i 0x17 4 = true ∧ u.obj i 0x1D = from_ ∧
        u.obj 0x2D00 0x0F = satInc32 (d.obj 0x2D00 0x0F))


/-- The priority stack of a core (R433, R435, R483): the controller presents the pending source of the highest priority above the top's,
ties to the lower number; taking it makes it active, no longer pending, and puts it on top of the stack; completing the source on top
pops it. No object changes but the count of log entries dropped. The recovery of a frozen stack and of the fault line (R438, R439): C0's
completion of source 127 ends the fault line; a stack_reset that is accepted empties the stack, makes every source that was on it
pending and no longer active, and clears frozen and the fault line. -/
def Obligations.StacksNestAndRecover : Prop :=
  (∀ (s : State) (t : Nat) (c : Fin 4),
    let d := s.devAt t
    let r := d.core c
    d.runs 2 = true → d.coreDown c = false → r.frozen = false →
    s.does t (.presentation t c) [] (fun u => (u.core c).stack = r.stack ∧ ∀ src, (u.core c).presented = some src ↔
      ∃ p, (src, p) ∈ d.pendingAt c ∧ p < r.ceiling ∧ ∀ e ∈ d.pendingAt c, e.2 < r.ceiling → p < e.2 ∨ (p = e.2 ∧ src ≤ e.1)) ∧
    (∀ src, r.presented = some src → (d.pend src c).pending = true → (d.pend src c).active = false → (d.pend src c).prio < r.ceiling →
      s.does t (.coreTake t c) [(0x2F20, 0x13)] (fun u => (u.core c).stack = (src, (d.pend src c).prio) :: r.stack ∧
        (src ≠ 121 → (u.pend src c).pending = false) ∧ (u.pend src c).active = true)) ∧
    ∀ (src : Fin 128) (p : Nat) (rest : List (Nat × Nat)), r.stack = (src.val, p) :: rest → (d.pend src c).active = true →
      (c = 0 → src.val = 127 → d.faultLine = false) →
      s.does t (.coreComplete t c src) [] (fun u => (u.core c).stack = rest ∧ (u.pend src c).active = false)) ∧
  (∀ (s : State) (t : Nat) (c : Fin 4),
    let d := s.devAt t
    (d.runs 2 = true → d.coreDown 0 = false → d.faultLine = true → s.does t (.coreComplete t 0 127) [] (fun u =>
      u.faultLine = false ∧ u.cores = d.cores ∧ u.irq = d.irq)) ∧
    ∀ r, s.takes t r (0x2E10 + c.val) 0x08 1 1 = true →
      s.does t (.stackReset t r c) [] (fun u => (u.core c).stack = [] ∧ (u.core c).frozen = false ∧ u.faultLine = false ∧
        ∀ e ∈ (d.core c).stack, (u.pend e.1 c).active = false ∧ (u.pend e.1 c).pending = true))

/-- A completion that names a source not active at its target is ignored (R436): by a core it is counted in ignored, whether or not the
stack is frozen or the source lies in it, and nothing else changes (C0's completion of source 127 on its fault line, R438, is no such
completion); by a NOTIFY_ACK, of which every name is inactive, each is counted in acks_ignored and no source changes. -/
def Obligations.InactiveCompletionsIgnored : Prop :=
  (∀ (s : State) (t : Nat) (c : Fin 4) (src : Fin 128),
    let d := s.devAt t
    d.runs 2 = true → d.coreDown c = false → (d.pend src c).active = false → (c = 0 → src.val = 127 → d.faultLine = false) →
    s.does t (.coreComplete t c src) [(0x2E10 + c.val, 0x05)] (fun u => u.obj (0x2E10 + c.val) 0x05 = satInc32 (d.obj (0x2E10 + c.val) 0x05) ∧
      u.irq = d.irq ∧ u.cores = d.cores ∧ u.faultLine = d.faultLine)) ∧
  ∀ (s : State) (t : Nat) (f : Frame), f.op = 0x0B → s.serves t f 0 true = true →
    let e := (s.devAt t).arrive f.req
    let p := f.req.port.val
    f.data ≠ [] → (∀ b ∈ f.data, b.toNat < 128 → (e.pend b.toNat (4 + p)).active = false) →
    ∃ u, exec (.notifyAck t f) s = .next u ∧ u.dev.obj (0x1600 + p) 0x05 = min 0xFFFFFFFF (e.obj (0x1600 + p) 0x05 + f.data.length) ∧
      u.dev.irq = e.irq

/-- A completion that is not at the top freezes the stack (R437): no entry of the stack changes, the core is frozen, faults counts,
last_fault names the core, the completed and the top source, last_fault_time the instant, and source 127 is raised. While frozen,
nothing is presented, nothing can be taken, every completion is ignored and counted (C0's of its fault line is R438's), and a source
raised for the core becomes and stays pending. -/
def Obligations.FrozenStacks : Prop :=
  ∀ (s : State) (t : Nat) (c : Fin 4),
    let d := s.devAt t
    let r := d.core c
    let i := 0x2E10 + c.val
    d.runs 2 = true → d.coreDown c = false →
    (∀ (src : Fin 128) (top p : Nat) (rest : List (Nat × Nat)), r.frozen = false → r.stack = (top, p) :: rest → (d.pend src c).active = true →
      top ≠ src.val → (c = 0 → src.val = 127 → d.faultLine = false) →
      s.does t (.coreComplete t c src) [(i, 0x06), (0x2E00, 0x04), (0x2E00, 0x05), (0x2E00, 0x06), (0x2F20, 0x13)] (fun u =>
        (u.core c).stack = r.stack ∧ (u.core c).frozen = true ∧ u.obj i 0x06 = satInc32 (d.obj i 0x06) ∧
        u.obj 0x2E00 0x04 = satInc32 (d.obj 0x2E00 0x04) ∧ u.obj 0x2E00 0x05 = c.val * 65536 + src.val * 256 + top ∧ u.obj 0x2E00 0x06 = d.now ∧ u.faultLine = true ∧
        (d.obj 0x1800 0x01 ≤ 5 → (u.pend 127 (4 + d.obj 0x1800 0x01)).pending = true))) ∧
    (r.frozen = true →
      s.does t (.presentation t c) [] (fun u => (u.core c).presented = none ∧ (u.core c).stack = r.stack ∧ u.irq = d.irq) ∧
      s.does t (.coreTake t c) [] (fun u => u.cores = d.cores ∧ u.irq = d.irq) ∧
      (∀ src : Fin 128, (c = 0 → src.val = 127 → d.faultLine = false) →
        s.does t (.coreComplete t c src) [(i, 0x05)] (fun u => u.obj i 0x05 = satInc32 (d.obj i 0x05) ∧ u.cores = d.cores ∧ u.irq = d.irq)) ∧
      ∀ src < 127, (d.routeOf src).1 = c.val → ((d.raise src).pend src c).pending = true)

/-- Locks, mailboxes and doorbells (R432, R444 to R448): a lock is set; a send stores the message, sets full, moves the sequence on and is
counted and timed; a read of take answers sequence, full and length and empties the mailbox; ringing sets and counts every bell named,
and answering clears it. -/
def Obligations.MailboxesAndBells : Prop :=
  ∀ (s : State) (t : Nat) (r : Req),
    let d := s.devAt t
    (s.takes t r 0x2E00 0x01 1 1 = true → s.does t (.routeLock t r) [(0x2E00, 0x01)] (fun u => u.obj 0x2E00 0x01 = 1)) ∧
    (s.takes t r 0x2E60 0x01 1 1 = true → s.does t (.pairLock t r) [(0x2E60, 0x01)] (fun u => u.obj 0x2E60 0x01 = 1)) ∧
    (∀ (m : Fin 32) (data : List Byte), s.serves t (putFrame r (0x2E40 + m.val) 0x04 1 data) 0 true = true →
      let i := 0x2E40 + m.val
      s.does t (.send t r m data) [(i, 0x07), (i, 0x08), (i, 0x0A)] (fun u => (u.mbox m).full = true ∧ (u.mbox m).msg = data ∧
        u.obj i 0x07 = (d.obj i 0x07 + 1) % 256 ∧ u.obj i 0x08 = satInc32 (d.obj i 0x08) ∧ u.obj i 0x0A = d.now)) ∧
    (∀ m : Fin 32, let f : Frame := { req := r, op := 0x01, index := 0x2E40 + m.val, sub := 0x05, ctl := 1, len := 0, data := [] }
      s.serves t f 0 true = true → s.does t (.take t r m) [] (fun u => u.answered f .ok (leBytes 4 (d.mboxWord m)) ∧ (u.mbox m).full = false)) ∧
    (∀ mask < 65536, s.takes t r 0x2E60 0x04 2 mask = true →
      s.does t (.ring t r mask) ((0x2E60, 0x03) :: span 0x2E60 0x20 0x2F) (fun u => ∀ k < 16,
        u.bit 0x2E60 0x03 k = (d.bit 0x2E60 0x03 k || mask.testBit k) ∧
        u.obj 0x2E60 (0x20 + k) = if mask.testBit k then satInc32 (d.obj 0x2E60 (0x20 + k)) else d.obj 0x2E60 (0x20 + k))) ∧
    ∀ mask < 65536, s.takes t r 0x2E60 0x05 2 mask = true →
      s.does t (.answer t r mask) [(0x2E60, 0x03)] (fun u => ∀ k < 16, u.bit 0x2E60 0x03 k = (d.bit 0x2E60 0x03 k && !mask.testBit k))

/-- The Nightlight (R441 to R443): a watch that fires writes its record at the newest place, counts in wakes, moves the older records on
and, in service, asks for the wake domains, and out of sleep restarts the device; the hold of a HATTN pin ends with hattn_hold. -/
def Obligations.NightlightActs : Prop :=
  (∀ (s : State) (t : Nat) (w : Fin 16),
    let d := s.devAt t
    d.watchDue w = true → d.rst.waking = false →
    (d.rst.slept.isSome = true → ∃ u, exec (.watchFire t w) s = .next u ∧ d.resetBy u.dev 8 w 5 ∧ u.dev.rst.waking = true ∧
      u.dev.obj 0x2E20 0x22 = satInc32 (d.obj 0x2E20 0x22)) ∧
    (d.rst.slept = none → ∃ u, exec (.watchFire t w) s = .next u ∧ u.loft = s.loft ∧ u.dev.obj 0x2E20 0x22 = satInc32 (d.obj 0x2E20 0x22) ∧
      u.dev.obj 0x2E20 0x23 = w.val * 2 ^ 28 + d.obj 0x2E20 (0x10 + w.val) / 2 ^ 28 * 2 ^ 24 ∧
      (∀ k < 7, u.dev.obj 0x2E20 (0x24 + k) = d.obj 0x2E20 (0x23 + k)) ∧
      u.dev.obj 0x2F10 0x02 = (d.obj 0x2F10 0x02 ||| (d.obj 0x2E20 0x02 ||| 0x000F)) ∧
      ∀ k < 14, 1 ≤ k → (u.dev.obj 0x2F10 0x02).testBit k = true → u.dev.pdOn k = true)) ∧
  ∀ (s : State) (t : Nat) (p : Fin 6) (e : Nat), ((s.devAt t).port p).hattnWake = some e → e ≤ (s.devAt t).now →
    s.does t (.hattnRelease t p) [] (fun u => (u.port p).hattnWake = none)


/-- The causes of a device reset (R456 to R458, R467, R97): the pin, device_reset, activation, a brown-out of PD2 or PD3, and the watchdog
of C0 assert it; each leaves what every assertion leaves, with its cause and detail in the history. Power-on (R456, R465, R486): the
reset is held in phase P1 with the supply low; the history holds the power-on alone, all domains but PD0 and PD1 are off, no session is
open, nothing is pending and the domains are STOPPED and disarmed. Its release, like that of the pin, ends the hold and changes nothing
else. -/
def Obligations.ResetsAndPowerOn : Prop :=
  ((∀ (s : State) (t : Nat), s.dev.rst.heldPin = false →
    ∃ u, exec (.resetN t) s = .next u ∧ (s.devAt t).resetBy u.dev 3 0 2 ∧ u.dev.rst.heldPin = true) ∧
  (∀ (s : State) (t : Nat) (r : Req), s.takes t r 0x2F00 0x07 1 1 = true →
    ∃ u, exec (.deviceReset t r) s = .next u ∧ (s.devAt t).resetBy u.dev 5 r.port 2) ∧
  (∀ (s : State) (t : Nat) (r : Req), s.takes t r 0x1030 0x03 1 1 = true →
    ∃ u, exec (.activate t r) s = .next u ∧ (s.devAt t).resetBy u.dev 5 (0x80 + r.port.val) 6) ∧
  (∀ (s : State) (t : Nat) (k : Fin 14), k.val = 2 ∨ k.val = 3 → (s.devAt t).pdOn k = true →
    ∃ u, exec (.brownOut t k) s = .next u ∧ (s.devAt t).resetBy u.dev 2 k 2) ∧
  ∀ (s : State) (t : Nat), (s.devAt t).coresRun = true → (s.devAt t).coreDown 0 = false →
    ∃ u, exec (.watchdog t 0) s = .next u ∧ (s.devAt t).resetBy u.dev 6 0x80 2) ∧
  ((∀ (s : State) (t : Nat), ∃ u, exec (.powerOn t) s = .next u ∧ u.dev.obj 0x2F00 0x01 = 1 ∧ u.dev.obj 0x2F00 0x0B = 1 ∧
    u.dev.obj 0x2F00 0x10 = 0x10000001 ∧ u.dev.obj 0x2F10 0x01 = 3 ∧ u.dev.bit 0x2F10 0x06 0 = true ∧
    u.dev.rst.heldPower = true ∧ u.dev.ready = false ∧ u.dev.now = 0 ∧ u.dev.irq = [] ∧ u.dev.occs = [] ∧
    (∀ p < 6, u.dev.sessOpen p = false) ∧ ∀ k < 2, u.dev.domState k = 0 ∧ u.dev.bit (0x2180 + k) 0x11 0 = false) ∧
  (∀ (s : State) (t : Nat), ∃ u, exec (.powerOnRelease t) s = .next u ∧ u.dev.rst = { s.dev.rst with heldPower := false } ∧
    u.dev.regs = s.dev.regs) ∧
  ∀ (s : State) (t : Nat), ∃ u, exec (.resetNRelease t) s = .next u ∧ u.dev.rst = { s.dev.rst with heldPin := false } ∧
    u.dev.regs = s.dev.regs)

/-- The phases of a start (R461 to R463, R470, R478): while no cause holds the reset, the end of each phase's work leads to the next: P2
with the reference that R98 selects where the time counter starts anew, P3 once the OPT code is taken, P5 with the Loft cleared and with
all domains on, P6 with a firmware bank that passes its checks, and P8 makes the device ready. -/
def Obligations.PhasesFollow : Prop :=
  ∀ (s : State) (t : Nat),
    ((s.devAt t).inPhase 1 = true → ∃ u, exec (.phaseP1 t) s = .next u ∧ u.dev.obj 0x2F00 0x01 = 2) ∧
    ((s.devAt t).inPhase 2 = true → ∀ (edges kHz : Nat) (crystal : Bool) (worst : Nat),
      ∃ u, exec (.phaseP2 t ⟨edges, kHz⟩ crystal worst) s = .next u ∧ u.dev.obj 0x2F00 0x01 = 3 ∧
        (s.dev.rst.tbStopped = true → u.dev.obj 0x2000 0x03 = if edges < 64 then crystal.toNat
          else if 19000 ≤ kHz ∧ kHz ≤ 21000 then 2 else if 23750 ≤ kHz ∧ kHz ≤ 26250 then 3 else if 38000 ≤ kHz ∧ kHz ≤ 42000 then 4
          else crystal.toNat)) ∧
    ((s.devAt t).inPhase 3 = true → s.dev.rst.optTaken = false → ∀ (code : Fin 16) (rest : List Nat),
      s.dev.rst.optCodes = [code.val, code.val] ++ rest →
      ∃ u, exec (.optConversion t code) s = .next u ∧ u.dev.rst.optTaken = true ∧ u.dev.obj 0x2F00 0x04 = code ∧
        u.dev.obj 0x2F00 0x05 = code % 8) ∧
    ((s.devAt t).inPhase 3 = true → s.dev.rst.optTaken = true → ∀ ms4 ms5, ∃ u, exec (.phaseP3 t ms4 ms5 false) s = .next u ∧
      u.dev.obj 0x2F00 0x01 = 4 ∧ (u.dev.port 4).strapMaster = !ms4 ∧ (u.dev.port 5).strapMaster = !ms5) ∧
    ((s.devAt t).inPhase 4 = true → s.dev.rst.testmode = false → ∃ u, exec (.phaseP4 t) s = .next u ∧
      u.dev.obj 0x2F00 0x01 = 5) ∧
    ((s.devAt t).inPhase 5 = true → s.dev.rst.waking = false → ∃ u, exec (.phaseP5 t none) s = .next u ∧
      u.dev.obj 0x2F00 0x01 = 6 ∧ u.dev.obj 0x2F10 0x01 = 0x3FFF ∧ u.loft = []) ∧
    ((s.devAt t).inPhase 5 = true → ∀ k : Fin 14, ∃ u, exec (.phaseP5 t (some k)) s = .next u ∧ (s.devAt t).resetBy u.dev 2 k 2) ∧
    ((s.devAt t).inPhase 6 = true → s.dev.rst.bootStuck = false → ∀ okA okB,
      ((s.devAt t).fwPasses 0 okA = true ∨ (s.devAt t).fwPasses 1 okB = true) →
      ∃ u, exec (.phaseP6 t okA okB) s = .next u ∧ u.dev.obj 0x2F00 0x01 = 7 ∧ u.dev.rst.bootStuck = false) ∧
    ((s.devAt t).inPhase 6 = true → s.dev.rst.bootStuck = true → s.dev.rst.bootBank < 2 → ∀ okA okB,
      ((s.devAt t).fwPasses 0 okA = true ∨ (s.devAt t).fwPasses 1 okB = true) →
      ∃ u, exec (.bootRetry t okA okB) s = .next u ∧ u.dev.obj 0x2F00 0x01 = 7 ∧ u.dev.rst.bootStuck = false) ∧
    ((s.devAt t).inPhase 7 = true → ∃ u, exec (.phaseP7 t) s = .next u ∧ u.dev.obj 0x2F00 0x01 = 8) ∧
    ((s.devAt t).inPhase 8 = true → (s.devAt t).ready = false → ∃ u, exec (.phaseP8 t) s = .next u ∧ u.dev.ready = true)


/-- Domain and core resets (R456, R460, R466, R468): DOMAIN_RESET and a brown-out of PD4 to PD13 are recorded and begin the reset of the
domain, its restore ends it, and that of a domain whose brown-out met another's reset (log 102) follows; the watchdog of C1 to C3 takes
the core down until it resumes; a fault of the replica disarms both domains and is flagged (R26). The brown-out flag is stated of states
in which boost_sel of every bank is 0 or 1 (R270). Power management (R464, R471 to R473, R487): hold_release ends the configuration
hold, domain_req turns every domain on or off as its bits say, sleep leaves PD0 and PD1 on and notes its instant, supply_low is set and
cleared with the supply, and the clear command zeroes the brown-out count and its bit. -/
def Obligations.PartsAndPower : Prop :=
  ((∀ (s : State) (t : Nat) (r : Req) (v : Fin 256), s.takes t r 0x2F00 0x08 1 v = true →
    ∃ u, exec (.domainReset t r v) s = .next u ∧ u.dev.rst.domReset = some v.val ∧
      u.dev.obj 0x2F00 0x0A = (if v.val = 7 ∨ v.val = 8 then 1 else 3) ∧ u.dev.obj 0x2F00 0x0B = satInc32 (s.dev.obj 0x2F00 0x0B)) ∧
  (∀ (s : State) (t : Nat) (k : Nat), s.dev.rst.domReset = some k → (s.devAt t).coresRun = true → s.dev.obj 0x2F00 0x0A = 3 →
    ∃ u, exec (.domainRestore t) s = .next u ∧ u.dev.rst.domReset = none ∧
      u.dev.obj 0x2F00 0x0A = (if s.dev.rst.domLate then 5 else 4)) ∧
  (∀ (s : State) (t : Nat) (k : Nat) (rest : List Nat), s.dev.rst.domReset = none → (s.devAt t).coresRun = true →
    s.dev.rst.browned = k :: rest → ∃ u, exec (.domainRestore t) s = .next u ∧ u.dev.rst.browned = rest) ∧
  (∀ (s : State) (t : Nat) (k : Fin 14), 4 ≤ k.val → (s.devAt t).pdOn k = true → (s.devAt t).coresRun = true →
    ∃ u, exec (.brownOut t k) s = .next u ∧
      (s.dev.rst.domReset = none ∨ s.dev.rst.domReset = some k.val →
        u.dev.rst.domReset = some k.val ∧ u.dev.obj 0x2F00 0x0A = 3) ∧
      (∀ j, s.dev.rst.domReset = some j → j ≠ k.val →
        u.dev.rst.domReset = some j ∧ u.dev.rst.browned = s.dev.rst.browned.erase k.val ++ [k.val]) ∧
      ((∀ b, s.dev.railOf b ≤ 1) → u.dev.bit 0x2F10 0x06 2 = true) ∧ u.dev.obj 0x2F10 0x07 = satInc32 (s.dev.obj 0x2F10 0x07)) ∧
  (∀ (s : State) (t : Nat) (c : Fin 4), 1 ≤ c.val → (s.devAt t).coresRun = true → (s.devAt t).coreDown c = false →
    (((s.devAt t).core c).restarts.filter (fun x => decide ((s.devAt t).now < x + 60 * tqSec))).length < 2 →
    ∃ u, exec (.watchdog t c) s = .next u ∧ (u.dev.core c).down = true ∧
      u.dev.obj 0x2F00 0x0C = satInc32 (s.dev.obj 0x2F00 0x0C)) ∧
  (∀ (s : State) (t : Nat) (c : Fin 4), (s.devAt t).coresRun = true → (s.dev.core c).down = true →
    ∃ u, exec (.coreResume t c) s = .next u ∧ (u.dev.core c).down = false ∧ u.dev.regs = s.dev.regs) ∧
  ∀ (s : State) (t : Nat), (s.devAt t).ready = true →
    ∃ u, exec (.replicaFault t) s = .next u ∧ u.dev.bit 0x2F10 0x06 1 = true ∧
      ∀ k < 2, u.dev.bit (0x2180 + k) 0x11 0 = false) ∧
  (∀ (s : State) (t : Nat) (r : Req),
    (s.takes t r 0x2F00 0x03 1 1 = true → ∃ u, exec (.holdReleaseSchedules t r) s = .next u ∧ u.dev.bit 0x2F00 0x02 1 = false) ∧
    (s.takes t r 0x2F00 0x03 1 2 = true → ∃ u, exec (.holdReleaseDefaults t r) s = .next u ∧ u.dev.bit 0x2F00 0x02 1 = false) ∧
    (∀ v < 65536, s.takes t r 0x2F10 0x02 2 v = true → ∃ u, exec (.domainReq t r v) s = .next u ∧ u.dev.obj 0x2F10 0x02 = v ∧
      ∀ k < 14, u.dev.pdOn k = v.testBit k) ∧
    (s.takes t r 0x2F10 0x03 1 1 = true → ∃ u, exec (.sleep t r) s = .next u ∧ u.dev.rst.slept = some (s.devAt t).now ∧
      u.dev.obj 0x2F10 0x01 = 3) ∧
    (s.dev.bit 0x2F10 0x06 0 = false → ∃ u, exec (.supplyLow t) s = .next u ∧ u.dev.bit 0x2F10 0x06 0 = true ∧
      s.dev.sameBut u.dev (fun i w => decide (i = 0x2F10) && decide (w = 0x06))) ∧
    (∃ u, exec (.supplyLowClear t) s = .next u ∧ u.dev.bit 0x2F10 0x06 0 = false) ∧
    (s.takes t r 0x2F10 0x09 1 1 = true → ∃ u, exec (.powerClear t r) s = .next u ∧ u.dev.obj 0x2F10 0x07 = 0 ∧
      u.dev.bit 0x2F10 0x06 2 = false ∧
      (s.devAt t).sameBut u.dev (fun i w => portObj i || (decide (i = 0x2F10) && (decide (w = 0x06) || decide (w = 0x07))))))

/-- Writes of the non-volatile store begin (R476, R481, R482): a commit and a learned write take a token of their budget and queue a write
whose bank has lost its commit word; a commit shows that it is in progress, a learned write serves the pending triggers. A write of the
store ends (R475, R476, R481, R500): a bank that reads back right is valid with the body and the sequence of its write, and a commit has
succeeded; the end of an import's write shows in import_state; a budget regains a token when its time has run (R482). -/
def Obligations.StoreWritesRun : Prop :=
  (let begins := fun (s u : State) (pair : Nat) (commit : Bool) =>
    ∃ j, u.dev.nv.jobs = s.dev.nv.jobs ++ [j] ∧ j.pair = pair ∧ j.commit = commit ∧ j.imported = false ∧
      (u.dev.nvBank j.bank).valid pair = false
  (∀ (s : State) (t : Nat) (r : Req), s.takes t r 0x2F20 0x01 1 1 = true →
    ∃ u, exec (.commitPersistent t r) s = .next u ∧ begins s u 4 true ∧ u.dev.obj 0x2F20 0x02 = 1 ∧
      u.dev.nv.tokP + 1 = s.dev.nv.tokP) ∧
  (∀ (s : State) (t : Nat) (r : Req), s.takes t r 0x2F20 0x01 1 2 = true →
    ∃ u, exec (.commitEmpty t r) s = .next u ∧ begins s u 4 true ∧ (∃ j ∈ u.dev.nv.jobs, j.pair = 4 ∧ j.body = []) ∧
      u.dev.obj 0x2F20 0x02 = 1 ∧ u.dev.nv.tokP + 1 = s.dev.nv.tokP) ∧
  (∀ (s : State) (t : Nat) (r : Req), s.takes t r 0x2F20 0x01 1 3 = true →
    ∃ u, exec (.commitLearned t r) s = .next u ∧ begins s u 6 true ∧ u.dev.obj 0x2F20 0x02 = 1 ∧
      u.dev.bit 0x2F20 0x08 0 = false ∧ u.dev.nv.tokL + 1 = s.dev.nv.tokL) ∧
  ∀ (s : State) (t : Nat), (s.devAt t).ready = true → s.dev.bit 0x2F20 0x08 0 = true → 0 < s.dev.nv.tokL →
    (∀ j ∈ s.dev.nv.jobs, j.pair ≠ 6) → s.dev.bit 0x2F10 0x06 0 = false →
    ∃ u, exec (.learnedWrite t) s = .next u ∧ begins s u 6 false ∧ u.dev.bit 0x2F20 0x08 0 = false ∧
      u.dev.nv.tokL + 1 = s.dev.nv.tokL) ∧
  ((∀ (s : State) (t : Nat) (pair : Fin 4) (j : NvJob), s.dev.nv.jobs = [j] → j.pair = 2 * pair.val → j.imported = false →
    (s.devAt t).coresRun = true → j.body.length + 32 ≤ nvSize j.pair →
    ∃ u, exec (.nvWriteDone t pair true) s = .next u ∧ (u.dev.nvBank j.bank).valid j.pair = true ∧
      (u.dev.nvBank j.bank).body = j.body ∧ (u.dev.nvBank j.bank).seq = j.seq % 2 ^ 32 ∧ j ∉ u.dev.nv.jobs ∧
      (j.commit = true → u.dev.obj 0x2F20 0x02 = 2)) ∧
  (∀ (s : State) (t : Nat) (j : NvJob) (ok : Bool), s.dev.nv.jobs = [j] → j.pair = 6 → j.imported = true →
    (s.devAt t).coresRun = true →
    ∃ u, exec (.importSave t ok) s = .next u ∧ u.dev.nv.jobs = [] ∧
      u.dev.obj 0x5000 0x03 = (if !ok then 8 else if s.dev.obj 0x5000 0x08 ≠ 0 then 7 else 2)) ∧
  ∀ (s : State) (t : Nat),
    (s.dev.nv.tokP < 24 → 900 * tqSec ≤ s.dev.nv.accP + ((s.devAt t).now - s.dev.nv.refP) →
      ∃ u, exec (.tokenRefill t false) s = .next u ∧ u.dev.nv.tokP = s.dev.nv.tokP + 1 ∧ u.dev.nv.tokL = s.dev.nv.tokL ∧
        u.dev.regs = s.dev.regs) ∧
    (s.dev.nv.tokL < 4 → 1200 * tqSec ≤ s.dev.nv.accL + ((s.devAt t).now - s.dev.nv.refL) →
      ∃ u, exec (.tokenRefill t true) s = .next u ∧ u.dev.nv.tokL = s.dev.nv.tokL + 1 ∧ u.dev.nv.tokP = s.dev.nv.tokP ∧
        u.dev.regs = s.dev.regs))

/-- Learned data move in and out by block transfer (R65 to R67, R497 to R500), in an open session with BLOCK_TRANSFER: the BLOCK_START of an
export takes the image of that instant, each BLOCK_DATA returns its next segment and the BLOCK_END its CRC; the BLOCK_START of an import
announces its length, each BLOCK_DATA stages a segment, and the BLOCK_END of an image of the announced length and CRC that passes the
checks of R498 applies it, counts it and begins its write, or notes that the save has failed while the supply is low; one that fails a
check is refused with RANGE and shows the check in import_state. -/
def Obligations.LearnedDataMove : Prop :=
  ∀ (s : State) (t : Nat) (f : Frame), f.index = 0x5000 → f.ctl ≤ 1 → s.admits t f = true →
    let g := frameUnpad f
    let e := ((s.devAt t).arrive f.req).staged g
    let p := f.req.port.val
    let seg := segSize p
    let now := (s.devAt t).now
    let moves := fun (c : Instr) (data : List Byte) (x : Option Xfer) =>
      ∃ u, exec c s = .next u ∧ u.loft = s.loft ∧ u.dev.answered f .ok data ∧ (u.dev.port p).xfer = x
    e.sessOpen p = true → e.feature p 0 1 = true →
    (f.sub = 0x01 →
      (f.op = 0x03 → (e.port p).xfer = none → e.gatesShut p 0x5000 [1] = false → g.data.length = 8 → g.data.take 4 = [1, 0, 0, 0] →
        moves (.learnedExport t f) (leBytes 4 e.exportImage.length ++ leBytes 2 seg)
          (some { isWrite := false, index := 0x5000, sub := 1, ctl := f.ctl, total := e.exportImage.length, seq := 0
                  data := e.exportImage, short := false, last := now })) ∧
      ∀ x, e.xferOf f = some x → x.isWrite = false →
        (f.op = 0x04 → g.data = leBytes 2 x.seq → x.seq = 0 ∨ x.seq * seg < x.total →
          moves (.learnedExport t f) (g.data ++ (x.data.drop (x.seq * seg)).take seg) (some { x with seq := x.seq + 1, last := now })) ∧
        (f.op = 0x05 → moves (.learnedExport t f) (leBytes 4 (crc32 x.data)) none)) ∧
    (f.sub = 0x02 → ∀ b, blockOf 0x5000 = some b →
      (f.op = 0x03 → (e.port p).xfer = none → g.data.length = 8 → g.data.take 4 = [0, 0, 0, 0] →
        totalFits 0x5000 [2] (fieldOf g.data 4 4) = true → e.busyHere p 0x5000 b [2] = false → e.writeShut p 0x5000 b [2] = false →
        e.wOwner e (e.presentWr p 0x5000 b [2]) = false → e.wLocked (e.presentWr p 0x5000 b [2]) = false →
        e.wArmed e (e.presentWr p 0x5000 b [2]) = false →
        moves (.learnedImport t f) (g.data.drop 4 ++ leBytes 2 seg)
          (some { isWrite := true, index := 0x5000, sub := 2, ctl := f.ctl, total := fieldOf g.data 4 4, seq := 0, data := []
                  short := false, last := now })) ∧
      ∀ x, e.xferOf f = some x → x.isWrite = true →
        (f.op = 0x04 → 2 ≤ g.data.length → g.data.take 2 = leBytes 2 x.seq → x.sizeBad seg (g.data.drop 2).length = false →
          moves (.learnedImport t f) (g.data.take 2) (some { x with seq := x.seq + 1, data := x.data ++ g.data.drop 2
                                                                    short := decide ((g.data.drop 2).length < seg), last := now })) ∧
        (f.op = 0x05 → g.data = leBytes 4 (crc32 x.data) → x.data.length = x.total →
          ∀ puts, splitPuts 0x5000 [2] x.data = some puts → (e.setXfer p none).wRefusal savedBankValid (hostWr p 0x5000 b puts) = none →
          ∃ u, exec (.learnedImport t f) s = .next u ∧ u.loft = s.loft ∧ (u.dev.port p).xfer = none ∧
            (∀ st, e.importState x.data = some st → u.dev.answered f .range [] ∧ u.dev.obj 0x5000 0x03 = st ∧
              (s.devAt t).sameBut u.dev (fun i w => portObj i || (decide (i = 0x5000) && decide (w = 0x03)))) ∧
            (e.importState x.data = none → u.dev.answered f .ok [] ∧ u.dev.obj 0x5000 0x05 = fieldOf x.data 12 4 ∧
              u.dev.obj 0x5000 0x06 = now ∧ u.dev.obj 0x5000 0x03 = (if u.dev.bit 0x2F10 0x06 0 then 8 else 1) ∧
              (u.dev.bit 0x2F10 0x06 0 = false → ∃ j ∈ u.dev.nv.jobs, j.pair = 6 ∧ j.imported = true))))

/-- The image that a part exports passes every check that an import makes of it on the same part (R496 to R498): no byte of its header, its
length or its CRC is laid out otherwise when it is read than when it is written. -/
def Obligations.ExportedImagePasses : Prop :=
  ∀ d : Dev, d.obj 0x1018 0x02 < 2 ^ 32 → d.importState d.exportImage = none

/-- The instructions of the test access port (R514 to R517): each becomes current with what it drives and captures; EXTEST, CLAMP and HIGHZ
disarm both domains, the others change no object, and IDCODE captures the device's code, bit 0 first. -/
def Obligations.TapInstructions : Prop :=
  ∀ (s : State) (t : Nat), (s.devAt t).tapOn = true →
    (∀ cells, ∃ u, exec (.extest t cells) s = .next u ∧ u.dev.tap = { s.dev.tap with instr := 0, driving := true, floating := false, cells := cells } ∧
      ∀ k < 2, u.dev.bit (0x2180 + k) 0x11 0 = false) ∧
    (∃ u, exec (.clamp t) s = .next u ∧ u.dev.tap = { s.dev.tap with instr := 3, driving := true, floating := false, captured := [false] } ∧
      ∀ k < 2, u.dev.bit (0x2180 + k) 0x11 0 = false) ∧
    (∃ u, exec (.highz t) s = .next u ∧ u.dev.tap = { s.dev.tap with instr := 4, driving := false, floating := true, captured := [false] } ∧
      ∀ k < 2, u.dev.bit (0x2180 + k) 0x11 0 = false) ∧
    (∀ pins cells, ∃ u, exec (.samplePreload t pins cells) s = .next u ∧ u.dev.regs = s.dev.regs ∧
      u.dev.tap = { s.dev.tap with instr := 1, driving := false, floating := false, captured := pins, cells := cells }) ∧
    (∃ u, exec (.idcode t) s = .next u ∧ u.dev.regs = s.dev.regs ∧ u.dev.tap.instr = 2 ∧
      u.dev.tap.captured = (List.range 32).map (fun k => s.dev.idcodeWord.testBit k) ∧ u.dev.tap.cells = s.dev.tap.cells) ∧
    (∃ u, exec (.bypass t) s = .next u ∧ u.dev.regs = s.dev.regs ∧
      u.dev.tap = { s.dev.tap with instr := 31, driving := false, floating := false, captured := [false] }) ∧
    ∃ u, exec (.testLogicReset t) s = .next u ∧ u.dev.regs = s.dev.regs ∧
      u.dev.tap = { s.dev.tap with instr := 2, driving := false, floating := false, pinned := false }
end

