-- ==== Sys2Proof/Laws/Store.lean ====
section
/-! SUPPORT. The laws of the sparse stores: reading after writing, and the canonical form that every operation keeps. -/

namespace Sys2Proof.Machine

variable {α : Type}

@[simp] theorem Store.find_nil (q : Nat) : Store.find ([] : Store α) q = none := rfl

theorem Store.find_cons (k : Nat) (v : α) (m : Store α) (q : Nat) :
    Store.find ((k, v) :: m) q = if q = k then some v else Store.find m q := rfl

theorem Store.find_drop_self (m : Store α) (k : Nat) : (m.drop k).find k = none := by
  induction m with
  | nil => rfl
  | cons e m ih =>
    obtain ⟨j, v⟩ := e
    by_cases h : j = k
    · simpa [Store.drop, h] using ih
    · simpa [Store.drop, Store.find_cons, h, Ne.symm h] using ih

theorem Store.find_drop_ne (m : Store α) {k q : Nat} (h : q ≠ k) : (m.drop k).find q = m.find q := by
  induction m with
  | nil => rfl
  | cons e m ih =>
    obtain ⟨j, v⟩ := e
    by_cases hj : j = k
    · have hq : q ≠ j := hj ▸ h
      simpa [Store.drop, hj, Store.find_cons, h] using ih
    · by_cases hq : q = j
      · simp [Store.drop, Store.find_cons, hq, hj]
      · simpa [Store.drop, hj, Store.find_cons, hq] using ih

theorem Store.find_insert (m : Store α) (k : Nat) (v : α) (q : Nat) (hk : m.find k = none) :
    (Store.insert m k v).find q = if q = k then some v else m.find q := by
  induction m with
  | nil => rfl
  | cons e m ih =>
    obtain ⟨j, w⟩ := e
    rw [Store.find_cons] at hk
    by_cases hj : k = j
    · simp [hj] at hk
    · rw [if_neg hj] at hk
      by_cases hl : k < j
      · simp [Store.insert, hl, Store.find_cons]
      · simp only [Store.insert, hl, if_false, Store.find_cons, ih hk]
        by_cases hq : q = j
        · simp [hq, Ne.symm hj]
        · simp [hq]

/-- Reading after a write: the written key gives the value, every other key what it gave. -/
theorem Store.get_put [DecidableEq α] (dflt : Nat → α) (m : Store α) (k : Nat) (v : α) (q : Nat) :
    Store.get dflt (Store.put dflt m k v) q = if q = k then v else Store.get dflt m q := by
  unfold Store.put
  by_cases hv : v = dflt k
  · by_cases hq : q = k
    · simp [Store.get, hv, hq, Store.find_drop_self]
    · simp [Store.get, hv, hq, Store.find_drop_ne]
  · by_cases hq : q = k
    · simp [Store.get, hv, hq, Store.find_insert, Store.find_drop_self]
    · simp [Store.get, hv, hq, Store.find_insert, Store.find_drop_self, Store.find_drop_ne]

@[simp] theorem Store.get_put_self [DecidableEq α] (dflt : Nat → α) (m : Store α) (k : Nat) (v : α) :
    Store.get dflt (Store.put dflt m k v) k = v := by simp [Store.get_put]

/-! ### The canonical form -/

/-- A store whose keys rise: the first key is below all others. -/
theorem Store.sorted_cons {k : Nat} {v : α} {m : Store α} :
    Store.sorted ((k, v) :: m) = true ↔ (∀ e ∈ m, k < e.1) ∧ m.sorted = true := by
  induction m generalizing k v with
  | nil => simp [Store.sorted]
  | cons e m ih =>
    obtain ⟨j, w⟩ := e
    simp only [Store.sorted, Bool.and_eq_true, decide_eq_true_eq, List.mem_cons, forall_eq_or_imp]
    rw [ih]
    constructor
    · rintro ⟨h, h1, h2⟩
      exact ⟨⟨h, fun e he => lt_trans h (h1 e he)⟩, h1, h2⟩
    · rintro ⟨⟨h, _⟩, h1, h2⟩
      exact ⟨h, h1, h2⟩

theorem Store.sorted_filter (p : Nat × α → Bool) {m : Store α} (h : m.sorted = true) : Store.sorted (m.filter p) = true := by
  induction m with
  | nil => rfl
  | cons e m ih =>
    obtain ⟨k, v⟩ := e
    obtain ⟨h1, h2⟩ := Store.sorted_cons.mp h
    by_cases hp : p (k, v) = true
    · rw [List.filter_cons_of_pos hp]
      exact Store.sorted_cons.mpr ⟨fun e he => h1 e (List.mem_of_mem_filter he), ih h2⟩
    · rw [List.filter_cons_of_neg hp]
      exact ih h2

theorem Store.mem_insert {m : Store α} {k : Nat} {v : α} {e : Nat × α} (h : e ∈ Store.insert m k v) : e = (k, v) ∨ e ∈ m := by
  induction m with
  | nil => simpa [Store.insert] using h
  | cons x m ih =>
    obtain ⟨j, w⟩ := x
    by_cases hl : k < j
    · simpa [Store.insert, hl] using h
    · simp only [Store.insert, hl, if_false, List.mem_cons] at h
      rcases h with h | h
      · exact .inr (by simp [h])
      · rcases ih h with h | h
        · exact .inl h
        · exact .inr (List.mem_cons_of_mem _ h)

theorem Store.sorted_insert {m : Store α} {k : Nat} {v : α} (h : m.sorted = true) (hk : ∀ e ∈ m, e.1 ≠ k) :
    Store.sorted (Store.insert m k v) = true := by
  induction m with
  | nil => rfl
  | cons e m ih =>
    obtain ⟨j, w⟩ := e
    obtain ⟨h1, h2⟩ := Store.sorted_cons.mp h
    have hj : j ≠ k := hk (j, w) (List.mem_cons_self ..)
    by_cases hl : k < j
    · simp only [Store.insert, hl, if_true]
      refine Store.sorted_cons.mpr ⟨fun e he => ?_, h⟩
      rcases List.mem_cons.mp he with he | he
      · simpa [he] using hl
      · exact lt_trans hl (h1 e he)
    · simp only [Store.insert, hl, if_false]
      refine Store.sorted_cons.mpr ⟨fun e he => ?_, ih h2 (fun e he => hk e (List.mem_cons_of_mem _ he))⟩
      rcases Store.mem_insert he with he | he
      · subst he
        show j < k
        omega
      · exact h1 e he

/-- A store in canonical form holds each listed value once, and never its key's default. -/
theorem Store.wf_iff [DecidableEq α] (dflt : Nat → α) (m : Store α) :
    Store.wf dflt m = true ↔ m.sorted = true ∧ ∀ e ∈ m, e.2 ≠ dflt e.1 := by
  simp [Store.wf]

/-- A write keeps the canonical form. -/
theorem Store.wf_put [DecidableEq α] (dflt : Nat → α) {m : Store α} (k : Nat) (v : α) (h : Store.wf dflt m = true) :
    Store.wf dflt (Store.put dflt m k v) = true := by
  obtain ⟨h1, h2⟩ := (Store.wf_iff dflt m).mp h
  have hd : Store.wf dflt (m.drop k) = true :=
    (Store.wf_iff dflt _).mpr ⟨Store.sorted_filter _ h1, fun e he => h2 e (List.mem_of_mem_filter he)⟩
  unfold Store.put
  split
  · exact hd
  · next hv =>
    obtain ⟨h3, h4⟩ := (Store.wf_iff dflt _).mp hd
    refine (Store.wf_iff dflt _).mpr ⟨Store.sorted_insert h3 (fun e he => ?_), fun e he => ?_⟩
    · simpa using (List.mem_filter.mp he).2
    · rcases Store.mem_insert he with he | he
      · simpa [he] using hv
      · exact h4 e he

/-- Clearing a range of keys keeps the canonical form. -/
theorem Store.wf_clearRange [DecidableEq α] (dflt : Nat → α) {m : Store α} (lo hi : Nat) (h : Store.wf dflt m = true) :
    Store.wf dflt (m.clearRange lo hi) = true := by
  obtain ⟨h1, h2⟩ := (Store.wf_iff dflt m).mp h
  exact (Store.wf_iff dflt _).mpr ⟨Store.sorted_filter _ h1, fun e he => h2 e (List.mem_of_mem_filter he)⟩

theorem Store.find_filter (f : Nat → Bool) (m : Store α) (q : Nat) :
    Store.find (List.filter (fun e => f e.1) m) q = if f q then m.find q else none := by
  induction m with
  | nil => simp
  | cons e m ih =>
    obtain ⟨j, v⟩ := e
    by_cases hq : q = j
    · subst hq
      by_cases hf : f q = true
      · simp [hf, Store.find_cons]
      · simpa [List.filter_cons, hf] using ih
    · by_cases hj : f j = true
      · simpa [List.filter_cons, hj, Store.find_cons, hq] using ih
      · simpa [List.filter_cons, hj, Store.find_cons, hq] using ih

/-- Reading after a range has been cleared. -/
theorem Store.get_clearRange (dflt : Nat → α) (m : Store α) (lo hi q : Nat) :
    Store.get dflt (m.clearRange lo hi) q = if lo ≤ q ∧ q < hi then dflt q else Store.get dflt m q := by
  have key : (m.clearRange lo hi).find q = if decide (¬(lo ≤ q ∧ q < hi)) then m.find q else none :=
    Store.find_filter (fun k => decide (¬(lo ≤ k ∧ k < hi))) m q
  unfold Store.get
  rw [key]
  by_cases h : lo ≤ q ∧ q < hi <;> simp [h]

end Sys2Proof.Machine
end

