-- ==== Sys2Proof/Laws/State.lean ====
section
/-! SUPPORT. The fields of the state under the model's updates: for each update, every field it does not touch stands as before
(one conjunction for each update, which simp takes as one rule for each field). -/

namespace Sys2Proof.Machine

/-! ### The whole state -/

@[simp] theorem State.front_pending (s : State) (c : Sys2Proof.Instr) : (s.front c).pending = c :: s.pending := rfl
@[simp] theorem State.front_loft (s : State) (c : Sys2Proof.Instr) : (s.front c).loft = s.loft := rfl
@[simp] theorem State.front_dev (s : State) (c : Sys2Proof.Instr) : (s.front c).dev = s.dev := rfl

/-! ### The device -/

@[simp] theorem Dev.setObj_rest (d : Dev) (i u v : Nat) :
    (d.setObj i u v).now = d.now ∧ (d.setObj i u v).free = d.free ∧ (d.setObj i u v).ports = d.ports ∧ (d.setObj i u v).sent = d.sent ∧
    (d.setObj i u v).cyc = d.cyc ∧ (d.setObj i u v).irq = d.irq ∧ (d.setObj i u v).cores = d.cores ∧ (d.setObj i u v).faultLine = d.faultLine ∧
    (d.setObj i u v).evt = d.evt ∧ (d.setObj i u v).heard = d.heard ∧ (d.setObj i u v).tb = d.tb ∧ (d.setObj i u v).rst = d.rst ∧
    (d.setObj i u v).nv = d.nv ∧ (d.setObj i u v).fw = d.fw ∧ (d.setObj i u v).factory = d.factory ∧ (d.setObj i u v).night = d.night ∧
    (d.setObj i u v).tap = d.tap ∧ (d.setObj i u v).wheels = d.wheels ∧ (d.setObj i u v).doms = d.doms ∧ (d.setObj i u v).synths = d.synths ∧
    (d.setObj i u v).occs = d.occs ∧ (d.setObj i u v).nextOcc = d.nextOcc ∧ (d.setObj i u v).tops = d.tops ∧ (d.setObj i u v).pendW = d.pendW ∧
    (d.setObj i u v).chans = d.chans ∧ (d.setObj i u v).banks = d.banks ∧ (d.setObj i u v).boosts = d.boosts ∧ (d.setObj i u v).lanes = d.lanes ∧
    (d.setObj i u v).closures = d.closures ∧ (d.setObj i u v).stops = d.stops ∧ (d.setObj i u v).pressures = d.pressures ∧ (d.setObj i u v).vib = d.vib ∧
    (d.setObj i u v).cmps = d.cmps ∧ (d.setObj i u v).timers = d.timers ∧ (d.setObj i u v).lans = d.lans ∧ (d.setObj i u v).lbanks = d.lbanks ∧
    (d.setObj i u v).badWords = d.badWords ∧ (d.setObj i u v).dmas = d.dmas ∧ (d.setObj i u v).mboxes = d.mboxes ∧ (d.setObj i u v).masters = d.masters := by
  and_intros <;> rfl

@[simp] theorem Dev.setBit_rest (d : Dev) (i u b : Nat) (on : Bool) :
    (d.setBit i u b on).now = d.now ∧ (d.setBit i u b on).free = d.free ∧ (d.setBit i u b on).ports = d.ports ∧ (d.setBit i u b on).sent = d.sent ∧
    (d.setBit i u b on).cyc = d.cyc ∧ (d.setBit i u b on).irq = d.irq ∧ (d.setBit i u b on).cores = d.cores ∧ (d.setBit i u b on).faultLine = d.faultLine ∧
    (d.setBit i u b on).evt = d.evt ∧ (d.setBit i u b on).heard = d.heard ∧ (d.setBit i u b on).tb = d.tb ∧ (d.setBit i u b on).rst = d.rst ∧
    (d.setBit i u b on).nv = d.nv ∧ (d.setBit i u b on).fw = d.fw ∧ (d.setBit i u b on).factory = d.factory ∧ (d.setBit i u b on).night = d.night ∧
    (d.setBit i u b on).tap = d.tap ∧ (d.setBit i u b on).wheels = d.wheels ∧ (d.setBit i u b on).doms = d.doms ∧ (d.setBit i u b on).synths = d.synths ∧
    (d.setBit i u b on).occs = d.occs ∧ (d.setBit i u b on).nextOcc = d.nextOcc ∧ (d.setBit i u b on).tops = d.tops ∧ (d.setBit i u b on).pendW = d.pendW ∧
    (d.setBit i u b on).chans = d.chans ∧ (d.setBit i u b on).banks = d.banks ∧ (d.setBit i u b on).boosts = d.boosts ∧ (d.setBit i u b on).lanes = d.lanes ∧
    (d.setBit i u b on).closures = d.closures ∧ (d.setBit i u b on).stops = d.stops ∧ (d.setBit i u b on).pressures = d.pressures ∧ (d.setBit i u b on).vib = d.vib ∧
    (d.setBit i u b on).cmps = d.cmps ∧ (d.setBit i u b on).timers = d.timers ∧ (d.setBit i u b on).lans = d.lans ∧ (d.setBit i u b on).lbanks = d.lbanks ∧
    (d.setBit i u b on).badWords = d.badWords ∧ (d.setBit i u b on).dmas = d.dmas ∧ (d.setBit i u b on).mboxes = d.mboxes ∧ (d.setBit i u b on).masters = d.masters := by
  and_intros <;> rfl

@[simp] theorem Dev.inc_rest (d : Dev) (i u : Nat) :
    (d.inc i u).now = d.now ∧ (d.inc i u).free = d.free ∧ (d.inc i u).ports = d.ports ∧ (d.inc i u).sent = d.sent ∧
    (d.inc i u).cyc = d.cyc ∧ (d.inc i u).irq = d.irq ∧ (d.inc i u).cores = d.cores ∧ (d.inc i u).faultLine = d.faultLine ∧
    (d.inc i u).evt = d.evt ∧ (d.inc i u).heard = d.heard ∧ (d.inc i u).tb = d.tb ∧ (d.inc i u).rst = d.rst ∧
    (d.inc i u).nv = d.nv ∧ (d.inc i u).fw = d.fw ∧ (d.inc i u).factory = d.factory ∧ (d.inc i u).night = d.night ∧
    (d.inc i u).tap = d.tap ∧ (d.inc i u).wheels = d.wheels ∧ (d.inc i u).doms = d.doms ∧ (d.inc i u).synths = d.synths ∧
    (d.inc i u).occs = d.occs ∧ (d.inc i u).nextOcc = d.nextOcc ∧ (d.inc i u).tops = d.tops ∧ (d.inc i u).pendW = d.pendW ∧
    (d.inc i u).chans = d.chans ∧ (d.inc i u).banks = d.banks ∧ (d.inc i u).boosts = d.boosts ∧ (d.inc i u).lanes = d.lanes ∧
    (d.inc i u).closures = d.closures ∧ (d.inc i u).stops = d.stops ∧ (d.inc i u).pressures = d.pressures ∧ (d.inc i u).vib = d.vib ∧
    (d.inc i u).cmps = d.cmps ∧ (d.inc i u).timers = d.timers ∧ (d.inc i u).lans = d.lans ∧ (d.inc i u).lbanks = d.lbanks ∧
    (d.inc i u).badWords = d.badWords ∧ (d.inc i u).dmas = d.dmas ∧ (d.inc i u).mboxes = d.mboxes ∧ (d.inc i u).masters = d.masters := by
  and_intros <;> rfl

@[simp] theorem Dev.inc16_rest (d : Dev) (i u : Nat) :
    (d.inc16 i u).now = d.now ∧ (d.inc16 i u).free = d.free ∧ (d.inc16 i u).ports = d.ports ∧ (d.inc16 i u).sent = d.sent ∧
    (d.inc16 i u).cyc = d.cyc ∧ (d.inc16 i u).irq = d.irq ∧ (d.inc16 i u).cores = d.cores ∧ (d.inc16 i u).faultLine = d.faultLine ∧
    (d.inc16 i u).evt = d.evt ∧ (d.inc16 i u).heard = d.heard ∧ (d.inc16 i u).tb = d.tb ∧ (d.inc16 i u).rst = d.rst ∧
    (d.inc16 i u).nv = d.nv ∧ (d.inc16 i u).fw = d.fw ∧ (d.inc16 i u).factory = d.factory ∧ (d.inc16 i u).night = d.night ∧
    (d.inc16 i u).tap = d.tap ∧ (d.inc16 i u).wheels = d.wheels ∧ (d.inc16 i u).doms = d.doms ∧ (d.inc16 i u).synths = d.synths ∧
    (d.inc16 i u).occs = d.occs ∧ (d.inc16 i u).nextOcc = d.nextOcc ∧ (d.inc16 i u).tops = d.tops ∧ (d.inc16 i u).pendW = d.pendW ∧
    (d.inc16 i u).chans = d.chans ∧ (d.inc16 i u).banks = d.banks ∧ (d.inc16 i u).boosts = d.boosts ∧ (d.inc16 i u).lanes = d.lanes ∧
    (d.inc16 i u).closures = d.closures ∧ (d.inc16 i u).stops = d.stops ∧ (d.inc16 i u).pressures = d.pressures ∧ (d.inc16 i u).vib = d.vib ∧
    (d.inc16 i u).cmps = d.cmps ∧ (d.inc16 i u).timers = d.timers ∧ (d.inc16 i u).lans = d.lans ∧ (d.inc16 i u).lbanks = d.lbanks ∧
    (d.inc16 i u).badWords = d.badWords ∧ (d.inc16 i u).dmas = d.dmas ∧ (d.inc16 i u).mboxes = d.mboxes ∧ (d.inc16 i u).masters = d.masters := by
  and_intros <;> rfl

@[simp] theorem Dev.setSobj_rest (d : Dev) (w i u : Nat) (v : Int) :
    (d.setSobj w i u v).now = d.now ∧ (d.setSobj w i u v).free = d.free ∧ (d.setSobj w i u v).ports = d.ports ∧ (d.setSobj w i u v).sent = d.sent ∧
    (d.setSobj w i u v).cyc = d.cyc ∧ (d.setSobj w i u v).irq = d.irq ∧ (d.setSobj w i u v).cores = d.cores ∧ (d.setSobj w i u v).faultLine = d.faultLine ∧
    (d.setSobj w i u v).evt = d.evt ∧ (d.setSobj w i u v).heard = d.heard ∧ (d.setSobj w i u v).tb = d.tb ∧ (d.setSobj w i u v).rst = d.rst ∧
    (d.setSobj w i u v).nv = d.nv ∧ (d.setSobj w i u v).fw = d.fw ∧ (d.setSobj w i u v).factory = d.factory ∧ (d.setSobj w i u v).night = d.night ∧
    (d.setSobj w i u v).tap = d.tap ∧ (d.setSobj w i u v).wheels = d.wheels ∧ (d.setSobj w i u v).doms = d.doms ∧ (d.setSobj w i u v).synths = d.synths ∧
    (d.setSobj w i u v).occs = d.occs ∧ (d.setSobj w i u v).nextOcc = d.nextOcc ∧ (d.setSobj w i u v).tops = d.tops ∧ (d.setSobj w i u v).pendW = d.pendW ∧
    (d.setSobj w i u v).chans = d.chans ∧ (d.setSobj w i u v).banks = d.banks ∧ (d.setSobj w i u v).boosts = d.boosts ∧ (d.setSobj w i u v).lanes = d.lanes ∧
    (d.setSobj w i u v).closures = d.closures ∧ (d.setSobj w i u v).stops = d.stops ∧ (d.setSobj w i u v).pressures = d.pressures ∧ (d.setSobj w i u v).vib = d.vib ∧
    (d.setSobj w i u v).cmps = d.cmps ∧ (d.setSobj w i u v).timers = d.timers ∧ (d.setSobj w i u v).lans = d.lans ∧ (d.setSobj w i u v).lbanks = d.lbanks ∧
    (d.setSobj w i u v).badWords = d.badWords ∧ (d.setSobj w i u v).dmas = d.dmas ∧ (d.setSobj w i u v).mboxes = d.mboxes ∧ (d.setSobj w i u v).masters = d.masters := by
  and_intros <;> rfl

@[simp] theorem Dev.resetObjs_rest (d : Dev) (lo hi : Nat) :
    (d.resetObjs lo hi).now = d.now ∧ (d.resetObjs lo hi).free = d.free ∧ (d.resetObjs lo hi).ports = d.ports ∧ (d.resetObjs lo hi).sent = d.sent ∧
    (d.resetObjs lo hi).cyc = d.cyc ∧ (d.resetObjs lo hi).irq = d.irq ∧ (d.resetObjs lo hi).cores = d.cores ∧ (d.resetObjs lo hi).faultLine = d.faultLine ∧
    (d.resetObjs lo hi).evt = d.evt ∧ (d.resetObjs lo hi).heard = d.heard ∧ (d.resetObjs lo hi).tb = d.tb ∧ (d.resetObjs lo hi).rst = d.rst ∧
    (d.resetObjs lo hi).nv = d.nv ∧ (d.resetObjs lo hi).fw = d.fw ∧ (d.resetObjs lo hi).factory = d.factory ∧ (d.resetObjs lo hi).night = d.night ∧
    (d.resetObjs lo hi).tap = d.tap ∧ (d.resetObjs lo hi).wheels = d.wheels ∧ (d.resetObjs lo hi).doms = d.doms ∧ (d.resetObjs lo hi).synths = d.synths ∧
    (d.resetObjs lo hi).occs = d.occs ∧ (d.resetObjs lo hi).nextOcc = d.nextOcc ∧ (d.resetObjs lo hi).tops = d.tops ∧ (d.resetObjs lo hi).pendW = d.pendW ∧
    (d.resetObjs lo hi).chans = d.chans ∧ (d.resetObjs lo hi).banks = d.banks ∧ (d.resetObjs lo hi).boosts = d.boosts ∧ (d.resetObjs lo hi).lanes = d.lanes ∧
    (d.resetObjs lo hi).closures = d.closures ∧ (d.resetObjs lo hi).stops = d.stops ∧ (d.resetObjs lo hi).pressures = d.pressures ∧ (d.resetObjs lo hi).vib = d.vib ∧
    (d.resetObjs lo hi).cmps = d.cmps ∧ (d.resetObjs lo hi).timers = d.timers ∧ (d.resetObjs lo hi).lans = d.lans ∧ (d.resetObjs lo hi).lbanks = d.lbanks ∧
    (d.resetObjs lo hi).badWords = d.badWords ∧ (d.resetObjs lo hi).dmas = d.dmas ∧ (d.resetObjs lo hi).mboxes = d.mboxes ∧ (d.resetObjs lo hi).masters = d.masters := by
  and_intros <;> rfl

@[simp] theorem Dev.resetObj_rest (d : Dev) (i u : Nat) :
    (d.resetObj i u).now = d.now ∧ (d.resetObj i u).free = d.free ∧ (d.resetObj i u).ports = d.ports ∧ (d.resetObj i u).sent = d.sent ∧
    (d.resetObj i u).cyc = d.cyc ∧ (d.resetObj i u).irq = d.irq ∧ (d.resetObj i u).cores = d.cores ∧ (d.resetObj i u).faultLine = d.faultLine ∧
    (d.resetObj i u).evt = d.evt ∧ (d.resetObj i u).heard = d.heard ∧ (d.resetObj i u).tb = d.tb ∧ (d.resetObj i u).rst = d.rst ∧
    (d.resetObj i u).nv = d.nv ∧ (d.resetObj i u).fw = d.fw ∧ (d.resetObj i u).factory = d.factory ∧ (d.resetObj i u).night = d.night ∧
    (d.resetObj i u).tap = d.tap ∧ (d.resetObj i u).wheels = d.wheels ∧ (d.resetObj i u).doms = d.doms ∧ (d.resetObj i u).synths = d.synths ∧
    (d.resetObj i u).occs = d.occs ∧ (d.resetObj i u).nextOcc = d.nextOcc ∧ (d.resetObj i u).tops = d.tops ∧ (d.resetObj i u).pendW = d.pendW ∧
    (d.resetObj i u).chans = d.chans ∧ (d.resetObj i u).banks = d.banks ∧ (d.resetObj i u).boosts = d.boosts ∧ (d.resetObj i u).lanes = d.lanes ∧
    (d.resetObj i u).closures = d.closures ∧ (d.resetObj i u).stops = d.stops ∧ (d.resetObj i u).pressures = d.pressures ∧ (d.resetObj i u).vib = d.vib ∧
    (d.resetObj i u).cmps = d.cmps ∧ (d.resetObj i u).timers = d.timers ∧ (d.resetObj i u).lans = d.lans ∧ (d.resetObj i u).lbanks = d.lbanks ∧
    (d.resetObj i u).badWords = d.badWords ∧ (d.resetObj i u).dmas = d.dmas ∧ (d.resetObj i u).mboxes = d.mboxes ∧ (d.resetObj i u).masters = d.masters := by
  and_intros <;> rfl

@[simp] theorem Dev.upTo_rest (d : Dev) (t : Nat) :
    (d.upTo t).regs = d.regs ∧ (d.upTo t).ports = d.ports ∧ (d.upTo t).sent = d.sent ∧ (d.upTo t).cyc = d.cyc ∧
    (d.upTo t).irq = d.irq ∧ (d.upTo t).cores = d.cores ∧ (d.upTo t).faultLine = d.faultLine ∧ (d.upTo t).evt = d.evt ∧
    (d.upTo t).heard = d.heard ∧ (d.upTo t).tb = d.tb ∧ (d.upTo t).rst = d.rst ∧ (d.upTo t).nv = d.nv ∧
    (d.upTo t).fw = d.fw ∧ (d.upTo t).factory = d.factory ∧ (d.upTo t).night = d.night ∧ (d.upTo t).tap = d.tap ∧
    (d.upTo t).wheels = d.wheels ∧ (d.upTo t).doms = d.doms ∧ (d.upTo t).synths = d.synths ∧ (d.upTo t).occs = d.occs ∧
    (d.upTo t).nextOcc = d.nextOcc ∧ (d.upTo t).tops = d.tops ∧ (d.upTo t).pendW = d.pendW ∧ (d.upTo t).chans = d.chans ∧
    (d.upTo t).banks = d.banks ∧ (d.upTo t).boosts = d.boosts ∧ (d.upTo t).lanes = d.lanes ∧ (d.upTo t).closures = d.closures ∧
    (d.upTo t).stops = d.stops ∧ (d.upTo t).pressures = d.pressures ∧ (d.upTo t).vib = d.vib ∧ (d.upTo t).cmps = d.cmps ∧
    (d.upTo t).timers = d.timers ∧ (d.upTo t).lans = d.lans ∧ (d.upTo t).lbanks = d.lbanks ∧ (d.upTo t).badWords = d.badWords ∧
    (d.upTo t).dmas = d.dmas ∧ (d.upTo t).mboxes = d.mboxes ∧ (d.upTo t).masters = d.masters ∧ (∀ a b, (d.upTo t).obj a b = d.obj a b) ∧
    (∀ a b c, (d.upTo t).bit a b c = d.bit a b c) := by
  and_intros <;> intros <;> rfl

@[simp] theorem Dev.setPend_rest (d : Dev) (x y : Nat) (p : Pend) :
    (d.setPend x y p).now = d.now ∧ (d.setPend x y p).free = d.free ∧ (d.setPend x y p).regs = d.regs ∧ (d.setPend x y p).ports = d.ports ∧
    (d.setPend x y p).sent = d.sent ∧ (d.setPend x y p).cyc = d.cyc ∧ (d.setPend x y p).cores = d.cores ∧ (d.setPend x y p).faultLine = d.faultLine ∧
    (d.setPend x y p).evt = d.evt ∧ (d.setPend x y p).heard = d.heard ∧ (d.setPend x y p).tb = d.tb ∧ (d.setPend x y p).rst = d.rst ∧
    (d.setPend x y p).nv = d.nv ∧ (d.setPend x y p).fw = d.fw ∧ (d.setPend x y p).factory = d.factory ∧ (d.setPend x y p).night = d.night ∧
    (d.setPend x y p).tap = d.tap ∧ (d.setPend x y p).wheels = d.wheels ∧ (d.setPend x y p).doms = d.doms ∧ (d.setPend x y p).synths = d.synths ∧
    (d.setPend x y p).occs = d.occs ∧ (d.setPend x y p).nextOcc = d.nextOcc ∧ (d.setPend x y p).tops = d.tops ∧ (d.setPend x y p).pendW = d.pendW ∧
    (d.setPend x y p).chans = d.chans ∧ (d.setPend x y p).banks = d.banks ∧ (d.setPend x y p).boosts = d.boosts ∧ (d.setPend x y p).lanes = d.lanes ∧
    (d.setPend x y p).closures = d.closures ∧ (d.setPend x y p).stops = d.stops ∧ (d.setPend x y p).pressures = d.pressures ∧ (d.setPend x y p).vib = d.vib ∧
    (d.setPend x y p).cmps = d.cmps ∧ (d.setPend x y p).timers = d.timers ∧ (d.setPend x y p).lans = d.lans ∧ (d.setPend x y p).lbanks = d.lbanks ∧
    (d.setPend x y p).badWords = d.badWords ∧ (d.setPend x y p).dmas = d.dmas ∧ (d.setPend x y p).mboxes = d.mboxes ∧ (d.setPend x y p).masters = d.masters ∧
    (∀ a b, (d.setPend x y p).obj a b = d.obj a b) ∧ (∀ a b c, (d.setPend x y p).bit a b c = d.bit a b c) := by
  and_intros <;> intros <;> rfl

@[simp] theorem Dev.raiseAt_rest (d : Dev) (x y z : Nat) :
    (d.raiseAt x y z).now = d.now ∧ (d.raiseAt x y z).free = d.free ∧ (d.raiseAt x y z).regs = d.regs ∧ (d.raiseAt x y z).ports = d.ports ∧
    (d.raiseAt x y z).sent = d.sent ∧ (d.raiseAt x y z).cyc = d.cyc ∧ (d.raiseAt x y z).cores = d.cores ∧ (d.raiseAt x y z).faultLine = d.faultLine ∧
    (d.raiseAt x y z).evt = d.evt ∧ (d.raiseAt x y z).heard = d.heard ∧ (d.raiseAt x y z).tb = d.tb ∧ (d.raiseAt x y z).rst = d.rst ∧
    (d.raiseAt x y z).nv = d.nv ∧ (d.raiseAt x y z).fw = d.fw ∧ (d.raiseAt x y z).factory = d.factory ∧ (d.raiseAt x y z).night = d.night ∧
    (d.raiseAt x y z).tap = d.tap ∧ (d.raiseAt x y z).wheels = d.wheels ∧ (d.raiseAt x y z).doms = d.doms ∧ (d.raiseAt x y z).synths = d.synths ∧
    (d.raiseAt x y z).occs = d.occs ∧ (d.raiseAt x y z).nextOcc = d.nextOcc ∧ (d.raiseAt x y z).tops = d.tops ∧ (d.raiseAt x y z).pendW = d.pendW ∧
    (d.raiseAt x y z).chans = d.chans ∧ (d.raiseAt x y z).banks = d.banks ∧ (d.raiseAt x y z).boosts = d.boosts ∧ (d.raiseAt x y z).lanes = d.lanes ∧
    (d.raiseAt x y z).closures = d.closures ∧ (d.raiseAt x y z).stops = d.stops ∧ (d.raiseAt x y z).pressures = d.pressures ∧ (d.raiseAt x y z).vib = d.vib ∧
    (d.raiseAt x y z).cmps = d.cmps ∧ (d.raiseAt x y z).timers = d.timers ∧ (d.raiseAt x y z).lans = d.lans ∧ (d.raiseAt x y z).lbanks = d.lbanks ∧
    (d.raiseAt x y z).badWords = d.badWords ∧ (d.raiseAt x y z).dmas = d.dmas ∧ (d.raiseAt x y z).mboxes = d.mboxes ∧ (d.raiseAt x y z).masters = d.masters ∧
    (∀ a b, (d.raiseAt x y z).obj a b = d.obj a b) ∧ (∀ a b c, (d.raiseAt x y z).bit a b c = d.bit a b c) := by
  and_intros <;> intros <;> rfl

@[simp] theorem Dev.setLine_rest (d : Dev) (n : Nat) (l : EvtLine) :
    (d.setLine n l).now = d.now ∧ (d.setLine n l).free = d.free ∧ (d.setLine n l).regs = d.regs ∧ (d.setLine n l).ports = d.ports ∧
    (d.setLine n l).sent = d.sent ∧ (d.setLine n l).cyc = d.cyc ∧ (d.setLine n l).irq = d.irq ∧ (d.setLine n l).cores = d.cores ∧
    (d.setLine n l).faultLine = d.faultLine ∧ (d.setLine n l).heard = d.heard ∧ (d.setLine n l).tb = d.tb ∧ (d.setLine n l).rst = d.rst ∧
    (d.setLine n l).nv = d.nv ∧ (d.setLine n l).fw = d.fw ∧ (d.setLine n l).factory = d.factory ∧ (d.setLine n l).night = d.night ∧
    (d.setLine n l).tap = d.tap ∧ (d.setLine n l).wheels = d.wheels ∧ (d.setLine n l).doms = d.doms ∧ (d.setLine n l).synths = d.synths ∧
    (d.setLine n l).occs = d.occs ∧ (d.setLine n l).nextOcc = d.nextOcc ∧ (d.setLine n l).tops = d.tops ∧ (d.setLine n l).pendW = d.pendW ∧
    (d.setLine n l).chans = d.chans ∧ (d.setLine n l).banks = d.banks ∧ (d.setLine n l).boosts = d.boosts ∧ (d.setLine n l).lanes = d.lanes ∧
    (d.setLine n l).closures = d.closures ∧ (d.setLine n l).stops = d.stops ∧ (d.setLine n l).pressures = d.pressures ∧ (d.setLine n l).vib = d.vib ∧
    (d.setLine n l).cmps = d.cmps ∧ (d.setLine n l).timers = d.timers ∧ (d.setLine n l).lans = d.lans ∧ (d.setLine n l).lbanks = d.lbanks ∧
    (d.setLine n l).badWords = d.badWords ∧ (d.setLine n l).dmas = d.dmas ∧ (d.setLine n l).mboxes = d.mboxes ∧ (d.setLine n l).masters = d.masters ∧
    (∀ a b, (d.setLine n l).obj a b = d.obj a b) ∧ (∀ a b c, (d.setLine n l).bit a b c = d.bit a b c) := by
  and_intros <;> intros <;> rfl

@[simp] theorem Dev.setPort_rest (d : Dev) (n : Nat) (r : Port) :
    (d.setPort n r).now = d.now ∧ (d.setPort n r).free = d.free ∧ (d.setPort n r).regs = d.regs ∧ (d.setPort n r).sent = d.sent ∧
    (d.setPort n r).cyc = d.cyc ∧ (d.setPort n r).irq = d.irq ∧ (d.setPort n r).cores = d.cores ∧ (d.setPort n r).faultLine = d.faultLine ∧
    (d.setPort n r).evt = d.evt ∧ (d.setPort n r).heard = d.heard ∧ (d.setPort n r).tb = d.tb ∧ (d.setPort n r).rst = d.rst ∧
    (d.setPort n r).nv = d.nv ∧ (d.setPort n r).fw = d.fw ∧ (d.setPort n r).factory = d.factory ∧ (d.setPort n r).night = d.night ∧
    (d.setPort n r).tap = d.tap ∧ (d.setPort n r).wheels = d.wheels ∧ (d.setPort n r).doms = d.doms ∧ (d.setPort n r).synths = d.synths ∧
    (d.setPort n r).occs = d.occs ∧ (d.setPort n r).nextOcc = d.nextOcc ∧ (d.setPort n r).tops = d.tops ∧ (d.setPort n r).pendW = d.pendW ∧
    (d.setPort n r).chans = d.chans ∧ (d.setPort n r).banks = d.banks ∧ (d.setPort n r).boosts = d.boosts ∧ (d.setPort n r).lanes = d.lanes ∧
    (d.setPort n r).closures = d.closures ∧ (d.setPort n r).stops = d.stops ∧ (d.setPort n r).pressures = d.pressures ∧ (d.setPort n r).vib = d.vib ∧
    (d.setPort n r).cmps = d.cmps ∧ (d.setPort n r).timers = d.timers ∧ (d.setPort n r).lans = d.lans ∧ (d.setPort n r).lbanks = d.lbanks ∧
    (d.setPort n r).badWords = d.badWords ∧ (d.setPort n r).dmas = d.dmas ∧ (d.setPort n r).mboxes = d.mboxes ∧ (d.setPort n r).masters = d.masters ∧
    (∀ a b, (d.setPort n r).obj a b = d.obj a b) ∧ (∀ a b c, (d.setPort n r).bit a b c = d.bit a b c) := by
  and_intros <;> intros <;> rfl

@[simp] theorem Dev.setXfer_rest (d : Dev) (n : Nat) (r : Option Xfer) :
    (d.setXfer n r).now = d.now ∧ (d.setXfer n r).free = d.free ∧ (d.setXfer n r).regs = d.regs ∧ (d.setXfer n r).sent = d.sent ∧
    (d.setXfer n r).cyc = d.cyc ∧ (d.setXfer n r).irq = d.irq ∧ (d.setXfer n r).cores = d.cores ∧ (d.setXfer n r).faultLine = d.faultLine ∧
    (d.setXfer n r).evt = d.evt ∧ (d.setXfer n r).heard = d.heard ∧ (d.setXfer n r).tb = d.tb ∧ (d.setXfer n r).rst = d.rst ∧
    (d.setXfer n r).nv = d.nv ∧ (d.setXfer n r).fw = d.fw ∧ (d.setXfer n r).factory = d.factory ∧ (d.setXfer n r).night = d.night ∧
    (d.setXfer n r).tap = d.tap ∧ (d.setXfer n r).wheels = d.wheels ∧ (d.setXfer n r).doms = d.doms ∧ (d.setXfer n r).synths = d.synths ∧
    (d.setXfer n r).occs = d.occs ∧ (d.setXfer n r).nextOcc = d.nextOcc ∧ (d.setXfer n r).tops = d.tops ∧ (d.setXfer n r).pendW = d.pendW ∧
    (d.setXfer n r).chans = d.chans ∧ (d.setXfer n r).banks = d.banks ∧ (d.setXfer n r).boosts = d.boosts ∧ (d.setXfer n r).lanes = d.lanes ∧
    (d.setXfer n r).closures = d.closures ∧ (d.setXfer n r).stops = d.stops ∧ (d.setXfer n r).pressures = d.pressures ∧ (d.setXfer n r).vib = d.vib ∧
    (d.setXfer n r).cmps = d.cmps ∧ (d.setXfer n r).timers = d.timers ∧ (d.setXfer n r).lans = d.lans ∧ (d.setXfer n r).lbanks = d.lbanks ∧
    (d.setXfer n r).badWords = d.badWords ∧ (d.setXfer n r).dmas = d.dmas ∧ (d.setXfer n r).mboxes = d.mboxes ∧ (d.setXfer n r).masters = d.masters ∧
    (∀ a b, (d.setXfer n r).obj a b = d.obj a b) ∧ (∀ a b c, (d.setXfer n r).bit a b c = d.bit a b c) := by
  and_intros <;> intros <;> rfl

@[simp] theorem Dev.setCyc_rest (d : Dev) (n : Nat) (r : Cyc) :
    (d.setCyc n r).now = d.now ∧ (d.setCyc n r).free = d.free ∧ (d.setCyc n r).regs = d.regs ∧ (d.setCyc n r).ports = d.ports ∧
    (d.setCyc n r).sent = d.sent ∧ (d.setCyc n r).irq = d.irq ∧ (d.setCyc n r).cores = d.cores ∧ (d.setCyc n r).faultLine = d.faultLine ∧
    (d.setCyc n r).evt = d.evt ∧ (d.setCyc n r).heard = d.heard ∧ (d.setCyc n r).tb = d.tb ∧ (d.setCyc n r).rst = d.rst ∧
    (d.setCyc n r).nv = d.nv ∧ (d.setCyc n r).fw = d.fw ∧ (d.setCyc n r).factory = d.factory ∧ (d.setCyc n r).night = d.night ∧
    (d.setCyc n r).tap = d.tap ∧ (d.setCyc n r).wheels = d.wheels ∧ (d.setCyc n r).doms = d.doms ∧ (d.setCyc n r).synths = d.synths ∧
    (d.setCyc n r).occs = d.occs ∧ (d.setCyc n r).nextOcc = d.nextOcc ∧ (d.setCyc n r).tops = d.tops ∧ (d.setCyc n r).pendW = d.pendW ∧
    (d.setCyc n r).chans = d.chans ∧ (d.setCyc n r).banks = d.banks ∧ (d.setCyc n r).boosts = d.boosts ∧ (d.setCyc n r).lanes = d.lanes ∧
    (d.setCyc n r).closures = d.closures ∧ (d.setCyc n r).stops = d.stops ∧ (d.setCyc n r).pressures = d.pressures ∧ (d.setCyc n r).vib = d.vib ∧
    (d.setCyc n r).cmps = d.cmps ∧ (d.setCyc n r).timers = d.timers ∧ (d.setCyc n r).lans = d.lans ∧ (d.setCyc n r).lbanks = d.lbanks ∧
    (d.setCyc n r).badWords = d.badWords ∧ (d.setCyc n r).dmas = d.dmas ∧ (d.setCyc n r).mboxes = d.mboxes ∧ (d.setCyc n r).masters = d.masters ∧
    (∀ a b, (d.setCyc n r).obj a b = d.obj a b) ∧ (∀ a b c, (d.setCyc n r).bit a b c = d.bit a b c) := by
  and_intros <;> intros <;> rfl

@[simp] theorem Dev.setCore_rest (d : Dev) (n : Nat) (r : Core) :
    (d.setCore n r).now = d.now ∧ (d.setCore n r).free = d.free ∧ (d.setCore n r).regs = d.regs ∧ (d.setCore n r).ports = d.ports ∧
    (d.setCore n r).sent = d.sent ∧ (d.setCore n r).cyc = d.cyc ∧ (d.setCore n r).irq = d.irq ∧ (d.setCore n r).faultLine = d.faultLine ∧
    (d.setCore n r).evt = d.evt ∧ (d.setCore n r).heard = d.heard ∧ (d.setCore n r).tb = d.tb ∧ (d.setCore n r).rst = d.rst ∧
    (d.setCore n r).nv = d.nv ∧ (d.setCore n r).fw = d.fw ∧ (d.setCore n r).factory = d.factory ∧ (d.setCore n r).night = d.night ∧
    (d.setCore n r).tap = d.tap ∧ (d.setCore n r).wheels = d.wheels ∧ (d.setCore n r).doms = d.doms ∧ (d.setCore n r).synths = d.synths ∧
    (d.setCore n r).occs = d.occs ∧ (d.setCore n r).nextOcc = d.nextOcc ∧ (d.setCore n r).tops = d.tops ∧ (d.setCore n r).pendW = d.pendW ∧
    (d.setCore n r).chans = d.chans ∧ (d.setCore n r).banks = d.banks ∧ (d.setCore n r).boosts = d.boosts ∧ (d.setCore n r).lanes = d.lanes ∧
    (d.setCore n r).closures = d.closures ∧ (d.setCore n r).stops = d.stops ∧ (d.setCore n r).pressures = d.pressures ∧ (d.setCore n r).vib = d.vib ∧
    (d.setCore n r).cmps = d.cmps ∧ (d.setCore n r).timers = d.timers ∧ (d.setCore n r).lans = d.lans ∧ (d.setCore n r).lbanks = d.lbanks ∧
    (d.setCore n r).badWords = d.badWords ∧ (d.setCore n r).dmas = d.dmas ∧ (d.setCore n r).mboxes = d.mboxes ∧ (d.setCore n r).masters = d.masters ∧
    (∀ a b, (d.setCore n r).obj a b = d.obj a b) ∧ (∀ a b c, (d.setCore n r).bit a b c = d.bit a b c) := by
  and_intros <;> intros <;> rfl

@[simp] theorem Dev.setMbox_rest (d : Dev) (n : Nat) (r : Mbox) :
    (d.setMbox n r).now = d.now ∧ (d.setMbox n r).free = d.free ∧ (d.setMbox n r).regs = d.regs ∧ (d.setMbox n r).ports = d.ports ∧
    (d.setMbox n r).sent = d.sent ∧ (d.setMbox n r).cyc = d.cyc ∧ (d.setMbox n r).irq = d.irq ∧ (d.setMbox n r).cores = d.cores ∧
    (d.setMbox n r).faultLine = d.faultLine ∧ (d.setMbox n r).evt = d.evt ∧ (d.setMbox n r).heard = d.heard ∧ (d.setMbox n r).tb = d.tb ∧
    (d.setMbox n r).rst = d.rst ∧ (d.setMbox n r).nv = d.nv ∧ (d.setMbox n r).fw = d.fw ∧ (d.setMbox n r).factory = d.factory ∧
    (d.setMbox n r).night = d.night ∧ (d.setMbox n r).tap = d.tap ∧ (d.setMbox n r).wheels = d.wheels ∧ (d.setMbox n r).doms = d.doms ∧
    (d.setMbox n r).synths = d.synths ∧ (d.setMbox n r).occs = d.occs ∧ (d.setMbox n r).nextOcc = d.nextOcc ∧ (d.setMbox n r).tops = d.tops ∧
    (d.setMbox n r).pendW = d.pendW ∧ (d.setMbox n r).chans = d.chans ∧ (d.setMbox n r).banks = d.banks ∧ (d.setMbox n r).boosts = d.boosts ∧
    (d.setMbox n r).lanes = d.lanes ∧ (d.setMbox n r).closures = d.closures ∧ (d.setMbox n r).stops = d.stops ∧ (d.setMbox n r).pressures = d.pressures ∧
    (d.setMbox n r).vib = d.vib ∧ (d.setMbox n r).cmps = d.cmps ∧ (d.setMbox n r).timers = d.timers ∧ (d.setMbox n r).lans = d.lans ∧
    (d.setMbox n r).lbanks = d.lbanks ∧ (d.setMbox n r).badWords = d.badWords ∧ (d.setMbox n r).dmas = d.dmas ∧ (d.setMbox n r).masters = d.masters ∧
    (∀ a b, (d.setMbox n r).obj a b = d.obj a b) ∧ (∀ a b c, (d.setMbox n r).bit a b c = d.bit a b c) := by
  and_intros <;> intros <;> rfl

@[simp] theorem Dev.setWheel_rest (d : Dev) (n : Nat) (r : Wheel) :
    (d.setWheel n r).now = d.now ∧ (d.setWheel n r).free = d.free ∧ (d.setWheel n r).regs = d.regs ∧ (d.setWheel n r).ports = d.ports ∧
    (d.setWheel n r).sent = d.sent ∧ (d.setWheel n r).cyc = d.cyc ∧ (d.setWheel n r).irq = d.irq ∧ (d.setWheel n r).cores = d.cores ∧
    (d.setWheel n r).faultLine = d.faultLine ∧ (d.setWheel n r).evt = d.evt ∧ (d.setWheel n r).heard = d.heard ∧ (d.setWheel n r).tb = d.tb ∧
    (d.setWheel n r).rst = d.rst ∧ (d.setWheel n r).nv = d.nv ∧ (d.setWheel n r).fw = d.fw ∧ (d.setWheel n r).factory = d.factory ∧
    (d.setWheel n r).night = d.night ∧ (d.setWheel n r).tap = d.tap ∧ (d.setWheel n r).doms = d.doms ∧ (d.setWheel n r).synths = d.synths ∧
    (d.setWheel n r).occs = d.occs ∧ (d.setWheel n r).nextOcc = d.nextOcc ∧ (d.setWheel n r).tops = d.tops ∧ (d.setWheel n r).pendW = d.pendW ∧
    (d.setWheel n r).chans = d.chans ∧ (d.setWheel n r).banks = d.banks ∧ (d.setWheel n r).boosts = d.boosts ∧ (d.setWheel n r).lanes = d.lanes ∧
    (d.setWheel n r).closures = d.closures ∧ (d.setWheel n r).stops = d.stops ∧ (d.setWheel n r).pressures = d.pressures ∧ (d.setWheel n r).vib = d.vib ∧
    (d.setWheel n r).cmps = d.cmps ∧ (d.setWheel n r).timers = d.timers ∧ (d.setWheel n r).lans = d.lans ∧ (d.setWheel n r).lbanks = d.lbanks ∧
    (d.setWheel n r).badWords = d.badWords ∧ (d.setWheel n r).dmas = d.dmas ∧ (d.setWheel n r).mboxes = d.mboxes ∧ (d.setWheel n r).masters = d.masters ∧
    (∀ a b, (d.setWheel n r).obj a b = d.obj a b) ∧ (∀ a b c, (d.setWheel n r).bit a b c = d.bit a b c) := by
  and_intros <;> intros <;> rfl

@[simp] theorem Dev.setDom_rest (d : Dev) (n : Nat) (r : Dom) :
    (d.setDom n r).now = d.now ∧ (d.setDom n r).free = d.free ∧ (d.setDom n r).regs = d.regs ∧ (d.setDom n r).ports = d.ports ∧
    (d.setDom n r).sent = d.sent ∧ (d.setDom n r).cyc = d.cyc ∧ (d.setDom n r).irq = d.irq ∧ (d.setDom n r).cores = d.cores ∧
    (d.setDom n r).faultLine = d.faultLine ∧ (d.setDom n r).evt = d.evt ∧ (d.setDom n r).heard = d.heard ∧ (d.setDom n r).tb = d.tb ∧
    (d.setDom n r).rst = d.rst ∧ (d.setDom n r).nv = d.nv ∧ (d.setDom n r).fw = d.fw ∧ (d.setDom n r).factory = d.factory ∧
    (d.setDom n r).night = d.night ∧ (d.setDom n r).tap = d.tap ∧ (d.setDom n r).wheels = d.wheels ∧ (d.setDom n r).synths = d.synths ∧
    (d.setDom n r).occs = d.occs ∧ (d.setDom n r).nextOcc = d.nextOcc ∧ (d.setDom n r).tops = d.tops ∧ (d.setDom n r).pendW = d.pendW ∧
    (d.setDom n r).chans = d.chans ∧ (d.setDom n r).banks = d.banks ∧ (d.setDom n r).boosts = d.boosts ∧ (d.setDom n r).lanes = d.lanes ∧
    (d.setDom n r).closures = d.closures ∧ (d.setDom n r).stops = d.stops ∧ (d.setDom n r).pressures = d.pressures ∧ (d.setDom n r).vib = d.vib ∧
    (d.setDom n r).cmps = d.cmps ∧ (d.setDom n r).timers = d.timers ∧ (d.setDom n r).lans = d.lans ∧ (d.setDom n r).lbanks = d.lbanks ∧
    (d.setDom n r).badWords = d.badWords ∧ (d.setDom n r).dmas = d.dmas ∧ (d.setDom n r).mboxes = d.mboxes ∧ (d.setDom n r).masters = d.masters ∧
    (∀ a b, (d.setDom n r).obj a b = d.obj a b) ∧ (∀ a b c, (d.setDom n r).bit a b c = d.bit a b c) := by
  and_intros <;> intros <;> rfl

@[simp] theorem Dev.setSynth_rest (d : Dev) (n : Nat) (r : Synth) :
    (d.setSynth n r).now = d.now ∧ (d.setSynth n r).free = d.free ∧ (d.setSynth n r).regs = d.regs ∧ (d.setSynth n r).ports = d.ports ∧
    (d.setSynth n r).sent = d.sent ∧ (d.setSynth n r).cyc = d.cyc ∧ (d.setSynth n r).irq = d.irq ∧ (d.setSynth n r).cores = d.cores ∧
    (d.setSynth n r).faultLine = d.faultLine ∧ (d.setSynth n r).evt = d.evt ∧ (d.setSynth n r).heard = d.heard ∧ (d.setSynth n r).tb = d.tb ∧
    (d.setSynth n r).rst = d.rst ∧ (d.setSynth n r).nv = d.nv ∧ (d.setSynth n r).fw = d.fw ∧ (d.setSynth n r).factory = d.factory ∧
    (d.setSynth n r).night = d.night ∧ (d.setSynth n r).tap = d.tap ∧ (d.setSynth n r).wheels = d.wheels ∧ (d.setSynth n r).doms = d.doms ∧
    (d.setSynth n r).occs = d.occs ∧ (d.setSynth n r).nextOcc = d.nextOcc ∧ (d.setSynth n r).tops = d.tops ∧ (d.setSynth n r).pendW = d.pendW ∧
    (d.setSynth n r).chans = d.chans ∧ (d.setSynth n r).banks = d.banks ∧ (d.setSynth n r).boosts = d.boosts ∧ (d.setSynth n r).lanes = d.lanes ∧
    (d.setSynth n r).closures = d.closures ∧ (d.setSynth n r).stops = d.stops ∧ (d.setSynth n r).pressures = d.pressures ∧ (d.setSynth n r).vib = d.vib ∧
    (d.setSynth n r).cmps = d.cmps ∧ (d.setSynth n r).timers = d.timers ∧ (d.setSynth n r).lans = d.lans ∧ (d.setSynth n r).lbanks = d.lbanks ∧
    (d.setSynth n r).badWords = d.badWords ∧ (d.setSynth n r).dmas = d.dmas ∧ (d.setSynth n r).mboxes = d.mboxes ∧ (d.setSynth n r).masters = d.masters ∧
    (∀ a b, (d.setSynth n r).obj a b = d.obj a b) ∧ (∀ a b c, (d.setSynth n r).bit a b c = d.bit a b c) := by
  and_intros <;> intros <;> rfl

@[simp] theorem Dev.setOcc_rest (d : Dev) (n : Nat) (r : Occ) :
    (d.setOcc n r).now = d.now ∧ (d.setOcc n r).free = d.free ∧ (d.setOcc n r).regs = d.regs ∧ (d.setOcc n r).ports = d.ports ∧
    (d.setOcc n r).sent = d.sent ∧ (d.setOcc n r).cyc = d.cyc ∧ (d.setOcc n r).irq = d.irq ∧ (d.setOcc n r).cores = d.cores ∧
    (d.setOcc n r).faultLine = d.faultLine ∧ (d.setOcc n r).evt = d.evt ∧ (d.setOcc n r).heard = d.heard ∧ (d.setOcc n r).tb = d.tb ∧
    (d.setOcc n r).rst = d.rst ∧ (d.setOcc n r).nv = d.nv ∧ (d.setOcc n r).fw = d.fw ∧ (d.setOcc n r).factory = d.factory ∧
    (d.setOcc n r).night = d.night ∧ (d.setOcc n r).tap = d.tap ∧ (d.setOcc n r).wheels = d.wheels ∧ (d.setOcc n r).doms = d.doms ∧
    (d.setOcc n r).synths = d.synths ∧ (d.setOcc n r).nextOcc = d.nextOcc ∧ (d.setOcc n r).tops = d.tops ∧ (d.setOcc n r).pendW = d.pendW ∧
    (d.setOcc n r).chans = d.chans ∧ (d.setOcc n r).banks = d.banks ∧ (d.setOcc n r).boosts = d.boosts ∧ (d.setOcc n r).lanes = d.lanes ∧
    (d.setOcc n r).closures = d.closures ∧ (d.setOcc n r).stops = d.stops ∧ (d.setOcc n r).pressures = d.pressures ∧ (d.setOcc n r).vib = d.vib ∧
    (d.setOcc n r).cmps = d.cmps ∧ (d.setOcc n r).timers = d.timers ∧ (d.setOcc n r).lans = d.lans ∧ (d.setOcc n r).lbanks = d.lbanks ∧
    (d.setOcc n r).badWords = d.badWords ∧ (d.setOcc n r).dmas = d.dmas ∧ (d.setOcc n r).mboxes = d.mboxes ∧ (d.setOcc n r).masters = d.masters ∧
    (∀ a b, (d.setOcc n r).obj a b = d.obj a b) ∧ (∀ a b c, (d.setOcc n r).bit a b c = d.bit a b c) := by
  and_intros <;> intros <;> rfl

@[simp] theorem Dev.setTopRec_rest (d : Dev) (n : Nat) (r : TopRec) :
    (d.setTopRec n r).now = d.now ∧ (d.setTopRec n r).free = d.free ∧ (d.setTopRec n r).regs = d.regs ∧ (d.setTopRec n r).ports = d.ports ∧
    (d.setTopRec n r).sent = d.sent ∧ (d.setTopRec n r).cyc = d.cyc ∧ (d.setTopRec n r).irq = d.irq ∧ (d.setTopRec n r).cores = d.cores ∧
    (d.setTopRec n r).faultLine = d.faultLine ∧ (d.setTopRec n r).evt = d.evt ∧ (d.setTopRec n r).heard = d.heard ∧ (d.setTopRec n r).tb = d.tb ∧
    (d.setTopRec n r).rst = d.rst ∧ (d.setTopRec n r).nv = d.nv ∧ (d.setTopRec n r).fw = d.fw ∧ (d.setTopRec n r).factory = d.factory ∧
    (d.setTopRec n r).night = d.night ∧ (d.setTopRec n r).tap = d.tap ∧ (d.setTopRec n r).wheels = d.wheels ∧ (d.setTopRec n r).doms = d.doms ∧
    (d.setTopRec n r).synths = d.synths ∧ (d.setTopRec n r).occs = d.occs ∧ (d.setTopRec n r).nextOcc = d.nextOcc ∧ (d.setTopRec n r).pendW = d.pendW ∧
    (d.setTopRec n r).chans = d.chans ∧ (d.setTopRec n r).banks = d.banks ∧ (d.setTopRec n r).boosts = d.boosts ∧ (d.setTopRec n r).lanes = d.lanes ∧
    (d.setTopRec n r).closures = d.closures ∧ (d.setTopRec n r).stops = d.stops ∧ (d.setTopRec n r).pressures = d.pressures ∧ (d.setTopRec n r).vib = d.vib ∧
    (d.setTopRec n r).cmps = d.cmps ∧ (d.setTopRec n r).timers = d.timers ∧ (d.setTopRec n r).lans = d.lans ∧ (d.setTopRec n r).lbanks = d.lbanks ∧
    (d.setTopRec n r).badWords = d.badWords ∧ (d.setTopRec n r).dmas = d.dmas ∧ (d.setTopRec n r).mboxes = d.mboxes ∧ (d.setTopRec n r).masters = d.masters ∧
    (∀ a b, (d.setTopRec n r).obj a b = d.obj a b) ∧ (∀ a b c, (d.setTopRec n r).bit a b c = d.bit a b c) := by
  and_intros <;> intros <;> rfl

@[simp] theorem Dev.setChan_rest (d : Dev) (n : Nat) (r : Chan) :
    (d.setChan n r).now = d.now ∧ (d.setChan n r).free = d.free ∧ (d.setChan n r).regs = d.regs ∧ (d.setChan n r).ports = d.ports ∧
    (d.setChan n r).sent = d.sent ∧ (d.setChan n r).cyc = d.cyc ∧ (d.setChan n r).irq = d.irq ∧ (d.setChan n r).cores = d.cores ∧
    (d.setChan n r).faultLine = d.faultLine ∧ (d.setChan n r).evt = d.evt ∧ (d.setChan n r).heard = d.heard ∧ (d.setChan n r).tb = d.tb ∧
    (d.setChan n r).rst = d.rst ∧ (d.setChan n r).nv = d.nv ∧ (d.setChan n r).fw = d.fw ∧ (d.setChan n r).factory = d.factory ∧
    (d.setChan n r).night = d.night ∧ (d.setChan n r).tap = d.tap ∧ (d.setChan n r).wheels = d.wheels ∧ (d.setChan n r).doms = d.doms ∧
    (d.setChan n r).synths = d.synths ∧ (d.setChan n r).occs = d.occs ∧ (d.setChan n r).nextOcc = d.nextOcc ∧ (d.setChan n r).tops = d.tops ∧
    (d.setChan n r).pendW = d.pendW ∧ (d.setChan n r).banks = d.banks ∧ (d.setChan n r).boosts = d.boosts ∧ (d.setChan n r).lanes = d.lanes ∧
    (d.setChan n r).closures = d.closures ∧ (d.setChan n r).stops = d.stops ∧ (d.setChan n r).pressures = d.pressures ∧ (d.setChan n r).vib = d.vib ∧
    (d.setChan n r).cmps = d.cmps ∧ (d.setChan n r).timers = d.timers ∧ (d.setChan n r).lans = d.lans ∧ (d.setChan n r).lbanks = d.lbanks ∧
    (d.setChan n r).badWords = d.badWords ∧ (d.setChan n r).dmas = d.dmas ∧ (d.setChan n r).mboxes = d.mboxes ∧ (d.setChan n r).masters = d.masters ∧
    (∀ a b, (d.setChan n r).obj a b = d.obj a b) ∧ (∀ a b c, (d.setChan n r).bit a b c = d.bit a b c) := by
  and_intros <;> intros <;> rfl

@[simp] theorem Dev.setBank_rest (d : Dev) (n : Nat) (r : Bank) :
    (d.setBank n r).now = d.now ∧ (d.setBank n r).free = d.free ∧ (d.setBank n r).regs = d.regs ∧ (d.setBank n r).ports = d.ports ∧
    (d.setBank n r).sent = d.sent ∧ (d.setBank n r).cyc = d.cyc ∧ (d.setBank n r).irq = d.irq ∧ (d.setBank n r).cores = d.cores ∧
    (d.setBank n r).faultLine = d.faultLine ∧ (d.setBank n r).evt = d.evt ∧ (d.setBank n r).heard = d.heard ∧ (d.setBank n r).tb = d.tb ∧
    (d.setBank n r).rst = d.rst ∧ (d.setBank n r).nv = d.nv ∧ (d.setBank n r).fw = d.fw ∧ (d.setBank n r).factory = d.factory ∧
    (d.setBank n r).night = d.night ∧ (d.setBank n r).tap = d.tap ∧ (d.setBank n r).wheels = d.wheels ∧ (d.setBank n r).doms = d.doms ∧
    (d.setBank n r).synths = d.synths ∧ (d.setBank n r).occs = d.occs ∧ (d.setBank n r).nextOcc = d.nextOcc ∧ (d.setBank n r).tops = d.tops ∧
    (d.setBank n r).pendW = d.pendW ∧ (d.setBank n r).chans = d.chans ∧ (d.setBank n r).boosts = d.boosts ∧ (d.setBank n r).lanes = d.lanes ∧
    (d.setBank n r).closures = d.closures ∧ (d.setBank n r).stops = d.stops ∧ (d.setBank n r).pressures = d.pressures ∧ (d.setBank n r).vib = d.vib ∧
    (d.setBank n r).cmps = d.cmps ∧ (d.setBank n r).timers = d.timers ∧ (d.setBank n r).lans = d.lans ∧ (d.setBank n r).lbanks = d.lbanks ∧
    (d.setBank n r).badWords = d.badWords ∧ (d.setBank n r).dmas = d.dmas ∧ (d.setBank n r).mboxes = d.mboxes ∧ (d.setBank n r).masters = d.masters ∧
    (∀ a b, (d.setBank n r).obj a b = d.obj a b) ∧ (∀ a b c, (d.setBank n r).bit a b c = d.bit a b c) := by
  and_intros <;> intros <;> rfl

@[simp] theorem Dev.setBoost_rest (d : Dev) (n : Nat) (r : Boost) :
    (d.setBoost n r).now = d.now ∧ (d.setBoost n r).free = d.free ∧ (d.setBoost n r).regs = d.regs ∧ (d.setBoost n r).ports = d.ports ∧
    (d.setBoost n r).sent = d.sent ∧ (d.setBoost n r).cyc = d.cyc ∧ (d.setBoost n r).irq = d.irq ∧ (d.setBoost n r).cores = d.cores ∧
    (d.setBoost n r).faultLine = d.faultLine ∧ (d.setBoost n r).evt = d.evt ∧ (d.setBoost n r).heard = d.heard ∧ (d.setBoost n r).tb = d.tb ∧
    (d.setBoost n r).rst = d.rst ∧ (d.setBoost n r).nv = d.nv ∧ (d.setBoost n r).fw = d.fw ∧ (d.setBoost n r).factory = d.factory ∧
    (d.setBoost n r).night = d.night ∧ (d.setBoost n r).tap = d.tap ∧ (d.setBoost n r).wheels = d.wheels ∧ (d.setBoost n r).doms = d.doms ∧
    (d.setBoost n r).synths = d.synths ∧ (d.setBoost n r).occs = d.occs ∧ (d.setBoost n r).nextOcc = d.nextOcc ∧ (d.setBoost n r).tops = d.tops ∧
    (d.setBoost n r).pendW = d.pendW ∧ (d.setBoost n r).chans = d.chans ∧ (d.setBoost n r).banks = d.banks ∧ (d.setBoost n r).lanes = d.lanes ∧
    (d.setBoost n r).closures = d.closures ∧ (d.setBoost n r).stops = d.stops ∧ (d.setBoost n r).pressures = d.pressures ∧ (d.setBoost n r).vib = d.vib ∧
    (d.setBoost n r).cmps = d.cmps ∧ (d.setBoost n r).timers = d.timers ∧ (d.setBoost n r).lans = d.lans ∧ (d.setBoost n r).lbanks = d.lbanks ∧
    (d.setBoost n r).badWords = d.badWords ∧ (d.setBoost n r).dmas = d.dmas ∧ (d.setBoost n r).mboxes = d.mboxes ∧ (d.setBoost n r).masters = d.masters ∧
    (∀ a b, (d.setBoost n r).obj a b = d.obj a b) ∧ (∀ a b c, (d.setBoost n r).bit a b c = d.bit a b c) := by
  and_intros <;> intros <;> rfl

@[simp] theorem Dev.setLane_rest (d : Dev) (n : Nat) (r : Lane) :
    (d.setLane n r).now = d.now ∧ (d.setLane n r).free = d.free ∧ (d.setLane n r).regs = d.regs ∧ (d.setLane n r).ports = d.ports ∧
    (d.setLane n r).sent = d.sent ∧ (d.setLane n r).cyc = d.cyc ∧ (d.setLane n r).irq = d.irq ∧ (d.setLane n r).cores = d.cores ∧
    (d.setLane n r).faultLine = d.faultLine ∧ (d.setLane n r).evt = d.evt ∧ (d.setLane n r).heard = d.heard ∧ (d.setLane n r).tb = d.tb ∧
    (d.setLane n r).rst = d.rst ∧ (d.setLane n r).nv = d.nv ∧ (d.setLane n r).fw = d.fw ∧ (d.setLane n r).factory = d.factory ∧
    (d.setLane n r).night = d.night ∧ (d.setLane n r).tap = d.tap ∧ (d.setLane n r).wheels = d.wheels ∧ (d.setLane n r).doms = d.doms ∧
    (d.setLane n r).synths = d.synths ∧ (d.setLane n r).occs = d.occs ∧ (d.setLane n r).nextOcc = d.nextOcc ∧ (d.setLane n r).tops = d.tops ∧
    (d.setLane n r).pendW = d.pendW ∧ (d.setLane n r).chans = d.chans ∧ (d.setLane n r).banks = d.banks ∧ (d.setLane n r).boosts = d.boosts ∧
    (d.setLane n r).closures = d.closures ∧ (d.setLane n r).stops = d.stops ∧ (d.setLane n r).pressures = d.pressures ∧ (d.setLane n r).vib = d.vib ∧
    (d.setLane n r).cmps = d.cmps ∧ (d.setLane n r).timers = d.timers ∧ (d.setLane n r).lans = d.lans ∧ (d.setLane n r).lbanks = d.lbanks ∧
    (d.setLane n r).badWords = d.badWords ∧ (d.setLane n r).dmas = d.dmas ∧ (d.setLane n r).mboxes = d.mboxes ∧ (d.setLane n r).masters = d.masters ∧
    (∀ a b, (d.setLane n r).obj a b = d.obj a b) ∧ (∀ a b c, (d.setLane n r).bit a b c = d.bit a b c) := by
  and_intros <;> intros <;> rfl

@[simp] theorem Dev.setClosure_rest (d : Dev) (n : Nat) (r : Closure) :
    (d.setClosure n r).now = d.now ∧ (d.setClosure n r).free = d.free ∧ (d.setClosure n r).regs = d.regs ∧ (d.setClosure n r).ports = d.ports ∧
    (d.setClosure n r).sent = d.sent ∧ (d.setClosure n r).cyc = d.cyc ∧ (d.setClosure n r).irq = d.irq ∧ (d.setClosure n r).cores = d.cores ∧
    (d.setClosure n r).faultLine = d.faultLine ∧ (d.setClosure n r).evt = d.evt ∧ (d.setClosure n r).heard = d.heard ∧ (d.setClosure n r).tb = d.tb ∧
    (d.setClosure n r).rst = d.rst ∧ (d.setClosure n r).nv = d.nv ∧ (d.setClosure n r).fw = d.fw ∧ (d.setClosure n r).factory = d.factory ∧
    (d.setClosure n r).night = d.night ∧ (d.setClosure n r).tap = d.tap ∧ (d.setClosure n r).wheels = d.wheels ∧ (d.setClosure n r).doms = d.doms ∧
    (d.setClosure n r).synths = d.synths ∧ (d.setClosure n r).occs = d.occs ∧ (d.setClosure n r).nextOcc = d.nextOcc ∧ (d.setClosure n r).tops = d.tops ∧
    (d.setClosure n r).pendW = d.pendW ∧ (d.setClosure n r).chans = d.chans ∧ (d.setClosure n r).banks = d.banks ∧ (d.setClosure n r).boosts = d.boosts ∧
    (d.setClosure n r).lanes = d.lanes ∧ (d.setClosure n r).stops = d.stops ∧ (d.setClosure n r).pressures = d.pressures ∧ (d.setClosure n r).vib = d.vib ∧
    (d.setClosure n r).cmps = d.cmps ∧ (d.setClosure n r).timers = d.timers ∧ (d.setClosure n r).lans = d.lans ∧ (d.setClosure n r).lbanks = d.lbanks ∧
    (d.setClosure n r).badWords = d.badWords ∧ (d.setClosure n r).dmas = d.dmas ∧ (d.setClosure n r).mboxes = d.mboxes ∧ (d.setClosure n r).masters = d.masters ∧
    (∀ a b, (d.setClosure n r).obj a b = d.obj a b) ∧ (∀ a b c, (d.setClosure n r).bit a b c = d.bit a b c) := by
  and_intros <;> intros <;> rfl

@[simp] theorem Dev.setPress_rest (d : Dev) (n : Nat) (r : Press) :
    (d.setPress n r).now = d.now ∧ (d.setPress n r).free = d.free ∧ (d.setPress n r).regs = d.regs ∧ (d.setPress n r).ports = d.ports ∧
    (d.setPress n r).sent = d.sent ∧ (d.setPress n r).cyc = d.cyc ∧ (d.setPress n r).irq = d.irq ∧ (d.setPress n r).cores = d.cores ∧
    (d.setPress n r).faultLine = d.faultLine ∧ (d.setPress n r).evt = d.evt ∧ (d.setPress n r).heard = d.heard ∧ (d.setPress n r).tb = d.tb ∧
    (d.setPress n r).rst = d.rst ∧ (d.setPress n r).nv = d.nv ∧ (d.setPress n r).fw = d.fw ∧ (d.setPress n r).factory = d.factory ∧
    (d.setPress n r).night = d.night ∧ (d.setPress n r).tap = d.tap ∧ (d.setPress n r).wheels = d.wheels ∧ (d.setPress n r).doms = d.doms ∧
    (d.setPress n r).synths = d.synths ∧ (d.setPress n r).occs = d.occs ∧ (d.setPress n r).nextOcc = d.nextOcc ∧ (d.setPress n r).tops = d.tops ∧
    (d.setPress n r).pendW = d.pendW ∧ (d.setPress n r).chans = d.chans ∧ (d.setPress n r).banks = d.banks ∧ (d.setPress n r).boosts = d.boosts ∧
    (d.setPress n r).lanes = d.lanes ∧ (d.setPress n r).closures = d.closures ∧ (d.setPress n r).stops = d.stops ∧ (d.setPress n r).vib = d.vib ∧
    (d.setPress n r).cmps = d.cmps ∧ (d.setPress n r).timers = d.timers ∧ (d.setPress n r).lans = d.lans ∧ (d.setPress n r).lbanks = d.lbanks ∧
    (d.setPress n r).badWords = d.badWords ∧ (d.setPress n r).dmas = d.dmas ∧ (d.setPress n r).mboxes = d.mboxes ∧ (d.setPress n r).masters = d.masters ∧
    (∀ a b, (d.setPress n r).obj a b = d.obj a b) ∧ (∀ a b c, (d.setPress n r).bit a b c = d.bit a b c) := by
  and_intros <;> intros <;> rfl

@[simp] theorem Dev.setBand_rest (d : Dev) (n k : Nat) (r : Band) :
    (d.setBand n k r).now = d.now ∧ (d.setBand n k r).free = d.free ∧ (d.setBand n k r).regs = d.regs ∧ (d.setBand n k r).ports = d.ports ∧
    (d.setBand n k r).sent = d.sent ∧ (d.setBand n k r).cyc = d.cyc ∧ (d.setBand n k r).irq = d.irq ∧ (d.setBand n k r).cores = d.cores ∧
    (d.setBand n k r).faultLine = d.faultLine ∧ (d.setBand n k r).evt = d.evt ∧ (d.setBand n k r).heard = d.heard ∧ (d.setBand n k r).tb = d.tb ∧
    (d.setBand n k r).rst = d.rst ∧ (d.setBand n k r).nv = d.nv ∧ (d.setBand n k r).fw = d.fw ∧ (d.setBand n k r).factory = d.factory ∧
    (d.setBand n k r).night = d.night ∧ (d.setBand n k r).tap = d.tap ∧ (d.setBand n k r).wheels = d.wheels ∧ (d.setBand n k r).doms = d.doms ∧
    (d.setBand n k r).synths = d.synths ∧ (d.setBand n k r).occs = d.occs ∧ (d.setBand n k r).nextOcc = d.nextOcc ∧ (d.setBand n k r).tops = d.tops ∧
    (d.setBand n k r).pendW = d.pendW ∧ (d.setBand n k r).chans = d.chans ∧ (d.setBand n k r).banks = d.banks ∧ (d.setBand n k r).boosts = d.boosts ∧
    (d.setBand n k r).lanes = d.lanes ∧ (d.setBand n k r).closures = d.closures ∧ (d.setBand n k r).stops = d.stops ∧ (d.setBand n k r).pressures = d.pressures ∧
    (d.setBand n k r).cmps = d.cmps ∧ (d.setBand n k r).timers = d.timers ∧ (d.setBand n k r).lans = d.lans ∧ (d.setBand n k r).lbanks = d.lbanks ∧
    (d.setBand n k r).badWords = d.badWords ∧ (d.setBand n k r).dmas = d.dmas ∧ (d.setBand n k r).mboxes = d.mboxes ∧ (d.setBand n k r).masters = d.masters ∧
    (∀ a b, (d.setBand n k r).obj a b = d.obj a b) ∧ (∀ a b c, (d.setBand n k r).bit a b c = d.bit a b c) := by
  and_intros <;> intros <;> rfl

@[simp] theorem Dev.setCmp_rest (d : Dev) (n : Nat) (r : Cmp) :
    (d.setCmp n r).now = d.now ∧ (d.setCmp n r).free = d.free ∧ (d.setCmp n r).regs = d.regs ∧ (d.setCmp n r).ports = d.ports ∧
    (d.setCmp n r).sent = d.sent ∧ (d.setCmp n r).cyc = d.cyc ∧ (d.setCmp n r).irq = d.irq ∧ (d.setCmp n r).cores = d.cores ∧
    (d.setCmp n r).faultLine = d.faultLine ∧ (d.setCmp n r).evt = d.evt ∧ (d.setCmp n r).heard = d.heard ∧ (d.setCmp n r).tb = d.tb ∧
    (d.setCmp n r).rst = d.rst ∧ (d.setCmp n r).nv = d.nv ∧ (d.setCmp n r).fw = d.fw ∧ (d.setCmp n r).factory = d.factory ∧
    (d.setCmp n r).night = d.night ∧ (d.setCmp n r).tap = d.tap ∧ (d.setCmp n r).wheels = d.wheels ∧ (d.setCmp n r).doms = d.doms ∧
    (d.setCmp n r).synths = d.synths ∧ (d.setCmp n r).occs = d.occs ∧ (d.setCmp n r).nextOcc = d.nextOcc ∧ (d.setCmp n r).tops = d.tops ∧
    (d.setCmp n r).pendW = d.pendW ∧ (d.setCmp n r).chans = d.chans ∧ (d.setCmp n r).banks = d.banks ∧ (d.setCmp n r).boosts = d.boosts ∧
    (d.setCmp n r).lanes = d.lanes ∧ (d.setCmp n r).closures = d.closures ∧ (d.setCmp n r).stops = d.stops ∧ (d.setCmp n r).pressures = d.pressures ∧
    (d.setCmp n r).vib = d.vib ∧ (d.setCmp n r).timers = d.timers ∧ (d.setCmp n r).lans = d.lans ∧ (d.setCmp n r).lbanks = d.lbanks ∧
    (d.setCmp n r).badWords = d.badWords ∧ (d.setCmp n r).dmas = d.dmas ∧ (d.setCmp n r).mboxes = d.mboxes ∧ (d.setCmp n r).masters = d.masters ∧
    (∀ a b, (d.setCmp n r).obj a b = d.obj a b) ∧ (∀ a b c, (d.setCmp n r).bit a b c = d.bit a b c) := by
  and_intros <;> intros <;> rfl

@[simp] theorem Dev.setTimer_rest (d : Dev) (n : Nat) (r : Timer) :
    (d.setTimer n r).now = d.now ∧ (d.setTimer n r).free = d.free ∧ (d.setTimer n r).regs = d.regs ∧ (d.setTimer n r).ports = d.ports ∧
    (d.setTimer n r).sent = d.sent ∧ (d.setTimer n r).cyc = d.cyc ∧ (d.setTimer n r).irq = d.irq ∧ (d.setTimer n r).cores = d.cores ∧
    (d.setTimer n r).faultLine = d.faultLine ∧ (d.setTimer n r).evt = d.evt ∧ (d.setTimer n r).heard = d.heard ∧ (d.setTimer n r).tb = d.tb ∧
    (d.setTimer n r).rst = d.rst ∧ (d.setTimer n r).nv = d.nv ∧ (d.setTimer n r).fw = d.fw ∧ (d.setTimer n r).factory = d.factory ∧
    (d.setTimer n r).night = d.night ∧ (d.setTimer n r).tap = d.tap ∧ (d.setTimer n r).wheels = d.wheels ∧ (d.setTimer n r).doms = d.doms ∧
    (d.setTimer n r).synths = d.synths ∧ (d.setTimer n r).occs = d.occs ∧ (d.setTimer n r).nextOcc = d.nextOcc ∧ (d.setTimer n r).tops = d.tops ∧
    (d.setTimer n r).pendW = d.pendW ∧ (d.setTimer n r).chans = d.chans ∧ (d.setTimer n r).banks = d.banks ∧ (d.setTimer n r).boosts = d.boosts ∧
    (d.setTimer n r).lanes = d.lanes ∧ (d.setTimer n r).closures = d.closures ∧ (d.setTimer n r).stops = d.stops ∧ (d.setTimer n r).pressures = d.pressures ∧
    (d.setTimer n r).vib = d.vib ∧ (d.setTimer n r).cmps = d.cmps ∧ (d.setTimer n r).lans = d.lans ∧ (d.setTimer n r).lbanks = d.lbanks ∧
    (d.setTimer n r).badWords = d.badWords ∧ (d.setTimer n r).dmas = d.dmas ∧ (d.setTimer n r).mboxes = d.mboxes ∧ (d.setTimer n r).masters = d.masters ∧
    (∀ a b, (d.setTimer n r).obj a b = d.obj a b) ∧ (∀ a b c, (d.setTimer n r).bit a b c = d.bit a b c) := by
  and_intros <;> intros <;> rfl

@[simp] theorem Dev.setLan_rest (d : Dev) (n : Nat) (r : Lan) :
    (d.setLan n r).now = d.now ∧ (d.setLan n r).free = d.free ∧ (d.setLan n r).regs = d.regs ∧ (d.setLan n r).ports = d.ports ∧
    (d.setLan n r).sent = d.sent ∧ (d.setLan n r).cyc = d.cyc ∧ (d.setLan n r).irq = d.irq ∧ (d.setLan n r).cores = d.cores ∧
    (d.setLan n r).faultLine = d.faultLine ∧ (d.setLan n r).evt = d.evt ∧ (d.setLan n r).heard = d.heard ∧ (d.setLan n r).tb = d.tb ∧
    (d.setLan n r).rst = d.rst ∧ (d.setLan n r).nv = d.nv ∧ (d.setLan n r).fw = d.fw ∧ (d.setLan n r).factory = d.factory ∧
    (d.setLan n r).night = d.night ∧ (d.setLan n r).tap = d.tap ∧ (d.setLan n r).wheels = d.wheels ∧ (d.setLan n r).doms = d.doms ∧
    (d.setLan n r).synths = d.synths ∧ (d.setLan n r).occs = d.occs ∧ (d.setLan n r).nextOcc = d.nextOcc ∧ (d.setLan n r).tops = d.tops ∧
    (d.setLan n r).pendW = d.pendW ∧ (d.setLan n r).chans = d.chans ∧ (d.setLan n r).banks = d.banks ∧ (d.setLan n r).boosts = d.boosts ∧
    (d.setLan n r).lanes = d.lanes ∧ (d.setLan n r).closures = d.closures ∧ (d.setLan n r).stops = d.stops ∧ (d.setLan n r).pressures = d.pressures ∧
    (d.setLan n r).vib = d.vib ∧ (d.setLan n r).cmps = d.cmps ∧ (d.setLan n r).timers = d.timers ∧ (d.setLan n r).lbanks = d.lbanks ∧
    (d.setLan n r).badWords = d.badWords ∧ (d.setLan n r).dmas = d.dmas ∧ (d.setLan n r).mboxes = d.mboxes ∧ (d.setLan n r).masters = d.masters ∧
    (∀ a b, (d.setLan n r).obj a b = d.obj a b) ∧ (∀ a b c, (d.setLan n r).bit a b c = d.bit a b c) := by
  and_intros <;> intros <;> rfl

@[simp] theorem Dev.setLbank_rest (d : Dev) (n : Nat) (r : LBank) :
    (d.setLbank n r).now = d.now ∧ (d.setLbank n r).free = d.free ∧ (d.setLbank n r).regs = d.regs ∧ (d.setLbank n r).ports = d.ports ∧
    (d.setLbank n r).sent = d.sent ∧ (d.setLbank n r).cyc = d.cyc ∧ (d.setLbank n r).irq = d.irq ∧ (d.setLbank n r).cores = d.cores ∧
    (d.setLbank n r).faultLine = d.faultLine ∧ (d.setLbank n r).evt = d.evt ∧ (d.setLbank n r).heard = d.heard ∧ (d.setLbank n r).tb = d.tb ∧
    (d.setLbank n r).rst = d.rst ∧ (d.setLbank n r).nv = d.nv ∧ (d.setLbank n r).fw = d.fw ∧ (d.setLbank n r).factory = d.factory ∧
    (d.setLbank n r).night = d.night ∧ (d.setLbank n r).tap = d.tap ∧ (d.setLbank n r).wheels = d.wheels ∧ (d.setLbank n r).doms = d.doms ∧
    (d.setLbank n r).synths = d.synths ∧ (d.setLbank n r).occs = d.occs ∧ (d.setLbank n r).nextOcc = d.nextOcc ∧ (d.setLbank n r).tops = d.tops ∧
    (d.setLbank n r).pendW = d.pendW ∧ (d.setLbank n r).chans = d.chans ∧ (d.setLbank n r).banks = d.banks ∧ (d.setLbank n r).boosts = d.boosts ∧
    (d.setLbank n r).lanes = d.lanes ∧ (d.setLbank n r).closures = d.closures ∧ (d.setLbank n r).stops = d.stops ∧ (d.setLbank n r).pressures = d.pressures ∧
    (d.setLbank n r).vib = d.vib ∧ (d.setLbank n r).cmps = d.cmps ∧ (d.setLbank n r).timers = d.timers ∧ (d.setLbank n r).lans = d.lans ∧
    (d.setLbank n r).badWords = d.badWords ∧ (d.setLbank n r).dmas = d.dmas ∧ (d.setLbank n r).mboxes = d.mboxes ∧ (d.setLbank n r).masters = d.masters ∧
    (∀ a b, (d.setLbank n r).obj a b = d.obj a b) ∧ (∀ a b c, (d.setLbank n r).bit a b c = d.bit a b c) := by
  and_intros <;> intros <;> rfl

@[simp] theorem Dev.setDma_rest (d : Dev) (n : Nat) (r : Dma) :
    (d.setDma n r).now = d.now ∧ (d.setDma n r).free = d.free ∧ (d.setDma n r).regs = d.regs ∧ (d.setDma n r).ports = d.ports ∧
    (d.setDma n r).sent = d.sent ∧ (d.setDma n r).cyc = d.cyc ∧ (d.setDma n r).irq = d.irq ∧ (d.setDma n r).cores = d.cores ∧
    (d.setDma n r).faultLine = d.faultLine ∧ (d.setDma n r).evt = d.evt ∧ (d.setDma n r).heard = d.heard ∧ (d.setDma n r).tb = d.tb ∧
    (d.setDma n r).rst = d.rst ∧ (d.setDma n r).nv = d.nv ∧ (d.setDma n r).fw = d.fw ∧ (d.setDma n r).factory = d.factory ∧
    (d.setDma n r).night = d.night ∧ (d.setDma n r).tap = d.tap ∧ (d.setDma n r).wheels = d.wheels ∧ (d.setDma n r).doms = d.doms ∧
    (d.setDma n r).synths = d.synths ∧ (d.setDma n r).occs = d.occs ∧ (d.setDma n r).nextOcc = d.nextOcc ∧ (d.setDma n r).tops = d.tops ∧
    (d.setDma n r).pendW = d.pendW ∧ (d.setDma n r).chans = d.chans ∧ (d.setDma n r).banks = d.banks ∧ (d.setDma n r).boosts = d.boosts ∧
    (d.setDma n r).lanes = d.lanes ∧ (d.setDma n r).closures = d.closures ∧ (d.setDma n r).stops = d.stops ∧ (d.setDma n r).pressures = d.pressures ∧
    (d.setDma n r).vib = d.vib ∧ (d.setDma n r).cmps = d.cmps ∧ (d.setDma n r).timers = d.timers ∧ (d.setDma n r).lans = d.lans ∧
    (d.setDma n r).lbanks = d.lbanks ∧ (d.setDma n r).badWords = d.badWords ∧ (d.setDma n r).mboxes = d.mboxes ∧ (d.setDma n r).masters = d.masters ∧
    (∀ a b, (d.setDma n r).obj a b = d.obj a b) ∧ (∀ a b c, (d.setDma n r).bit a b c = d.bit a b c) := by
  and_intros <;> intros <;> rfl

@[simp] theorem Dev.setNvBank_rest (d : Dev) (n : Nat) (r : NvBank) :
    (d.setNvBank n r).now = d.now ∧ (d.setNvBank n r).free = d.free ∧ (d.setNvBank n r).regs = d.regs ∧ (d.setNvBank n r).ports = d.ports ∧
    (d.setNvBank n r).sent = d.sent ∧ (d.setNvBank n r).cyc = d.cyc ∧ (d.setNvBank n r).irq = d.irq ∧ (d.setNvBank n r).cores = d.cores ∧
    (d.setNvBank n r).faultLine = d.faultLine ∧ (d.setNvBank n r).evt = d.evt ∧ (d.setNvBank n r).heard = d.heard ∧ (d.setNvBank n r).tb = d.tb ∧
    (d.setNvBank n r).rst = d.rst ∧ (d.setNvBank n r).fw = d.fw ∧ (d.setNvBank n r).factory = d.factory ∧ (d.setNvBank n r).night = d.night ∧
    (d.setNvBank n r).tap = d.tap ∧ (d.setNvBank n r).wheels = d.wheels ∧ (d.setNvBank n r).doms = d.doms ∧ (d.setNvBank n r).synths = d.synths ∧
    (d.setNvBank n r).occs = d.occs ∧ (d.setNvBank n r).nextOcc = d.nextOcc ∧ (d.setNvBank n r).tops = d.tops ∧ (d.setNvBank n r).pendW = d.pendW ∧
    (d.setNvBank n r).chans = d.chans ∧ (d.setNvBank n r).banks = d.banks ∧ (d.setNvBank n r).boosts = d.boosts ∧ (d.setNvBank n r).lanes = d.lanes ∧
    (d.setNvBank n r).closures = d.closures ∧ (d.setNvBank n r).stops = d.stops ∧ (d.setNvBank n r).pressures = d.pressures ∧ (d.setNvBank n r).vib = d.vib ∧
    (d.setNvBank n r).cmps = d.cmps ∧ (d.setNvBank n r).timers = d.timers ∧ (d.setNvBank n r).lans = d.lans ∧ (d.setNvBank n r).lbanks = d.lbanks ∧
    (d.setNvBank n r).badWords = d.badWords ∧ (d.setNvBank n r).dmas = d.dmas ∧ (d.setNvBank n r).mboxes = d.mboxes ∧ (d.setNvBank n r).masters = d.masters ∧
    (∀ a b, (d.setNvBank n r).obj a b = d.obj a b) ∧ (∀ a b c, (d.setNvBank n r).bit a b c = d.bit a b c) := by
  and_intros <;> intros <;> rfl

@[simp] theorem Dev.setFwBank_rest (d : Dev) (n : Nat) (r : FwBank) :
    (d.setFwBank n r).now = d.now ∧ (d.setFwBank n r).free = d.free ∧ (d.setFwBank n r).regs = d.regs ∧ (d.setFwBank n r).ports = d.ports ∧
    (d.setFwBank n r).sent = d.sent ∧ (d.setFwBank n r).cyc = d.cyc ∧ (d.setFwBank n r).irq = d.irq ∧ (d.setFwBank n r).cores = d.cores ∧
    (d.setFwBank n r).faultLine = d.faultLine ∧ (d.setFwBank n r).evt = d.evt ∧ (d.setFwBank n r).heard = d.heard ∧ (d.setFwBank n r).tb = d.tb ∧
    (d.setFwBank n r).rst = d.rst ∧ (d.setFwBank n r).nv = d.nv ∧ (d.setFwBank n r).factory = d.factory ∧ (d.setFwBank n r).night = d.night ∧
    (d.setFwBank n r).tap = d.tap ∧ (d.setFwBank n r).wheels = d.wheels ∧ (d.setFwBank n r).doms = d.doms ∧ (d.setFwBank n r).synths = d.synths ∧
    (d.setFwBank n r).occs = d.occs ∧ (d.setFwBank n r).nextOcc = d.nextOcc ∧ (d.setFwBank n r).tops = d.tops ∧ (d.setFwBank n r).pendW = d.pendW ∧
    (d.setFwBank n r).chans = d.chans ∧ (d.setFwBank n r).banks = d.banks ∧ (d.setFwBank n r).boosts = d.boosts ∧ (d.setFwBank n r).lanes = d.lanes ∧
    (d.setFwBank n r).closures = d.closures ∧ (d.setFwBank n r).stops = d.stops ∧ (d.setFwBank n r).pressures = d.pressures ∧ (d.setFwBank n r).vib = d.vib ∧
    (d.setFwBank n r).cmps = d.cmps ∧ (d.setFwBank n r).timers = d.timers ∧ (d.setFwBank n r).lans = d.lans ∧ (d.setFwBank n r).lbanks = d.lbanks ∧
    (d.setFwBank n r).badWords = d.badWords ∧ (d.setFwBank n r).dmas = d.dmas ∧ (d.setFwBank n r).mboxes = d.mboxes ∧ (d.setFwBank n r).masters = d.masters ∧
    (∀ a b, (d.setFwBank n r).obj a b = d.obj a b) ∧ (∀ a b c, (d.setFwBank n r).bit a b c = d.bit a b c) := by
  and_intros <;> intros <;> rfl

@[simp] theorem Dev.protStatus_rest (d : Dev) :
    d.protStatus.now = d.now ∧ d.protStatus.free = d.free ∧ d.protStatus.ports = d.ports ∧ d.protStatus.sent = d.sent ∧
    d.protStatus.cyc = d.cyc ∧ d.protStatus.irq = d.irq ∧ d.protStatus.cores = d.cores ∧ d.protStatus.faultLine = d.faultLine ∧
    d.protStatus.evt = d.evt ∧ d.protStatus.heard = d.heard ∧ d.protStatus.tb = d.tb ∧ d.protStatus.rst = d.rst ∧
    d.protStatus.nv = d.nv ∧ d.protStatus.fw = d.fw ∧ d.protStatus.factory = d.factory ∧ d.protStatus.night = d.night ∧
    d.protStatus.tap = d.tap ∧ d.protStatus.wheels = d.wheels ∧ d.protStatus.doms = d.doms ∧ d.protStatus.synths = d.synths ∧
    d.protStatus.occs = d.occs ∧ d.protStatus.nextOcc = d.nextOcc ∧ d.protStatus.tops = d.tops ∧ d.protStatus.pendW = d.pendW ∧
    d.protStatus.chans = d.chans ∧ d.protStatus.banks = d.banks ∧ d.protStatus.boosts = d.boosts ∧ d.protStatus.lanes = d.lanes ∧
    d.protStatus.closures = d.closures ∧ d.protStatus.stops = d.stops ∧ d.protStatus.pressures = d.pressures ∧ d.protStatus.vib = d.vib ∧
    d.protStatus.cmps = d.cmps ∧ d.protStatus.timers = d.timers ∧ d.protStatus.lans = d.lans ∧ d.protStatus.lbanks = d.lbanks ∧
    d.protStatus.badWords = d.badWords ∧ d.protStatus.dmas = d.dmas ∧ d.protStatus.mboxes = d.mboxes ∧ d.protStatus.masters = d.masters := by
  and_intros <;> rfl

end Sys2Proof.Machine
end

