-- ==== Sys2Proof/Laws/Objects.lean ====
section
/-! SUPPORT. The laws of the object dictionary under the shared operations: what is written is read back, every other object
stands; raising a source, an event, a log entry and a message leave the objects alone. -/

namespace Sys2Proof.Machine

theorem okey_inj {i u j w : Nat} (hu : u < 256) (hw : w < 256) (h : okey i u 0 = okey j w 0) : i = j ∧ u = w := by
  unfold okey keySpan at h
  omega

/-- An object after a write: the written one reads the value, every other one as before. -/
theorem Dev.obj_setObj (d : Dev) {i u j w : Nat} (v : Nat) (hu : u < 256) (hw : w < 256) :
    (d.setObj i u v).obj j w = if j = i ∧ w = u then v else d.obj j w := by
  unfold Dev.obj Dev.setObj
  rw [Store.get_put]
  by_cases h : okey j w 0 = okey i u 0
  · obtain ⟨h1, h2⟩ := okey_inj hw hu h
    simp [h1, h2]
  · rw [if_neg h, if_neg]
    rintro ⟨rfl, rfl⟩
    exact h rfl

@[simp] theorem Dev.obj_setObj_self (d : Dev) (i u v : Nat) : (d.setObj i u v).obj i u = v := by
  simp [Dev.obj, Dev.setObj]

theorem Dev.obj_setObj_idx (d : Dev) {i u j w : Nat} (v : Nat) (hu : u < 256) (hw : w < 256) (h : j ≠ i) :
    (d.setObj i u v).obj j w = d.obj j w := by
  rw [Dev.obj_setObj d v hu hw, if_neg (fun e => h e.1)]

theorem Dev.obj_setObj_sub (d : Dev) {i u j w : Nat} (v : Nat) (hu : u < 256) (hw : w < 256) (h : w ≠ u) :
    (d.setObj i u v).obj j w = d.obj j w := by
  rw [Dev.obj_setObj d v hu hw, if_neg (fun e => h e.2)]

/-! ### Words -/

/-- A word with one bit written: that bit reads its level, the others as before. -/
theorem testBit_bitTo (v b : Nat) (on : Bool) (k : Nat) : (bitTo v b on).testBit k = if k = b then on else v.testBit k := by
  have hs : (1 <<< b).testBit k = decide (b = k) := by rw [Nat.one_shiftLeft, Nat.testBit_two_pow]
  by_cases h : k = b
  · subst h
    cases on <;> simp [bitTo, withBit, noBit, Nat.testBit_or, Nat.testBit_xor, Nat.testBit_and, hs]
  · have h' : b ≠ k := fun e => h e.symm
    cases on <;> simp [bitTo, withBit, noBit, Nat.testBit_or, Nat.testBit_xor, Nat.testBit_and, hs, h, h']

@[simp] theorem Dev.bit_setBit_self (d : Dev) (i u b : Nat) (on : Bool) : (d.setBit i u b on).bit i u b = on := by
  simp [Dev.bit, Dev.setBit, testBit_bitTo]

/-- A bit after a bit has been written. -/
theorem Dev.bit_setBit (d : Dev) {i u j w : Nat} (b k : Nat) (on : Bool) (hu : u < 256) (hw : w < 256) :
    (d.setBit i u b on).bit j w k = if j = i ∧ w = u ∧ k = b then on else d.bit j w k := by
  unfold Dev.bit Dev.setBit
  rw [Dev.obj_setObj d _ hu hw]
  by_cases h : j = i ∧ w = u
  · obtain ⟨rfl, rfl⟩ := h
    by_cases hk : k = b <;> simp [testBit_bitTo, hk]
  · rw [if_neg h, if_neg (fun e => h ⟨e.1, e.2.1⟩)]

/-- Another object than the one whose bit is written. -/
theorem Dev.obj_setBit (d : Dev) {i u j w : Nat} (b : Nat) (on : Bool) (hu : u < 256) (hw : w < 256) (h : ¬(j = i ∧ w = u)) :
    (d.setBit i u b on).obj j w = d.obj j w := by
  unfold Dev.setBit
  rw [Dev.obj_setObj d _ hu hw, if_neg h]

/-- Counters. -/
theorem Dev.obj_inc (d : Dev) {i u j w : Nat} (hu : u < 256) (hw : w < 256) :
    (d.inc i u).obj j w = if j = i ∧ w = u then satInc32 (d.obj i u) else d.obj j w := by
  unfold Dev.inc
  rw [Dev.obj_setObj d _ hu hw]

theorem satInc32_le (v : Nat) : satInc32 v ≤ 0xFFFFFFFF := by simp [satInc32]

/-- An object after a run of subindices has been zeroed. -/
theorem Dev.obj_zero (d : Dev) {i a b j w : Nat} (hb : b < 256) (hw : w < 256) :
    (d.zero i a b).obj j w = if j = i ∧ a ≤ w ∧ w ≤ b then 0 else d.obj j w := by
  have key : ∀ n, a + n ≤ b + 1 → ((List.range n).foldl (fun d k => d.setObj i (a + k) 0) d).obj j w =
      if j = i ∧ a ≤ w ∧ w < a + n then 0 else d.obj j w := by
    intro n hn
    induction n with
    | zero => simp
    | succ n ih =>
      rw [List.range_succ, List.foldl_append, List.foldl_cons, List.foldl_nil, Dev.obj_setObj _ _ (by omega) hw, ih (by omega)]
      by_cases h1 : j = i ∧ w = a + n
      · rw [if_pos h1, if_pos]
        omega
      · rw [if_neg h1]
        by_cases h2 : j = i ∧ a ≤ w ∧ w < a + n
        · rw [if_pos h2, if_pos]
          omega
        · rw [if_neg h2, if_neg]
          omega
  unfold Dev.zero
  by_cases h : a ≤ b + 1
  · rw [key (b + 1 - a) (by omega)]
    by_cases h2 : j = i ∧ a ≤ w ∧ w ≤ b
    · rw [if_pos h2, if_pos]
      omega
    · rw [if_neg h2, if_neg]
      omega
  · rw [show b + 1 - a = 0 by omega, if_neg]
    · rfl
    · omega

/-! ### Sources and events leave the objects alone -/

@[simp] theorem Dev.raise_regs (d : Dev) (x : Nat) : (d.raise x).regs = d.regs := by
  unfold Dev.raise
  split
  · rfl
  · split
    · dsimp only
      split <;> rfl
    · dsimp only
      split <;> rfl

@[simp] theorem Dev.raiseIf_regs (d : Dev) (c : Bool) (x : Nat) : (d.raiseIf c x).regs = d.regs := by
  unfold Dev.raiseIf
  split <;> simp

@[simp] theorem Dev.pulseAt_regs (d : Dev) (n t : Nat) : (d.pulseAt n t).regs = d.regs := by
  unfold Dev.pulseAt
  split <;> simp

@[simp] theorem Dev.pulse_regs (d : Dev) (n : Nat) : (d.pulse n).regs = d.regs := d.pulseAt_regs n d.now

@[simp] theorem Dev.pulseIf_regs (d : Dev) (c : Bool) (n : Nat) : (d.pulseIf c n).regs = d.regs := by
  unfold Dev.pulseIf
  split <;> simp

@[simp] theorem Dev.resolveHop_regs (d : Dev) (p hop : Nat) : (d.resolveHop p hop).regs = d.regs := by
  unfold Dev.resolveHop
  split <;> rfl

@[simp] theorem Dev.transmit_regs (d : Dev) (m : Msg) : (d.transmit m).regs = d.regs := by
  unfold Dev.transmit
  split
  · exact d.resolveHop_regs _ _
  · rfl

@[simp] theorem Dev.post_regs (d : Dev) (m : Msg) : (d.post m).regs = d.regs := by
  unfold Dev.post
  split <;> simp

/-- Two devices with the same dictionary read the same objects. -/
theorem Dev.obj_congr {d e : Dev} (h : d.regs = e.regs) (i u : Nat) : d.obj i u = e.obj i u := by
  unfold Dev.obj
  rw [h]

@[simp] theorem Dev.raise_obj (d : Dev) (x i u : Nat) : (d.raise x).obj i u = d.obj i u := Dev.obj_congr (d.raise_regs x) i u
@[simp] theorem Dev.raiseIf_obj (d : Dev) (c : Bool) (x i u : Nat) : (d.raiseIf c x).obj i u = d.obj i u :=
  Dev.obj_congr (d.raiseIf_regs c x) i u
@[simp] theorem Dev.pulse_obj (d : Dev) (n i u : Nat) : (d.pulse n).obj i u = d.obj i u := Dev.obj_congr (d.pulse_regs n) i u
@[simp] theorem Dev.pulseIf_obj (d : Dev) (c : Bool) (n i u : Nat) : (d.pulseIf c n).obj i u = d.obj i u :=
  Dev.obj_congr (d.pulseIf_regs c n) i u
@[simp] theorem Dev.post_obj (d : Dev) (m : Msg) (i u : Nat) : (d.post m).obj i u = d.obj i u := Dev.obj_congr (d.post_regs m) i u

end Sys2Proof.Machine
end

