-- ==== Sys2Proof/Laws/Low.lean ====
section
/-! SUPPORT. What the scheduler and the drive leave alone: every object of an index below 0x2180, and of the domains, patterns,
synthesisers and tooth tables every subindex before 0x35 (0x35 to 0x3D count the scheduler's outcomes). -/

namespace Sys2Proof.Machine

/-- The objects that the scheduler and the drive leave alone. -/
def lowKey (i u : Nat) : Bool := decide (u < 256) && (decide (i < 0x2180) || (decide (i < 0x2400) && decide (u < 0x35)))

/-- What those objects read. -/
def Dev.low (d : Dev) (i u : Nat) : Nat := if lowKey i u then d.obj i u else 0

theorem Dev.obj_of_low {d e : Dev} (h : d.low = e.low) {i u : Nat} (hk : lowKey i u = true) : d.obj i u = e.obj i u := by
  have := congrFun (congrFun h i) u
  simpa [Dev.low, hk] using this

theorem Dev.low_congr {d e : Dev} (h : d.regs = e.regs) : d.low = e.low := by
  funext i u
  unfold Dev.low
  rw [Dev.obj_congr h]

@[simp] theorem Dev.setObj_low (d : Dev) {i : Nat} (u v : Nat) (h : 0x2400 ≤ i) : (d.setObj i u v).low = d.low := by
  funext j w
  unfold Dev.low
  split
  · next hk =>
    simp only [lowKey, Bool.and_eq_true, Bool.or_eq_true, decide_eq_true_eq] at hk
    unfold Dev.obj Dev.setObj
    dsimp only
    rw [Store.get_put, if_neg]
    unfold okey keySpan
    omega
  · rfl

/-- The scheduler's counters of a domain. -/
@[simp] theorem Dev.setObj_low_count (d : Dev) (k : Nat) {u : Nat} (v : Nat) (hu : 0x35 ≤ u) (hv : u < 256) :
    (d.setObj (0x2180 + k) u v).low = d.low := by
  funext j w
  unfold Dev.low
  split
  · next hk =>
    simp only [lowKey, Bool.and_eq_true, Bool.or_eq_true, decide_eq_true_eq] at hk
    rw [Dev.obj_setObj d v hv hk.1, if_neg]
    omega
  · rfl

theorem Dev.low_foldl {α : Type} {g : Dev → α → Dev} (h : ∀ e x, (g e x).low = e.low) (l : List α) (d : Dev) :
    (l.foldl g d).low = d.low := by
  induction l generalizing d with
  | nil => rfl
  | cons x l ih => rw [List.foldl_cons, ih, h]

@[simp] theorem high_add (a n : Nat) (h : 0x2400 ≤ a) : 0x2400 ≤ a + n := Nat.le_trans h (Nat.le_add_right a n)

@[simp] theorem recIx_ge (r : Nat) : 0x2400 ≤ recIx r := by
  unfold recIx
  split <;> omega

@[simp] theorem Dev.low_occs (d : Dev) (x : Store Occ) : ({ d with occs := x } : Dev).low = d.low := Dev.low_congr rfl
@[simp] theorem Dev.low_occsNext (d : Dev) (x : Store Occ) (n : Nat) : ({ d with occs := x, nextOcc := n } : Dev).low = d.low :=
  Dev.low_congr rfl
@[simp] theorem Dev.low_lanes (d : Dev) (x : Store Lane) : ({ d with lanes := x } : Dev).low = d.low := Dev.low_congr rfl
@[simp] theorem Dev.low_stops (d : Dev) (x : Stops) : ({ d with stops := x } : Dev).low = d.low := Dev.low_congr rfl

@[simp] theorem Dev.raise_low (d : Dev) (x : Nat) : (d.raise x).low = d.low := Dev.low_congr (d.raise_regs x)
@[simp] theorem Dev.raiseIf_low (d : Dev) (c : Bool) (x : Nat) : (d.raiseIf c x).low = d.low := Dev.low_congr (d.raiseIf_regs c x)
@[simp] theorem Dev.pulse_low (d : Dev) (n : Nat) : (d.pulse n).low = d.low := Dev.low_congr (d.pulse_regs n)
@[simp] theorem Dev.pulseIf_low (d : Dev) (c : Bool) (n : Nat) : (d.pulseIf c n).low = d.low := Dev.low_congr (d.pulseIf_regs c n)
@[simp] theorem Dev.setBit_low (d : Dev) {i : Nat} (u b : Nat) (on : Bool) (h : 0x2400 ≤ i) : (d.setBit i u b on).low = d.low :=
  Dev.setObj_low d u _ h
@[simp] theorem Dev.inc_low (d : Dev) {i : Nat} (u : Nat) (h : 0x2400 ≤ i) : (d.inc i u).low = d.low := Dev.setObj_low d u _ h
@[simp] theorem Dev.inc_low_count (d : Dev) (k : Nat) {u : Nat} (hu : 0x35 ≤ u) (hv : u < 256) :
    (d.inc (0x2180 + k) u).low = d.low := Dev.setObj_low_count d k _ hu hv

@[simp] theorem Dev.setOcc_low (d : Dev) (n : Nat) (r : Occ) : (d.setOcc n r).low = d.low := Dev.low_congr rfl
@[simp] theorem Dev.setTopRec_low (d : Dev) (n : Nat) (r : TopRec) : (d.setTopRec n r).low = d.low := Dev.low_congr rfl
@[simp] theorem Dev.setChan_low (d : Dev) (n : Nat) (r : Chan) : (d.setChan n r).low = d.low := Dev.low_congr rfl
@[simp] theorem Dev.setBank_low (d : Dev) (n : Nat) (r : Bank) : (d.setBank n r).low = d.low := Dev.low_congr rfl
@[simp] theorem Dev.setBoost_low (d : Dev) (n : Nat) (r : Boost) : (d.setBoost n r).low = d.low := Dev.low_congr rfl
@[simp] theorem Dev.setLane_low (d : Dev) (n : Nat) (r : Lane) : (d.setLane n r).low = d.low := Dev.low_congr rfl
@[simp] theorem Dev.setClosure_low (d : Dev) (n : Nat) (r : Closure) : (d.setClosure n r).low = d.low := Dev.low_congr rfl
@[simp] theorem Dev.setSynth_low (d : Dev) (n : Nat) (r : Synth) : (d.setSynth n r).low = d.low := Dev.low_congr rfl
@[simp] theorem Dev.mapCaps_low (d : Dev) (f : Cap → Cap) : (d.mapCaps f).low = d.low := Dev.low_congr rfl
@[simp] theorem Dev.laneRelease_low (d : Dev) (n : Nat) : (d.laneRelease n).low = d.low := Dev.low_congr rfl
@[simp] theorem Dev.setPort_low (d : Dev) (n : Nat) (r : Port) : (d.setPort n r).low = d.low := Dev.low_congr rfl
@[simp] theorem Dev.setDom_low (d : Dev) (n : Nat) (r : Dom) : (d.setDom n r).low = d.low := Dev.low_congr rfl

@[simp] theorem Dev.occFlag_low (d : Dev) (id mask : Nat) : (d.occFlag id mask).low = d.low := by
  unfold Dev.occFlag
  dsimp only
  rw [Dev.low_foldl (fun e x => by simp)]
  simp

@[simp] theorem Dev.chanOut_low (d : Dev) (n mask : Nat) : (d.chanOut n mask).low = d.low := by
  unfold Dev.chanOut
  simp

@[simp] theorem Dev.chanDiag_low (d : Dev) (n mask : Nat) : (d.chanDiag n mask).low = d.low := by
  unfold Dev.chanDiag
  simp

@[simp] theorem Dev.ovlCause_low (d : Dev) (b bit_ : Nat) : (d.ovlCause b bit_).low = d.low := by
  unfold Dev.ovlCause
  simp

@[simp] theorem Dev.cloCause_low (d : Dev) (clo : List Nat) (b src : Nat) : (d.cloCause clo b src).low = d.low := by
  unfold Dev.cloCause
  simp

@[simp] theorem Dev.treeEnds_low (d : Dev) (t : Nat) : (d.treeEnds t).low = d.low := by
  unfold Dev.treeEnds
  dsimp only
  refine Dev.low_foldl (fun e x => ?_) _ _
  split <;> simp

@[simp] theorem Dev.occGone_low (d : Dev) (id mask : Nat) : (d.occGone id mask).low = d.low := by
  unfold Dev.occGone
  simp

@[simp] theorem Dev.countOutcome_low (d : Dev) (t : Nat) : (d.countOutcome t).low = d.low := by
  unfold Dev.countOutcome
  dsimp only
  split
  · exact (Dev.low_occs _ _).trans (by simp)
  · simp

@[simp] theorem Dev.treeCheck_low (d : Dev) (t : Nat) : (d.treeCheck t).low = d.low := by
  unfold Dev.treeCheck
  dsimp only
  repeat' split
  all_goals simp

@[simp] theorem Dev.settleRefs_low (f : Nat) (d : Dev) (t : Nat) : (Dev.settleRefs f d t).low = d.low := by
  induction f generalizing d with
  | zero => rfl
  | succ f ih =>
    unfold Dev.settleRefs
    split
    · rfl
    · simp [ih]

@[simp] theorem Dev.treeRefs_low (d : Dev) (t : Nat) : (d.treeRefs t).low = d.low := by
  unfold Dev.treeRefs
  simp

@[simp] theorem Dev.occDrop_low (d : Dev) (id mask : Nat) : (d.occDrop id mask).low = d.low := by
  unfold Dev.occDrop
  simp

@[simp] theorem Dev.cloQueue_low (d : Dev) (n : Nat) (r : CloRes) : (d.cloQueue n r).low = d.low := by
  unfold Dev.cloQueue
  simp

@[simp] theorem Dev.capNote_low (d : Dev) (id start chanOut shotOut : Nat) : (d.capNote id start chanOut shotOut).low = d.low := by
  unfold Dev.capNote
  simp

@[simp] theorem Dev.capAbort_low (d : Dev) (id : Nat) : (d.capAbort id).low = d.low := by
  unfold Dev.capAbort
  dsimp only
  rw [Dev.low_foldl (fun e x => by simp)]
  simp

@[simp] theorem Dev.occEnd_low (d : Dev) (id mask chanOut : Nat) : (d.occEnd id mask chanOut).low = d.low := by
  unfold Dev.occEnd
  dsimp only
  repeat' split
  all_goals simp

@[simp] theorem Dev.capBankChange_low (d : Dev) (b : Nat) : (d.capBankChange b).low = d.low := by
  unfold Dev.capBankChange
  simp

@[simp] theorem Dev.switchBank_low (d : Dev) (b : Nat) (want : Option Bool) : (d.switchBank b want).low = d.low := by
  unfold Dev.switchBank
  dsimp only
  repeat' split
  all_goals simp

@[simp] theorem Dev.slowToFast_low (d : Dev) (b : Nat) : (d.slowToFast b).low = d.low := by
  unfold Dev.slowToFast
  split
  · rfl
  · refine Dev.low_foldl (fun e x => ?_) _ _
    dsimp only
    split <;> simp

@[simp] theorem Dev.bankStatus_low (d : Dev) (b : Nat) : (d.bankStatus b).low = d.low := by
  unfold Dev.bankStatus
  simp

@[simp] theorem Dev.bankApply_low (d : Dev) (b : Nat) : (d.bankApply b).low = d.low := by
  unfold Dev.bankApply
  repeat' split
  all_goals simp

@[simp] theorem Dev.sawCurrent_low (d : Dev) (n cur : Nat) : (d.sawCurrent n cur).low = d.low := by
  unfold Dev.sawCurrent
  simp

@[simp] theorem Dev.boostOver_low (d : Dev) (n : Nat) : (d.boostOver n).low = d.low := by
  unfold Dev.boostOver
  split <;> simp

@[simp] theorem Dev.enterPhase_low (d : Dev) (n ph cur : Nat) : (d.enterPhase n ph cur).low = d.low := by
  unfold Dev.enterPhase
  simp

@[simp] theorem Dev.gotoPhase_low (d : Dev) (n ph cur : Nat) (wait : Bool) : (d.gotoPhase n ph cur wait).low = d.low := by
  unfold Dev.gotoPhase
  dsimp only
  repeat' split
  all_goals simp

@[simp] theorem Dev.occStart_low (d : Dev) (id at_ : Nat) : (d.occStart id at_).low = d.low := by
  unfold Dev.occStart
  dsimp only
  rw [Dev.treeCheck_low, Dev.low_foldl (fun e x => by split <;> simp)]
  simp

@[simp] theorem Dev.beginRun_low (d : Dev) (n at_ : Nat) : (d.beginRun n at_).low = d.low := by
  unfold Dev.beginRun
  dsimp only
  repeat' split
  all_goals simp

@[simp] theorem Dev.driveDrop_low (d : Dev) (n out diag : Nat) : (d.driveDrop n out diag).low = d.low := by
  unfold Dev.driveDrop
  dsimp only
  repeat' split
  all_goals simp

@[simp] theorem Dev.checkDrop_low (d : Dev) (n bit_ : Nat) : (d.checkDrop n bit_).low = d.low := by
  unfold Dev.checkDrop
  dsimp only
  repeat' split
  all_goals simp

@[simp] theorem Dev.overlapDrop_low (d : Dev) (n out : Nat) (priority : Bool) : (d.overlapDrop n out priority).low = d.low := by
  unfold Dev.overlapDrop
  dsimp only
  split <;> simp

@[simp] theorem Dev.takeBank_low (d : Dev) (n at_ cur : Nat) (wait : Bool) : (d.takeBank n at_ cur wait).low = d.low := by
  unfold Dev.takeBank
  dsimp only
  repeat' split
  all_goals simp

@[simp] theorem Dev.bankNext_low (f : Nat) (d : Dev) (b : Nat) : (Dev.bankNext f d b).low = d.low := by
  induction f generalizing d with
  | zero => rfl
  | succ f ih =>
    unfold Dev.bankNext
    dsimp only
    repeat' split
    all_goals simp [ih]

@[simp] theorem Dev.holderLeaves_low (d : Dev) (b : Nat) : (d.holderLeaves b).low = d.low := by
  unfold Dev.holderLeaves
  simp

@[simp] theorem Dev.releaseIf_low (d : Dev) (n : Nat) : (d.releaseIf n).low = d.low := by
  unfold Dev.releaseIf
  dsimp only
  repeat' split
  all_goals simp

@[simp] theorem Dev.toDecay_low (d : Dev) (n : Nat) (slow : Bool) : (d.toDecay n slow).low = d.low := by
  unfold Dev.toDecay
  dsimp only
  repeat' split
  all_goals simp

@[simp] theorem Dev.cutChan_low (d : Dev) (n mask : Nat) : (d.cutChan n mask).low = d.low := by
  unfold Dev.cutChan
  dsimp only
  repeat' split
  all_goals simp

@[simp] theorem Dev.stopOcc_low (d : Dev) (id mask : Nat) : (d.stopOcc id mask).low = d.low := by
  unfold Dev.stopOcc
  split <;> simp

@[simp] theorem Dev.stopAll_low (d : Dev) (ids : List Nat) (mask : Nat) {cnt : Option Nat} (h : ∀ c ∈ cnt, 0x35 ≤ c ∧ c < 256) :
    (d.stopAll ids mask cnt).low = d.low := by
  have note : ∀ (e : Dev) (k : Nat), (cnt.elim e (fun c => e.inc (0x2180 + k) c)).low = e.low := by
    intro e k
    cases cnt with
    | none => rfl
    | some c =>
      obtain ⟨h1, h2⟩ := h c rfl
      exact Dev.inc_low_count e k h1 h2
  have stop : ∀ (e : Dev) (id : Nat), (let o := e.occ id
      if o.st = .done then e else cnt.elim (e.stopOcc id mask) (fun c => (e.stopOcc id mask).inc (0x2180 + o.dom) c)).low = e.low := by
    intro e id
    dsimp only
    split
    · rfl
    · exact (note _ _).trans (by simp)
  unfold Dev.stopAll
  dsimp only
  rw [Dev.low_foldl stop, Dev.low_foldl stop, Dev.low_foldl (fun e t => by simp), Dev.low_foldl (fun e id => (note _ _).trans (by simp))]

@[simp] theorem Dev.stopWhere_low (d : Dev) (p : Occ → Bool) (mask : Nat) {cnt : Nat} (hu : 0x35 ≤ cnt) (hv : cnt < 256) :
    (d.stopWhere p mask cnt).low = d.low := by
  unfold Dev.stopWhere
  exact Dev.stopAll_low _ _ _ (fun c hc => by cases hc; exact ⟨hu, hv⟩)

@[simp] theorem Dev.stateSource_low (d : Dev) (dom : Nat) (any : Bool) : (d.stateSource dom any).low = d.low := by
  unfold Dev.stateSource
  simp

@[simp] theorem Dev.forgetArmed_low (d : Dev) (dom : Nat) : (d.forgetArmed dom).low = d.low := by
  unfold Dev.forgetArmed
  refine Dev.low_foldl (fun e x => ?_) _ _
  split <;> simp

@[simp] theorem Dev.readyDown_low (d : Dev) (x : Nat) : (d.readyDown x).low = d.low := by
  unfold Dev.readyDown
  dsimp only
  repeat' split
  all_goals simp

@[simp] theorem Dev.railOff_low (d : Dev) (x : Nat) : (d.railOff x).low = d.low := by
  unfold Dev.railOff
  dsimp only
  repeat' split
  all_goals simp

@[simp] theorem Dev.protStatus_low (d : Dev) : (d.protStatus).low = d.low := by
  unfold Dev.protStatus
  simp

@[simp] theorem Dev.addTree_low (d : Dev) (os : List Occ) : (d.addTree os).low = d.low := by
  unfold Dev.addTree
  simp

@[simp] theorem Dev.armTree_low (d : Dev) (dom rid c : Nat) : (d.armTree dom rid c).low = d.low := by
  unfold Dev.armTree
  dsimp only
  repeat' split
  all_goals simp

@[simp] theorem Dev.schedArm_low (d : Dev) (dom : Nat) : (d.schedArm dom).low = d.low := by
  unfold Dev.schedArm
  refine Dev.low_foldl (fun e x => ?_) _ _
  dsimp only
  repeat' split
  all_goals simp

@[simp] theorem Dev.windowCut_low (d : Dev) (occ n start : Nat) : (d.windowCut occ n start).low = d.low := by
  unfold Dev.windowCut
  rw [Dev.mapCaps_low, Dev.low_foldl (fun e x => by simp)]

@[simp] theorem Dev.laneAlloc_low (d : Dev) (id : Nat) (o : Occ) : (d.laneAlloc id o).1.low = d.low := by
  unfold Dev.laneAlloc
  dsimp only
  repeat' split
  all_goals simp

@[simp] theorem Dev.lockOcc_low (d : Dev) (id : Nat) (stale : Bool) : (d.lockOcc id stale).low = d.low := by
  unfold Dev.lockOcc
  dsimp only
  repeat' split
  all_goals simp

@[simp] theorem Dev.lateOcc_low (d : Dev) (id : Nat) : (d.lateOcc id).low = d.low := by
  unfold Dev.lateOcc
  dsimp only
  repeat' split
  all_goals simp

@[simp] theorem Dev.testOcc_low (d : Dev) (id : Nat) (again : Bool) : (d.testOcc id again).low = d.low := by
  unfold Dev.testOcc
  dsimp only
  repeat' split
  all_goals simp

@[simp] theorem Dev.lockDue_low (d : Dev) (id : Nat) : (d.lockDue id).low = d.low := by
  unfold Dev.lockDue
  dsimp only
  repeat' split
  all_goals simp

@[simp] theorem Dev.testPass_low (f : Nat) (b : Bool) (d : Dev) (l : List Nat) : (Dev.testPass f b d l).low = d.low := by
  induction f generalizing b d l with
  | zero => rfl
  | succ f ih =>
    unfold Dev.testPass
    dsimp only
    have h : (l.foldl (fun d id => d.testOcc id b) d).low = d.low := Dev.low_foldl (fun e x => by simp) _ _
    split
    · exact h
    · exact (ih _ _ _).trans h

@[simp] theorem Dev.testWhere_low (d : Dev) (p : Occ → Bool) : (d.testWhere p).low = d.low := by
  unfold Dev.testWhere
  rw [Dev.low_foldl (fun e x => by simp), Dev.testPass_low]

@[simp] theorem Dev.schedStart_low (d : Dev) (dom : Nat) : (d.schedStart dom).low = d.low := by
  unfold Dev.schedStart
  simp

@[simp] theorem Dev.halfGone_low (d : Dev) (t : Nat) : (d.halfGone t).low = d.low := by
  unfold Dev.halfGone
  dsimp only
  repeat' split
  all_goals simp

@[simp] theorem Dev.discardFire_low (d : Dev) (dom : Nat) : (d.discardFire dom).low = d.low := by
  unfold Dev.discardFire
  dsimp only
  rw [Dev.low_foldl (fun e t => by simp), Dev.low_occs, Dev.low_foldl (fun e t => by simp)]

@[simp] theorem Dev.stateCancel_low (d : Dev) (dom : Nat) (p : Occ → Bool) : (d.stateCancel dom p).low = d.low := by
  unfold Dev.stateCancel
  simp

@[simp] theorem Dev.lockNow_low (d : Dev) (dom : Nat) : (d.lockNow dom).low = d.low := by
  unfold Dev.lockNow
  split
  · rfl
  · exact Dev.low_foldl (fun e x => by simp) _ _

@[simp] theorem Dev.schedState_low (d : Dev) (dom old new : Nat) : (d.schedState dom old new).low = d.low := by
  unfold Dev.schedState
  dsimp only
  repeat' split
  all_goals simp

@[simp] theorem Dev.capStop_low (d : Dev) (scope : Nat → Nat → Bool) : (d.capStop scope).low = d.low := by
  unfold Dev.capStop
  dsimp only
  rw [Dev.low_foldl (fun e x => by simp)]

@[simp] theorem Dev.schedReverse_low (d : Dev) (dom : Nat) : (d.schedReverse dom).low = d.low := by
  unfold Dev.schedReverse
  simp

@[simp] theorem Dev.vetoScope_low (d : Dev) (doms slots : Nat) : (d.vetoScope doms slots).low = d.low := by
  unfold Dev.vetoScope
  simp

end Sys2Proof.Machine
end

