-- ==== Sys2Proof/Laws/Requests.lean ====
section
/-! SUPPORT. What an accepted request does: the response goes out, and the action of a command comes last. -/

namespace Sys2Proof.Machine

/-! ### The dictionary's blocks -/

/-- No two blocks of the index space share an index. -/
theorem objBlocks_apart : objBlocks.Pairwise (fun b c => b.first + b.count ≤ c.first ∨ c.first + c.count ≤ b.first) := by decide

theorem find?_apart {l : List ObjBlock} (hp : l.Pairwise (fun b c => b.first + b.count ≤ c.first ∨ c.first + c.count ≤ b.first))
    {b : ObjBlock} (hb : b ∈ l) {i : Nat} (h1 : b.first ≤ i) (h2 : i < b.first + b.count) :
    l.find? (fun b => decide (b.first ≤ i) && decide (i < b.first + b.count)) = some b := by
  induction l with
  | nil => cases hb
  | cons c l ih =>
    obtain ⟨hc, hl⟩ := List.pairwise_cons.mp hp
    rcases List.mem_cons.mp hb with rfl | hb
    · simp [h1, h2]
    · have := hc b hb
      rw [List.find?_cons_of_neg, ih hl hb]
      simp only [Bool.and_eq_true, decide_eq_true_eq]
      omega

/-- An index between the first and the last of a block belongs to that block. -/
theorem blockOf_eq {b : ObjBlock} (hb : b ∈ objBlocks) {i : Nat} (h1 : b.first ≤ i) (h2 : i < b.first + b.count) :
    blockOf i = some b := find?_apart objBlocks_apart hb h1 h2

/-! ### Requests -/

/-- The device as a served request's body finds it: taken up and staged. -/
abbrev Dev.served (d : Dev) (f : Frame) : Dev := (d.arrive f.req).staged f

/-- The WRITE of a value carries no padding. -/
@[simp] theorem frameUnpad_putFrame (r : Req) (idx sub count : Nat) (data : List Byte) :
    frameUnpad (putFrame r idx sub count data) = putFrame r idx sub count data := by
  unfold frameUnpad
  split
  · simp [putFrame]
  · rfl

/-- A served request: its body's answer is carried out. -/
theorem sop_of_serves {s : State} {t : Nat} {f : Frame} {segs : Nat} {nvOk : Bool} (h : s.serves t f segs nvOk = true) :
    (s.devAt t).sop (frameUnpad f) (Dev.sopBody s.loft (frameUnpad f) segs nvOk) =
      (let a := Dev.sopBody s.loft (frameUnpad f) segs nvOk ((s.devAt t).served (frameUnpad f))
       (a.after (a.dev.respond (frameUnpad f) a.st a.data a.first), a.eff)) := by
  simp only [State.serves, Bool.and_eq_true, Bool.not_eq_true', Option.isNone_iff_eq_none] at h
  obtain ⟨⟨⟨⟨h1, h0⟩, h2⟩, h3⟩, -⟩ := h
  simp [Dev.sop, h1, h0, h2, Dev.eccAnswer, h3]

/-- The status of a served request is OK. -/
theorem ok_of_serves {s : State} {t : Nat} {f : Frame} {segs : Nat} {nvOk : Bool} (h : s.serves t f segs nvOk = true) :
    (Dev.sopBody s.loft (frameUnpad f) segs nvOk ((s.devAt t).served (frameUnpad f))).st = .ok := by
  simp only [State.serves, Bool.and_eq_true, decide_eq_true_eq] at h
  exact h.2

/-- A refusal found in a list is one of the list's. -/
theorem firstStatus_mem {l : List (Status × Bool)} {st : Status} (h : firstStatus l = some st) : ∃ e ∈ l, e.1 = st := by
  induction l with
  | nil => simp [firstStatus] at h
  | cons e l ih =>
    obtain ⟨a, b⟩ := e
    unfold firstStatus at h
    split at h
    · cases h
      exact ⟨(_, b), List.mem_cons_self .., rfl⟩
    · obtain ⟨e, he, h⟩ := ih h
      exact ⟨e, List.mem_cons_of_mem _ he, h⟩

/-- No refusal of a write is OK. -/
theorem wRefusal_ne_ok {d : Dev} {valid : NvBank → Bool} {w : Wr} {st : Status} (h : d.wRefusal valid w = some st) : st ≠ .ok := by
  obtain ⟨e, he, rfl⟩ := firstStatus_mem h
  simp only [List.mem_cons, List.not_mem_nil, or_false] at he
  rcases he with rfl | rfl | rfl | rfl | rfl | rfl | rfl | rfl | rfl | rfl | rfl | rfl | rfl <;> simp

/-- Nor is the refusal of a write whose values do not fit its objects. -/
theorem shapeRefusal_ne_ok {d : Dev} {p idx : Nat} {b : ObjBlock} {subs : List Nat} : d.shapeRefusal p idx b subs ≠ .ok := by
  unfold Dev.shapeRefusal
  cases hf : firstStatus _ with
  | none => simp
  | some st =>
    obtain ⟨e, he, rfl⟩ := firstStatus_mem hf
    simp only [List.mem_cons, List.not_mem_nil, or_false] at he
    rcases he with rfl | rfl | rfl | rfl <;> simp

/-- A WRITE that is accepted is applied. -/
theorem sopWrite_ok {d : Dev} {f : Frame} (h : (d.sopWrite f).st = .ok) :
    ∃ b puts, blockOf f.index = some b ∧ splitPuts f.index (subsOf f) f.data = some puts ∧
      d.sopWrite f = d.applied (hostWr f.req.port f.index b puts) := by
  unfold Dev.sopWrite at h ⊢
  dsimp only at h ⊢
  split at h
  · split at h <;> simp [refuse] at h
  · next b hb =>
    split at h
    · split at h <;> simp [refuse] at h
    · next hrow =>
      rw [hb]
      simp only [if_neg hrow]
      split at h
      · exact absurd h shapeRefusal_ne_ok
      · next puts hs =>
        split at h
        · next st hw => exact absurd h (wRefusal_ne_ok hw)
        · next hw =>
          refine ⟨b, puts, rfl, ?_, ?_⟩
          · split at hs
            · cases hs
            · exact hs
          · rfl

/-- What a value of one object splits into. -/
theorem splitPuts_one {i u n v : Nat} {row : ObjRow} (hr : objRow i u = some row) (hn : row.ty.size = n) (hb : row.ty.isBlob = false)
    (hl : (leBytes n v).length = n) : splitPuts i [u] (leBytes n v) = some [⟨u, ofLe (leBytes n v), leBytes n v⟩] := by
  cases hty : row.ty <;> simp_all [splitPuts, OTy.isBlob] <;> simp [← hn] at hl ⊢ <;> simp_all [List.take_of_length_le]

@[simp] theorem leBytes_length (n v : Nat) : (leBytes n v).length = n := by
  induction n generalizing v with
  | zero => rfl
  | succ n ih => simp [leBytes, ih]

theorem ofLe_leBytes (n v : Nat) : ofLe (leBytes n v) = v % 256 ^ n := by
  induction n generalizing v with
  | zero => simp [leBytes, ofLe, Nat.mod_one]
  | succ n ih =>
    simp only [leBytes, ofLe, ih, BitVec.toNat_ofNat]
    rw [show (256 : Nat) ^ (n + 1) = 256 * 256 ^ n by ring, Nat.mod_mul]

/-- An accepted WRITE of one command's value: whatever else it does, the command's action comes last. -/
theorem takes_acts {s : State} {t : Nat} {r : Req} {i u n v : Nat} (h : s.takes t r i u n v = true) {b : ObjBlock} {row : ObjRow}
    (hb : blockOf i = some b) (hr : objRow i u = some row) (hc : row.acc = .cmd) (hn : row.ty.size = n)
    (hty : row.ty.isBlob = false) :
    ∃ e eff, (s.devAt t).putOne s.loft r i u n v =
      (Dev.command e (hostWr r.port i b [⟨u, v % 256 ^ n, leBytes n v⟩]) u (v % 256 ^ n), eff) := by
  have hs := sop_of_serves h
  have hok := ok_of_serves h
  rw [frameUnpad_putFrame] at hs hok
  have hbody : ∀ d, Dev.sopBody s.loft (putFrame r i u 1 (leBytes n v)) 0 true d = d.sopWrite (putFrame r i u 1 (leBytes n v)) :=
    fun _ => rfl
  rw [hbody] at hok
  obtain ⟨b', puts, hb', hp, ha⟩ := sopWrite_ok hok
  have hbb : b' = b := by
    have : blockOf i = some b' := hb'
    rw [hb] at this
    exact (Option.some.inj this).symm
  subst hbb
  have hsub : subsOf (putFrame r i u 1 (leBytes n v)) = [u] := by simp [subsOf, putFrame]
  rw [hsub] at hp
  have hp' : some puts = some [⟨u, v % 256 ^ n, leBytes n v⟩] := by
    rw [← hp]
    have := splitPuts_one (i := i) (u := u) (n := n) (v := v) hr hn hty (leBytes_length n v)
    rw [ofLe_leBytes] at this
    exact this
  cases hp'
  unfold Dev.putOne
  rw [hs]
  dsimp only
  rw [hbody, ha]
  have hcmd : ∀ e : Dev, Dev.commands e (hostWr r.port i b' [⟨u, v % 256 ^ n, leBytes n v⟩]) =
      Dev.command e (hostWr r.port i b' [⟨u, v % 256 ^ n, leBytes n v⟩]) u (v % 256 ^ n) := by
    intro e
    simp [Dev.commands, Wr.isCommand, hostWr, hr, hc]
  exact ⟨_, _, Prod.ext (hcmd _) rfl⟩

/-! ### What requests do to the Loft -/

/-- A request has no effect on the Loft beyond its body's. -/
theorem Dev.sop_eff {d : Dev} {f : Frame} {body : Dev → Answer} (h : ∀ e, (body e).eff = {}) : (d.sop f body).2 = {} := by
  unfold Dev.sop
  split
  · rfl
  · dsimp only
    split
    · rfl
    split
    · rfl
    · unfold Dev.eccAnswer
      dsimp only
      split
      · split
        · rfl
        · exact h _
      · exact h _

@[simp] theorem Dev.refuse_eff (d : Dev) (st : Status) : (refuse d st).eff = {} := rfl

/-- Only the Loft's own object belongs to the block of the Loft. -/
theorem blockOf_loft {i : Nat} {b : ObjBlock} (h : blockOf i = some b) (hk : b.kind = .loft) : i = 0x2D00 := by
  have hb := List.mem_of_find?_eq_some h
  have hr := List.find?_some h
  have : ∀ c ∈ objBlocks, c.kind = .loft → c.first = 0x2D00 ∧ c.count = 1 := by decide
  obtain ⟨h1, h2⟩ := this b hb hk
  simp only [Bool.and_eq_true, decide_eq_true_eq] at hr
  omega

/-- The values that a write splits into name the subindices of the request. -/
theorem splitPuts_subs {i : Nat} {subs : List Nat} {bs : List Byte} {puts : List Put} (h : splitPuts i subs bs = some puts) :
    puts.map (·.sub) = subs := by
  induction subs generalizing bs puts with
  | nil =>
    unfold splitPuts at h
    split at h
    · cases h
      rfl
    · cases h
  | cons s subs ih =>
    unfold splitPuts at h
    split at h
    · obtain ⟨-, h⟩ := Option.ite_none_right_eq_some.mp h
      obtain ⟨ps, hps, rfl⟩ := Option.map_eq_some_iff.mp h
      simp [ih hps]
    · cases h

/-- A write that does not name a Loft window stores nothing there. -/
theorem Dev.windowEff_none {d : Dev} {w : Wr} (h : w.kind = .loft → ∀ p ∈ w.puts, p.sub ≠ 0x30) : d.windowEff w = {} := by
  unfold Dev.windowEff
  split
  · next p hk hp => exact absurd (by simpa using List.find?_some hp) (h hk p (List.mem_of_find?_eq_some hp))
  · rfl

theorem Dev.sopWrite_eff {d : Dev} {f : Frame} (h : f.index = 0x2D00 → 0x30 ∉ subsOf f) : (d.sopWrite f).eff = {} := by
  unfold Dev.sopWrite
  dsimp only
  split
  · rfl
  · next b hb =>
    split
    · rfl
    · split
      · rfl
      · next puts hs =>
        split
        · rfl
        · refine Dev.windowEff_none (fun hk p hp hc => ?_)
          have hi : f.index = 0x2D00 := blockOf_loft hb hk
          have hss : splitPuts f.index (subsOf f) f.data = some puts := by
            split at hs
            · cases hs
            · exact hs
          exact h hi (by rw [← splitPuts_subs hss, ← hc]; exact List.mem_map_of_mem hp)

/-- A WRITE of one object stores nothing into the Loft, but for a window. -/
@[simp] theorem Dev.putOne_eff (d : Dev) (m : Store Byte) (r : Req) (i u n v : Nat) (h : i ≠ 0x2D00 ∨ u ≠ 0x30) :
    (d.putOne m r i u n v).2 = {} := by
  refine Dev.sop_eff (fun e => Dev.sopWrite_eff (fun hi => ?_))
  simp only [subsOf, putFrame] at hi ⊢
  simp
  omega

end Sys2Proof.Machine
end

