-- ==== Sys2Proof/Laws/Learned.lean ====
section
/-! SUPPORT. The length of an exported image: the objects of persistence L are few and small, whatever the device holds. -/

namespace Sys2Proof.Machine

theorem flatMap_length_le {α β : Type} (l : List α) (f : α → List β) (c : Nat) (h : ∀ x ∈ l, (f x).length ≤ c) :
    (l.flatMap f).length ≤ l.length * c := by
  induction l with
  | nil => simp
  | cons a l ih =>
    have h1 := h a (by simp)
    have h2 := ih (fun x hx => h x (by simp [hx]))
    simp only [List.flatMap_cons, List.length_append, List.length_cons]
    nlinarith

/-- No object of persistence L is longer than 2048 symbols. -/
theorem learned_rows_small : ∀ b ∈ objBlocks, ∀ r ∈ b.rows, r.persist = .l → r.ty.size ≤ 2048 := by decide +kernel

theorem savedData_length (d : Dev) (idx sub : Nat) (ty : OTy) : (d.savedData idx sub ty).length = ty.size := by
  cases ty <;> simp [Dev.savedData, OTy.size, leBytes_length, Dev.blobBytes]

/-- The body of an exported image is shorter than its length field can say (R496). -/
theorem Dev.imageBody_length (d : Dev) : d.imageBody.length < 2 ^ 32 := by
  have one : ∀ b ∈ objBlocks, ∀ i, ((List.range 256).flatMap (fun s => match b.row i s with
        | some r => if r.persist = .l then nvRecord (b.first + i) s (d.savedData (b.first + i) s r.ty) else []
        | none => [])).length ≤ 525824 := by
    intro b hb i
    refine (flatMap_length_le _ _ 2054 ?_).trans (by simp)
    intro s _
    cases hr : b.row i s with
    | none => simp
    | some r =>
      have hm : r ∈ b.rows := List.mem_of_find?_eq_some hr
      by_cases hp : r.persist = .l
      · have := learned_rows_small b hb r hm hp
        simp [hp, nvRecord, leBytes_length, savedData_length]
        omega
      · simp [hp]
  have blk : ∀ b ∈ objBlocks, ∀ keep : Nat → Bool, ((List.range b.count).flatMap (fun i =>
      if keep (b.first + i) then (List.range 256).flatMap (fun s => match b.row i s with
        | some r => if r.persist = .l then nvRecord (b.first + i) s (d.savedData (b.first + i) s r.ty) else []
        | none => []) else [])).length ≤ b.count * 525824 := by
    intro b hb keep
    refine (flatMap_length_le _ _ 525824 ?_).trans (by simp)
    intro i _
    split
    · exact one b hb i
    · simp
  have all : ∀ l : List ObjBlock, (∀ b ∈ l, b ∈ objBlocks) → ∀ keep : Nat → Bool,
      (l.flatMap (fun b => (List.range b.count).flatMap (fun i =>
      if keep (b.first + i) then (List.range 256).flatMap (fun s => match b.row i s with
        | some r => if r.persist = .l then nvRecord (b.first + i) s (d.savedData (b.first + i) s r.ty) else []
        | none => []) else []))).length ≤ (l.map (·.count)).sum * 525824 := by
    intro l hl keep
    induction l with
    | nil => simp
    | cons b l ih =>
      have h1 := blk b (hl b (by simp)) keep
      have h2 := ih (fun x hx => hl x (by simp [hx]))
      simp only [List.flatMap_cons, List.length_append, List.map_cons, List.sum_cons]
      nlinarith
  have hs : (objBlocks.map (·.count)).sum ≤ 8000 := by decide +kernel
  have := all objBlocks (fun _ h => h) (fun idx => decide (idx ≠ 0x5000))
  have h3 : d.imageBody.length ≤ (objBlocks.map (·.count)).sum * 525824 := this
  omega

end Sys2Proof.Machine
end

