-- ==== Sys2Proof/Laws/Loft.lean ====
section
/-! SUPPORT. The Loft: reading after writing, and the canonical form under every write and every command's effect. -/

namespace Sys2Proof.Machine

/-- The canonical form of the Loft, inside its addresses. -/
def loftWf (m : Store Byte) : Prop := Store.wf (fun _ => (0 : Byte)) m = true ∧ ∀ a v, m.find a = some v → a < loftSize

theorem Store.find_put_key {α : Type} [DecidableEq α] {dflt : Nat → α} {m : Store α} {k q : Nat} {v w : α}
    (h : (Store.put dflt m k v).find q = some w) : q = k ∨ m.find q = some w := by
  by_cases hq : q = k
  · exact .inl hq
  · right
    unfold Store.put at h
    split at h
    · rwa [Store.find_drop_ne _ hq] at h
    · rwa [Store.find_insert _ _ _ _ (Store.find_drop_self _ _), if_neg hq, Store.find_drop_ne _ hq] at h

theorem loftPut_wf (bs : List Byte) (a : Nat) {m : Store Byte} (h : loftWf m) : loftWf (loftPut m a bs) := by
  induction bs generalizing a m with
  | nil => exact h
  | cons b bs ih =>
    unfold loftPut
    apply ih
    split
    · next ha =>
      refine ⟨Store.wf_put _ a b h.1, fun q v hq => ?_⟩
      rcases Store.find_put_key hq with rfl | hq
      · exact ha
      · exact h.2 q v hq
    · exact h

theorem loftWf_nil : loftWf [] := ⟨rfl, fun _ _ h => by cases h⟩

/-- Every effect on the Loft keeps its form. -/
theorem LoftEff.apply_wf (e : LoftEff) {m : Store Byte} (h : loftWf m) : loftWf (e.apply m) := by
  unfold LoftEff.apply
  have h0 : loftWf (if e.clear then [] else m) := by
    split
    · exact loftWf_nil
    · exact h
  generalize (if e.clear then [] else m) = m0 at h0
  induction e.writes generalizing m0 with
  | nil => exact h0
  | cons w ws ih => exact ih _ (loftPut_wf _ _ h0)

@[simp] theorem LoftEff.apply_nothing (m : Store Byte) : LoftEff.apply {} m = m := rfl

@[simp] theorem LoftEff.apply_none (m : Store Byte) : LoftEff.none.apply m = m := rfl

@[simp] theorem LoftEff.apply_one (m : Store Byte) (a : Nat) (bs : List Byte) :
    LoftEff.apply { writes := [(a, bs)] } m = loftPut m a bs := rfl

/-- A symbol of the Loft after a run of symbols has been written. -/
theorem loftByte_put (bs : List Byte) (m : Store Byte) (a q : Nat) :
    loftByte (loftPut m a bs) q = if a ≤ q ∧ q < a + bs.length ∧ q < loftSize then bs.getD (q - a) 0 else loftByte m q := by
  induction bs generalizing a m with
  | nil =>
    rw [if_neg (by simp only [List.length_nil]; omega)]
    rfl
  | cons b bs ih =>
    unfold loftPut
    rw [ih]
    have hb : loftByte (if a < loftSize then Store.put (fun _ => (0 : Byte)) m a b else m) q =
        if q = a ∧ a < loftSize then b else loftByte m q := by
      by_cases ha : a < loftSize
      · rw [if_pos ha]
        unfold loftByte
        rw [Store.get_put]
        simp [ha]
      · simp [ha]
    rw [hb]
    simp only [List.length_cons]
    by_cases h1 : q = a
    · subst h1
      rw [if_neg (by omega)]
      by_cases h2 : q < loftSize
      · rw [if_pos ⟨rfl, h2⟩, if_pos ⟨Nat.le_refl _, by omega, h2⟩]
        simp
      · rw [if_neg (by omega), if_neg (by omega)]
    · rw [if_neg (c := q = a ∧ a < loftSize) (by omega)]
      by_cases h2 : a ≤ q ∧ q < a + (bs.length + 1) ∧ q < loftSize
      · rw [if_pos h2, if_pos (by omega)]
        have : q - a = (q - (a + 1)) + 1 := by omega
        rw [this]
        simp
      · rw [if_neg h2, if_neg (by omega)]

/-- A symbol outside the run that is written reads as before. -/
theorem loftByte_put_out {bs : List Byte} {m : Store Byte} {a q : Nat} (h : ¬(a ≤ q ∧ q < a + bs.length)) :
    loftByte (loftPut m a bs) q = loftByte m q := by
  rw [loftByte_put, if_neg]
  omega

end Sys2Proof.Machine
end

