-- ==== Sys2Proof/Laws/Ports.lean ====
section
/-! SUPPORT. What taking up a request, answering it and the traffic of a port leave alone: every object outside chapter 02. -/

namespace Sys2Proof.Machine

/-! ### Devices whose objects agree but for a set -/

theorem Dev.sameBut_refl (d : Dev) (P : Nat → Nat → Bool) : d.sameBut d P := fun _ _ _ _ => rfl

theorem Dev.sameBut.trans {d e f : Dev} {P : Nat → Nat → Bool} (h : d.sameBut e P) (g : e.sameBut f P) : d.sameBut f P :=
  fun i w hw hp => (g i w hw hp).trans (h i w hw hp)

theorem Dev.sameBut.mono {d e : Dev} {P Q : Nat → Nat → Bool} (h : d.sameBut e P) (hpq : ∀ i w, P i w = true → Q i w = true) :
    d.sameBut e Q := fun i w hw hq => h i w hw (by
  cases hp : P i w
  · rfl
  · rw [hpq i w hp] at hq
    cases hq)

theorem Dev.sameBut_of_regs {d e : Dev} {P : Nat → Nat → Bool} (h : e.regs = d.regs) : d.sameBut e P :=
  fun _ _ _ _ => Dev.obj_congr h ..

theorem Dev.sameBut.setObj {d e : Dev} {P : Nat → Nat → Bool} (h : d.sameBut e P) {i u : Nat} (v : Nat) (hu : u < 256)
    (hp : P i u = true) : d.sameBut (e.setObj i u v) P := fun j w hw hq => by
  rw [Dev.obj_setObj _ _ hu hw, if_neg, h j w hw hq]
  rintro ⟨rfl, rfl⟩
  rw [hp] at hq
  cases hq

theorem Dev.sameBut.inc {d e : Dev} {P : Nat → Nat → Bool} (h : d.sameBut e P) {i u : Nat} (hu : u < 256) (hp : P i u = true) :
    d.sameBut (e.inc i u) P := h.setObj _ hu hp

theorem Dev.sameBut.regs {d e f : Dev} {P : Nat → Nat → Bool} (h : d.sameBut e P) (hr : f.regs = e.regs) : d.sameBut f P :=
  h.trans (Dev.sameBut_of_regs hr)

theorem Dev.sameBut.foldl {α : Type} {d e : Dev} {P : Nat → Nat → Bool} {g : Dev → α → Dev} (l : List α) (h : d.sameBut e P)
    (hg : ∀ (f : Dev), ∀ x ∈ l, d.sameBut f P → d.sameBut (g f x) P) : d.sameBut (l.foldl g e) P := by
  induction l generalizing e with
  | nil => exact h
  | cons x l ih =>
    exact ih (hg e x (List.mem_cons_self ..) h) (fun f y hy hf => hg f y (List.mem_cons_of_mem _ hy) hf)

/-- The objects of chapter 02, of every subindex. -/
abbrev portObjs : Nat → Nat → Bool := fun i _ => portObj i

theorem portObj_mid {i : Nat} (h1 : 0x1100 ≤ i) (h2 : i ≤ 0x17FF) : portObj i = true := by simp [portObj, h1, h2]

/-! ### A request is taken up and answered -/

@[simp] theorem Dev.setPend_regs (d : Dev) (src tgt : Nat) (q : Pend) : (d.setPend src tgt q).regs = d.regs := rfl

@[simp] theorem Dev.setPort_regs (d : Dev) (p : Nat) (q : Port) : (d.setPort p q).regs = d.regs := rfl

theorem Dev.foldl_regs {α : Type} {g : Dev → α → Dev} (h : ∀ e x, (g e x).regs = e.regs) (l : List α) (d : Dev) :
    (l.foldl g d).regs = d.regs := by
  induction l generalizing d with
  | nil => rfl
  | cons x l ih => rw [List.foldl_cons, ih, h]

theorem Dev.postFirst_regs (d : Dev) (n : Nat) (ms : List Msg) : (d.postFirst n ms).regs = d.regs := by
  unfold Dev.postFirst
  split
  · rfl
  · exact Dev.foldl_regs (fun e m => Dev.post_regs e m) _ _

theorem Dev.sendBatch_portObjs (d : Dev) (n : Nat) (first : Bool) (hn : n < 6) : d.sameBut (d.sendBatch n first) portObjs := by
  unfold Dev.sendBatch
  dsimp only
  split
  · exact Dev.sameBut_of_regs rfl
  · refine Dev.sameBut.regs (Dev.sameBut.inc ?_ (by omega) (portObj_mid (by omega) (by omega))) (Dev.pulse_regs ..)
    refine Dev.sameBut_of_regs ?_
    rw [Dev.foldl_regs]
    · split
      · exact (Dev.postFirst_regs ..).trans rfl
      · exact (Dev.foldl_regs (fun e m => Dev.post_regs e m) _ _).trans rfl
    · intro e x
      split <;> rfl

theorem Dev.leaveDoze_portObjs (d : Dev) (p : Nat) (hp : p < 6) : d.sameBut (d.leaveDoze p) portObjs := by
  unfold Dev.leaveDoze
  dsimp only
  split
  · have h : d.sameBut ((d.setObj (0x1200 + p) 0x01 1).setPort p { (d.port p) with lastFrame := d.now }) portObjs :=
      Dev.sameBut.regs (Dev.sameBut.setObj (Dev.sameBut_refl _ _) _ (by omega) (portObj_mid (by omega) (by omega))) rfl
    split
    · exact h.trans (Dev.sendBatch_portObjs _ p true hp)
    · exact h
  · exact Dev.sameBut_refl _ _

theorem Dev.validFrame_portObjs (d : Dev) (p : Nat) (hp : p < 6) : d.sameBut (d.validFrame p) portObjs :=
  Dev.sameBut.trans (Dev.sameBut_of_regs rfl) (Dev.leaveDoze_portObjs _ p hp)

theorem Dev.frameIn_portObjs (d : Dev) (p : Nat) (peer : Bool) (hp : p < 6) : d.sameBut (d.frameIn p peer) portObjs := by
  have h : d.sameBut (d.inc (0x1100 + p) 0x04) portObjs :=
    Dev.sameBut.inc (Dev.sameBut_refl _ _) (by omega) (portObj_mid (by omega) (by omega))
  unfold Dev.frameIn
  dsimp only
  split
  · exact h.trans (Dev.validFrame_portObjs _ p hp)
  · exact h

/-- Taking up a request changes no object outside chapter 02. -/
theorem Dev.arrive_portObjs (d : Dev) (r : Req) : d.sameBut (d.arrive r) portObjs := by
  unfold Dev.arrive
  dsimp only
  split
  · split
    · exact Dev.sameBut_of_regs rfl
    · exact Dev.frameIn_portObjs _ _ _ r.port.isLt
  · exact Dev.frameIn_portObjs _ _ _ r.port.isLt

/-- A response changes no object outside chapter 02. -/
theorem Dev.respond_portObjs (d : Dev) (f : Frame) (st : Status) (data : List Byte) (first : Bool) :
    d.sameBut (d.respond f st data first) portObjs := by
  have hp := f.req.port.isLt
  unfold Dev.respond
  dsimp only
  have h : d.sameBut (if st = .busy then d.inc (0x1100 + f.req.port.val) 0x06 else d) portObjs := by
    split
    · exact Dev.sameBut.inc (Dev.sameBut_refl _ _) (by omega) (portObj_mid (by omega) (by omega))
    · exact Dev.sameBut_refl _ _
  split
  · exact h.regs rfl
  · exact h.regs (Dev.post_regs ..)

/-- A response that is not BUSY changes no object. -/
theorem Dev.respond_regs (d : Dev) (f : Frame) {st : Status} (data : List Byte) (first : Bool) (h : st ≠ .busy) :
    (d.respond f st data first).regs = d.regs := by
  unfold Dev.respond
  dsimp only
  rw [if_neg h]
  split
  · rfl
  · exact Dev.post_regs ..

/-- What a port posts is its newest message, but for the hop and the checksum that a datagram gets (R55). -/
theorem Dev.lastSent_post (d : Dev) (m : Msg) : ∃ n, (d.post m).lastSent m.port = some n ∧ n.op = m.op ∧ n.tag = m.tag ∧
    n.index = m.index ∧ n.sub = m.sub ∧ n.ctl = m.ctl ∧ n.data = m.data := by
  unfold Dev.post Dev.lastSent
  split
  · next h =>
    refine ⟨m, ?_, rfl, rfl, rfl, rfl, rfl, rfl⟩
    simp only [Dev.port, Dev.setPort, Store.get_put_self]
    simp
  · unfold Dev.transmit
    split <;> exact ⟨_, rfl, rfl, rfl, rfl, rfl, rfl, rfl⟩

/-- A response that goes out by the port is its newest message. -/
theorem Dev.respond_answered (d : Dev) (f : Frame) (st : Status) (data : List Byte) :
    (d.respond f st data false).answered f st data := by
  unfold Dev.answered Dev.respond
  dsimp only
  exact Dev.lastSent_post ..

end Sys2Proof.Machine
end

