-- ==== Sys2Proof/Machine/Gates.lean ====
section
/-! DEFINITION. What the gate pins and the logic pins show (R307). -/

namespace Sys2Proof.Machine

/-- The state of a gate pin: held to its source by the resistor that needs no supply, held below 0.5 V by the active clamp, or driven
to a level. -/
inductive GatePin where
  | passive | active | low | high
  deriving DecidableEq, Repr

/-- Every gate is held by a clamp: by the active clamp in the reset phases P1 to P7, at reset assertion, in configuration hold, in sleep
and under EXTEST, CLAMP or HIGHZ (R307, R516). -/
def Dev.gatesClamped (d : Dev) : Bool :=
  decide (d.obj 0x2F00 0x01 ≠ 8) || d.bit 0x2F00 0x02 1 || d.rst.heldPin || d.rst.slept.isSome || d.tapBlocks

/-- A gate pin of the power die, given whether its own group is clamped and whether it is driven high (R307). While the supply has not
risen above its threshold only the passive clamp is sure to hold. -/
def Dev.gatePin (d : Dev) (group on : Bool) : GatePin :=
  if d.rst.heldPower then .passive else if d.gatesClamped || group then .active else if on then .high else .low

/-- A drive group is held by the active clamp on its own: it has no power, or it is in its reset or in brown-out (R308, R520). -/
def Dev.groupClamped (d : Dev) (pd : Nat) : Bool :=
  !d.pdOn pd || d.rst.browned.contains pd || (d.rst.domReset = some pd && decide (d.obj 0x2F00 0x0A = 3))

/-- LSGn. -/
def Dev.lowGate (d : Dev) (n : Nat) : GatePin := d.gatePin (d.groupClamped (groupPd n)) (d.chan n).low

/-- BHBGb. -/
def Dev.boostGate (d : Dev) (b : Nat) : GatePin := d.gatePin (d.groupClamped (if b < 8 then 7 else 8)) (d.bank b).bhb

/-- BHSGb. -/
def Dev.supplyGate (d : Dev) (b : Nat) : GatePin := d.gatePin (d.groupClamped (if b < 8 then 7 else 8)) (d.bank b).bhs

/-- BSTx_GATE: a brown-out or a reset of a drive group does not affect it. -/
def Dev.railGate (d : Dev) (x : Nat) : GatePin := d.gatePin false (d.boostOn x)

/-- The logic pins have their weak pull-up from reset assertion until they are configured (R307). -/
def Dev.logicPulled (d : Dev) : Bool := !d.rst.pinsOut

/-- LPINk as the device leaves it: the level to which the enabled engine of its group drives it; none where it is an input or in no
enabled group and keeps its weak pull-up (R379 to R381), and while PD13 is off (R506, R507). -/
def Dev.lpinOwn (d : Dev) (k : Nat) : Option Bool :=
  if !d.runs 13 then none else
  ((List.range 8).find? (fun e => decide (d.obj (0x2C00 + e) 0x01 = 1 ∧ d.obj (0x2C00 + e) 0x03 ≤ k) &&
    d.pinOut e (k - d.obj (0x2C00 + e) 0x03))).map (fun e => (d.lan e).outs.testBit (k - d.obj (0x2C00 + e) 0x03))

/-- LPINk. -/
def Dev.lpin (d : Dev) (k : Nat) : Option Bool := (d.scanPin (.lpin k)).getD (d.lpinOwn k)

/-- HATTNn: low while the device pulls attention, else on its weak pull-up (R50, R89, R441). -/
def Dev.hattnPin (d : Dev) (n : Nat) : Option Bool := (d.scanPin (.hattn n)).getD (if d.hattnLow n then some false else none)

end Sys2Proof.Machine
end

