-- ==== Sys2Proof/Tests/Slice0.lean ====
section
/-! SUPPORT. Tests: for each check of well-formedness a term that it refuses, a check of the CRC and of an idle step, and for every statement with
hypotheses a state and operands that meet them, clause by clause. -/

open Sys2Proof Sys2Proof.Machine

namespace Sys2Proof.Tests

set_option linter.unusedVariables false
set_option Elab.async false

/-- A request whose fields are all in range. -/
def okReq (p : Fin 6) : Req := { port := p, tag := 1, peerAddr := 0, peerPort := 0, outstanding := 0, shareFree := 0 }

/-- A message of port P1 with `n` data symbols. -/
def okFrame (p : Fin 6) (n : Nat) : Frame := { req := okReq p, op := 0x01, index := 0x1000, sub := 1, ctl := 0, len := 4, data := List.replicate n 0 }

/-! The well-formedness checks: a term that each one passes and a term that each one refuses. -/

theorem test_wf_request : (okReq 1).wf = true := by decide
theorem test_wf_request_tag : Req.wf { okReq 1 with tag := 256 } = false := by decide
theorem test_wf_request_address : Req.wf { okReq 4 with peerAddr := 0x100000000 } = false := by decide
theorem test_wf_request_port : Req.wf { okReq 4 with peerPort := 65536 } = false := by decide
theorem test_wf_request_sum : Req.wf { okReq 4 with udpSum := 65536 } = false := by decide
theorem test_wf_frame : (okFrame 1 56).wf = true := by decide
theorem test_wf_frame_can_data : (okFrame 1 57).wf = false := by decide
theorem test_wf_frame_udp_data : (okFrame 4 65500).wf = false := by
  have h : (okFrame 4 65500).data.length = 65500 := List.length_replicate
  unfold Frame.wf
  rw [h]
  decide
theorem test_wf_frame_opcode : Frame.wf { okFrame 1 0 with op := 256 } = false := by decide
theorem test_wf_frame_index : Frame.wf { okFrame 1 0 with index := 65536 } = false := by decide
theorem test_wf_frame_sub : Frame.wf { okFrame 1 0 with sub := 256 } = false := by decide
theorem test_wf_frame_ctl : Frame.wf { okFrame 1 0 with ctl := 256 } = false := by decide
theorem test_wf_frame_len : Frame.wf { okFrame 1 0 with len := 65536 } = false := by decide
theorem test_wf_frame_request : Frame.wf { okFrame 1 0 with req := { okReq 1 with tag := 256 } } = false := by decide

/-- A request of lane 0 at the Loft. -/
def okLoft (addr size : Nat) (data : Option (List Byte)) : LoftReq :=
  { who := 0, addr := addr, size := size, data := data, since := 0, ecc := 0, frame := false }

theorem test_wf_loft : (okLoft 8 8 none).wf = true := by decide
theorem test_wf_loft_empty : (okLoft 8 0 none).wf = false := by decide
theorem test_wf_loft_long : (okLoft 8 9 none).wf = false := by decide
theorem test_wf_loft_data : (okLoft 8 2 (some [0])).wf = false := by decide
theorem test_wf_loft_access : Instr.wf (.loftAccess 0 1 [okLoft 8 8 none]) = true := by decide
theorem test_wf_loft_access_bank : Instr.wf (.loftAccess 0 2 [okLoft 8 8 none]) = false := by decide
theorem test_wf_loft_access_request : Instr.wf (.loftAccess 0 1 [okLoft 8 9 none]) = false := by decide

theorem test_wf_read : Instr.wf (.read 0 (okFrame 1 57)) = false := by decide
theorem test_wf_write : Instr.wf (.write 0 (okFrame 2 57)) = false := by decide
theorem test_wf_block_data : Instr.wf (.blockData 0 (okFrame 3 57) 0) = false := by decide
theorem test_wf_force_close : Instr.wf (.forceClose 0 { okReq 1 with tag := 256 } 1) = false := by decide
theorem test_wf_write_frame : Instr.wf (.writeFrame 0 (List.replicate 1039 0) false) = false := by decide +kernel
theorem test_wf_classical_discard : Instr.wf (.classicalDiscard 0 4) = false := by decide
theorem test_wf_bus_off : Instr.wf (.busOff 0 0) = false := by decide
theorem test_wf_bus_off_recovery : Instr.wf (.busOffRecovery 0 5) = false := by decide
theorem test_wf_bus_off_can : Instr.wf (.busOff 0 3) = true := by decide
theorem test_wf_fragments : Instr.wf (.fragmentsDiscarded 0 3) = false := by decide
theorem test_wf_arp_port : Instr.wf (.arpRequest 0 1 0) = false := by decide
theorem test_wf_arp_target : Instr.wf (.arpRequest 0 4 0x100000000) = false := by decide
theorem test_wf_echo_port : Instr.wf (.icmpEcho 0 1 0 []) = false := by decide
theorem test_wf_echo_target : Instr.wf (.icmpEcho 0 4 0x100000000 []) = false := by decide
theorem test_wf_link_fall : Instr.wf (.linkUpFall 0 3) = false := by decide
theorem test_wf_link_rise : Instr.wf (.linkUpRise 0 0) = false := by decide
theorem test_wf_link_rise_ethernet : Instr.wf (.linkUpRise 0 4) = true := by decide
theorem test_wf_temperatures : Instr.wf (.temperatureSample 0 (List.replicate 15 0) 0 0) = false := by decide
theorem test_wf_capture_code : Instr.wf (.captureEnd 0 0 [4096]) = false := by decide
theorem test_wf_capture_codes : Instr.wf (.captureEnd 0 0 [4095]) = true := by decide
theorem test_wf_learning_mask : Instr.wf (.resetLearning 0 (okReq 0) 0 256) = false := by decide
theorem test_wf_pressure_count : Instr.wf (.pressureSample 0 (List.replicate 23 0)) = false := by decide
theorem test_wf_pressure_code : Instr.wf (.pressureSample 0 (List.replicate 24 (-32769))) = false := by decide
theorem test_wf_pressure : Instr.wf (.pressureSample 0 (List.replicate 24 (-32768))) = true := by decide
theorem test_wf_vibration : Instr.wf (.vibrationSample 0 0 32768) = false := by decide
theorem test_wf_gstart_mask : Instr.wf (.gstartRelease 0 (okReq 0) 0x100000000) = false := by decide
theorem test_wf_lantern_pins : Instr.wf (.lanternTick 0 0 0x100000000) = false := by decide
theorem test_wf_injection_pins : Instr.wf (.injection 0 0 0x100000000) = false := by decide
theorem test_wf_program_room : Instr.wf (.programWrite 0 (okReq 0) 0 31 [0, 0]) = false := by decide
theorem test_wf_program_word : Instr.wf (.programWrite 0 (okReq 0) 0 31 [65536]) = false := by decide
theorem test_wf_program_last : Instr.wf (.programWrite 0 (okReq 0) 0 31 [65535]) = true := by decide
theorem test_wf_inject_word : Instr.wf (.inject 0 (okReq 0) 0 65536) = false := by decide
theorem test_wf_send_empty : Instr.wf (.send 0 (okReq 0) 0 []) = false := by decide
theorem test_wf_send_long : Instr.wf (.send 0 (okReq 0) 0 (List.replicate 65 0)) = false := by decide
theorem test_wf_ring_mask : Instr.wf (.ring 0 (okReq 0) 0x100000000) = false := by decide
theorem test_wf_answer_mask : Instr.wf (.answer 0 (okReq 0) 0x100000000) = false := by decide
theorem test_wf_domain_value : Instr.wf (.domainReq 0 (okReq 0) 65536) = false := by decide
theorem test_wf_extest_cells : Instr.wf (.extest 0 (List.replicate 127 false)) = false := by decide +kernel
theorem test_wf_sample_pins : Instr.wf (.samplePreload 0 (List.replicate 127 false) (List.replicate 128 false)) = false := by decide +kernel
theorem test_wf_sample_cells : Instr.wf (.samplePreload 0 (List.replicate 128 false) (List.replicate 129 false)) = false := by decide +kernel

/-! Small checks: the CRC and the idle step. -/

/-- The check value of CRC-32 over the digits 1 to 9 (R45). -/
theorem test_crc32 : crc32 [0x31, 0x32, 0x33, 0x34, 0x35, 0x36, 0x37, 0x38, 0x39] = 0xCBF43926 := by decide +kernel

/-- An empty queue idles. -/
theorem test_idle : step State.reset = .next State.reset := rfl

/-! The balls of the package and the boundary register: cells that spec/18_pins_and_package.md works out (R514). -/

theorem test_boundary_length : boundary.length = 128 := by decide +kernel
theorem test_boundary_lpin0 : boundary.getD 2 (.rsvd, .output) = (.lpin 0, .input) := by decide +kernel
theorem test_boundary_reset_n : boundary.getD 127 (.rsvd, .output) = (.resetN, .input) := by decide +kernel

/-- State.reset with some objects at other values: index, subindex, offset, value. -/
def wst (l : List (Nat × Nat × Nat × Nat)) : State :=
  { State.reset with dev := { State.reset.dev with
      regs := l.map (fun e => (okey e.1 e.2.1 e.2.2.1, e.2.2.2)) ++ resetRegs.filter (fun r => l.all (fun e => okey e.1 e.2.1 e.2.2.1 != r.1)) } }
/-- The same with other parts of the device changed. -/
def wstWith (l : List (Nat × Nat × Nat × Nat)) (f : Dev → Dev) : State := { wst l with dev := f (wst l).dev }
/-- A learned-data image without a record (R496). -/
def emptyImage : List Byte := State.reset.dev.imageHead 0 ++ leBytes 4 (crc32 (State.reset.dev.imageHead 0))

/-- The search for an instant stays within the bits it has. -/
theorem timeBits_lt (M : Model) (lo : Nat) (x : Rat) : ∀ b r, timeBits M lo x b r < r + 2 ^ b := by
  intro b
  induction b with
  | zero => intro r; simp [timeBits]
  | succ b ih =>
    intro r
    have h1 := ih (r + 2 ^ b)
    have h2 := ih r
    rw [timeBits, Nat.pow_succ]
    split <;> omega

/-- No angle is reached later than 2^47 quanta after the stamp of the last snap. -/
theorem timeOfWord_le (d : Dev) (k w : Nat) : d.timeOfWord k w ≤ (d.synth k).tk + 2 ^ 47 := by
  unfold Dev.timeOfWord Model.timeAt Model.timeOf
  have h1 := timeBits_lt (d.modelOf k) (d.modelOf k).tk
  have h2 := timeBits_lt (d.modelOf k) ((d.modelOf k).tk - 2 ^ 46)
  have htk : (d.modelOf k).tk = (d.synth k).tk := rfl
  dsimp only
  split
  · have := h1 (gamma (d.modelOf k).shape (d.modelOf k).revs (d.modelOf k).theta (angleDiff w (d.synth k).word + d.evalError k (w + 1))) 46 0
    omega
  · have := h2 (gamma (d.modelOf k).shape (d.modelOf k).revs (d.modelOf k).theta (angleDiff w (d.synth k).word + d.evalError k (w + 1))) 47 0
    omega

/-- A domain in step expects its next edge by then. -/
theorem expected_le (d : Dev) (n : Nat) (hk : d.obj (0x2100 + n) 0x01 = 0)
    (h : d.obj (0x2100 + n) 0x02 = 0 ∧ (d.domState 0 = 2 ∨ d.domState 0 = 3) ∨
      d.obj (0x2100 + n) 0x02 = 1 ∧ (d.domState 0 = 3 ∨ d.domState 0 = 4)) :
    d.expected n ≤ (((d.synth 0).tk + 2 ^ 47 : Nat) : Rat) := by
  have key : ∀ w last, ((d.timeOfWord 0 w - last : Nat) : Rat) ≤ (((d.synth 0).tk + 2 ^ 47 : Nat) : Rat) := by
    intro w last
    have := timeOfWord_le d 0 w
    exact Nat.cast_le.mpr (by omega)
  unfold Dev.expected
  dsimp only
  rw [hk, if_neg (by omega)]
  rcases h with ⟨hr, hs⟩ | ⟨hr, hs⟩
  · rw [hr, if_pos (by rcases hs with hs | hs <;> simp [hs])]
    exact key _ _
  · rw [hr, if_neg (by simp), if_pos (by rcases hs with hs | hs <;> simp [hs])]
    exact key _ _

/-- So three times that interval after an edge has passed on a late enough clock. -/
theorem late_lt (d : Dev) (n : Nat) (hk : d.obj (0x2100 + n) 0x01 = 0)
    (h : d.obj (0x2100 + n) 0x02 = 0 ∧ (d.domState 0 = 2 ∨ d.domState 0 = 3) ∨
      d.obj (0x2100 + n) 0x02 = 1 ∧ (d.domState 0 = 3 ∨ d.domState 0 = 4))
    (hn : d.obj (0x2100 + n) 0x0C + 3 * ((d.synth 0).tk + 2 ^ 47) < d.now) :
    ((d.obj (0x2100 + n) 0x0C : Nat) : Rat) + 3 * d.expected n < ((d.now : Nat) : Rat) := by
  have h1 := expected_le d n hk h
  have h2 : (((d.obj (0x2100 + n) 0x0C + 3 * ((d.synth 0).tk + 2 ^ 47) : Nat)) : Rat) < ((d.now : Nat) : Rat) := Nat.cast_lt.mpr hn
  push_cast at h1 h2
  linarith

/-- An input with no change in its filter has no edge pending. -/
theorem edgePending_none (d : Dev) (n : Nat) (x : Rat) (h : (d.wheel n).filt = none) : d.edgePending [n] x = false := by
  simp [Dev.edgePending, h]

/-- An angle-triggered frame whose answer is due, from facts of the state that do not evaluate the angle. -/
theorem frameTrigger_met (s : State) (t : Nat) (n : Fin 64) (slot : Fin 24) (angle : Nat)
    (ha : (s.devAt t).cycAngle n slot = some angle)
    (hl : ((s.devAt t).synth ((s.devAt t).obj (0x1400 + n.val) 0x05)).live = true)
    (hs : 2 ≤ (s.devAt t).domState ((s.devAt t).obj (0x1400 + n.val) 0x05) ∧ (s.devAt t).domState ((s.devAt t).obj (0x1400 + n.val) 0x05) ≤ 4)
    (hr : (s.devAt t).runs 12 = true ∧ (s.devAt t).pdOn 5 = true ∧ (s.devAt t).obj (0x1400 + n.val) 0x01 = 1)
    (hf : ((s.devAt t).cycFrame n).fired = [] ∧ ((s.devAt t).cycFrame n).due = 0) :
    ∃ s : State, ∃ t : Nat, ∃ n : Fin 64, ∃ slot : Fin 24, ∃ target : Nat,
      let i := 0x1400 + n.val
      let d := s.devAt t
      let k := d.obj i 0x05
      ∃ angle ∈ d.cycAngle n slot, target = angleWord ((d.estAt k d.now : Int) - ((d.estAt k d.now % auCycle + auCycle - angle) % auCycle :
        Nat)) ∧ ∃ z_ ∈ d.answer k target,
      let time := z_.1
      d.runs 12 = true ∧ d.pdOn 5 = true ∧ d.obj i 0x01 = 1 ∧ (d.cycFrame n).fresh (d.cycKey n slot) target time = true := by
  refine ⟨s, t, n, slot, angleWord (((s.devAt t).estAt ((s.devAt t).obj (0x1400 + n.val) 0x05) (s.devAt t).now : Int) -
    (((s.devAt t).estAt ((s.devAt t).obj (0x1400 + n.val) 0x05) (s.devAt t).now % auCycle + auCycle - angle) % auCycle : Nat)), ?_⟩
  dsimp only
  refine ⟨angle, by rw [ha]; rfl, rfl, ?_⟩
  unfold Dev.answer
  rw [hl, if_pos (by simp [hs.1, hs.2])]
  exact ⟨_, rfl, hr.1, hr.2.1, hr.2.2, (by simp [Cyc.fresh, hf.1, hf.2])⟩

/-! The hypotheses of the statements can be met. -/


/-- The hypotheses of StepTakesFront can be met, in every clause. -/
theorem witness_StepTakesFront :
  (∃ s u : State, step s = .next u) ∧
  (∃ s : State, s.pending = []) :=
  ⟨⟨State.reset, State.reset, rfl⟩, ⟨State.reset, rfl⟩⟩

/-- The hypotheses of StopsOnlyAtLoftAccess can be met, in every clause. -/
theorem witness_StopsOnlyAtLoftAccess :
  (∃ e, exec (.loftAccess 0 0 [{ who := 20, addr := 0xC00000, size := 1, data := none, since := 0, ecc := 0, frame := false }]) State.reset
      = .fault e) ∧
  (∃ e, exec (.loftAccess 0 0 [{ who := 20, addr := 0x7, size := 2, data := none, since := 0, ecc := 0, frame := false }]) State.reset =
      .fault e) :=
  ⟨⟨.loftAddress, rfl⟩, ⟨.loftSpan, rfl⟩⟩



/-- The hypotheses of StepKeepsLoftForm can be met, in every clause. -/
theorem witness_StepKeepsLoftForm :
  (∃ s u : State, s.loftInv ∧ step s = .next u) :=
  ⟨State.reset, State.reset, ⟨rfl, fun a v h => by cases h⟩, rfl⟩

/-- The hypotheses of LoftUnchanged can be met, in every clause. -/
theorem witness_LoftUnchanged :
  (∃ c s u, Instr.sparesLoft c = true ∧ exec c s = .next u) :=
  ⟨.keepAlive 0, State.reset, _, rfl, rfl⟩

/-- The hypotheses of ReadAndPingAnswer can be met, in every clause. -/
theorem witness_ReadAndPingAnswer :
  (∃ s : State, ∃ t : Nat, ∃ f : Frame, s.admits t f = true ∧
    let e := (s.devAt t).arrive f.req
    let p := f.req.port.val
    let subs := subsOf f
    f.op = 0x01 ∧ (∀ w ∈ subs, (objRow f.index w).isSome = true) ∧ (e.sessOpen p = true ∨ openRead f.index = true) ∧ (e.sessOpen p = true →
      e.gatesShut p f.index subs = false) ∧ (∀ w ∈ subs.dropLast, isBlob f.index w = false) ∧ (∀ w ∈ subs, blockOnly f.index w = true →
      writeOnly f.index w = true) ∧ (subs.map (e.readLen p f.index)).foldl (· + ·) 0 ≤ maxData p ∧ e.foreignBox p f.index subs = false ∧
      (readsWindow f.index subs = true → e.windowOk p false = true) ∧ e.meetsBad (e.obj 0x2D00 (0x20 + p)) (e.obj 0x2D00 (0x28 + p)) =
      false) ∧
  (∃ s : State, ∃ t : Nat, ∃ f : Frame, s.admits t f = true ∧
    let e := (s.devAt t).arrive f.req
    let p := f.req.port.val
    f.op = 0x0C ∧ e.sessOpen p = true ∧ e.feature p 0 0 = true ∧ f.index = 0 ∧ f.sub = 0) :=
  ⟨⟨(wst []), 0,
    ({ req := { port := 0, tag := 1, peerAddr := 0, peerPort := 0, outstanding := 0, shareFree := 262144, udpSum := 0 }, op := 1, index := 4120, sub := 0, ctl := 1, len := 0, data := [] }),
    (by dsimp only; decide +kernel)⟩, ⟨(wst [(0x1200, 0x1, 0, 1), (0x1200, 0x3, 0, 0xFFFFFFFF)]), 0,
    ({ req := { port := 0, tag := 1, peerAddr := 0, peerPort := 0, outstanding := 0, shareFree := 262144, udpSum := 0 }, op := 12, index := 0, sub := 0, ctl := 0, len := 0, data := [] }),
    (by dsimp only; decide +kernel)⟩⟩

/-- The hypotheses of WriteStores can be met, in every clause. -/
theorem witness_WriteStores :
  (∃ s : State, ∃ t : Nat, ∃ f : Frame, f.op = 0x02 ∧ s.admits t f = true ∧
    let g := frameUnpad f
    let p := f.req.port.val
    (∀ w ∈ subsOf f, (objRow f.index w).isSome = true ∧ blockOnly f.index w = false) ∧ g.data.length ≤ maxData p ∧ ∃ b ∈ blockOf f.index, ∃
      puts ∈ splitPuts f.index (subsOf f) g.data,
    let w := hostWr p f.index b puts
    (((s.devAt t).arrive f.req).staged g).wRefusal savedBankValid w = none) :=
  ⟨(wst [(0x1200, 0x1, 0, 1), (0x1200, 0x3, 0, 0xFFFFFFFF)]), 0,
    ({ req := { port := 0, tag := 1, peerAddr := 0, peerPort := 0, outstanding := 0, shareFree := 262144, udpSum := 0 }, op := 2, index := 5632, sub := 1, ctl := 1, len := 1, data := [0x05#8] }),
    (by dsimp only; decide +kernel)⟩

/-- The hypotheses of RefusalsInOrder can be met, in every clause. -/
theorem witness_RefusalsInOrder :
  (∃ s : State, ∃ t : Nat, ∃ f : Frame, f.op = 0x02 ∧ (s.devAt t).comes (frameUnpad f) = true ∧ (s.devAt t).datagramBad (frameUnpad f) =
      false ∧
    let e := (s.devAt t).arrive f.req
    let g := frameUnpad f
    e.portBusy g = true) ∧
  (∃ s : State, ∃ t : Nat, ∃ f : Frame, f.op = 0x02 ∧ (s.devAt t).comes (frameUnpad f) = true ∧ (s.devAt t).datagramBad (frameUnpad f) =
      false ∧
    let e := (s.devAt t).arrive f.req
    let g := frameUnpad f
    let absent := blockOf f.index = none ∨ ∃ w ∈ subsOf f, objRow f.index w = none
    e.sopGate g = none ∧ (e.port f.req.port).eccHit = false ∧ absent ∧ e.sessOpen f.req.port = false) ∧
  (∃ s : State, ∃ t : Nat, ∃ f : Frame, f.op = 0x02 ∧ (s.devAt t).comes (frameUnpad f) = true ∧ (s.devAt t).datagramBad (frameUnpad f) =
      false ∧
    let e := (s.devAt t).arrive f.req
    let g := frameUnpad f
    let absent := blockOf f.index = none ∨ ∃ w ∈ subsOf f, objRow f.index w = none
    e.sopGate g = none ∧ (e.port f.req.port).eccHit = false ∧ absent ∧ e.sessOpen f.req.port = true) ∧
  (∃ s : State, ∃ t : Nat, ∃ f : Frame, f.op = 0x02 ∧ (s.devAt t).comes (frameUnpad f) = true ∧ (s.devAt t).datagramBad (frameUnpad f) =
      false ∧
    let e := (s.devAt t).arrive f.req
    let g := frameUnpad f
    let absent := blockOf f.index = none ∨ ∃ w ∈ subsOf f, objRow f.index w = none
    e.sopGate g = none ∧ (e.port f.req.port).eccHit = false ∧ (¬absent) ∧ ∃ b ∈ blockOf f.index, b.kind.quiet = true ∧ b.kind ≠ .reset ∧
      e.sessOpen f.req.port = false) :=
  ⟨⟨(wst []), 0,
    ({ req := { port := 0, tag := 1, peerAddr := 0, peerPort := 0, outstanding := 3000, shareFree := 262144, udpSum := 0 }, op := 2, index := 5632, sub := 1, ctl := 1, len := 1, data := [0x05#8] }),
    (by dsimp only; decide +kernel)⟩, ⟨(wst []), 0,
    ({ req := { port := 0, tag := 1, peerAddr := 0, peerPort := 0, outstanding := 0, shareFree := 262144, udpSum := 0 }, op := 2, index := 39321, sub := 1, ctl := 1, len := 1, data := [0x05#8] }),
    (by dsimp only; decide +kernel)⟩, ⟨(wst [(0x1200, 0x1, 0, 1)]), 0,
    ({ req := { port := 0, tag := 1, peerAddr := 0, peerPort := 0, outstanding := 0, shareFree := 262144, udpSum := 0 }, op := 2, index := 39321, sub := 1, ctl := 1, len := 1, data := [0x05#8] }),
    (by dsimp only; decide +kernel)⟩, ⟨(wst []), 0,
    ({ req := { port := 2, tag := 1, peerAddr := 0, peerPort := 0, outstanding := 0, shareFree := 262144, udpSum := 0 }, op := 2, index := 5632, sub := 1, ctl := 1, len := 1, data := [0x05#8] }),
    (by dsimp only; decide +kernel)⟩⟩

/-- The hypotheses of BlockTransfersRun can be met, in every clause. -/
theorem witness_BlockTransfersRun :
  (∃ s : State, ∃ t : Nat, ∃ f : Frame, f.op = 0x03 ∧ s.serves t f 0 true = true) ∧
  (∃ s : State, ∃ t : Nat, ∃ f : Frame, ∃ segs : Nat, f.op = 0x04 ∧ s.serves t f segs true = true) ∧
  (∃ s : State, ∃ t : Nat, ∃ f : Frame, ∃ ok : Bool, f.op = 0x05 ∧ s.serves t f 0 ok = true ∧ ∃ x ∈ ((s.devAt t).arrive f.req).xferOf f,
      x.isWrite = false) ∧
  (∃ s : State, ∃ t : Nat, ∃ p : Fin 6, ∃ x ∈ ((s.devAt t).port p).xfer, (s.devAt t).runs 12 = true ∧ x.last + tqSec ≤ (s.devAt t).now) ∧
  (∃ s : State, ∃ t : Nat, ∃ f : Frame, ∃ ok : Bool, f.op = 0x05 ∧ s.serves t f 0 ok = true ∧ ∃ x ∈ ((s.devAt t).arrive f.req).xferOf f,
      x.isWrite = true ∧ x.ctl ≤ 1 ∧ ∃ b ∈ blockOf x.index, b.kind.quiet = true ∧ ∃ row ∈ objRow x.index x.sub, row.ty.isBlob = false ∧
      unstored b.kind x.sub row.acc = false) :=
  ⟨⟨(wst [(0x1200, 0x1, 0, 1), (0x1200, 0x3, 0, 0xFFFFFFFF)]), 0,
    ({ req := { port := 0, tag := 1, peerAddr := 0, peerPort := 0, outstanding := 0, shareFree := 262144, udpSum := 0 }, op := 3, index := 8192, sub := 1, ctl := 3, len := 8, data := [0x01#8, 0x00#8, 0x00#8, 0x00#8, 0x00#8, 0x00#8, 0x00#8, 0x00#8] }),
    (by decide +kernel)⟩, ⟨(wstWith [(0x1200, 0x1, 0, 1), (0x1200, 0x3, 0, 0xFFFFFFFF)] (fun d =>
    { d with ports := [(0, { xfer := some { isWrite := false, index := 8192, sub := 1, ctl := 3, total := 20, seq := 0, data := [0x03#8, 0x03#8, 0x03#8, 0x03#8, 0x03#8, 0x03#8, 0x03#8, 0x03#8, 0x03#8, 0x03#8, 0x03#8, 0x03#8, 0x03#8, 0x03#8, 0x03#8, 0x03#8, 0x03#8, 0x03#8, 0x03#8, 0x03#8], short := false, last := 100000000000 } })] })),
    0,
    ({ req := { port := 0, tag := 1, peerAddr := 0, peerPort := 0, outstanding := 0, shareFree := 262144, udpSum := 0 }, op := 4, index := 8192, sub := 1, ctl := 3, len := 2, data := [0x00#8, 0x00#8] }),
    0, (by decide +kernel)⟩, ⟨(wstWith [(0x1200, 0x1, 0, 1), (0x1200, 0x3, 0, 0xFFFFFFFF)] (fun d =>
    { d with ports := [(0, { xfer := some { isWrite := false, index := 8192, sub := 1, ctl := 3, total := 20, seq := 0, data := [0x03#8, 0x03#8, 0x03#8, 0x03#8, 0x03#8, 0x03#8, 0x03#8, 0x03#8, 0x03#8, 0x03#8, 0x03#8, 0x03#8, 0x03#8, 0x03#8, 0x03#8, 0x03#8, 0x03#8, 0x03#8, 0x03#8, 0x03#8], short := false, last := 100000000000 } })] })),
    0,
    ({ req := { port := 0, tag := 1, peerAddr := 0, peerPort := 0, outstanding := 0, shareFree := 262144, udpSum := 0 }, op := 5, index := 8192, sub := 1, ctl := 3, len := 0, data := [] }),
    false, (by decide +kernel)⟩, ⟨(wstWith [] (fun d =>
    { d with now := 100000000000, ports := [(0, { xfer := some { isWrite := true, index := 5632, sub := 1, ctl := 1, total := 1, seq := 1, data := [0x05#8], short := false, last := 9 } })] })),
    0, 0, (by decide +kernel)⟩, ⟨(wstWith [(0x1200, 0x1, 0, 1), (0x1200, 0x3, 0, 0xFFFFFFFF)] (fun d =>
    { d with ports := [(0, { xfer := some { isWrite := true, index := 5632, sub := 1, ctl := 1, total := 1, seq := 1, data := [0x05#8], short := false, last := 9 } })] })),
    0,
    ({ req := { port := 0, tag := 1, peerAddr := 0, peerPort := 0, outstanding := 0, shareFree := 262144, udpSum := 0 }, op := 5, index := 5632, sub := 1, ctl := 1, len := 4, data := [0x02#8, 0x1b#8, 0x68#8, 0xa2#8] }),
    false, (by decide +kernel)⟩⟩

/-- The hypotheses of ClaimsChange can be met, in every clause. -/
theorem witness_ClaimsChange :
  (∃ s : State, ∃ t : Nat, ∃ f : Frame, f.op = 0x06 ∧ s.serves t f 0 true = true) ∧
  (∃ s : State, ∃ t : Nat, ∃ f : Frame, f.op = 0x07 ∧ s.serves t f 0 true = true) ∧
  (∃ s : State, ∃ t : Nat, ∃ p : Fin 6, (s.devAt t).runs 12 = true ∧ (s.devAt t).sessOpen p = false ∧ ((s.devAt t).port p).holdSince +
      ((s.devAt t).port p).holdMs * tqMs ≤ (s.devAt t).now) :=
  ⟨⟨(wst [(0x1200, 0x1, 0, 1), (0x1200, 0x3, 0, 0xFFFFFFFF)]), 0,
    ({ req := { port := 0, tag := 1, peerAddr := 0, peerPort := 0, outstanding := 0, shareFree := 262144, udpSum := 0 }, op := 6, index := 0, sub := 0, ctl := 0, len := 4, data := [0x05#8, 0x00#8, 0x01#8, 0x00#8] }),
    (by decide +kernel)⟩, ⟨(wst [(0x1200, 0x1, 0, 1), (0x1200, 0x3, 0, 0xFFFFFFFF), (0x1700, 0x2, 0, 0)]), 0,
    ({ req := { port := 0, tag := 1, peerAddr := 0, peerPort := 0, outstanding := 0, shareFree := 262144, udpSum := 0 }, op := 7, index := 0, sub := 0, ctl := 0, len := 4, data := [0x01#8, 0x00#8, 0x01#8, 0x00#8] }),
    (by decide +kernel)⟩, ⟨(wstWith [] (fun d => { d with now := 100000000000 })), 0, 1, (by decide +kernel)⟩⟩

/-- The hypotheses of SessionsOpenAndClose can be met, in every clause. -/
theorem witness_SessionsOpenAndClose :
  (∃ s : State, ∃ t : Nat, ∃ f : Frame, f.op = 0x08 ∧ s.serves t f 0 true = true) ∧
  (∃ s : State, ∃ t : Nat, ∃ f : Frame, f.op = 0x09 ∧ s.serves t f 0 true = true) ∧
  (∃ s : State, ∃ t : Nat, ∃ p : Fin 6, (s.devAt t).runs 12 = true ∧ (s.devAt t).obj (0x1200 + p) 0x01 = 1 ∧ ((s.devAt t).port p).lastFrame
      + ((s.devAt t).port p).timeoutMs * tqMs ≤ (s.devAt t).now) ∧
  (∃ s : State, ∃ t : Nat, ∃ p : Fin 6, (s.devAt t).runs 12 = true ∧ (s.devAt t).obj (0x1200 + p) 0x01 = 2 ∧ ((s.devAt t).port p).dozeMs ≠ 0
      ∧ ((s.devAt t).port p).dozeSince + ((s.devAt t).port p).dozeMs * tqMs ≤ (s.devAt t).now) ∧
  (∃ s : State, ∃ t : Nat, ∃ r : Req, ∃ n : Fin 6, s.takes t r (0x1200 + n) 0x0B 1 1 = true ∧ (s.devAt t).sessOpen n = true) :=
  ⟨⟨(wst []), 0,
    ({ req := { port := 0, tag := 1, peerAddr := 0, peerPort := 0, outstanding := 0, shareFree := 262144, udpSum := 0 }, op := 8, index := 0, sub := 0, ctl := 0, len := 20, data := [0x01#8, 0x00#8, 0x00#8, 0x00#8, 0xff#8, 0xff#8, 0xff#8, 0xff#8, 0xff#8, 0xff#8, 0xff#8, 0xff#8, 0xff#8, 0xff#8, 0xff#8, 0xff#8, 0xff#8, 0xff#8, 0xff#8, 0xff#8] }),
    (by decide +kernel)⟩, ⟨(wst [(0x1200, 0x1, 0, 1)]), 0,
    ({ req := { port := 0, tag := 1, peerAddr := 0, peerPort := 0, outstanding := 0, shareFree := 262144, udpSum := 0 }, op := 9, index := 0, sub := 0, ctl := 0, len := 0, data := [] }),
    (by decide +kernel)⟩, ⟨(wstWith [(0x1200, 0x1, 0, 1)] (fun d => { d with now := 100000000000 })), 0, 0, (by decide +kernel)⟩, ⟨(wstWith
    [(0x1203, 0x1, 0, 2)] (fun d => { d with now := 100000000000, ports := [(3, { dozeMs := 5 }), (0, { dozeMs := 5 })] })), 0, 3,
    (by decide +kernel)⟩, ⟨(wst [(0x1200, 0x1, 0, 1), (0x1700, 0x1, 0, 0)]), 0,
    ({ port := 0, tag := 1, peerAddr := 0, peerPort := 0, outstanding := 0, shareFree := 262144, udpSum := 0 }), 0, (by decide +kernel)⟩⟩

/-- The hypotheses of DozeAndAck can be met, in every clause. -/
theorem witness_DozeAndAck :
  (∃ s : State, ∃ t : Nat, ∃ f : Frame, f.op = 0x0A ∧ s.serves t f 0 true = true ∧ (s.devAt t).obj (0x1200 + f.req.port.val) 0x01 ≤ 2) ∧
  (∃ s : State, ∃ t : Nat, (s.devAt t).runs 12 = true ∧ (s.devAt t).obj 0x1200 0x01 = 1 ∧ (s.devAt t).feature 0 0 4 = true) ∧
  (∃ s : State, ∃ t : Nat, (s.devAt t).runs 12 = true ∧ (s.devAt t).obj 0x1200 0x01 = 2) ∧
  (∃ s : State, ∃ t : Nat, ∃ f : Frame, f.op = 0x0B ∧ s.serves t f 0 true = true) :=
  ⟨⟨(wst [(0x1200, 0x1, 0, 1), (0x1200, 0x3, 0, 0xFFFFFFFF)]), 0,
    ({ req := { port := 0, tag := 1, peerAddr := 0, peerPort := 0, outstanding := 0, shareFree := 262144, udpSum := 0 }, op := 10, index := 0, sub := 0, ctl := 0, len := 0, data := [] }),
    (by decide +kernel)⟩, ⟨(wst [(0x1200, 0x1, 0, 1), (0x1200, 0x3, 0, 0xFFFFFFFF)]), 0, (by decide +kernel)⟩, ⟨(wst [(0x1200, 0x1, 0, 2)]),
    0, (by decide +kernel)⟩, ⟨(wst [(0x1200, 0x1, 0, 1), (0x1200, 0x3, 0, 0xFFFFFFFF)]), 0,
    ({ req := { port := 0, tag := 1, peerAddr := 0, peerPort := 0, outstanding := 0, shareFree := 262144, udpSum := 0 }, op := 11, index := 0, sub := 0, ctl := 0, len := 2, data := [0x05#8, 0x06#8] }),
    (by decide +kernel)⟩⟩

/-- The hypotheses of PortsCarryMessages can be met, in every clause. -/
theorem witness_PortsCarryMessages :
  (∃ s : State, ∃ t : Nat, ∃ bytes : List Byte,
    let n := fieldOf bytes 0 2
    (s.devAt t).hears 0 = true ∧ ((s.devAt t).port 0).rx.length < 4 ∧ 8 ≤ n ∧ n + 6 ≤ bytes.length ∧ fieldOf bytes (n + 2) 4 = crc32
      (bytes.take (n + 2))) ∧
  (∃ s : State, ∃ t : Nat, ∃ bytes : List Byte,
    let n := fieldOf bytes 0 2
    (s.devAt t).hears 0 = true ∧ ((s.devAt t).port 0).rx.length < 4 ∧ n + 6 ≤ bytes.length ∧ fieldOf bytes (n + 2) 4 ≠ crc32 (bytes.take (n
      + 2))) ∧
  (∃ s : State, ∃ t : Nat, ∃ clocks : Nat, (s.devAt t).hears 0 = true ∧ ∃ z_ ∈ (((s.devAt t).port 0).readout).head?,
    let m := z_
    (spiFrame (some m)).length ≤ clocks) ∧
  (∃ s : State, ∃ t : Nat, (s.devAt t).hears 0 = true) ∧
  (∃ s : State, ∃ t : Nat, ∃ p : Fin 6, 1 ≤ p.val ∧ p.val ≤ 3 ∧ (s.devAt t).hears p = true) ∧
  (∃ s : State, ∃ t : Nat, ∃ p : Fin 6, 1 ≤ p.val ∧ p.val ≤ 3 ∧ (s.devAt t).hears p = true) ∧
  (∃ s : State, ∃ t : Nat, ∃ p : Fin 6, (s.dev.port p).busOff = true) ∧
  (∃ s : State, ∃ t : Nat, ∃ p : Fin 6, 4 ≤ p.val ∧ (s.devAt t).hears p = true) ∧
  (∃ s : State, ∃ t : Nat, ∃ p : Fin 6, 4 ≤ p.val ∧ (s.devAt t).hears p = true) ∧
  (∃ s : State, ∃ t : Nat, ∃ p : Fin 6, ∃ data : List Byte, 4 ≤ p.val ∧ (s.devAt t).hears p = true) ∧
  (∃ s : State, ∃ t : Nat, ∃ p : Fin 6, 4 ≤ p.val) ∧
  (∃ s : State, ∃ t : Nat, ∃ p : Fin 6, 4 ≤ p.val ∧ (s.devAt t).pdOn 12 = true) :=
  ⟨⟨(wst []), 0, ([0x08#8, 0x00#8, 0x01#8, 0x02#8, 0x03#8, 0x04#8, 0x05#8, 0x06#8, 0x07#8, 0x08#8, 0x2e#8, 0x7f#8, 0xb5#8, 0xaa#8]),
    (by dsimp only; decide +kernel)⟩, ⟨(wst []), 0, ([0x01#8, 0x00#8, 0x04#8, 0x00#8, 0x00#8, 0x00#8, 0x00#8]),
    (by dsimp only; decide +kernel)⟩, ⟨(wstWith [] (fun d =>
    { d with ports := [(0, { rx := [[0x01#8], [0x02#8]], crcError := true, rxDropped := true, readout := [{ port := 0, op := 129, tag := 4, index := 5, sub := 6, ctl := 0, data := [0x01#8, 0x02#8, 0x03#8], canId := none, addr := 0, uport := 0, time := 0, hop := 0, sum := 0 }, { port := 0, op := 130, tag := 4, index := 5, sub := 6, ctl := 0, data := [], canId := none, addr := 0, uport := 0, time := 0, hop := 0, sum := 0 }] })] })),
    0, 50, (by dsimp only; decide +kernel)⟩, ⟨(wst []), 0, (by decide +kernel)⟩, ⟨(wst []), 0, 1, (by decide +kernel)⟩, ⟨(wst []), 0, 1,
    (by decide +kernel)⟩, ⟨(wstWith [] (fun d =>
    { d with ports := [(1, { busOff := true }), (4, { linkPhys := true, latched := [167772161, 7, 8, 9, 10, 11] }), (5, { linkPhys := true })] })),
    0, 1, (by decide +kernel)⟩, ⟨(wstWith [] (fun d =>
    { d with ports := [(1, { busOff := true }), (4, { linkPhys := true, latched := [167772161, 7, 8, 9, 10, 11] }), (5, { linkPhys := true })] })),
    0, 4, (by decide +kernel)⟩, ⟨(wstWith [] (fun d =>
    { d with ports := [(1, { busOff := true }), (4, { linkPhys := true, latched := [167772161, 7, 8, 9, 10, 11] }), (5, { linkPhys := true })] })),
    0, 4, (by decide +kernel)⟩, ⟨(wstWith [] (fun d =>
    { d with ports := [(1, { busOff := true }), (4, { linkPhys := true, latched := [167772161, 7, 8, 9, 10, 11] }), (5, { linkPhys := true })] })),
    0, 4, [], (by decide +kernel)⟩, ⟨(wst []), 0, 4, (by decide +kernel)⟩, ⟨(wst []), 0, 4, (by decide +kernel)⟩⟩

/-- The hypotheses of GuardianActs can be met, in every clause. -/
theorem witness_GuardianActs :
  (∃ s : State, ∃ t : Nat, ∃ r : Req, s.takes t r 0x1800 0x02 1 1 = true) ∧
  (∃ s : State, ∃ t : Nat, ∃ f : Frame, f.op = 0x02 ∧ f.index = 0x1800 ∧ f.sub = 0x04 ∧ f.ctl ≤ 1 ∧ f.data = [1] ∧ (s.devAt t).isVeto f =
      true ∧ s.serves t f 0 true = true ∧ (s.devAt t).obj 0x1800 0x04 = 0) :=
  ⟨⟨(wst [(0x1200, 0x1, 0, 1), (0x1700, 0x1, 0, 0)]), 0,
    ({ port := 0, tag := 1, peerAddr := 0, peerPort := 0, outstanding := 0, shareFree := 262144, udpSum := 0 }), (by decide +kernel)⟩, ⟨(wst
    [(0x1800, 0x1, 0, 0), (0x1200, 0x1, 0, 1), (0x1200, 0x3, 0, 0xFFFFFFFF)]), 0,
    ({ req := { port := 0, tag := 1, peerAddr := 0, peerPort := 0, outstanding := 0, shareFree := 262144, udpSum := 0 }, op := 2, index := 6144, sub := 4, ctl := 1, len := 1, data := [0x01#8] }),
    (by decide +kernel)⟩⟩

/-- The hypotheses of CyclicFramesAndNotifies can be met, in every clause. -/
theorem witness_CyclicFramesAndNotifies :
  (∃ s : State, ∃ t : Nat, ∃ r : Req, ∃ n : Fin 64,
    let i := 0x1400 + n.val
    s.takes t r i 0x01 1 1 = true) ∧
  (∃ s : State, ∃ t : Nat, ∃ n : Fin 64,
    let i := 0x1400 + n.val
    (s.devAt t).runs 12 = true ∧ s.dev.obj i 0x01 = 1 ∧ s.dev.obj i 0x03 = 1 ∧ (s.dev.cycFrame n).due ≤ (s.devAt t).now) ∧
  (∃ s : State, ∃ t : Nat, ∃ n : Fin 64, ∃ slot : Fin 24, ∃ target : Nat,
    let i := 0x1400 + n.val
    let d := s.devAt t
    let k := d.obj i 0x05
    ∃ angle ∈ d.cycAngle n slot, target = angleWord ((d.estAt k d.now : Int) - ((d.estAt k d.now % auCycle + auCycle - angle) % auCycle :
      Nat)) ∧ ∃ z_ ∈ d.answer k target,
    let time := z_.1
    d.runs 12 = true ∧ d.pdOn 5 = true ∧ d.obj i 0x01 = 1 ∧ (d.cycFrame n).fresh (d.cycKey n slot) target time = true) ∧
  (∃ s : State, ∃ t : Nat, ∃ n : Fin 64, ∃ m ∈ (s.dev.cycFrame n).unsent, (s.devAt t).runs 12 = true ∧ (s.devAt t).portTalks m.port = true) ∧
  (∃ s : State, ∃ t : Nat, ∃ p : Fin 6,
    let d := s.devAt t
    d.runs 12 = true ∧ d.runs 2 = true ∧ d.notifyOpen p = true ∧ d.dozing p = false ∧ d.batchDue p = true) ∧
  (∃ s : State, ∃ t : Nat, ∃ p : Fin 6,
    let d := s.devAt t
    d.runs 12 = true ∧ d.runs 2 = true ∧ d.notifyOpen p = true ∧ d.dozing p = false ∧ d.modTimeDue p = true) :=
  ⟨⟨(wst [(0x1200, 0x1, 0, 1)]), 0,
    ({ port := 0, tag := 1, peerAddr := 0, peerPort := 0, outstanding := 0, shareFree := 262144, udpSum := 0 }), 0,
    (by dsimp only; decide +kernel)⟩, ⟨(wst [(0x1400, 0x3, 0, 1), (0x1400, 0x1, 0, 1)]), 0, 0, (by dsimp only; decide +kernel)⟩,
    frameTrigger_met (wstWith [(0x1400, 0x3, 0, 2), (0x1400, 0x6, 0, 4000), (0x1400, 0x1, 0, 1), (0x2180, 0x10, 0, 3)] (fun d =>
    { d with now := 100000000000, synths := [(0, { live := true, snapped := true, word := 5000, tk := 99999995000, q := 100 })] })) 0 0 0
    4000 (by decide +kernel) (by decide +kernel) (by decide +kernel) (by decide +kernel) (by decide +kernel), ⟨(wstWith [] (fun d =>
    { d with cyc := [(0, { unsent := some { port := 0, op := 129, tag := 4, index := 5, sub := 6, ctl := 0, data := [0x01#8, 0x02#8, 0x03#8], canId := none, addr := 0, uport := 0, time := 0, hop := 0, sum := 0 } })] })),
    0, 0, (by decide +kernel)⟩, ⟨(wstWith [(0x1200, 0x1, 0, 1), (0x1200, 0x3, 0, 0xFFFFFFFF)] (fun d =>
    { d with irq := [(84, { pending := true, prio := 3, occ := 1, first := 100000000000, queuedAt := 100000000000 })] })), 0, 0,
    (by dsimp only; decide +kernel)⟩, ⟨(wstWith [(0x1200, 0x1, 0, 1), (0x1200, 0x3, 0, 0xFFFFFFFF)] (fun d =>
    { d with now := 100000000000, irq := [(84, { pending := true, prio := 3, occ := 1, first := 100000000000, queuedAt := 100000000000 })] })),
    0, 0, (by dsimp only; decide +kernel)⟩⟩

/-- The hypotheses of ClaimsUnowned can be met, in every clause. -/
theorem witness_ClaimsUnowned :
  (∃ s : State, ∃ t : Nat, s.dev.rst.heldPin = false) ∧
  (∃ s : State, ∃ t : Nat, ∃ r : Req, s.takes t r 0x2F00 0x07 1 1 = true) ∧
  (∃ s : State, ∃ t : Nat, ∃ r : Req, s.takes t r 0x1030 0x03 1 1 = true) ∧
  (∃ s : State, ∃ t : Nat, ∃ k : Fin 14,
    let d := s.devAt t
    1 ≤ k.val ∧ k.val ≤ 3 ∧ d.pdOn k = true) ∧
  (∃ s : State, ∃ t : Nat, ∃ c : Fin 4,
    let d := s.devAt t
    d.coresRun = true ∧ d.coreDown c = false ∧ (c = 0 ∨ 2 ≤ ((d.core c).restarts.filter (fun x => decide (d.now < x + 60 * tqSec))).length)) ∧
  (∃ s : State, ∃ t : Nat, ∃ w : Fin 16,
    let d := s.devAt t
    d.watchDue w = true ∧ d.rst.waking = false ∧ d.rst.slept.isSome = true) ∧
  (∃ s : State, ∃ t : Nat, ∃ k : Fin 14,
    let d := s.devAt t
    d.inPhase 5 = true) ∧
  (∃ s : State, ∃ t : Nat, ∃ r : Req, s.takes t r 0x2F00 0x08 1 12 = true) ∧
  (∃ s : State, ∃ t : Nat,
    let d := s.devAt t
    d.pdOn 12 = true ∧ d.coresRun = true) :=
  ⟨⟨(wst []), 0, (by decide +kernel)⟩, ⟨(wst [(0x1200, 0x1, 0, 1), (0x1700, 0x1, 0, 0)]), 0,
    ({ port := 0, tag := 1, peerAddr := 0, peerPort := 0, outstanding := 0, shareFree := 262144, udpSum := 0 }), (by decide +kernel)⟩, ⟨(wst
    [(0x1030, 0x2, 0, 2), (0x1200, 0x1, 0, 1), (0x1200, 0x3, 0, 0xFFFFFFFF), (0x1700, 0x1, 0, 0)]), 0,
    ({ port := 0, tag := 1, peerAddr := 0, peerPort := 0, outstanding := 0, shareFree := 262144, udpSum := 0 }), (by decide +kernel)⟩, ⟨(wst
    []), 0, 1, (by dsimp only; decide +kernel)⟩, ⟨(wst []), 0, 0, (by dsimp only; decide +kernel)⟩, ⟨(wstWith [] (fun d =>
    { d with rst := { optCount := 3, optCodes := [0, 0, 0], slept := some 99 }, night := [(0, { live := true, since := 5, hits := 1 })] })),
    0, 0, (by dsimp only; decide +kernel)⟩, ⟨(wst [(0x2F00, 0x1, 0, 5)]), 0, 0, (by dsimp only; decide +kernel)⟩, ⟨(wst [(0x1200, 0x1, 0,
    1), (0x1700, 0x1, 0, 0)]), 0,
    ({ port := 0, tag := 1, peerAddr := 0, peerPort := 0, outstanding := 0, shareFree := 262144, udpSum := 0 }), (by decide +kernel)⟩, ⟨(wst
    []), 0, (by dsimp only; decide +kernel)⟩⟩

/-- The hypotheses of ReferenceLostAndBack can be met, in every clause. -/
theorem witness_ReferenceLostAndBack :
  (∃ s : State, ∃ t : Nat,
    let d := s.devAt t
    d.tbBit 3 = false ∧ d.tbBit 0 = true) ∧
  (∃ s : State, ∃ t : Nat,
    let d := s.devAt t
    d.tbBit 3 = true ∧ d.tbBit 4 = true) ∧
  (∃ s : State, ∃ t : Nat, ∃ refIn : Fin 5, ∃ crystal : Bool,
    let d := s.devAt t
    refChoice refIn crystal ≠ 0 ∧ d.tbBit 3 = true ∧ d.tbBit 4 = false ∧ ∃ z_ ∈ d.tb.restore,
    let since := z_.2
    since + d.obj 0x2000 0x07 * tqMs ≤ d.now) ∧
  (∃ s : State, ∃ t : Nat,
    let d := s.devAt t
    d.tbBit 3 = true ∧ d.tbBit 4 = true) ∧
  (∃ s : State, ∃ t : Nat, ∃ worst : Nat,
    let d := s.devAt t
    d.rst.heldPower = false ∧ d.rst.tbStopped = false ∧ d.tb.calAt + tqMs ≤ d.now) :=
  ⟨⟨(wst []), 0, (by dsimp only; decide +kernel)⟩, ⟨(wst [(0x2000, 0x4, 0, 29)]), 0, (by dsimp only; decide +kernel)⟩, ⟨(wstWith [(0x2000,
    0x4, 0, 12)] (fun d => { d with now := 10000000000000, tb := { vernFails := 1, restore := some (2, 5) } })), 0, 0, true,
    (by dsimp only; decide +kernel)⟩, ⟨(wst [(0x2000, 0x4, 0, 29)]), 0, (by dsimp only; decide +kernel)⟩, ⟨(wstWith [] (fun d =>
    { d with now := 10000000000000 })), 0, 0, (by dsimp only; decide +kernel)⟩⟩

/-- The hypotheses of EpochCounts can be met, in every clause. -/
theorem witness_EpochCounts :
  (∃ s : State, ∃ t : Nat, (s.devAt t).pdOn 1 = true) ∧
  (∃ s : State, ∃ t : Nat, ∃ k : Fin 14, k ≠ 1) :=
  ⟨⟨(wst []), 0, (by decide +kernel)⟩, ⟨(wst []), 0, 0, (by decide +kernel)⟩⟩

/-- The hypotheses of WheelLevels can be met, in every clause. -/
theorem witness_WheelLevels :
  (∃ s : State, ∃ t : Nat, ∃ n : Fin 8, ∃ mv : Int, ∃ peak : Nat,
    let d := s.devAt t
    let i := 0x2100 + n.val
    let w := d.wheel n
    d.runs 5 = true ∧ d.obj i 0x03 ≠ 0 ∧ w.filt = none ∧ d.bit i 0x0B 1 = false ∧ d.bit i 0x0B 0 = false ∧ d.armingLevel n < ((mv : Int) :
      Rat)) ∧
  (∃ s : State, ∃ t : Nat, ∃ n : Fin 8, ∃ mv : Int, ∃ peak : Nat,
    let d := s.devAt t
    let i := 0x2100 + n.val
    let w := d.wheel n
    d.runs 5 = true ∧ d.obj i 0x03 ≠ 0 ∧ w.filt = none ∧ d.bit i 0x0B 1 = false ∧ d.bit i 0x0B 0 = true ∧ mv < d.sobj 16 i 0x07) ∧
  (∃ s : State, ∃ t : Nat, ∃ n : Fin 8, ∃ mv : Int, ∃ peak : Nat,
    let d := s.devAt t
    let i := 0x2100 + n.val
    let w := d.wheel n
    d.runs 5 = true ∧ d.obj i 0x03 ≠ 0 ∧ w.filt = none ∧ (¬d.armingLevel n < ((mv : Int) : Rat)) ∧ (¬mv < d.sobj 16 i 0x07)) ∧
  (∃ s : State, ∃ t : Nat, ∃ n : Fin 8, ∃ mv : Int, ∃ peak : Nat,
    let d := s.devAt t
    let i := 0x2100 + n.val
    let w := d.wheel n
    d.runs 5 = true ∧ d.obj i 0x03 ≠ 0 ∧ w.filt = none ∧ d.bit i 0x0B 1 = true ∧ d.armingLevel n < ((mv : Int) : Rat)) ∧
  (∃ s : State, ∃ t : Nat, ∃ n : Fin 8,
    let d := s.devAt t
    d.runs 5 = true ∧ ∃ c ∈ d.crankTwin n, (∀ z ∈ (d.wheel c).filt, 10 * d.now < 10 * z.1 + 1024 * d.obj (0x2100 + c) 0x05)) ∧
  (∃ s : State, ∃ t : Nat, ∃ n : Fin 8,
    let d := s.devAt t
    let i := 0x2100 + n.val
    let w := d.wheel n
    d.runs 5 = true ∧ d.crankTwin n = none ∧ ∃ z_ ∈ w.filt,
    let st := z_.1
    let lvl := z_.2
    10 * st + 1024 * d.obj i 0x05 ≤ 10 * d.now ∧ (∀ p ∈ w.passedAt, p + 20480 ≤ st) ∧ d.obj i 0x04 = (if lvl then 0 else 1)) ∧
  (∃ s : State, ∃ t : Nat, ∃ n : Fin 8,
    let d := s.devAt t
    let i := 0x2100 + n.val
    let w := d.wheel n
    d.runs 5 = true ∧ d.crankTwin n = none ∧ ∃ z_ ∈ w.filt,
    let st := z_.1
    10 * st + 1024 * d.obj i 0x05 ≤ 10 * d.now ∧ (∀ p ∈ w.passedAt, p + 20480 ≤ st) ∧ d.obj i 0x04 = 2 ∧ 1 < d.obj i 0x01) ∧
  (∃ s : State, ∃ t : Nat, ∃ n : Fin 8,
    let d := s.devAt t
    let i := 0x2100 + n.val
    d.runs 5 = true ∧ d.obj i 0x03 = 0 ∧ d.bit i 0x0B 2 = false ∧ ((d.obj i 0x0C : Nat) : Rat) + 2 * d.expected n ≤ ((d.now : Nat) : Rat)) ∧
  (∃ s : State, ∃ t : Nat, ∃ n : Fin 8,
    let d := s.devAt t
    let i := 0x2100 + n.val
    d.runs 5 = true ∧ d.obj i 0x02 = 2 ∧ ((d.obj i 0x0C : Nat) : Rat) + 3 * d.expected n < ((d.now : Nat) : Rat)) :=
  ⟨⟨(wst [(0x2100, 0xB, 0, 0), (0x2100, 0x6, 0, 1500)]), 0, 0, 2000, 0, (by dsimp only; decide +kernel)⟩, ⟨(wst [(0x2100, 0xB, 0, 1)]), 0, 0,
    -5000, 0, (by dsimp only; decide +kernel)⟩, ⟨(wst []), 0, 0, 2000, 0, (by dsimp only; decide +kernel)⟩, ⟨(wst []), 0, 0, 30000, 0,
    (by dsimp only; decide +kernel)⟩, ⟨(wstWith [(0x2101, 0x1, 0, 0), (0x2102, 0x1, 0, 0), (0x2102, 0x2, 0, 1)] (fun d =>
    { d with wheels := [(1, { filt := some (999999999995, true), lastIval := 8000000, edges := 9 }), (2, { filt := some (999999999995, true), seen := 5, lastIval := 8000000, edges := 9 })] })),
    0, 2, (by dsimp only; decide +kernel)⟩, ⟨(wstWith [] (fun d =>
    { d with now := 1000000000000, wheels := [(0, { filt := some (999990000000, true) })] })), 0, 0, (by dsimp only; decide +kernel)⟩,
    ⟨(wstWith [(0x2100, 0x4, 0, 2)] (fun d => { d with now := 1000000000000, wheels := [(0, { filt := some (999990000000, false) })] })), 0,
    0, (by dsimp only; decide +kernel)⟩, ⟨(wst [(0x2100, 0x3, 0, 0)]), 0, 0, (by dsimp only; decide +kernel)⟩, ⟨(wstWith [(0x2100, 0x2, 0,
    2)] (fun d => { d with now := 1000000000000 })), 0, 0, (by dsimp only; decide +kernel)⟩⟩

/-- The hypotheses of NoiseRejected can be met, in every clause. -/
theorem witness_NoiseRejected :
  (∃ s : State, ∃ t : Nat, ∃ n : Fin 8, ∃ st : Nat, ∃ lvl : Bool,
    let d := s.devAt t
    let i := 0x2100 + n.val
    let early := fun (e : Dev) => e.runs 5 = true ∧ (e.wheel n).filt = some (st, lvl) ∧ 10 * st + 1024 * e.obj i 0x05 ≤ 10 * e.now ∧ (∀ p,
      (e.wheel n).passedAt = some p → p + 20480 ≤ st) ∧ (e.obj i 0x04 = 2 ∨ e.obj i 0x04 = (if lvl then 1 else 0)) ∧ 0 < (e.wheel n).edges ∧
      ((st - e.obj i 0x0C : Nat) : Rat) < e.expected n / 4
    let count := fun (e : Dev) => (e.setWheel n
      { (e.wheel n) with rejAt := (((e.wheel n).edges, st) :: (e.wheel n).rejAt).take 4096 }).rejectCount n
    d.crankTwin n = none ∧ early d ∧ count d ≠ 16) ∧
  (∃ s : State, ∃ t : Nat, ∃ n : Fin 8, ∃ st : Nat, ∃ lvl : Bool,
    let d := s.devAt t
    let i := 0x2100 + n.val
    let early := fun (e : Dev) => e.runs 5 = true ∧ (e.wheel n).filt = some (st, lvl) ∧ 10 * st + 1024 * e.obj i 0x05 ≤ 10 * e.now ∧ (∀ p,
      (e.wheel n).passedAt = some p → p + 20480 ≤ st) ∧ (e.obj i 0x04 = 2 ∨ e.obj i 0x04 = (if lvl then 1 else 0)) ∧ 0 < (e.wheel n).edges ∧
      ((st - e.obj i 0x0C : Nat) : Rat) < e.expected n / 4
    let count := fun (e : Dev) => (e.setWheel n
      { (e.wheel n) with rejAt := (((e.wheel n).edges, st) :: (e.wheel n).rejAt).take 4096 }).rejectCount n
    d.crankTwin n = none ∧ early d ∧ count d = 16) ∧
  (∃ s : State, ∃ t : Nat, ∃ n : Fin 8, ∃ st : Nat, ∃ lvl : Bool,
    let d := s.devAt t
    let i := 0x2100 + n.val
    ∃ c ∈ d.crankTwin n,
    let e := d.filterDone c
    let count := fun (e : Dev) => (e.setWheel n
      { (e.wheel n) with rejAt := (((e.wheel n).edges, st) :: (e.wheel n).rejAt).take 4096 }).rejectCount n
    let early := fun (e : Dev) => e.runs 5 = true ∧ (e.wheel n).filt = some (st, lvl) ∧ 10 * st + 1024 * e.obj i 0x05 ≤ 10 * e.now ∧ (∀ p,
      (e.wheel n).passedAt = some p → p + 20480 ≤ st) ∧ (e.obj i 0x04 = 2 ∨ e.obj i 0x04 = (if lvl then 1 else 0)) ∧ 0 < (e.wheel n).edges ∧
      ((st - e.obj i 0x0C : Nat) : Rat) < e.expected n / 4
    e.crankTwin n = none ∧ early e ∧ count e ≠ 16) :=
  ⟨⟨(wstWith [(0x2100, 0x4, 0, 2), (0x2100, 0x1, 0, 0), (0x2100, 0xC, 0, 999999000000)] (fun d =>
    { d with now := 1000000000000, wheels := [(0, { filt := some (999999500000, true), passedAt := some 5, lastIval := 8000000, edges := 9 })] })),
    0, 0, 999999500000, true, (by dsimp only; decide +kernel)⟩, ⟨(wstWith [(0x2100, 0x4, 0, 1), (0x2100, 0x1, 0, 1), (0x2100, 0xC, 0,
    999999000000)] (fun d =>
    { d with now := 1000000000000, wheels := [(0, { filt := some (999999500000, true), seen := 5, lastIval := 8000000, edges := 9, rejAt := [(9, 5), (9, 5), (9, 5), (9, 5), (9, 5), (9, 5), (9, 5), (9, 5), (9, 5), (9, 5), (9, 5), (9, 5), (9, 5), (9, 5), (9, 5)] })] })),
    0, 0, 999999500000, true, (by dsimp only; decide +kernel)⟩, ⟨(wstWith [(0x2101, 0x1, 0, 0), (0x2102, 0x1, 0, 0), (0x2102, 0x2, 0, 1),
    (0x2102, 0x4, 0, 2), (0x2102, 0xC, 0, 999999949991)] (fun d =>
    { d with now := 1000000000000, wheels := [(1, { filt := some (999999950000, true), lastIval := 8000000, edges := 9 }), (2, { filt := some (999999950000, true), seen := 5, lastIval := 8000000, edges := 9 })] })),
    0, 2, 999999950000, true, (by dsimp only; decide +kernel)⟩⟩

/-- The hypotheses of DomainTimeouts can be met, in every clause. -/
theorem witness_DomainTimeouts :
  (∃ s : State, ∃ t : Nat, ∃ k : Fin 2,
    let d := s.devAt t
    d.runs 5 = true ∧ d.domState k ≠ 0 ∧ (d.stallDeadline k).1 < ((d.now : Nat) : Rat) ∧ d.edgePending (d.stallDeadline k).2
      (d.stallDeadline k).1 = false) ∧
  (∃ s : State, ∃ t : Nat, ∃ k : Fin 2,
    let d := s.devAt t
    let i := 0x2180 + k.val
    let late := fun n => ((d.obj (0x2100 + n) 0x0C : Nat) : Rat) + 3 * d.expected n
    d.runs 5 = true ∧ ∃ n ∈ (d.pat k).crankIn, late n < ((d.now : Nat) : Rat) ∧ d.edgePending [n] (late n) = false ∧ (d.domState k = 2 ∨
      (d.domState k = 3 ∧ d.bit i 0x11 1 = false))) ∧
  (∃ s : State, ∃ t : Nat, ∃ k : Fin 2,
    let d := s.devAt t
    let i := 0x2180 + k.val
    let late := fun n => ((d.obj (0x2100 + n) 0x0C : Nat) : Rat) + 3 * d.expected n
    d.runs 5 = true ∧ ∃ n ∈ (d.pat k).crankIn, late n < ((d.now : Nat) : Rat) ∧ d.edgePending [n] (late n) = false ∧ d.domState k = 3 ∧
      d.bit i 0x11 1 = true) ∧
  (∃ s : State, ∃ t : Nat, ∃ k : Fin 2,
    let d := s.devAt t
    let late := fun n => ((d.obj (0x2100 + n) 0x0C : Nat) : Rat) + 3 * d.expected n
    d.runs 5 = true ∧ ∃ n ∈ (d.pat k).camIn, 0 < (d.wheel n).edges ∧ (d.pat k).cam ≠ [] ∧ late n < ((d.now : Nat) : Rat) ∧ d.edgePending [n]
      (late n) = false ∧ d.domState k = 4) ∧
  (∃ s : State, ∃ t : Nat, ∃ k : Fin 2,
    let d := s.devAt t
    let late := fun n => ((d.obj (0x2100 + n) 0x0C : Nat) : Rat) + 3 * d.expected n
    d.runs 5 = true ∧ ∃ n ∈ (d.pat k).camIn, 0 < (d.wheel n).edges ∧ (d.pat k).cam ≠ [] ∧ late n < ((d.now : Nat) : Rat) ∧ d.edgePending [n]
      (late n) = false ∧ d.domState k = 3 ∧ (d.dom k).absentNoted ≠ some (d.obj (0x2100 + n) 0x0C)) ∧
  (∃ s : State, ∃ t : Nat, ∃ k : Fin 2,
    let d := s.devAt t
    let i := 0x2180 + k.val
    d.runs 5 = true ∧ d.domState k = 2 ∧ d.obj i 0x0B * (d.pat k).edges ≤ (d.dom k).searchEdges ∧ (d.dom k).searchNoted = false) ∧
  (∃ s : State, ∃ t : Nat, ∃ k : Fin 2,
    let d := s.devAt t
    let i := 0x2180 + k.val
    d.runs 5 = true ∧ d.domState k = 5 ∧ d.obj i 0x1B + d.obj i 0x0C * tqMs ≤ d.now) :=
  ⟨⟨(wstWith [(0x2180, 0x10, 0, 1)] (fun d => { d with now := 1000000000000 })), 0, 0, (by dsimp only; decide +kernel)⟩, ⟨wstWith [(0x2180,
    0x10, 0, 2), (0x2100, 0x1, 0, 0)] (fun d => { d with now := 10000000000000000 }), 0, 0, by dsimp only; exact ⟨by decide +kernel, 0,
    by decide +kernel, late_lt _ _ (by decide +kernel) (by decide +kernel) (by decide +kernel), edgePending_none _ _ _ (by decide +kernel),
    by decide +kernel⟩⟩, ⟨wstWith [(0x2180, 0x10, 0, 3), (0x2180, 0x11, 0, 3), (0x2100, 0x1, 0, 0)] (fun d =>
    { d with now := 10000000000000000 }), 0, 0, by dsimp only; exact ⟨by decide +kernel, 0, by decide +kernel, late_lt _ _
    (by decide +kernel) (by decide +kernel) (by decide +kernel), edgePending_none _ _ _ (by decide +kernel), by decide +kernel⟩⟩, ⟨wstWith
    [(0x2180, 0x10, 0, 4), (0x2101, 0x1, 0, 0), (0x2101, 0x2, 0, 1), (0x2190, 0xC, 0, 2)] (fun d =>
    { d with now := 10000000000000000, wheels := [(1, { seen := 3, lastIval := 1000000, edges := 1 })] }), 0, 0, by dsimp only; exact
    ⟨by decide +kernel, 1, by decide +kernel, by decide +kernel, by decide +kernel, late_lt _ _ (by decide +kernel) (by decide +kernel)
    (by decide +kernel), edgePending_none _ _ _ (by decide +kernel), by decide +kernel⟩⟩, ⟨wstWith [(0x2180, 0x10, 0, 3), (0x2101, 0x1, 0,
    0), (0x2101, 0x2, 0, 1), (0x2190, 0xC, 0, 2)] (fun d =>
    { d with now := 10000000000000000, wheels := [(1, { seen := 3, lastIval := 1000000, edges := 1 })] }), 0, 0, by dsimp only; exact
    ⟨by decide +kernel, 1, by decide +kernel, by decide +kernel, by decide +kernel, late_lt _ _ (by decide +kernel) (by decide +kernel)
    (by decide +kernel), edgePending_none _ _ _ (by decide +kernel), by decide +kernel⟩⟩, ⟨(wstWith [(0x2180, 0x10, 0, 2)] (fun d =>
    { d with doms := [(0, { searchEdges := 99999 })] })), 0, 0, (by dsimp only; decide +kernel)⟩, ⟨(wstWith [(0x2180, 0x10, 0, 5)] (fun d =>
    { d with now := 1000000000000 })), 0, 0, (by dsimp only; decide +kernel)⟩⟩

/-- The hypotheses of ArmAndDisarm can be met, in every clause. -/
theorem witness_ArmAndDisarm :
  (∃ s : State, ∃ t : Nat, ∃ r : Req, ∃ k : Fin 2,
    let i := 0x2180 + k.val
    s.takes t r i 0x0F 1 1 = true) ∧
  (∃ s : State, ∃ t : Nat, ∃ r : Req, ∃ k : Fin 2,
    let i := 0x2180 + k.val
    s.takes t r i 0x0F 1 2 = true) :=
  ⟨⟨(wst [(0x2100, 0x1, 0, 0), (0x1200, 0x1, 0, 1), (0x1700, 0x2, 0, 0)]), 0,
    ({ port := 0, tag := 1, peerAddr := 0, peerPort := 0, outstanding := 0, shareFree := 262144, udpSum := 0 }), 0,
    (by dsimp only; decide +kernel)⟩, ⟨(wst [(0x1200, 0x1, 0, 1), (0x1700, 0x2, 0, 0)]), 0,
    ({ port := 0, tag := 1, peerAddr := 0, peerPort := 0, outstanding := 0, shareFree := 262144, udpSum := 0 }), 0,
    (by dsimp only; decide +kernel)⟩⟩

/-- The hypotheses of LearningAndPrediction can be met, in every clause. -/
theorem witness_LearningAndPrediction :
  (∃ s : State, ∃ t : Nat, ∃ r : Req, ∃ k : Fin 2,
    let i := 0x2200 + k.val
    s.takes t r i 0x0D 1 1 = true) ∧
  (∃ s : State, ∃ t : Nat, ∃ r : Req, ∃ k : Fin 2,
    let d := s.devAt t
    let i := 0x2200 + k.val
    s.takes t r i 0x0D 1 2 = true ∧ (d.obj i 0x0E = 1 ∨ d.obj i 0x0E = 2)) ∧
  (∃ s : State, ∃ t : Nat, ∃ r : Req, ∃ k : Fin 2,
    let d := s.devAt t
    let i := 0x2200 + k.val
    s.takes t r i 0x0D 1 2 = true ∧ d.obj i 0x0E ≠ 1 ∧ d.obj i 0x0E ≠ 2) ∧
  (∃ s : State, ∃ t : Nat, ∃ r : Req, ∃ k : Fin 2,
    let d := s.devAt t
    d.runs 4 = true ∧ (d.synth k).tableDue = true ∧ d.coreDown 2 = false) ∧
  (∃ s : State, ∃ t : Nat, ∃ r : Req, ∃ k : Fin 2,
    let d := s.devAt t
    let i := 0x2200 + k.val
    d.runs 4 = true ∧ d.coreDown 2 = false ∧ d.obj i 0x0E = 1 ∧ 4 * d.obj i 0x08 ≤ (d.synth k).runRevs ∧ (d.synth k).tableDue = false) ∧
  (∃ s : State, ∃ t : Nat, ∃ k : Fin 2, ∃ more : Fin 5,
    let d := s.devAt t
    d.runs 4 = true ∧ d.coreDown 2 = false ∧ ∃ z_ ∈ (d.synth k).refitBegun, True) ∧
  (∃ s : State, ∃ t : Nat, ∃ k : Fin 2, ∃ more : Fin 5,
    let d := s.devAt t
    d.runs 4 = true ∧ d.coreDown 2 = false ∧ ∃ z_ ∈ (d.synth k).refitBegun, True) ∧
  (∃ s : State, ∃ t : Nat, ∃ k : Fin 2,
    let d := s.devAt t
    let i := 0x2200 + k.val
    d.runs 4 = true ∧ d.coreDown 2 = false ∧ ∃ rows ∈ (d.synth k).inertiaIn, d.obj i 0x14 ≤ d.obj i 0x15) ∧
  (∃ s : State, ∃ t : Nat, ∃ k : Fin 2, ∃ m : Fin 4,
    let d := s.devAt t
    let v := (d.synth k).mark m
    d.runs 5 = true ∧ ∃ at_ ∈ v.time, v.frozen = none ∧ at_ ≤ d.now + 40 * tqUs) ∧
  (∃ s : State, ∃ t : Nat, ∃ k : Fin 2, ∃ m : Fin 4,
    let d := s.devAt t
    let v := (d.synth k).mark m
    d.runs 5 = true ∧ ∃ at_ ∈ v.frozen, at_ ≤ d.now ∧ (d.domState k = 3 ∨ d.domState k = 4)) :=
  ⟨⟨(wst [(0x1200, 0x1, 0, 1), (0x1200, 0x4, 0, 0xFFFFFFFF), (0x1700, 0x2, 0, 0)]), 0,
    ({ port := 0, tag := 1, peerAddr := 0, peerPort := 0, outstanding := 0, shareFree := 262144, udpSum := 0 }), 0,
    (by dsimp only; decide +kernel)⟩, ⟨(wst [(0x2200, 0xE, 0, 1), (0x1200, 0x1, 0, 1), (0x1200, 0x4, 0, 0xFFFFFFFF), (0x1700, 0x2, 0, 0)]),
    0, ({ port := 0, tag := 1, peerAddr := 0, peerPort := 0, outstanding := 0, shareFree := 262144, udpSum := 0 }), 0,
    (by dsimp only; decide +kernel)⟩, ⟨(wst [(0x1200, 0x1, 0, 1), (0x1200, 0x4, 0, 0xFFFFFFFF), (0x1700, 0x2, 0, 0)]), 0,
    ({ port := 0, tag := 1, peerAddr := 0, peerPort := 0, outstanding := 0, shareFree := 262144, udpSum := 0 }), 0,
    (by dsimp only; decide +kernel)⟩, ⟨(wstWith [] (fun d =>
    { d with synths := [(0, { acc := [(0, 5), (3, 7)], runRevs := 40, speedSum := 900, tableDue := true })] })), 0,
    ({ port := 0, tag := 1, peerAddr := 0, peerPort := 0, outstanding := 0, shareFree := 262144, udpSum := 0 }), 0,
    (by dsimp only; decide +kernel)⟩, ⟨(wstWith [(0x2200, 0xE, 0, 1), (0x2200, 0x8, 0, 5)] (fun d =>
    { d with synths := [(0, { acc := [(0, 5), (3, 7)], runRevs := 40, speedSum := 900 })] })), 0,
    ({ port := 0, tag := 1, peerAddr := 0, peerPort := 0, outstanding := 0, shareFree := 262144, udpSum := 0 }), 0,
    (by dsimp only; decide +kernel)⟩, ⟨(wstWith [] (fun d =>
    { d with synths := [(0, { refitBegun := some (700, [(64, 100), (128, 200)]), refit := some ([9], 3) })] })), 0, 0, 0,
    (by dsimp only; decide +kernel)⟩, ⟨(wstWith [] (fun d =>
    { d with synths := [(0, { refitBegun := some (700, [(64, 100), (128, 200)]), refit := some ([9], 3) })] })), 0, 0, 0,
    (by dsimp only; decide +kernel)⟩, ⟨(wstWith [] (fun d =>
    { d with synths := [(0, { inertiaIn := some [], refitBegun := some (700, [(64, 100), (128, 200)]) })] })), 0, 0,
    (by dsimp only; decide +kernel)⟩, ⟨(wstWith [] (fun d =>
    { d with now := 1000000000000, synths := [(0, { marks := [(0, { target := 5000, time := some 1000000409600 })] })] })), 0, 0, 0,
    (by dsimp only; decide +kernel)⟩, ⟨(wstWith [(0x2180, 0x10, 0, 3)] (fun d =>
    { d with now := 1000000000000, synths := [(0, { marks := [(0, { target := 5000, frozen := some 999999999995 })] })] })), 0, 0, 0,
    (by dsimp only; decide +kernel)⟩⟩

/-- The hypotheses of ClearsOfAngle can be met, in every clause. -/
theorem witness_ClearsOfAngle :
  (∃ s : State, ∃ t : Nat, ∃ r : Req, s.takes t r 0x2000 0x09 1 1 = true) ∧
  (∃ s : State, ∃ t : Nat, ∃ r : Req, ∃ n : Fin 8, s.takes t r (0x2100 + n) 0x12 1 1 = true) ∧
  (∃ s : State, ∃ t : Nat, ∃ r : Req, ∃ k : Fin 2, s.takes t r (0x2180 + k) 0x1C 1 1 = true) ∧
  (∃ s : State, ∃ t : Nat, ∃ r : Req, ∃ k : Fin 2, s.takes t r (0x2180 + k) 0x3E 1 1 = true) ∧
  (∃ s : State, ∃ t : Nat, ∃ r : Req, ∃ k : Fin 2, s.takes t r (0x2200 + k) 0x2E 1 1 = true) ∧
  (∃ s : State, ∃ t : Nat, ∃ r : Req, ∃ k : Fin 2, s.takes t r (0x2210 + k) 0x08 1 1 = true) ∧
  (∃ s : State, ∃ t : Nat, ∃ r : Req, ∃ n : Fin 48, s.takes t r (0x2700 + n) 0x0E 1 1 = true) ∧
  (∃ s : State, ∃ t : Nat, ∃ r : Req, ∃ b : Fin 16, s.takes t r (0x2740 + b) 0x15 1 1 = true) ∧
  (∃ s : State, ∃ t : Nat, ∃ r : Req, ∃ x : Fin 2, s.takes t r (0x2780 + x) 0x11 1 1 = true) :=
  ⟨⟨(wst [(0x1200, 0x1, 0, 1), (0x1700, 0x1, 0, 0)]), 0,
    ({ port := 0, tag := 1, peerAddr := 0, peerPort := 0, outstanding := 0, shareFree := 262144, udpSum := 0 }), (by decide +kernel)⟩, ⟨(wst
    [(0x1200, 0x1, 0, 1), (0x1700, 0x3, 0, 0)]), 0,
    ({ port := 0, tag := 1, peerAddr := 0, peerPort := 0, outstanding := 0, shareFree := 262144, udpSum := 0 }), 0, (by decide +kernel)⟩,
    ⟨(wst [(0x1200, 0x1, 0, 1), (0x1700, 0x2, 0, 0)]), 0,
    ({ port := 0, tag := 1, peerAddr := 0, peerPort := 0, outstanding := 0, shareFree := 262144, udpSum := 0 }), 0, (by decide +kernel)⟩,
    ⟨(wst [(0x1200, 0x1, 0, 1), (0x1700, 0x2, 0, 0)]), 0,
    ({ port := 0, tag := 1, peerAddr := 0, peerPort := 0, outstanding := 0, shareFree := 262144, udpSum := 0 }), 0, (by decide +kernel)⟩,
    ⟨(wst [(0x1200, 0x1, 0, 1), (0x1700, 0x2, 0, 0)]), 0,
    ({ port := 0, tag := 1, peerAddr := 0, peerPort := 0, outstanding := 0, shareFree := 262144, udpSum := 0 }), 0, (by decide +kernel)⟩,
    ⟨(wst [(0x1200, 0x1, 0, 1), (0x1700, 0x2, 0, 0)]), 0,
    ({ port := 0, tag := 1, peerAddr := 0, peerPort := 0, outstanding := 0, shareFree := 262144, udpSum := 0 }), 0, (by decide +kernel)⟩,
    ⟨(wst [(0x1200, 0x1, 0, 1), (0x1700, 0x1C, 0, 0)]), 0,
    ({ port := 0, tag := 1, peerAddr := 0, peerPort := 0, outstanding := 0, shareFree := 262144, udpSum := 0 }), 0, (by decide +kernel)⟩,
    ⟨(wst [(0x1200, 0x1, 0, 1), (0x1700, 0x4C, 0, 0)]), 0,
    ({ port := 0, tag := 1, peerAddr := 0, peerPort := 0, outstanding := 0, shareFree := 262144, udpSum := 0 }), 0, (by decide +kernel)⟩,
    ⟨(wst [(0x1200, 0x1, 0, 1), (0x1700, 0x5C, 0, 0)]), 0,
    ({ port := 0, tag := 1, peerAddr := 0, peerPort := 0, outstanding := 0, shareFree := 262144, udpSum := 0 }), 0, (by decide +kernel)⟩⟩

/-- The hypotheses of ShotsLockAndStart can be met, in every clause. -/
theorem witness_ShotsLockAndStart :
  (∃ s : State, ∃ t : Nat, ∃ sh : Fin 1024, ∃ id : Nat, ∃ o : Occ,
    let d := s.devAt t
    d.runs 6 = true ∧ d.occ id = o ∧ o.dur = d.elecDur o.cfg ∧ d.occs.filter (fun e => decide (e.2.rid = sh.val) && e.2.st = .armed &&
      !e.2.ghost) = [(id, o)] ∧ (∀ e ∈ d.occs, e.2.st ≠ .locked ∧ e.2.st ≠ .running ∧ (e.2.rid < sh.val → e.2.st ≠ .armed)) ∧ ∃ start ∈
      o.start, start ≤ d.now + d.lockLead o.dom) ∧
  (∃ s : State, ∃ t : Nat, ∃ sh : Fin 1024, ∃ cur : Nat,
    let d := s.devAt t
    d.runs 6 = true ∧ ∃ z_ ∈ d.dueStart sh,
    let id := z_.1
    let o := z_.2
    let n := o.cfg.channel
    let b := d.bankOf n
    d.bestRival (id, o) = (id, o) ∧ d.occ id = o ∧ o.rid = sh ∧ o.ghost = false ∧ ∃ start ∈ o.start, n < 48 ∧ o.cut = false ∧ d.cutNow o =
      false ∧ d.stops.killLow = false ∧ d.bit 0x28C8 0x01 7 = false ∧ d.stops.linkDown = false ∧ d.tapBlocks = false ∧ d.startCheck n = none
      ∧ (d.bank b).holder = none ∧ o.shadow.getD 14 0 % 2 = 0 ∧ d.bit (0x2780 + d.railOf b) 0x0C 2 = true) :=
  ⟨⟨(wstWith [] (fun d =>
    { d with now := 600000, occs := [(9, { tree := 9, cfg := { enable := true, parent := 65535, channel := 5, duration := 1024000, kind := 1 }, start := some 700000, dur := 1024000, prio := 3, shadow := [5, 5, 5, 5, 5, 5, 5, 0, 5, 5, 5, 5, 5, 5, 0, 5, 5], diag := [1, 500, 3, 100, 0, 7, 9], clo := [0, 0, 0, 0, 0, 0, 0] })] })),
    0, 0, 9,
    ({ tree := 9, cfg := { enable := true, parent := 65535, channel := 5, duration := 1024000, kind := 1 }, start := some 700000, dur := 1024000, prio := 3, shadow := [5, 5, 5, 5, 5, 5, 5, 0, 5, 5, 5, 5, 5, 5, 0, 5, 5], diag := [1, 500, 3, 100, 0, 7, 9], clo := [0, 0, 0, 0, 0, 0, 0] }),
    (by dsimp only; decide +kernel)⟩, ⟨(wstWith [(0x2780, 0xC, 0, 7)] (fun d =>
    { d with now := 600000, occs := [(9, { tree := 9, st := .locked, cfg := { enable := true, parent := 65535, channel := 3, duration := 1024000, kind := 1 }, frozen := true, start := some 600000, stop := 1624000, dur := 1024000, prio := 3, shadow := [5, 5, 5, 5, 5, 5, 5, 0, 5, 5, 5, 5, 5, 5, 0, 5, 5], diag := [1, 500, 3, 100, 0, 7, 9], clo := [0, 0, 0, 0, 0, 0, 0] })], stops := { armHigh := false } })),
    0, 0, 0, (by dsimp only; decide +kernel)⟩⟩

/-- The hypotheses of ShotsEndOrAreCancelled can be met, in every clause. -/
theorem witness_ShotsEndOrAreCancelled :
  (∃ s : State, ∃ t : Nat, ∃ sh : Fin 1024,
    let d := s.devAt t
    ∃ z_ ∈ d.chans.find? (fun e => decide (e.2.shot = sh.val) && e.2.occ.isSome && decide (d.edgeAt e.2.stop ≤ d.now) && decide (d.phase e.1
      ≠ 5)),
    let n := z_.1
    let c := z_.2
    d.chan n = c ∧ d.runs (groupPd n) = true ∧ c.started = true ∧ c.deferWait = false ∧ ∃ id ∈ c.occ, True) ∧
  (∃ s : State, ∃ t : Nat, (s.devAt t).runs 6 = true ∧ ∃ z_ ∈ ((s.devAt t).pendW).head?, True) ∧
  (∃ s : State, ∃ t : Nat, ∃ r : Req, ∃ sh : Fin 1024, ∃ id : Nat,
    let e := (s.devAt t).arrive r
    s.takes t r (0x3000 + sh) 0x11 1 1 = true ∧ (∃ z ∈ (e.present sh).head?, e.present sh = [(id, z.2)] ∧ (∃ q ∈ e.occs, q.1 = z.2.tree) ∧
      z.2.st ≠ .running ∧ e.released z.2 = false ∧ e.chanOf id = none)) ∧
  (∃ s : State, ∃ t : Nat, ∃ r : Req, ∃ sh : Fin 1024,
    let e := (s.devAt t).arrive r
    s.takes t r (0x3000 + sh) 0x11 1 1 = true ∧ ∃ z_ ∈ (e.present sh).head?,
    let x := z_
    x.2.st = .running) ∧
  (∃ s : State, ∃ t : Nat, ∃ r : Req, ∃ sh : Fin 1024, ∃ id : Nat,
    let e := (s.devAt t).arrive r
    s.takes t r (0x3000 + sh) 0x11 1 2 = true ∧ (∃ z ∈ (e.present sh).head?, e.present sh = [(id, z.2)] ∧ (∃ q ∈ e.occs, q.1 = z.2.tree) ∧
      z.2.st ≠ .running ∧ e.released z.2 = false ∧ e.chanOf id = none)) ∧
  (∃ s : State, ∃ t : Nat, ∃ r : Req, ∃ h : Fin 512, ∃ m : Nat, ∃ id : Nat,
    let e := (s.devAt t).arrive r
    let oneOf := fun (h m id : Nat) => (e.occs.filter (fun x => x.2.rid = 0x8000 + h)).map (fun x => ((shotsUnder (e.treeOf x.2.tree)
      (0x8000 + h)).filter (fun y => y.2.st ≠ .done)).map (fun y => (y.1, y.2.rid))) = [[(id, m)]]
    oneOf h m id ∧ (∃ z ∈ (e.present m).head?, e.present m = [(id, z.2)] ∧ (∃ q ∈ e.occs, q.1 = z.2.tree) ∧ z.2.st ≠ .running ∧ e.released
      z.2 = false ∧ e.chanOf id = none) ∧ s.takes t r (0x2400 + h) 0x0E 1 1 = true) ∧
  (∃ s : State, ∃ t : Nat, ∃ r : Req, ∃ h : Fin 512, ∃ m : Nat, ∃ id : Nat,
    let e := (s.devAt t).arrive r
    let oneOf := fun (h m id : Nat) => (e.occs.filter (fun x => x.2.rid = 0x8000 + h)).map (fun x => ((shotsUnder (e.treeOf x.2.tree)
      (0x8000 + h)).filter (fun y => y.2.st ≠ .done)).map (fun y => (y.1, y.2.rid))) = [[(id, m)]]
    oneOf h m id ∧ (∃ z ∈ (e.present m).head?, e.present m = [(id, z.2)] ∧ (∃ q ∈ e.occs, q.1 = z.2.tree) ∧ z.2.st ≠ .running ∧ e.released
      z.2 = false ∧ e.chanOf id = none) ∧ s.takes t r (0x2400 + h) 0x0E 1 2 = true) ∧
  (∃ s : State, ∃ t : Nat, ∃ r : Req, ∃ k : Fin 2, ∃ x : Nat, ∃ m : Nat, ∃ id : Nat,
    let e := (s.devAt t).arrive r
    let oneOf := fun (h m id : Nat) => (e.occs.filter (fun x => x.2.rid = 0x8000 + h)).map (fun x => ((shotsUnder (e.treeOf x.2.tree)
      (0x8000 + h)).filter (fun y => y.2.st ≠ .done)).map (fun y => (y.1, y.2.rid))) = [[(id, m)]]
    s.takes t r (0x2180 + k) 0x34 1 1 = true ∧ e.rooted.filter (fun r => (parentSlot (e.obj (recIx r) 0x02)).isSome && e.recDom r == some
      k.val) = [x] ∧ ((isSheaf x = false ∧ m = x) ∨ ∃ h < 512, x = 0x8000 + h ∧ oneOf h m id) ∧ (∃ z ∈ (e.present m).head?, e.present m =
      [(id, z.2)] ∧ (∃ q ∈ e.occs, q.1 = z.2.tree) ∧ z.2.st ≠ .running ∧ e.released z.2 = false ∧ e.chanOf id = none)) :=
  ⟨⟨(wstWith [] (fun d =>
    { d with now := 600000, chans := [(3, { occ := some 9, shot := 5, prof := [5, 5, 5, 5, 5, 5, 5, 0, 5, 5, 5, 5, 5, 5, 5, 5, 5], diag := [1, 500, 3, 100, 0, 7, 9], start := 1000, stop := 4000, phaseAt := 3000, low := true, started := true })] })),
    0, 5, (by dsimp only; decide +kernel)⟩, ⟨(wstWith [] (fun d =>
    { d with pendW := [{ at_ := 5, recs := [], slots := [] }, { at_ := 6, recs := [(3, { enable := true, channel := 4, kind := 1 })], slots := [(1, 77)] }] })),
    0, (by decide +kernel)⟩, ⟨(wstWith [(0x1200, 0x1, 0, 1)] (fun d =>
    { d with occs := [(9, { tree := 9, cfg := { enable := true, parent := 65535, channel := 5, duration := 1024000, kind := 1 }, start := some 700000, dur := 1024000, prio := 3, shadow := [5, 5, 5, 5, 5, 5, 5, 0, 5, 5, 5, 5, 5, 5, 0, 5, 5], diag := [1, 500, 3, 100, 0, 7, 9], clo := [0, 0, 0, 0, 0, 0, 0] })] })),
    0, ({ port := 0, tag := 1, peerAddr := 0, peerPort := 0, outstanding := 0, shareFree := 262144, udpSum := 0 }), 0, 9,
    (by dsimp only; decide +kernel)⟩, ⟨(wstWith [(0x1200, 0x1, 0, 1)] (fun d =>
    { d with occs := [(9, { tree := 9, st := .running, cfg := { enable := true, parent := 65535, channel := 5, duration := 1024000, kind := 1 }, frozen := true, start := some 600000, dur := 1024000, prio := 3, shadow := [5, 5, 5, 5, 5, 5, 5, 0, 5, 5, 5, 5, 5, 5, 0, 5, 5], diag := [1, 500, 3, 100, 0, 7, 9], clo := [0, 0, 0, 0, 0, 0, 0] })] })),
    0, ({ port := 0, tag := 1, peerAddr := 0, peerPort := 0, outstanding := 0, shareFree := 262144, udpSum := 0 }), 0,
    (by dsimp only; decide +kernel)⟩, ⟨(wstWith [(0x1200, 0x1, 0, 1)] (fun d =>
    { d with occs := [(9, { tree := 9, cfg := { enable := true, parent := 65535, channel := 5, duration := 1024000, kind := 1 }, start := some 700000, dur := 1024000, prio := 3, shadow := [5, 5, 5, 5, 5, 5, 5, 0, 5, 5, 5, 5, 5, 5, 0, 5, 5], diag := [1, 500, 3, 100, 0, 7, 9], clo := [0, 0, 0, 0, 0, 0, 0] })] })),
    0, ({ port := 0, tag := 1, peerAddr := 0, peerPort := 0, outstanding := 0, shareFree := 262144, udpSum := 0 }), 0, 9,
    (by dsimp only; decide +kernel)⟩, ⟨(wstWith [(0x1200, 0x1, 0, 1)] (fun d =>
    { d with occs := [(8, { rid := 32771, tree := 8, cfg := { enable := true, parent := 65535, channel := 5, duration := 1024000, kind := 1 }, start := some 600000, dur := 1024000, prio := 3, shadow := [5, 5, 5, 5, 5, 5, 5, 0, 5, 5, 5, 5, 5, 5, 0, 5, 5], diag := [1, 500, 3, 100, 0, 7, 9], clo := [0, 0, 0, 0, 0, 0, 0] }), (9, { tree := 8, cfg := { enable := true, parent := 32771, channel := 5, duration := 1024000, kind := 1 }, start := some 600000, dur := 1024000, prio := 3, shadow := [5, 5, 5, 5, 5, 5, 5, 0, 5, 5, 5, 5, 5, 5, 0, 5, 5], diag := [1, 500, 3, 100, 0, 7, 9], clo := [0, 0, 0, 0, 0, 0, 0] })] })),
    0, ({ port := 0, tag := 1, peerAddr := 0, peerPort := 0, outstanding := 0, shareFree := 262144, udpSum := 0 }), 3, 0, 9,
    (by dsimp only; decide +kernel)⟩, ⟨(wstWith [(0x1200, 0x1, 0, 1)] (fun d =>
    { d with occs := [(8, { rid := 32771, tree := 8, cfg := { enable := true, parent := 65535, channel := 5, duration := 1024000, kind := 1 }, start := some 600000, dur := 1024000, prio := 3, shadow := [5, 5, 5, 5, 5, 5, 5, 0, 5, 5, 5, 5, 5, 5, 0, 5, 5], diag := [1, 500, 3, 100, 0, 7, 9], clo := [0, 0, 0, 0, 0, 0, 0] }), (9, { tree := 8, cfg := { enable := true, parent := 32771, channel := 5, duration := 1024000, kind := 1 }, start := some 600000, dur := 1024000, prio := 3, shadow := [5, 5, 5, 5, 5, 5, 5, 0, 5, 5, 5, 5, 5, 5, 0, 5, 5], diag := [1, 500, 3, 100, 0, 7, 9], clo := [0, 0, 0, 0, 0, 0, 0] })] })),
    0, ({ port := 0, tag := 1, peerAddr := 0, peerPort := 0, outstanding := 0, shareFree := 262144, udpSum := 0 }), 3, 0, 9,
    (by dsimp only; decide +kernel)⟩, ⟨(wstWith [(0x3000, 0x2, 0, 16384), (0x2180, 0x30, 0, 1), (0x1200, 0x1, 0, 1), (0x1700, 0x2, 0, 0)]
    (fun d =>
    { d with occs := [(9, { tree := 9, cfg := { enable := true, parent := 65535, channel := 5, duration := 1024000, kind := 1 }, start := some 700000, dur := 1024000, prio := 3, shadow := [5, 5, 5, 5, 5, 5, 5, 0, 5, 5, 5, 5, 5, 5, 0, 5, 5], diag := [1, 500, 3, 100, 0, 7, 9], clo := [0, 0, 0, 0, 0, 0, 0] })] })),
    0, ({ port := 0, tag := 1, peerAddr := 0, peerPort := 0, outstanding := 0, shareFree := 262144, udpSum := 0 }), 0, 0, 0, 9,
    (by dsimp only; decide +kernel)⟩⟩

/-- The hypotheses of PhasesOfAShot can be met, in every clause. -/
theorem witness_PhasesOfAShot :
  (∃ s : State, ∃ t : Nat, ∃ n : Fin 48, ∃ cur : Nat,
    let d := s.devAt t
    let c := d.chan n
    d.runs (groupPd n) = true ∧ c.deferWait = false ∧ d.phase n = 2 ∧ (d.bank (d.bankOf n)).entering = none) ∧
  (∃ s : State, ∃ t : Nat, ∃ n : Fin 48, ∃ cur : Nat,
    let d := s.devAt t
    let c := d.chan n
    d.runs (groupPd n) = true ∧ c.deferWait = false ∧ d.phase n = 2 ∧ (d.bank (d.bankOf n)).entering = none ∧ c.phaseAt + c.prof.getD 1 0 *
      1024 ≤ d.now) ∧
  (∃ s : State, ∃ t : Nat, ∃ n : Fin 48, ∃ cur : Nat,
    let d := s.devAt t
    let c := d.chan n
    d.runs (groupPd n) = true ∧ c.deferWait = false ∧ d.phase n = 3 ∧ c.phaseAt + c.prof.getD 4 0 * 1024 ≤ d.now) ∧
  (∃ s : State, ∃ t : Nat, ∃ n : Fin 48, ∃ cur : Nat,
    let d := s.devAt t
    let c := d.chan n
    d.runs (groupPd n) = true ∧ c.deferWait = false ∧ d.phase n = 5) ∧
  (∃ s : State, ∃ t : Nat, ∃ n : Fin 48, ∃ cur : Nat,
    let d := s.devAt t
    let c := d.chan n
    d.runs (groupPd n) = true ∧ c.deferWait = false ∧ d.phase n = 5 ∧ c.phaseAt + c.prof.getD 11 0 * 1024 ≤ d.now) :=
  ⟨⟨(wst [(0x2700, 0x3, 0, 2)]), 0, 0, 0, (by dsimp only; decide +kernel)⟩, ⟨(wstWith [(0x2700, 0x3, 0, 2)] (fun d =>
    { d with now := 500000 })), 0, 0, 0, (by dsimp only; decide +kernel)⟩, ⟨(wstWith [(0x2700, 0x3, 0, 3)] (fun d =>
    { d with now := 500000 })), 0, 0, 0, (by dsimp only; decide +kernel)⟩, ⟨(wst [(0x2700, 0x3, 0, 5)]), 0, 0, 0,
    (by dsimp only; decide +kernel)⟩, ⟨(wstWith [(0x2700, 0x3, 0, 5)] (fun d => { d with now := 500000 })), 0, 0, 0,
    (by dsimp only; decide +kernel)⟩⟩

/-- The hypotheses of RegulationChops can be met, in every clause. -/
theorem witness_RegulationChops :
  (∃ s : State, ∃ t : Nat, ∃ n : Fin 48,
    let d := s.devAt t
    let c := d.chan n
    d.runs (groupPd n) = true ∧ (d.phase n = 3 ∨ d.phase n = 4) ∧ c.low = true ∧ c.onAt + c.prof.getD 9 0 * 64 ≤ d.now) ∧
  (∃ s : State, ∃ t : Nat, ∃ n : Fin 48,
    let d := s.devAt t
    let c := d.chan n
    d.runs (groupPd n) = true ∧ (d.phase n = 3 ∨ d.phase n = 4) ∧ c.low = false ∧ c.offAt + c.prof.getD 8 0 * 64 ≤ d.now) ∧
  (∃ s : State, ∃ t : Nat, ∃ n : Fin 48,
    let d := s.devAt t
    let c := d.chan n
    d.runs (groupPd n) = true ∧ (d.phase n = 3 ∨ d.phase n = 4) ∧ c.low = false ∧ d.now < c.offAt + c.prof.getD 8 0 * 64 ∧ c.limitedNow =
      false ∧ c.limited + 1 ≠ c.diag.getD 6 0) ∧
  (∃ s : State, ∃ t : Nat, ∃ n : Fin 48,
    let d := s.devAt t
    let c := d.chan n
    d.runs (groupPd n) = true ∧ (d.phase n = 3 ∨ d.phase n = 4) ∧ c.low = false ∧ d.now < c.offAt + c.prof.getD 8 0 * 64 ∧ c.limitedNow =
      false ∧ c.limited + 1 = c.diag.getD 6 0) :=
  ⟨⟨(wstWith [(0x2700, 0x3, 0, 3)] (fun d =>
    { d with now := 500000, chans := [(0, { occ := some 9, shot := 4, prof := [5, 5, 5, 5, 5, 5, 5, 0, 5, 5, 5, 5, 5, 5, 5, 5, 5], diag := [1, 500, 3, 100, 0, 7, 9], start := 1000, stop := 400000, phaseAt := 3000, low := true, onAt := 2000, firstAt := 1500, started := true })] })),
    0, 0, (by dsimp only; decide +kernel)⟩, ⟨(wstWith [(0x2700, 0x3, 0, 3)] (fun d => { d with now := 500000 })), 0, 0,
    (by dsimp only; decide +kernel)⟩, ⟨(wstWith [(0x2700, 0x3, 0, 3)] (fun d =>
    { d with chans := [(0, { occ := some 9, shot := 4, prof := [5, 5, 5, 5, 5, 5, 5, 0, 5, 5, 5, 5, 5, 5, 5, 5, 5], diag := [1, 500, 3, 100, 0, 7, 9], start := 1000, stop := 400000, phaseAt := 3000, onAt := 2000, offAt := 499990, firstAt := 1500, started := true })] })),
    0, 0, (by dsimp only; decide +kernel)⟩, ⟨(wstWith [(0x2700, 0x3, 0, 3)] (fun d =>
    { d with chans := [(0, { occ := some 9, shot := 4, prof := [5, 5, 5, 5, 5, 5, 5, 0, 5, 5, 5, 5, 5, 5, 5, 5, 5], diag := [1, 500, 3, 100, 0, 7, 9], start := 1000, stop := 400000, phaseAt := 3000, onAt := 2000, offAt := 499990, limited := 8, firstAt := 1500, started := true })] })),
    0, 0, (by dsimp only; decide +kernel)⟩⟩

/-- The hypotheses of BanksAndRails can be met, in every clause. -/
theorem witness_BanksAndRails :
  (∃ s : State, ∃ t : Nat, ∃ b : Fin 16, ∃ cur : Nat,
    let d := s.devAt t
    ∃ z_ ∈ (d.bank b).rise,
    let at_ := z_.2
    d.runs (if b.val < 8 then 7 else 8) = true ∧ at_ ≤ d.now) ∧
  (∃ s : State, ∃ t : Nat, ∃ n : Fin 48,
    let d := s.devAt t
    let c := d.chan n
    d.runs (groupPd n) = true ∧ c.deferWait = true ∧ c.waitFrom + c.deferMax * 1024 ≤ d.now ∧ d.leavesNow (d.bankOf n) = false) ∧
  (∃ s : State, ∃ t : Nat, ∃ n : Fin 48,
    let d := s.devAt t
    let c := d.chan n
    d.runs (groupPd n) = true ∧ c.deferWait = true ∧ c.waitFrom + c.deferMax * 1024 ≤ d.now ∧ d.leavesNow (d.bankOf n) = true) ∧
  (∃ s : State, ∃ t : Nat, ∃ n : Fin 48,
    let d := s.devAt t
    let c := d.chan n
    d.runs (groupPd n) = true ∧ c.deferWait = false ∧ c.railWait = true ∧ c.waitFrom + c.prof.getD 13 0 * 1024 ≤ d.now) ∧
  (∃ s : State, ∃ t : Nat, ∃ r : Req, ∃ b : Fin 16, s.takes t r (0x2740 + b) 0x08 1 1 = true) ∧
  (∃ s : State, ∃ t : Nat, ∃ x : Fin 2, ∃ mv : Nat,
    let d := s.devAt t
    let i := 0x2780 + x.val
    d.runs 9 = true ∧ d.obj i 0x01 = 1 ∧ (d.boost x).softDone = true ∧ d.readyMv x ≤ mv) ∧
  (∃ s : State, ∃ t : Nat, ∃ x : Fin 2, ∃ mv : Nat,
    let d := s.devAt t
    d.runs 9 = true ∧ mv + 1000 < d.readyMv x) ∧
  (∃ s : State, ∃ t : Nat, ∃ x : Fin 2, ∃ mv : Nat,
    let d := s.devAt t
    let i := 0x2780 + x.val
    d.runs 9 = true ∧ d.obj i 0x01 = 1 ∧ d.stops.armHigh = false ∧ d.stops.killLow = false ∧ d.bit 0x28C8 0x01 7 = false ∧ d.tapBlocks =
      false ∧ d.boostDue x = true ∧ mv < d.obj i 0x02 * 250 + 500) ∧
  (∃ s : State, ∃ t : Nat, ∃ x : Fin 2, ∃ mv : Nat,
    let d := s.devAt t
    let i := 0x2780 + x.val
    d.runs 9 = true ∧ d.obj i 0x01 = 1 ∧ d.stops.armHigh = false ∧ d.stops.killLow = false ∧ d.bit 0x28C8 0x01 7 = false ∧ d.tapBlocks =
      false ∧ d.boostDue x = true ∧ d.obj i 0x02 * 250 + 500 ≤ mv) ∧
  (∃ s : State, ∃ t : Nat, ∃ x : Fin 2, ∃ mv : Nat,
    let d := s.devAt t
    let i := 0x2780 + x.val
    d.runs 9 = true ∧ d.obj i 0x01 = 1 ∧ d.stops.armHigh = false ∧ d.stops.killLow = false ∧ d.bit 0x28C8 0x01 7 = false ∧ d.tapBlocks =
      false ∧ d.boostDue x = false) ∧
  (∃ s : State, ∃ t : Nat, ∃ x : Fin 2, ∃ mv : Nat, ∃ limit : Bool,
    let d := s.devAt t
    d.runs 9 = true ∧ (d.boost x).gate = true) ∧
  (∃ s : State, ∃ t : Nat, ∃ x : Fin 2, ∃ mv : Nat,
    let d := s.devAt t
    let i := 0x2780 + x.val
    d.runs 9 = true ∧ d.obj i 0x01 = 1 ∧ d.bit i 0x0C 3 = true ∧ d.refNow x (d.obj i 0x02) (d.obj i 0x09) = refGoal (d.obj i 0x02)) ∧
  (∃ s : State, ∃ t : Nat, ∃ x : Fin 2, ∃ mv : Nat, ∃ r : Req,
    let i := 0x2780 + x.val
    s.takes t r i 0x01 1 1 = true) ∧
  (∃ s : State, ∃ t : Nat, ∃ x : Fin 2, ∃ mv : Nat, ∃ r : Req,
    let i := 0x2780 + x.val
    s.takes t r i 0x01 1 0 = true) :=
  ⟨⟨(wstWith [] (fun d => { d with now := 500000, banks := [(0, { rise := some (true, 400), entering := some (0, 3) })] })), 0, 0, 0,
    (by dsimp only; decide +kernel)⟩, ⟨(wstWith [] (fun d =>
    { d with now := 500000, chans := [(0, { occ := some 9, shot := 4, prof := [5, 5, 5, 5, 5, 5, 5, 0, 5, 5, 5, 5, 5, 5, 5, 5, 5], diag := [1, 500, 3, 100, 0, 7, 9], start := 1000, stop := 400000, phaseAt := 3000, low := true, onAt := 2000, deferWait := true, waitFrom := 5, firstAt := 1500 })] })),
    0, 0, (by dsimp only; decide +kernel)⟩, ⟨(wstWith [] (fun d =>
    { d with now := 500000, chans := [(0, { occ := some 9, shot := 4, prof := [5, 5, 5, 5, 5, 5, 5, 0, 5, 5, 5, 5, 5, 5, 5, 5, 5], diag := [1, 500, 3, 100, 0, 7, 9], start := 1000, stop := 400000, phaseAt := 3000, low := true, onAt := 2000, deferWait := true, waitFrom := 5, firstAt := 1500 }), (1, { occ := some 9, shot := 4, prof := [5, 5, 5, 5, 5, 5, 5, 0, 5, 5, 5, 5, 5, 5, 5, 5, 5], diag := [1, 500, 3, 100, 0, 7, 9], start := 1000, stop := 500000, phaseAt := 3000, low := true, onAt := 2000, firstAt := 1500, started := true })], banks := [(0, { holder := some 1 })] })),
    0, 0, (by dsimp only; decide +kernel)⟩, ⟨(wstWith [] (fun d =>
    { d with now := 500000, chans := [(0, { occ := some 9, shot := 4, prof := [5, 5, 5, 5, 5, 5, 5, 0, 5, 5, 5, 5, 5, 5, 5, 5, 5], diag := [1, 500, 3, 100, 0, 7, 9], start := 1000, stop := 400000, phaseAt := 3000, low := true, onAt := 2000, railWait := true, waitFrom := 5, firstAt := 1500 })] })),
    0, 0, (by dsimp only; decide +kernel)⟩, ⟨(wst [(0x1200, 0x1, 0, 1), (0x1700, 0x4C, 0, 0)]), 0,
    ({ port := 0, tag := 1, peerAddr := 0, peerPort := 0, outstanding := 0, shareFree := 262144, udpSum := 0 }), 0, (by decide +kernel)⟩,
    ⟨(wstWith [(0x2780, 0x1, 0, 1)] (fun d =>
    { d with boosts := [(0, { mv := 60000, softDone := true, gate := true }), (1, { mv := 60000, softDone := true, gate := true })] })), 0,
    0, 64000, (by dsimp only; decide +kernel)⟩, ⟨(wst []), 0, 0, 0, (by dsimp only; decide +kernel)⟩, ⟨(wstWith [(0x2780, 0x1, 0, 1)] (fun d
    => { d with stops := { armHigh := false } })), 0, 0, 0, (by dsimp only; decide +kernel)⟩, ⟨(wstWith [(0x2780, 0x1, 0, 1)] (fun d =>
    { d with stops := { armHigh := false } })), 0, 0, 65500, (by dsimp only; decide +kernel)⟩, ⟨(wstWith [(0x2780, 0x1, 0, 1)] (fun d =>
    { d with boosts := [(0, { periodAt := some 999999995, periodEnd := 1000005000 }), (1, { periodAt := some 999999995, periodEnd := 1000005000 })], stops := { armHigh := false } })),
    0, 0, 0, (by dsimp only; decide +kernel)⟩, ⟨(wstWith [] (fun d =>
    { d with boosts := [(0, { mv := 60000, softDone := true, gate := true }), (1, { mv := 60000, softDone := true, gate := true })] })), 0,
    0, 0, false, (by dsimp only; decide +kernel)⟩, ⟨(wstWith [(0x2780, 0x1, 0, 1), (0x2780, 0xC, 0, 9)] (fun d =>
    { d with now := 1000000000 })), 0, 0, 0, (by dsimp only; decide +kernel)⟩, ⟨(wst [(0x1200, 0x1, 0, 1), (0x1700, 0x5C, 0, 0)]), 0, 0, 0,
    ({ port := 0, tag := 1, peerAddr := 0, peerPort := 0, outstanding := 0, shareFree := 262144, udpSum := 0 }),
    (by dsimp only; decide +kernel)⟩, ⟨(wst [(0x1200, 0x1, 0, 1), (0x1700, 0x5C, 0, 0)]), 0, 0, 0,
    ({ port := 0, tag := 1, peerAddr := 0, peerPort := 0, outstanding := 0, shareFree := 262144, udpSum := 0 }),
    (by dsimp only; decide +kernel)⟩⟩

/-- The hypotheses of CapturesAndResults can be met, in every clause. -/
theorem witness_CapturesAndResults :
  (∃ s : State, ∃ t : Nat, ∃ k : Fin 16,
    let d := s.devAt t
    let l := d.lane k
    d.runs 10 = true ∧ ∃ c ∈ l.res, l.cap = none ∧ c.start ≤ d.now ∧ l.held = false) ∧
  (∃ s : State, ∃ t : Nat, ∃ k : Fin 16,
    let d := s.devAt t
    let l := d.lane k
    d.runs 10 = true ∧ ∃ c ∈ l.res, l.cap = none ∧ c.start ≤ d.now ∧ l.held = true) ∧
  (∃ s : State, ∃ t : Nat, ∃ k : Fin 16,
    let d := s.devAt t
    let l := d.lane k
    d.runs 10 = true ∧ ∃ c ∈ l.cap, True) ∧
  (∃ s : State, ∃ t : Nat, ∃ k : Fin 16, ∃ xs : List Nat,
    let d := s.devAt t
    let l := d.lane k
    d.runs 10 = true ∧ ∃ c ∈ l.cap, c.stop ≤ d.now) ∧
  (∃ s : State, ∃ t : Nat, ∃ k : Fin 16, ∃ r : Req,
    let i := 0x2840 + k.val
    s.takes t r i 0x07 1 1 = true) ∧
  (∃ s : State, ∃ t : Nat, ∃ k : Fin 16, ∃ r : Req,
    let i := 0x2840 + k.val
    s.takes t r i 0x07 1 2 = true) ∧
  (∃ s : State, ∃ t : Nat, ∃ k : Fin 16,
    let d := s.devAt t
    d.runs 10 = true ∧ ∃ z_ ∈ ((d.lane k).toSearch).head?,
    let c := z_
    (c.clo.getD 0 0 ≠ 1 ∨ c.decayEnd.isSome = true)) ∧
  (∃ s : State, ∃ t : Nat, ∃ n : Fin 48,
    let d := s.devAt t
    d.runs 10 = true ∧ ∃ z_ ∈ ((d.closure n).res).head?, True) :=
  ⟨⟨(wstWith [] (fun d =>
    { d with now := 4000, lanes := [(0, { res := some { occ := 4, shot := 3, chan := 47, start := 1000, stop := 3000, e := 2000, t0 := 1024, clo := [1, 100, 500, 2, 2, 0, 5, 0], decayEnd := some 1500, duration := 500, role := 1, durMode := 1 } })] })),
    0, 0, (by dsimp only; decide +kernel)⟩, ⟨(wstWith [] (fun d =>
    { d with now := 4000, lanes := [(0, { res := some { occ := 4, shot := 3, chan := 47, start := 1000, stop := 3000, e := 2000, t0 := 1024, clo := [1, 100, 500, 2, 2, 0, 5, 0], decayEnd := some 1500, duration := 500, role := 1, durMode := 1 }, held := true })] })),
    0, 0, (by dsimp only; decide +kernel)⟩, ⟨(wstWith [] (fun d =>
    { d with lanes := [(0, { cap := some { occ := 4, shot := 3, chan := 47, start := 1000, stop := 3000, e := 2000, t0 := 1024, clo := [1, 100, 500, 2, 2, 0, 5, 0], decayEnd := some 1500, duration := 500, role := 1, durMode := 1 } })] })),
    0, 0, (by dsimp only; decide +kernel)⟩, ⟨(wstWith [] (fun d =>
    { d with now := 4000, lanes := [(0, { cap := some { occ := 4, shot := 3, chan := 47, start := 1000, stop := 3000, e := 2000, t0 := 1024, clo := [1, 100, 500, 2, 2, 0, 5, 0], decayEnd := some 1500, duration := 500, role := 1, durMode := 1 } })] })),
    0, 0, [], (by dsimp only; decide +kernel)⟩, ⟨(wst [(0x1200, 0x1, 0, 1), (0x1200, 0x3, 0, 0xFFFFFFFF), (0x1700, 0x1, 0, 0)]), 0, 0,
    ({ port := 0, tag := 1, peerAddr := 0, peerPort := 0, outstanding := 0, shareFree := 262144, udpSum := 0 }),
    (by dsimp only; decide +kernel)⟩, ⟨(wst [(0x1200, 0x1, 0, 1), (0x1200, 0x3, 0, 0xFFFFFFFF), (0x1700, 0x1, 0, 0)]), 0, 0,
    ({ port := 0, tag := 1, peerAddr := 0, peerPort := 0, outstanding := 0, shareFree := 262144, udpSum := 0 }),
    (by dsimp only; decide +kernel)⟩, ⟨(wstWith [] (fun d =>
    { d with lanes := [(0, { toSearch := [{ occ := 4, shot := 3, chan := 47, start := 1000, stop := 3000, e := 2000, t0 := 1024, clo := [1, 100, 500, 2, 2, 0, 5, 0], decayEnd := some 1500, duration := 500, role := 1, durMode := 1 }] })] })),
    0, 0, (by dsimp only; decide +kernel)⟩, ⟨(wstWith [] (fun d =>
    { d with closures := [(0, { res := [{ flags := 1, close := 2000, hyd := 900, kink := -5, lane := 3, shot := 8, duration := 880, role := 1, durMode := 1, clo := [1, 100, 500, 2, 2, 0, 5, 0, 0, 1, 256, 15, 4294967291, 12, 0, 50, 7, 2] }] })] })),
    0, 0, (by dsimp only; decide +kernel)⟩⟩

/-- The hypotheses of TrimsLearn can be met, in every clause. -/
theorem witness_TrimsLearn :
  (∃ s : State, ∃ t : Nat, ∃ n : Fin 48,
    let d := s.devAt t
    d.runs 10 = true ∧ d.coreDown 3 = false ∧ ∃ z_ ∈ ((d.closure n).learn).head?,
    let r := z_
    r.role < 4) ∧
  (∃ s : State, ∃ t : Nat, ∃ n : Fin 48, ∃ r : Req, ∃ mask : Nat,
    let i := 0x2800 + n.val
    s.takes t r i 0x28 1 mask = true) :=
  ⟨⟨(wstWith [] (fun d =>
    { d with closures := [(0, { learn := [{ flags := 1, close := 2000, hyd := 900, kink := -5, lane := 3, shot := 8, duration := 880, role := 1, durMode := 1, clo := [1, 100, 500, 2, 2, 0, 5, 0, 0, 1, 256, 15, 4294967291, 12, 0, 50, 7, 2] }, { flags := 4, lane := 3, role := 3, clo := [1, 100, 500, 2, 2, 0, 5, 0, 0, 1, 20, 15, 4294967291, 12, 0, 50, 7, 2], taken := 5, cutAt := 17 }] })] })),
    0, 0, (by dsimp only; decide +kernel)⟩, ⟨(wst [(0x1200, 0x1, 0, 1), (0x1200, 0x3, 0, 0xFFFFFFFF), (0x1700, 0x1C, 0, 0)]), 0, 0,
    ({ port := 0, tag := 1, peerAddr := 0, peerPort := 0, outstanding := 0, shareFree := 262144, udpSum := 0 }), 0,
    (by dsimp only; decide +kernel)⟩⟩

/-- The hypotheses of ClearsOfSensing can be met, in every clause. -/
theorem witness_ClearsOfSensing :
  (∃ s : State, ∃ t : Nat, ∃ r : Req, ∃ n : Fin 48, s.takes t r (0x2800 + n) 0x29 1 1 = true) ∧
  (∃ s : State, ∃ t : Nat, ∃ r : Req, ∃ k : Fin 16, s.takes t r (0x2840 + k) 0x0C 1 1 = true) ∧
  (∃ s : State, ∃ t : Nat, ∃ r : Req, ∃ n : Fin 48, s.takes t r (0x2880 + n) 0x13 1 1 = true) ∧
  (∃ s : State, ∃ t : Nat, ∃ r : Req, ∃ b : Fin 16, s.takes t r (0x28B0 + b) 0x09 1 1 = true) ∧
  (∃ s : State, ∃ t : Nat, ∃ r : Req, ∃ n : Fin 48, s.takes t r (0x2880 + n) 0x14 1 1 = true) ∧
  (∃ s : State, ∃ t : Nat, ∃ r : Req, ∃ b : Fin 16, s.takes t r (0x28B0 + b) 0x0A 1 1 = true) ∧
  (∃ s : State, ∃ t : Nat, ∃ r : Req, ∃ x : Fin 2, s.takes t r (0x28C0 + x) 0x08 1 1 = true) ∧
  (∃ s : State, ∃ t : Nat, ∃ r : Req, s.takes t r 0x28C8 0x0A 1 1 = true) ∧
  (∃ s : State, ∃ t : Nat, ∃ r : Req, ∃ c : Fin 24, s.takes t r (0x2900 + c) 0x1E 1 1 = true) ∧
  (∃ s : State, ∃ t : Nat, ∃ r : Req, ∃ v : Fin 8, s.takes t r (0x2920 + v) 0x33 1 1 = true) :=
  ⟨⟨(wst [(0x1200, 0x1, 0, 1), (0x1200, 0x3, 0, 0xFFFFFFFF), (0x1700, 0x1C, 0, 0)]), 0,
    ({ port := 0, tag := 1, peerAddr := 0, peerPort := 0, outstanding := 0, shareFree := 262144, udpSum := 0 }), 0, (by decide +kernel)⟩,
    ⟨(wst [(0x1200, 0x1, 0, 1), (0x1200, 0x3, 0, 0xFFFFFFFF), (0x1700, 0x1, 0, 0)]), 0,
    ({ port := 0, tag := 1, peerAddr := 0, peerPort := 0, outstanding := 0, shareFree := 262144, udpSum := 0 }), 0, (by decide +kernel)⟩,
    ⟨(wst [(0x1200, 0x1, 0, 1), (0x1700, 0x1C, 0, 0)]), 0,
    ({ port := 0, tag := 1, peerAddr := 0, peerPort := 0, outstanding := 0, shareFree := 262144, udpSum := 0 }), 0, (by decide +kernel)⟩,
    ⟨(wst [(0x1200, 0x1, 0, 1), (0x1700, 0x4C, 0, 0)]), 0,
    ({ port := 0, tag := 1, peerAddr := 0, peerPort := 0, outstanding := 0, shareFree := 262144, udpSum := 0 }), 0, (by decide +kernel)⟩,
    ⟨(wst [(0x1200, 0x1, 0, 1), (0x1700, 0x1C, 0, 0)]), 0,
    ({ port := 0, tag := 1, peerAddr := 0, peerPort := 0, outstanding := 0, shareFree := 262144, udpSum := 0 }), 0, (by decide +kernel)⟩,
    ⟨(wst [(0x1200, 0x1, 0, 1), (0x1700, 0x4C, 0, 0)]), 0,
    ({ port := 0, tag := 1, peerAddr := 0, peerPort := 0, outstanding := 0, shareFree := 262144, udpSum := 0 }), 0, (by decide +kernel)⟩,
    ⟨(wst [(0x1200, 0x1, 0, 1), (0x1700, 0x5C, 0, 0)]), 0,
    ({ port := 0, tag := 1, peerAddr := 0, peerPort := 0, outstanding := 0, shareFree := 262144, udpSum := 0 }), 0, (by decide +kernel)⟩,
    ⟨(wst [(0x1200, 0x1, 0, 1), (0x1700, 0x1, 0, 0)]), 0,
    ({ port := 0, tag := 1, peerAddr := 0, peerPort := 0, outstanding := 0, shareFree := 262144, udpSum := 0 }), (by decide +kernel)⟩, ⟨(wst
    [(0x1200, 0x1, 0, 1), (0x1200, 0x3, 0, 0xFFFFFFFF), (0x1700, 0x3, 0, 0)]), 0,
    ({ port := 0, tag := 1, peerAddr := 0, peerPort := 0, outstanding := 0, shareFree := 262144, udpSum := 0 }), 0, (by decide +kernel)⟩,
    ⟨(wst [(0x1200, 0x1, 0, 1), (0x1200, 0x3, 0, 0xFFFFFFFF), (0x1700, 0x3, 0, 0)]), 0,
    ({ port := 0, tag := 1, peerAddr := 0, peerPort := 0, outstanding := 0, shareFree := 262144, udpSum := 0 }), 0, (by decide +kernel)⟩⟩

/-- The hypotheses of DiagnosticsAndLimits can be met, in every clause. -/
theorem witness_DiagnosticsAndLimits :
  (∃ s : State, ∃ t : Nat, ∃ n : Fin 48, ∃ cur : Nat, ∃ desat : Bool,
    let d := s.devAt t
    let c := d.chan n
    d.runs (groupPd n) = true ∧ c.started = true ∧ c.deferWait = false ∧ ∃ id ∈ c.occ, 2 ≤ d.phase n ∧ d.phase n ≤ 4 ∧ c.low = true ∧
      c.firstAt + c.diag.getD 2 0 * 1024 ≤ d.now ∧ c.firstAt + c.diag.getD 2 0 * 1024 < c.stop ∧ cur < c.diag.getD 1 0) ∧
  (∃ s : State, ∃ t : Nat, ∃ n : Fin 48, ∃ cur : Nat, ∃ desat : Bool,
    let d := s.devAt t
    let c := d.chan n
    d.runs (groupPd n) = true ∧ c.started = true ∧ c.deferWait = false ∧ ∃ id ∈ c.occ, 2 ≤ d.phase n ∧ d.phase n ≤ 4 ∧ c.low = true ∧ (desat
      = true → c.onAt + c.diag.getD 5 0 * 64 ≤ d.now)) ∧
  (∃ s : State, ∃ t : Nat, ∃ n : Fin 48,
    let d := s.devAt t
    let b := d.bankOf n
    d.runs (groupPd n) = true ∧ (d.chan n).low = false ∧ (d.bank b).bhb = true ∨ (d.bank b).bhs = true ∧ (d.bank b).rose + d.obj (0x28B0 +
      b) 0x01 * 1024 ≤ d.now) ∧
  (∃ s : State, ∃ t : Nat, ∃ b : Fin 16, ∃ kind : Fin 3,
    let d := s.devAt t
    d.runs (if b.val < 8 then 7 else 8) = true) ∧
  (∃ s : State, ∃ t : Nat, ∃ drivers : List Int, ∃ power : Int, ∃ core : Int,
    let d := s.devAt t
    d.ready = true) ∧
  (∃ s : State, ∃ t : Nat, ∃ x : Fin 2, ∃ mv : Nat,
    let d := s.devAt t
    let j := 0x28C0 + x.val
    d.runs 9 = true ∧ d.bit j 0x04 0 = false ∧ min ((d.obj (0x2780 + x) 0x02 + d.obj j 0x01) * 250) 110000 ≤ mv) ∧
  (∃ s : State, ∃ t : Nat, ∃ x : Fin 2, ∃ mv : Nat,
    let d := s.devAt t
    mv + 4000 ≤ (d.boost x).ovThr) ∧
  (∃ s : State, ∃ t : Nat, ∃ x : Fin 2, ∃ mv : Nat,
    let d := s.devAt t
    let j := 0x28C0 + x.val
    d.runs 9 = true ∧ d.obj (0x2780 + x) 0x01 = 1 ∧ (d.boost x).softDone = true ∧ d.bit (0x2780 + x) 0x0C 2 = false ∧ d.bit j 0x04 2 = false
      ∧ (d.boost x).notReadyFrom + d.obj j 0x02 * tqMs ≤ d.now) :=
  ⟨⟨(wstWith [(0x2700, 0x3, 0, 2)] (fun d =>
    { d with now := 500000, chans := [(0, { occ := some 9, shot := 4, prof := [5, 5, 5, 5, 5, 5, 5, 5, 5, 5, 5, 5, 5, 5, 5, 5, 5, 5, 5, 5], diag := [1, 500, 3, 100, 0, 7], start := 1000, stop := 400000, low := true, onAt := 2000, firstAt := 1500, started := true })] })),
    0, 0, 0, false, (by dsimp only; decide +kernel)⟩, ⟨(wstWith [(0x2700, 0x3, 0, 2)] (fun d =>
    { d with chans := [(0, { occ := some 9, shot := 4, prof := [5, 5, 5, 5, 5, 5, 5, 5, 5, 5, 5, 5, 5, 5, 5, 5, 5, 5, 5, 5], diag := [1, 500, 3, 100, 0, 7], start := 1000, stop := 400000, low := true, onAt := 2000, firstAt := 1500, started := true })] })),
    0, 0, 0, false, (by dsimp only; decide +kernel)⟩, ⟨(wstWith [] (fun d =>
    { d with now := 500000, banks := [(0, { bhb := true, rose := 77 })] })), 0, 0, (by dsimp only; decide +kernel)⟩, ⟨(wst []), 0, 0, 0,
    (by dsimp only; decide +kernel)⟩, ⟨(wst []), 0, [], 0, 0, (by dsimp only; decide +kernel)⟩, ⟨(wst []), 0, 0, 109999,
    (by dsimp only; decide +kernel)⟩, ⟨(wstWith [] (fun d =>
    { d with boosts := [(0, { mv := 71000, ovThr := 70000 }), (1, { mv := 71000, ovThr := 70000 })] })), 0, 0, 0,
    (by dsimp only; decide +kernel)⟩, ⟨(wstWith [(0x2780, 0x1, 0, 1)] (fun d =>
    { d with now := 1000000000000, boosts := [(0, { mv := 60000, softDone := true, gate := true, notReadyFrom := 5 }), (1, { mv := 60000, softDone := true, gate := true, notReadyFrom := 5 })] })),
    0, 0, 0, (by dsimp only; decide +kernel)⟩⟩

/-- The hypotheses of ArmPathAndLink can be met, in every clause. -/
theorem witness_ArmPathAndLink :
  (∃ s : State, ∃ t : Nat,
    let d := s.devAt t
    d.stops.linkDown = true) ∧
  (∃ s : State, ∃ t : Nat,
    let d := s.devAt t
    d.bit 0x28C8 0x01 3 = true ∧ d.stops.lastAlive + 1 * tqUs ≤ d.now) ∧
  (∃ s : State, ∃ t : Nat,
    let d := s.devAt t
    d.stops.armHigh = false) ∧
  (∃ s : State, ∃ t : Nat,
    let d := s.devAt t
    d.stops.armHigh = true ∧ d.stops.armFell = none) ∧
  (∃ s : State, ∃ t : Nat,
    let d := s.devAt t
    ∃ f ∈ d.stops.armFell, f + 2 * tqUs ≤ d.now) ∧
  (∃ s : State, ∃ t : Nat,
    let d := s.devAt t
    d.stops.killLow = false) ∧
  (∃ s : State, ∃ t : Nat,
    let d := s.devAt t
    d.stops.killLow = true) :=
  ⟨⟨(wstWith [] (fun d => { d with stops := { linkDown := true } })), 0, (by dsimp only; decide +kernel)⟩, ⟨(wstWith [(0x28C8, 0x1, 0, 10)]
    (fun d => { d with now := 1000000000 })), 0, (by dsimp only; decide +kernel)⟩, ⟨(wstWith [] (fun d =>
    { d with stops := { armHigh := false } })), 0, (by dsimp only; decide +kernel)⟩, ⟨(wst []), 0, (by dsimp only; decide +kernel)⟩,
    ⟨(wstWith [] (fun d => { d with now := 1000000000, stops := { armFell := some 5 } })), 0, (by dsimp only; decide +kernel)⟩, ⟨(wst []),
    0, (by dsimp only; decide +kernel)⟩, ⟨(wstWith [] (fun d => { d with stops := { killLow := true } })), 0,
    (by dsimp only; decide +kernel)⟩⟩

/-- The hypotheses of DriveGroupResets can be met, in every clause. -/
theorem witness_DriveGroupResets :
  (∃ s : State, ∃ t : Nat, ∃ k : Nat,
    let d := s.devAt t
    (k = 7 ∨ k = 8) ∧ d.ready = true ∧ d.obj 0x2F00 0x0A = 1 ∧ d.rst.domReset = some k ∧ d.groupIdle k = true) ∧
  (∃ s : State, ∃ t : Nat, ∃ k : Nat,
    let d := s.devAt t
    (k = 7 ∨ k = 8) ∧ d.ready = true ∧ d.obj 0x2F00 0x0A = 1 ∧ d.rst.domReset = some k ∧ d.rst.domDeadline ≤ d.now) :=
  ⟨⟨(wstWith [(0x2F00, 0xA, 0, 1)] (fun d => { d with rst := { optCount := 3, optCodes := [0, 0, 0], domReset := some 7 } })), 0, 7,
    (by dsimp only; decide +kernel)⟩, ⟨(wstWith [(0x2F00, 0xA, 0, 1)] (fun d =>
    { d with rst := { optCount := 3, optCodes := [0, 0, 0], domReset := some 7 } })), 0, 7, (by dsimp only; decide +kernel)⟩⟩

/-- The hypotheses of SamplesAndCycles can be met, in every clause. -/
theorem witness_SamplesAndCycles :
  (∃ s : State, ∃ t : Nat, ∃ codes : List Int,
    let d := s.devAt t
    d.runs 11 = true ∧ t % 51200 = 0) ∧
  (∃ s : State, ∃ t : Nat, ∃ v : Fin 8,
    let d := s.devAt t
    d.runs 11 = true ∧ t % 10240 = 0 ∧ d.obj (0x2920 + v) 0x01 ≠ 0) ∧
  (∃ s : State, ∃ t : Nat, ∃ c : Fin 24,
    let d := s.devAt t
    d.runs 11 = true ∧ d.coreDown 2 = false ∧ ∃ z_ ∈ ((d.press c).results).head?, True) :=
  ⟨⟨(wst []), 0, [], (by dsimp only; decide +kernel)⟩, ⟨(wst [(0x2920, 0x1, 0, 1)]), 0, 0, (by dsimp only; decide +kernel)⟩, ⟨(wstWith [] (fun
    d =>
    { d with pressures := [(0, { results := [{ final := false, whole := true, valid := true, flags := 5, half := 0, tdc := 100, dom := 0, count := 7 }] })] })),
    0, 0, (by dsimp only; decide +kernel)⟩⟩

/-- The hypotheses of ComparatorsAndRamps can be met, in every clause. -/
theorem witness_ComparatorsAndRamps :
  (∃ s : State, ∃ t : Nat, ∃ n : Fin 16, ∃ u : Fin 2, ∃ level : Bool,
    let d := s.devAt t
    let i := 0x2A00 + n.val
    d.runs 13 = true ∧ d.obj i 0x01 ≠ 0 ∧ d.cmpUnresolved n u = true) ∧
  (∃ s : State, ∃ t : Nat, ∃ n : Fin 16, ∃ u : Fin 2, ∃ level : Bool,
    let d := s.devAt t
    let i := 0x2A00 + n.val
    d.runs 13 = true ∧ d.obj i 0x01 ≠ 0 ∧ d.cmpUnresolved n u = false ∧ d.cmpLive n u = !level ∧ d.blanking n = false) ∧
  (∃ s : State, ∃ t : Nat, ∃ n : Fin 16, ∃ u : Fin 2, ∃ level : Bool,
    let d := s.devAt t
    let i := 0x2A00 + n.val
    d.runs 13 = true ∧ d.obj i 0x01 ≠ 0 ∧ d.cmpUnresolved n u = false ∧ d.cmpLive n u = !level ∧ d.blanking n = true ∧ (d.cmp n).closed ≠
      some d.now) ∧
  (∃ s : State, ∃ t : Nat, ∃ n : Fin 16,
    let d := s.devAt t
    let i := 0x2A00 + n.val
    d.runs 13 = true ∧ d.obj i 0x01 ≠ 0 ∧ (d.arrives (.blankOpen n) (d.obj i 0x0C)).isSome = true ∧ d.blanking n = false ∧ (d.obj i 0x0B = 1
      ∨ d.obj i 0x0B = 2)) ∧
  (∃ s : State, ∃ t : Nat, ∃ n : Fin 16,
    let d := s.devAt t
    let i := 0x2A00 + n.val
    d.runs 13 = true ∧ d.obj i 0x01 ≠ 0 ∧ d.blanking n = true ∧ if (d.cmp n).mode = 1 then (d.cmp n).from_ + d.obj i 0x0E * tq100ns ≤ d.now
      else (d.arrives (.blankClose n) (d.obj i 0x0D)).isSome = true) ∧
  (∃ s : State, ∃ t : Nat, ∃ k : Fin 4,
    let d := s.devAt t
    let i := 0x2A10 + k.val
    d.rampFree k = true ∧ (d.arrives (.rampReset k) (d.obj i 0x06)).isSome = true) ∧
  (∃ s : State, ∃ t : Nat, ∃ k : Fin 4, ∃ r : Req,
    let d := s.devAt t
    let i := 0x2A10 + k.val
    d.rampFree k = true ∧ s.takes t r i 0x0A 1 1 = true) ∧
  (∃ s : State, ∃ t : Nat, ∃ k : Fin 4,
    let d := s.devAt t
    let i := 0x2A10 + k.val
    d.rampFree k = true ∧ d.bit i 0x08 0 = true ∧ ((d.obj i 0x04 : Int) - d.obj i 0x03).natAbs * 1000 * tqUs ≤ (d.now - d.obj i 0x09) *
      d.obj i 0x05 ∧ d.obj i 0x02 = 1) ∧
  (∃ s : State, ∃ t : Nat, ∃ k : Fin 4,
    let d := s.devAt t
    let i := 0x2A10 + k.val
    d.rampFree k = true ∧ d.bit i 0x08 0 = true ∧ ((d.obj i 0x04 : Int) - d.obj i 0x03).natAbs * 1000 * tqUs ≤ (d.now - d.obj i 0x09) *
      d.obj i 0x05 ∧ d.obj i 0x02 ≠ 1) :=
  ⟨⟨(wst [(0x2A00, 0x1, 0, 1)]), 0, 0, 0, false, (by dsimp only; decide +kernel)⟩, ⟨(wst [(0x2A00, 0x1, 0, 1), (0x2A00, 0x10, 0, 12)]), 0, 0,
    0, false, (by dsimp only; decide +kernel)⟩, ⟨(wst [(0x2A00, 0x1, 0, 1), (0x2A00, 0x10, 0, 68)]), 0, 0, 0, false,
    (by dsimp only; decide +kernel)⟩, ⟨(wstWith [(0x2A00, 0x1, 0, 1), (0x2A00, 0xC, 0, 5), (0x2A00, 0xB, 0, 1)] (fun d =>
    { d with evt := [(5, { began := some 90000, count := 1, sentAt := 90000 })] })), 0, 0, (by dsimp only; decide +kernel)⟩, ⟨(wstWith
    [(0x2A00, 0x1, 0, 1), (0x2A00, 0x10, 0, 68), (0x2A00, 0xD, 0, 7)] (fun d =>
    { d with evt := [(7, { began := some 90000, count := 1, sentAt := 90000 })] })), 0, 0, (by dsimp only; decide +kernel)⟩, ⟨(wstWith
    [(0x2A10, 0x1, 0, 1), (0x2A10, 0x6, 0, 3)] (fun d =>
    { d with evt := [(3, { began := some 10000000000000, count := 1, sentAt := 10000000000000 })] })), 0, 0,
    (by dsimp only; decide +kernel)⟩, ⟨(wst [(0x2A10, 0x1, 0, 1), (0x1200, 0x1, 0, 1), (0x1200, 0x3, 0, 0xFFFFFFFF), (0x1700, 0x1, 0, 0)]),
    0, 0, ({ port := 0, tag := 1, peerAddr := 0, peerPort := 0, outstanding := 0, shareFree := 262144, udpSum := 0 }),
    (by dsimp only; decide +kernel)⟩, ⟨(wstWith [(0x2A10, 0x1, 0, 1), (0x2A10, 0x2, 0, 1), (0x2A10, 0x8, 0, 1)] (fun d =>
    { d with now := 10000000000000 })), 0, 0, (by dsimp only; decide +kernel)⟩, ⟨(wstWith [(0x2A10, 0x1, 0, 1), (0x2A10, 0x8, 0, 1)] (fun d
    => { d with now := 10000000000000 })), 0, 0, (by dsimp only; decide +kernel)⟩⟩

/-- The hypotheses of TimersCount can be met, in every clause. -/
theorem witness_TimersCount :
  (∃ s : State, ∃ t : Nat, ∃ n : Fin 32,
    let d := s.devAt t
    let i := 0x2B00 + n.val
    let r := d.timer n
    let all := r.pre + (d.now / 8 - r.tick)
    let new := r.count + all / (d.obj i 0x02 + 1)
    let free := fun (u : Nat) (fired : Bool) => new < d.obj i (0x04 + u) ∨ if d.bit i 0x06 u then fired = true else d.obj i (0x04 + u) ≤
      r.count
    d.runs 1 = true ∧ r.running = true ∧ r.reset = none ∧ r.start = none ∧ r.hit0 = false ∧ r.hit1 = false ∧ r.tick ≤ d.now / 8 ∧ r.pre ≤
      d.obj i 0x02 ∧ new < d.obj i 0x03 ∧ free 0 r.fired0 ∧ free 1 r.fired1) ∧
  (∃ s : State, ∃ t : Nat, ∃ n : Fin 32,
    let d := s.devAt t
    let r := d.timer n
    d.runs 1 = true ∧ r.running = false ∧ r.reset = none ∧ ∃ a ∈ r.start, a ≤ d.now / 8 ∧ r.armed = true ∧ r.hit0 = false ∧ r.hit1 = false) ∧
  (∃ s : State, ∃ t : Nat, ∃ n : Fin 32,
    let d := s.devAt t
    let i := 0x2B00 + n.val
    d.runs 1 = true ∧ d.periodDue n = true ∧ d.obj i 0x01 = 1) ∧
  (∃ s : State, ∃ t : Nat, ∃ n : Fin 32,
    let d := s.devAt t
    let i := 0x2B00 + n.val
    d.runs 1 = true ∧ d.periodDue n = true ∧ d.obj i 0x01 ≠ 1) ∧
  (∃ s : State, ∃ t : Nat, ∃ n : Fin 32,
    let d := s.devAt t
    let r := d.timer n
    d.runs 1 = true ∧ r.hit0 = true ∧ r.tick ≤ d.now / 8) ∧
  (∃ s : State, ∃ t : Nat, ∃ n : Fin 32,
    let d := s.devAt t
    let r := d.timer n
    d.runs 1 = true ∧ r.hit1 = true ∧ r.tick ≤ d.now / 8) :=
  ⟨⟨(wstWith [(0x2B00, 0x2, 0, 2)] (fun d =>
    { d with now := 8007, timers := [(0, { running := true, pre := 1, count := 4, tick := 999 }), (1, { armed := true })] })), 0, 0,
    (by dsimp only; decide +kernel)⟩, ⟨(wstWith [] (fun d =>
    { d with now := 8007, timers := [(0, { armed := true, start := some 1000 }), (1, { armed := true })] })), 0, 0,
    (by dsimp only; decide +kernel)⟩, ⟨(wstWith [(0x2B00, 0x1, 0, 1), (0x2B00, 0x3, 0, 9)] (fun d =>
    { d with now := 8007, timers := [(0, { running := true, pre := 2, count := 9, tick := 999 }), (1, { armed := true })] })), 0, 0,
    (by dsimp only; decide +kernel)⟩, ⟨(wstWith [(0x2B00, 0x3, 0, 9)] (fun d =>
    { d with now := 8007, timers := [(0, { running := true, pre := 2, count := 9, tick := 900 }), (1, { armed := true })] })), 0, 0,
    (by dsimp only; decide +kernel)⟩, ⟨(wstWith [] (fun d =>
    { d with now := 8007, timers := [(0, { running := true, pre := 2, count := 9, tick := 1000, hit0 := true, hit1 := true }), (1, { armed := true })] })),
    0, 0, (by dsimp only; decide +kernel)⟩, ⟨(wstWith [] (fun d =>
    { d with now := 8007, timers := [(0, { running := true, pre := 2, count := 9, tick := 1000, hit0 := true, hit1 := true }), (1, { armed := true })] })),
    0, 0, (by dsimp only; decide +kernel)⟩⟩

/-- The hypotheses of TimersStartAndCapture can be met, in every clause. -/
theorem witness_TimersStartAndCapture :
  (∃ s : State, ∃ t : Nat, ∃ n : Fin 32, ∃ q : Req,
    let i := 0x2B00 + n.val
    s.takes t q i 0x12 1 1 = true) ∧
  (∃ s : State, ∃ t : Nat, ∃ n : Fin 32, ∃ q : Req,
    let d := s.devAt t
    let i := 0x2B00 + n.val
    let r := d.timer n
    s.takes t q i 0x12 1 2 = true ∧ r.running = false) ∧
  (∃ s : State, ∃ t : Nat, ∃ n : Fin 32, ∃ q : Req,
    let i := 0x2B00 + n.val
    s.takes t q i 0x12 1 3 = true) ∧
  (∃ s : State, ∃ t : Nat, ∃ n : Fin 32,
    let d := s.devAt t
    let i := 0x2B00 + n.val
    let r := d.timer n
    d.runs 1 = true ∧ r.start = none ∧ (d.arrives (.timerStart n) (d.obj i 0x0D)).isSome = true ∧ r.armed = true ∧ r.running = false) ∧
  (∃ s : State, ∃ t : Nat, ∃ n : Fin 32,
    let d := s.devAt t
    let i := 0x2B00 + n.val
    let r := d.timer n
    d.runs 1 = true ∧ r.reset = none ∧ (d.arrives (.timerReset n) (d.obj i 0x0E)).isSome = true) ∧
  (∃ s : State, ∃ t : Nat, ∃ q : Req, ∃ mask : Nat, s.takes t q 0x2B80 0x01 4 mask = true) ∧
  (∃ s : State, ∃ t : Nat,
    let d := s.devAt t
    d.runs 1 = true ∧ (d.arrives .gstart (d.obj 0x2B80 0x03)).isSome = true) ∧
  (∃ s : State, ∃ t : Nat, ∃ n : Fin 32,
    let d := s.devAt t
    let i := 0x2B00 + n.val
    d.runs 1 = true ∧ d.obj i 0x0F ≠ 0xFFFF ∧ (d.obj i 0x0F < 0x100 → (d.arrives (.captureRise n) (d.obj i 0x0F)).isSome = true)) ∧
  (∃ s : State, ∃ t : Nat, ∃ n : Fin 32,
    let d := s.devAt t
    let i := 0x2B00 + n.val
    d.runs 1 = true ∧ d.obj i 0x0F ≠ 0xFFFF ∧ (d.obj i 0x0F < 0x100 → (d.arrives (.captureFall n) (d.obj i 0x10)).isSome = true)) :=
  ⟨⟨(wst [(0x1200, 0x1, 0, 1), (0x1200, 0x3, 0, 0xFFFFFFFF), (0x1700, 0x66, 0, 0)]), 0, 0,
    ({ port := 0, tag := 1, peerAddr := 0, peerPort := 0, outstanding := 0, shareFree := 262144, udpSum := 0 }),
    (by dsimp only; decide +kernel)⟩, ⟨(wst [(0x1200, 0x1, 0, 1), (0x1200, 0x3, 0, 0xFFFFFFFF), (0x1700, 0x66, 0, 0)]), 0, 0,
    ({ port := 0, tag := 1, peerAddr := 0, peerPort := 0, outstanding := 0, shareFree := 262144, udpSum := 0 }),
    (by dsimp only; decide +kernel)⟩, ⟨(wst [(0x1200, 0x1, 0, 1), (0x1200, 0x3, 0, 0xFFFFFFFF), (0x1700, 0x66, 0, 0)]), 0, 0,
    ({ port := 0, tag := 1, peerAddr := 0, peerPort := 0, outstanding := 0, shareFree := 262144, udpSum := 0 }),
    (by dsimp only; decide +kernel)⟩, ⟨(wstWith [(0x2B00, 0xD, 0, 4)] (fun d =>
    { d with evt := [(3, { began := some 8007, count := 1, sentAt := 8007 }), (4, { began := some 8007, count := 1, sentAt := 8007 }), (5, { began := some 8007, count := 1, sentAt := 8007 }), (6, { began := some 8007, count := 1, sentAt := 8007 }), (9, { began := some 8007, count := 1, sentAt := 8007 })], timers := [(0, { armed := true, count := 5, rise := some 100 }), (1, { armed := true })] })),
    0, 0, (by dsimp only; decide +kernel)⟩, ⟨(wstWith [(0x2B00, 0xE, 0, 9)] (fun d =>
    { d with evt := [(3, { began := some 8007, count := 1, sentAt := 8007 }), (4, { began := some 8007, count := 1, sentAt := 8007 }), (5, { began := some 8007, count := 1, sentAt := 8007 }), (6, { began := some 8007, count := 1, sentAt := 8007 }), (9, { began := some 8007, count := 1, sentAt := 8007 })] })),
    0, 0, (by dsimp only; decide +kernel)⟩, ⟨(wst [(0x1200, 0x1, 0, 1), (0x1200, 0x3, 0, 0xFFFFFFFF)]), 0,
    ({ port := 0, tag := 1, peerAddr := 0, peerPort := 0, outstanding := 0, shareFree := 262144, udpSum := 0 }), 0, (by decide +kernel)⟩,
    ⟨(wstWith [(0x2B80, 0x3, 0, 4)] (fun d =>
    { d with evt := [(3, { began := some 8007, count := 1, sentAt := 8007 }), (4, { began := some 8007, count := 1, sentAt := 8007 }), (5, { began := some 8007, count := 1, sentAt := 8007 }), (6, { began := some 8007, count := 1, sentAt := 8007 }), (9, { began := some 8007, count := 1, sentAt := 8007 })] })),
    0, (by dsimp only; decide +kernel)⟩, ⟨(wst [(0x2B00, 0xF, 0, 261)]), 0, 0, (by dsimp only; decide +kernel)⟩, ⟨(wst [(0x2B00, 0xF, 0,
    261)]), 0, 0, (by dsimp only; decide +kernel)⟩⟩

/-- The hypotheses of LanternTicks can be met, in every clause. -/
theorem witness_LanternTicks :
  (∃ s : State, ∃ t : Nat, ∃ e : Fin 8, ∃ pins : Nat,
    let d := s.devAt t
    let i := 0x2C00 + e.val
    d.runs 13 = true ∧ d.obj i 0x01 = 1 ∧ (d.bitClock e).isSome = true ∧ d.injectDue e = false ∧ d.tickTooSoon e = true) ∧
  (∃ s : State, ∃ t : Nat, ∃ e : Fin 8, ∃ pins : Nat,
    let d := s.devAt t
    let i := 0x2C00 + e.val
    let l := d.lan e
    d.runs 13 = true ∧ d.obj i 0x01 = 1 ∧ (d.bitClock e).isSome = true ∧ d.injectDue e = false ∧ d.tickTooSoon e = false ∧ l.cur = none) ∧
  (∃ s : State, ∃ t : Nat, ∃ e : Fin 8, ∃ pins : Nat,
    let d := s.devAt t
    let i := 0x2C00 + e.val
    let l := d.lan e
    let w := d.obj i (0x20 + l.pc)
    d.runs 13 = true ∧ d.obj i 0x01 = 1 ∧ (d.bitClock e).isSome = true ∧ d.injectDue e = false ∧ d.tickTooSoon e = false ∧ l.cur = none ∧ w
      % 8 = 0) ∧
  (∃ s : State, ∃ t : Nat, ∃ e : Fin 8, ∃ pins : Nat,
    let d := s.devAt t
    let i := 0x2C00 + e.val
    let l := d.lan e
    let w := d.obj i (0x20 + l.pc)
    d.runs 13 = true ∧ d.obj i 0x01 = 1 ∧ (d.bitClock e).isSome = true ∧ d.injectDue e = false ∧ d.tickTooSoon e = false ∧ l.cur = none ∧ w
      % 8 = 1) ∧
  (∃ s : State, ∃ t : Nat, ∃ e : Fin 8, ∃ pins : Nat,
    let d := s.devAt t
    let i := 0x2C00 + e.val
    let l := d.lan e
    let w := d.obj i (0x20 + l.pc)
    d.runs 13 = true ∧ d.obj i 0x01 = 1 ∧ (d.bitClock e).isSome = true ∧ d.injectDue e = false ∧ d.tickTooSoon e = false ∧ l.cur = none ∧ w
      % 8 = 2 ∧ bitsOf w 12 10 = 1 ∧ bitsOf w 9 8 = 0 ∧ bitsOf w 15 13 = 5) ∧
  (∃ s : State, ∃ t : Nat, ∃ e : Fin 8, ∃ pins : Nat,
    let d := s.devAt t
    let i := 0x2C00 + e.val
    let l := d.lan e
    let w := d.obj i (0x20 + l.pc)
    d.runs 13 = true ∧ d.obj i 0x01 = 1 ∧ (d.bitClock e).isSome = true ∧ d.injectDue e = false ∧ d.tickTooSoon e = false ∧ l.cur = none ∧ w
      % 8 = 2 ∧ bitsOf w 12 10 = 1 ∧ bitsOf w 9 8 = 0 ∧ bitsOf w 15 13 = 4) ∧
  (∃ s : State, ∃ t : Nat, ∃ e : Fin 8, ∃ pins : Nat,
    let d := s.devAt t
    let i := 0x2C00 + e.val
    let l := d.lan e
    let w := d.obj i (0x20 + l.pc)
    d.runs 13 = true ∧ d.obj i 0x01 = 1 ∧ (d.bitClock e).isSome = true ∧ d.injectDue e = false ∧ d.tickTooSoon e = false ∧ l.cur = none ∧ w
      % 8 = 3 ∧ bitsOf w 10 6 = 0) ∧
  (∃ s : State, ∃ t : Nat, ∃ e : Fin 8, ∃ pins : Nat,
    let d := s.devAt t
    let i := 0x2C00 + e.val
    let l := d.lan e
    let w := d.obj i (0x20 + l.pc)
    d.runs 13 = true ∧ d.obj i 0x01 = 1 ∧ (d.bitClock e).isSome = true ∧ d.injectDue e = false ∧ d.tickTooSoon e = false ∧ l.cur = none ∧ w
      % 8 = 3 ∧ bitsOf w 10 6 = 1) ∧
  (∃ s : State, ∃ t : Nat, ∃ e : Fin 8, ∃ pins : Nat,
    let d := s.devAt t
    let i := 0x2C00 + e.val
    let l := d.lan e
    let w := d.obj i (0x20 + l.pc)
    d.runs 13 = true ∧ d.obj i 0x01 = 1 ∧ (d.bitClock e).isSome = true ∧ d.injectDue e = false ∧ d.tickTooSoon e = false ∧ l.cur = none ∧ w
      % 8 = 3 ∧ bitsOf w 10 6 = 2) ∧
  (∃ s : State, ∃ t : Nat, ∃ e : Fin 8, ∃ pins : Nat,
    let d := s.devAt t
    let i := 0x2C00 + e.val
    let l := d.lan e
    let w := d.obj i (0x20 + l.pc)
    d.runs 13 = true ∧ d.obj i 0x01 = 1 ∧ (d.bitClock e).isSome = true ∧ d.injectDue e = false ∧ d.tickTooSoon e = false ∧ l.cur = none ∧ w
      % 8 = 4 ∧ w.testBit 15 = false ∧ bitsOf w 10 6 = 10 ∧ l.tx = []) ∧
  (∃ s : State, ∃ t : Nat, ∃ e : Fin 8, ∃ pins : Nat,
    let d := s.devAt t
    let i := 0x2C00 + e.val
    let l := d.lan e
    let w := d.obj i (0x20 + l.pc)
    d.runs 13 = true ∧ d.obj i 0x01 = 1 ∧ (d.bitClock e).isSome = true ∧ d.injectDue e = false ∧ d.tickTooSoon e = false ∧ l.cur = none ∧ w
      % 8 = 4 ∧ w.testBit 15 = false ∧ bitsOf w 10 6 = 10 ∧ l.tx ≠ []) ∧
  (∃ s : State, ∃ t : Nat, ∃ e : Fin 8, ∃ pins : Nat,
    let d := s.devAt t
    let i := 0x2C00 + e.val
    let l := d.lan e
    let w := d.obj i (0x20 + l.pc)
    d.runs 13 = true ∧ d.obj i 0x01 = 1 ∧ (d.bitClock e).isSome = true ∧ d.injectDue e = false ∧ d.tickTooSoon e = false ∧ l.cur = none ∧ w
      % 8 = 7 ∧ w.testBit 15 = false ∧ w.testBit 14 = false ∧ 4 < l.rx.length + d.pushWidth e) ∧
  (∃ s : State, ∃ t : Nat, ∃ e : Fin 8, ∃ pins : Nat, ∃ v : Nat, ∃ abort : Bool, ∃ a : Nat,
    let d := s.devAt t
    let i := 0x2C00 + e.val
    let l := d.lan e
    d.runs 13 = true ∧ d.obj i 0x01 = 1 ∧ (d.bitClock e).isSome = true ∧ d.tickTooSoon e = false ∧ l.inject = some (v, abort, a) ∧ (l.cur =
      none ∨ abort = true)) ∧
  (∃ s : State, ∃ t : Nat, ∃ e : Fin 8, ∃ pins : Nat, ∃ v : Nat, ∃ abort : Bool, ∃ a : Nat,
    let d := s.devAt t
    let i := 0x2C00 + e.val
    let l := d.lan e
    d.runs 13 = true ∧ d.obj i 0x01 = 1 ∧ (d.bitClock e).isSome = true ∧ d.tickTooSoon e = false ∧ l.inject = some (v, abort, a) ∧ (l.cur =
      none ∨ abort = true) ∧ a + 10 * tqUs ≤ d.now) :=
  ⟨⟨(wstWith [(0x2C00, 0x1, 0, 1)] (fun d => { d with now := 102400000, lans := [(0, { lastTick := some 102399992 })] })), 0, 0, 0,
    (by dsimp only; decide +kernel)⟩, ⟨(wstWith [(0x2C00, 0x1, 0, 1)] (fun d => { d with now := 102400000 })), 0, 0, 0,
    (by dsimp only; decide +kernel)⟩, ⟨(wstWith [(0x2C00, 0x1, 0, 1)] (fun d => { d with now := 102400000 })), 0, 0, 0,
    (by dsimp only; decide +kernel)⟩, ⟨(wstWith [(0x2C00, 0x20, 0, 33921), (0x2C00, 0x1, 0, 1)] (fun d => { d with now := 102400000 })), 0,
    0, 0, (by dsimp only; decide +kernel)⟩, ⟨(wstWith [(0x2C00, 0x20, 0, 41986), (0x2C00, 0x1, 0, 1)] (fun d =>
    { d with now := 102400000 })), 0, 0, 0, (by dsimp only; decide +kernel)⟩, ⟨(wstWith [(0x2C00, 0x20, 0, 33794), (0x2C00, 0x1, 0, 1)] (fun
    d => { d with now := 102400000 })), 0, 0, 0, (by dsimp only; decide +kernel)⟩, ⟨(wstWith [(0x2C00, 0x20, 0, 2051), (0x2C00, 0x1, 0, 1)]
    (fun d => { d with now := 102400000 })), 0, 0, 0, (by dsimp only; decide +kernel)⟩, ⟨(wstWith [(0x2C00, 0x20, 0, 2115), (0x2C00, 0x1, 0,
    1)] (fun d => { d with now := 102400000 })), 0, 0, 0, (by dsimp only; decide +kernel)⟩, ⟨(wstWith [(0x2C00, 0x20, 0, 4227), (0x2C00,
    0x1, 0, 1)] (fun d => { d with now := 102400000 })), 0, 0, 0, (by dsimp only; decide +kernel)⟩, ⟨(wstWith [(0x2C00, 0x20, 0, 652),
    (0x2C00, 0x1, 0, 1)] (fun d => { d with now := 102400000 })), 0, 0, 0, (by dsimp only; decide +kernel)⟩, ⟨(wstWith [(0x2C00, 0x3F, 0,
    652), (0x2C00, 0x1, 0, 1)] (fun d =>
    { d with now := 102400000, lans := [(0, { pc := 31, k0 := 1, k1 := 5, ish := 5, ishN := 8, tx := [0x07#8], rx := [0x01#8, 0x02#8, 0x03#8, 0x04#8], outs := 18 })] })),
    0, 0, 0, (by dsimp only; decide +kernel)⟩, ⟨(wstWith [(0x2C00, 0x3F, 0, 7), (0x2C00, 0x1, 0, 1)] (fun d =>
    { d with now := 102400000, lans := [(0, { pc := 31, k0 := 1, k1 := 5, ish := 5, ishN := 8, tx := [0x07#8], rx := [0x01#8, 0x02#8, 0x03#8, 0x04#8], outs := 18 })] })),
    0, 0, 0, (by dsimp only; decide +kernel)⟩, ⟨(wstWith [(0x2C00, 0x1, 0, 1)] (fun d =>
    { d with now := 102400000, lans := [(0, { pc := 31, cur := some { word := 53764, bits := 3 }, inject := some (73, true, 5) })] })), 0,
    0, 0, 73, true, 5, (by dsimp only; decide +kernel)⟩, ⟨(wstWith [(0x2C00, 0x1, 0, 1)] (fun d =>
    { d with now := 102400000, lans := [(0, { pc := 31, cur := some { word := 53764, bits := 3 }, inject := some (73, true, 5) })] })), 0,
    0, 0, 73, true, 5, (by dsimp only; decide +kernel)⟩⟩

/-- The hypotheses of LanternRequestsAndRings can be met, in every clause. -/
theorem witness_LanternRequestsAndRings :
  (∃ s : State, ∃ t : Nat, ∃ r : Req, ∃ e : Fin 8,
    let d := s.devAt t
    let i := 0x2C00 + e.val
    s.takes t r i 0x01 1 1 = true ∧ d.obj i 0x01 = 0) ∧
  (∃ s : State, ∃ t : Nat, ∃ r : Req, ∃ e : Fin 8,
    let d := s.devAt t
    let i := 0x2C00 + e.val
    s.takes t r i 0x01 1 0 = true ∧ d.obj i 0x01 = 1) ∧
  (∃ s : State, ∃ t : Nat, ∃ r : Req, ∃ e : Fin 8, ∃ first : Fin 32, ∃ words : List Nat,
    let i := 0x2C00 + e.val
    s.serves t (putFrame r i (0x20 + first) words.length (words.flatMap (leBytes 2))) 0 true = true) ∧
  (∃ s : State, ∃ t : Nat, ∃ r : Req, ∃ e : Fin 8, ∃ v : Nat,
    let i := 0x2C00 + e.val
    s.takes t r i 0x1A 4 v = true) ∧
  (∃ s : State, ∃ t : Nat, ∃ e : Fin 8,
    let d := s.devAt t
    let i := 0x2C00 + e.val
    let l := d.lan e
    let n := ringSpan (d.obj i 0x11) (d.obj i 0x12) (d.obj i 0x16) (min (4 - l.tx.length) (ringLevel (d.obj i 0x12) (d.obj i 0x15) (d.obj i
      0x16)))
    d.runs 13 = true ∧ d.pdOn 2 = true ∧ d.obj i 0x01 ≠ 0 ∧ 0 < n) ∧
  (∃ s : State, ∃ t : Nat, ∃ e : Fin 8,
    let d := s.devAt t
    let i := 0x2C00 + e.val
    let l := d.lan e
    let k := ringSpan (d.obj i 0x13) (d.obj i 0x14) (d.obj i 0x17) (min l.rx.length (d.obj i 0x14 - 4 - ringLevel (d.obj i 0x14) (d.obj i
      0x17) (d.obj i 0x18)))
    d.runs 13 = true ∧ d.pdOn 2 = true ∧ d.obj i 0x01 ≠ 0 ∧ 0 < k) :=
  ⟨⟨(wst [(0x1200, 0x1, 0, 1), (0x1200, 0x3, 0, 0xFFFFFFFF), (0x1700, 0x5E, 0, 0)]), 0,
    ({ port := 0, tag := 1, peerAddr := 0, peerPort := 0, outstanding := 0, shareFree := 262144, udpSum := 0 }), 0,
    (by dsimp only; decide +kernel)⟩, ⟨(wst [(0x1200, 0x1, 0, 1), (0x1200, 0x3, 0, 0xFFFFFFFF), (0x1700, 0x5E, 0, 0), (0x2C00, 0x1, 0, 1)]),
    0, ({ port := 0, tag := 1, peerAddr := 0, peerPort := 0, outstanding := 0, shareFree := 262144, udpSum := 0 }), 0,
    (by dsimp only; decide +kernel)⟩, ⟨(wst [(0x1200, 0x1, 0, 1), (0x1200, 0x3, 0, 0xFFFFFFFF), (0x1700, 0x5E, 0, 0)]), 0,
    ({ port := 0, tag := 1, peerAddr := 0, peerPort := 0, outstanding := 0, shareFree := 262144, udpSum := 0 }), 0, 0, [65],
    (by dsimp only; decide +kernel)⟩, ⟨(wst [(0x1200, 0x1, 0, 1), (0x1200, 0x3, 0, 0xFFFFFFFF), (0x1200, 0x4, 0, 0xFFFFFFFF), (0x1700, 0x5E,
    0, 0), (0x2C00, 0x1, 0, 1)]), 0,
    ({ port := 0, tag := 1, peerAddr := 0, peerPort := 0, outstanding := 0, shareFree := 262144, udpSum := 0 }), 0, 0,
    (by dsimp only; decide +kernel)⟩, ⟨(wst [(0x2C02, 0x12, 0, 64), (0x2C02, 0x16, 0, 62), (0x2C02, 0x1, 0, 1)]), 0, 2,
    (by dsimp only; decide +kernel)⟩, ⟨(wstWith [(0x2C02, 0x14, 0, 64), (0x2C02, 0x1, 0, 1)] (fun d =>
    { d with lans := [(2, { rx := [0x09#8, 0x08#8, 0x07#8, 0x06#8] })] })), 0, 2, (by dsimp only; decide +kernel)⟩⟩

/-- The hypotheses of ClearsOfEngines can be met, in every clause. -/
theorem witness_ClearsOfEngines :
  (∃ s : State, ∃ t : Nat, ∃ r : Req, ∃ n : Fin 16, s.takes t r (0x2A00 + n) 0x15 1 1 = true) ∧
  (∃ s : State, ∃ t : Nat, ∃ r : Req, ∃ n : Fin 32, s.takes t r (0x2B00 + n) 0x1E 1 1 = true) ∧
  (∃ s : State, ∃ t : Nat, ∃ r : Req, ∃ line : Fin 256, s.takes t r (0x2F80 + line / 2) (0x06 + 0x10 * (line.val % 2)) 1 1 = true) ∧
  (∃ s : State, ∃ t : Nat, ∃ r : Req, ∃ e : Fin 8, s.takes t r (0x2C00 + e) 0x4E 1 1 = true) ∧
  (∃ s : State, ∃ t : Nat, ∃ r : Req, s.takes t r 0x2D00 0x19 1 1 = true) ∧
  (∃ s : State, ∃ t : Nat, ∃ r : Req, ∃ c : Fin 16, s.takes t r (0x2D10 + c) 0x1E 1 1 = true) ∧
  (∃ s : State, ∃ t : Nat, ∃ r : Req, s.takes t r 0x2E00 0x07 1 1 = true) ∧
  (∃ s : State, ∃ t : Nat, ∃ r : Req, ∃ c : Fin 4, s.takes t r (0x2E10 + c) 0x09 1 1 = true) :=
  ⟨⟨(wst [(0x1200, 0x1, 0, 1), (0x1200, 0x3, 0, 0xFFFFFFFF), (0x1700, 0x96, 0, 0)]), 0,
    ({ port := 0, tag := 1, peerAddr := 0, peerPort := 0, outstanding := 0, shareFree := 262144, udpSum := 0 }), 0, (by decide +kernel)⟩,
    ⟨(wst [(0x1200, 0x1, 0, 1), (0x1200, 0x3, 0, 0xFFFFFFFF), (0x1700, 0x66, 0, 0)]), 0,
    ({ port := 0, tag := 1, peerAddr := 0, peerPort := 0, outstanding := 0, shareFree := 262144, udpSum := 0 }), 0, (by decide +kernel)⟩,
    ⟨(wst [(0x1200, 0x1, 0, 1), (0x1200, 0x4, 0, 0xFFFFFFFF), (0x1700, 0x1, 0, 0)]), 0,
    ({ port := 0, tag := 1, peerAddr := 0, peerPort := 0, outstanding := 0, shareFree := 262144, udpSum := 0 }), 0, (by decide +kernel)⟩,
    ⟨(wst [(0x1200, 0x1, 0, 1), (0x1200, 0x3, 0, 0xFFFFFFFF), (0x1700, 0x5E, 0, 0)]), 0,
    ({ port := 0, tag := 1, peerAddr := 0, peerPort := 0, outstanding := 0, shareFree := 262144, udpSum := 0 }), 0, (by decide +kernel)⟩,
    ⟨(wst [(0x1200, 0x1, 0, 1), (0x1700, 0x1, 0, 0)]), 0,
    ({ port := 0, tag := 1, peerAddr := 0, peerPort := 0, outstanding := 0, shareFree := 262144, udpSum := 0 }), (by decide +kernel)⟩, ⟨(wst
    [(0x1200, 0x1, 0, 1), (0x1200, 0x3, 0, 0xFFFFFFFF), (0x1700, 0x86, 0, 0)]), 0,
    ({ port := 0, tag := 1, peerAddr := 0, peerPort := 0, outstanding := 0, shareFree := 262144, udpSum := 0 }), 0, (by decide +kernel)⟩,
    ⟨(wst [(0x1200, 0x1, 0, 1), (0x1700, 0x1, 0, 0)]), 0,
    ({ port := 0, tag := 1, peerAddr := 0, peerPort := 0, outstanding := 0, shareFree := 262144, udpSum := 0 }), (by decide +kernel)⟩, ⟨(wst
    [(0x1200, 0x1, 0, 1), (0x1700, 0x1, 0, 0)]), 0,
    ({ port := 0, tag := 1, peerAddr := 0, peerPort := 0, outstanding := 0, shareFree := 262144, udpSum := 0 }), 0, (by decide +kernel)⟩⟩

/-- The hypotheses of LoftGrants can be met, in every clause. -/
theorem witness_LoftGrants :
  (∃ s : State, ∃ t : Nat, ∃ b : Fin 8, ∃ reqs : List LoftReq,
    let d := s.devAt t
    let k := d.lbank b
    let here := reqs.filter (fun r => decide (loftBank r.addr = b))
    (∀ q ∈ reqs, q.addr < loftSize ∧ reqSpans q = false) ∧ (d.pdOn 2 = false ∨ here = [] ∨ 1023 ≤ k.since)) ∧
  (∃ s : State, ∃ t : Nat, ∃ b : Fin 8, ∃ reqs : List LoftReq,
    let d := s.devAt t
    let k := d.lbank b
    let here := reqs.filter (fun r => decide (loftBank r.addr = b))
    (∀ q ∈ reqs, q.addr < loftSize ∧ reqSpans q = false) ∧ d.pdOn 2 = true ∧ here ≠ [] ∧ k.since < 1023) :=
  ⟨⟨(wst []), 0, 0, [], (by dsimp only; decide +kernel)⟩, ⟨(wst []), 0, 0,
    ([{ who := 0, addr := 64, size := 8, data := some [0x01#8, 0x02#8, 0x03#8, 0x04#8, 0x05#8, 0x06#8, 0x07#8, 0x08#8], since := 1, ecc := 0, frame := false }]),
    (by dsimp only; decide +kernel)⟩⟩

/-- The hypotheses of ScrubberAndWindow can be met, in every clause. -/
theorem witness_ScrubberAndWindow :
  (∃ s : State, ∃ t : Nat, ∃ b : Fin 8, ∃ e : Fin 3,
    let d := s.devAt t
    d.runs 2 = true ∧
    let r := d.lbank b
    r.rewrite ≠ []) ∧
  (∃ s : State, ∃ t : Nat, ∃ b : Fin 8,
    let d := s.devAt t
    d.runs 2 = true ∧
    let r := d.lbank b
    r.rewrite = []) ∧
  (∃ s : State, ∃ t : Nat, ∃ b : Fin 8,
    let d := s.devAt t
    d.runs 2 = true ∧
    let r := d.lbank b
    r.rewrite = []) ∧
  (∃ s : State, ∃ t : Nat, ∃ b : Fin 8,
    let d := s.devAt t
    d.runs 2 = true ∧
    let r := d.lbank b
    r.rewrite = []) ∧
  (∃ s : State, ∃ t : Nat, ∃ f : Frame, f.index = 0x2D00 ∧ f.sub = 0x30 ∧ f.ctl ≤ 1 ∧ s.serves t f 0 true = true ∧ f.op = 1) ∧
  (∃ s : State, ∃ t : Nat, ∃ f : Frame, f.index = 0x2D00 ∧ f.sub = 0x30 ∧ f.ctl ≤ 1 ∧ s.serves t f 0 true = true ∧ f.op = 2) :=
  ⟨⟨(wstWith [] (fun d =>
    { d with lbanks := [(3, { rewrite := [88, 24] }), (2, { scrubbed := 196607, told := [100663280] }), (0, { told := [0] })] })), 0, 3, 0,
    (by dsimp only; decide +kernel)⟩, ⟨(wst []), 0, 0, (by dsimp only; decide +kernel)⟩, ⟨(wst []), 0, 0, (by dsimp only; decide +kernel)⟩,
    ⟨(wst []), 0, 0, (by dsimp only; decide +kernel)⟩, ⟨(wst [(0x1200, 0x1, 0, 1)]), 0,
    ({ req := { port := 0, tag := 1, peerAddr := 0, peerPort := 0, outstanding := 0, shareFree := 262144, udpSum := 0 }, op := 1, index := 11520, sub := 48, ctl := 1, len := 0, data := [] }),
    (by decide +kernel)⟩, ⟨(wst [(0x1200, 0x1, 0, 1), (0x2D00, 0x28, 0, 3)]), 0,
    ({ req := { port := 0, tag := 1, peerAddr := 0, peerPort := 0, outstanding := 0, shareFree := 262144, udpSum := 0 }, op := 2, index := 11520, sub := 48, ctl := 1, len := 3, data := [0x07#8, 0x08#8, 0x09#8] }),
    (by decide +kernel)⟩⟩

/-- The hypotheses of DmaCommands can be met, in every clause. -/
theorem witness_DmaCommands :
  (∃ s : State, ∃ t : Nat, ∃ r : Req, ∃ c : Fin 16,
    let i := 0x2D10 + c.val
    s.takes t r i 0x01 1 1 = true) ∧
  (∃ s : State, ∃ t : Nat, ∃ r : Req, ∃ c : Fin 16,
    let i := 0x2D10 + c.val
    s.takes t r i 0x01 1 2 = true) ∧
  (∃ s : State, ∃ t : Nat, ∃ r : Req, ∃ c : Fin 16,
    let d := s.devAt t
    let i := 0x2D10 + c.val
    s.takes t r i 0x01 1 3 = true ∧ d.dmaState c ≠ 0) ∧
  (∃ s : State, ∃ t : Nat, ∃ r : Req, ∃ c : Fin 16, ∃ on : Bool,
    let i := 0x2D10 + c.val
    s.takes t r i 0x02 1 (if on then 1 else 0) = true) ∧
  (∃ s : State, ∃ t : Nat, ∃ r : Req, ∃ c : Fin 16,
    let d := s.devAt t
    let i := 0x2D10 + c.val
    d.runs 2 = true ∧ (d.arrives (.dmaStart c) (d.obj i 0x12)).isSome = true ∧ d.dmaState c = 1) ∧
  (∃ s : State, ∃ t : Nat, ∃ r : Req, ∃ c : Fin 16,
    let d := s.devAt t
    d.runs 2 = true ∧ d.dmaState c ≠ 1) ∧
  (∃ s : State, ∃ t : Nat, ∃ r : Req, ∃ c : Fin 16,
    let d := s.devAt t
    let i := 0x2D10 + c.val
    d.runs 2 = true ∧ (d.arrives (.dmaPace c) (d.obj i 0x13)).isSome = true ∧ d.obj i 0x1A < 255) ∧
  (∃ s : State, ∃ t : Nat, ∃ r : Req, ∃ c : Fin 16,
    let d := s.devAt t
    let i := 0x2D10 + c.val
    d.runs 2 = true ∧ (d.arrives (.dmaPace c) (d.obj i 0x13)).isSome = true ∧ 255 ≤ d.obj i 0x1A) ∧
  (∃ s : State, ∃ t : Nat, ∃ r : Req, ∃ c : Fin 16,
    let d := s.devAt t
    let k := d.dma c
    d.runs 2 = true ∧ d.dmaState c = 2 ∧ k.all = true) :=
  ⟨⟨(wst [(0x1200, 0x1, 0, 1), (0x1200, 0x3, 0, 0xFFFFFFFF), (0x1700, 0x86, 0, 0)]), 0,
    ({ port := 0, tag := 1, peerAddr := 0, peerPort := 0, outstanding := 0, shareFree := 262144, udpSum := 0 }), 0,
    (by dsimp only; decide +kernel)⟩, ⟨(wst [(0x1200, 0x1, 0, 1), (0x1200, 0x3, 0, 0xFFFFFFFF), (0x1700, 0x86, 0, 0)]), 0,
    ({ port := 0, tag := 1, peerAddr := 0, peerPort := 0, outstanding := 0, shareFree := 262144, udpSum := 0 }), 0,
    (by dsimp only; decide +kernel)⟩, ⟨(wst [(0x2D10, 0x16, 0, 1), (0x1200, 0x1, 0, 1), (0x1200, 0x3, 0, 0xFFFFFFFF), (0x1700, 0x86, 0,
    0)]), 0, ({ port := 0, tag := 1, peerAddr := 0, peerPort := 0, outstanding := 0, shareFree := 262144, udpSum := 0 }), 0,
    (by dsimp only; decide +kernel)⟩, ⟨(wst [(0x1200, 0x1, 0, 1), (0x1200, 0x3, 0, 0xFFFFFFFF), (0x1700, 0x86, 0, 0)]), 0,
    ({ port := 0, tag := 1, peerAddr := 0, peerPort := 0, outstanding := 0, shareFree := 262144, udpSum := 0 }), 0, false,
    (by dsimp only; decide +kernel)⟩, ⟨(wstWith [(0x2D10, 0x16, 0, 1), (0x2D10, 0x12, 0, 5)] (fun d =>
    { d with evt := [(5, { began := some 99, count := 1, sentAt := 99 }), (6, { began := some 99, count := 1, sentAt := 99 }), (224, { pulses := 4 })] })),
    0, ({ port := 0, tag := 1, peerAddr := 0, peerPort := 0, outstanding := 0, shareFree := 262144, udpSum := 0 }), 0,
    (by dsimp only; decide +kernel)⟩, ⟨(wst []), 0,
    ({ port := 0, tag := 1, peerAddr := 0, peerPort := 0, outstanding := 0, shareFree := 262144, udpSum := 0 }), 0,
    (by dsimp only; decide +kernel)⟩, ⟨(wstWith [(0x2D10, 0x13, 0, 6)] (fun d =>
    { d with evt := [(5, { began := some 99, count := 1, sentAt := 99 }), (6, { began := some 99, count := 1, sentAt := 99 }), (224, { pulses := 4 })] })),
    0, ({ port := 0, tag := 1, peerAddr := 0, peerPort := 0, outstanding := 0, shareFree := 262144, udpSum := 0 }), 0,
    (by dsimp only; decide +kernel)⟩, ⟨(wstWith [(0x2D10, 0x13, 0, 6), (0x2D10, 0x1A, 0, 255)] (fun d =>
    { d with evt := [(5, { began := some 99, count := 1, sentAt := 99 }), (6, { began := some 99, count := 1, sentAt := 99 }), (224, { pulses := 4 })] })),
    0, ({ port := 0, tag := 1, peerAddr := 0, peerPort := 0, outstanding := 0, shareFree := 262144, udpSum := 0 }), 0,
    (by dsimp only; decide +kernel)⟩, ⟨(wstWith [(0x2D10, 0x16, 0, 2)] (fun d => { d with dmas := [(0, { all := true })] })), 0,
    ({ port := 0, tag := 1, peerAddr := 0, peerPort := 0, outstanding := 0, shareFree := 262144, udpSum := 0 }), 0,
    (by dsimp only; decide +kernel)⟩⟩

/-- The hypotheses of DmaCopies can be met, in every clause. -/
theorem witness_DmaCopies :
  (∃ s : State, ∃ t : Nat, ∃ c : Fin 16,
    let d := s.devAt t
    let i := 0x2D10 + c.val
    let e := 0x2C00 + d.obj i 0x11
    let k := d.dma c
    let n := 2 ^ d.obj i 0x05
    let src := (d.dmaAddr c 0x03 0x09 k.i0 k.i1 k.i2).toNat
    let from_ := if d.obj i 0x0F = 1 then d.obj e 0x13 + d.obj e 0x18 else src
    d.runs 2 = true ∧ d.dmaState c = 2 ∧ k.all = false ∧ d.obj i 0x02 ≠ 1 ∧ (d.obj i 0x13 ≤ 255 → d.obj i 0x1A ≠ 0) ∧ d.dmaRingWait c =
      false ∧ (d.obj i 0x0F = 1 ∨ d.obj i 0x10 = 1 → d.obj i 0x11 < 8) ∧ d.obj i 0x10 ≠ 1 ∧ d.meetsBad from_ n = false) ∧
  (∃ s : State, ∃ t : Nat, ∃ c : Fin 16,
    let d := s.devAt t
    let i := 0x2D10 + c.val
    let e := 0x2C00 + d.obj i 0x11
    let k := d.dma c
    let n := 2 ^ d.obj i 0x05
    let src := (d.dmaAddr c 0x03 0x09 k.i0 k.i1 k.i2).toNat
    let from_ := if d.obj i 0x0F = 1 then d.obj e 0x13 + d.obj e 0x18 else src
    d.runs 2 = true ∧ d.dmaState c = 2 ∧ k.all = false ∧ d.obj i 0x02 ≠ 1 ∧ (d.obj i 0x13 ≤ 255 → d.obj i 0x1A ≠ 0) ∧ d.dmaRingWait c =
      false ∧ (d.obj i 0x0F = 1 ∨ d.obj i 0x10 = 1 → d.obj i 0x11 < 8) ∧ d.obj i 0x10 = 1 ∧ d.obj e 0x11 + d.obj e 0x12 ≤ loftSize ∧
      d.meetsBad from_ n = false) ∧
  (∃ s : State, ∃ t : Nat, ∃ c : Fin 16, ∃ ecc : Nat,
    let d := s.devAt t
    let i := 0x2D10 + c.val
    let e := 0x2C00 + d.obj i 0x11
    let k := d.dma c
    let n := 2 ^ d.obj i 0x05
    let src := (d.dmaAddr c 0x03 0x09 k.i0 k.i1 k.i2).toNat
    let from_ := if d.obj i 0x0F = 1 then d.obj e 0x13 + d.obj e 0x18 else src
    d.runs 2 = true ∧ d.dmaState c = 2 ∧ k.all = false ∧ d.obj i 0x02 ≠ 1 ∧ (d.obj i 0x13 ≤ 255 → d.obj i 0x1A ≠ 0) ∧ d.dmaRingWait c =
      false ∧ (d.obj i 0x0F = 1 ∨ d.obj i 0x10 = 1 → d.obj i 0x11 < 8) ∧ (ecc = true ∨ d.meetsBad from_ n = true)) :=
  ⟨⟨(wst [(0x2D1F, 0x16, 0, 2)]), 0, 15, (by dsimp only; decide +kernel)⟩, ⟨(wst [(0x2C07, 0x12, 0, 16), (0x2D13, 0x16, 0, 2), (0x2D13, 0x10,
    0, 1), (0x2D13, 0x11, 0, 7)]), 0, 3, (by dsimp only; decide +kernel)⟩, ⟨(wst [(0x2D1F, 0x16, 0, 2)]), 0, 15, 1,
    (by dsimp only; decide +kernel)⟩⟩

/-- The hypotheses of StacksNestAndRecover can be met, in every clause. -/
theorem witness_StacksNestAndRecover :
  (∃ s : State, ∃ t : Nat, ∃ c : Fin 4,
    let d := s.devAt t
    let r := d.core c
    d.runs 2 = true ∧ d.coreDown c = false ∧ r.frozen = false) ∧
  (∃ s : State, ∃ t : Nat, ∃ c : Fin 4,
    let d := s.devAt t
    let r := d.core c
    d.runs 2 = true ∧ d.coreDown c = false ∧ r.frozen = false ∧ ∃ src ∈ r.presented, (d.pend src c).pending = true ∧ (d.pend src c).active =
      false ∧ (d.pend src c).prio < r.ceiling) ∧
  (∃ s : State, ∃ t : Nat, ∃ c : Fin 4, ∃ src : Fin 128, ∃ p : Nat, ∃ rest : List (Nat × Nat),
    let d := s.devAt t
    let r := d.core c
    d.runs 2 = true ∧ d.coreDown c = false ∧ r.frozen = false ∧ r.stack = (src.val, p) :: rest ∧ (d.pend src c).active = true ∧ (c = 0 →
      src.val = 127 → d.faultLine = false)) ∧
  (∃ s : State, ∃ t : Nat, ∃ c : Fin 4,
    let d := s.devAt t
    d.runs 2 = true ∧ d.coreDown 0 = false ∧ d.faultLine = true) ∧
  (∃ s : State, ∃ t : Nat, ∃ c : Fin 4, ∃ r : Req, s.takes t r (0x2E10 + c.val) 0x08 1 1 = true) :=
  ⟨⟨(wst []), 0, 0, (by dsimp only; decide +kernel)⟩, ⟨(wstWith [] (fun d =>
    { d with irq := [(80, { pending := true, prio := 4 }), (112, { pending := true, prio := 4 }), (144, { active := true, prio := 9 }), (160, { pending := true, active := true, prio := 12 }), (132, { pending := true }), (1936, { pending := true, prio := 1 }), (643, { pending := true, prio := 15 }), (2032, { active := true })], cores := [(0, { stack := [(9, 9), (10, 12)], presented := some 5 })] })),
    0, 0, (by dsimp only; decide +kernel)⟩, ⟨(wstWith [] (fun d =>
    { d with irq := [(80, { pending := true, prio := 4 }), (112, { pending := true, prio := 4 }), (144, { active := true, prio := 9 }), (160, { pending := true, active := true, prio := 12 }), (132, { pending := true }), (1936, { pending := true, prio := 1 }), (643, { pending := true, prio := 15 }), (2032, { active := true })], cores := [(0, { stack := [(127, 3), (10, 12)] })] })),
    0, 0, 127, 3, ([(10, 12)]), (by dsimp only; decide +kernel)⟩, ⟨(wstWith [] (fun d => { d with faultLine := true })), 0, 0,
    (by dsimp only; decide +kernel)⟩, ⟨(wstWith [(0x1200, 0x1, 0, 1), (0x1700, 0x1, 0, 0)] (fun d =>
    { d with cores := [(0, { stack := [(9, 9), (10, 12)], frozen := true, presented := some 7 })] })), 0, 0,
    ({ port := 0, tag := 1, peerAddr := 0, peerPort := 0, outstanding := 0, shareFree := 262144, udpSum := 0 }), (by decide +kernel)⟩⟩

/-- The hypotheses of InactiveCompletionsIgnored can be met, in every clause. -/
theorem witness_InactiveCompletionsIgnored :
  (∃ s : State, ∃ t : Nat, ∃ c : Fin 4, ∃ src : Fin 128,
    let d := s.devAt t
    d.runs 2 = true ∧ d.coreDown c = false ∧ (d.pend src c).active = false ∧ (c = 0 → src.val = 127 → d.faultLine = false)) ∧
  (∃ s : State, ∃ t : Nat, ∃ f : Frame, f.op = 0x0B ∧ s.serves t f 0 true = true ∧
    let e := (s.devAt t).arrive f.req
    let p := f.req.port.val
    f.data ≠ [] ∧ (∀ b ∈ f.data, b.toNat < 128 → (e.pend b.toNat (4 + p)).active = false)) :=
  ⟨⟨(wst []), 0, 0, 0, (by dsimp only; decide +kernel)⟩, ⟨(wst [(0x1200, 0x1, 0, 1), (0x1200, 0x3, 0, 0xFFFFFFFF)]), 0,
    ({ req := { port := 0, tag := 1, peerAddr := 0, peerPort := 0, outstanding := 0, shareFree := 262144, udpSum := 0 }, op := 11, index := 0, sub := 0, ctl := 1, len := 1, data := [0x05#8] }),
    (by dsimp only; decide +kernel)⟩⟩

/-- The hypotheses of FrozenStacks can be met, in every clause. -/
theorem witness_FrozenStacks :
  (∃ s : State, ∃ t : Nat, ∃ c : Fin 4, ∃ src : Fin 128, ∃ top : Nat, ∃ p : Nat, ∃ rest : List (Nat × Nat),
    let d := s.devAt t
    let r := d.core c
    d.runs 2 = true ∧ d.coreDown c = false ∧ r.frozen = false ∧ r.stack = (top, p) :: rest ∧ (d.pend src c).active = true ∧ top ≠ src.val ∧
      (c = 0 → src.val = 127 → d.faultLine = false)) ∧
  (∃ s : State, ∃ t : Nat, ∃ c : Fin 4,
    let d := s.devAt t
    let r := d.core c
    d.runs 2 = true ∧ d.coreDown c = false ∧ r.frozen = true) ∧
  (∃ s : State, ∃ t : Nat, ∃ c : Fin 4,
    let d := s.devAt t
    let r := d.core c
    d.runs 2 = true ∧ d.coreDown c = false ∧ r.frozen = true) ∧
  (∃ s : State, ∃ t : Nat, ∃ c : Fin 4, ∃ src : Fin 128,
    let d := s.devAt t
    let r := d.core c
    d.runs 2 = true ∧ d.coreDown c = false ∧ r.frozen = true ∧ (c = 0 → src.val = 127 → d.faultLine = false)) ∧
  (∃ s : State, ∃ t : Nat, ∃ c : Fin 4, ∃ src : Nat,
    let d := s.devAt t
    let r := d.core c
    d.runs 2 = true ∧ d.coreDown c = false ∧ r.frozen = true ∧ src < 127 ∧ (d.routeOf src).1 = c.val) :=
  ⟨⟨(wstWith [] (fun d =>
    { d with irq := [(80, { pending := true, prio := 4 }), (112, { pending := true, prio := 4 }), (144, { active := true, prio := 9 }), (160, { pending := true, active := true, prio := 12 }), (132, { pending := true }), (1936, { pending := true, prio := 1 }), (643, { pending := true, prio := 15 }), (2032, { active := true })], cores := [(0, { stack := [(9, 9), (10, 12)], presented := some 5 })] })),
    0, 0, 127, 9, 9, ([(10, 12)]), (by dsimp only; decide +kernel)⟩, ⟨(wstWith [] (fun d =>
    { d with cores := [(0, { stack := [(9, 9), (10, 12)], frozen := true, presented := some 7 })] })), 0, 0,
    (by dsimp only; decide +kernel)⟩, ⟨(wstWith [] (fun d =>
    { d with cores := [(0, { stack := [(9, 9), (10, 12)], frozen := true, presented := some 7 })] })), 0, 0,
    (by dsimp only; decide +kernel)⟩, ⟨(wstWith [] (fun d =>
    { d with cores := [(0, { stack := [(9, 9), (10, 12)], frozen := true, presented := some 7 })] })), 0, 0, 0,
    (by dsimp only; decide +kernel)⟩, ⟨(wstWith [(0x2E01, 0x9, 0, 768)] (fun d =>
    { d with cores := [(0, { stack := [(9, 9), (10, 12)], frozen := true, presented := some 7 })] })), 0, 0, 8,
    (by dsimp only; decide +kernel)⟩⟩

/-- The hypotheses of MailboxesAndBells can be met, in every clause. -/
theorem witness_MailboxesAndBells :
  (∃ s : State, ∃ t : Nat, ∃ r : Req, s.takes t r 0x2E00 0x01 1 1 = true) ∧
  (∃ s : State, ∃ t : Nat, ∃ r : Req, s.takes t r 0x2E60 0x01 1 1 = true) ∧
  (∃ s : State, ∃ t : Nat, ∃ r : Req, ∃ m : Fin 32, ∃ data : List Byte, s.serves t (putFrame r (0x2E40 + m.val) 0x04 1 data) 0 true = true) ∧
  (∃ s : State, ∃ t : Nat, ∃ r : Req, ∃ m : Fin 32,
    let f : Frame := { req := r, op := 0x01, index := 0x2E40 + m.val, sub := 0x05, ctl := 1, len := 0, data := [] }
    s.serves t f 0 true = true) ∧
  (∃ s : State, ∃ t : Nat, ∃ r : Req, ∃ mask : Nat, mask < 65536 ∧ s.takes t r 0x2E60 0x04 2 mask = true) ∧
  (∃ s : State, ∃ t : Nat, ∃ r : Req, ∃ mask : Nat, mask < 65536 ∧ s.takes t r 0x2E60 0x05 2 mask = true) :=
  ⟨⟨(wst [(0x1200, 0x1, 0, 1), (0x1700, 0x1, 0, 0)]), 0,
    ({ port := 0, tag := 1, peerAddr := 0, peerPort := 0, outstanding := 0, shareFree := 262144, udpSum := 0 }), (by decide +kernel)⟩, ⟨(wst
    [(0x1200, 0x1, 0, 1), (0x1200, 0x3, 0, 0xFFFFFFFF), (0x1700, 0x1, 0, 0)]), 0,
    ({ port := 0, tag := 1, peerAddr := 0, peerPort := 0, outstanding := 0, shareFree := 262144, udpSum := 0 }), (by decide +kernel)⟩, ⟨(wst
    [(0x2E45, 0x1, 0, 0), (0x2E45, 0x2, 0, 0), (0x1200, 0x1, 0, 1), (0x1200, 0x3, 0, 0xFFFFFFFF)]), 0,
    ({ port := 0, tag := 1, peerAddr := 0, peerPort := 0, outstanding := 0, shareFree := 262144, udpSum := 0 }), 5, [0x01#8],
    (by decide +kernel)⟩, ⟨(wst [(0x2E45, 0x2, 0, 0), (0x1200, 0x1, 0, 1), (0x1200, 0x3, 0, 0xFFFFFFFF)]), 0,
    ({ port := 0, tag := 1, peerAddr := 0, peerPort := 0, outstanding := 0, shareFree := 262144, udpSum := 0 }), 5,
    (by dsimp only; decide +kernel)⟩, ⟨(wst [(0x1200, 0x1, 0, 1), (0x1200, 0x3, 0, 0xFFFFFFFF)]), 0,
    ({ port := 0, tag := 1, peerAddr := 0, peerPort := 0, outstanding := 0, shareFree := 262144, udpSum := 0 }), 0, (by decide +kernel)⟩,
    ⟨(wst [(0x1200, 0x1, 0, 1), (0x1200, 0x3, 0, 0xFFFFFFFF)]), 0,
    ({ port := 0, tag := 1, peerAddr := 0, peerPort := 0, outstanding := 0, shareFree := 262144, udpSum := 0 }), 0, (by decide +kernel)⟩⟩

/-- The hypotheses of NightlightActs can be met, in every clause. -/
theorem witness_NightlightActs :
  (∃ s : State, ∃ t : Nat, ∃ w : Fin 16,
    let d := s.devAt t
    d.watchDue w = true ∧ d.rst.waking = false ∧ d.rst.slept.isSome = true) ∧
  (∃ s : State, ∃ t : Nat, ∃ w : Fin 16,
    let d := s.devAt t
    d.watchDue w = true ∧ d.rst.waking = false ∧ d.rst.slept = none) ∧
  (∃ s : State, ∃ t : Nat, ∃ p : Fin 6, ∃ e ∈ ((s.devAt t).port p).hattnWake, e ≤ (s.devAt t).now) :=
  ⟨⟨(wstWith [] (fun d =>
    { d with rst := { optCount := 3, optCodes := [0, 0, 0], slept := some 99 }, night := [(2, { live := true, since := 5, hits := 1 })] })),
    0, 2, (by dsimp only; decide +kernel)⟩, ⟨(wstWith [] (fun d => { d with night := [(2, { live := true, since := 5 })] })), 0, 2,
    (by dsimp only; decide +kernel)⟩, ⟨(wstWith [] (fun d => { d with now := 10000000000000, ports := [(3, { hattnWake := some 10 })] })),
    0, 3, (by decide +kernel)⟩⟩

/-- The hypotheses of ResetsAndPowerOn can be met, in every clause. -/
theorem witness_ResetsAndPowerOn :
  (∃ s : State, ∃ t : Nat, s.dev.rst.heldPin = false) ∧
  (∃ s : State, ∃ t : Nat, ∃ r : Req, s.takes t r 0x2F00 0x07 1 1 = true) ∧
  (∃ s : State, ∃ t : Nat, ∃ r : Req, s.takes t r 0x1030 0x03 1 1 = true) ∧
  (∃ s : State, ∃ t : Nat, ∃ k : Fin 14, (k.val = 2 ∨ k.val = 3) ∧ (s.devAt t).pdOn k = true) ∧
  (∃ s : State, ∃ t : Nat, (s.devAt t).coresRun = true ∧ (s.devAt t).coreDown 0 = false) :=
  ⟨⟨(wst []), 0, (by decide +kernel)⟩, ⟨(wst [(0x1200, 0x1, 0, 1), (0x1700, 0x1, 0, 0)]), 0,
    ({ port := 0, tag := 1, peerAddr := 0, peerPort := 0, outstanding := 0, shareFree := 262144, udpSum := 0 }), (by decide +kernel)⟩, ⟨(wst
    [(0x1030, 0x2, 0, 2), (0x1200, 0x1, 0, 1), (0x1200, 0x3, 0, 0xFFFFFFFF), (0x1700, 0x1, 0, 0)]), 0,
    ({ port := 0, tag := 1, peerAddr := 0, peerPort := 0, outstanding := 0, shareFree := 262144, udpSum := 0 }), (by decide +kernel)⟩, ⟨(wst
    []), 0, 2, (by decide +kernel)⟩, ⟨(wst []), 0, (by decide +kernel)⟩⟩

/-- The hypotheses of PhasesFollow can be met, in every clause. -/
theorem witness_PhasesFollow :
  (∃ s : State, ∃ t : Nat, (s.devAt t).inPhase 1 = true) ∧
  (∃ s : State, ∃ t : Nat, ∃ edges : Nat, ∃ kHz : Nat, ∃ crystal : Bool, ∃ worst : Nat, (s.devAt t).inPhase 2 = true) ∧
  (∃ s : State, ∃ t : Nat, ∃ code : Fin 16, ∃ rest : List Nat, (s.devAt t).inPhase 3 = true ∧ s.dev.rst.optTaken = false ∧
      s.dev.rst.optCodes = [code.val, code.val] ++ rest) ∧
  (∃ s : State, ∃ t : Nat, ∃ ms4 : Bool, ∃ ms5 : Bool, (s.devAt t).inPhase 3 = true ∧ s.dev.rst.optTaken = true) ∧
  (∃ s : State, ∃ t : Nat, (s.devAt t).inPhase 4 = true ∧ s.dev.rst.testmode = false) ∧
  (∃ s : State, ∃ t : Nat, (s.devAt t).inPhase 5 = true ∧ s.dev.rst.waking = false) ∧
  (∃ s : State, ∃ t : Nat, ∃ k : Fin 14, (s.devAt t).inPhase 5 = true) ∧
  (∃ s : State, ∃ t : Nat, ∃ okA : Bool, ∃ okB : Bool, (s.devAt t).inPhase 6 = true ∧ s.dev.rst.bootStuck = false ∧ ((s.devAt t).fwPasses 0
      okA = true ∨ (s.devAt t).fwPasses 1 okB = true)) ∧
  (∃ s : State, ∃ t : Nat, ∃ okA : Bool, ∃ okB : Bool, (s.devAt t).inPhase 6 = true ∧ s.dev.rst.bootStuck = true ∧ s.dev.rst.bootBank < 2 ∧
      ((s.devAt t).fwPasses 0 okA = true ∨ (s.devAt t).fwPasses 1 okB = true)) ∧
  (∃ s : State, ∃ t : Nat, (s.devAt t).inPhase 7 = true) ∧
  (∃ s : State, ∃ t : Nat, (s.devAt t).inPhase 8 = true ∧ (s.devAt t).ready = false) :=
  ⟨⟨(wst [(0x2F00, 0x1, 0, 1)]), 0, (by decide +kernel)⟩, ⟨(wst [(0x2F00, 0x1, 0, 2)]), 0, 0, 0, false, 0, (by decide +kernel)⟩, ⟨(wstWith
    [(0x2F00, 0x1, 0, 3)] (fun d => { d with rst := { optCount := 2, optCodes := [3, 3], optTaken := false } })), 0, 3, [],
    (by decide +kernel)⟩, ⟨(wst [(0x2F00, 0x1, 0, 3)]), 0, false, false, (by decide +kernel)⟩, ⟨(wst [(0x2F00, 0x1, 0, 4)]), 0,
    (by decide +kernel)⟩, ⟨(wst [(0x2F00, 0x1, 0, 5)]), 0, (by decide +kernel)⟩, ⟨(wst [(0x2F00, 0x1, 0, 5)]), 0, 0, (by decide +kernel)⟩,
    ⟨(wstWith [(0x2F00, 0x1, 0, 6)] (fun d =>
    { d with fw := [(0, { verify := 2, highestCl := 1 }), (1, { verify := 2, highestCl := 1 })] })), 0, false, true, (by decide +kernel)⟩,
    ⟨(wstWith [(0x2F00, 0x1, 0, 6)] (fun d =>
    { d with rst := { optCount := 3, optCodes := [0, 0, 0], bootStuck := true }, fw := [(0, { verify := 2, highestCl := 1 }), (1, { verify := 2, highestCl := 1 })] })),
    0, false, true, (by decide +kernel)⟩, ⟨(wst [(0x2F00, 0x1, 0, 7)]), 0, (by decide +kernel)⟩, ⟨(wst [(0x2F00, 0x2, 0, 0)]), 0,
    (by decide +kernel)⟩⟩

/-- The hypotheses of PartsAndPower can be met, in every clause. -/
theorem witness_PartsAndPower :
  (∃ s : State, ∃ t : Nat, ∃ r : Req, ∃ v : Fin 256, s.takes t r 0x2F00 0x08 1 v = true) ∧
  (∃ s : State, ∃ t : Nat, ∃ k ∈ s.dev.rst.domReset, (s.devAt t).coresRun = true ∧ s.dev.obj 0x2F00 0x0A = 3) ∧
  (∃ s : State, ∃ t : Nat, s.dev.rst.domReset = none ∧ (s.devAt t).coresRun = true ∧ ∃ z_ ∈ (s.dev.rst.browned).head?, True) ∧
  (∃ s : State, ∃ t : Nat, ∃ k : Fin 14, 4 ≤ k.val ∧ (s.devAt t).pdOn k = true ∧ (s.devAt t).coresRun = true) ∧
  (∃ s : State, ∃ t : Nat, ∃ c : Fin 4, 1 ≤ c.val ∧ (s.devAt t).coresRun = true ∧ (s.devAt t).coreDown c = false ∧ (((s.devAt t).core
      c).restarts.filter (fun x => decide ((s.devAt t).now < x + 60 * tqSec))).length < 2) ∧
  (∃ s : State, ∃ t : Nat, ∃ c : Fin 4, (s.devAt t).coresRun = true ∧ (s.dev.core c).down = true) ∧
  (∃ s : State, ∃ t : Nat, (s.devAt t).ready = true) ∧
  (∃ s : State, ∃ t : Nat, ∃ r : Req, s.takes t r 0x2F00 0x03 1 1 = true) ∧
  (∃ s : State, ∃ t : Nat, ∃ r : Req, s.takes t r 0x2F00 0x03 1 2 = true) ∧
  (∃ s : State, ∃ t : Nat, ∃ r : Req, ∃ v : Nat, v < 65536 ∧ s.takes t r 0x2F10 0x02 2 v = true) ∧
  (∃ s : State, ∃ t : Nat, ∃ r : Req, s.takes t r 0x2F10 0x03 1 1 = true) ∧
  (∃ s : State, ∃ t : Nat, ∃ r : Req, s.dev.bit 0x2F10 0x06 0 = false) ∧
  (∃ s : State, ∃ t : Nat, ∃ r : Req, s.takes t r 0x2F10 0x09 1 1 = true) :=
  ⟨⟨(wst [(0x1200, 0x1, 0, 1), (0x1700, 0x1, 0, 0)]), 0,
    ({ port := 0, tag := 1, peerAddr := 0, peerPort := 0, outstanding := 0, shareFree := 262144, udpSum := 0 }), 5, (by decide +kernel)⟩,
    ⟨(wstWith [(0x2F00, 0xA, 0, 3)] (fun d =>
    { d with rst := { optCount := 3, optCodes := [0, 0, 0], domReset := some 4, browned := [5, 12] } })), 0, (by decide +kernel)⟩, ⟨(wstWith
    [] (fun d => { d with rst := { optCount := 3, optCodes := [0, 0, 0], browned := [5, 12] } })), 0, (by decide +kernel)⟩, ⟨(wst []), 0, 5,
    (by decide +kernel)⟩, ⟨(wst []), 0, 1, (by decide +kernel)⟩, ⟨(wstWith [] (fun d =>
    { d with cores := [(1, { down := true, restarts := [5] }), (2, { restarts := [7] })] })), 0, 1, (by decide +kernel)⟩, ⟨(wst []), 0,
    (by decide +kernel)⟩, ⟨(wst [(0x2F00, 0x2, 0, 3), (0x1200, 0x1, 0, 1), (0x1700, 0x1, 0, 0)]), 0,
    ({ port := 0, tag := 1, peerAddr := 0, peerPort := 0, outstanding := 0, shareFree := 262144, udpSum := 0 }), (by decide +kernel)⟩, ⟨(wst
    [(0x2F00, 0x2, 0, 3), (0x1200, 0x1, 0, 1), (0x1700, 0x1, 0, 0)]), 0,
    ({ port := 0, tag := 1, peerAddr := 0, peerPort := 0, outstanding := 0, shareFree := 262144, udpSum := 0 }), (by decide +kernel)⟩, ⟨(wst
    [(0x1200, 0x1, 0, 1), (0x1700, 0x1, 0, 0)]), 0,
    ({ port := 0, tag := 1, peerAddr := 0, peerPort := 0, outstanding := 0, shareFree := 262144, udpSum := 0 }), 4111, (by decide +kernel)⟩,
    ⟨(wst [(0x2E20, 0x1, 0, 1), (0x2E20, 0x12, 0, 1073741824), (0x1200, 0x1, 0, 1), (0x1700, 0x1, 0, 0)]), 0,
    ({ port := 0, tag := 1, peerAddr := 0, peerPort := 0, outstanding := 0, shareFree := 262144, udpSum := 0 }), (by decide +kernel)⟩, ⟨(wst
    []), 0, ({ port := 0, tag := 1, peerAddr := 0, peerPort := 0, outstanding := 0, shareFree := 262144, udpSum := 0 }),
    (by decide +kernel)⟩, ⟨(wst [(0x1200, 0x1, 0, 1), (0x1700, 0x1, 0, 0)]), 0,
    ({ port := 0, tag := 1, peerAddr := 0, peerPort := 0, outstanding := 0, shareFree := 262144, udpSum := 0 }), (by decide +kernel)⟩⟩

/-- The hypotheses of StoreWritesRun can be met, in every clause. -/
theorem witness_StoreWritesRun :
  (∃ s : State, ∃ t : Nat, ∃ r : Req, s.takes t r 0x2F20 0x01 1 1 = true) ∧
  (∃ s : State, ∃ t : Nat, ∃ r : Req, s.takes t r 0x2F20 0x01 1 2 = true) ∧
  (∃ s : State, ∃ t : Nat, ∃ r : Req, s.takes t r 0x2F20 0x01 1 3 = true) ∧
  (∃ s : State, ∃ t : Nat, (s.devAt t).ready = true ∧ s.dev.bit 0x2F20 0x08 0 = true ∧ 0 < s.dev.nv.tokL ∧ (∀ j ∈ s.dev.nv.jobs, j.pair ≠ 6)
      ∧ s.dev.bit 0x2F10 0x06 0 = false) ∧
  (∃ s : State, ∃ t : Nat, ∃ pair : Fin 4, ∃ j : NvJob, s.dev.nv.jobs = [j] ∧ j.pair = 2 * pair.val ∧ j.imported = false ∧ (s.devAt
      t).coresRun = true ∧ j.body.length + 32 ≤ nvSize j.pair) ∧
  (∃ s : State, ∃ t : Nat, ∃ j : NvJob, ∃ ok : Bool, s.dev.nv.jobs = [j] ∧ j.pair = 6 ∧ j.imported = true ∧ (s.devAt t).coresRun = true) ∧
  (∃ s : State, ∃ t : Nat, s.dev.nv.tokP < 24 ∧ 900 * tqSec ≤ s.dev.nv.accP + ((s.devAt t).now - s.dev.nv.refP)) ∧
  (∃ s : State, ∃ t : Nat, s.dev.nv.tokL < 4 ∧ 1200 * tqSec ≤ s.dev.nv.accL + ((s.devAt t).now - s.dev.nv.refL)) :=
  ⟨⟨(wst [(0x1200, 0x1, 0, 1), (0x1700, 0x1, 0, 0)]), 0,
    ({ port := 0, tag := 1, peerAddr := 0, peerPort := 0, outstanding := 0, shareFree := 262144, udpSum := 0 }), (by decide +kernel)⟩, ⟨(wst
    [(0x1200, 0x1, 0, 1), (0x1700, 0x1, 0, 0)]), 0,
    ({ port := 0, tag := 1, peerAddr := 0, peerPort := 0, outstanding := 0, shareFree := 262144, udpSum := 0 }), (by decide +kernel)⟩, ⟨(wst
    [(0x1200, 0x1, 0, 1), (0x1700, 0x1, 0, 0)]), 0,
    ({ port := 0, tag := 1, peerAddr := 0, peerPort := 0, outstanding := 0, shareFree := 262144, udpSum := 0 }), (by decide +kernel)⟩, ⟨(wst
    [(0x2F20, 0x8, 0, 31)]), 0, (by decide +kernel)⟩, ⟨(wstWith [] (fun d =>
    { d with nv := { banks := [(0, { magic := 1314275915, level := 1, format := 1, seq := 1, len := 1, crc := 3733745447, commit := 1515897660, body := [0x00#8] }), (1, { magic := 1314275915, level := 1, format := 1, seq := 1, len := 1, crc := 3733745447, commit := 1515897660, body := [0x00#8] })], jobs := [{ pair := 4, bank := 4, body := [0x01#8, 0x02#8], seq := 77, commit := true, imported := false }], tokP := 3, tokL := 2, refP := 90784000000000 } })),
    0, 2, ({ pair := 4, bank := 4, body := [0x01#8, 0x02#8], seq := 77, commit := true, imported := false }), (by decide +kernel)⟩,
    ⟨(wstWith [] (fun d =>
    { d with nv := { banks := [(0, { magic := 1314275915, level := 1, format := 1, seq := 1, len := 1, crc := 3733745447, commit := 1515897660, body := [0x00#8] }), (1, { magic := 1314275915, level := 1, format := 1, seq := 1, len := 1, crc := 3733745447, commit := 1515897660, body := [0x00#8] })], jobs := [{ pair := 6, bank := 6, body := [0x01#8, 0x02#8], seq := 77, commit := false, imported := true }], tokP := 3, tokL := 2, refP := 90784000000000 } })),
    0, ({ pair := 6, bank := 6, body := [0x01#8, 0x02#8], seq := 77, commit := false, imported := true }), false, (by decide +kernel)⟩,
    ⟨(wstWith [] (fun d =>
    { d with now := 100000000000000, nv := { banks := [(0, { magic := 1314275915, level := 1, format := 1, seq := 1, len := 1, crc := 3733745447, commit := 1515897660, body := [0x00#8] }), (1, { magic := 1314275915, level := 1, format := 1, seq := 1, len := 1, crc := 3733745447, commit := 1515897660, body := [0x00#8] })], tokP := 3, tokL := 2, refP := 90784000000000 } })),
    0, (by decide +kernel)⟩, ⟨(wstWith [] (fun d =>
    { d with now := 100000000000000, nv := { banks := [(0, { magic := 1314275915, level := 1, format := 1, seq := 1, len := 1, crc := 3733745447, commit := 1515897660, body := [0x00#8] }), (1, { magic := 1314275915, level := 1, format := 1, seq := 1, len := 1, crc := 3733745447, commit := 1515897660, body := [0x00#8] })], tokP := 3, tokL := 2, refP := 90784000000000 } })),
    0, (by decide +kernel)⟩⟩

/-- The hypotheses of LearnedDataMove can be met, in every clause. -/
theorem witness_LearnedDataMove :
  (∃ s : State, ∃ t : Nat, ∃ f : Frame, f.index = 0x5000 ∧ f.ctl ≤ 1 ∧ s.admits t f = true ∧
    let g := frameUnpad f
    let e := ((s.devAt t).arrive f.req).staged g
    let p := f.req.port.val
    e.sessOpen p = true ∧ e.feature p 0 1 = true ∧ f.sub = 0x01 ∧ f.op = 0x03 ∧ (e.port p).xfer = none ∧ e.gatesShut p 0x5000 [1] = false ∧
      g.data.length = 8 ∧ g.data.take 4 = [1, 0, 0, 0]) ∧
  (∃ s : State, ∃ t : Nat, ∃ f : Frame, f.index = 0x5000 ∧ f.ctl ≤ 1 ∧ s.admits t f = true ∧
    let g := frameUnpad f
    let e := ((s.devAt t).arrive f.req).staged g
    let p := f.req.port.val
    let seg := segSize p
    e.sessOpen p = true ∧ e.feature p 0 1 = true ∧ f.sub = 0x01 ∧ ∃ x ∈ e.xferOf f, x.isWrite = false ∧ f.op = 0x04 ∧ g.data = leBytes 2
      x.seq ∧ (x.seq = 0 ∨ x.seq * seg < x.total)) ∧
  (∃ s : State, ∃ t : Nat, ∃ f : Frame, f.index = 0x5000 ∧ f.ctl ≤ 1 ∧ s.admits t f = true ∧
    let g := frameUnpad f
    let e := ((s.devAt t).arrive f.req).staged g
    let p := f.req.port.val
    e.sessOpen p = true ∧ e.feature p 0 1 = true ∧ f.sub = 0x01 ∧ ∃ x ∈ e.xferOf f, x.isWrite = false ∧ f.op = 0x05) ∧
  (∃ s : State, ∃ t : Nat, ∃ f : Frame, f.index = 0x5000 ∧ f.ctl ≤ 1 ∧ s.admits t f = true ∧
    let g := frameUnpad f
    let e := ((s.devAt t).arrive f.req).staged g
    let p := f.req.port.val
    e.sessOpen p = true ∧ e.feature p 0 1 = true ∧ f.sub = 0x02 ∧ ∃ b ∈ blockOf 0x5000, f.op = 0x03 ∧ (e.port p).xfer = none ∧ g.data.length
      = 8 ∧ g.data.take 4 = [0, 0, 0, 0] ∧ totalFits 0x5000 [2] (fieldOf g.data 4 4) = true ∧ e.busyHere p 0x5000 b [2] = false ∧
      e.writeShut p 0x5000 b [2] = false ∧ e.wOwner e (e.presentWr p 0x5000 b [2]) = false ∧ e.wLocked (e.presentWr p 0x5000 b [2]) = false
      ∧ e.wArmed e (e.presentWr p 0x5000 b [2]) = false) ∧
  (∃ s : State, ∃ t : Nat, ∃ f : Frame, f.index = 0x5000 ∧ f.ctl ≤ 1 ∧ s.admits t f = true ∧
    let g := frameUnpad f
    let e := ((s.devAt t).arrive f.req).staged g
    let p := f.req.port.val
    let seg := segSize p
    e.sessOpen p = true ∧ e.feature p 0 1 = true ∧ f.sub = 0x02 ∧ ∃ b ∈ blockOf 0x5000, ∃ x ∈ e.xferOf f, x.isWrite = true ∧ f.op = 0x04 ∧ 2
      ≤ g.data.length ∧ g.data.take 2 = leBytes 2 x.seq ∧ x.sizeBad seg (g.data.drop 2).length = false) ∧
  (∃ s : State, ∃ t : Nat, ∃ f : Frame, f.index = 0x5000 ∧ f.ctl ≤ 1 ∧ s.admits t f = true ∧
    let g := frameUnpad f
    let e := ((s.devAt t).arrive f.req).staged g
    let p := f.req.port.val
    e.sessOpen p = true ∧ e.feature p 0 1 = true ∧ f.sub = 0x02 ∧ ∃ b ∈ blockOf 0x5000, ∃ x ∈ e.xferOf f, x.isWrite = true ∧ f.op = 0x05 ∧
      g.data = leBytes 4 (crc32 x.data) ∧ x.data.length = x.total ∧ ∃ puts ∈ splitPuts 0x5000 [2] x.data, (e.setXfer p none).wRefusal
      savedBankValid (hostWr p 0x5000 b puts) = none) :=
  ⟨⟨(wst [(0x1200, 0x1, 0, 1), (0x1200, 0x3, 0, 0xFFFFFFFF)]), 0,
    ({ req := { port := 0, tag := 1, peerAddr := 0, peerPort := 0, outstanding := 0, shareFree := 262144, udpSum := 0 }, op := 3, index := 20480, sub := 1, ctl := 1, len := 8, data := [0x01#8, 0x00#8, 0x00#8, 0x00#8, 0x00#8, 0x00#8, 0x00#8, 0x00#8] }),
    (by dsimp only; decide +kernel)⟩, ⟨(wstWith [(0x1200, 0x1, 0, 1), (0x1200, 0x3, 0, 0xFFFFFFFF)] (fun d =>
    { d with ports := [(0, { peer := some (0, 0), xfer := some { isWrite := false, index := 20480, sub := 1, ctl := 1, total := 60, seq := 0, data := [0x05#8, 0x05#8, 0x05#8, 0x05#8, 0x05#8, 0x05#8, 0x05#8, 0x05#8, 0x05#8, 0x05#8, 0x05#8, 0x05#8, 0x05#8, 0x05#8, 0x05#8, 0x05#8, 0x05#8, 0x05#8, 0x05#8, 0x05#8, 0x05#8, 0x05#8, 0x05#8, 0x05#8, 0x05#8, 0x05#8, 0x05#8, 0x05#8, 0x05#8, 0x05#8, 0x05#8, 0x05#8, 0x05#8, 0x05#8, 0x05#8, 0x05#8, 0x05#8, 0x05#8, 0x05#8, 0x05#8, 0x05#8, 0x05#8, 0x05#8, 0x05#8, 0x05#8, 0x05#8, 0x05#8, 0x05#8, 0x05#8, 0x05#8, 0x05#8, 0x05#8, 0x05#8, 0x05#8, 0x05#8, 0x05#8, 0x05#8, 0x05#8, 0x05#8, 0x05#8], short := false, last := 0 }, linkPhys := true }), (2, { peer := some (0, 0), xfer := some { isWrite := false, index := 20480, sub := 1, ctl := 1, total := 60, seq := 0, data := [0x05#8, 0x05#8, 0x05#8, 0x05#8, 0x05#8, 0x05#8, 0x05#8, 0x05#8, 0x05#8, 0x05#8, 0x05#8, 0x05#8, 0x05#8, 0x05#8, 0x05#8, 0x05#8, 0x05#8, 0x05#8, 0x05#8, 0x05#8, 0x05#8, 0x05#8, 0x05#8, 0x05#8, 0x05#8, 0x05#8, 0x05#8, 0x05#8, 0x05#8, 0x05#8, 0x05#8, 0x05#8, 0x05#8, 0x05#8, 0x05#8, 0x05#8, 0x05#8, 0x05#8, 0x05#8, 0x05#8, 0x05#8, 0x05#8, 0x05#8, 0x05#8, 0x05#8, 0x05#8, 0x05#8, 0x05#8, 0x05#8, 0x05#8, 0x05#8, 0x05#8, 0x05#8, 0x05#8, 0x05#8, 0x05#8, 0x05#8, 0x05#8, 0x05#8, 0x05#8], short := false, last := 0 }, linkPhys := true }), (4, { peer := some (0, 0), xfer := some { isWrite := false, index := 20480, sub := 1, ctl := 1, total := 60, seq := 0, data := [0x05#8, 0x05#8, 0x05#8, 0x05#8, 0x05#8, 0x05#8, 0x05#8, 0x05#8, 0x05#8, 0x05#8, 0x05#8, 0x05#8, 0x05#8, 0x05#8, 0x05#8, 0x05#8, 0x05#8, 0x05#8, 0x05#8, 0x05#8, 0x05#8, 0x05#8, 0x05#8, 0x05#8, 0x05#8, 0x05#8, 0x05#8, 0x05#8, 0x05#8, 0x05#8, 0x05#8, 0x05#8, 0x05#8, 0x05#8, 0x05#8, 0x05#8, 0x05#8, 0x05#8, 0x05#8, 0x05#8, 0x05#8, 0x05#8, 0x05#8, 0x05#8, 0x05#8, 0x05#8, 0x05#8, 0x05#8, 0x05#8, 0x05#8, 0x05#8, 0x05#8, 0x05#8, 0x05#8, 0x05#8, 0x05#8, 0x05#8, 0x05#8, 0x05#8, 0x05#8], short := false, last := 0 }, linkPhys := true })] })),
    0,
    ({ req := { port := 0, tag := 1, peerAddr := 0, peerPort := 0, outstanding := 0, shareFree := 262144, udpSum := 0 }, op := 4, index := 20480, sub := 1, ctl := 1, len := 2, data := [0x00#8, 0x00#8] }),
    (by dsimp only; decide +kernel)⟩, ⟨(wstWith [(0x1200, 0x1, 0, 1), (0x1200, 0x3, 0, 0xFFFFFFFF)] (fun d =>
    { d with ports := [(0, { peer := some (0, 0), xfer := some { isWrite := false, index := 20480, sub := 1, ctl := 1, total := 60, seq := 0, data := [0x05#8, 0x05#8, 0x05#8, 0x05#8, 0x05#8, 0x05#8, 0x05#8, 0x05#8, 0x05#8, 0x05#8, 0x05#8, 0x05#8, 0x05#8, 0x05#8, 0x05#8, 0x05#8, 0x05#8, 0x05#8, 0x05#8, 0x05#8, 0x05#8, 0x05#8, 0x05#8, 0x05#8, 0x05#8, 0x05#8, 0x05#8, 0x05#8, 0x05#8, 0x05#8, 0x05#8, 0x05#8, 0x05#8, 0x05#8, 0x05#8, 0x05#8, 0x05#8, 0x05#8, 0x05#8, 0x05#8, 0x05#8, 0x05#8, 0x05#8, 0x05#8, 0x05#8, 0x05#8, 0x05#8, 0x05#8, 0x05#8, 0x05#8, 0x05#8, 0x05#8, 0x05#8, 0x05#8, 0x05#8, 0x05#8, 0x05#8, 0x05#8, 0x05#8, 0x05#8], short := false, last := 0 }, linkPhys := true }), (2, { peer := some (0, 0), xfer := some { isWrite := false, index := 20480, sub := 1, ctl := 1, total := 60, seq := 0, data := [0x05#8, 0x05#8, 0x05#8, 0x05#8, 0x05#8, 0x05#8, 0x05#8, 0x05#8, 0x05#8, 0x05#8, 0x05#8, 0x05#8, 0x05#8, 0x05#8, 0x05#8, 0x05#8, 0x05#8, 0x05#8, 0x05#8, 0x05#8, 0x05#8, 0x05#8, 0x05#8, 0x05#8, 0x05#8, 0x05#8, 0x05#8, 0x05#8, 0x05#8, 0x05#8, 0x05#8, 0x05#8, 0x05#8, 0x05#8, 0x05#8, 0x05#8, 0x05#8, 0x05#8, 0x05#8, 0x05#8, 0x05#8, 0x05#8, 0x05#8, 0x05#8, 0x05#8, 0x05#8, 0x05#8, 0x05#8, 0x05#8, 0x05#8, 0x05#8, 0x05#8, 0x05#8, 0x05#8, 0x05#8, 0x05#8, 0x05#8, 0x05#8, 0x05#8, 0x05#8], short := false, last := 0 }, linkPhys := true }), (4, { peer := some (0, 0), xfer := some { isWrite := false, index := 20480, sub := 1, ctl := 1, total := 60, seq := 0, data := [0x05#8, 0x05#8, 0x05#8, 0x05#8, 0x05#8, 0x05#8, 0x05#8, 0x05#8, 0x05#8, 0x05#8, 0x05#8, 0x05#8, 0x05#8, 0x05#8, 0x05#8, 0x05#8, 0x05#8, 0x05#8, 0x05#8, 0x05#8, 0x05#8, 0x05#8, 0x05#8, 0x05#8, 0x05#8, 0x05#8, 0x05#8, 0x05#8, 0x05#8, 0x05#8, 0x05#8, 0x05#8, 0x05#8, 0x05#8, 0x05#8, 0x05#8, 0x05#8, 0x05#8, 0x05#8, 0x05#8, 0x05#8, 0x05#8, 0x05#8, 0x05#8, 0x05#8, 0x05#8, 0x05#8, 0x05#8, 0x05#8, 0x05#8, 0x05#8, 0x05#8, 0x05#8, 0x05#8, 0x05#8, 0x05#8, 0x05#8, 0x05#8, 0x05#8, 0x05#8], short := false, last := 0 }, linkPhys := true })] })),
    0,
    ({ req := { port := 0, tag := 1, peerAddr := 0, peerPort := 0, outstanding := 0, shareFree := 262144, udpSum := 0 }, op := 5, index := 20480, sub := 1, ctl := 1, len := 0, data := [] }),
    (by dsimp only; decide +kernel)⟩, ⟨(wst [(0x1200, 0x1, 0, 1), (0x1200, 0x3, 0, 0xFFFFFFFF), (0x1700, 0x1, 0, 0)]), 0,
    ({ req := { port := 0, tag := 1, peerAddr := 0, peerPort := 0, outstanding := 0, shareFree := 262144, udpSum := 0 }, op := 3, index := 20480, sub := 2, ctl := 1, len := 8, data := [0x00#8, 0x00#8, 0x00#8, 0x00#8, 0x05#8, 0x00#8, 0x00#8, 0x00#8] }),
    (by dsimp only; decide +kernel)⟩, ⟨(wstWith [(0x1200, 0x1, 0, 1), (0x1200, 0x3, 0, 0xFFFFFFFF)] (fun d =>
    { d with ports := [(0, { peer := some (0, 0), xfer := some { isWrite := true, index := 20480, sub := 2, ctl := 1, total := 8342, seq := 1, data := [0x44#8, 0x4e#8, 0x52#8, 0x4c#8, 0x01#8], short := false, last := 0 }, linkPhys := true }), (2, { peer := some (0, 0), xfer := some { isWrite := true, index := 20480, sub := 2, ctl := 1, total := 8342, seq := 1, data := [0x44#8, 0x4e#8, 0x52#8, 0x4c#8, 0x01#8], short := false, last := 0 }, linkPhys := true }), (4, { peer := some (0, 0), xfer := some { isWrite := true, index := 20480, sub := 2, ctl := 1, total := 8342, seq := 1, data := [0x44#8, 0x4e#8, 0x52#8, 0x4c#8, 0x01#8], short := false, last := 0 }, linkPhys := true })] })),
    0,
    ({ req := { port := 0, tag := 1, peerAddr := 0, peerPort := 0, outstanding := 0, shareFree := 262144, udpSum := 0 }, op := 4, index := 20480, sub := 2, ctl := 1, len := 5, data := [0x01#8, 0x00#8, 0x01#8, 0x02#8, 0x03#8] }),
    (by dsimp only; decide +kernel)⟩, ⟨(wstWith [(0x1200, 0x1, 0, 1), (0x1200, 0x3, 0, 0xFFFFFFFF), (0x1700, 0x1, 0, 0)] (fun d =>
    { d with ports := [(0, { peer := some (0, 0), xfer := some { isWrite := true, index := 20480, sub := 2, ctl := 1, total := 64, seq := 1, data := [0x44#8, 0x4e#8, 0x52#8, 0x4c#8, 0x01#8, 0x00#8, 0x01#8, 0x00#8, 0x30#8, 0x00#8, 0x21#8, 0x50#8, 0x00#8, 0x00#8, 0x00#8, 0x00#8, 0x00#8, 0x00#8, 0x01#8, 0x00#8, 0x00#8, 0x00#8, 0x00#8, 0x00#8, 0x00#8, 0x40#8, 0x7a#8, 0x10#8, 0xf3#8, 0x5a#8, 0x00#8, 0x00#8, 0x00#8, 0x00#8, 0x00#8, 0x00#8, 0x00#8, 0x00#8, 0x00#8, 0x00#8, 0x00#8, 0x00#8, 0x00#8, 0x00#8, 0x00#8, 0x00#8, 0x00#8, 0x00#8, 0x00#8, 0x00#8, 0x00#8, 0x00#8, 0x00#8, 0x00#8, 0x00#8, 0x00#8, 0x00#8, 0x00#8, 0x00#8, 0x00#8, 0x15#8, 0x78#8, 0x76#8, 0xf6#8], short := false, last := 0 }, linkPhys := true }), (2, { peer := some (0, 0), xfer := some { isWrite := true, index := 20480, sub := 2, ctl := 1, total := 64, seq := 1, data := [0x44#8, 0x4e#8, 0x52#8, 0x4c#8, 0x01#8, 0x00#8, 0x01#8, 0x00#8, 0x30#8, 0x00#8, 0x21#8, 0x50#8, 0x00#8, 0x00#8, 0x00#8, 0x00#8, 0x00#8, 0x00#8, 0x01#8, 0x00#8, 0x00#8, 0x00#8, 0x00#8, 0x00#8, 0x00#8, 0x40#8, 0x7a#8, 0x10#8, 0xf3#8, 0x5a#8, 0x00#8, 0x00#8, 0x00#8, 0x00#8, 0x00#8, 0x00#8, 0x00#8, 0x00#8, 0x00#8, 0x00#8, 0x00#8, 0x00#8, 0x00#8, 0x00#8, 0x00#8, 0x00#8, 0x00#8, 0x00#8, 0x00#8, 0x00#8, 0x00#8, 0x00#8, 0x00#8, 0x00#8, 0x00#8, 0x00#8, 0x00#8, 0x00#8, 0x00#8, 0x00#8, 0x15#8, 0x78#8, 0x76#8, 0xf6#8], short := false, last := 0 }, linkPhys := true }), (4, { peer := some (0, 0), xfer := some { isWrite := true, index := 20480, sub := 2, ctl := 1, total := 64, seq := 1, data := [0x44#8, 0x4e#8, 0x52#8, 0x4c#8, 0x01#8, 0x00#8, 0x01#8, 0x00#8, 0x30#8, 0x00#8, 0x21#8, 0x50#8, 0x00#8, 0x00#8, 0x00#8, 0x00#8, 0x00#8, 0x00#8, 0x01#8, 0x00#8, 0x00#8, 0x00#8, 0x00#8, 0x00#8, 0x00#8, 0x40#8, 0x7a#8, 0x10#8, 0xf3#8, 0x5a#8, 0x00#8, 0x00#8, 0x00#8, 0x00#8, 0x00#8, 0x00#8, 0x00#8, 0x00#8, 0x00#8, 0x00#8, 0x00#8, 0x00#8, 0x00#8, 0x00#8, 0x00#8, 0x00#8, 0x00#8, 0x00#8, 0x00#8, 0x00#8, 0x00#8, 0x00#8, 0x00#8, 0x00#8, 0x00#8, 0x00#8, 0x00#8, 0x00#8, 0x00#8, 0x00#8, 0x15#8, 0x78#8, 0x76#8, 0xf6#8], short := false, last := 0 }, linkPhys := true })] })),
    0,
    ({ req := { port := 0, tag := 1, peerAddr := 0, peerPort := 0, outstanding := 0, shareFree := 262144, udpSum := 0 }, op := 5, index := 20480, sub := 2, ctl := 1, len := 4, data := [0x1c#8, 0xdf#8, 0x44#8, 0x21#8] }),
    (by dsimp only; decide +kernel)⟩⟩

/-- The hypotheses of ExportedImagePasses can be met, in every clause. -/
theorem witness_ExportedImagePasses :
  (∃ d : Dev, d.obj 0x1018 0x02 < 2 ^ 32) :=
  ⟨State.reset.dev, by decide +kernel⟩

/-- The hypotheses of TapInstructions can be met, in every clause. -/
theorem witness_TapInstructions :
  (∃ s : State, ∃ t : Nat, ∃ cells : List Bool, (s.devAt t).tapOn = true) ∧
  (∃ s : State, ∃ t : Nat, (s.devAt t).tapOn = true) ∧
  (∃ s : State, ∃ t : Nat, (s.devAt t).tapOn = true) ∧
  (∃ s : State, ∃ t : Nat, ∃ pins : List Bool, ∃ cells : List Bool, (s.devAt t).tapOn = true) ∧
  (∃ s : State, ∃ t : Nat, (s.devAt t).tapOn = true) ∧
  (∃ s : State, ∃ t : Nat, (s.devAt t).tapOn = true) ∧
  (∃ s : State, ∃ t : Nat, (s.devAt t).tapOn = true) :=
  ⟨⟨(wst []), 0, [], (by decide +kernel)⟩, ⟨(wst []), 0, (by decide +kernel)⟩, ⟨(wst []), 0, (by decide +kernel)⟩, ⟨(wst []), 0, [], [],
    (by decide +kernel)⟩, ⟨(wst []), 0, (by decide +kernel)⟩, ⟨(wst []), 0, (by decide +kernel)⟩, ⟨(wst []), 0, (by decide +kernel)⟩⟩

end Sys2Proof.Tests
end

section
/-! SUPPORT. A step takes one command off the queue, and how requests of the ports are answered: READ and PING with their values, a
refused WRITE with its status (R15, R43, R44). -/

namespace Sys2Proof.Machine

/-! ### The queue -/

/-- No command touches the queue: every one acts on the device and the Loft alone (`onDev`, `onBoth`), and LOFT_ACCESS does so where it
does not stop. -/
theorem exec_pending {c : Instr} {s u : State} (h : exec c s = .next u) : u.pending = s.pending := by
  cases c
  case loftAccess t b reqs =>
    simp only [exec, execLoftAccess] at h
    split at h
    · cases h
    · split at h
      · cases h
      · cases h
        rfl
  all_goals
    cases h
    rfl

theorem step_of_idle {s : State} (h : s.pending = []) : step s = .next s := by
  unfold step
  rw [h]

theorem step_of_front {s : State} {c : Instr} {rest : List Instr} (h : s.pending = c :: rest) :
    step s = exec c { s with pending := rest } := by
  unfold step
  rw [h]

/-- Settles O1: the queue that `step` looks at is the one the state is built with. -/
theorem stepRunsFront : Obligations.StepRunsFront := fun _ _ _ => step_of_front rfl

/-- Settles O2: `step` takes the front command, and no command's effect touches the rest of the queue. -/
theorem stepTakesFront : Obligations.StepTakesFront := by
  refine ⟨fun s u h => ?_, fun s hs => step_of_idle hs⟩
  cases hq : s.pending with
  | nil =>
    rw [step_of_idle hq] at h
    cases h
    exact hq
  | cons c rest =>
    rw [step_of_front hq] at h
    exact exec_pending h

/-! ### A frame without its padding -/

/-- Unpadding leaves the header of a request as it is. -/
@[simp] theorem frameUnpad_header (f : Frame) : (frameUnpad f).req = f.req ∧ (frameUnpad f).op = f.op ∧
    (frameUnpad f).index = f.index ∧ (frameUnpad f).sub = f.sub ∧ (frameUnpad f).ctl = f.ctl := by
  unfold frameUnpad
  split <;> and_intros <;> rfl

@[simp] theorem subsOf_frameUnpad (f : Frame) : subsOf (frameUnpad f) = subsOf f := by simp [subsOf]

/-- The header fields that a response answers with stand outside the padding. -/
theorem Dev.answered_of_unpad {d : Dev} {f : Frame} {st : Status} {data : List Byte} (h : d.answered (frameUnpad f) st data) :
    d.answered f st data := by
  simpa only [Dev.answered, frameUnpad_header] using h

/-! ### What a request's staging leaves alone -/

theorem Dev.sessOpen_congr {d e : Dev} (h : d.regs = e.regs) (p : Nat) : d.sessOpen p = e.sessOpen p := by
  unfold Dev.sessOpen
  rw [Dev.obj_congr h]

/-- Only a write of veto bits goes past the core that stages requests (R33, R76). -/
theorem Dev.staged_of_not_write (d : Dev) {f : Frame} (h : f.op ≠ 0x02) : d.staged f = d.accessBy 9 := by
  simp [Dev.staged, Dev.isVeto, h]

@[simp] theorem Dev.staged_regs (d : Dev) (f : Frame) : (d.staged f).regs = d.regs := by
  unfold Dev.staged
  split <;> rfl

/-- Bringing a timer up to a tick does not look at who accessed the Loft. -/
theorem Dev.timerRide_accessBy (d : Dev) (who n tick : Nat) :
    (d.accessBy who).timerRide n tick = (d.timerRide n tick).accessBy who := by
  have hr : (d.accessBy who).timer n = d.timer n := rfl
  have hs : (d.accessBy who).timerStopAt n = d.timerStopAt n := rfl
  have ho : ∀ i u, (d.accessBy who).obj i u = d.obj i u := fun _ _ => rfl
  unfold Dev.timerRide
  simp only [hr, hs, ho]
  split
  · rfl
  · split <;> rfl

theorem Dev.timerTo_accessBy (d : Dev) (who n : Nat) : (d.accessBy who).timerTo n = (d.timerTo n).accessBy who := by
  have hr : (d.accessBy who).timer n = d.timer n := rfl
  have ht : (d.accessBy who).tickNow = d.tickNow := rfl
  unfold Dev.timerTo
  simp only [hr, ht, Dev.timerRide_accessBy]

theorem Dev.timerCount_accessBy (d : Dev) (who n : Nat) : (d.accessBy who).timerCount n = d.timerCount n := by
  unfold Dev.timerCount
  rw [Dev.timerTo_accessBy]
  rfl

/-- No object shows the identity of the last access to the Loft. -/
theorem Dev.viewOf_accessBy (d : Dev) (who p : Nat) (b : ObjBlock) (inst u : Nat) :
    (d.accessBy who).viewOf p b inst u = d.viewOf p b inst u := by
  unfold Dev.viewOf
  cases b.kind
  case timer =>
    simp only [Dev.timerCount_accessBy]
    rfl
  all_goals rfl

theorem Dev.view_accessBy (d : Dev) (who p i u : Nat) : (d.accessBy who).view p i u = d.view p i u := by
  unfold Dev.view
  simp only [Dev.viewOf_accessBy]
  rfl

theorem Dev.viewBlob_accessBy (d : Dev) (m : Store Byte) (who p i u n : Nat) :
    (d.accessBy who).viewBlob m p i u n = d.viewBlob m p i u n := rfl

theorem Dev.readObj_accessBy (d : Dev) (m : Store Byte) (who p i u : Nat) :
    (d.accessBy who).readObj m p i u = d.readObj m p i u := by
  unfold Dev.readObj
  simp only [Dev.view_accessBy, Dev.viewBlob_accessBy]

theorem Dev.readAll_accessBy (d : Dev) (m : Store Byte) (who p i : Nat) (subs : List Nat) :
    (d.accessBy who).readAll m p i subs = d.readAll m p i subs := by
  simp only [Dev.readAll, Dev.readObj_accessBy]

/-! ### A request is answered and changes nothing else -/

/-- A command is answered by its port with a status and data, stores nothing into the Loft and changes no object outside chapter 02. -/
def State.answersWith (s : State) (t : Nat) (c : Instr) (f : Frame) (st : Status) (data : List Byte) : Prop :=
  ∃ u, exec c s = .next u ∧ u.dev.answered f st data ∧ u.loft = s.loft ∧ (s.devAt t).sameBut u.dev portObjs

/-- What a command that hands its frame to the port does: the frame is a request. -/
abbrev State.requests (s : State) (t : Nat) (f : Frame) : Host.Outcome State Fault Refusal :=
  onBoth s t (fun m d => d.sop (frameUnpad f) (Dev.sopBody m (frameUnpad f) 0 true))

theorem exec_read (s : State) (t : Nat) {f : Frame} (h : f.op = 0x01) : exec (.read t f) s = s.requests t f := by
  simp [exec, execRead, Dev.frame, h]

theorem exec_write (s : State) (t : Nat) {f : Frame} (h : f.op = 0x02) : exec (.write t f) s = s.requests t f := by
  simp [exec, execWrite, Dev.frame, h]

theorem exec_ping (s : State) (t : Nat) {f : Frame} (h : f.op = 0x0C) : exec (.ping t f) s = s.requests t f := by
  simp [exec, execPing, Dev.frame, h]

/-- A request whose last act is the response of a device that still has the objects outside chapter 02. -/
theorem State.answersWith_of_sop {s : State} {t : Nat} {c : Instr} {f : Frame} {e : Dev} {st : Status} {data : List Byte}
    (hc : exec c s = s.requests t f)
    (hs : (s.devAt t).sop (frameUnpad f) (Dev.sopBody s.loft (frameUnpad f) 0 true) = (e.respond (frameUnpad f) st data false, {}))
    (he : (s.devAt t).sameBut e portObjs) : s.answersWith t c f st data := by
  refine ⟨{ s with dev := e.respond (frameUnpad f) st data false }, ?_, Dev.answered_of_unpad (Dev.respond_answered ..), rfl,
    he.trans (e.respond_portObjs (frameUnpad f) st data false)⟩
  unfold State.devAt at hs
  simp only [hc, onBoth, hs, LoftEff.apply_nothing]

/-- A request that its port takes up is answered as its body says. -/
theorem sop_of_admits {s : State} {t : Nat} {f : Frame} (h : s.admits t f = true) (body : Dev → Answer) :
    (s.devAt t).sop (frameUnpad f) body =
      (let a := body (((s.devAt t).arrive f.req).staged (frameUnpad f))
       (a.after (a.dev.respond (frameUnpad f) a.st a.data a.first), a.eff)) := by
  simp only [State.admits, frameUnpad_header, Bool.and_eq_true, Bool.not_eq_true', Option.isNone_iff_eq_none] at h
  obtain ⟨⟨⟨hcomes, hgood⟩, hgate⟩, hecc⟩ := h
  simp [Dev.sop, hcomes, hgood, hgate, Dev.eccAnswer, hecc]

/-- A request that its port takes up, whose body leaves the objects as they are and answers with no more than a status and data. -/
theorem State.answersWith_of_body {s : State} {t : Nat} {c : Instr} {f : Frame} {e : Dev} {st : Status} {data : List Byte}
    (hc : exec c s = s.requests t f) (ha : s.admits t f = true)
    (hb : Dev.sopBody s.loft (frameUnpad f) 0 true (((s.devAt t).arrive f.req).staged (frameUnpad f)) =
      { dev := e, st := st, data := data })
    (he : e.regs = ((s.devAt t).arrive f.req).regs) : s.answersWith t c f st data := by
  refine State.answersWith_of_sop hc ?_ ((Dev.arrive_portObjs _ f.req).regs he)
  rw [sop_of_admits ha, hb]
  rfl

theorem Dev.sopBody_read {f : Frame} (h : f.op = 0x01) (m : Store Byte) (segs : Nat) (nvOk : Bool) (d : Dev) :
    Dev.sopBody m f segs nvOk d = d.sopRead m f := by simp [Dev.sopBody, h]

theorem Dev.sopBody_write {f : Frame} (h : f.op = 0x02) (m : Store Byte) (segs : Nat) (nvOk : Bool) (d : Dev) :
    Dev.sopBody m f segs nvOk d = d.sopWrite f := by simp [Dev.sopBody, h]

theorem Dev.sopBody_ping {f : Frame} (h : f.op = 0x0C) (m : Store Byte) (segs : Nat) (nvOk : Bool) (d : Dev) :
    Dev.sopBody m f segs nvOk d = d.sopPing f := by simp [Dev.sopBody, h]

/-! ### READ and PING -/

/-- Emptying a mailbox changes no stored object (R446). -/
@[simp] theorem Dev.mboxTake_regs (d : Dev) (n : Nat) : (d.mboxTake n).regs = d.regs := by
  unfold Dev.mboxTake
  split
  · exact Dev.raiseIf_regs ..
  · rfl

@[simp] theorem Dev.readsDone_regs (d : Dev) (i : Nat) (subs : List Nat) : (d.readsDone i subs).regs = d.regs := by
  refine Dev.foldl_regs (fun e u => ?_) subs d
  unfold Dev.readDone
  split
  · exact Dev.mboxTake_regs ..
  · rfl

/-- A READ that none of the refusals of R15 meets gives the values of its subindices. -/
theorem Dev.sopRead_of_clear {d : Dev} {f : Frame} (m : Store Byte)
    (hrow : ∀ w ∈ subsOf f, (objRow f.index w).isSome = true)
    (hsess : d.sessOpen f.req.port = true ∨ openRead f.index = true)
    (hgate : d.sessOpen f.req.port = true → d.gatesShut f.req.port f.index (subsOf f) = false)
    (hblob : ∀ w ∈ (subsOf f).dropLast, isBlob f.index w = false)
    (hblock : ∀ w ∈ subsOf f, blockOnly f.index w = true → writeOnly f.index w = true)
    (hlen : ((subsOf f).map (d.readLen f.req.port f.index)).foldl (· + ·) 0 ≤ maxData f.req.port)
    (hbox : d.foreignBox f.req.port f.index (subsOf f) = false)
    (hwin : readsWindow f.index (subsOf f) = true → d.windowOk f.req.port false = true ∧
      d.meetsBad (d.obj 0x2D00 (0x20 + f.req.port)) (d.obj 0x2D00 (0x28 + f.req.port)) = false) :
    d.sopRead m f = { dev := d.readsDone f.index (subsOf f), data := d.readAll m f.req.port f.index (subsOf f) } := by
  have hnoSession : (!d.sessOpen f.req.port && !openRead f.index) = false := by
    rcases hsess with h | h <;> simp [h]
  have hbadIndex : (subsOf f).any (fun s => (objRow f.index s).isNone) = false := by
    simpa [Option.isSome_iff_ne_none] using hrow
  have hfeature : (d.sessOpen f.req.port && d.gatesShut f.req.port f.index (subsOf f)) = false := by
    simpa using hgate
  have hearly : blobEarly f.index (subsOf f) = false := by
    simpa [blobEarly] using hblob
  have honly : (subsOf f).any (fun s => blockOnly f.index s && !writeOnly f.index s) = false := by
    simpa using hblock
  have hfits : decide (maxData f.req.port < ((subsOf f).map (fun s => d.readLen f.req.port f.index s)).foldl (· + ·) 0) = false := by
    simpa using hlen
  have hrange : (readsWindow f.index (subsOf f) && !d.windowOk f.req.port false) = false := by
    simpa using fun h => (hwin h).1
  have hinternal : (readsWindow f.index (subsOf f) &&
      d.meetsBad (d.obj 0x2D00 (0x20 + f.req.port)) (d.obj 0x2D00 (0x28 + f.req.port))) = false := by
    simpa using fun h => (hwin h).2
  simp only [Dev.sopRead, Dev.readChecks, firstStatus, hnoSession, hbadIndex, hfeature, hearly, honly, hfits, hbox, hrange, hinternal,
    Bool.or_self, Bool.false_eq_true, if_false]

/-- A PING in an open session that accepts it is answered OK. -/
theorem Dev.sopPing_of_clear {d : Dev} {f : Frame} (hsess : d.sessOpen f.req.port = true) (hfeat : d.feature f.req.port 0 0 = true)
    (hindex : f.index = 0) (hsub : f.sub = 0) : d.sopPing f = { dev := d } := by
  simp [Dev.sopPing, Dev.plainCheck, firstStatus, addressed, hsess, hfeat, hindex, hsub]

/-- Settles O8: the request is staged in the Loft under another identity, which no object shows, and its body is clear of refusals. -/
theorem readAndPingAnswer : Obligations.ReadAndPingAnswer := by
  intro s t f hadm e p subs
  constructor
  · intro hop hrow hsess hgate hblob hblock hlen hbox hwin
    have hst : e.staged (frameUnpad f) = e.accessBy 9 := e.staged_of_not_write (by simp [hop])
    refine State.answersWith_of_body (e := (e.accessBy 9).readsDone f.index subs) (exec_read s t hop) hadm ?_ (Dev.readsDone_regs ..)
    have hread := Dev.sopRead_of_clear (d := e.accessBy 9) (f := frameUnpad f) s.loft
    simp only [frameUnpad_header, subsOf_frameUnpad, Dev.readAll_accessBy] at hread
    rw [hst, Dev.sopBody_read (by simp [hop])]
    exact hread hrow hsess hgate hblob hblock hlen hbox hwin
  · intro hop hsess hfeat hindex hsub
    have hst : e.staged (frameUnpad f) = e.accessBy 9 := e.staged_of_not_write (by simp [hop])
    refine State.answersWith_of_body (e := e.accessBy 9) (exec_ping s t hop) hadm ?_ rfl
    have hping := Dev.sopPing_of_clear (d := e.accessBy 9) (f := frameUnpad f)
    simp only [frameUnpad_header] at hping
    rw [hst, Dev.sopBody_ping (by simp [hop])]
    exact hping hsess hfeat hindex hsub

/-! ### Refusals of a WRITE -/

/-- A WRITE to a busy port is refused before anything of it is looked at (R92). -/
theorem sop_of_busy {d : Dev} {f : Frame} (hop : f.op = 0x02) (hcomes : d.comes f = true) (hgood : d.datagramBad f = false)
    (hbusy : (d.arrive f.req).portBusy f = true) (body : Dev → Answer) :
    d.sop f body = ((d.arrive f.req).respond f .busy [] false, {}) := by
  have hgate : (d.arrive f.req).sopGate f = some .busy := by simp [Dev.sopGate, hbusy]
  simp [Dev.sop, hcomes, hgood, hgate, Dev.gateDone, Dev.gateData, hop]

/-- A WRITE of an object that does not exist is refused: NO_SESSION comes before BAD_INDEX. -/
theorem Dev.sopWrite_of_absent (d : Dev) {f : Frame} (h : blockOf f.index = none ∨ ∃ w ∈ subsOf f, objRow f.index w = none) :
    d.sopWrite f = refuse d (if d.sessOpen f.req.port then .badIndex else .noSession) := by
  unfold Dev.sopWrite
  dsimp only
  split
  · rfl
  · next b hb =>
    rw [if_pos]
    obtain ⟨w, hw, hrow⟩ := h.resolve_left (by simp [hb])
    exact List.any_eq_true.mpr ⟨w, hw, by simp [hrow]⟩

/-- A quiet block is never BUSY itself, but for a reset of a domain in progress (R468). -/
theorem Dev.wBusy_of_quiet (d : Dev) {w : Wr} (hq : w.kind.quiet = true) (hr : w.kind ≠ .reset) : d.wBusy w = false := by
  unfold Dev.wBusy
  split <;> simp_all [ObjKind.quiet]

/-- Without a session a WRITE of a quiet block is refused with NO_SESSION, whatever its data are. -/
theorem Dev.sopWrite_of_noSession {d : Dev} {f : Frame} {b : ObjBlock} (hb : blockOf f.index = some b)
    (hrow : ∀ w ∈ subsOf f, objRow f.index w ≠ none) (hq : b.kind.quiet = true) (hr : b.kind ≠ .reset)
    (hsess : d.sessOpen f.req.port = false) : d.sopWrite f = refuse d .noSession := by
  have hbusy : ∀ puts, d.wBusy (hostWr f.req.port f.index b puts) = false := fun puts => d.wBusy_of_quiet hq hr
  have hshape : d.shapeRefusal f.req.port f.index b (subsOf f) = .noSession := by
    simp [Dev.shapeRefusal, Dev.busyHere, Dev.presentWr, firstStatus, hbusy, hsess]
  have hval : ∀ puts, d.wRefusal savedBankValid (hostWr f.req.port f.index b puts) = some .noSession := by
    intro puts
    have hport : (hostWr f.req.port f.index b puts).port = f.req.port := rfl
    simp [Dev.wRefusal, firstStatus, hbusy, hport, hsess]
  have hcount : d.countFull b f.index (subsOf f) .noSession = d := by simp [Dev.countFull]
  have hany : ¬ (subsOf f).any (fun s => (objRow f.index s).isNone) = true := by simpa using hrow
  unfold Dev.sopWrite
  simp only [hb, if_neg hany, hshape, hval, hcount]
  split <;> rfl

/-- A WRITE that its port takes up and its body refuses is answered with the refusal's status alone. -/
theorem State.answersWith_of_refusal {s : State} {t : Nat} {f : Frame} {st : Status} (hop : f.op = 0x02) (ha : s.admits t f = true)
    (hw : ∀ d : Dev, d.regs = ((s.devAt t).arrive f.req).regs → d.sopWrite (frameUnpad f) = refuse d st) :
    s.answersWith t (.write t f) f st [] := by
  refine State.answersWith_of_body (exec_write s t hop) ha ?_ (Dev.staged_regs _ (frameUnpad f))
  rw [Dev.sopBody_write (by simp [hop]), hw _ (Dev.staged_regs ..)]
  rfl

/-- Settles O10: the gate finds BUSY before the body runs, and the body finds NO_SESSION before BAD_INDEX. -/
theorem refusalsInOrder : Obligations.RefusalsInOrder := by
  intro s t f hop hcomes hgood e g absent refused
  have hadm : e.sopGate g = none → (e.port f.req.port).eccHit = false → s.admits t f = true := fun hgate hecc => by
    simpa [State.admits, hcomes, hgood] using And.intro hgate hecc
  have hsess : ∀ d : Dev, d.regs = e.regs → d.sessOpen f.req.port = e.sessOpen f.req.port := fun d h => Dev.sessOpen_congr h _
  have habsent : e.sopGate g = none → (e.port f.req.port).eccHit = false → absent →
      refused (if e.sessOpen f.req.port then .badIndex else .noSession) := fun hgate hecc habs =>
    State.answersWith_of_refusal hop (hadm hgate hecc) (fun d hd => by
      rw [d.sopWrite_of_absent (by simpa using habs), (frameUnpad_header f).1, hsess d hd])
  refine ⟨fun hbusy => ?_, fun hgate hecc habs hclosed => ?_, fun hgate hecc habs hopen => ?_,
    fun b hgate hecc hthere hb hq hr hclosed => ?_⟩
  · refine State.answersWith_of_sop (e := e) (exec_write s t hop) ?_ (Dev.arrive_portObjs _ _)
    have hsop := sop_of_busy (f := frameUnpad f) (by simp [hop]) hcomes hgood (by simpa using hbusy)
    simpa using hsop _
  · simpa [hclosed] using habsent hgate hecc habs
  · simpa [hopen] using habsent hgate hecc habs
  · obtain ⟨-, hrow⟩ := not_or.mp hthere
    exact State.answersWith_of_refusal hop (hadm hgate hecc) (fun d hd =>
      Dev.sopWrite_of_noSession (by simpa using hb) (by simpa using hrow) hq hr (by simp [hsess d hd, hclosed]))

end Sys2Proof.Machine
end

section
/-! SUPPORT. The die link, the stop pins, and the resets of parts (R22, R26, R300, R301): two statements about every state, each with a
state on which a clause fails. Neither state is claimed to be one that a device comes to: the statements do not ask for that. -/

namespace Sys2Proof.Machine

/-! ### KILL_N falls while a tree stands on a record outside the dictionary -/

theorem dev_of_killNFall {s u : State} {t : Nat} (h : exec (.killNFall t) s = .next u) : u.dev = (s.devAt t).killNFall := by
  cases h
  rfl

/-- The state after reset with a tree of two occurrences: an armed shot, and as its top-level record a sheaf for one cycle with
the number 0x4C8. The dictionary has 512 sheaves (R236); the index that `recIx` gives to this one is 0x28C8, drive protection. -/
def State.strayTree : State :=
  { State.reset with
    dev := { State.reset.dev with occs := [(0, { rid := 0x84C8, cfg := { cycles := 1 } }), (1, {})], nextOcc := 2 } }

/-- The disarm cancels the shot, its tree has reached its outcome, and the enable of the top-level record falls (R205): that is the
protection status, with the bit of KILL_N that had just been set. -/
theorem killNFall_strayTree_status : (State.strayTree.devAt 0).killNFall.bit 0x28C8 0x01 2 = false := by decide +kernel

/-- Refutes O36: where a tree stands on a record whose index is that of drive protection, the fall of KILL_N does not leave its status
bit set. -/
theorem not_armPathAndLink : ¬ Obligations.ArmPathAndLink := by
  rintro ⟨-, kill⟩
  have hhigh : (State.strayTree.devAt 0).stops.killLow = false := rfl
  obtain ⟨u, hexec, -, -, -, hstatus, -⟩ := (kill State.strayTree 0).1 hhigh
  rw [dev_of_killNFall hexec, killNFall_strayTree_status] at hstatus
  cases hstatus

/-! ### A fault of the replica while the boot is marked as stuck -/

theorem dev_of_replicaFault {s u : State} {t : Nat} (h : exec (.replicaFault t) s = .next u) : u.dev = (s.devAt t).replicaFault := by
  cases h
  rfl

/-- Firmware that is stuck in its boot does not run. -/
theorem Dev.coresRun_of_bootStuck {d : Dev} (h : d.rst.bootStuck = true) : d.coresRun = false := by
  simp [Dev.coresRun, h]

/-- The power manager takes no notice of a fault of the replica while the firmware does not run. -/
theorem Dev.replicaFault_of_stopped {d : Dev} (h : d.coresRun = false) : d.replicaFault = d := by
  simp [Dev.replicaFault, h]

/-- The state after reset, in phase P8, with the mark of P6 that neither firmware bank passed (R478). -/
def State.stuckReady : State :=
  { State.reset with dev := { State.reset.dev with rst := { State.reset.dev.rst with bootStuck := true } } }

/-- Refutes O56: a device that is ready with its boot marked as stuck does not flag a fault of the replica, since `ready` does not look
at that mark and `coresRun` does. -/
theorem not_partsAndPower : ¬ Obligations.PartsAndPower := by
  rintro ⟨⟨-, -, -, -, -, -, replica⟩, -⟩
  have hready : (State.stuckReady.devAt 0).ready = true := by decide +kernel
  have hunflagged : (State.stuckReady.devAt 0).bit 0x2F10 0x06 1 = false := by decide +kernel
  have hstopped : (State.stuckReady.devAt 0).coresRun = false := Dev.coresRun_of_bootStuck rfl
  obtain ⟨u, hexec, hflag, -⟩ := replica State.stuckReady 0 hready
  rw [dev_of_replicaFault hexec, Dev.replicaFault_of_stopped hstopped, hunflagged] at hflag
  cases hflag

end Sys2Proof.Machine
end

section
/-! SUPPORT. Requests on CAN, whose frames carry padding behind the `len` symbols of the message (R52): two statements speak of every
symbol of the frame, where the device takes the first `len` of them. Each is refuted by a request that a host can send. -/

namespace Sys2Proof.Machine

/-- The state after reset with a session open on P1 that accepts the features of a mask. -/
def Dev.canSession (d : Dev) (features : Nat) : Dev := (d.setObj 0x1201 0x01 1).setObj 0x1201 0x03 features

/-- What a request on P1 carries beside its message. -/
def canReq : Req := { port := 1, tag := 0, peerAddr := 0, peerPort := 0, outstanding := 0, shareFree := 65536 }

/-! ### A segment of a block write -/

/-- A block write of an injector profile on P1 that waits for its first segment. -/
def waitingWrite : Xfer :=
  { isWrite := true, index := 0x2600, sub := 0x01, ctl := 1, total := 2, seq := 0, data := [], short := false, last := 0 }

/-- The state after reset with that transfer in a session that accepts block transfers. -/
def State.blockWriting : State :=
  { State.reset with dev := (State.reset.dev.canSession 2).setXfer 1 (some waitingWrite) }

/-- A segment with one symbol of data, in a CAN frame of 12 symbols: the last one is padding. -/
def paddedSegment : Frame :=
  { req := canReq, op := 0x04, index := 0x2600, sub := 0x01, ctl := 1, len := 3, data := [0, 0, 7, 0] }

theorem dev_of_blockData {s u : State} {t segs : Nat} {f : Frame} (h : exec (.blockData t f segs) s = .next u) :
    u.dev = ((s.devAt t).frame s.loft f (fun o => o = 0x04) segs true).1 := by
  cases h
  rfl

theorem blockWriting_serves : State.blockWriting.serves 0 paddedSegment 0 true = true := by decide +kernel

theorem blockWriting_xfer :
    ((State.blockWriting.devAt 0).arrive paddedSegment.req).xferOf paddedSegment = some waitingWrite := by decide +kernel

/-- The transfer has taken the symbol of the segment and not its padding. -/
theorem paddedSegment_taken :
    ((((State.blockWriting.devAt 0).frame State.blockWriting.loft paddedSegment (fun o => o = 0x04) 0 true).1.port 1).xfer.map
      (·.data)) = some [7] := by decide +kernel

/-- Refutes O11: a BLOCK_DATA on CAN adds the segment to the transfer, not the padding of its frame. -/
theorem not_blockTransfersRun : ¬ Obligations.BlockTransfersRun := by
  rintro ⟨⟨-, segment, -, -⟩, -⟩
  obtain ⟨u, x, y, hexec, hx, hy, -, -, hdata, -⟩ := segment State.blockWriting 0 paddedSegment 0 rfl blockWriting_serves
  rw [blockWriting_xfer] at hx
  cases hx
  have hport : (u.dev.port 1).xfer = some y := hy
  rw [dev_of_blockData hexec] at hport
  have htaken := paddedSegment_taken
  rw [hport, Option.map_some, hdata] at htaken
  exact absurd htaken (by decide)

/-! ### An acknowledgement -/

/-- The state after reset with a session on P1 that accepts NOTIFY and with source 0 active in the port's queue. -/
def State.sourceActive : State :=
  { State.reset with dev := (State.reset.dev.canSession 8).setPend 0 5 { active := true } }

/-- An acknowledgement of source 5, in a CAN frame of 12 symbols: the three last ones are padding. -/
def paddedAck : Frame :=
  { req := canReq, op := 0x0B, index := 0, sub := 0, ctl := 0, len := 1, data := [5, 0, 0, 0] }

theorem dev_of_notifyAck {s u : State} {t : Nat} {f : Frame} (h : exec (.notifyAck t f) s = .next u) :
    u.dev = ((s.devAt t).frame s.loft f (fun o => o = 0x0B) 0 true).1 := by
  cases h
  rfl

theorem sourceActive_serves : State.sourceActive.serves 0 paddedAck 0 true = true := by decide +kernel

/-- The padding acknowledges nothing: source 0 stays active. -/
theorem paddedAck_keeps_source :
    (((State.sourceActive.devAt 0).frame State.sourceActive.loft paddedAck (fun o => o = 0x0B) 0 true).1.pend 0 5).active = true := by
  decide +kernel

/-- Refutes O14: a NOTIFY_ACK on CAN acknowledges the sources that it lists, not the zeros of its padding. -/
theorem not_dozeAndAck : ¬ Obligations.DozeAndAck := by
  rintro ⟨-, -, -, ack⟩
  obtain ⟨u, hexec, -, hacked, -⟩ := ack State.sourceActive 0 paddedAck rfl sourceActive_serves
  have hzero : (u.dev.pend 0 5).active = false := hacked 0 (by simp [paddedAck]) (by decide)
  rw [dev_of_notifyAck hexec, paddedAck_keeps_source] at hzero
  cases hzero

end Sys2Proof.Machine
end

section
/-! SUPPORT. The state after reset, object by object: what the reset does not list stands at its default. -/

namespace Sys2Proof.Machine

theorem keyDefault_okey (i : Nat) {u : Nat} (hu : u < 256) : keyDefault (okey i u 0) = objDefault i u 0 := by
  have hkey : okey i u 0 / keySpan = i * 256 + u := by
    unfold okey keySpan
    omega
  have hoff : okey i u 0 % keySpan = 0 := by
    unfold okey keySpan
    omega
  have hidx : (i * 256 + u) / 256 = i := by omega
  have hsub : (i * 256 + u) % 256 = u := by omega
  rw [keyDefault, hkey, hoff, hidx, hsub]

/-- The objects that do not stand at their defaults after reset lie between 0x2000 and 0x2F20 (`resetRegs`). -/
theorem find_resetRegs {k : Nat} (h : k < okey 0x2000 0 0 ∨ okey 0x2F21 0 0 ≤ k ∨ okey 0x2001 0 0 ≤ k ∧ k < okey 0x28C8 0 0) :
    Store.find resetRegs k = none := by
  have habsent : ∀ e ∈ resetRegs, k ≠ e.1 := by
    simp only [resetRegs, List.mem_cons, List.not_mem_nil, or_false, forall_eq_or_imp, forall_eq, okey, keySpan] at h ⊢
    omega
  generalize resetRegs = l at habsent
  induction l with
  | nil => rfl
  | cons e l ih =>
    rw [Store.find_cons, if_neg (habsent e (List.mem_cons_self ..))]
    exact ih (fun e he => habsent e (List.mem_cons_of_mem _ he))

theorem reset_obj_default {i u : Nat} (hu : u < 256) (h : i < 0x2000 ∨ 0x2F21 ≤ i ∨ 0x2001 ≤ i ∧ i < 0x28C8) :
    State.reset.dev.obj i u = objDefault i u 0 := by
  have hnone : Store.find resetRegs (okey i u 0) = none := find_resetRegs (by
    unfold okey keySpan
    omega)
  have hobj : State.reset.dev.obj i u = Store.get keyDefault resetRegs (okey i u 0) := rfl
  rw [hobj, Store.get, hnone]
  exact keyDefault_okey i hu

/-- The default of an object that stands in a line of its block's map. -/
theorem objDefault_of_row {i u : Nat} {b : ObjBlock} {row : ObjRow} (hb : blockOf i = some b) (hu : u ≠ 0)
    (hrow : b.row (i - b.first) u = some row) : objDefault i u 0 = row.dflt.value (i - b.first) (u - row.sub0) 0 := by
  simp [objDefault, hb, hu, hrow]

/-- No shot record is enabled by default. -/
theorem objDefault_shot_enable {n : Nat} (hn : n < 1024) : objDefault (0x3000 + n) 0x01 0 = 0 := by
  have hb : blockOf (0x3000 + n) = some ⟨0x3000, 1024, .shot, shotRows⟩ :=
    blockOf_eq (by simp [objBlocks]) (Nat.le_add_right ..) (Nat.add_lt_add_left hn _)
  have hrow : ObjBlock.row ⟨0x3000, 1024, .shot, shotRows⟩ (0x3000 + n - 0x3000) 0x01 =
      some ⟨0x01, 0x01, 0, 1023, .bool, .rw, .lin 0 0 0, .p, .res, .any⟩ := by
    have hle : n ≤ 1023 := by omega
    simp [ObjBlock.row, shotRows, hle]
  rw [objDefault_of_row hb (by decide) hrow]
  simp [Dflt.value]

/-- No sheaf record is enabled by default. -/
theorem objDefault_sheaf_enable {n : Nat} (hn : n < 512) : objDefault (0x2400 + n) 0x01 0 = 0 := by
  have hb : blockOf (0x2400 + n) = some ⟨0x2400, 512, .sheaf, sheafRows⟩ :=
    blockOf_eq (by simp [objBlocks]) (Nat.le_add_right ..) (Nat.add_lt_add_left hn _)
  have hrow : ObjBlock.row ⟨0x2400, 512, .sheaf, sheafRows⟩ (0x2400 + n - 0x2400) 0x01 =
      some ⟨0x01, 0x01, 0, 511, .bool, .rw, .lin 0 0 0, .p, .res, .any⟩ := by
    have hle : n ≤ 511 := by omega
    simp [ObjBlock.row, sheafRows, hle]
  rw [objDefault_of_row hb (by decide) hrow]
  simp [Dflt.value]

/-- Every entry of the claims table is unowned by default. -/
theorem objDefault_claims : ∀ u < 0xA6, 1 ≤ u → objDefault 0x1700 u 0 = 0xFF := by decide +kernel

/-- Settles O4: the lists of the state are read off, and the objects that they do not hold stand at their defaults. -/
theorem resetState : Obligations.ResetState := by
  refine ⟨rfl, fun _ => rfl, rfl, by decide +kernel, rfl, by decide +kernel, fun u h1 h2 => ?_, by decide +kernel, by decide +kernel,
    fun n hn => ?_, fun n hn => ?_⟩
  · rw [reset_obj_default (by omega) (by omega), objDefault_claims u (by omega) h1]
  · rw [reset_obj_default (by decide) (by omega), objDefault_shot_enable hn]
  · rw [reset_obj_default (by decide) (by omega), objDefault_sheaf_enable hn]

end Sys2Proof.Machine
end

section
/-! SUPPORT. What a request does on its way to the body that serves it and on the way of its response: the few objects that the traffic
of a port counts in, and the parts of the device that it leaves alone; how a served request and an accepted write are carried out. -/

namespace Sys2Proof.Machine

/-! ### The traffic of a port -/

theorem Dev.foldl_keeps {α β : Type} (view : Dev → β) {g : Dev → α → Dev} (h : ∀ e x, view (g e x) = view e) (l : List α) (d : Dev) :
    view (l.foldl g d) = view d := by
  induction l generalizing d with
  | nil => rfl
  | cons x l ih => rw [List.foldl_cons, ih, h]

/-- What messages, batches and requests leave alone beside the objects: the clock, the reset controller, the cyclic frames. -/
def Dev.still (d : Dev) : Nat × Rst × Store Cyc := (d.now, d.rst, d.cyc)

@[simp] theorem Dev.setObj_still (d : Dev) (i u v : Nat) : (d.setObj i u v).still = d.still := by simp [Dev.still]
@[simp] theorem Dev.inc_still (d : Dev) (i u : Nat) : (d.inc i u).still = d.still := by simp [Dev.still]
@[simp] theorem Dev.setPort_still (d : Dev) (p : Nat) (r : Port) : (d.setPort p r).still = d.still := by simp [Dev.still]
@[simp] theorem Dev.setPend_still (d : Dev) (src tgt : Nat) (q : Pend) : (d.setPend src tgt q).still = d.still := by simp [Dev.still]

@[simp] theorem Dev.transmit_still (d : Dev) (m : Msg) : (d.transmit m).still = d.still := by
  unfold Dev.transmit Dev.resolveHop
  dsimp only
  split
  · split <;> rfl
  · rfl

@[simp] theorem Dev.post_still (d : Dev) (m : Msg) : (d.post m).still = d.still := by
  unfold Dev.post
  split
  · rfl
  · exact d.transmit_still m

@[simp] theorem Dev.postFirst_still (d : Dev) (p : Nat) (ms : List Msg) : (d.postFirst p ms).still = d.still := by
  unfold Dev.postFirst
  split
  · rfl
  · exact Dev.foldl_keeps Dev.still (fun e m => e.post_still m) ms d

@[simp] theorem Dev.pulse_still (d : Dev) (n : Nat) : (d.pulse n).still = d.still := by
  unfold Dev.pulse Dev.pulseAt
  split <;> rfl

@[simp] theorem Dev.sendBatch_still (d : Dev) (n : Nat) (first : Bool) : (d.sendBatch n first).still = d.still := by
  unfold Dev.sendBatch
  dsimp only
  split
  · rfl
  · refine (Dev.pulse_still ..).trans ((Dev.foldl_keeps Dev.still (fun e x => ?_) _ _).trans ?_)
    · split <;> rfl
    · split
      · exact (Dev.postFirst_still ..).trans rfl
      · exact (Dev.foldl_keeps Dev.still (fun e m => e.post_still m) _ _).trans rfl

@[simp] theorem Dev.leaveDoze_still (d : Dev) (p : Nat) : (d.leaveDoze p).still = d.still := by
  unfold Dev.leaveDoze
  dsimp only
  split
  · split <;> simp
  · rfl

@[simp] theorem Dev.frameIn_still (d : Dev) (p : Nat) (peer : Bool) : (d.frameIn p peer).still = d.still := by
  unfold Dev.frameIn Dev.validFrame
  dsimp only
  split <;> simp

@[simp] theorem Dev.arrive_still (d : Dev) (r : Req) : (d.arrive r).still = d.still := by
  unfold Dev.arrive
  dsimp only
  split
  · split <;> simp
  · simp

@[simp] theorem Dev.staged_still (d : Dev) (f : Frame) : (d.staged f).still = d.still := by
  unfold Dev.staged
  split <;> rfl

@[simp] theorem Dev.respond_still (d : Dev) (f : Frame) (st : Status) (data : List Byte) (first : Bool) :
    (d.respond f st data first).still = d.still := by
  have hcount : (if st = .busy then d.inc (0x1100 + f.req.port.val) 0x06 else d).still = d.still := by split <;> simp
  unfold Dev.respond
  dsimp only
  split
  · exact hcount
  · exact (Dev.post_still ..).trans hcount

theorem Dev.now_of_still {d e : Dev} (h : d.still = e.still) : d.now = e.now := congrArg (·.1) h
theorem Dev.rst_of_still {d e : Dev} (h : d.still = e.still) : d.rst = e.rst := congrArg (·.2.1) h
theorem Dev.cyc_of_still {d e : Dev} (h : d.still = e.still) : d.cyc = e.cyc := congrArg (·.2.2) h

/-! ### The objects that a request's arrival changes -/

/-- The batch counter of a queue. -/
def batchObj (n i w : Nat) : Bool := decide (i = 0x1600 + n) && decide (w = 0x06)

theorem Dev.sendBatch_sameBut (d : Dev) (n : Nat) (first : Bool) : d.sameBut (d.sendBatch n first) (batchObj n) := by
  unfold Dev.sendBatch
  dsimp only
  split
  · exact Dev.sameBut_of_regs rfl
  · refine Dev.sameBut.regs (Dev.sameBut.inc (Dev.sameBut_of_regs ?_) (by decide) (by simp [batchObj])) (Dev.pulse_regs ..)
    rw [Dev.foldl_regs]
    · split
      · exact (Dev.postFirst_regs ..).trans rfl
      · exact (Dev.foldl_regs (fun e m => Dev.post_regs e m) _ _).trans rfl
    · intro e x
      split <;> rfl

/-- The objects that a request taken up on a port may change: rx_frames, the state of a session that leaves doze, and the counter of
the batch that goes out then. -/
def arrivalObj (p i w : Nat) : Bool :=
  (decide (i = 0x1100 + p) && decide (w = 0x04)) || (decide (i = 0x1200 + p) && decide (w = 0x01)) || batchObj p i w

theorem Dev.leaveDoze_sameBut (d : Dev) (p : Nat) : d.sameBut (d.leaveDoze p) (arrivalObj p) := by
  have hbatch : ∀ i w, batchObj p i w = true → arrivalObj p i w = true := fun i w h => by simp [arrivalObj, h]
  unfold Dev.leaveDoze
  dsimp only
  split
  · have hstate : d.sameBut ((d.setObj (0x1200 + p) 0x01 1).setPort p { (d.port p) with lastFrame := d.now }) (arrivalObj p) :=
      Dev.sameBut.regs (Dev.sameBut.setObj (Dev.sameBut_refl _ _) _ (by decide) (by simp [arrivalObj])) rfl
    split
    · exact hstate.trans ((Dev.sendBatch_sameBut _ p true).mono hbatch)
    · exact hstate
  · exact Dev.sameBut_refl _ _

theorem Dev.frameIn_sameBut (d : Dev) (p : Nat) (peer : Bool) : d.sameBut (d.frameIn p peer) (arrivalObj p) := by
  have hcount : d.sameBut (d.inc (0x1100 + p) 0x04) (arrivalObj p) :=
    Dev.sameBut.inc (Dev.sameBut_refl _ _) (by decide) (by simp [arrivalObj])
  unfold Dev.frameIn Dev.validFrame
  dsimp only
  split
  · exact hcount.trans (Dev.sameBut.trans (Dev.sameBut_of_regs rfl) (Dev.leaveDoze_sameBut _ p))
  · exact hcount

theorem Dev.arrive_sameBut (d : Dev) (r : Req) : d.sameBut (d.arrive r) (arrivalObj r.port) := by
  unfold Dev.arrive
  dsimp only
  split
  · split
    · exact Dev.sameBut_of_regs rfl
    · exact Dev.frameIn_sameBut _ _ _
  · exact Dev.frameIn_sameBut _ _ _

theorem Dev.served_sameBut (d : Dev) (f : Frame) : d.sameBut (d.served f) (arrivalObj f.req.port) :=
  (Dev.arrive_sameBut d f.req).regs (Dev.staged_regs ..)

@[simp] theorem Dev.served_still (d : Dev) (f : Frame) : (d.served f).still = d.still :=
  (Dev.staged_still ..).trans (Dev.arrive_still ..)

theorem Dev.served_portObjs (d : Dev) (f : Frame) : d.sameBut (d.served f) portObjs :=
  (Dev.arrive_portObjs d f.req).regs (Dev.staged_regs ..)

/-- An object that a request's arrival does not change. -/
theorem Dev.obj_served (d : Dev) (f : Frame) {i u : Nat} (hu : u < 256) (h : arrivalObj f.req.port i u = false) :
    (d.served f).obj i u = d.obj i u := d.served_sameBut f i u hu h

/-- The objects of the indices 0x1300, 0x1400 and 0x1700 stand as a request arrives. -/
theorem arrivalObj_apart {p : Fin 6} {i u : Nat} (h : 0x1300 ≤ i ∧ i < 0x1600 ∨ 0x1700 ≤ i) : arrivalObj p i u = false := by
  have hp := p.isLt
  have h1 : i ≠ 0x1100 + p.val := by omega
  have h2 : i ≠ 0x1200 + p.val := by omega
  have h3 : i ≠ 0x1600 + p.val := by omega
  simp [arrivalObj, batchObj, h1, h2, h3]

/-- A session stands as a request arrives, and so does its absence: a port that dozes leaves doze and no more. -/
theorem Dev.sessOpen_leaveDoze (d : Dev) (p q : Nat) : (d.leaveDoze p).sessOpen q = d.sessOpen q := by
  have hstate : d.dozing p = true → ((d.setObj (0x1200 + p) 0x01 1).sessOpen q) = d.sessOpen q := by
    intro hd
    have hdoze : d.obj (0x1200 + p) 0x01 = 2 := by simpa [Dev.dozing] using hd
    unfold Dev.sessOpen
    rw [Dev.obj_setObj _ _ (by decide) (by decide)]
    split
    · next h =>
      rw [h.1, hdoze]
      rfl
    · rfl
  have hport : ∀ (e : Dev) (r : Port), (e.setPort p r).sessOpen q = e.sessOpen q := fun e r => by simp [Dev.sessOpen]
  have hbatch : ∀ e : Dev, (e.sendBatch p true).sessOpen q = e.sessOpen q := fun e => by
    unfold Dev.sessOpen
    rw [Dev.sendBatch_sameBut e p true _ _ (by decide) (by simp [batchObj])]
  unfold Dev.leaveDoze
  dsimp only
  split
  · next hd =>
    split
    · rw [hbatch, hport, hstate hd]
    · rw [hport, hstate hd]
  · rfl

end Sys2Proof.Machine
end

section
/-! SUPPORT. How a served request and an accepted write of one value are carried out: the body's answer, the response, and what the
command of a CMD subindex does behind it (R15, R43). -/

namespace Sys2Proof.Machine

/-! ### Served requests -/

/-- What the body of a request answers to the device that has taken the request up. -/
def State.answer (s : State) (t : Nat) (f : Frame) : Answer :=
  Dev.sopBody s.loft (frameUnpad f) 0 true ((s.devAt t).served (frameUnpad f))

/-- The device once an answer has gone out, and what follows the response has been done. -/
def Answer.sent (a : Answer) (f : Frame) : Dev := a.after (a.dev.respond f a.st a.data a.first)

theorem State.requests_of_admits {s : State} {t : Nat} {f : Frame} (h : s.admits t f = true) :
    s.requests t f = .next { s with dev := (s.answer t f).sent (frameUnpad f), loft := (s.answer t f).eff.apply s.loft } := by
  have hsop := sop_of_admits h (Dev.sopBody s.loft (frameUnpad f) 0 true)
  unfold State.devAt at hsop
  unfold State.requests onBoth State.answer Dev.served State.devAt
  dsimp only
  rw [hsop, (frameUnpad_header f).1]
  rfl

theorem admits_of_serves {s : State} {t : Nat} {f : Frame} {segs : Nat} {nvOk : Bool} (h : s.serves t f segs nvOk = true) :
    s.admits t f = true := by
  simp only [State.serves, Bool.and_eq_true] at h
  simpa only [State.admits, Bool.and_eq_true] using h.1

theorem State.requests_of_serves {s : State} {t : Nat} {f : Frame} (h : s.serves t f 0 true = true) :
    s.requests t f = .next { s with dev := (s.answer t f).sent (frameUnpad f), loft := (s.answer t f).eff.apply s.loft } :=
  State.requests_of_admits (admits_of_serves h)

theorem State.answer_ok {s : State} {t : Nat} {f : Frame} (h : s.serves t f 0 true = true) : (s.answer t f).st = .ok :=
  ok_of_serves h

/-- A request that nothing refuses has found no refusal in the list of its checks. -/
theorem firstStatus_none {l : List (Status × Bool)} : firstStatus l = none ↔ ∀ e ∈ l, e.2 = false := by
  induction l with
  | nil => simp [firstStatus]
  | cons e l ih =>
    obtain ⟨st, b⟩ := e
    cases b <;> simp [firstStatus, ih]

/-- A frame of a served request has, on every port, the length that its header states. -/
theorem len_of_serves {s : State} {t : Nat} {f : Frame} {segs : Nat} {nvOk : Bool} (h : s.serves t f segs nvOk = true) :
    f.len = (frameUnpad f).data.length := by
  have hadm := admits_of_serves h
  simp only [State.admits, Bool.and_eq_true, Option.isNone_iff_eq_none] at hadm
  obtain ⟨⟨-, hgate⟩, -⟩ := hadm
  have hform : ((s.devAt t).arrive (frameUnpad f).req).formBad (frameUnpad f) = false := by
    unfold Dev.sopGate at hgate
    split at hgate
    · cases hgate
    · split at hgate
      · cases hgate
      · split at hgate
        · split at hgate <;> cases hgate
        · next hbad => simpa using hbad
  simp only [Dev.formBad, Bool.or_eq_false_iff, decide_eq_false_iff_not, not_not] at hform
  obtain ⟨⟨⟨⟨hlen, -⟩, -⟩, -⟩, -⟩ := hform
  rw [← hlen]
  unfold frameUnpad
  split <;> rfl

/-- The symbols of a request as its receiver takes them are the first ones of its frame. -/
theorem frameUnpad_data (f : Frame) : (frameUnpad f).data = f.data ∨ (frameUnpad f).data = f.data.take f.len := by
  unfold frameUnpad
  split
  · exact .inr rfl
  · exact .inl rfl

/-! ### Accepted writes of one value -/

/-- The WRITE of a value as the device takes it. -/
def oneWr (r : Req) (i u n v : Nat) (b : ObjBlock) : Wr := hostWr r.port i b [⟨u, v % 256 ^ n, leBytes n v⟩]

/-- A command that writes one value is the request that its row stands for. -/
theorem State.putOne_requests (s : State) (t : Nat) (r : Req) (i u n v : Nat) :
    onBoth s t (fun m d => d.putOne m r i u n v) = s.requests t (putFrame r i u 1 (leBytes n v)) := by
  unfold State.requests Dev.putOne
  rw [frameUnpad_putFrame]

/-- A WRITE of one value that is accepted is applied. -/
theorem State.answer_of_takes {s : State} {t : Nat} {r : Req} {i u n v : Nat} (h : s.takes t r i u n v = true) {b : ObjBlock}
    {row : ObjRow} (hb : blockOf i = some b) (hr : objRow i u = some row) (hn : row.ty.size = n) (hty : row.ty.isBlob = false) :
    s.answer t (putFrame r i u 1 (leBytes n v)) =
      ((s.devAt t).served (putFrame r i u 1 (leBytes n v))).applied (oneWr r i u n v b) := by
  have hok := State.answer_ok h
  unfold State.answer at hok ⊢
  rw [frameUnpad_putFrame] at hok ⊢
  obtain ⟨b', puts, hb', hp, ha⟩ := sopWrite_ok (d := (s.devAt t).served (putFrame r i u 1 (leBytes n v))) hok
  have hsub : subsOf (putFrame r i u 1 (leBytes n v)) = [u] := by simp [subsOf, putFrame]
  have hone := splitPuts_one (v := v) hr hn hty (leBytes_length n v)
  rw [hsub, show (putFrame r i u 1 (leBytes n v)).index = i from rfl, show (putFrame r i u 1 (leBytes n v)).data = leBytes n v from rfl,
    hone, ofLe_leBytes] at hp
  rw [show (putFrame r i u 1 (leBytes n v)).index = i from rfl, hb] at hb'
  cases hb'
  cases hp
  exact ha

/-- The blocks whose commands act behind the response alone: nothing else happens when one of them is written. -/
def ObjKind.actsLast (k : ObjKind) : Bool := decide (k ∈ ([.session, .firmware, .reset] : List ObjKind))

/-- An accepted write of a command of such a block stores nothing. -/
theorem Dev.applied_command {d : Dev} {r : Req} {i u n v : Nat} {b : ObjBlock} {row : ObjRow} (hr : objRow i u = some row)
    (hc : row.acc = .cmd) (hk : b.kind.actsLast = true) :
    d.applied (oneWr r i u n v b) =
      { dev := d.writtenBy r.port i, after := fun e => e.command (oneWr r i u n v b) u (v % 256 ^ n)
        first := (oneWr r i u n v b).silences } := by
  have hkind : b.kind = .session ∨ b.kind = .firmware ∨ b.kind = .reset := by simpa [ObjKind.actsLast] using hk
  have hstored : d.stored (oneWr r i u n v b) = d := by simp [Dev.stored, Dev.storePut, oneWr, hostWr, hr, hc, unstored]
  have hcmd : ∀ e : Dev, e.commands (oneWr r i u n v b) = e.command (oneWr r i u n v b) u (v % 256 ^ n) := fun e => by
    simp [Dev.commands, Wr.isCommand, oneWr, hostWr, hr, hc]
  have hport : (oneWr r i u n v b).master = r.port ∧ (oneWr r i u n v b).idx = i ∧ (oneWr r i u n v b).kind = b.kind := by
    simp [Wr.master, oneWr, hostWr]
  obtain ⟨hmaster, hidx, hw⟩ := hport
  unfold Dev.applied Dev.sendPart Dev.accept Dev.hooks Dev.windowEff
  rcases hkind with h | h | h <;> simp only [hw, h, hstored, hcmd, hmaster, hidx] <;> rfl

/-- A command of such a block that is accepted: its action is the last thing that happens, on a device that has taken the request up
and answered it. -/
theorem State.requests_of_command {s : State} {t : Nat} {r : Req} {i u n v : Nat} (h : s.takes t r i u n v = true) {b : ObjBlock}
    {row : ObjRow} (hb : blockOf i = some b) (hr : objRow i u = some row) (hn : row.ty.size = n) (hty : row.ty.isBlob = false)
    (hc : row.acc = .cmd) (hk : b.kind.actsLast = true) :
    ∃ e : Dev, s.requests t (putFrame r i u 1 (leBytes n v)) =
        .next { s with dev := e.command (oneWr r i u n v b) u (v % 256 ^ n), loft := s.loft } ∧
      (s.devAt t).sameBut e (arrivalObj r.port) ∧ e.still = (s.devAt t).still ∧
      e.regs = ((s.devAt t).arrive r).regs := by
  have hnext := State.requests_of_serves h
  rw [State.answer_of_takes h hb hr hn hty, Dev.applied_command hr hc hk, frameUnpad_putFrame] at hnext
  have hregs : ((((s.devAt t).served (putFrame r i u 1 (leBytes n v))).writtenBy r.port i).respond (putFrame r i u 1 (leBytes n v)) .ok []
      (oneWr r i u n v b).silences).regs = ((s.devAt t).served (putFrame r i u 1 (leBytes n v))).regs :=
    Dev.respond_regs _ _ _ _ (by decide)
  refine ⟨_, hnext, ?_, ?_, ?_⟩
  · exact (Dev.served_sameBut _ (putFrame r i u 1 (leBytes n v))).regs hregs
  · exact (Dev.respond_still ..).trans ((Dev.served_still (s.devAt t) (putFrame r i u 1 (leBytes n v))))
  · exact hregs.trans (Dev.staged_regs ..)

end Sys2Proof.Machine
end

section
/-! SUPPORT. A disarm and the Guardian's veto: what they set, and the objects of the ports that they leave alone (R76, R78, R299). -/

namespace Sys2Proof.Machine

/-! ### A disarm -/

@[simp] theorem Dev.disarmOccs_low (d : Dev) (doms : List Nat) (veto : Bool) : (d.disarmOccs doms veto).low = d.low := by
  unfold Dev.disarmOccs
  dsimp only
  rw [Dev.low_foldl (fun e k => Dev.forgetArmed_low e k), Dev.capStop_low]
  split
  · exact Dev.stopWhere_low _ _ _ (by decide) (by decide)
  · rw [Dev.low_foldl (fun e k => Dev.stateSource_low e k true)]
    exact Dev.stopWhere_low _ _ _ (by decide) (by decide)

@[simp] theorem Dev.slowEnds_low (d : Dev) : d.slowEnds.low = d.low := by
  unfold Dev.slowEnds
  refine Dev.low_foldl (fun e n => ?_) _ _
  split <;> simp

/-- Of the objects that the scheduler and the drive leave alone, a disarm changes the armed bits. -/
theorem Dev.disarmDoms_low (d : Dev) (doms : List Nat) (veto : Bool) :
    (d.disarmDoms doms veto).low = (doms.foldl (fun d k => d.setBit (0x2180 + k) 0x11 0 false) d).low := by
  unfold Dev.disarmDoms
  dsimp only
  split <;> simp

/-- A disarm changes no object below the domains. -/
theorem Dev.obj_disarmDoms (d : Dev) (doms : List Nat) (veto : Bool) {i u : Nat} (hi : i < 0x2180) (hu : u < 256) :
    (d.disarmDoms doms veto).obj i u = d.obj i u := by
  rw [Dev.obj_of_low (Dev.disarmDoms_low ..) (by simp [lowKey, hi, hu])]
  refine Dev.foldl_keeps (fun e => e.obj i u) (fun e k => ?_) doms d
  exact Dev.obj_setBit e 0 false (by decide) hu (by omega)

/-- Every domain of a disarm is disarmed. -/
theorem Dev.disarmDoms_disarmed (d : Dev) {doms : List Nat} (veto : Bool) {k : Nat} (hk : k ∈ doms) (hlt : k < 0x280) :
    (d.disarmDoms doms veto).bit (0x2180 + k) 0x11 0 = false := by
  have hbit : ∀ (l : List Nat) (e : Dev), k ∈ l ∨ e.bit (0x2180 + k) 0x11 0 = false →
      (l.foldl (fun d k => d.setBit (0x2180 + k) 0x11 0 false) e).bit (0x2180 + k) 0x11 0 = false := by
    intro l
    induction l with
    | nil => exact fun e h => h.resolve_left (List.not_mem_nil)
    | cons x l ih =>
      refine fun e h => ih _ ?_
      rcases h with h | h
      · rcases List.mem_cons.mp h with rfl | h
        · exact .inr (Dev.bit_setBit_self ..)
        · exact .inl h
      · refine .inr ?_
        rw [Dev.bit_setBit _ _ _ _ (by decide) (by decide)]
        split
        · rfl
        · exact h
  unfold Dev.bit
  rw [Dev.obj_of_low (Dev.disarmDoms_low ..) (by simp [lowKey]; omega)]
  exact hbit doms d (.inl hk)

/-! ### The Guardian's veto -/

/-- A boost controller that is switched off by a veto. -/
theorem Dev.railVetoed_low (d : Dev) (x : Nat) : ((d.railOff x).setBit (0x2780 + x) 0x0C 5 true).low = d.low := by simp

theorem Dev.globalDisarm_low (d : Dev) : d.globalDisarm.low = (d.disarmBoth true).low := by
  unfold Dev.globalDisarm
  exact Dev.low_foldl Dev.railVetoed_low _ _

theorem Dev.obj_globalDisarm (d : Dev) {i u : Nat} (hi : i < 0x2180) (hu : u < 256) : d.globalDisarm.obj i u = d.obj i u := by
  rw [Dev.obj_of_low d.globalDisarm_low (by simp [lowKey, hi, hu])]
  exact Dev.obj_disarmDoms d _ _ hi hu

theorem Dev.globalDisarm_disarmed (d : Dev) {k : Nat} (hk : k < 2) : d.globalDisarm.bit (0x2180 + k) 0x11 0 = false := by
  unfold Dev.bit
  rw [Dev.obj_of_low d.globalDisarm_low (by simp [lowKey]; omega)]
  exact Dev.disarmDoms_disarmed d true (by simp; omega) (by omega)

/-- What a falling ready state of a rail changes: its status and the count of such falls (R262). -/
theorem Dev.obj_readyDown (d : Dev) (x : Nat) {i u : Nat} (hu : u < 256) (h : ¬(i = 0x2780 + x ∧ (u = 0x0C ∨ u = 0x0F))) :
    (d.readyDown x).obj i u = d.obj i u := by
  have hstatus : ¬(i = 0x2780 + x ∧ u = 0x0C) := fun hc => h ⟨hc.1, .inl hc.2⟩
  have hcount : ¬(i = 0x2780 + x ∧ u = 0x0F) := fun hc => h ⟨hc.1, .inr hc.2⟩
  unfold Dev.readyDown
  dsimp only
  repeat' split
  all_goals simp [Dev.obj_inc, Dev.obj_setBit, hu, hstatus, hcount]

/-- A rail that goes off changes its own switch, status and count, and the state of the ramp that it owned. -/
theorem Dev.obj_railOff (d : Dev) (x : Nat) {i u : Nat} (hu : u < 256) (hi : i < 0x2A10)
    (h : ¬(i = 0x2780 + x ∧ (u = 0x0C ∨ u = 0x0F))) :
    (d.railOff x).obj i u = if i = 0x2780 + x ∧ u = 0x01 then 0 else d.obj i u := by
  have hstatus : ∀ (e : Dev) (b : Nat), (e.setBit (0x2780 + x) 0x0C b false).obj i u = e.obj i u := fun e b =>
    Dev.obj_setBit e b false (by decide) hu (fun hc => h ⟨hc.1, .inl hc.2⟩)
  have hboost : ∀ (e : Dev) (r : Boost), (e.setBoost x r).obj i u = e.obj i u := fun e r => by simp
  have hswitch : ((d.setObj (0x2780 + x) 0x01 0).readyDown x).obj i u = if i = 0x2780 + x ∧ u = 0x01 then 0 else d.obj i u := by
    rw [Dev.obj_readyDown _ _ hu h, Dev.obj_setObj _ _ (by decide) hu]
  unfold Dev.railOff
  dsimp only
  rw [hboost, hstatus, hstatus]
  split
  · rw [Dev.obj_setObj_idx _ _ (by decide) hu (by omega), hswitch]
  · exact hswitch

/-- A rail that global_disarm switches off (R78). -/
def Dev.railVetoed (d : Dev) (x : Nat) : Dev := (d.railOff x).setBit (0x2780 + x) 0x0C 5 true

theorem Dev.railVetoed_off (d : Dev) {x : Nat} (hx : x < 2) :
    (d.railVetoed x).obj (0x2780 + x) 0x01 = 0 ∧ (d.railVetoed x).bit (0x2780 + x) 0x0C 5 = true := by
  refine ⟨?_, Dev.bit_setBit_self ..⟩
  unfold Dev.railVetoed
  rw [Dev.obj_setBit _ _ _ (by decide) (by decide) (by simp), Dev.obj_railOff _ _ (by decide) (by omega) (by simp)]
  simp

/-- A veto on one rail leaves the other one alone. -/
theorem Dev.obj_railVetoed (d : Dev) {x y u : Nat} (hy : y < 2) (hu : u < 256) (h : y ≠ x) :
    (d.railVetoed x).obj (0x2780 + y) u = d.obj (0x2780 + y) u := by
  unfold Dev.railVetoed
  rw [Dev.obj_setBit _ _ _ (by decide) hu (by omega), Dev.obj_railOff _ _ hu (by omega) (by omega), if_neg (by omega)]

/-- global_disarm switches both rails off with the vetoed bit. -/
theorem Dev.globalDisarm_rails (d : Dev) {x : Nat} (hx : x < 2) :
    d.globalDisarm.obj (0x2780 + x) 0x01 = 0 ∧ d.globalDisarm.bit (0x2780 + x) 0x0C 5 = true := by
  have hboth : d.globalDisarm = ((d.disarmBoth true).railVetoed 0).railVetoed 1 := rfl
  rw [hboth]
  rcases (show x = 0 ∨ x = 1 by omega) with rfl | rfl
  · have hfirst := (d.disarmBoth true).railVetoed_off (x := 0) (by decide)
    unfold Dev.bit at hfirst ⊢
    have hkeep := fun u hu => ((d.disarmBoth true).railVetoed 0).obj_railVetoed (x := 1) (y := 0) (u := u) (by decide) hu (by decide)
    rwa [hkeep 0x01 (by decide), hkeep 0x0C (by decide)]
  · exact Dev.railVetoed_off _ (by decide)

/-! ### Veto bits are written -/

/-- A write that sets global_disarm, which was clear, is stamped and counted and disarms everything (R76, R78). -/
theorem Dev.vetoWritten_global {d : Dev} (hnew : d.obj 0x1800 0x04 = 1) :
    d.vetoWritten 0x04 0 = ((d.setObj 0x1800 0x09 (satInc32 (d.obj 0x1800 0x09))).setObj 0x1800 0x07 d.now).globalDisarm := by
  have hfresh : (List.range 24).filter (fun k => Nat.testBit 1 k && !Nat.testBit 0 k) = [0] := by decide
  unfold Dev.vetoWritten
  dsimp only
  rw [hnew, hfresh]
  rfl

/-- Whatever a write of global_disarm does, the objects below the domains stand but for the Guardian's. -/
theorem Dev.obj_vetoWritten_global (d : Dev) (old : Nat) {i u : Nat} (hi : i < 0x1800) (hu : u < 256) :
    (d.vetoWritten 0x04 old).obj i u = d.obj i u := by
  unfold Dev.vetoWritten
  dsimp only
  split
  · rfl
  · rw [if_pos rfl, Dev.obj_globalDisarm _ (by omega) hu, Dev.obj_setObj_idx _ _ (by decide) hu (by omega),
      Dev.obj_setObj_idx _ _ (by decide) hu (by omega)]

end Sys2Proof.Machine
end

section
/-! SUPPORT. The claims table (R68 to R73): what CLAIM, RELEASE and a change of every entry leave in it. -/

namespace Sys2Proof.Machine

/-! ### The data of a request -/

/-- A field that lies within the symbols of a request as its receiver takes them is a field of its frame. -/
theorem fieldOf_frameUnpad {f : Frame} {off n : Nat} (h : off + n ≤ (frameUnpad f).data.length) :
    fieldOf (frameUnpad f).data off n = fieldOf f.data off n := by
  rcases frameUnpad_data f with hd | hd
  · rw [hd]
  · rw [hd] at h ⊢
    have hlen : off + n ≤ f.len := le_trans h (by simp)
    unfold fieldOf
    rw [List.drop_take, List.take_take, Nat.min_eq_left (by omega)]

/-- A request whose answer has nothing to do but the response itself. -/
theorem State.answers_of_plain {s : State} {t : Nat} {c : Instr} {f : Frame} (hc : exec c s = s.requests t f)
    (h : s.serves t f 0 true = true) {e : Dev} {data : List Byte} (ha : s.answer t f = { dev := e, data := data }) :
    ∃ u, exec c s = .next u ∧ u.dev.answered f .ok data ∧ u.dev.regs = e.regs := by
  have hnext := State.requests_of_serves h
  rw [ha] at hnext
  exact ⟨_, hc.trans hnext, Dev.answered_of_unpad (Dev.respond_answered ..),
    Dev.respond_regs e (frameUnpad f) (st := .ok) data false (by decide)⟩

theorem exec_claim (s : State) (t : Nat) {f : Frame} (h : f.op = 0x06) : exec (.claim t f) s = s.requests t f := by
  simp [exec, execClaim, Dev.frame, h]

theorem exec_release (s : State) (t : Nat) {f : Frame} (h : f.op = 0x07) : exec (.release t f) s = s.requests t f := by
  simp [exec, execRelease, Dev.frame, h]

theorem Dev.sopBody_claim {f : Frame} (h : f.op = 0x06) (m : Store Byte) (segs : Nat) (nvOk : Bool) (d : Dev) :
    Dev.sopBody m f segs nvOk d = d.sopClaim f := by simp [Dev.sopBody, h]

theorem Dev.sopBody_release {f : Frame} (h : f.op = 0x07) (m : Store Byte) (segs : Nat) (nvOk : Bool) (d : Dev) :
    Dev.sopBody m f segs nvOk d = d.sopRelease f := by simp [Dev.sopBody, h]

/-! ### The entries of the table -/

/-- A resource that a request names belongs to a class that exists. -/
theorem claimList_bounds {f : Frame} {i : Nat} (h : i ∈ claimList f) :
    fieldOf f.data 0 1 ≤ 9 ∧ i < claimCount (fieldOf f.data 0 1) := by
  unfold claimList at h
  split at h
  · cases h
  · simp only [claimNames, List.mem_map, List.mem_range] at h
    obtain ⟨k, hk, rfl⟩ := h
    omega

/-- The entries of the classes lie in the table. -/
theorem claimSub_bound {cls i : Nat} (hcls : cls ≤ 9) (hi : i < claimCount cls) : claimSub cls i < 256 := by
  have htable : ∀ c ≤ 9, claimSub c 0 + claimCount c ≤ 256 := by decide
  have hentry := htable cls hcls
  unfold claimSub at hentry ⊢
  omega

theorem claimSub_lt {f : Frame} {i : Nat} (h : i ∈ claimList f) : claimSub (fieldOf f.data 0 1) i < 256 :=
  claimSub_bound (claimList_bounds h).1 (claimList_bounds h).2

/-- An object after resources have been given an entry. -/
theorem Dev.obj_setClaims {cls e : Nat} {insts : List Nat} (hin : ∀ i ∈ insts, claimSub cls i < 256) (d : Dev) {j w : Nat}
    (hw : w < 256) : (d.setClaims cls insts e).obj j w = if j = 0x1700 ∧ ∃ i ∈ insts, w = claimSub cls i then e else d.obj j w := by
  unfold Dev.setClaims
  induction insts generalizing d with
  | nil => simp
  | cons i l ih =>
    rw [List.foldl_cons, ih (fun k hk => hin k (List.mem_cons_of_mem _ hk)),
      Dev.obj_setObj _ _ (hin i (List.mem_cons_self ..)) hw]
    by_cases hj : j = 0x1700
    · by_cases hl : ∃ k ∈ l, w = claimSub cls k
      · simp [hj, hl]
      · by_cases hi : w = claimSub cls i <;> simp [hj, hl, hi]
    · simp [hj]

/-- An object after every entry of the table has been changed. -/
theorem Dev.obj_mapClaims (d : Dev) (g : Nat → Nat) {j w : Nat} (hw : w < 256) :
    (d.mapClaims g).obj j w = if j = 0x1700 ∧ 1 ≤ w ∧ w ≤ 0xA5 then g (d.obj j w) else d.obj j w := by
  have hrun : ∀ n ≤ 0xA5, ((List.range n).foldl (fun d k => d.setObj 0x1700 (k + 1) (g (d.obj 0x1700 (k + 1)))) d).obj j w =
      if j = 0x1700 ∧ 1 ≤ w ∧ w ≤ n then g (d.obj j w) else d.obj j w := by
    intro n hn
    induction n with
    | zero => rw [if_neg (by omega)]; rfl
    | succ n ih =>
      have hlast : ((List.range n).foldl (fun d k => d.setObj 0x1700 (k + 1) (g (d.obj 0x1700 (k + 1)))) d).obj 0x1700 (n + 1) =
          d.obj 0x1700 (n + 1) := by
        clear ih
        refine Dev.sameBut.foldl (P := fun i w => decide (i = 0x1700) && decide (w ≤ n)) (List.range n) (Dev.sameBut_refl _ _)
          (fun e k hk he => he.setObj _ ?_ ?_) 0x1700 (n + 1) (by omega) (by simp)
        · have := List.mem_range.mp hk
          omega
        · have := List.mem_range.mp hk
          simp
          omega
      rw [List.range_succ, List.foldl_append, List.foldl_cons, List.foldl_nil, Dev.obj_setObj _ _ (by omega) hw, hlast, ih (by omega)]
      by_cases h : j = 0x1700 ∧ w = n + 1
      · rw [if_pos h, if_pos (by omega), h.1, h.2]
      · rw [if_neg h]
        by_cases h' : j = 0x1700 ∧ 1 ≤ w ∧ w ≤ n
        · rw [if_pos h', if_pos (by omega)]
        · rw [if_neg h', if_neg (by omega)]
  exact hrun 0xA5 (Nat.le_refl _)

/-! ### CLAIM and RELEASE -/

/-- A CLAIM or RELEASE that is accepted gives the named resources their entry, and none of its refusals holds. -/
theorem Dev.claimAnswer_ok {d : Dev} {cls e : Nat} {insts : List Nat} {conflict : Option Nat} {l : List (Status × Bool)}
    (hl : ∀ x ∈ l, x.1 ≠ .ok) (h : (d.claimAnswer cls e insts conflict (firstStatus l)).st = .ok) :
    d.claimAnswer cls e insts conflict (firstStatus l) = { dev := d.setClaims cls insts e } ∧ ∀ x ∈ l, x.2 = false := by
  cases hf : firstStatus l with
  | none => exact ⟨rfl, firstStatus_none.mp hf⟩
  | some st =>
    obtain ⟨x, hx, hst⟩ := firstStatus_mem hf
    rw [hf] at h
    exact absurd (hst.trans h) (hl x hx)

/-- A CLAIM that is accepted has four symbols of data. -/
theorem Dev.sopClaim_ok {d : Dev} {f : Frame} (h : (d.sopClaim f).st = .ok) :
    f.data.length = 4 ∧ d.sopClaim f = { dev := d.setClaims (fieldOf f.data 0 1) (claimList f) f.req.port } := by
  obtain ⟨ha, hnone⟩ := Dev.claimAnswer_ok (by simp) h
  simp only [List.mem_cons, List.not_mem_nil, or_false, forall_eq_or_imp, forall_eq, decide_eq_false_iff_not, not_not] at hnone
  obtain ⟨-, -, hlen, -⟩ := hnone
  exact ⟨hlen, ha⟩

/-- A RELEASE that is accepted has four symbols of data and names resources that its port holds. -/
theorem Dev.sopRelease_ok {d : Dev} {f : Frame} (h : (d.sopRelease f).st = .ok) :
    f.data.length = 4 ∧ (∀ i ∈ claimList f, d.claimOf (fieldOf f.data 0 1) i = f.req.port) ∧
      d.sopRelease f = { dev := d.setClaims (fieldOf f.data 0 1) (claimList f) 0xFF } := by
  obtain ⟨ha, hnone⟩ := Dev.claimAnswer_ok (by simp) h
  simp only [List.mem_cons, List.not_mem_nil, or_false, forall_eq_or_imp, forall_eq, decide_eq_false_iff_not, not_not,
    Option.isSome_eq_false_iff, Option.isNone_iff_eq_none, List.find?_eq_none, decide_eq_true_eq] at hnone
  obtain ⟨-, -, hlen, hheld, -⟩ := hnone
  exact ⟨hlen, hheld, ha⟩

/-- The names in a request of four symbols are those of its frame. -/
theorem claimList_frameUnpad {f : Frame} (h : (frameUnpad f).data.length = 4) :
    claimList (frameUnpad f) = claimList f ∧ fieldOf (frameUnpad f).data 0 1 = fieldOf f.data 0 1 := by
  have hfield : ∀ off n, off + n ≤ 4 → fieldOf (frameUnpad f).data off n = fieldOf f.data off n :=
    fun off n hle => fieldOf_frameUnpad (h ▸ hle)
  unfold claimList claimNames
  simp only [hfield 0 1 (by decide), hfield 1 1 (by decide), hfield 2 1 (by decide), true_and]

/-- What giving the named resources an entry leaves, once the request has been taken up. -/
theorem Dev.setClaims_effect {d u : Dev} {f g : Frame} {cls e : Nat} (hcls : cls = fieldOf f.data 0 1)
    (hu : u.regs = ((d.served g).setClaims cls (claimList f) e).regs) :
    (∀ i ∈ claimList f, u.claimOf cls i = e) ∧
      (∀ w < 256, (∀ i ∈ claimList f, w ≠ claimSub cls i) → u.obj 0x1700 w = d.obj 0x1700 w) ∧ d.sameBut u portObjs := by
  have hin : ∀ i ∈ claimList f, claimSub cls i < 256 := fun i hi => hcls ▸ claimSub_lt hi
  have hobj : ∀ j w, w < 256 → u.obj j w = if j = 0x1700 ∧ ∃ i ∈ claimList f, w = claimSub cls i then e else (d.served g).obj j w :=
    fun j w hw => (Dev.obj_congr hu j w).trans (Dev.obj_setClaims hin _ hw)
  refine ⟨fun i hi => ?_, fun w hw hne => ?_, fun j w hw hp => ?_⟩
  · rw [Dev.claimOf, hobj _ _ (hin i hi), if_pos ⟨rfl, i, hi, rfl⟩]
  · rw [hobj _ _ hw, if_neg (fun ⟨_, i, hi, hc⟩ => hne i hi hc), Dev.obj_served _ _ hw (arrivalObj_apart (.inr (Nat.le_refl _)))]
  · rw [hobj _ _ hw, if_neg (fun hc => by rw [hc.1] at hp; cases hp), d.served_portObjs g j w hw hp]

/-- Settles O12: a request names entries of the table, which are all that its answer writes, and the end of a hold looks at each. -/
theorem claimsChange : Obligations.ClaimsChange := by
  refine ⟨fun s t f hop h => ?_, fun s t f hop h => ?_, fun s t p hruns hclosed hdue => ?_⟩
  · have hans : s.answer t f = ((s.devAt t).served (frameUnpad f)).sopClaim (frameUnpad f) := Dev.sopBody_claim (by simp [hop]) ..
    obtain ⟨hlen, ha⟩ := Dev.sopClaim_ok (hans ▸ State.answer_ok h)
    obtain ⟨hlist, hcls⟩ := claimList_frameUnpad hlen
    rw [hlist, hcls, (frameUnpad_header f).1] at ha
    obtain ⟨u, hexec, hansd, hregs⟩ := State.answers_of_plain (exec_claim s t hop) h (hans.trans ha)
    exact ⟨u, hexec, hansd, Dev.setClaims_effect rfl hregs⟩
  · have hans : s.answer t f = ((s.devAt t).served (frameUnpad f)).sopRelease (frameUnpad f) := Dev.sopBody_release (by simp [hop]) ..
    obtain ⟨hlen, hheld, ha⟩ := Dev.sopRelease_ok (hans ▸ State.answer_ok h)
    obtain ⟨hlist, hcls⟩ := claimList_frameUnpad hlen
    rw [hlist, hcls, (frameUnpad_header f).1] at hheld
    rw [hlist, hcls] at ha
    obtain ⟨u, hexec, hansd, hregs⟩ := State.answers_of_plain (exec_release s t hop) h (hans.trans ha)
    obtain ⟨hgiven, hother, hsame⟩ := Dev.setClaims_effect rfl hregs
    refine ⟨u, hexec, hansd, fun i hi => ⟨?_, hgiven i hi⟩, hother, hsame⟩
    rw [← hheld i hi]
    exact (Dev.obj_served _ _ (claimSub_lt hi) (arrivalObj_apart (.inr (Nat.le_refl _)))).symm
  · have hdev : (s.devAt t).claimHold p = (s.devAt t).mapClaims (fun e => if e = p + 64 then 0xFF else e) := by
      simp [Dev.claimHold, hruns, hclosed, hdue]
    refine ⟨{ s with dev := (s.devAt t).claimHold p }, rfl, fun w h1 h2 => ?_, fun i w hw hi => ?_⟩
    · rw [hdev, Dev.obj_mapClaims _ _ (by omega), if_pos ⟨rfl, h1, h2⟩]
    · rw [hdev, Dev.obj_mapClaims _ _ hw, if_neg (fun hc => by simp [hc.1] at hi)]

end Sys2Proof.Machine
end

section
/-! SUPPORT. Sessions (R58 to R60, R64, R70): what the session object and the claims table read once a session has opened, been
renegotiated or closed. -/

namespace Sys2Proof.Machine

theorem exec_sessionOpen (s : State) (t : Nat) {f : Frame} (h : f.op = 0x08) : exec (.sessionOpen t f) s = s.requests t f := by
  simp [exec, execSessionOpen, Dev.frame, h]

theorem exec_sessionClose (s : State) (t : Nat) {f : Frame} (h : f.op = 0x09) : exec (.sessionClose t f) s = s.requests t f := by
  simp [exec, execSessionClose, Dev.frame, h]

theorem Dev.sopBody_sessionOpen {f : Frame} (h : f.op = 0x08) (m : Store Byte) (segs : Nat) (nvOk : Bool) (d : Dev) :
    Dev.sopBody m f segs nvOk d = d.sopOpen f := by simp [Dev.sopBody, h]

theorem Dev.sopBody_sessionClose {f : Frame} (h : f.op = 0x09) (m : Store Byte) (segs : Nat) (nvOk : Bool) (d : Dev) :
    Dev.sopBody m f segs nvOk d = d.sopClose f := by simp [Dev.sopBody, h]

/-! ### A session opens -/

/-- The words of a session's accepted features. -/
def Dev.setWords (d : Dev) (p : Nat) (words : List Nat) : Dev :=
  (List.range 4).foldl (fun d k => d.setObj (0x1200 + p) (0x03 + k) (words.getD k 0)) d

theorem Dev.setWords_word (d : Dev) (p : Nat) (words : List Nat) {k : Nat} (hk : k < 4) :
    (d.setWords p words).obj (0x1200 + p) (0x03 + k) = words.getD k 0 := by
  have hfold : d.setWords p words = (((d.setObj (0x1200 + p) 0x03 (words.getD 0 0)).setObj (0x1200 + p) 0x04 (words.getD 1 0)).setObj
      (0x1200 + p) 0x05 (words.getD 2 0)).setObj (0x1200 + p) 0x06 (words.getD 3 0) := rfl
  rw [hfold]
  rcases (show k = 0 ∨ k = 1 ∨ k = 2 ∨ k = 3 by omega) with rfl | rfl | rfl | rfl <;> simp [Dev.obj_setObj]

theorem Dev.setWords_sameBut (d : Dev) (p : Nat) (words : List Nat) :
    d.sameBut (d.setWords p words) (fun i w => decide (i = 0x1200 + p) && decide (0x03 ≤ w) && decide (w ≤ 0x06)) := by
  refine Dev.sameBut.foldl _ (Dev.sameBut_refl _ _) (fun e k hk he => he.setObj _ ?_ ?_)
  · have := List.mem_range.mp hk
    omega
  · have := List.mem_range.mp hk
    simp
    omega

/-- What SESSION_OPEN leaves in the session object of a port and in the claims table, and that it changes nothing outside chapter 02. -/
structure Dev.Opened (d u : Dev) (p level : Nat) (words : List Nat) : Prop where
  state : u.obj (0x1200 + p) 0x01 = if d.obj (0x1200 + p) 0x01 = 0 then 1 else d.obj (0x1200 + p) 0x01
  level : u.obj (0x1200 + p) 0x02 = level
  words : ∀ k < 4, u.obj (0x1200 + p) (0x03 + k) = words.getD k 0
  claims : d.sessOpen p = false → ∀ w, 1 ≤ w → w ≤ 0xA5 → u.obj 0x1700 w = if d.obj 0x1700 w = p + 64 then p else d.obj 0x1700 w
  rest : d.sameBut u portObjs

/-- What comes behind the opening changes none of it. -/
theorem Dev.Opened.later {d u v : Dev} {p level : Nat} {words : List Nat} (h : d.Opened u p level words)
    {P : Nat → Nat → Bool} (hv : u.sameBut v P) (hsess : ∀ w, P (0x1200 + p) w = false) (hclaims : ∀ w, P 0x1700 w = false)
    (hports : ∀ i w, P i w = true → portObj i = true) : d.Opened v p level words where
  state := (hv _ _ (by decide) (hsess _)).trans h.state
  level := (hv _ _ (by decide) (hsess _)).trans h.level
  words k hk := (hv _ _ (by omega) (hsess _)).trans (h.words k hk)
  claims hclosed w h1 h2 := (hv _ _ (by omega) (hclaims _)).trans (h.claims hclosed w h1 h2)
  rest := h.rest.trans (hv.mono hports)

/-- The values that the opening of a session gives its object. -/
def Dev.setSession (d : Dev) (p level : Nat) (words : List Nat) (addr uport : Nat) : Dev :=
  (((((d.setObj (0x1200 + p) 0x01 1).setObj (0x1200 + p) 0x02 level).setWords p words).setObj (0x1200 + p) 0x07 addr).setObj (0x1200 + p)
    0x08 uport).inc (0x1200 + p) 0x09

theorem Dev.setSession_sameBut (d : Dev) (p level : Nat) (words : List Nat) (addr uport : Nat) :
    d.sameBut (d.setSession p level words addr uport) (fun i _ => decide (i = 0x1200 + p)) := by
  have hin : ∀ w : Nat, (fun (i : Nat) (_ : Nat) => decide (i = 0x1200 + p)) (0x1200 + p) w = true := fun _ => decide_eq_true rfl
  have hstate := (Dev.sameBut_refl d (fun i _ => decide (i = 0x1200 + p))).setObj (i := 0x1200 + p) (u := 0x01) 1 (by decide) (hin 0x01)
  have hlevel := hstate.setObj (i := 0x1200 + p) (u := 0x02) level (by decide) (hin 0x02)
  have hwords := hlevel.trans ((Dev.setWords_sameBut _ p words).mono (fun i w h => by
    simp only [Bool.and_eq_true] at h
    exact h.1.1))
  have haddr := hwords.setObj (i := 0x1200 + p) (u := 0x07) addr (by decide) (hin 0x07)
  have huport := haddr.setObj (i := 0x1200 + p) (u := 0x08) uport (by decide) (hin 0x08)
  exact huport.inc (by decide) (hin 0x09)

/-- The values stand as they have been given. -/
theorem Dev.setSession_values (d : Dev) (p level : Nat) (words : List Nat) (addr uport : Nat) :
    (d.setSession p level words addr uport).obj (0x1200 + p) 0x01 = 1 ∧
      (d.setSession p level words addr uport).obj (0x1200 + p) 0x02 = level ∧
      ∀ k < 4, (d.setSession p level words addr uport).obj (0x1200 + p) (0x03 + k) = words.getD k 0 := by
  have hpeer : ∀ w < 0x07, (d.setSession p level words addr uport).obj (0x1200 + p) w =
      (((d.setObj (0x1200 + p) 0x01 1).setObj (0x1200 + p) 0x02 level).setWords p words).obj (0x1200 + p) w := by
    intro w hw
    unfold Dev.setSession
    rw [Dev.obj_inc _ (by decide) (by omega), if_neg (by omega), Dev.obj_setObj_sub _ _ (by decide) (by omega) (by omega),
      Dev.obj_setObj_sub _ _ (by decide) (by omega) (by omega)]
  refine ⟨?_, ?_, fun k hk => ?_⟩
  · rw [hpeer _ (by decide), Dev.setWords_sameBut _ p words _ _ (by decide) (by simp),
      Dev.obj_setObj_sub _ _ (by decide) (by decide) (by decide), Dev.obj_setObj_self]
  · rw [hpeer _ (by decide), Dev.setWords_sameBut _ p words _ _ (by decide) (by simp), Dev.obj_setObj_self]
  · rw [hpeer _ (by omega), Dev.setWords_word _ _ _ hk]

theorem Dev.openSession_opened {d : Dev} {p : Nat} (hp : p < 6) (hclosed : d.sessOpen p = false) (level : Nat) (words : List Nat)
    (addr uport : Nat) : d.Opened (d.openSession p level words addr uport) p level words := by
  have hstate : d.obj (0x1200 + p) 0x01 = 0 := by simpa [Dev.sessOpen] using hclosed
  obtain ⟨e, he, hu⟩ : ∃ e : Dev, (∀ i w, e.obj i w = (d.mapClaims (fun e => if e = p + 64 then p else e)).obj i w) ∧
      d.openSession p level words addr uport = e.setSession p level words addr uport :=
    ⟨(d.mapClaims (fun e => if e = p + 64 then p else e)).setPort p _, fun i w => Dev.obj_congr (Dev.setPort_regs ..) i w, rfl⟩
  obtain ⟨hone, hlevel, hwords⟩ := e.setSession_values p level words addr uport
  have hkept := e.setSession_sameBut p level words addr uport
  rw [hu]
  refine ⟨hone.trans (if_pos hstate).symm, hlevel, hwords, fun _ w h1 h2 => ?_, fun i w hw hi => ?_⟩
  · rw [hkept 0x1700 w (by omega) (by simp; omega), he, Dev.obj_mapClaims _ _ (by omega), if_pos ⟨rfl, h1, h2⟩]
  · have hout : i ≠ 0x1200 + p ∧ i ≠ 0x1700 := by
      simp only [portObj, decide_eq_false_iff_not] at hi
      omega
    rw [hkept i w hw (by simpa using hout.1), he, Dev.obj_mapClaims _ _ hw, if_neg (fun hc => hout.2 hc.1)]

theorem Dev.renegotiate_opened {d : Dev} {p : Nat} (hp : p < 6) (hopen : d.sessOpen p = true) (level : Nat) (words : List Nat) :
    d.Opened (d.renegotiate p level words) p level words := by
  have hstate : d.obj (0x1200 + p) 0x01 ≠ 0 := by simpa [Dev.sessOpen] using hopen
  have hregs : (d.renegotiate p level words).regs = ((d.setObj (0x1200 + p) 0x02 level).setWords p words).regs := by
    unfold Dev.renegotiate
    dsimp only
    split <;> rfl
  have hkept : d.sameBut ((d.setObj (0x1200 + p) 0x02 level).setWords p words)
      (fun i w => decide (i = 0x1200 + p) && decide (0x02 ≤ w) && decide (w ≤ 0x06)) := by
    refine Dev.sameBut.trans (Dev.sameBut.setObj (Dev.sameBut_refl _ _) _ (by decide) (by simp)) ((Dev.setWords_sameBut _ p words).mono ?_)
    intro i w h
    simp only [Bool.and_eq_true, decide_eq_true_eq] at h ⊢
    omega
  have hsame : d.Opened ((d.setObj (0x1200 + p) 0x02 level).setWords p words) p level words := by
    refine ⟨?_, ?_, fun k hk => Dev.setWords_word _ _ _ hk, fun hclosed => ?_, hkept.mono (fun i w h => ?_)⟩
    · rw [hkept _ _ (by decide) (by simp), if_neg hstate]
    · rw [Dev.setWords_sameBut _ p words _ _ (by decide) (by simp), Dev.obj_setObj_self]
    · rw [hopen] at hclosed
      cases hclosed
    · simp only [Bool.and_eq_true, decide_eq_true_eq] at h
      exact portObj_mid (by omega) (by omega)
  exact hsame.later (P := fun _ _ => false) (Dev.sameBut_of_regs hregs) (fun _ => rfl) (fun _ => rfl) (fun _ _ h => by cases h)

/-- A held batch that goes out behind the response to SESSION_OPEN counts in its own counter (R90). -/
theorem Dev.afterOpen_sameBut (d : Dev) (p : Nat) : d.sameBut (d.afterOpen p) (batchObj p) := by
  unfold Dev.afterOpen
  split
  · split
    · exact Dev.sendBatch_sameBut d p false
    · exact Dev.sameBut_of_regs rfl
  · exact Dev.sameBut_refl _ _

/-- A SESSION_OPEN that is accepted has 20 symbols of data, and opens the session or renegotiates it. -/
theorem Dev.sopOpen_ok {d : Dev} {f : Frame} (h : (d.sopOpen f).st = .ok) :
    f.data.length = 20 ∧ ∃ e data, d.sopOpen f = { dev := e, data := data, after := fun d => d.afterOpen f.req.port } ∧
      d.Opened e f.req.port (fieldOf f.data 0 1) (d.acceptWords f.data) := by
  have hp := f.req.port.isLt
  by_cases hlen : f.data.length = 20
  · by_cases hrange : d.openRange f = true
    · simp [Dev.sopOpen, hlen, hrange] at h
    · cases hs : d.sessOpen f.req.port
      · have ha : ∃ data addr uport, d.sopOpen f = { dev := d.openSession f.req.port (fieldOf f.data 0 1) (d.acceptWords f.data) addr uport
                                                     data := data, after := fun d => d.afterOpen f.req.port } := by
          unfold Dev.sopOpen
          simp only [hlen, hrange, hs, ne_eq, not_true_eq_false, if_false, Bool.false_eq_true]
          exact ⟨_, _, _, rfl⟩
        obtain ⟨data, addr, uport, ha⟩ := ha
        exact ⟨hlen, _, data, ha, Dev.openSession_opened hp hs ..⟩
      · have ha : ∃ data, d.sopOpen f = { dev := d.renegotiate f.req.port (fieldOf f.data 0 1) (d.acceptWords f.data)
                                          data := data, after := fun d => d.afterOpen f.req.port } := by
          unfold Dev.sopOpen
          simp only [hlen, hrange, hs, ne_eq, not_true_eq_false, if_false, if_true]
          exact ⟨_, rfl⟩
        obtain ⟨data, ha⟩ := ha
        exact ⟨hlen, _, data, ha, Dev.renegotiate_opened hp hs ..⟩
  · simp [Dev.sopOpen, hlen, refuse] at h

/-- A SESSION_OPEN that is accepted opens the session of its port, or renegotiates it. -/
theorem sessionOpens {s : State} {t : Nat} {f : Frame} (hop : f.op = 0x08) (h : s.serves t f 0 true = true) :
    ∃ u, exec (.sessionOpen t f) s = .next u ∧ ((s.devAt t).served (frameUnpad f)).Opened u.dev f.req.port (fieldOf f.data 0 1)
      (((s.devAt t).served (frameUnpad f)).acceptWords f.data) := by
  have hnext := State.requests_of_serves h
  have hans : s.answer t f = ((s.devAt t).served (frameUnpad f)).sopOpen (frameUnpad f) := Dev.sopBody_sessionOpen (by simp [hop]) ..
  obtain ⟨hlen, e, data, ha, hopened⟩ := Dev.sopOpen_ok (hans ▸ State.answer_ok h)
  have hfield : ∀ off n, off + n ≤ 20 → fieldOf (frameUnpad f).data off n = fieldOf f.data off n :=
    fun off n hle => fieldOf_frameUnpad (hlen ▸ hle)
  have hwords : ∀ d : Dev, d.acceptWords (frameUnpad f).data = d.acceptWords f.data := fun d =>
    List.map_congr_left (fun k hk => by rw [hfield _ _ (by have := List.mem_range.mp hk; omega)])
  rw [hfield 0 1 (by decide), hwords, (frameUnpad_header f).1] at hopened
  rw [hans.trans ha, (frameUnpad_header f).1] at hnext
  have hp := f.req.port.isLt
  refine ⟨_, (exec_sessionOpen s t hop).trans hnext,
    hopened.later (P := batchObj f.req.port) ?_ (fun w => ?_) (fun w => ?_) (fun i w hi => ?_)⟩
  · exact Dev.sameBut.trans (Dev.sameBut_of_regs (Dev.respond_regs _ _ (st := .ok) _ _ (by decide))) (Dev.afterOpen_sameBut _ _)
  · simp [batchObj]
  · simp [batchObj]
    omega
  · simp only [batchObj, Bool.and_eq_true, decide_eq_true_eq] at hi
    exact portObj_mid (by omega) (by omega)

/-! ### A session closes -/

theorem Dev.obj_lossAction (d : Dev) (p : Nat) {i u : Nat} (hi : i < 0x2180) (hu : u < 256) : (d.lossAction p).obj i u = d.obj i u := by
  unfold Dev.lossAction
  split
  · refine Dev.foldl_keeps (fun e => e.obj i u) (fun e k => ?_) _ d
    split
    · exact Dev.obj_disarmDoms e _ _ hi hu
    · rfl
  · rfl

theorem Dev.obj_guardianLoss (d : Dev) (p : Nat) {i u : Nat} (hi : i < 0x1800) (hu : u < 256) :
    (d.guardianLoss p).obj i u = d.obj i u := by
  unfold Dev.guardianLoss
  dsimp only
  split
  · rw [Dev.obj_vetoWritten_global _ _ hi hu, Dev.obj_setObj_idx _ _ (by decide) hu (by omega)]
  · rfl

/-- What the close of a session leaves in the session object and in the claims table. -/
def Dev.Closed (d u : Dev) (p reason : Nat) : Prop :=
  (∀ w, 1 ≤ w → w ≤ 0x08 → u.obj (0x1200 + p) w = 0) ∧ u.obj (0x1200 + p) 0x0A = reason ∧
    ∀ w, 1 ≤ w → w ≤ 0xA5 → u.obj 0x1700 w = if d.obj 0x1700 w = p then p + 64 else d.obj 0x1700 w

/-- The objects of the ports and the claims once a session has closed. -/
theorem Dev.obj_closeSession {d : Dev} {p : Nat} (hopen : d.sessOpen p = true) (reason : Nat) {i u : Nat} (hi : i < 0x1800) (hu : u < 256) :
    (d.closeSession p reason).obj i u =
      if i = 0x1200 + p ∧ u = 0x0A then reason else if i = 0x1200 + p ∧ 0x01 ≤ u ∧ u ≤ 0x08 then 0
      else if i = 0x1700 ∧ 1 ≤ u ∧ u ≤ 0xA5 then if d.obj i u = p then d.obj i u + 64 else d.obj i u
      else d.obj i u := by
  have hport : ∀ (e : Dev) (r : Port), (e.setPort p r).obj i u = e.obj i u := fun e r => Dev.obj_congr (Dev.setPort_regs ..) i u
  unfold Dev.closeSession
  rw [if_pos hopen]
  dsimp only
  rw [Dev.raiseIf_obj, Dev.obj_guardianLoss _ _ hi hu, Dev.obj_setObj _ _ (by decide) hu, Dev.obj_zero _ (by decide) hu, hport,
    Dev.obj_mapClaims _ _ hu, Dev.obj_lossAction _ _ (by omega) hu]

theorem Dev.closeSession_closed {d : Dev} {p : Nat} (hp : p < 6) (hopen : d.sessOpen p = true) (reason : Nat) :
    d.Closed (d.closeSession p reason) p reason := by
  refine ⟨fun w h1 h2 => ?_, ?_, fun w h1 h2 => ?_⟩
  · rw [Dev.obj_closeSession hopen _ (by omega) (by omega), if_neg (by omega), if_pos ⟨rfl, h1, h2⟩]
  · rw [Dev.obj_closeSession hopen _ (by omega) (by decide), if_pos ⟨rfl, rfl⟩]
  · rw [Dev.obj_closeSession hopen _ (by decide) (by omega), if_neg (by omega), if_neg (by omega), if_pos ⟨rfl, h1, h2⟩]
    split
    · next h => rw [h]
    · rfl

/-- What a request changes as it arrives does not count among what the close of a session leaves. -/
theorem Dev.Closed.earlier {d e u : Dev} {p reason : Nat} (h : e.Closed u p reason) (hclaims : ∀ w < 256, e.obj 0x1700 w = d.obj 0x1700 w) :
    d.Closed u p reason := by
  obtain ⟨hzero, hreason, htable⟩ := h
  refine ⟨hzero, hreason, fun w h1 h2 => ?_⟩
  rw [← hclaims w (by omega)]
  exact htable w h1 h2

/-- A session that is open stays open as a request arrives, on whatever port. -/
theorem Dev.sessOpen_arrive (d : Dev) (r : Req) (q : Nat) : (d.arrive r).sessOpen q = d.sessOpen q := by
  have hframe : ∀ (e : Dev) (b : Bool), (e.frameIn r.port b).sessOpen q = e.sessOpen q := by
    intro e b
    have hcount : (e.inc (0x1100 + r.port.val) 0x04).sessOpen q = e.sessOpen q := by
      unfold Dev.sessOpen
      rw [Dev.obj_inc _ (by decide) (by decide), if_neg (by simp)]
    have hport : ∀ (e : Dev) (n : Nat) (x : Port), (e.setPort n x).sessOpen q = e.sessOpen q := fun e n x => by simp [Dev.sessOpen]
    unfold Dev.frameIn Dev.validFrame
    dsimp only
    split
    · rw [Dev.sessOpen_leaveDoze, hport, hcount]
    · exact hcount
  unfold Dev.arrive
  dsimp only
  split
  · split
    · simp [Dev.sessOpen]
    · rw [hframe]
  · exact hframe _ _

theorem Dev.sopClose_ok {d : Dev} {f : Frame} (h : (d.sopClose f).st = .ok) :
    d.sessOpen f.req.port = true ∧ d.sopClose f = { dev := d, after := fun d => d.closeSession f.req.port 1 } := by
  unfold Dev.sopClose at h ⊢
  cases hc : d.plainCheck f none with
  | some st =>
    obtain ⟨x, hx, hst⟩ := firstStatus_mem hc
    rw [hc] at h
    have hne : x.1 ≠ .ok := by
      simp only [List.mem_cons, List.not_mem_nil, or_false] at hx
      rcases hx with rfl | rfl | rfl <;> simp
    exact absurd (hst.trans h) hne
  | none =>
    have hopen := firstStatus_none.mp hc (.noSession, !d.sessOpen f.req.port) (by simp)
    exact ⟨by simpa using hopen, rfl⟩

/-- SESSION_CLOSE closes the session of its port. -/
theorem sessionCloses {s : State} {t : Nat} {f : Frame} (hop : f.op = 0x09) (h : s.serves t f 0 true = true) :
    ∃ u, exec (.sessionClose t f) s = .next u ∧ (s.devAt t).Closed u.dev f.req.port 1 := by
  have hnext := State.requests_of_serves h
  have hans : s.answer t f = ((s.devAt t).served (frameUnpad f)).sopClose (frameUnpad f) := Dev.sopBody_sessionClose (by simp [hop]) ..
  obtain ⟨hopen, ha⟩ := Dev.sopClose_ok (hans ▸ State.answer_ok h)
  rw [hans.trans ha, (frameUnpad_header f).1] at hnext
  rw [(frameUnpad_header f).1] at hopen
  refine ⟨_, (exec_sessionClose s t hop).trans hnext, ?_⟩
  have hregs : (((s.devAt t).served (frameUnpad f)).respond (frameUnpad f) .ok [] false).regs = ((s.devAt t).served (frameUnpad f)).regs :=
    Dev.respond_regs _ _ _ _ (by decide)
  refine (Dev.closeSession_closed f.req.port.isLt (reason := 1) ?_).earlier (fun w hw => ?_)
  · unfold Dev.sessOpen at hopen ⊢
    rwa [Dev.obj_congr hregs]
  · exact (Dev.obj_congr hregs ..).trans (Dev.obj_served _ _ hw (arrivalObj_apart (.inr (Nat.le_refl _))))

/-- The block of the sessions. -/
def sessionBlock : ObjBlock := ⟨0x1200, 6, .session, sessionRows⟩

theorem blockOf_session (n : Fin 6) : blockOf (0x1200 + n) = some sessionBlock := by revert n; decide

theorem objRow_forceClose (n : Fin 6) : ∃ row, objRow (0x1200 + n) 0x0B = some row ∧ row.ty.size = 1 ∧ row.ty.isBlob = false ∧
    row.acc = .cmd := by revert n; decide

/-- force_close closes the session of the port it names (R64). -/
theorem sessionForced {s : State} {t : Nat} {r : Req} {n : Fin 6} (h : s.takes t r (0x1200 + n) 0x0B 1 1 = true)
    (hopen : (s.devAt t).sessOpen n = true) : ∃ u, exec (.forceClose t r n) s = .next u ∧ (s.devAt t).Closed u.dev n 4 := by
  obtain ⟨row, hrow, hsize, hblob, hcmd⟩ := objRow_forceClose n
  obtain ⟨e, hnext, hsame, -, hregs⟩ := State.requests_of_command h (blockOf_session n) hrow hsize hblob hcmd (by decide)
  have hinst : (oneWr r (0x1200 + n) 0x0B 1 1 sessionBlock).inst = n := by simp [oneWr, hostWr, sessionBlock]
  have hact : e.command (oneWr r (0x1200 + n) 0x0B 1 1 sessionBlock) 0x0B (1 % 256 ^ 1) = e.closeSession n 4 := by
    have hkind : (oneWr r (0x1200 + n) 0x0B 1 1 sessionBlock).kind = .session := rfl
    simp only [Dev.command, Dev.deviceCommand, hkind, hinst]
  refine ⟨_, (State.putOne_requests s t r (0x1200 + n) 0x0B 1 1).trans hnext, ?_⟩
  rw [hact]
  refine (Dev.closeSession_closed n.isLt ?_ 4).earlier (fun w hw => hsame 0x1700 w hw (arrivalObj_apart (.inr (Nat.le_refl _))))
  unfold Dev.sessOpen
  rw [Dev.obj_congr hregs]
  exact (Dev.sessOpen_arrive ..).trans hopen

/-- Settles O13: an accepted opening writes its values into the session object, and every way of closing one goes through the one close
of a session. -/
theorem sessionsOpenAndClose : Obligations.SessionsOpenAndClose := by
  refine ⟨fun s t f hop h => ?_, fun s t f hop h => sessionCloses hop h, fun s t p hruns hstate hdue => ?_,
    fun s t p hruns hstate hlimit hdue => ?_, fun s t r n h hopen => sessionForced h hopen⟩
  · obtain ⟨u, hexec, hopened⟩ := sessionOpens hop h
    have hregs : ((s.devAt t).served (frameUnpad f)).regs = ((s.devAt t).arrive f.req).regs :=
      (Dev.staged_regs ..).trans (by rw [(frameUnpad_header f).1])
    have hobj := fun i w => Dev.obj_congr hregs i w
    refine ⟨u, hexec, ?_, hopened.level, fun k hk => ?_, fun hclosed w h1 h2 => ?_, ?_⟩
    · rw [hopened.state, hobj]
    · rw [hopened.words k hk, ← hobj]
      simp [Dev.acceptWords, hk]
    · rw [← hobj]
      refine hopened.claims ?_ w h1 h2
      unfold Dev.sessOpen at hclosed ⊢
      rw [hobj, hclosed]
    · exact Dev.sameBut.trans (Dev.served_portObjs _ _) hopened.rest
  · have hdev : (s.devAt t).sessionTimeout p = (s.devAt t).closeSession p 2 := by simp [Dev.sessionTimeout, hruns, hstate, hdue]
    exact ⟨{ s with dev := (s.devAt t).sessionTimeout p }, rfl,
      hdev.symm ▸ Dev.closeSession_closed (d := s.devAt t) p.isLt (by simp [Dev.sessOpen, hstate]) 2⟩
  · have hdev : (s.devAt t).dozeLimit p = (s.devAt t).closeSession p 3 := by simp [Dev.dozeLimit, Dev.dozing, hruns, hstate, hlimit, hdue]
    exact ⟨{ s with dev := (s.devAt t).dozeLimit p }, rfl,
      hdev.symm ▸ Dev.closeSession_closed (d := s.devAt t) p.isLt (by simp [Dev.sessOpen, hstate]) 3⟩

end Sys2Proof.Machine
end

section
/-! SUPPORT. Writes of the Guardian's objects (R74, R76, R78): the value stands in its object, and a veto bit that is newly set acts. -/

namespace Sys2Proof.Machine

/-- The block of the Guardian. -/
def guardianBlock : ObjBlock := ⟨0x1800, 1, .guardian, guardianRows⟩

/-- The blocks without a window: a write of one of their values stores it. -/
def ObjKind.stores (k : ObjKind) : Bool := !decide (k ∈ ([.loft, .mailbox, .firmware, .learned, .nv, .reset, .power] : List ObjKind))

/-- An accepted write of a value of such a block: the value is stored, and the block's hooks see the write. -/
theorem Dev.applied_value {d : Dev} {r : Req} {i u n v : Nat} {b : ObjBlock} {row : ObjRow} (hr : objRow i u = some row)
    (hacc : row.acc ≠ .cmd) (hblob : row.ty.isBlob = false) (hk : b.kind.stores = true) :
    d.applied (oneWr r i u n v b) =
      { dev := Dev.hooks d ((d.setObj i u (v % 256 ^ n)).writtenBy r.port i) (oneWr r i u n v b) } := by
  obtain ⟨hloft, hmailbox, hfirmware, hlearned, hnv, hreset, hpower⟩ : b.kind ≠ .loft ∧ b.kind ≠ .mailbox ∧ b.kind ≠ .firmware ∧
      b.kind ≠ .learned ∧ b.kind ≠ .nv ∧ b.kind ≠ .reset ∧ b.kind ≠ .power := by
    simpa [ObjKind.stores] using hk
  have hstored : d.stored (oneWr r i u n v b) = d.setObj i u (v % 256 ^ n) := by
    have hunstored : unstored b.kind u row.acc = false := by simp [unstored, hacc, hloft, hmailbox, hfirmware, hlearned, hnv]
    cases hty : row.ty <;> simp_all [Dev.stored, Dev.storePut, oneWr, hostWr, OTy.isBlob]
  have hcmd : ∀ e : Dev, e.commands (oneWr r i u n v b) = e := fun e => by
    simp [Dev.commands, Wr.isCommand, oneWr, hostWr, hr, hacc]
  have hkind : (oneWr r i u n v b).kind = b.kind := rfl
  have hsend : d.sendPart (oneWr r i u n v b) = d := by
    unfold Dev.sendPart
    split
    · next h => exact absurd h hmailbox
    · next h => exact absurd h hloft
    · rfl
  have heff : d.windowEff (oneWr r i u n v b) = LoftEff.none := by
    unfold Dev.windowEff
    split
    · next h _ => exact absurd h hloft
    · rfl
  have hfirst : (oneWr r i u n v b).silences = false := by simp [Wr.silences, hkind, hfirmware, hreset, hpower]
  unfold Dev.applied Dev.accept
  rw [hsend, hstored, heff, hfirst, funext hcmd]
  rfl

/-- What the hooks of the Guardian's block do with a write of one value but of its cuts. -/
theorem Dev.hooks_guardian (old d : Dev) (r : Req) {u n v : Nat} (hu : u ≠ 0x05 ∧ u ≠ 0x06) :
    Dev.hooks old d (oneWr r 0x1800 u n v guardianBlock) = if u = 0x04 then d.vetoWritten 0x04 (old.obj 0x1800 0x04) else d := by
  have hhas : ∀ k, (oneWr r 0x1800 u n v guardianBlock).has k = decide (u = k) := fun k => by simp [Wr.has, oneWr, hostWr]
  have hkind : (oneWr r 0x1800 u n v guardianBlock).kind = .guardian := rfl
  have hidx : (oneWr r 0x1800 u n v guardianBlock).idx = 0x1800 := rfl
  unfold Dev.hooks
  simp only [hkind, hidx, hhas, List.foldl_cons, List.foldl_nil, hu.1, hu.2, decide_eq_true_eq, if_false]

/-- The device after a request that has nothing to do but the response itself. -/
theorem State.next_of_plain {s : State} {t : Nat} {f : Frame} (h : s.serves t f 0 true = true) {e : Dev}
    (ha : s.answer t f = { dev := e }) : ∃ u, s.requests t f = .next u ∧ u.dev.regs = e.regs ∧ u.dev.still = e.still := by
  have hnext := State.requests_of_serves h
  rw [ha] at hnext
  exact ⟨_, hnext, Dev.respond_regs e (frameUnpad f) (st := .ok) [] false (by decide), e.respond_still (frameUnpad f) .ok [] false⟩

/-- What the symbols of an accepted WRITE of one value are: those that the header counts. -/
theorem data_of_written {i u : Nat} {row : ObjRow} (hr : objRow i u = some row) (hty : row.ty.isBlob = false) {bs : List Byte}
    {puts : List Put} (h : splitPuts i [u] bs = some puts) : bs.length = row.ty.size ∧ puts = [⟨u, ofLe bs, bs⟩] := by
  have hdone : ∀ (n : Nat) (ps : List Put), n ≤ bs.length → splitPuts i [] (bs.drop n) = some ps → bs.length = n ∧ ps = [] := by
    intro n ps hn hps
    unfold splitPuts at hps
    split at hps
    · next he =>
      have := List.drop_eq_nil_iff.mp (List.isEmpty_iff.mp he)
      exact ⟨by omega, (Option.some.inj hps).symm⟩
    · cases hps
  unfold splitPuts at h
  rw [hr] at h
  cases hrow : row.ty with
  | blob k => simp [hrow, OTy.isBlob] at hty
  | _ =>
    simp only [hrow] at h
    obtain ⟨hfits, h⟩ := Option.ite_none_right_eq_some.mp h
    obtain ⟨ps, hps, rfl⟩ := Option.map_eq_some_iff.mp h
    obtain ⟨hlen, rfl⟩ := hdone _ ps (by simpa using hfits) hps
    exact ⟨hlen, by rw [← hlen, List.take_length]⟩

theorem exec_vetoWrite {s : State} {t : Nat} {f : Frame} (hop : f.op = 0x02) (h : (s.devAt t).isVeto f = true) :
    exec (.vetoWrite t f) s = s.requests t f := by
  unfold State.devAt at h
  simp [exec, execVetoWrite, onBoth, State.requests, Dev.frame, hop, h]

/-- A veto that sets global_disarm is the write of one value. -/
theorem State.answer_of_veto {s : State} {t : Nat} {f : Frame} (hop : f.op = 0x02) (hidx : f.index = 0x1800) (hsub : f.sub = 0x04)
    (hctl : f.ctl ≤ 1) (hdata : f.data = [1]) (h : s.serves t f 0 true = true) :
    s.answer t f = ((s.devAt t).served (frameUnpad f)).applied (oneWr f.req 0x1800 0x04 1 1 guardianBlock) := by
  have hans : s.answer t f = ((s.devAt t).served (frameUnpad f)).sopWrite (frameUnpad f) := Dev.sopBody_write (by simp [hop]) ..
  have hok := State.answer_ok h
  rw [hans] at hok ⊢
  obtain ⟨b, puts, hb, hp, ha⟩ := sopWrite_ok hok
  have hsubs : subsOf (frameUnpad f) = [0x04] := by
    simp [subsOf, hsub, Nat.max_eq_left hctl]
  have hindex : (frameUnpad f).index = 0x1800 := by simp [hidx]
  have hrow : ∃ row, objRow 0x1800 0x04 = some row ∧ row.ty.isBlob = false ∧ row.ty.size = 1 := by decide
  obtain ⟨row, hr, hty, hsize⟩ := hrow
  rw [hindex, hsubs] at hp
  obtain ⟨hlen, hputs⟩ := data_of_written hr hty hp
  have hone : (frameUnpad f).data = [1] := by
    rcases frameUnpad_data f with hd | hd
    · exact hd.trans hdata
    · rw [hsize, hd, hdata, List.length_take] at hlen
      rw [hd, hdata]
      exact List.take_of_length_le (by simp at hlen ⊢; omega)
  have hblock : b = guardianBlock := by
    have h1 : blockOf 0x1800 = some guardianBlock := by decide
    rw [hindex, h1] at hb
    exact (Option.some.inj hb).symm
  rw [ha, hputs, hone, hblock, hindex, (frameUnpad_header f).1]
  rfl

@[simp] theorem Dev.writtenBy_obj (d : Dev) (who idx i u : Nat) : (d.writtenBy who idx).obj i u = d.obj i u := rfl

/-- What a newly set global_disarm leaves (R76, R78). -/
theorem Dev.vetoWritten_effect {d : Dev} (hnew : d.obj 0x1800 0x04 = 1) :
    (d.vetoWritten 0x04 0).obj 0x1800 0x04 = 1 ∧ (d.vetoWritten 0x04 0).obj 0x1800 0x07 = d.now ∧
      (d.vetoWritten 0x04 0).obj 0x1800 0x09 = satInc32 (d.obj 0x1800 0x09) ∧
      (∀ k < 2, (d.vetoWritten 0x04 0).bit (0x2180 + k) 0x11 0 = false) ∧
      ∀ x < 2, (d.vetoWritten 0x04 0).obj (0x2780 + x) 0x01 = 0 ∧ (d.vetoWritten 0x04 0).bit (0x2780 + x) 0x0C 5 = true := by
  rw [Dev.vetoWritten_global hnew]
  refine ⟨?_, ?_, ?_, fun k hk => Dev.globalDisarm_disarmed _ hk, fun x hx => Dev.globalDisarm_rails _ hx⟩
  all_goals rw [Dev.obj_globalDisarm _ (by decide) (by decide)]
  · rw [Dev.obj_setObj_sub _ _ (by decide) (by decide) (by decide), Dev.obj_setObj_sub _ _ (by decide) (by decide) (by decide), hnew]
  · exact Dev.obj_setObj_self ..
  · rw [Dev.obj_setObj_sub _ _ (by decide) (by decide) (by decide), Dev.obj_setObj_self]

/-- Settles O16: the lock is stored and does nothing more; a veto that sets global_disarm is stamped and counted, and everything behind
it disarms. -/
theorem guardianActs : Obligations.GuardianActs := by
  refine ⟨fun s t r h => ?_, fun s t f hop hidx hsub hctl hdata hveto h hclear => ?_⟩
  · have hrow : ∃ row, objRow 0x1800 0x02 = some row ∧ row.ty.isBlob = false ∧ row.ty.size = 1 ∧ row.acc ≠ .cmd := by decide
    obtain ⟨row, hr, hty, hsize, hacc⟩ := hrow
    have ha := State.answer_of_takes h (b := guardianBlock) (by decide) hr hsize hty
    rw [Dev.applied_value hr hacc hty (by decide), Dev.hooks_guardian _ _ _ (by decide), if_neg (by decide)] at ha
    obtain ⟨u, hnext, hregs, -⟩ := State.next_of_plain h ha
    have hobj : ∀ i w, u.dev.obj i w = (((s.devAt t).served (putFrame r 0x1800 0x02 1 (leBytes 1 1))).setObj 0x1800 0x02 1).obj i w :=
      fun i w => Dev.obj_congr hregs i w
    refine ⟨u, (State.putOne_requests s t r 0x1800 0x02 1 1).trans hnext, (hobj ..).trans (Dev.obj_setObj_self ..), fun i w hw hi => ?_⟩
    simp only [Bool.or_eq_false_iff, Bool.and_eq_false_imp, decide_eq_true_eq, decide_eq_false_iff_not] at hi
    rw [hobj, Dev.obj_setObj _ _ (by decide) hw, if_neg (fun hc => hi.2 hc.1 hc.2)]
    exact Dev.served_portObjs _ _ i w hw hi.1
  · have hrow : ∃ row, objRow 0x1800 0x04 = some row ∧ row.ty.isBlob = false ∧ row.acc ≠ .cmd := by decide
    obtain ⟨row, hr, hty, hacc⟩ := hrow
    have ha := State.answer_of_veto hop hidx hsub hctl hdata h
    have hkept : ∀ w < 256, ((s.devAt t).served (frameUnpad f)).obj 0x1800 w = (s.devAt t).obj 0x1800 w :=
      fun w hw => Dev.obj_served _ _ hw (arrivalObj_apart (by decide))
    have hnow : ((s.devAt t).served (frameUnpad f)).now = (s.devAt t).now := Dev.now_of_still (Dev.served_still ..)
    rw [Dev.applied_value hr hacc hty (by decide), Dev.hooks_guardian _ _ _ (by decide), if_pos rfl, hkept _ (by decide), hclear] at ha
    obtain ⟨u, hnext, hregs, -⟩ := State.next_of_plain h ha
    have hwritten : ∀ w < 256, ((((s.devAt t).served (frameUnpad f)).setObj 0x1800 0x04 1).writtenBy f.req.port 0x1800).obj 0x1800 w =
        if w = 0x04 then 1 else (s.devAt t).obj 0x1800 w := fun w hw => by
      rw [Dev.writtenBy_obj, Dev.obj_setObj _ _ (by decide) hw, hkept w hw]
      simp
    obtain ⟨hset, htime, hcount, hdisarmed, hrails⟩ := Dev.vetoWritten_effect (hwritten 0x04 (by decide))
    have hobj := fun i w => Dev.obj_congr hregs i w
    refine ⟨u, (exec_vetoWrite hop hveto).trans hnext, (hobj ..).trans hset, (hobj ..).trans (htime.trans ?_),
      (hobj ..).trans (hcount.trans (congrArg satInc32 (hwritten 0x09 (by decide)))), fun k hk => ?_, fun x hx => ?_⟩
    · exact hnow
    · unfold Dev.bit
      rw [hobj]
      exact hdisarmed k hk
    · unfold Dev.bit
      rw [hobj, hobj]
      exact hrails x hx

end Sys2Proof.Machine
end

section
/-! SUPPORT. A device reset (R456 to R458, R465, R486): what the objects read once its assertion has cleared the logic, and which causes
assert it. -/

namespace Sys2Proof.Machine

/-! ### The logic is reset -/

theorem Dev.obj_groupDefaults (d : Dev) {i u : Nat} (hu : u < 256) (hi : 0x1106 ≤ i) : d.groupDefaults.obj i u = d.obj i u := by
  unfold Dev.groupDefaults
  simp only [List.foldl_cons, List.foldl_nil]
  repeat rw [Dev.obj_setObj_idx _ _ (by decide) hu (by omega)]

theorem Dev.obj_stopPins (d : Dev) {i u : Nat} (hu : u < 256) (hi : i ≠ 0x28C8) : d.stopPins.obj i u = d.obj i u := by
  have hout : ∀ w : Nat, ¬(i = 0x28C8 ∧ u = w) := fun w hc => hi hc.1
  unfold Dev.stopPins Dev.protStatus
  dsimp only
  repeat rw [Dev.obj_setBit _ _ _ (by decide) hu (hout _)]

/-- An object that the straps and the pins do not set stands, or at its default, once the logic has been reset. -/
theorem Dev.obj_clearLogic (d : Dev) (kept : Nat → Bool) {i u : Nat} (hu : u < 256) (hi : 0x1106 ≤ i) (hp : i ≠ 0x28C8) :
    (d.clearLogic kept).obj i u = if kept (okey i u 0) then d.obj i u else objDefault i u 0 := by
  unfold Dev.clearLogic
  dsimp only
  rw [Dev.obj_stopPins _ hu hp, Dev.obj_groupDefaults _ hu hi]
  unfold Dev.obj Store.get
  dsimp only
  rw [Store.find_filter]
  by_cases hk : kept (okey i u 0) = true
  · simp only [hk, if_true]
  · simp only [hk, if_false, Bool.false_eq_true]
    exact keyDefault_okey i hu

/-- What a reset of the logic leaves beside the objects: nothing pending, no shot in flight, and the reset controller as it was. -/
def Dev.bare (d : Dev) : Store Pend × Store Occ × Rst × Nat := (d.irq, d.occs, d.rst, d.now)

theorem Dev.clearLogic_bare (d : Dev) (kept : Nat → Bool) : (d.clearLogic kept).bare = ([], [], d.rst, d.now) := by
  have hobj : ∀ (e : Dev) (i u v : Nat), (e.setObj i u v).bare = e.bare := fun e i u v => by simp [Dev.bare]
  have hgroup : ∀ e : Dev, e.groupDefaults.bare = e.bare := fun e => by
    unfold Dev.groupDefaults
    simp only [List.foldl_cons, List.foldl_nil, hobj]
  have hpins : ∀ e : Dev, e.stopPins.bare = e.bare := fun e => by
    unfold Dev.stopPins Dev.protStatus Dev.setBit
    simp only [hobj]
  unfold Dev.clearLogic
  rw [hpins, hgroup]
  rfl

theorem Dev.nightLook_bare (d : Dev) : d.nightLook.bare = d.bare := by
  unfold Dev.nightLook
  refine Dev.foldl_keeps Dev.bare (fun e w => ?_) _ d
  rfl

theorem Dev.nightLook_regs (d : Dev) : d.nightLook.regs = d.regs := by
  unfold Dev.nightLook
  refine Dev.foldl_keeps Dev.regs (fun e w => ?_) _ d
  rfl

/-! ### The history -/

/-- The entry that a reset writes (R486). -/
def Dev.historyEntry (d : Dev) (cause detail : Nat) : Nat :=
  cause * 2 ^ 28 + d.obj 0x2F00 0x01 * 2 ^ 24 + detail % 256 * 2 ^ 16 + d.obj 0x2F00 0x0B % 2 ^ 16

theorem Dev.obj_history (d : Dev) (cause detail : Nat) {i u : Nat} (hu : u ≤ 0x10) :
    (d.history cause detail).obj i u = if i = 0x2F00 ∧ u = 0x10 then d.historyEntry cause detail else d.obj i u := by
  have hmoved : ((List.range 15).foldl (fun (d : Dev) k => d.setObj 0x2F00 (0x1F - k) (d.obj 0x2F00 (0x1E - k))) d).obj i u = d.obj i u := by
    refine Dev.sameBut.foldl (P := fun _ w => decide (0x11 ≤ w)) (List.range 15) (Dev.sameBut_refl _ _)
      (fun e k hk he => he.setObj _ (by omega) ?_) i u (by omega) (by simp; omega)
    have := List.mem_range.mp hk
    exact decide_eq_true (by omega)
  unfold Dev.history
  dsimp only
  rw [Dev.obj_setObj _ _ (by decide) (by omega), hmoved]
  rfl

/-! ### An assertion -/

/-- The device whose logic an assertion clears: counted, with its history entry, its reset controller and its test port. -/
theorem Dev.assertReset_cleared (d : Dev) (cause detail target : Nat) : ∃ e : Dev,
    e.regs = ((d.inc 0x2F00 0x0B).history cause detail).regs ∧
    d.assertReset cause detail target =
      (let f := ((((e.clearLogic keptKey).setObj 0x2F00 0x01 (d.restartPhase target)).setBit 0x2F00 0x02 0 false).setBit 0x2F00 0x02 1 false)
       let f := f.setObj 0x2F10 0x06 (f.obj 0x2F10 0x06 % 2)
       (f.setObj 0x2F10 0x01 (if d.restartPhase target = 6 then d.obj 0x2F10 0x01 else 3)).nightLook) := by
  unfold Dev.assertReset
  dsimp only
  refine ⟨_, ?_, rfl⟩
  split <;> rfl

theorem Dev.assertReset_empty (d : Dev) (cause detail target : Nat) :
    (d.assertReset cause detail target).irq = [] ∧ (d.assertReset cause detail target).occs = [] := by
  have hobj : ∀ (e : Dev) (i u v : Nat), (e.setObj i u v).bare = e.bare := fun e i u v => by simp [Dev.bare]
  obtain ⟨e, -, h⟩ := d.assertReset_cleared cause detail target
  have hbare : (d.assertReset cause detail target).bare = ([], [], e.rst, e.now) := by
    rw [h]
    dsimp only
    rw [Dev.nightLook_bare, hobj, hobj, Dev.setBit, hobj, Dev.setBit, hobj, hobj, Dev.clearLogic_bare]
  simp only [Dev.bare, Prod.mk.injEq] at hbare
  obtain ⟨hirq, hoccs, -, -⟩ := hbare
  exact ⟨hirq, hoccs⟩

/-- The objects after an assertion: the phase is set, and what the reset does not keep stands at its default. -/
theorem Dev.obj_assertReset (d : Dev) (cause detail target : Nat) {i u : Nat} (hu : u < 256) (hi : 0x1106 ≤ i) (hp : i ≠ 0x28C8)
    (hpower : i ≠ 0x2F10) (hstatus : ¬(i = 0x2F00 ∧ u = 0x02)) :
    (d.assertReset cause detail target).obj i u =
      if i = 0x2F00 ∧ u = 0x01 then d.restartPhase target
      else if keptKey (okey i u 0) then ((d.inc 0x2F00 0x0B).history cause detail).obj i u else objDefault i u 0 := by
  obtain ⟨e, hregs, h⟩ := d.assertReset_cleared cause detail target
  rw [h]
  dsimp only
  rw [Dev.obj_congr (Dev.nightLook_regs _), Dev.obj_setObj_idx _ _ (by decide) hu hpower, Dev.obj_setObj_idx _ _ (by decide) hu hpower,
    Dev.obj_setBit _ _ _ (by decide) hu hstatus, Dev.obj_setBit _ _ _ (by decide) hu hstatus, Dev.obj_setObj _ _ (by decide) hu,
    Dev.obj_clearLogic _ _ hu hi hp, Dev.obj_congr hregs]

theorem Dev.assertReset_not_ready (d : Dev) (cause detail target : Nat) :
    (d.assertReset cause detail target).bit 0x2F00 0x02 0 = false := by
  obtain ⟨e, -, h⟩ := d.assertReset_cleared cause detail target
  rw [h]
  dsimp only
  have hpower : ∀ (f : Dev) (w v : Nat), w < 256 → (f.setObj 0x2F10 w v).bit 0x2F00 0x02 0 = f.bit 0x2F00 0x02 0 := fun f w v hw => by
    unfold Dev.bit
    rw [Dev.obj_setObj_idx _ _ hw (by decide) (by decide)]
  rw [show ∀ f : Dev, f.nightLook.bit 0x2F00 0x02 0 = f.bit 0x2F00 0x02 0 from
      fun f => congrArg (Nat.testBit · 0) (Dev.obj_congr (Dev.nightLook_regs f) ..),
    hpower _ _ _ (by decide), hpower _ _ _ (by decide), Dev.bit_setBit _ _ _ _ (by decide) (by decide), if_neg (by decide)]
  exact Dev.bit_setBit_self ..

/-- The sessions and the domains' states and armed bits by default. -/
theorem objDefault_sessions : ∀ p < 6, objDefault (0x1200 + p) 0x01 0 = 0 ∧ keptKey (okey (0x1200 + p) 0x01 0) = false ∧
    bornObjs (okey (0x1200 + p) 0x01 0) = false := by decide +kernel

theorem objDefault_domains : ∀ k < 2, ∀ u ∈ ([0x10, 0x11] : List Nat), objDefault (0x2180 + k) u 0 = 0 ∧
    keptKey (okey (0x2180 + k) u 0) = false ∧ bornObjs (okey (0x2180 + k) u 0) = false := by decide +kernel

/-- Every assertion leaves what `Dev.resetBy` says; what the device does then with its reset controller does not count. -/
theorem Dev.resetBy_of_assertReset {d v : Dev} {cause detail target : Nat} (hregs : v.regs = (d.assertReset cause detail target).regs)
    (hirq : v.irq = []) (hoccs : v.occs = []) : d.resetBy v cause detail target := by
  have hobj : ∀ i u, v.obj i u = (d.assertReset cause detail target).obj i u := fun i u => Dev.obj_congr hregs i u
  have hcount : v.obj 0x2F00 0x0B = satInc32 (d.obj 0x2F00 0x0B) := by
    rw [hobj, Dev.obj_assertReset _ _ _ _ (by decide) (by decide) (by decide) (by decide) (by decide), if_neg (by decide),
      if_pos (by decide), Dev.obj_history _ _ _ (by decide), if_neg (by decide), Dev.obj_inc _ (by decide) (by decide), if_pos ⟨rfl, rfl⟩]
  refine ⟨?_, ?_, hcount, ?_, hirq, hoccs, fun p hp => ?_, fun k hk => ⟨?_, ?_⟩⟩
  · rw [hobj, Dev.obj_assertReset _ _ _ _ (by decide) (by decide) (by decide) (by decide) (by decide), if_pos ⟨rfl, rfl⟩]
  · have hbit : v.bit 0x2F00 0x02 0 = false := by
      unfold Dev.bit
      rw [hobj]
      exact d.assertReset_not_ready cause detail target
    simp [Dev.ready, hbit]
  · rw [hcount, hobj, Dev.obj_assertReset _ _ _ _ (by decide) (by decide) (by decide) (by decide) (by decide), if_neg (by decide),
      if_pos (by decide), Dev.obj_history _ _ _ (by decide), if_pos ⟨rfl, rfl⟩, Dev.historyEntry, Dev.obj_inc _ (by decide) (by decide),
      if_neg (by decide), Dev.obj_inc _ (by decide) (by decide), if_pos ⟨rfl, rfl⟩]
  · obtain ⟨hdefault, hkept, -⟩ := objDefault_sessions p hp
    unfold Dev.sessOpen
    rw [hobj, Dev.obj_assertReset _ _ _ _ (by decide) (by omega) (by omega) (by omega) (by omega), if_neg (by omega), hkept, hdefault]
    rfl
  · obtain ⟨hdefault, hkept, -⟩ := objDefault_domains k hk 0x10 (by decide)
    unfold Dev.domState
    rw [hobj, Dev.obj_assertReset _ _ _ _ (by decide) (by omega) (by omega) (by omega) (by omega), if_neg (by omega), hkept, hdefault]
    rfl
  · obtain ⟨hdefault, hkept, -⟩ := objDefault_domains k hk 0x11 (by decide)
    unfold Dev.bit
    rw [hobj, Dev.obj_assertReset _ _ _ _ (by decide) (by omega) (by omega) (by omega) (by omega), if_neg (by omega), hkept, hdefault]
    simp

theorem Dev.assertReset_resetBy (d : Dev) (cause detail target : Nat) : d.resetBy (d.assertReset cause detail target) cause detail target :=
  Dev.resetBy_of_assertReset rfl (d.assertReset_empty ..).1 (d.assertReset_empty ..).2

/-- The pin that holds a reset counts for nothing else. -/
theorem Dev.resetBy.held {d u : Dev} {cause detail target : Nat} (h : d.resetBy u cause detail target) {r : Rst} (hr : r.heldPin = true) :
    d.resetBy { u with rst := r } cause detail target := by
  obtain ⟨hphase, -, hrest⟩ := h
  exact ⟨hphase, by simp [Dev.ready, hr], hrest⟩

/-- A reset counts from the objects of the reset controller and from its state. -/
theorem Dev.resetBy.earlier {d e v : Dev} {cause detail target : Nat} (h : e.resetBy v cause detail target)
    (hobj : ∀ w < 256, e.obj 0x2F00 w = d.obj 0x2F00 w) (hrst : e.rst = d.rst) : d.resetBy v cause detail target := by
  have hphase : e.restartPhase target = d.restartPhase target := by
    unfold Dev.restartPhase
    rw [hobj _ (by decide), hrst]
  unfold Dev.resetBy at h ⊢
  rwa [hphase, hobj _ (by decide), hobj _ (by decide)] at h

/-! ### The commands that assert it -/

/-- A command of the reset controller or of the firmware block asserts the reset of a device that has answered it. -/
theorem State.resetBy_of_command {s : State} {t : Nat} {r : Req} {i u n v : Nat} (h : s.takes t r i u n v = true) {b : ObjBlock}
    {row : ObjRow} (hb : blockOf i = some b) (hr : objRow i u = some row) (hn : row.ty.size = n) (hty : row.ty.isBlob = false)
    (hc : row.acc = .cmd) (hk : b.kind.actsLast = true) {cause detail target : Nat}
    (hact : ∀ e : Dev, ∃ g : Dev, e.command (oneWr r i u n v b) u (v % 256 ^ n) = g.assertReset cause detail target ∧ g.regs = e.regs ∧
      g.rst = e.rst) :
    ∃ w, onBoth s t (fun m d => d.putOne m r i u n v) = .next w ∧ (s.devAt t).resetBy w.dev cause detail target := by
  obtain ⟨e, hnext, hsame, hstill, -⟩ := State.requests_of_command h hb hr hn hty hc hk
  obtain ⟨g, hcommand, hregs, hrst⟩ := hact e
  refine ⟨_, (State.putOne_requests s t r i u n v).trans hnext, ?_⟩
  rw [hcommand]
  refine (g.assertReset_resetBy cause detail target).earlier (fun w hw => ?_) (hrst.trans (Dev.rst_of_still hstill))
  exact (Dev.obj_congr hregs ..).trans (hsame 0x2F00 w hw (arrivalObj_apart (.inr (by decide))))

/-- The blocks of the reset controller and of the firmware. -/
def resetBlock : ObjBlock := ⟨0x2F00, 1, .reset, resetRows⟩
def firmwareBlock : ObjBlock := ⟨0x1030, 1, .firmware, firmwareRows⟩

theorem State.deviceReset_resets {s : State} {t : Nat} {r : Req} (h : s.takes t r 0x2F00 0x07 1 1 = true) :
    ∃ u, exec (.deviceReset t r) s = .next u ∧ (s.devAt t).resetBy u.dev 5 r.port 2 := by
  have hrow : ∃ row, objRow 0x2F00 0x07 = some row ∧ row.ty.size = 1 ∧ row.ty.isBlob = false ∧ row.acc = .cmd := by decide
  obtain ⟨row, hr, hn, hty, hc⟩ := hrow
  exact State.resetBy_of_command h (b := resetBlock) (by decide) hr hn hty hc (by decide) (fun e => ⟨e, rfl, rfl, rfl⟩)

theorem Dev.bootWrite_kept (d : Dev) (selected previous trial attempts : Nat) :
    (d.bootWrite selected previous trial attempts).regs = d.regs ∧ (d.bootWrite selected previous trial attempts).rst = d.rst := by
  unfold Dev.bootWrite
  split <;> exact ⟨rfl, rfl⟩

theorem State.activate_resets {s : State} {t : Nat} {r : Req} (h : s.takes t r 0x1030 0x03 1 1 = true) :
    ∃ u, exec (.activate t r) s = .next u ∧ (s.devAt t).resetBy u.dev 5 (0x80 + r.port.val) 6 := by
  have hrow : ∃ row, objRow 0x1030 0x03 = some row ∧ row.ty.size = 1 ∧ row.ty.isBlob = false ∧ row.acc = .cmd := by decide
  obtain ⟨row, hr, hn, hty, hc⟩ := hrow
  have hkind : (oneWr r 0x1030 0x03 1 1 firmwareBlock).kind = .firmware := rfl
  have hport : (oneWr r 0x1030 0x03 1 1 firmwareBlock).port = r.port := rfl
  exact State.resetBy_of_command h (b := firmwareBlock) (by decide) hr hn hty hc (by decide)
    (fun e => ⟨e.bootWrite (1 - e.rst.bootBank) e.rst.bootBank 1 0,
      by simp only [Dev.command, Dev.deviceCommand, hkind, hport, Dev.activate],
      Dev.bootWrite_kept ..⟩)

/-! ### Power-on -/

/-- The reset controller at power-on. -/
def Dev.powerOnRst (d : Dev) : Rst :=
  { heldPower := true, heldPin := d.rst.heldPin, pinsOut := false, optTaken := false, tbStopped := true }

/-- The store's allowances at power-on. -/
def Dev.powerOnStore (d : Dev) : Dev := { d with nv := { d.nv with tokP := 1, tokL := 1, accP := 0, accL := 0, importsSincePower := 0 } }

/-- The device whose objects power-on sets: its logic is cleared, the counter stands at 0 and the supply holds the reset. -/
theorem Dev.powerOn_cleared (d : Dev) : ∃ e : Dev, e.rst.heldPower = true ∧ e.now = 0 ∧ e.irq = [] ∧ e.occs = [] ∧
    (∀ i w, w < 256 → 0x1106 ≤ i → i ≠ 0x28C8 → bornObjs (okey i w 0) = false → e.obj i w = objDefault i w 0) ∧
    d.powerOn =
      ((((e.setObj 0x2F00 0x01 1).setObj 0x2F00 0x0B 1).setObj 0x2F00 0x10 0x10000001).setObj 0x2F10 0x06 1).setObj 0x2F10 0x01 3 := by
  obtain ⟨c, hbare, hobj, hon⟩ : ∃ c : Dev, c.bare = ([], [], d.powerOnRst, c.now) ∧
      (∀ i w, w < 256 → 0x1106 ≤ i → i ≠ 0x28C8 → bornObjs (okey i w 0) = false → c.obj i w = objDefault i w 0) ∧
      d.powerOn = (((((c.restartCounter.powerOnStore).setObj 0x2F00 0x01 1).setObj 0x2F00 0x0B 1).setObj
        0x2F00 0x10 0x10000001).setObj 0x2F10 0x06 1).setObj 0x2F10 0x01 3 := by
    refine ⟨Dev.clearLogic { d with tb := {}, rst := d.powerOnRst, night := [], tap := {} } bornObjs, ?_, fun i w hw hi hp hborn => ?_, rfl⟩
    · have hbare := Dev.clearLogic_bare { d with tb := {}, rst := d.powerOnRst, night := [], tap := {} } bornObjs
      simp only [Dev.bare, Prod.mk.injEq] at hbare ⊢
      obtain ⟨hirq, hoccs, hrst, -⟩ := hbare
      exact ⟨hirq, hoccs, hrst, trivial⟩
    · rw [Dev.obj_clearLogic _ _ hw hi hp, hborn]
      rfl
  simp only [Dev.bare, Prod.mk.injEq] at hbare
  obtain ⟨hirq, hoccs, hrst, -⟩ := hbare
  refine ⟨c.restartCounter.powerOnStore, ?_, rfl, hirq, hoccs, fun i w hw hi hp hborn => ?_, hon⟩
  · exact congrArg Rst.heldPower hrst
  · exact (Dev.obj_congr rfl ..).trans (hobj i w hw hi hp hborn)

/-- What power-on leaves. -/
theorem Dev.powerOn_leaves (d : Dev) : let u := d.powerOn
    u.obj 0x2F00 0x01 = 1 ∧ u.obj 0x2F00 0x0B = 1 ∧ u.obj 0x2F00 0x10 = 0x10000001 ∧ u.obj 0x2F10 0x01 = 3 ∧ u.bit 0x2F10 0x06 0 = true ∧
    u.rst.heldPower = true ∧ u.now = 0 ∧ u.irq = [] ∧ u.occs = [] ∧ (∀ p < 6, u.sessOpen p = false) ∧
    ∀ k < 2, u.domState k = 0 ∧ u.bit (0x2180 + k) 0x11 0 = false := by
  obtain ⟨e, hrst, hnow, hirq, hoccs, hobj, hu⟩ := d.powerOn_cleared
  intro u
  have hset : ∀ i w, w < 256 → u.obj i w =
      if i = 0x2F10 ∧ w = 0x01 then 3 else if i = 0x2F10 ∧ w = 0x06 then 1 else if i = 0x2F00 ∧ w = 0x10 then 0x10000001
      else if i = 0x2F00 ∧ w = 0x0B then 1 else if i = 0x2F00 ∧ w = 0x01 then 1 else e.obj i w := by
    intro i w hw
    rw [show u = _ from hu, Dev.obj_setObj _ _ (by decide) hw, Dev.obj_setObj _ _ (by decide) hw, Dev.obj_setObj _ _ (by decide) hw,
      Dev.obj_setObj _ _ (by decide) hw, Dev.obj_setObj _ _ (by decide) hw]
  have hrest : u.bare = e.bare := by
    rw [show u = _ from hu]
    simp [Dev.bare]
  simp only [Dev.bare, Prod.mk.injEq] at hrest
  obtain ⟨hirq', hoccs', hrst', hnow'⟩ := hrest
  have hcleared : ∀ i w, w < 256 → 0x1106 ≤ i → i < 0x28C8 → bornObjs (okey i w 0) = false → u.obj i w = objDefault i w 0 := by
    intro i w hw hi hlow hborn
    rw [hset i w hw, if_neg (by omega), if_neg (by omega), if_neg (by omega), if_neg (by omega), if_neg (by omega)]
    exact hobj i w hw hi (by omega) hborn
  refine ⟨hset 0x2F00 0x01 (by decide), hset 0x2F00 0x0B (by decide), hset 0x2F00 0x10 (by decide), hset 0x2F10 0x01 (by decide),
    by simp [Dev.bit, hset], hrst' ▸ hrst, hnow'.trans hnow, hirq'.trans hirq, hoccs'.trans hoccs,
    fun p hp => ?_, fun k hk => ⟨?_, ?_⟩⟩
  · obtain ⟨hdefault, -, hborn⟩ := objDefault_sessions p hp
    unfold Dev.sessOpen
    rw [hcleared _ _ (by decide) (by omega) (by omega) hborn, hdefault]
    rfl
  · obtain ⟨hdefault, -, hborn⟩ := objDefault_domains k hk 0x10 (by decide)
    exact (hcleared _ _ (by decide) (by omega) (by omega) hborn).trans hdefault
  · obtain ⟨hdefault, -, hborn⟩ := objDefault_domains k hk 0x11 (by decide)
    unfold Dev.bit
    rw [hcleared _ _ (by decide) (by omega) (by omega) hborn, hdefault]
    simp

/-- Settles O54: every cause but power-on goes through the one assertion, which clears the logic; power-on clears it with the domains'
own part. -/
theorem resetsAndPowerOn : Obligations.ResetsAndPowerOn := by
  refine ⟨⟨fun s t hpin => ?_, fun s t r h => State.deviceReset_resets h, fun s t r h => State.activate_resets h, fun s t k hk hon => ?_,
    fun s t hrun hdown => ?_⟩, fun s t => ?_, fun s t => ⟨_, rfl, rfl, rfl⟩, fun s t => ⟨_, rfl, rfl, rfl⟩⟩
  · have hpin' : (s.devAt t).rst.heldPin = false := hpin
    have hdev : (s.devAt t).resetN =
        { (s.devAt t).assertReset 3 0 2 with rst := { ((s.devAt t).assertReset 3 0 2).rst with heldPin := true } } := by
      simp [Dev.resetN, hpin']
    refine ⟨{ s with dev := (s.devAt t).resetN }, rfl, ?_, ?_⟩
    · exact hdev.symm ▸ Dev.resetBy.held (Dev.assertReset_resetBy ..) rfl
    · rw [hdev]
  · have hdev : (s.devAt t).brownOut k = (s.devAt t).assertReset 2 k 2 := by
      rcases hk with hk | hk <;> rw [hk] at hon ⊢ <;> simp [Dev.brownOut, hon]
    refine ⟨{ s with dev := (s.devAt t).brownOut k }, rfl, ?_⟩
    rw [hdev]
    exact Dev.assertReset_resetBy ..
  · have hdev : (s.devAt t).watchdog 0 = (s.devAt t).assertReset 6 0x80 2 := by simp [Dev.watchdog, Dev.coreRestart, hrun, hdown]
    refine ⟨{ s with dev := (s.devAt t).watchdog 0 }, rfl, ?_⟩
    rw [hdev]
    exact Dev.assertReset_resetBy ..
  · obtain ⟨hphase, hcount, hentry, hon, hsupply, hheld, hnow, hirq, hoccs, hsess, hdoms⟩ := (s.devAt t).powerOn_leaves
    exact ⟨{ s with dev := (s.devAt t).powerOn }, rfl, hphase, hcount, hentry, hon, hsupply, hheld, by simp [Dev.ready, hheld], hnow, hirq,
      hoccs, hsess, hdoms⟩

end Sys2Proof.Machine
end

section
/-! SUPPORT. What the ports hold beside their objects: their records, and the messages that they have sent. -/

namespace Sys2Proof.Machine

theorem Dev.port_setPort (d : Dev) (p q : Nat) (r : Port) : (d.setPort p r).port q = if q = p then r else d.port q := Store.get_put ..

@[simp] theorem Dev.port_setPort_self (d : Dev) (p : Nat) (r : Port) : (d.setPort p r).port p = r := by simp [Dev.port_setPort]

/-- The records of the ports, and the messages on their way out. -/
def Dev.traffic (d : Dev) : Store Port × List Msg := (d.ports, d.sent)

@[simp] theorem Dev.setObj_traffic (d : Dev) (i u v : Nat) : (d.setObj i u v).traffic = d.traffic := by simp [Dev.traffic]
@[simp] theorem Dev.inc_traffic (d : Dev) (i u : Nat) : (d.inc i u).traffic = d.traffic := by simp [Dev.traffic]
@[simp] theorem Dev.setPend_traffic (d : Dev) (src tgt : Nat) (q : Pend) : (d.setPend src tgt q).traffic = d.traffic := by
  simp [Dev.traffic]

@[simp] theorem Dev.raise_traffic (d : Dev) (x : Nat) : (d.raise x).traffic = d.traffic := by
  unfold Dev.raise Dev.raiseAt
  dsimp only
  repeat' split
  all_goals rfl

@[simp] theorem Dev.raiseIf_traffic (d : Dev) (c : Bool) (x : Nat) : (d.raiseIf c x).traffic = d.traffic := by
  unfold Dev.raiseIf
  split <;> simp

@[simp] theorem Dev.pulse_traffic (d : Dev) (n : Nat) : (d.pulse n).traffic = d.traffic := by
  unfold Dev.pulse Dev.pulseAt
  split <;> rfl

theorem Dev.port_of_traffic {d e : Dev} (h : d.traffic = e.traffic) (p : Nat) : d.port p = e.port p :=
  congrArg (fun x : Store Port × List Msg => Store.get (fun _ => ({} : Port)) x.1 p) h

theorem Dev.sent_of_traffic {d e : Dev} (h : d.traffic = e.traffic) : d.sent = e.sent := congrArg (·.2) h

/-! ### The receive buffer of P0 -/

/-- The receive buffer of P0 and its two error bits. -/
def Dev.received (d : Dev) : List (List Byte) × Bool × Bool := ((d.port 0).rx, (d.port 0).crcError, (d.port 0).rxDropped)

theorem Dev.received_of_traffic {d e : Dev} (h : d.traffic = e.traffic) : d.received = e.received := by
  unfold Dev.received
  rw [Dev.port_of_traffic h]

/-- A record that agrees with its port's on the buffer and the error bits changes none of them. -/
theorem Dev.setPort_received (d : Dev) (p : Nat) {r : Port}
    (h : (r.rx, r.crcError, r.rxDropped) = ((d.port p).rx, (d.port p).crcError, (d.port p).rxDropped)) :
    (d.setPort p r).received = d.received := by
  unfold Dev.received
  rw [Dev.port_setPort]
  split
  · next hp =>
    rw [hp]
    exact h
  · rfl

theorem Dev.post_received (d : Dev) (m : Msg) : (d.post m).received = d.received := by
  unfold Dev.post Dev.transmit Dev.resolveHop
  dsimp only
  split
  · exact Dev.setPort_received d 0 rfl
  · split
    · split
      · rfl
      · exact Dev.setPort_received _ m.port rfl
    · rfl

theorem Dev.postFirst_received (d : Dev) (p : Nat) (ms : List Msg) : (d.postFirst p ms).received = d.received := by
  unfold Dev.postFirst
  split
  · exact Dev.setPort_received d 0 rfl
  · exact Dev.foldl_keeps Dev.received (fun e m => e.post_received m) ms d

theorem Dev.sendBatch_received (d : Dev) (n : Nat) (first : Bool) : (d.sendBatch n first).received = d.received := by
  unfold Dev.sendBatch
  dsimp only
  split
  · exact Dev.setPort_received d n rfl
  · rw [Dev.received_of_traffic (Dev.pulse_traffic ..), Dev.received_of_traffic (Dev.inc_traffic ..)]
    refine (Dev.foldl_keeps Dev.received (fun e x => ?_) _ _).trans ?_
    · split <;> exact Dev.received_of_traffic (Dev.setPend_traffic ..)
    · split
      · exact (Dev.postFirst_received ..).trans (Dev.setPort_received d n rfl)
      · exact (Dev.foldl_keeps Dev.received (fun e m => e.post_received m) _ _).trans (Dev.setPort_received d n rfl)

theorem Dev.frameIn_received (d : Dev) (p : Nat) (peer : Bool) : (d.frameIn p peer).received = d.received := by
  have hcount : (d.inc (0x1100 + p) 0x04).received = d.received := Dev.received_of_traffic (Dev.inc_traffic ..)
  have hdoze : ∀ e : Dev, (e.leaveDoze p).received = e.received := by
    intro e
    have hstate : ((e.setObj (0x1200 + p) 0x01 1).setPort p { (e.port p) with lastFrame := e.now }).received = e.received := by
      have hport : (e.setObj (0x1200 + p) 0x01 1).port p = e.port p := Dev.port_of_traffic (Dev.setObj_traffic ..) p
      rw [Dev.setPort_received _ p (by rw [hport]), Dev.received_of_traffic (Dev.setObj_traffic ..)]
    unfold Dev.leaveDoze
    dsimp only
    split
    · split
      · exact (Dev.sendBatch_received ..).trans hstate
      · exact hstate
    · rfl
  unfold Dev.frameIn Dev.validFrame
  dsimp only
  split
  · rw [hdoze, Dev.setPort_received _ p (by rfl), hcount]
  · exact hcount

/-! ### SPI transactions -/

/-- What the SPI target sends in a transaction is the newest message. -/
theorem Dev.spiSent_rest (d : Dev) (command : Nat) (out : List Byte) :
    (d.spiSent command out).regs = d.regs ∧ (d.spiSent command out).ports = d.ports ∧
      ∃ q ∈ (d.spiSent command out).sent, q.port = 0 ∧ q.data = BitVec.ofNat 8 d.spiStatus :: out :=
  ⟨rfl, rfl, _, List.mem_cons_self .., rfl, rfl⟩

/-- WRITE_FRAME of an intact message. -/
theorem Dev.writeFrame_intact {d : Dev} {bytes : List Byte} (hhears : d.hears 0 = true) (hfree : (d.port 0).rx.length < 4)
    (hn : 8 ≤ fieldOf bytes 0 2) (hlen : fieldOf bytes 0 2 + 6 ≤ bytes.length)
    (hcrc : fieldOf bytes (fieldOf bytes 0 2 + 2) 4 = crc32 (bytes.take (fieldOf bytes 0 2 + 2))) :
    (d.writeFrame bytes false).received = ((d.port 0).rx ++ [(bytes.drop 2).take (fieldOf bytes 0 2)], false, false) ∧
      d.sameBut (d.writeFrame bytes false) portObjs := by
  have hdev : d.writeFrame bytes false = ((d.spiSent 0xA1 []).setPort 0 { (d.port 0) with
      rx := (d.port 0).rx ++ [(bytes.drop 2).take (fieldOf bytes 0 2)], crcError := false, rxDropped := false }).frameIn 0 true := by
    have hport : (d.spiSent 0xA1 []).port 0 = d.port 0 := rfl
    unfold Dev.writeFrame
    simp only [hhears, hport, hcrc, Nat.not_le.mpr hfree, Nat.not_lt.mpr hlen, Nat.not_lt.mpr hn, if_false, decide_false,
      Bool.not_true, Bool.or_self, Bool.false_eq_true, ne_eq, not_true_eq_false]
  rw [hdev]
  refine ⟨?_, ?_⟩
  · rw [Dev.frameIn_received]
    simp [Dev.received]
  · exact Dev.sameBut.trans (Dev.sameBut_of_regs rfl) (Dev.frameIn_portObjs _ 0 true (by decide))

/-- WRITE_FRAME of a message whose CRC is wrong. -/
theorem Dev.writeFrame_broken {d : Dev} {bytes : List Byte} (hhears : d.hears 0 = true) (hfree : (d.port 0).rx.length < 4)
    (hlen : fieldOf bytes 0 2 + 6 ≤ bytes.length)
    (hcrc : fieldOf bytes (fieldOf bytes 0 2 + 2) 4 ≠ crc32 (bytes.take (fieldOf bytes 0 2 + 2))) :
    d.writeFrame bytes false = (d.spiSent 0xA1 []).rxDiscard true false := by
  have hport : (d.spiSent 0xA1 []).port 0 = d.port 0 := rfl
  unfold Dev.writeFrame
  simp only [hhears, hport, hcrc, Nat.not_le.mpr hfree, Nat.not_lt.mpr hlen, if_false, decide_false, Bool.not_true, Bool.or_self,
    Bool.false_eq_true, ne_eq, not_false_eq_true, if_true]

theorem Dev.rxDiscard_effect (d : Dev) (crc dropped : Bool) :
    (d.rxDiscard crc dropped).received = ((d.port 0).rx, crc, dropped) ∧
      (d.rxDiscard crc dropped).obj 0x1100 0x05 = satInc32 (d.obj 0x1100 0x05) ∧
      d.sameBut (d.rxDiscard crc dropped) (fun i w => decide (i = 0x1100) && decide (w = 0x05)) := by
  unfold Dev.rxDiscard
  refine ⟨?_, ?_, ?_⟩
  · rw [Dev.received_of_traffic (Dev.inc_traffic ..)]
    simp [Dev.received]
  · rw [Dev.obj_inc _ (by decide) (by decide), if_pos ⟨rfl, rfl⟩]
    rfl
  · exact Dev.sameBut.inc (Dev.sameBut_of_regs rfl) (by decide) (by simp)

/-! ### A message leaves the read-out queue -/

theorem Dev.msgRead_notify (d : Dev) {m : Msg} (h : m.op ≠ 0x8A) : (d.msgRead m).regs = d.regs ∧ (d.msgRead m).traffic = d.traffic := by
  have hread : ∀ (e : Dev) (src : Nat), (e.readOut src).regs = e.regs ∧ (e.readOut src).traffic = e.traffic := fun e src => by
    unfold Dev.readOut
    dsimp only
    split <;> exact ⟨rfl, rfl⟩
  unfold Dev.msgRead
  split
  · exact ⟨Dev.foldl_keeps Dev.regs (fun e k => (hread e _).1) _ d, Dev.foldl_keeps Dev.traffic (fun e k => (hread e _).2) _ d⟩
  · rw [if_neg (fun hc => h hc.1)]
    exact ⟨rfl, rfl⟩

/-- Entering doze changes neither the read-out queue nor what has been sent. -/
theorem Dev.enterDoze_keeps (d : Dev) (p : Nat) :
    ((d.enterDoze p).port 0).readout = (d.port 0).readout ∧ (d.enterDoze p).sent = d.sent := by
  unfold Dev.enterDoze
  split
  · refine ⟨?_, by simp⟩
    rw [Dev.port_setPort]
    split
    · next hp => rw [hp]
    · exact congrArg Port.readout (Dev.port_of_traffic (Dev.setObj_traffic ..) 0)
  · exact ⟨rfl, rfl⟩

theorem Dev.msgRead_keeps (d : Dev) (m : Msg) :
    ((d.msgRead m).port 0).readout = (d.port 0).readout ∧ (d.msgRead m).sent = d.sent := by
  by_cases hop : m.op = 0x8A
  · unfold Dev.msgRead
    rw [if_neg (by omega)]
    split
    · exact d.enterDoze_keeps 0
    · exact ⟨rfl, rfl⟩
  · obtain ⟨-, htraffic⟩ := d.msgRead_notify hop
    exact ⟨congrArg Port.readout (Dev.port_of_traffic htraffic 0), Dev.sent_of_traffic htraffic⟩

/-- The response to DOZE that the host has read puts P0 into doze (R88). -/
theorem Dev.msgRead_doze {d : Dev} {m : Msg} (hop : m.op = 0x8A) (hctl : m.ctl = 0) (hstate : d.obj 0x1200 0x01 = 1) :
    (d.msgRead m).obj 0x1200 0x01 = 2 := by
  have hdev : d.msgRead m = (d.setObj 0x1200 0x01 2).setPort 0 { (d.port 0) with dozeSince := d.now } := by
    simp [Dev.msgRead, hop, hctl, Dev.enterDoze, hstate]
  rw [hdev]
  exact (Dev.obj_congr (Dev.setPort_regs ..) ..).trans (Dev.obj_setObj_self ..)

/-- READ_FRAME that clocks a whole message out. -/
theorem Dev.readFrame_whole {d : Dev} {clocks : Nat} {m : Msg} {rest : List Msg} (hhears : d.hears 0 = true)
    (hqueue : (d.port 0).readout = m :: rest) (hlen : (spiFrame (some m)).length ≤ clocks) :
    d.readFrame clocks = ((d.spiSent 0xA2 (spiFrame (some m) ++ List.replicate (clocks - (spiFrame (some m)).length) 0)).setPort 0
      { (d.port 0) with readout := rest }).msgRead m := by
  unfold Dev.readFrame
  simp only [hhears, Bool.not_true, Bool.false_eq_true, if_false, hqueue, List.head?_cons, List.take_of_length_le hlen, hlen, if_true]
  rfl

/-! ### CAN and Ethernet -/

/-- What is discarded counts twice: in a counter of its kind and in rx_discarded. -/
theorem Dev.discard_counts (d : Dev) {i c : Nat} (hc : c < 256) (hne : c ≠ 0x05) :
    ((d.inc i c).inc i 0x05).obj i c = satInc32 (d.obj i c) ∧ ((d.inc i c).inc i 0x05).obj i 0x05 = satInc32 (d.obj i 0x05) ∧
      d.sameBut ((d.inc i c).inc i 0x05) (fun j w => decide (j = i) && (decide (w = c) || decide (w = 0x05))) := by
  refine ⟨?_, ?_, ?_⟩
  · rw [Dev.obj_inc _ (by decide) hc, if_neg (fun h => hne h.2), Dev.obj_inc _ hc hc, if_pos ⟨rfl, rfl⟩]
  · rw [Dev.obj_inc _ (by decide) (by decide), if_pos ⟨rfl, rfl⟩, Dev.obj_inc _ hc (by decide), if_neg (fun h => hne h.2.symm)]
  · have hfirst := (Dev.sameBut_refl d (fun j w => decide (j = i) && (decide (w = c) || decide (w = 0x05)))).inc (i := i) hc (by simp)
    exact hfirst.inc (by decide) (by simp)

theorem Dev.netReply_last (d : Dev) {p : Nat} (hp : p ≠ 0) (kind ctl : Nat) (data : List Byte) :
    ∃ m, (d.netReply p kind ctl data).lastSent p = some m ∧ m.port = p ∧ m.data = data := by
  unfold Dev.lastSent
  rw [if_neg hp]
  exact ⟨_, rfl, rfl, rfl⟩

/-- Settles O15: each event is one branch of its function, and what comes behind it leaves the buffer and the queue of P0 alone. -/
theorem portsCarryMessages : Obligations.PortsCarryMessages := by
  refine ⟨⟨fun s t bytes hhears hfree hn hlen hcrc => ?_, fun s t bytes hhears hfree hlen hcrc => ?_,
    fun s t clocks m rest hhears hqueue hlen => ?_, fun s t hhears => ?_⟩, fun s t p h1 h3 hhears => ⟨?_, ?_⟩, fun s t p hoff => ?_,
    fun s t p h4 hhears => ⟨?_, ?_, fun data => ?_⟩, fun s t p h4 => ⟨?_, fun hon => ?_⟩⟩
  · obtain ⟨hreceived, hsame⟩ := Dev.writeFrame_intact hhears hfree hn hlen hcrc
    simp only [Dev.received, Prod.mk.injEq] at hreceived
    obtain ⟨hrx, hcrcError, hdropped⟩ := hreceived
    exact ⟨{ s with dev := (s.devAt t).writeFrame bytes false }, rfl, hrx, hcrcError, hdropped, hsame⟩
  · have hdev := Dev.writeFrame_broken hhears hfree hlen hcrc
    obtain ⟨hreceived, hcount, hsame⟩ := ((s.devAt t).spiSent 0xA1 []).rxDiscard_effect true false
    simp only [Dev.received, Prod.mk.injEq] at hreceived
    obtain ⟨hrx, hcrcError, -⟩ := hreceived
    refine ⟨{ s with dev := (s.devAt t).writeFrame bytes false }, rfl, ?_⟩
    dsimp only
    rw [hdev]
    exact ⟨hrx, hcrcError, hcount, hsame⟩
  · have hdev := Dev.readFrame_whole hhears hqueue hlen
    refine ⟨{ s with dev := (s.devAt t).readFrame clocks }, rfl, ?_⟩
    dsimp only
    rw [hdev]
    obtain ⟨hreadout, hsent⟩ := Dev.msgRead_keeps (((s.devAt t).spiSent 0xA2 (spiFrame (some m) ++
      List.replicate (clocks - (spiFrame (some m)).length) 0)).setPort 0 { ((s.devAt t).port 0) with readout := rest }) m
    refine ⟨?_, fun hop => ?_, fun hop hctl hstate => Dev.msgRead_doze hop hctl hstate, ?_⟩
    · rw [hreadout, Dev.port_setPort_self]
    · exact (Dev.msgRead_notify _ hop).1
    · rw [hsent]
      exact ⟨_, List.mem_cons_self .., rfl, rfl⟩
  · have hdev : (s.devAt t).spiStatusRead =
        ((s.devAt t).spiSent 0xA3 []).setPort 0 { ((s.devAt t).port 0) with crcError := false, rxDropped := false } := by
      unfold Dev.spiStatusRead
      simp only [hhears, Bool.not_true, Bool.false_eq_true, if_false]
      rfl
    refine ⟨{ s with dev := (s.devAt t).spiStatusRead }, rfl, ?_⟩
    dsimp only
    rw [hdev, Dev.port_setPort_self]
    exact ⟨rfl, rfl, rfl, _, List.mem_cons_self .., rfl, rfl⟩
  · have hdev : (s.devAt t).classicalDiscard p = ((s.devAt t).inc (0x1100 + p.val) 0x16).inc (0x1100 + p.val) 0x05 := by
      simp [Dev.classicalDiscard, h1, h3, hhears]
    refine ⟨{ s with dev := (s.devAt t).classicalDiscard p }, rfl, ?_⟩
    rw [hdev]
    exact (s.devAt t).discard_counts (by decide) (by decide)
  · have hdev : (s.devAt t).busOff p =
        ((s.devAt t).setPort p { ((s.devAt t).port p) with busOff := true }).inc (0x1100 + p.val) 0x17 := by
      simp [Dev.busOff, h1, h3, hhears]
    refine ⟨{ s with dev := (s.devAt t).busOff p }, rfl, ?_⟩
    dsimp only
    rw [hdev]
    refine ⟨?_, ?_, ?_⟩
    · have hoff : ((((s.devAt t).setPort p { ((s.devAt t).port p) with busOff := true }).inc (0x1100 + p.val) 0x17).port p).busOff = true := by
        rw [Dev.port_of_traffic (Dev.inc_traffic ..), Dev.port_setPort_self]
      have hlow : ¬4 ≤ p.val := by omega
      have hfirst : p.val ≠ 0 := by omega
      simp [Dev.portTalks, hoff, hlow, hfirst]
    · rw [Dev.obj_inc _ (by decide) (by decide), if_pos ⟨rfl, rfl⟩]
      rfl
    · exact Dev.sameBut.inc (Dev.sameBut_of_regs rfl) (by decide) (by simp)
  · have hdev : (s.devAt t).busOn p = (s.devAt t).setPort p { ((s.devAt t).port p) with busOff := false } := by
      have hoff' : ((s.devAt t).port p).busOff = true := hoff
      simp [Dev.busOn, hoff']
    refine ⟨{ s with dev := (s.devAt t).busOn p }, rfl, ?_, ?_⟩
    · rw [hdev, Dev.port_setPort_self]
    · rw [hdev]
      rfl
  · have hdev : (s.devAt t).fragmentDiscard p = ((s.devAt t).inc (0x1100 + p.val) 0x17).inc (0x1100 + p.val) 0x05 := by
      simp [Dev.fragmentDiscard, h4, hhears]
    refine ⟨{ s with dev := (s.devAt t).fragmentDiscard p }, rfl, ?_⟩
    rw [hdev]
    exact (s.devAt t).discard_counts (by decide) (by decide)
  · have hdev : (s.devAt t).arpRequest p ((s.devAt t).inForce p 0) = (s.devAt t).netReply p 0x0806 2
        ((s.devAt t).blobBytes (0x1100 + p.val) 0x15 0 6 ++ (leBytes 4 ((s.devAt t).inForce p 0)).reverse) := by
      simp [Dev.arpRequest, h4, hhears]
    obtain ⟨m, hlast, hport, hdata⟩ := (s.devAt t).netReply_last (p := p) (by omega) 0x0806 2
      ((s.devAt t).blobBytes (0x1100 + p.val) 0x15 0 6 ++ (leBytes 4 ((s.devAt t).inForce p 0)).reverse)
    refine ⟨{ s with dev := (s.devAt t).arpRequest p ((s.devAt t).inForce p 0) }, m, rfl, ?_⟩
    dsimp only
    rw [hdev]
    exact ⟨hlast, hport, hdata, rfl⟩
  · have hdev : (s.devAt t).icmpEcho p ((s.devAt t).inForce p 0) data = (s.devAt t).netReply p 1 0 data := by
      simp [Dev.icmpEcho, h4, hhears]
    obtain ⟨m, hlast, hport, hdata⟩ := (s.devAt t).netReply_last (p := p) (by omega) 1 0 data
    refine ⟨{ s with dev := (s.devAt t).icmpEcho p ((s.devAt t).inForce p 0) data }, m, rfl, ?_⟩
    dsimp only
    rw [hdev]
    exact ⟨hlast, hport, hdata, rfl⟩
  · have hdev : (s.devAt t).linkFall p =
        ((s.devAt t).setPort p { ((s.devAt t).port p) with linkPhys := false }).raiseIf ((s.devAt t).linkUp p) 120 := by
      simp [Dev.linkFall, h4]
    refine ⟨{ s with dev := (s.devAt t).linkFall p }, rfl, ?_⟩
    dsimp only
    rw [hdev]
    refine ⟨?_, Dev.raiseIf_regs ..⟩
    rw [Dev.port_of_traffic (Dev.raiseIf_traffic ..), Dev.port_setPort_self]
  · have hdev : (s.devAt t).linkRise p = (s.devAt t).setPort p { ((s.devAt t).port p) with linkPhys := true } := by
      simp [Dev.linkRise, h4, hon]
    refine ⟨{ s with dev := (s.devAt t).linkRise p }, rfl, ?_⟩
    dsimp only
    rw [hdev, Dev.port_setPort_self]
    exact ⟨rfl, rfl⟩

end Sys2Proof.Machine
end

section
/-! SUPPORT. Cyclic frames and notifications (R80 to R86): what a trigger builds and counts, what goes out on a port, and the messages of
a batch. -/

namespace Sys2Proof.Machine

/-! ### Messages on their way out -/

/-- What a port posts is its newest message, but for the hop and the checksum that a datagram gets (R55). -/
theorem Dev.lastSent_post_with (d : Dev) (m : Msg) : ∃ hop sum, (d.post m).lastSent m.port = some { m with hop := hop, sum := sum } := by
  unfold Dev.post Dev.lastSent
  by_cases h : m.port = 0
  · refine ⟨m.hop, m.sum, ?_⟩
    rw [if_pos h, if_pos h, Dev.port_setPort_self]
    exact List.getLast?_concat ..
  · rw [if_neg h, if_neg h]
    unfold Dev.transmit
    split
    · exact ⟨_, _, rfl⟩
    · exact ⟨m.hop, m.sum, rfl⟩

/-- The messages of a port on their way out. -/
def Dev.outgoing (d : Dev) (p : Nat) : List Msg := if p = 0 then (d.port 0).readout else d.sent

theorem Dev.mem_outgoing_of_last {d : Dev} {p : Nat} {m : Msg} (h : d.lastSent p = some m) : m ∈ d.outgoing p := by
  unfold Dev.lastSent at h
  unfold Dev.outgoing
  split
  · next hp =>
    rw [if_pos hp] at h
    exact List.mem_of_getLast? h
  · next hp =>
    rw [if_neg hp] at h
    exact List.mem_of_head? h

/-- Of messages that are posted one behind the other, the last is its port's newest one. -/
theorem Dev.foldl_post_last (d : Dev) {ms : List Msg} (hne : ms ≠ []) :
    ∃ m ∈ ms, ∃ hop sum, (ms.foldl (fun (d : Dev) m => d.post m) d).lastSent m.port = some { m with hop := hop, sum := sum } := by
  obtain ⟨init, m, rfl⟩ : ∃ init m, ms = init ++ [m] := ⟨ms.dropLast, ms.getLast hne, (List.dropLast_append_getLast hne).symm⟩
  obtain ⟨hop, sum, h⟩ := Dev.lastSent_post_with (init.foldl (fun (d : Dev) m => d.post m) d) m
  refine ⟨m, by simp, hop, sum, ?_⟩
  rw [List.foldl_append]
  exact h

/-! ### Triggers -/

@[simp] theorem Dev.cycFrame_setCyc (d : Dev) (f : Nat) (r : Cyc) : (d.setCyc f r).cycFrame f = r := by simp [Dev.cycFrame, Dev.setCyc]

@[simp] theorem Dev.setCyc_obj (d : Dev) (f : Nat) (r : Cyc) (i u : Nat) : (d.setCyc f r).obj i u = d.obj i u := rfl

theorem Dev.cycDrops_setCyc (d : Dev) (f : Nat) (r : Cyc) (g : Nat) : (d.setCyc f r).cycDrops g = d.cycDrops g := by
  have hport : ∀ p, (d.setCyc f r).port p = d.port p := fun _ => rfl
  simp [Dev.cycDrops, Dev.dozing, Dev.bit, hport]

theorem Dev.cycFrame_congr {d e : Dev} (h : d.cyc = e.cyc) (f : Nat) : d.cycFrame f = e.cycFrame f := by rw [Dev.cycFrame, h, Dev.cycFrame]

@[simp] theorem Dev.cycFrame_inc16 (d : Dev) (i u f : Nat) : (d.inc16 i u).cycFrame f = d.cycFrame f :=
  Dev.cycFrame_congr (by simp [Dev.inc16]) f

/-- A trigger keeps the frame's times and its past firings; it leaves a snapshot unless the frame is dropped or stands in the read-out
queue of P0. -/
theorem Dev.cycTrigger_frame (d : Dev) (m : Store Byte) (f time : Nat) :
    ((d.cycTrigger m f time).cycFrame f).due = (d.cycFrame f).due ∧ ((d.cycTrigger m f time).cycFrame f).fired = (d.cycFrame f).fired ∧
      (d.cycDrops f = false → d.obj (0x1400 + f) 0x02 ≠ 0 → ((d.cycTrigger m f time).cycFrame f).unsent.isSome = true) := by
  unfold Dev.cycTrigger
  dsimp only
  split
  · next hdrop => exact ⟨by rw [Dev.cycFrame_inc16], by rw [Dev.cycFrame_inc16], fun h => by rw [hdrop] at h; cases h⟩
  · split
    · next hqueued =>
      refine ⟨by rw [Dev.cycFrame_inc16]; rfl, by rw [Dev.cycFrame_inc16]; rfl, fun _ hport => absurd hqueued.1 hport⟩
    · rw [Dev.cycFrame_setCyc]
      exact ⟨rfl, rfl, fun _ _ => rfl⟩

/-- A trigger changes the frame's count of overruns and no other object. -/
theorem Dev.cycTrigger_sameBut (d : Dev) (m : Store Byte) (f time : Nat) :
    d.sameBut (d.cycTrigger m f time) (fun j w => decide (j = 0x1400 + f) && decide (w = 0x12)) := by
  have hcount : ∀ e : Dev, e.regs = d.regs → d.sameBut (e.inc16 (0x1400 + f) 0x12) (fun j w => decide (j = 0x1400 + f) && decide (w = 0x12)) :=
    fun e he => Dev.sameBut.setObj (Dev.sameBut_of_regs he) _ (by decide) (by simp)
  unfold Dev.cycTrigger
  dsimp only
  split
  · exact hcount d rfl
  · split
    · exact hcount _ rfl
    · split
      · exact (hcount d rfl).regs rfl
      · exact Dev.sameBut_of_regs rfl

/-- A frame that fires: its record has been changed, and its trigger runs. -/
theorem Dev.cycFires (d : Dev) (m : Store Byte) (f time : Nat) (r : Cyc) :
    (((d.setCyc f r).cycTrigger m f time).cycFrame f).due = r.due ∧ (((d.setCyc f r).cycTrigger m f time).cycFrame f).fired = r.fired ∧
      (d.cycDrops f = false → d.obj (0x1400 + f) 0x02 ≠ 0 → (((d.setCyc f r).cycTrigger m f time).cycFrame f).unsent.isSome = true) ∧
      d.sameBut ((d.setCyc f r).cycTrigger m f time) (fun j w => decide (j = 0x1400 + f) && decide (w = 0x12)) := by
  obtain ⟨hdue, hfired, hunsent⟩ := (d.setCyc f r).cycTrigger_frame m f time
  rw [Dev.cycFrame_setCyc] at hdue hfired
  rw [Dev.cycDrops_setCyc, Dev.setCyc_obj] at hunsent
  have hset : d.sameBut (d.setCyc f r) (fun j w => decide (j = 0x1400 + f) && decide (w = 0x12)) := fun i w _ _ => Dev.setCyc_obj d f r i w
  exact ⟨hdue, hfired, hunsent, hset.trans ((d.setCyc f r).cycTrigger_sameBut m f time)⟩

/-- An angle trigger fires. -/
theorem Dev.cycAngleTrigger_fires {d : Dev} (m : Store Byte) {n slot angle target time : Nat} {late : Bool}
    (hangle : d.cycAngle n slot = some angle)
    (htarget : target = angleWord ((d.estAt (d.obj (0x1400 + n) 0x05) d.now : Int) -
      ((d.estAt (d.obj (0x1400 + n) 0x05) d.now % auCycle + auCycle - angle) % auCycle : Nat)))
    (hanswer : d.answer (d.obj (0x1400 + n) 0x05) target = some (time, late)) (hruns : d.runs 12 = true) (hon : d.pdOn 5 = true)
    (henabled : d.obj (0x1400 + n) 0x01 = 1) (hfresh : (d.cycFrame n).fresh (d.cycKey n slot) target time = true) :
    d.cycAngleTrigger m n slot = (d.setCyc n { (d.cycFrame n) with
      fired := Store.put (fun _ => (0, 0)) (d.cycFrame n).fired (d.cycKey n slot) (target, time) }).cycTrigger m n time := by
  subst htarget
  unfold Dev.cycAngleTrigger
  simp only [hangle, hanswer, hruns, hon, henabled, hfresh, decide_true, Bool.and_self, if_true]

/-! ### A frame is turned on -/

/-- The block of the cyclic frames. -/
def cyclicBlock : ObjBlock := ⟨0x1400, 64, .cyclic, cyclicRows⟩

theorem blockOf_cyclic (n : Fin 64) : blockOf (0x1400 + n) = some cyclicBlock :=
  blockOf_eq (by simp [objBlocks, cyclicBlock]) (Nat.le_add_right ..) (Nat.add_lt_add_left n.isLt _)

theorem objRow_cyclic_enable (n : Fin 64) : ∃ row, objRow (0x1400 + n) 0x01 = some row ∧ row.ty.size = 1 ∧ row.ty.isBlob = false ∧
    row.acc ≠ .cmd := by revert n; decide +kernel

/-- A write of enable that turns a frame on sets its first trigger. -/
theorem Dev.cycHook_on {old d : Dev} {w : Wr} (hon : d.obj w.idx 0x01 = 1) :
    (Dev.cycHook old d w).regs = d.regs ∧ (old.obj w.idx 0x01 = 0 → ((Dev.cycHook old d w).cycFrame w.inst).due =
      if d.obj w.idx 0x03 = 1 then d.now + d.obj w.idx 0x04 * tqUs else d.now) := by
  unfold Dev.cycHook
  dsimp only
  rw [if_neg (by omega)]
  split
  · exact ⟨rfl, fun _ => by simp [Dev.cycFrame]⟩
  · next h => exact ⟨rfl, fun hold => absurd (by simp [hold]) h⟩

theorem cyclicFrame_on {s : State} {t : Nat} {r : Req} {n : Fin 64} (h : s.takes t r (0x1400 + n.val) 0x01 1 1 = true) :
    ∃ u, exec (.cyclicEnable t r n) s = .next u ∧ u.dev.obj (0x1400 + n.val) 0x01 = 1 ∧ (s.devAt t).sameBut u.dev (fun i _ => portObj i) ∧
      (s.dev.obj (0x1400 + n.val) 0x01 = 0 → (u.dev.cycFrame n).due =
        if s.dev.obj (0x1400 + n.val) 0x03 = 1 then (s.devAt t).now + s.dev.obj (0x1400 + n.val) 0x04 * tqUs else (s.devAt t).now) := by
  have hn := n.isLt
  obtain ⟨row, hr, hsize, hty, hacc⟩ := objRow_cyclic_enable n
  have ha := State.answer_of_takes h (blockOf_cyclic n) hr hsize hty
  rw [Dev.applied_value hr hacc hty (by decide)] at ha
  generalize hg : (s.devAt t).served (putFrame r (0x1400 + n.val) 0x01 1 (leBytes 1 1)) = g at ha
  have hkept : ∀ w < 256, g.obj (0x1400 + n.val) w = s.dev.obj (0x1400 + n.val) w := fun w hw => by
    rw [← hg]
    exact Dev.obj_served _ _ hw (arrivalObj_apart (by omega))
  have hports : (s.devAt t).sameBut g portObjs := hg ▸ Dev.served_portObjs _ _
  have hnow : g.now = (s.devAt t).now := hg ▸ Dev.now_of_still (Dev.served_still ..)
  have hnow' : ((g.setObj (0x1400 + n.val) 0x01 1).writtenBy r.port (0x1400 + n.val)).now = (s.devAt t).now := by
    simp [Dev.writtenBy, hnow]
  have hstored : ∀ w < 256, ((g.setObj (0x1400 + n.val) 0x01 1).writtenBy r.port (0x1400 + n.val)).obj (0x1400 + n.val) w =
      if w = 0x01 then 1 else s.dev.obj (0x1400 + n.val) w := fun w hw => by
    rw [Dev.writtenBy_obj, Dev.obj_setObj _ _ (by decide) hw, hkept w hw]
    simp
  have hidx : (oneWr r (0x1400 + n.val) 0x01 1 1 cyclicBlock).idx = 0x1400 + n.val := rfl
  have hinst : (oneWr r (0x1400 + n.val) 0x01 1 1 cyclicBlock).inst = n.val := by simp [oneWr, hostWr, cyclicBlock]
  have hhook := Dev.cycHook_on (old := g) (d := (g.setObj (0x1400 + n.val) 0x01 1).writtenBy r.port (0x1400 + n.val))
    (w := oneWr r (0x1400 + n.val) 0x01 1 1 cyclicBlock) (hstored 0x01 (by decide))
  rw [hidx, hinst] at hhook
  obtain ⟨hregs, hdue⟩ := hhook
  obtain ⟨u, hnext, huregs, hustill⟩ := State.next_of_plain h ha
  have hobj : ∀ i w, u.dev.obj i w = ((g.setObj (0x1400 + n.val) 0x01 1).writtenBy r.port (0x1400 + n.val)).obj i w :=
    fun i w => Dev.obj_congr (huregs.trans hregs) i w
  refine ⟨u, (State.putOne_requests s t r (0x1400 + n.val) 0x01 1 1).trans hnext, (hobj ..).trans (hstored 0x01 (by decide)), ?_,
    fun hoff => ?_⟩
  · intro i w hw hi
    have hout : i ≠ 0x1400 + n.val := by
      simp only [portObj, decide_eq_false_iff_not] at hi
      omega
    rw [hobj, Dev.writtenBy_obj, Dev.obj_setObj_idx _ _ (by decide) hw hout]
    exact hports i w hw hi
  · rw [Dev.cycFrame_congr (Dev.cyc_of_still hustill)]
    refine (hdue ((hkept _ (by decide)).trans hoff)).trans ?_
    rw [hstored 0x03 (by decide), hstored 0x04 (by decide), hnow']
    simp

/-! ### A batch goes out -/

theorem chunks_ne_nil {α : Type} (n : Nat) {k : Nat} {l : List α} (hk : k ≠ 0) (hl : l ≠ []) : chunks n k l ≠ [] := by
  cases k with
  | zero => exact absurd rfl hk
  | succ k => cases l with
    | nil => exact absurd rfl hl
    | cons x l => simp [chunks]

/-- The batch counter of a port. -/
def Dev.batchOf (d : Dev) (p : Nat) : Nat := (d.port p).batch

theorem Dev.setPort_batchOf (d : Dev) (p q : Nat) {r : Port} (h : r.batch = (d.port q).batch) : (d.setPort q r).batchOf p = d.batchOf p := by
  unfold Dev.batchOf
  rw [Dev.port_setPort]
  split
  · next hp => rw [hp, h]
  · rfl

theorem Dev.post_batchOf (d : Dev) (m : Msg) (p : Nat) : (d.post m).batchOf p = d.batchOf p := by
  unfold Dev.post Dev.transmit Dev.resolveHop
  dsimp only
  split
  · exact Dev.setPort_batchOf d p 0 rfl
  · split
    · split
      · rfl
      · exact Dev.setPort_batchOf _ p m.port rfl
    · rfl

/-- A batch of entries goes out as messages of its queue, numbered by the batch counter, which then moves on. -/
theorem Dev.sendBatch_sends {d : Dev} {n : Nat} (h : d.queueEntries n ≠ []) :
    (d.sendBatch n false).obj (0x1600 + n) 0x06 = satInc32 (d.obj (0x1600 + n) 0x06) ∧
      ((d.sendBatch n false).port n).batch = ((d.port n).batch + 1) % 256 ∧
      ∃ m ∈ (d.sendBatch n false).outgoing n, m.port = n ∧ m.op = 0x40 ∧ m.index = 0x1600 + n ∧ m.tag = (d.port n).batch % 256 := by
  have hempty : (d.queueEntries n).isEmpty = false := by simpa using h
  obtain ⟨msgs, e, hne, hmsgs, hport, hregs, hdev⟩ : ∃ (msgs : List Msg) (e : Dev), msgs ≠ [] ∧
      (∀ m ∈ msgs, m.port = n ∧ m.op = 0x40 ∧ m.index = 0x1600 + n ∧ m.tag = (d.port n).batch % 256) ∧
      e.batchOf n = ((d.port n).batch + 1) % 256 ∧ e.regs = d.regs ∧
      d.sendBatch n false = (((d.queueEntries n).foldl (fun (d : Dev) x =>
        if n = 0 then d.setPend x.1 4 { (d.pend x.1 4) with batched := true } else d.delivered n x.1)
          (msgs.foldl (fun (d : Dev) m => d.post m) e)).inc (0x1600 + n) 0x06).pulse (249 + n) := by
    refine ⟨(chunks (notifyMax n) (d.queueEntries n).length (d.queueEntries n)).map (fun part => d.ownMsg n 0x400 0x40 ((d.port n).batch % 256)
        (0x1600 + n) part.length ((part.map (entryBytes (d.port n).held)).flatten)),
      d.setPort n { (d.port n) with batch := ((d.port n).batch + 1) % 256, held := false, hattnHeld := false }, ?_, fun m hm => ?_, ?_, rfl, ?_⟩
    · exact fun hnil => chunks_ne_nil _ (by simpa using h) h (List.map_eq_nil_iff.mp hnil)
    · obtain ⟨part, -, rfl⟩ := List.mem_map.mp hm
      exact ⟨rfl, rfl, rfl, rfl⟩
    · rw [Dev.batchOf, Dev.port_setPort_self]
    · unfold Dev.sendBatch
      simp only [hempty, Bool.false_eq_true, if_false]
  have hentries : ∀ f : Dev, ((d.queueEntries n).foldl (fun (d : Dev) x =>
      if n = 0 then d.setPend x.1 4 { (d.pend x.1 4) with batched := true } else d.delivered n x.1) f).traffic = f.traffic := fun f =>
    Dev.foldl_keeps Dev.traffic (fun e x => by split <;> exact Dev.setPend_traffic ..) _ f
  have htraffic : (d.sendBatch n false).traffic = (msgs.foldl (fun (d : Dev) m => d.post m) e).traffic := by
    rw [hdev, Dev.pulse_traffic, Dev.inc_traffic, hentries]
  refine ⟨?_, ?_, ?_⟩
  · rw [hdev, Dev.pulse_obj, Dev.obj_inc _ (by decide) (by decide), if_pos ⟨rfl, rfl⟩]
    refine congrArg satInc32 (Dev.obj_congr ?_ ..)
    rw [Dev.foldl_regs (fun e x => by split <;> rfl), Dev.foldl_regs (fun e m => Dev.post_regs e m), hregs]
  · rw [Dev.port_of_traffic htraffic, ← hport]
    exact Dev.foldl_keeps (fun e : Dev => e.batchOf n) (fun e m => e.post_batchOf m n) msgs e
  · obtain ⟨m, hm, hop, sum, hlast⟩ := e.foldl_post_last hne
    obtain ⟨hmport, hmop, hmindex, hmtag⟩ := hmsgs m hm
    rw [hmport] at hlast
    have hout : (d.sendBatch n false).outgoing n = (msgs.foldl (fun (d : Dev) m => d.post m) e).outgoing n := by
      rw [Dev.outgoing, Dev.port_of_traffic htraffic, Dev.sent_of_traffic htraffic, Dev.outgoing]
    refine ⟨{ m with port := n, hop := hop, sum := sum }, ?_, rfl, hmop, hmindex, hmtag⟩
    rw [hout]
    exact Dev.mem_outgoing_of_last hlast

theorem Dev.queue_of_modTime {d : Dev} {p : Nat} (h : d.modTimeDue p = true) : d.queueEntries p ≠ [] := by
  intro he
  simp [Dev.modTimeDue, he] at h

theorem Dev.queue_of_batch {d : Dev} {p : Nat} (h : d.batchDue p = true) : d.queueEntries p ≠ [] := by
  intro he
  simp [Dev.batchDue, he] at h

/-- Settles O17: a trigger changes the record of its frame and then builds, and a due batch is one whose queue is not empty. -/
theorem cyclicFramesAndNotifies : Obligations.CyclicFramesAndNotifies := by
  refine ⟨⟨fun s t r n h => cyclicFrame_on h, fun s t n hruns henabled htrigger hdue => ?_,
    fun s t n slot angle target time late hangle htarget hanswer hruns hon henabled hfresh => ?_, fun s t n m hunsent hruns htalks => ?_⟩,
    fun s t p hruns12 hruns2 hopen hdoze => ?_⟩
  · have hdev : (s.devAt t).cycTime s.loft n = ((s.devAt t).setCyc n { ((s.devAt t).cycFrame n) with
        due := ((s.devAt t).cycFrame n).due + (s.devAt t).obj (0x1400 + n.val) 0x04 * tqUs }).cycTrigger
        s.loft n ((s.devAt t).cycFrame n).due := by
      have henabled' : (s.devAt t).obj (0x1400 + n.val) 0x01 = 1 := henabled
      have htrigger' : (s.devAt t).obj (0x1400 + n.val) 0x03 = 1 := htrigger
      have hdue' : ((s.devAt t).cycFrame n).due ≤ (s.devAt t).now := hdue
      unfold Dev.cycTime
      simp only [hruns, henabled', htrigger', hdue', decide_true, Bool.and_self, if_true]
    obtain ⟨hnext, -, hbuilt, hsame⟩ := (s.devAt t).cycFires s.loft n ((s.devAt t).cycFrame n).due { ((s.devAt t).cycFrame n) with
      due := ((s.devAt t).cycFrame n).due + (s.devAt t).obj (0x1400 + n.val) 0x04 * tqUs }
    refine ⟨{ s with dev := (s.devAt t).cycTime s.loft n }, rfl, ?_⟩
    dsimp only
    rw [hdev]
    exact ⟨hnext, hbuilt, hsame⟩
  · have hdev := Dev.cycAngleTrigger_fires s.loft hangle htarget hanswer hruns hon henabled hfresh
    obtain ⟨-, hfired, hbuilt, hsame⟩ := (s.devAt t).cycFires s.loft n time { ((s.devAt t).cycFrame n) with
      fired := Store.put (fun _ => (0, 0)) ((s.devAt t).cycFrame n).fired ((s.devAt t).cycKey n slot) (target, time) }
    refine ⟨{ s with dev := (s.devAt t).cycAngleTrigger s.loft n slot }, rfl, ?_⟩
    dsimp only
    rw [hdev, hfired]
    exact ⟨Store.get_put_self .., hbuilt, hsame⟩
  · have hdev : (s.devAt t).cycSend n = ((s.devAt t).setCyc n { ((s.devAt t).cycFrame n) with unsent := none }).post m := by
      have hunsent' : ((s.devAt t).cycFrame n).unsent = some m := hunsent
      simp [Dev.cycSend, hunsent', hruns, htalks]
    refine ⟨{ s with dev := (s.devAt t).cycSend n }, rfl, ?_⟩
    dsimp only
    rw [hdev]
    obtain ⟨hop, sum, hlast⟩ := Dev.lastSent_post_with ((s.devAt t).setCyc n { ((s.devAt t).cycFrame n) with unsent := none }) m
    refine ⟨?_, Dev.post_regs .., _, hlast, rfl, rfl, rfl, rfl, rfl⟩
    rw [Dev.cycFrame_congr (Dev.cyc_of_still (Dev.post_still ..)), Dev.cycFrame_setCyc]
  · have hsends : ∀ v : Dev, v = (s.devAt t).sendBatch p false → (s.devAt t).queueEntries p ≠ [] →
        v.obj (0x1600 + p.val) 0x06 = satInc32 (s.dev.obj (0x1600 + p.val) 0x06) ∧ (v.port p).batch = ((s.dev.port p).batch + 1) % 256 ∧
        (∃ m ∈ v.outgoing p, m.port = p ∧ m.op = 0x40 ∧ m.index = 0x1600 + p.val ∧ m.tag = (s.dev.port p).batch % 256) ∧
        s.dev.sameBut v (batchObj p) := by
      rintro v rfl hqueue
      obtain ⟨hcount, hbatch, hout⟩ := Dev.sendBatch_sends hqueue
      exact ⟨hcount, hbatch, hout, Dev.sendBatch_sameBut _ p false⟩
    have hdue : (s.devAt t).notifyDue p = (s.devAt t).sendBatch p false := by simp [Dev.notifyDue, hdoze, hopen]
    refine ⟨fun hbatch => ⟨{ s with dev := (s.devAt t).notify p }, rfl, hsends _ ?_ (Dev.queue_of_batch hbatch)⟩,
      fun htime => ⟨{ s with dev := (s.devAt t).modTime p }, rfl, hsends _ ?_ (Dev.queue_of_modTime htime)⟩⟩
    · simp [Dev.notify, hruns12, hruns2, hbatch, hdue]
    · simp [Dev.modTime, hruns12, hruns2, htime, hdue]

end Sys2Proof.Machine
end

section
/-! SUPPORT. What the engines leave alone: the ports' records and the messages on their way out. Nothing that the command of an object
starts posts a message; the reset of PD12, a device reset and the close of a session alone write a port's record. -/

namespace Sys2Proof.Machine

@[simp] theorem Dev.ports_ite (c : Prop) [Decidable c] (a b : Dev) : (if c then a else b).ports = if c then a.ports else b.ports :=
  apply_ite ..

@[simp] theorem Dev.sent_ite (c : Prop) [Decidable c] (a b : Dev) : (if c then a else b).sent = if c then a.sent else b.sent :=
  apply_ite ..

/-- Steps that each leave the ports and the messages alone do so one behind the other. -/
@[simp] theorem Dev.foldl_mail {α : Type} {g : Dev → α → Dev} (h : ∀ e x, (g e x).ports = e.ports ∧ (g e x).sent = e.sent)
    (l : List α) (d : Dev) : (l.foldl g d).ports = d.ports ∧ (l.foldl g d).sent = d.sent :=
  ⟨Dev.foldl_keeps Dev.ports (fun e x => (h e x).1) l d, Dev.foldl_keeps Dev.sent (fun e x => (h e x).2) l d⟩

@[simp] theorem Dev.raise_mail (d : Dev) (x : Nat) : (d.raise x).ports = d.ports ∧ (d.raise x).sent = d.sent := by
  simpa only [Dev.traffic, Prod.mk.injEq] using d.raise_traffic x

@[simp] theorem Dev.raiseIf_mail (d : Dev) (c : Bool) (x : Nat) : (d.raiseIf c x).ports = d.ports ∧ (d.raiseIf c x).sent = d.sent := by
  simpa only [Dev.traffic, Prod.mk.injEq] using d.raiseIf_traffic c x

@[simp] theorem Dev.pulse_mail (d : Dev) (n : Nat) : (d.pulse n).ports = d.ports ∧ (d.pulse n).sent = d.sent := by
  simpa only [Dev.traffic, Prod.mk.injEq] using d.pulse_traffic n

/-! ### Stores of objects, lines and the event log -/

@[simp] theorem Dev.zero_mail (d : Dev) (idx sub0 sub1 : Nat) :
    (d.zero idx sub0 sub1).ports = d.ports ∧ (d.zero idx sub0 sub1).sent = d.sent := by
  unfold Dev.zero
  simp

theorem Dev.putBlobAt_mail (d : Dev) (idx sub off : Nat) (bs : List Byte) :
    (Dev.putBlobAt d idx sub off bs).ports = d.ports ∧ (Dev.putBlobAt d idx sub off bs).sent = d.sent := by
  induction bs generalizing d off with
  | nil => exact ⟨rfl, rfl⟩
  | cons b bs ih => exact ih ..

@[simp] theorem Dev.pulseAt_mail (d : Dev) (n at_ : Nat) : (d.pulseAt n at_).ports = d.ports ∧ (d.pulseAt n at_).sent = d.sent := by
  unfold Dev.pulseAt
  simp

@[simp] theorem Dev.pulseIf_mail (d : Dev) (c : Bool) (n : Nat) : (d.pulseIf c n).ports = d.ports ∧ (d.pulseIf c n).sent = d.sent := by
  unfold Dev.pulseIf
  simp

@[simp] theorem Dev.logEvent_mail (d : Dev) (cls cause src data : Nat) :
    (d.logEvent cls cause src data).ports = d.ports ∧ (d.logEvent cls cause src data).sent = d.sent := by
  unfold Dev.logEvent
  simp

/-! ### Lanes and captures -/

@[simp] theorem Dev.mapCaps_mail (d : Dev) (f : Cap → Cap) : (d.mapCaps f).ports = d.ports ∧ (d.mapCaps f).sent = d.sent := by
  unfold Dev.mapCaps
  simp

@[simp] theorem Dev.windowCut_mail (d : Dev) (occ n start : Nat) :
    (d.windowCut occ n start).ports = d.ports ∧ (d.windowCut occ n start).sent = d.sent := by
  unfold Dev.windowCut
  simp

@[simp] theorem Dev.laneAlloc_mail (d : Dev) (id : Nat) (o : Occ) :
    (d.laneAlloc id o).1.ports = d.ports ∧ (d.laneAlloc id o).1.sent = d.sent := by
  unfold Dev.laneAlloc
  dsimp only
  repeat' split
  all_goals simp [Dev.cloCause]

@[simp] theorem Dev.laneRelease_mail (d : Dev) (id : Nat) : (d.laneRelease id).ports = d.ports ∧ (d.laneRelease id).sent = d.sent := by
  unfold Dev.laneRelease
  simp

@[simp] theorem Dev.cloQueue_mail (d : Dev) (n : Nat) (r : CloRes) :
    (d.cloQueue n r).ports = d.ports ∧ (d.cloQueue n r).sent = d.sent := by
  unfold Dev.cloQueue
  simp

@[simp] theorem Dev.capAbort_mail (d : Dev) (id : Nat) : (d.capAbort id).ports = d.ports ∧ (d.capAbort id).sent = d.sent := by
  unfold Dev.capAbort
  simp

@[simp] theorem Dev.capStop_mail (d : Dev) (scope : Nat → Nat → Bool) :
    (d.capStop scope).ports = d.ports ∧ (d.capStop scope).sent = d.sent := by
  unfold Dev.capStop
  simp

@[simp] theorem Dev.capNote_mail (d : Dev) (id start chanOut shotOut : Nat) :
    (d.capNote id start chanOut shotOut).ports = d.ports ∧ (d.capNote id start chanOut shotOut).sent = d.sent := by
  unfold Dev.capNote
  simp

@[simp] theorem Dev.capBankChange_mail (d : Dev) (b : Nat) : (d.capBankChange b).ports = d.ports ∧ (d.capBankChange b).sent = d.sent := by
  unfold Dev.capBankChange
  simp

@[simp] theorem Dev.resetLearning_mail (d : Dev) (n mask : Nat) :
    (d.resetLearning n mask).ports = d.ports ∧ (d.resetLearning n mask).sent = d.sent := by
  unfold Dev.resetLearning
  simp [Dev.learnPend]

/-! ### The synthesiser -/

@[simp] theorem Dev.synthStatus_mail (d : Dev) (k : Nat) : (d.synthStatus k).ports = d.ports ∧ (d.synthStatus k).sent = d.sent := by
  unfold Dev.synthStatus
  simp [Dev.synthCause]

@[simp] theorem Dev.ffFrom_mail (d : Dev) (k t : Nat) : (d.ffFrom k t).ports = d.ports ∧ (d.ffFrom k t).sent = d.sent := by
  unfold Dev.ffFrom
  simp

@[simp] theorem Dev.learnAbort_mail (d : Dev) (k : Nat) : (d.learnAbort k).ports = d.ports ∧ (d.learnAbort k).sent = d.sent := by
  unfold Dev.learnAbort
  simp [Dev.synthCause]

@[simp] theorem Dev.sigCheck_mail (d : Dev) (k : Nat) : (d.sigCheck k).ports = d.ports ∧ (d.sigCheck k).sent = d.sent := by
  unfold Dev.sigCheck
  simp [Dev.synthCause]

@[simp] theorem Dev.synthReset_mail (d : Dev) (k : Nat) : (d.synthReset k).ports = d.ports ∧ (d.synthReset k).sent = d.sent := by
  unfold Dev.synthReset
  simp

@[simp] theorem Dev.learnStart_mail (d : Dev) (k : Nat) : (d.learnStart k).ports = d.ports ∧ (d.learnStart k).sent = d.sent := by
  unfold Dev.learnStart
  simp

@[simp] theorem Dev.toothClear_mail (d : Dev) (k : Nat) : (d.toothClear k).ports = d.ports ∧ (d.toothClear k).sent = d.sent := by
  unfold Dev.toothClear
  simp

/-! ### Occurrences -/

@[simp] theorem Dev.occFlag_mail (d : Dev) (id mask : Nat) : (d.occFlag id mask).ports = d.ports ∧ (d.occFlag id mask).sent = d.sent := by
  unfold Dev.occFlag
  simp

@[simp] theorem Dev.treeEnds_mail (d : Dev) (t : Nat) : (d.treeEnds t).ports = d.ports ∧ (d.treeEnds t).sent = d.sent := by
  unfold Dev.treeEnds
  simp

@[simp] theorem Dev.countOutcome_mail (d : Dev) (t : Nat) : (d.countOutcome t).ports = d.ports ∧ (d.countOutcome t).sent = d.sent := by
  unfold Dev.countOutcome
  simp

@[simp] theorem Dev.treeCheck_mail (d : Dev) (t : Nat) : (d.treeCheck t).ports = d.ports ∧ (d.treeCheck t).sent = d.sent := by
  unfold Dev.treeCheck
  simp

@[simp] theorem Dev.occGone_mail (d : Dev) (id mask : Nat) : (d.occGone id mask).ports = d.ports ∧ (d.occGone id mask).sent = d.sent := by
  unfold Dev.occGone
  simp

@[simp] theorem Dev.settleRefs_mail (f : Nat) (d : Dev) (t : Nat) :
    (Dev.settleRefs f d t).ports = d.ports ∧ (Dev.settleRefs f d t).sent = d.sent := by
  induction f generalizing d with
  | zero => exact ⟨rfl, rfl⟩
  | succ f ih =>
    unfold Dev.settleRefs
    split
    · exact ⟨rfl, rfl⟩
    · simp [ih]

@[simp] theorem Dev.treeRefs_mail (d : Dev) (t : Nat) : (d.treeRefs t).ports = d.ports ∧ (d.treeRefs t).sent = d.sent := by
  unfold Dev.treeRefs
  simp

@[simp] theorem Dev.occDrop_mail (d : Dev) (id mask : Nat) : (d.occDrop id mask).ports = d.ports ∧ (d.occDrop id mask).sent = d.sent := by
  unfold Dev.occDrop
  simp

@[simp] theorem Dev.occStart_mail (d : Dev) (id at_ : Nat) : (d.occStart id at_).ports = d.ports ∧ (d.occStart id at_).sent = d.sent := by
  unfold Dev.occStart
  simp

@[simp] theorem Dev.occEnd_mail (d : Dev) (id mask chanOut : Nat) :
    (d.occEnd id mask chanOut).ports = d.ports ∧ (d.occEnd id mask chanOut).sent = d.sent := by
  unfold Dev.occEnd
  simp

/-! ### The drive -/

@[simp] theorem Dev.bankStatus_mail (d : Dev) (b : Nat) : (d.bankStatus b).ports = d.ports ∧ (d.bankStatus b).sent = d.sent := by
  unfold Dev.bankStatus
  simp

@[simp] theorem Dev.switchBank_mail (d : Dev) (b : Nat) (want : Option Bool) :
    (d.switchBank b want).ports = d.ports ∧ (d.switchBank b want).sent = d.sent := by
  unfold Dev.switchBank
  dsimp only
  repeat' split
  all_goals simp

@[simp] theorem Dev.slowToFast_mail (d : Dev) (b : Nat) : (d.slowToFast b).ports = d.ports ∧ (d.slowToFast b).sent = d.sent := by
  unfold Dev.slowToFast
  simp

@[simp] theorem Dev.bankApply_mail (d : Dev) (b : Nat) : (d.bankApply b).ports = d.ports ∧ (d.bankApply b).sent = d.sent := by
  unfold Dev.bankApply
  simp

@[simp] theorem Dev.sawCurrent_mail (d : Dev) (n cur : Nat) :
    (d.sawCurrent n cur).ports = d.ports ∧ (d.sawCurrent n cur).sent = d.sent := by
  unfold Dev.sawCurrent
  simp

@[simp] theorem Dev.boostOver_mail (d : Dev) (n : Nat) : (d.boostOver n).ports = d.ports ∧ (d.boostOver n).sent = d.sent := by
  unfold Dev.boostOver
  simp

@[simp] theorem Dev.enterPhase_mail (d : Dev) (n ph cur : Nat) :
    (d.enterPhase n ph cur).ports = d.ports ∧ (d.enterPhase n ph cur).sent = d.sent := by
  unfold Dev.enterPhase
  simp

@[simp] theorem Dev.gotoPhase_mail (d : Dev) (n ph cur : Nat) (wait : Bool) :
    (d.gotoPhase n ph cur wait).ports = d.ports ∧ (d.gotoPhase n ph cur wait).sent = d.sent := by
  unfold Dev.gotoPhase
  simp

@[simp] theorem Dev.beginRun_mail (d : Dev) (n at_ : Nat) : (d.beginRun n at_).ports = d.ports ∧ (d.beginRun n at_).sent = d.sent := by
  unfold Dev.beginRun
  dsimp only
  repeat' split
  all_goals simp [Dev.chanOut]

@[simp] theorem Dev.driveDrop_mail (d : Dev) (n out diag : Nat) :
    (d.driveDrop n out diag).ports = d.ports ∧ (d.driveDrop n out diag).sent = d.sent := by
  unfold Dev.driveDrop
  dsimp only
  repeat' split
  all_goals simp [Dev.chanOut, Dev.chanDiag]

@[simp] theorem Dev.overlapDrop_mail (d : Dev) (n out : Nat) (priority : Bool) :
    (d.overlapDrop n out priority).ports = d.ports ∧ (d.overlapDrop n out priority).sent = d.sent := by
  unfold Dev.overlapDrop
  simp [Dev.ovlCause]

@[simp] theorem Dev.checkDrop_mail (d : Dev) (n bit_ : Nat) :
    (d.checkDrop n bit_).ports = d.ports ∧ (d.checkDrop n bit_).sent = d.sent := by
  unfold Dev.checkDrop
  simp

@[simp] theorem Dev.takeBank_mail (d : Dev) (n at_ cur : Nat) (wait : Bool) :
    (d.takeBank n at_ cur wait).ports = d.ports ∧ (d.takeBank n at_ cur wait).sent = d.sent := by
  unfold Dev.takeBank
  simp [Dev.chanOut]

@[simp] theorem Dev.bankNext_mail (f : Nat) (d : Dev) (b : Nat) :
    (Dev.bankNext f d b).ports = d.ports ∧ (Dev.bankNext f d b).sent = d.sent := by
  induction f generalizing d with
  | zero => exact ⟨rfl, rfl⟩
  | succ f ih =>
    unfold Dev.bankNext
    dsimp only
    repeat' split
    all_goals simp [ih]

@[simp] theorem Dev.holderLeaves_mail (d : Dev) (b : Nat) : (d.holderLeaves b).ports = d.ports ∧ (d.holderLeaves b).sent = d.sent := by
  unfold Dev.holderLeaves
  simp

@[simp] theorem Dev.releaseIf_mail (d : Dev) (n : Nat) : (d.releaseIf n).ports = d.ports ∧ (d.releaseIf n).sent = d.sent := by
  unfold Dev.releaseIf
  simp

@[simp] theorem Dev.toDecay_mail (d : Dev) (n : Nat) (slow : Bool) :
    (d.toDecay n slow).ports = d.ports ∧ (d.toDecay n slow).sent = d.sent := by
  unfold Dev.toDecay
  simp

@[simp] theorem Dev.cutChan_mail (d : Dev) (n mask : Nat) : (d.cutChan n mask).ports = d.ports ∧ (d.cutChan n mask).sent = d.sent := by
  unfold Dev.cutChan
  dsimp only
  repeat' split
  all_goals simp

@[simp] theorem Dev.mapBanks_mail (d : Dev) : (d.mapBanks).ports = d.ports ∧ (d.mapBanks).sent = d.sent := by
  unfold Dev.mapBanks
  simp

/-! ### The scheduler -/

@[simp] theorem Dev.addTree_mail (d : Dev) (os : List Occ) : (d.addTree os).ports = d.ports ∧ (d.addTree os).sent = d.sent :=
  ⟨rfl, rfl⟩

@[simp] theorem Dev.armTree_mail (d : Dev) (dom rid c : Nat) :
    (d.armTree dom rid c).ports = d.ports ∧ (d.armTree dom rid c).sent = d.sent := by
  unfold Dev.armTree
  simp

@[simp] theorem Dev.schedArm_mail (d : Dev) (dom : Nat) : (d.schedArm dom).ports = d.ports ∧ (d.schedArm dom).sent = d.sent := by
  unfold Dev.schedArm
  simp

@[simp] theorem Dev.lockOcc_mail (d : Dev) (id : Nat) (stale : Bool) :
    (d.lockOcc id stale).ports = d.ports ∧ (d.lockOcc id stale).sent = d.sent := by
  unfold Dev.lockOcc
  simp

@[simp] theorem Dev.lateOcc_mail (d : Dev) (id : Nat) : (d.lateOcc id).ports = d.ports ∧ (d.lateOcc id).sent = d.sent := by
  unfold Dev.lateOcc
  simp

@[simp] theorem Dev.testOcc_mail (d : Dev) (id : Nat) (again : Bool) :
    (d.testOcc id again).ports = d.ports ∧ (d.testOcc id again).sent = d.sent := by
  unfold Dev.testOcc
  dsimp only
  repeat' split
  all_goals simp

@[simp] theorem Dev.testPass_mail (f : Nat) (b : Bool) (d : Dev) (l : List Nat) :
    (Dev.testPass f b d l).ports = d.ports ∧ (Dev.testPass f b d l).sent = d.sent := by
  induction f generalizing b d l with
  | zero => exact ⟨rfl, rfl⟩
  | succ f ih =>
    unfold Dev.testPass
    simp [ih]

@[simp] theorem Dev.lockDue_mail (d : Dev) (id : Nat) : (d.lockDue id).ports = d.ports ∧ (d.lockDue id).sent = d.sent := by
  unfold Dev.lockDue
  dsimp only
  repeat' split
  all_goals simp

@[simp] theorem Dev.testWhere_mail (d : Dev) (p : Occ → Bool) : (d.testWhere p).ports = d.ports ∧ (d.testWhere p).sent = d.sent := by
  unfold Dev.testWhere
  simp

@[simp] theorem Dev.schedStart_mail (d : Dev) (dom : Nat) : (d.schedStart dom).ports = d.ports ∧ (d.schedStart dom).sent = d.sent := by
  unfold Dev.schedStart
  simp

@[simp] theorem Dev.stopOcc_mail (d : Dev) (id mask : Nat) : (d.stopOcc id mask).ports = d.ports ∧ (d.stopOcc id mask).sent = d.sent := by
  unfold Dev.stopOcc
  split <;> simp

@[simp] theorem Dev.stopAll_mail (d : Dev) (ids : List Nat) (mask : Nat) (cnt : Option Nat) :
    (d.stopAll ids mask cnt).ports = d.ports ∧ (d.stopAll ids mask cnt).sent = d.sent := by
  have note : ∀ (e : Dev) (k : Nat), (cnt.elim e (fun c => e.inc (0x2180 + k) c)).ports = e.ports ∧
      (cnt.elim e (fun c => e.inc (0x2180 + k) c)).sent = e.sent := by
    intro e k
    cases cnt <;> simp
  unfold Dev.stopAll
  simp [note]

@[simp] theorem Dev.stopWhere_mail (d : Dev) (p : Occ → Bool) (mask cnt : Nat) :
    (d.stopWhere p mask cnt).ports = d.ports ∧ (d.stopWhere p mask cnt).sent = d.sent := by
  unfold Dev.stopWhere
  simp

@[simp] theorem Dev.stateSource_mail (d : Dev) (dom : Nat) (any : Bool) :
    (d.stateSource dom any).ports = d.ports ∧ (d.stateSource dom any).sent = d.sent := by
  unfold Dev.stateSource
  simp

@[simp] theorem Dev.stateCancel_mail (d : Dev) (dom : Nat) (p : Occ → Bool) :
    (d.stateCancel dom p).ports = d.ports ∧ (d.stateCancel dom p).sent = d.sent := by
  unfold Dev.stateCancel
  simp

@[simp] theorem Dev.forgetArmed_mail (d : Dev) (dom : Nat) : (d.forgetArmed dom).ports = d.ports ∧ (d.forgetArmed dom).sent = d.sent := by
  unfold Dev.forgetArmed
  simp

@[simp] theorem Dev.disarmOccs_mail (d : Dev) (doms : List Nat) (veto : Bool) :
    (d.disarmOccs doms veto).ports = d.ports ∧ (d.disarmOccs doms veto).sent = d.sent := by
  unfold Dev.disarmOccs
  simp

@[simp] theorem Dev.vetoScope_mail (d : Dev) (doms slots : Nat) :
    (d.vetoScope doms slots).ports = d.ports ∧ (d.vetoScope doms slots).sent = d.sent := by
  unfold Dev.vetoScope
  simp

@[simp] theorem Dev.cancelOccs_mail (d : Dev) (es : List (Nat × Occ)) :
    (d.cancelOccs es).ports = d.ports ∧ (d.cancelOccs es).sent = d.sent := by
  unfold Dev.cancelOccs
  simp

@[simp] theorem Dev.cancelShot_mail (d : Dev) (s : Nat) : (d.cancelShot s).ports = d.ports ∧ (d.cancelShot s).sent = d.sent := by
  unfold Dev.cancelShot
  split <;> simp

@[simp] theorem Dev.cancelSheaf_mail (d : Dev) (h : Nat) : (d.cancelSheaf h).ports = d.ports ∧ (d.cancelSheaf h).sent = d.sent := by
  unfold Dev.cancelSheaf
  dsimp only
  repeat' split
  all_goals simp

@[simp] theorem Dev.cancelDisable_mail (d : Dev) (rid : Nat) :
    (d.cancelDisable rid).ports = d.ports ∧ (d.cancelDisable rid).sent = d.sent := by
  unfold Dev.cancelDisable
  simp [Dev.dropDisabled, Dev.cancelRec]

@[simp] theorem Dev.cancelAll_mail (d : Dev) (dom : Nat) : (d.cancelAll dom).ports = d.ports ∧ (d.cancelAll dom).sent = d.sent := by
  unfold Dev.cancelAll
  simp [Dev.cancelRec]

@[simp] theorem Dev.schedReset_mail (d : Dev) : (d.schedReset).ports = d.ports ∧ (d.schedReset).sent = d.sent := by
  unfold Dev.schedReset
  simp

/-! ### Disarming -/

@[simp] theorem Dev.readyDown_mail (d : Dev) (x : Nat) : (d.readyDown x).ports = d.ports ∧ (d.readyDown x).sent = d.sent := by
  unfold Dev.readyDown
  simp

@[simp] theorem Dev.railOff_mail (d : Dev) (x : Nat) : (d.railOff x).ports = d.ports ∧ (d.railOff x).sent = d.sent := by
  unfold Dev.railOff
  simp

@[simp] theorem Dev.slowEnds_mail (d : Dev) : (d.slowEnds).ports = d.ports ∧ (d.slowEnds).sent = d.sent := by
  unfold Dev.slowEnds
  simp

@[simp] theorem Dev.disarmDoms_mail (d : Dev) (doms : List Nat) (veto : Bool) :
    (d.disarmDoms doms veto).ports = d.ports ∧ (d.disarmDoms doms veto).sent = d.sent := by
  unfold Dev.disarmDoms
  simp

@[simp] theorem Dev.arm_mail (d : Dev) (dom : Nat) : (d.arm dom).ports = d.ports ∧ (d.arm dom).sent = d.sent := by
  unfold Dev.arm
  simp

@[simp] theorem Dev.globalDisarm_mail (d : Dev) : (d.globalDisarm).ports = d.ports ∧ (d.globalDisarm).sent = d.sent := by
  unfold Dev.globalDisarm
  simp [Dev.disarmBoth]

@[simp] theorem Dev.linkLoss_mail (d : Dev) : (d.linkLoss).ports = d.ports ∧ (d.linkLoss).sent = d.sent := by
  unfold Dev.linkLoss
  simp [Dev.disarmBoth]

@[simp] theorem Dev.groupRequest_mail (d : Dev) (pd : Nat) : (d.groupRequest pd).ports = d.ports ∧ (d.groupRequest pd).sent = d.sent := by
  unfold Dev.groupRequest
  simp

@[simp] theorem Dev.groupReset_mail (d : Dev) (pd : Nat) : (d.groupReset pd).ports = d.ports ∧ (d.groupReset pd).sent = d.sent := by
  unfold Dev.groupReset
  simp

@[simp] theorem Dev.boostReset_mail (d : Dev) : (d.boostReset).ports = d.ports ∧ (d.boostReset).sent = d.sent := by
  unfold Dev.boostReset
  simp

/-! ### DMA -/

@[simp] theorem Dev.dmaBegin_mail (d : Dev) (c : Nat) : (d.dmaBegin c).ports = d.ports ∧ (d.dmaBegin c).sent = d.sent := by
  unfold Dev.dmaBegin
  simp

@[simp] theorem Dev.dmaArm_mail (d : Dev) (c : Nat) (start : Bool) :
    (d.dmaArm c start).ports = d.ports ∧ (d.dmaArm c start).sent = d.sent := by
  unfold Dev.dmaArm
  simp

@[simp] theorem Dev.dmaStop_mail (d : Dev) (c : Nat) : (d.dmaStop c).ports = d.ports ∧ (d.dmaStop c).sent = d.sent := by
  unfold Dev.dmaStop
  simp

/-! ### The interrupt controller -/

@[simp] theorem Dev.stackReset_mail (d : Dev) (c : Nat) : (d.stackReset c).ports = d.ports ∧ (d.stackReset c).sent = d.sent := by
  unfold Dev.stackReset
  simp

@[simp] theorem Dev.ringBells_mail (d : Dev) (mask : Nat) : (d.ringBells mask).ports = d.ports ∧ (d.ringBells mask).sent = d.sent := by
  unfold Dev.ringBells
  simp

/-! ### Vetoes and the loss of a session -/

@[simp] theorem Dev.mapClaims_mail (d : Dev) (f : Nat → Nat) : (d.mapClaims f).ports = d.ports ∧ (d.mapClaims f).sent = d.sent := by
  unfold Dev.mapClaims
  simp

@[simp] theorem Dev.vetoWritten_mail (d : Dev) (sub old : Nat) :
    (d.vetoWritten sub old).ports = d.ports ∧ (d.vetoWritten sub old).sent = d.sent := by
  unfold Dev.vetoWritten
  simp

@[simp] theorem Dev.guardianLoss_mail (d : Dev) (p : Nat) : (d.guardianLoss p).ports = d.ports ∧ (d.guardianLoss p).sent = d.sent := by
  unfold Dev.guardianLoss
  simp

@[simp] theorem Dev.lossAction_mail (d : Dev) (p : Nat) : (d.lossAction p).ports = d.ports ∧ (d.lossAction p).sent = d.sent := by
  unfold Dev.lossAction
  simp [Dev.disarm]

/-! ### Sensing -/

@[simp] theorem Dev.ffUpdate_mail (d : Dev) (k : Nat) : (d.ffUpdate k).ports = d.ports ∧ (d.ffUpdate k).sent = d.sent := by
  unfold Dev.ffUpdate
  simp

@[simp] theorem Dev.sensingReset_mail (d : Dev) : (d.sensingReset).ports = d.ports ∧ (d.sensingReset).sent = d.sent := by
  unfold Dev.sensingReset
  simp

/-! ### Arming of a domain -/

@[simp] theorem Dev.syncReset_mail (d : Dev) : (d.syncReset).ports = d.ports ∧ (d.syncReset).sent = d.sent := by
  unfold Dev.syncReset
  simp [Dev.disarm]

/-! ### Timers -/

@[simp] theorem Dev.timerTest_mail (d : Dev) (n new : Nat) : (d.timerTest n new).ports = d.ports ∧ (d.timerTest n new).sent = d.sent := by
  unfold Dev.timerTest
  simp

@[simp] theorem Dev.timerRide_mail (d : Dev) (n tick : Nat) :
    (d.timerRide n tick).ports = d.ports ∧ (d.timerRide n tick).sent = d.sent := by
  unfold Dev.timerRide
  simp

@[simp] theorem Dev.timerTo_mail (d : Dev) (n : Nat) : (d.timerTo n).ports = d.ports ∧ (d.timerTo n).sent = d.sent := by
  unfold Dev.timerTo
  simp

@[simp] theorem Dev.timerGo_mail (d : Dev) (n tick : Nat) : (d.timerGo n tick).ports = d.ports ∧ (d.timerGo n tick).sent = d.sent := by
  unfold Dev.timerGo
  simp

@[simp] theorem Dev.timerZero_mail (d : Dev) (n tick : Nat) :
    (d.timerZero n tick).ports = d.ports ∧ (d.timerZero n tick).sent = d.sent := by
  unfold Dev.timerZero
  simp

@[simp] theorem Dev.timerArm_mail (d : Dev) (n : Nat) : (d.timerArm n).ports = d.ports ∧ (d.timerArm n).sent = d.sent := by
  unfold Dev.timerArm
  simp

@[simp] theorem Dev.timerStart_mail (d : Dev) (n : Nat) : (d.timerStart n).ports = d.ports ∧ (d.timerStart n).sent = d.sent := by
  unfold Dev.timerStart
  simp

@[simp] theorem Dev.timerStop_mail (d : Dev) (n : Nat) : (d.timerStop n).ports = d.ports ∧ (d.timerStop n).sent = d.sent := by
  unfold Dev.timerStop
  simp

@[simp] theorem Dev.gstart_mail (d : Dev) (mask : Nat) : (d.gstart mask).ports = d.ports ∧ (d.gstart mask).sent = d.sent := by
  unfold Dev.gstart
  simp

/-! ### Resets of domains -/

@[simp] theorem Dev.history_mail (d : Dev) (cause detail : Nat) :
    (d.history cause detail).ports = d.ports ∧ (d.history cause detail).sent = d.sent := by
  unfold Dev.history
  simp

@[simp] theorem Dev.groupDefaults_mail (d : Dev) : (d.groupDefaults).ports = d.ports ∧ (d.groupDefaults).sent = d.sent := by
  unfold Dev.groupDefaults
  simp

@[simp] theorem Dev.aliveStops_mail (d : Dev) : (d.aliveStops).ports = d.ports ∧ (d.aliveStops).sent = d.sent := by
  unfold Dev.aliveStops
  simp

/-- PD12, whose reset empties the ports, is the exception. -/
theorem Dev.pdReset_mail (d : Dev) {k : Nat} (h : k ≠ 12) : (d.pdReset k).ports = d.ports ∧ (d.pdReset k).sent = d.sent := by
  unfold Dev.pdReset
  simp [h, Dev.closureReset, Dev.analogReset, Dev.lanternReset]

theorem Dev.domainReset_mail (d : Dev) {k : Nat} (h : k ≠ 12) :
    (d.domainReset k).ports = d.ports ∧ (d.domainReset k).sent = d.sent := by
  have hgo : ∀ e : Dev, (e.domainGo k).ports = e.ports ∧ (e.domainGo k).sent = e.sent := fun e => by
    simp [Dev.domainGo, e.pdReset_mail h]
  unfold Dev.domainReset Dev.domainAsk
  simp [hgo]

/-! ### The checks of a shot -/

@[simp] theorem Dev.storePut_mail (d : Dev) (w : Wr) (p : Put) : (d.storePut w p).ports = d.ports ∧ (d.storePut w p).sent = d.sent := by
  unfold Dev.storePut
  repeat' split
  all_goals simp [Dev.setBlob, Dev.putBlobAt_mail]

/-! ### The non-volatile store -/

@[simp] theorem Dev.restoreSkip_mail (d : Dev) : (d.restoreSkip).ports = d.ports ∧ (d.restoreSkip).sent = d.sent := by
  unfold Dev.restoreSkip
  simp

@[simp] theorem Dev.teethSaved_mail (d : Dev) : (d.teethSaved).ports = d.ports ∧ (d.teethSaved).sent = d.sent := by
  unfold Dev.teethSaved
  simp

@[simp] theorem Dev.trimsSaved_mail (d : Dev) : (d.trimsSaved).ports = d.ports ∧ (d.trimsSaved).sent = d.sent := by
  unfold Dev.trimsSaved
  simp

@[simp] theorem Dev.nvBegin_mail (d : Dev) (pair bank : Nat) (body : List Byte) (commit imported : Bool) :
    (d.nvBegin pair bank body commit imported).ports = d.ports ∧ (d.nvBegin pair bank body commit imported).sent = d.sent := by
  unfold Dev.nvBegin
  simp

@[simp] theorem Dev.commitP_mail (d : Dev) (empty : Bool) : (d.commitP empty).ports = d.ports ∧ (d.commitP empty).sent = d.sent := by
  unfold Dev.commitP
  simp

@[simp] theorem Dev.learnedBegin_mail (d : Dev) (commit imported : Bool) :
    (d.learnedBegin commit imported).ports = d.ports ∧ (d.learnedBegin commit imported).sent = d.sent := by
  unfold Dev.learnedBegin
  simp

@[simp] theorem Dev.commitL_mail (d : Dev) : (d.commitL).ports = d.ports ∧ (d.commitL).sent = d.sent := by
  unfold Dev.commitL
  simp
end Sys2Proof.Machine
end

section
/-! SUPPORT. The commands of a write (R15, R43, R457): they leave the answer that has gone out alone, but for those that silence the
port. -/

namespace Sys2Proof.Machine

/-- The newest message of every port stands. -/
def Dev.keepsLast (d e : Dev) : Prop := ∀ p, e.lastSent p = d.lastSent p

theorem Dev.keepsLast_of_mail {d e : Dev} (h : e.ports = d.ports ∧ e.sent = d.sent) : d.keepsLast e := fun p => by
  unfold Dev.lastSent Dev.port
  rw [h.1, h.2]

theorem Dev.keepsLast.answered {d e : Dev} (h : d.keepsLast e) {f : Frame} {st : Status} {data : List Byte} (ha : d.answered f st data) :
    e.answered f st data := by
  unfold Dev.answered at ha ⊢
  rwa [h]

/-- The close of a session changes the record of its port, but not what P0 has to read out. -/
theorem Dev.closeSession_keepsLast (d : Dev) (p reason : Nat) : d.keepsLast (d.closeSession p reason) := by
  have hport : ∀ (e : Dev) (r : Port), r.readout = (e.port p).readout → e.keepsLast (e.setPort p r) := fun e r hr q => by
    unfold Dev.lastSent
    rw [Dev.port_setPort]
    split
    · split
      · next hp => rw [hr, ← hp]
      · rfl
    · simp
  cases hopen : d.sessOpen p
  · have hdev : d.closeSession p reason = d := by simp [Dev.closeSession, hopen]
    rw [hdev]
    exact fun _ => rfl
  · obtain ⟨a, ha, hdev⟩ : ∃ a : Dev, (a.ports = d.ports ∧ a.sent = d.sent) ∧ d.closeSession p reason =
        ((((a.setPort p { (a.port p) with xfer := none, holdSince := a.now }).zero (0x1200 + p) 0x01 0x08).setObj (0x1200 + p) 0x0A
          reason).guardianLoss p).raiseIf (decide (2 ≤ reason) && decide (reason ≤ 4)) 120 := by
      refine ⟨(d.lossAction p).mapClaims (fun e => if e = p then e + 64 else e), by simp, ?_⟩
      unfold Dev.closeSession
      rw [if_pos hopen]
    intro q
    rw [hdev, Dev.keepsLast_of_mail (d := a.setPort p { (a.port p) with xfer := none, holdSince := a.now }) (by simp) q]
    refine (hport a _ ?_ q).trans (Dev.keepsLast_of_mail ha q)
    rfl

/-! ### The restore of the schedules -/

/-- Every record of a request is one of the request's index. -/
theorem requestsOf_idx {body : List Byte} {q : Nat × List NvRec} (hq : q ∈ requestsOf body) {r : NvRec} (hr : r ∈ q.2) : r.idx = q.1 := by
  have hadd : ∀ (l : List (Nat × List NvRec)) (x : NvRec), (∀ q ∈ l, ∀ r ∈ q.2, r.idx = q.1) → ∀ q ∈ addRec l x, ∀ r ∈ q.2, r.idx = q.1 := by
    intro l x hl
    unfold addRec
    split
    · next i rs rest =>
      split
      · next hi =>
        intro q hq r hr
        rcases List.mem_cons.mp hq with rfl | hq
        · rcases List.mem_append.mp hr with hr | hr
          · exact hl _ (List.mem_cons_self ..) r hr
          · rw [List.mem_singleton.mp hr, hi]
        · exact hl q (List.mem_cons_of_mem _ hq) r hr
      · intro q hq r hr
        rcases List.mem_cons.mp hq with rfl | hq
        · rw [List.mem_singleton.mp hr]
        · exact hl q hq r hr
    · intro q hq r hr
      rw [List.mem_singleton.mp hq] at hr ⊢
      rw [List.mem_singleton.mp hr]
  have hall : ∀ (xs : List NvRec) (l : List (Nat × List NvRec)), (∀ q ∈ l, ∀ r ∈ q.2, r.idx = q.1) →
      ∀ q ∈ xs.foldl addRec l, ∀ r ∈ q.2, r.idx = q.1 := by
    intro xs
    induction xs with
    | nil => exact fun l hl => hl
    | cons x xs ih => exact fun l hl => ih _ (hadd l x hl)
  exact hall (parseRecs body.length body) [] (by simp) q (List.mem_reverse.mp hq) r hr

/-- The shot and sheaf records are the blocks of the records' indices. -/
theorem kind_of_recIndex {i : Nat} (h : recIndex i = true) {b : ObjBlock} (hb : blockOf i = some b) : b.kind = .shot ∨ b.kind = .sheaf := by
  simp only [recIndex, Bool.or_eq_true, Bool.and_eq_true, decide_eq_true_eq] at h
  rcases h with h | h
  · rw [blockOf_eq (b := ⟨0x2400, 512, .sheaf, sheafRows⟩) (by simp [objBlocks]) h.1 h.2] at hb
    cases hb
    exact .inr rfl
  · rw [blockOf_eq (b := ⟨0x3000, 1024, .shot, shotRows⟩) (by simp [objBlocks]) h.1 h.2] at hb
    cases hb
    exact .inl rfl

/-- A record that is restored is stored and no more. -/
theorem Dev.restoreReq_mail {d e : Dev} {i : Nat} {rs : List NvRec} (hi : recIndex i = true) (h : d.restoreReq i rs = some e) :
    e.ports = d.ports ∧ e.sent = d.sent := by
  unfold Dev.restoreReq restoreWr at h
  cases hb : blockOf i with
  | none => simp [hb] at h
  | some b =>
    simp only [hb] at h
    obtain ⟨-, he⟩ := Option.ite_none_right_eq_some.mp h
    obtain rfl := Option.some.inj he
    rcases kind_of_recIndex hi hb with hk | hk <;> simp [Dev.accept, Dev.hooks, Dev.recHook, Dev.stored, Dev.writtenBy, hk]

/-- One request of a restore of the schedules. -/
def Dev.restoreOne (d : Dev) (above : Bool) (q : Nat × List NvRec) : Dev :=
  let rs := q.2.filter (fun r => recIndex r.idx)
  let known := rs.filter (recKnown above)
  let d := (rs.filter (fun r => !recKnown above r)).foldl (fun d _ => d.restoreSkip) d
  if known.isEmpty then d
  else match d.restoreReq q.1 known with
    | some e => e
    | none => d.restoreSkip

theorem Dev.restoreOne_mail (d : Dev) (above : Bool) {q : Nat × List NvRec} (hq : ∀ r ∈ q.2, r.idx = q.1) :
    (d.restoreOne above q).ports = d.ports ∧ (d.restoreOne above q).sent = d.sent := by
  unfold Dev.restoreOne
  dsimp only
  split
  · simp
  · next hknown =>
    obtain ⟨r, hr⟩ := List.exists_mem_of_ne_nil _ (fun hnil => hknown (List.isEmpty_iff.mpr hnil))
    have hrs := List.mem_filter.mp (List.mem_filter.mp hr).1
    have hrec : recIndex q.1 = true := hq r hrs.1 ▸ hrs.2
    split
    · next e he =>
      obtain ⟨hports, hsent⟩ := Dev.restoreReq_mail hrec he
      rw [hports, hsent]
      simp
    · simp

theorem Dev.restoreBody_mail (d : Dev) (above : Bool) (body : List Byte) :
    (d.restoreBody (fun i _ => recIndex i) above body).ports = d.ports ∧ (d.restoreBody (fun i _ => recIndex i) above body).sent = d.sent := by
  unfold Dev.restoreBody
  have hidx : ∀ q ∈ requestsOf body, ∀ r ∈ q.2, r.idx = q.1 := fun q hq r hr => requestsOf_idx hq hr
  generalize requestsOf body = l at hidx
  induction l generalizing d with
  | nil => exact ⟨rfl, rfl⟩
  | cons q l ih =>
    obtain ⟨hports, hsent⟩ := d.restoreOne_mail above (hidx q (List.mem_cons_self ..))
    obtain ⟨hports', hsent'⟩ := ih (d.restoreOne above q) (fun x hx => hidx x (List.mem_cons_of_mem _ hx))
    exact ⟨hports'.trans hports, hsent'.trans hsent⟩

theorem Dev.holdRelease_mail (d : Dev) (schedules : Bool) :
    (d.holdRelease schedules).ports = d.ports ∧ (d.holdRelease schedules).sent = d.sent := by
  unfold Dev.holdRelease
  dsimp only
  split
  · split
    · simp [Dev.restoreBody_mail]
    · simp
  · simp

/-! ### The commands -/

theorem Dev.driveCommand_mail (d : Dev) (w : Wr) (sub v : Nat) :
    (d.driveCommand w sub v).ports = d.ports ∧ (d.driveCommand w sub v).sent = d.sent := by
  unfold Dev.driveCommand
  dsimp only
  split
  all_goals simp [Dev.cancelRec, Dev.channelClear, Dev.bankClear, Dev.boostClear, Dev.closureClear, Dev.laneHold, Dev.laneClear,
    Dev.channelClearFault, Dev.channelDiagClear, Dev.bankClearFault, Dev.bankDiagClear, Dev.boostDiagClear, Dev.protectionClear]

theorem Dev.domainCommand_mail (d : Dev) (w : Wr) (sub v : Nat) :
    (d.domainCommand w sub v).ports = d.ports ∧ (d.domainCommand w sub v).sent = d.sent := by
  unfold Dev.domainCommand
  dsimp only
  split
  all_goals simp [Dev.wheelClear, Dev.disarm, Dev.domainClear, Dev.schedClear, Dev.synthClear]

theorem Dev.blockCommand_mail (d : Dev) (w : Wr) (sub v : Nat) :
    (d.blockCommand w sub v).ports = d.ports ∧ (d.blockCommand w sub v).sent = d.sent := by
  unfold Dev.blockCommand
  dsimp only
  split
  all_goals simp [Dev.pressureClear, Dev.vibrationClear, Dev.comparatorClear, Dev.rampStart, Dev.rampReturn, Dev.timerClear, Dev.routeClear,
    Dev.injectSet, Dev.lanternClear, Dev.loftClear, Dev.dmaClear]

/-- The commands that reset the ports or the device, or put it to sleep. -/
def silencing (k : ObjKind) (sub v : Nat) : Bool :=
  match k with
  | .firmware => true
  | .reset => decide (sub = 0x07) || (decide (sub ≠ 0x03) && decide (v = 12))
  | .power => decide (sub = 0x03)
  | _ => false

theorem Dev.deviceCommand_keepsLast (d : Dev) (w : Wr) {sub v : Nat} (h : silencing w.kind sub v = false) :
    d.keepsLast (d.deviceCommand w sub v) := by
  unfold Dev.deviceCommand
  cases hk : w.kind
  case session => exact d.closeSession_keepsLast w.inst 4
  case firmware => simp [silencing, hk] at h
  case reset =>
    simp only [silencing, hk, Bool.or_eq_false_iff, decide_eq_false_iff_not, Bool.and_eq_false_imp, decide_eq_true_eq] at h
    obtain ⟨hdevice, hports⟩ := h
    refine Dev.keepsLast_of_mail ?_
    dsimp only
    split
    · exact d.holdRelease_mail _
    · next hsub =>
      exact d.domainReset_mail (hports hsub)
  case power =>
    simp only [silencing, hk, decide_eq_false_iff_not] at h
    exact Dev.keepsLast_of_mail (by simp [h, Dev.powerClear])
  all_goals exact Dev.keepsLast_of_mail (by simp [Dev.irqClear, Dev.stackClear, Dev.answerBells])

/-- A command that does not silence its port leaves the newest message of every port alone. -/
theorem Dev.command_keepsLast (d : Dev) (w : Wr) {sub v : Nat} (h : silencing w.kind sub v = false) : d.keepsLast (d.command w sub v) := by
  have hdomain := Dev.keepsLast_of_mail (d.domainCommand_mail w sub v)
  have hblock := Dev.keepsLast_of_mail (d.blockCommand_mail w sub v)
  have hdevice := d.deviceCommand_keepsLast w h
  have hdrive := Dev.keepsLast_of_mail (d.driveCommand_mail w sub v)
  unfold Dev.command
  split <;> assumption

end Sys2Proof.Machine
end

section
/-! SUPPORT. An accepted WRITE (R11, R15, R43): its values are taken apart, stored in their objects, and answered. -/

namespace Sys2Proof.Machine

/-! ### The values of a write -/

/-- A subindex that has a line is below 256. -/
theorem sub_lt_of_objRow {i u : Nat} (h : (objRow i u).isSome = true) : u < 256 := by
  have hrows : ∀ b ∈ objBlocks, ∀ r ∈ b.rows, r.sub1 < 256 := by decide +kernel
  unfold objRow at h
  split at h
  · cases h
  · next b hb =>
    split at h
    · omega
    · obtain ⟨r, hr⟩ := Option.isSome_iff_exists.mp h
      have hlt := hrows b (List.mem_of_find?_eq_some hb) r (List.mem_of_find?_eq_some hr)
      have hin := List.find?_some hr
      simp only [Bool.and_eq_true, decide_eq_true_eq] at hin
      omega

/-- The subindices of a request are different ones. -/
theorem subsOf_nodup (f : Frame) : (subsOf f).Nodup := by
  unfold subsOf
  exact List.Nodup.map (fun a b h => by simpa using h) List.nodup_range

/-- Every value that a write splits into belongs to a line, and one of a BLOB is not longer than its object. -/
theorem splitPuts_fits {i : Nat} {subs : List Nat} {bs : List Byte} {puts : List Put} (h : splitPuts i subs bs = some puts) :
    ∀ q ∈ puts, ∃ row, objRow i q.sub = some row ∧ ∀ n, row.ty = .blob n → q.bytes.length ≤ n := by
  induction subs generalizing bs puts with
  | nil =>
    unfold splitPuts at h
    split at h
    · cases h
      simp
    · cases h
  | cons u subs ih =>
    unfold splitPuts at h
    split at h
    · next row hrow =>
      obtain ⟨hfits, h⟩ := Option.ite_none_right_eq_some.mp h
      obtain ⟨ps, hps, rfl⟩ := Option.map_eq_some_iff.mp h
      intro q hq
      rcases List.mem_cons.mp hq with rfl | hq
      · refine ⟨row, hrow, fun n hn => ?_⟩
        simp only [hn, Bool.and_eq_true, decide_eq_true_eq] at hfits ⊢
        simpa using hfits.1
      · exact ih hps q hq
    · cases h

/-! ### Stored values -/

/-- The symbols of a BLOB lie in the keys of their own object. -/
theorem Dev.obj_putBlobAt {i u j w : Nat} (hu : u < 256) (hw : w < 256) (hne : ¬(j = i ∧ w = u)) (bs : List Byte) (d : Dev) (off : Nat)
    (hlen : off + bs.length ≤ keySpan) : (Dev.putBlobAt d i u off bs).obj j w = d.obj j w := by
  induction bs generalizing d off with
  | nil => rfl
  | cons b bs ih =>
    rw [List.length_cons] at hlen
    unfold Dev.putBlobAt
    rw [ih _ (off + 1) (by omega)]
    unfold Dev.obj
    dsimp only
    rw [Store.get_put, if_neg]
    unfold keySpan at hlen
    unfold okey keySpan
    omega

theorem Dev.obj_setBlob (d : Dev) {i u j w n : Nat} (hu : u < 256) (hw : w < 256) (hne : ¬(j = i ∧ w = u)) {bs : List Byte}
    (hlen : bs.length ≤ n) (hn : n ≤ keySpan) : (d.setBlob i u n bs).obj j w = d.obj j w := by
  unfold Dev.setBlob
  refine Dev.obj_putBlobAt hu hw hne _ d 0 ?_
  simp
  omega

/-- A value that is stored fits its object. -/
def Wr.fits (w : Wr) (q : Put) : Prop :=
  ∃ row, objRow w.idx q.sub = some row ∧ unstored w.kind q.sub row.acc = false ∧
    ∀ n, row.ty = .blob n → q.bytes.length ≤ n ∧ n ≤ keySpan

/-- One stored value: its object reads it, unless it is a BLOB, and every other object stands. -/
theorem Dev.obj_storePut (d : Dev) {w : Wr} {q : Put} (h : w.fits q) :
    (∀ j u, u < 256 → ¬(j = w.idx ∧ u = q.sub) → (d.storePut w q).obj j u = d.obj j u) ∧
      (isBlob w.idx q.sub = false → (d.storePut w q).obj w.idx q.sub = q.raw) := by
  obtain ⟨row, hrow, hstored, hfits⟩ := h
  have hsub : q.sub < 256 := sub_lt_of_objRow (Option.isSome_iff_exists.mpr ⟨row, hrow⟩)
  unfold Dev.storePut
  simp only [hrow, hstored, Bool.false_eq_true, if_false]
  split
  · next n hn =>
    obtain ⟨hlen, hspan⟩ := hfits n hn
    exact ⟨fun j u hu hne => Dev.obj_setBlob d hsub hu hne hlen hspan, fun hb => by simp [isBlob, hrow, hn, OTy.isBlob] at hb⟩
  · exact ⟨fun j u hu hne => by rw [Dev.obj_setObj _ _ hsub hu, if_neg hne], fun _ => Dev.obj_setObj_self ..⟩

/-- The values of a write, one behind the other. -/
theorem Dev.obj_storePuts {w : Wr} {l : List Put} (h : ∀ q ∈ l, w.fits q) (hnodup : (l.map (·.sub)).Nodup) (d : Dev) :
    (∀ j u, u < 256 → ¬(j = w.idx ∧ u ∈ l.map (·.sub)) → (l.foldl (fun d p => d.storePut w p) d).obj j u = d.obj j u) ∧
      ∀ q ∈ l, isBlob w.idx q.sub = false → (l.foldl (fun d p => d.storePut w p) d).obj w.idx q.sub = q.raw := by
  induction l generalizing d with
  | nil => exact ⟨fun _ _ _ _ => rfl, fun q hq => absurd hq (List.not_mem_nil)⟩
  | cons x l ih =>
    obtain ⟨hx, hl⟩ := List.nodup_cons.mp (List.map_cons ▸ hnodup)
    obtain ⟨hkeep, hread⟩ := ih (fun q hq => h q (List.mem_cons_of_mem _ hq)) hl (d.storePut w x)
    have hfits := h x (List.mem_cons_self ..)
    have hsub : x.sub < 256 := by
      obtain ⟨row, hrow, -⟩ := hfits
      exact sub_lt_of_objRow (Option.isSome_iff_exists.mpr ⟨row, hrow⟩)
    refine ⟨fun j u hu hout => ?_, fun q hq hb => ?_⟩
    · rw [List.map_cons, List.mem_cons] at hout
      rw [List.foldl_cons, hkeep j u hu (fun hc => hout ⟨hc.1, .inr hc.2⟩)]
      exact (d.obj_storePut hfits).1 j u hu (fun hc => hout ⟨hc.1, .inl hc.2⟩)
    · rw [List.foldl_cons]
      rcases List.mem_cons.mp hq with rfl | hq
      · rw [hkeep _ _ hsub (fun hc => hx hc.2)]
        exact (d.obj_storePut hfits).2 hb
      · exact hread q hq hb

/-! ### Blocks that do nothing more -/

/-- A BLOB of such a block keeps within the keys of its object. -/
theorem blob_of_quiet {i u : Nat} {b : ObjBlock} {row : ObjRow} (hb : blockOf i = some b) (hq : b.kind.quiet = true)
    (hrow : objRow i u = some row) {n : Nat} (hn : row.ty = .blob n) : n ≤ keySpan := by
  have hrows : ∀ b ∈ objBlocks, b.kind.quiet = true → ∀ r ∈ b.rows, r.ty.isBlob = true → r.ty.size ≤ keySpan := by decide +kernel
  have hmem := List.mem_of_find?_eq_some hb
  unfold objRow at hrow
  simp only [hb] at hrow
  split at hrow
  · rw [← Option.some.inj hrow] at hn
    simp [ObjBlock.row0] at hn
  · have hsize := hrows b hmem hq row (List.mem_of_find?_eq_some hrow) (by rw [hn]; rfl)
    rwa [hn] at hsize

/-- An accepted write of a block that does nothing more: its values are stored. -/
theorem Dev.accepted_quiet (d : Dev) {w : Wr} (h : w.kind.quiet = true) :
    (d.sendPart w).accept w = (d.stored w).writtenBy w.master w.idx := by
  have hkind : w.kind ∈ ([.port, .notify, .profile, .channel, .lane, .chanDiag, .bankDiag, .boostDiag, .protect, .irq, .source, .stack,
      .doorbell, .route, .dma, .timebase, .reset] : List ObjKind) := by simpa [ObjKind.quiet] using h
  simp only [List.mem_cons, List.not_mem_nil, or_false] at hkind
  unfold Dev.accept Dev.sendPart Dev.hooks
  rcases hkind with hk | hk | hk | hk | hk | hk | hk | hk | hk | hk | hk | hk | hk | hk | hk | hk | hk <;> simp only [hk]

/-- A write without a command has nothing to do behind its response. -/
theorem Dev.commands_none (d : Dev) {w : Wr} (h : ∀ q ∈ w.puts, w.isCommand q = false) : d.commands w = d := by
  have hnil : w.puts.filter w.isCommand = [] := List.filter_eq_nil_iff.mpr (fun q hq => by simp [h q hq])
  unfold Dev.commands
  rw [hnil]
  rfl

/-! ### The commands behind the response -/

/-- The commands of the firmware, of the reset controller and of the power manager. -/
theorem command_subs {i u : Nat} {b : ObjBlock} {row : ObjRow} (hb : blockOf i = some b) (hrow : objRow i u = some row)
    (hc : row.acc = .cmd) : (b.kind = .firmware → u = 0x03) ∧ (b.kind = .reset → u = 0x03 ∨ u = 0x07 ∨ u = 0x08) := by
  have hfirmware : ∀ b ∈ objBlocks, b.kind = .firmware → ∀ r ∈ b.rows, r.acc = .cmd → r.sub0 = 0x03 ∧ r.sub1 = 0x03 := by decide +kernel
  have hreset : ∀ b ∈ objBlocks, b.kind = .reset → ∀ r ∈ b.rows, r.acc = .cmd →
      r.sub0 = r.sub1 ∧ (r.sub0 = 0x03 ∨ r.sub0 = 0x07 ∨ r.sub0 = 0x08) := by decide +kernel
  have hmem := List.mem_of_find?_eq_some hb
  unfold objRow at hrow
  simp only [hb] at hrow
  split at hrow
  · rw [← Option.some.inj hrow] at hc
    simp [ObjBlock.row0] at hc
  · have hr := List.mem_of_find?_eq_some hrow
    have hin := List.find?_some hrow
    simp only [Bool.and_eq_true, decide_eq_true_eq] at hin
    obtain ⟨⟨⟨h0, h1⟩, -⟩, -⟩ := hin
    refine ⟨fun hk => ?_, fun hk => ?_⟩
    · have := hfirmware b hmem hk row hr hc
      omega
    · have := hreset b hmem hk row hr hc
      omega

/-- A command of a write that does not silence its port is none of those that do. -/
theorem not_silencing {p i : Nat} {b : ObjBlock} {puts : List Put} (hb : blockOf i = some b) (hnodup : (puts.map (·.sub)).Nodup)
    (hs : (hostWr p i b puts).silences = false) {q : Put} (hq : q ∈ puts) (hc : (hostWr p i b puts).isCommand q = true) :
    silencing b.kind q.sub q.raw = false := by
  have hhas : ∀ u, q.sub = u → (hostWr p i b puts).has u = true := fun u hu =>
    List.any_eq_true.mpr ⟨q, hq, decide_eq_true hu⟩
  have hval : ∀ u v, q.sub = u → q.raw = v → (hostWr p i b puts).is u v = true := by
    intro u v hu hv
    have hfind : puts.find? (fun x => decide (x.sub = u)) = some q := by
      cases hf : puts.find? (fun x => decide (x.sub = u)) with
      | none =>
        have := List.find?_eq_none.mp hf q hq
        simp [hu] at this
      | some x =>
        have hx : x.sub = u := by simpa using List.find?_some hf
        exact congrArg some (List.inj_on_of_nodup_map hnodup (List.mem_of_find?_eq_some hf) hq (hx.trans hu.symm))
    simp [Wr.is, Wr.val, hostWr, hfind, hv]
  obtain ⟨row, hrow, hacc⟩ : ∃ row, objRow i q.sub = some row ∧ row.acc = .cmd := by
    unfold Wr.isCommand at hc
    split at hc
    · next row hrow => exact ⟨row, hrow, by simpa using hc⟩
    · cases hc
  obtain ⟨hfirmware, hreset⟩ := command_subs hb hrow hacc
  have hkind : (hostWr p i b puts).kind = b.kind := rfl
  simp only [Wr.silences, hkind, Bool.or_eq_false_iff, Bool.and_eq_false_imp, decide_eq_true_eq] at hs
  obtain ⟨⟨hsf, hsr⟩, hsp⟩ := hs
  unfold silencing
  split
  · next hk =>
    have := hhas _ (hfirmware hk)
    rw [hsf hk] at this
    cases this
  · next hk =>
    obtain ⟨hdevice, hports⟩ := hsr hk
    rcases hreset hk with hu | hu | hu
    · simp [hu]
    · rw [hhas _ hu] at hdevice
      cases hdevice
    · have hraw : q.raw ≠ 12 := fun hv => by
        rw [hval _ _ hu hv] at hports
        cases hports
      simp [hu, hraw]
  · next hk =>
    have hne : q.sub ≠ 0x03 := fun hu => by
      have := hhas _ hu
      rw [hsp hk] at this
      cases this
    simp [hne]
  · rfl

/-- The commands of such a write leave the response alone. -/
theorem Dev.commands_keepsLast (d : Dev) {w : Wr} (h : ∀ q ∈ w.puts, w.isCommand q = true → silencing w.kind q.sub q.raw = false) :
    d.keepsLast (d.commands w) := by
  have hrun : ∀ (l : List Put) (e : Dev), (∀ q ∈ l, silencing w.kind q.sub q.raw = false) →
      e.keepsLast (l.foldl (fun d p => d.command w p.sub p.raw) e) := by
    intro l
    induction l with
    | nil => exact fun e _ _ => rfl
    | cons q l ih =>
      exact fun e hl p => (ih _ (fun x hx => hl x (List.mem_cons_of_mem _ hx)) p).trans
        (e.command_keepsLast w (hl q (List.mem_cons_self ..)) p)
  exact hrun _ d (fun q hq => h q (List.mem_filter.mp hq).1 (List.mem_filter.mp hq).2)

/-! ### The write completes -/

/-- A WRITE that no refusal meets is applied. -/
theorem Dev.sopWrite_applied {d : Dev} {f : Frame} {b : ObjBlock} {puts : List Put} (hb : blockOf f.index = some b)
    (hsubs : ∀ w ∈ subsOf f, (objRow f.index w).isSome = true ∧ blockOnly f.index w = false) (hlen : f.data.length ≤ maxData f.req.port)
    (hputs : splitPuts f.index (subsOf f) f.data = some puts) (hw : d.wRefusal savedBankValid (hostWr f.req.port f.index b puts) = none) :
    d.sopWrite f = d.applied (hostWr f.req.port f.index b puts) := by
  have hrows : (subsOf f).any (fun s => (objRow f.index s).isNone) = false :=
    List.any_eq_false.mpr (fun u hu => by simp [Option.isSome_iff_ne_none.mp (hsubs u hu).1])
  have hblock : (subsOf f).any (blockOnly f.index) = false := List.any_eq_false.mpr (fun u hu => by simp [(hsubs u hu).2])
  unfold Dev.sopWrite
  simp only [hb, hrows, hblock, Nat.not_lt.mpr hlen, hputs, hw, decide_false, Bool.or_self, Bool.false_eq_true, if_false]

/-- Settles O9: the write is applied and answered; its values stand where nothing more happens, and of the commands behind the response
only those that silence a port touch what has gone out. -/
theorem writeStores : Obligations.WriteStores := by
  intro s t f hop hadmits g p hsubs hlen b hb puts hputs w hrefusal
  have hgidx : (frameUnpad f).index = f.index := by simp
  have hans : s.answer t f = ((s.devAt t).served (frameUnpad f)).applied w := by
    refine (Dev.sopBody_write (by simp [hop]) ..).trans ?_
    have hserved : (s.devAt t).served (frameUnpad f) = ((s.devAt t).arrive f.req).staged (frameUnpad f) := by
      rw [Dev.served, (frameUnpad_header f).1]
    have happlied := Dev.sopWrite_applied (d := (s.devAt t).served (frameUnpad f)) (f := frameUnpad f) (b := b) (puts := puts)
      (by simpa using hb) (by simpa using hsubs) (by simpa using hlen) (by simpa using hputs) (by rw [hserved]; simpa using hrefusal)
    simpa using happlied
  have hnext := State.requests_of_admits hadmits
  rw [hans] at hnext
  have hnodup : (puts.map (·.sub)).Nodup := (splitPuts_subs hputs).symm ▸ subsOf_nodup f
  refine ⟨_, (exec_write s t hop).trans hnext, fun hs => ?_, fun hquiet hs hstored => ?_⟩
  · have hresponse := Dev.respond_answered (((s.devAt t).served (frameUnpad f)).applied w).dev (frameUnpad f) .ok []
    rw [← hs] at hresponse
    exact (Dev.commands_keepsLast _ (fun q hq hc => not_silencing hb hnodup hs hq hc)).answered (Dev.answered_of_unpad hresponse)
  · have hfits : ∀ q ∈ puts, w.fits q := fun q hq => by
      obtain ⟨row, hrow, hlen'⟩ := splitPuts_fits hputs q hq
      exact ⟨row, hrow, hstored q hq row hrow, fun n hn => ⟨hlen' n hn, blob_of_quiet hb hquiet hrow hn⟩⟩
    have hcommand : ∀ q ∈ puts, w.isCommand q = false := fun q hq => by
      obtain ⟨row, hrow, hunstored, -⟩ := hfits q hq
      have hacc : row.acc ≠ .cmd := fun hc => by simp [unstored, hc] at hunstored
      have hrow' : objRow w.idx q.sub = some row := hrow
      simp [Wr.isCommand, hrow', hacc]
    obtain ⟨hkeep, hread⟩ := Dev.obj_storePuts hfits hnodup ((s.devAt t).served (frameUnpad f))
    have hobj : ∀ i u, ((((s.devAt t).served (frameUnpad f)).applied w).sent (frameUnpad f)).obj i u =
        (puts.foldl (fun d q => d.storePut w q) ((s.devAt t).served (frameUnpad f))).obj i u := by
      intro i u
      have hdev : (((s.devAt t).served (frameUnpad f)).applied w).sent (frameUnpad f) =
          ((((s.devAt t).served (frameUnpad f)).stored w).writtenBy w.master w.idx).respond (frameUnpad f) .ok [] w.silences := by
        refine (Dev.commands_none _ hcommand).trans ?_
        exact congrArg (fun e : Dev => e.respond (frameUnpad f) .ok [] w.silences) (Dev.accepted_quiet _ hquiet)
      rw [hdev, Dev.obj_congr (Dev.respond_regs _ _ _ _ (by decide)), Dev.writtenBy_obj]
      rfl
    refine ⟨fun q hq hblob => (hobj ..).trans (hread q hq hblob), fun i u hu hout => ?_⟩
    simp only [Bool.or_eq_false_iff, Bool.and_eq_false_imp, decide_eq_true_eq] at hout
    obtain ⟨hport, hother⟩ := hout
    refine (hobj i u).trans ((hkeep i u hu (fun hc => ?_)).trans (Dev.served_portObjs _ _ i u hu hport))
    rw [splitPuts_subs hputs] at hc
    have := hother hc.1
    simp [hc.2] at this

end Sys2Proof.Machine
end

section
/-! SUPPORT. What the scheduler and the drive leave alone beside the objects: the counter. A disarm ends shots, and no time passes. -/

namespace Sys2Proof.Machine

@[simp] theorem Dev.now_ite (c : Prop) [Decidable c] (a b : Dev) : (if c then a else b).now = if c then a.now else b.now := apply_ite ..

/-- Steps in which no time passes, one behind the other. -/
@[simp] theorem Dev.foldl_now {α : Type} {g : Dev → α → Dev} (h : ∀ e x, (g e x).now = e.now) (l : List α) (d : Dev) :
    (l.foldl g d).now = d.now := Dev.foldl_keeps Dev.now h l d

@[simp] theorem Dev.raise_now (d : Dev) (x : Nat) : (d.raise x).now = d.now := by
  unfold Dev.raise
  dsimp only
  repeat' split
  all_goals simp

@[simp] theorem Dev.raiseIf_now (d : Dev) (c : Bool) (x : Nat) : (d.raiseIf c x).now = d.now := by
  unfold Dev.raiseIf
  simp

@[simp] theorem Dev.pulseAt_now (d : Dev) (n at_ : Nat) : (d.pulseAt n at_).now = d.now := by
  unfold Dev.pulseAt
  simp

@[simp] theorem Dev.pulse_now (d : Dev) (n : Nat) : (d.pulse n).now = d.now := Dev.pulseAt_now d n d.now

@[simp] theorem Dev.pulseIf_now (d : Dev) (c : Bool) (n : Nat) : (d.pulseIf c n).now = d.now := by
  unfold Dev.pulseIf
  simp

@[simp] theorem Dev.mapCaps_now (d : Dev) (f : Cap → Cap) : (d.mapCaps f).now = d.now := by
  unfold Dev.mapCaps
  simp

@[simp] theorem Dev.laneRelease_now (d : Dev) (id : Nat) : (d.laneRelease id).now = d.now := by
  unfold Dev.laneRelease
  simp

@[simp] theorem Dev.cloQueue_now (d : Dev) (n : Nat) (r : CloRes) : (d.cloQueue n r).now = d.now := by
  unfold Dev.cloQueue
  simp

@[simp] theorem Dev.capAbort_now (d : Dev) (id : Nat) : (d.capAbort id).now = d.now := by
  unfold Dev.capAbort
  simp

@[simp] theorem Dev.capStop_now (d : Dev) (scope : Nat → Nat → Bool) : (d.capStop scope).now = d.now := by
  unfold Dev.capStop
  simp

@[simp] theorem Dev.capNote_now (d : Dev) (id start chanOut shotOut : Nat) : (d.capNote id start chanOut shotOut).now = d.now := by
  unfold Dev.capNote
  simp

@[simp] theorem Dev.capBankChange_now (d : Dev) (b : Nat) : (d.capBankChange b).now = d.now := by
  unfold Dev.capBankChange
  simp

@[simp] theorem Dev.occFlag_now (d : Dev) (id mask : Nat) : (d.occFlag id mask).now = d.now := by
  unfold Dev.occFlag
  simp

@[simp] theorem Dev.treeEnds_now (d : Dev) (t : Nat) : (d.treeEnds t).now = d.now := by
  unfold Dev.treeEnds
  simp

@[simp] theorem Dev.countOutcome_now (d : Dev) (t : Nat) : (d.countOutcome t).now = d.now := by
  unfold Dev.countOutcome
  simp

@[simp] theorem Dev.treeCheck_now (d : Dev) (t : Nat) : (d.treeCheck t).now = d.now := by
  unfold Dev.treeCheck
  simp

@[simp] theorem Dev.occGone_now (d : Dev) (id mask : Nat) : (d.occGone id mask).now = d.now := by
  unfold Dev.occGone
  simp

@[simp] theorem Dev.settleRefs_now (f : Nat) (d : Dev) (t : Nat) : (Dev.settleRefs f d t).now = d.now := by
  induction f generalizing d with
  | zero => rfl
  | succ f ih =>
    unfold Dev.settleRefs
    split
    · rfl
    · simp [ih]

@[simp] theorem Dev.treeRefs_now (d : Dev) (t : Nat) : (d.treeRefs t).now = d.now := by
  unfold Dev.treeRefs
  simp

@[simp] theorem Dev.occDrop_now (d : Dev) (id mask : Nat) : (d.occDrop id mask).now = d.now := by
  unfold Dev.occDrop
  simp

@[simp] theorem Dev.occStart_now (d : Dev) (id at_ : Nat) : (d.occStart id at_).now = d.now := by
  unfold Dev.occStart
  simp

@[simp] theorem Dev.occEnd_now (d : Dev) (id mask chanOut : Nat) : (d.occEnd id mask chanOut).now = d.now := by
  unfold Dev.occEnd
  simp

@[simp] theorem Dev.bankStatus_now (d : Dev) (b : Nat) : (d.bankStatus b).now = d.now := by
  unfold Dev.bankStatus
  simp

@[simp] theorem Dev.switchBank_now (d : Dev) (b : Nat) (want : Option Bool) : (d.switchBank b want).now = d.now := by
  unfold Dev.switchBank
  dsimp only
  repeat' split
  all_goals simp

@[simp] theorem Dev.slowToFast_now (d : Dev) (b : Nat) : (d.slowToFast b).now = d.now := by
  unfold Dev.slowToFast
  simp

@[simp] theorem Dev.bankApply_now (d : Dev) (b : Nat) : (d.bankApply b).now = d.now := by
  unfold Dev.bankApply
  simp

@[simp] theorem Dev.sawCurrent_now (d : Dev) (n cur : Nat) : (d.sawCurrent n cur).now = d.now := by
  unfold Dev.sawCurrent
  simp

@[simp] theorem Dev.boostOver_now (d : Dev) (n : Nat) : (d.boostOver n).now = d.now := by
  unfold Dev.boostOver
  simp

@[simp] theorem Dev.enterPhase_now (d : Dev) (n ph cur : Nat) : (d.enterPhase n ph cur).now = d.now := by
  unfold Dev.enterPhase
  simp

@[simp] theorem Dev.gotoPhase_now (d : Dev) (n ph cur : Nat) (wait : Bool) : (d.gotoPhase n ph cur wait).now = d.now := by
  unfold Dev.gotoPhase
  simp

@[simp] theorem Dev.beginRun_now (d : Dev) (n at_ : Nat) : (d.beginRun n at_).now = d.now := by
  unfold Dev.beginRun
  dsimp only
  repeat' split
  all_goals simp [Dev.chanOut]

@[simp] theorem Dev.driveDrop_now (d : Dev) (n out diag : Nat) : (d.driveDrop n out diag).now = d.now := by
  unfold Dev.driveDrop
  dsimp only
  repeat' split
  all_goals simp [Dev.chanOut, Dev.chanDiag]

@[simp] theorem Dev.overlapDrop_now (d : Dev) (n out : Nat) (priority : Bool) : (d.overlapDrop n out priority).now = d.now := by
  unfold Dev.overlapDrop
  simp [Dev.ovlCause]

@[simp] theorem Dev.checkDrop_now (d : Dev) (n bit_ : Nat) : (d.checkDrop n bit_).now = d.now := by
  unfold Dev.checkDrop
  simp

@[simp] theorem Dev.takeBank_now (d : Dev) (n at_ cur : Nat) (wait : Bool) : (d.takeBank n at_ cur wait).now = d.now := by
  unfold Dev.takeBank
  simp [Dev.chanOut]

@[simp] theorem Dev.bankNext_now (f : Nat) (d : Dev) (b : Nat) : (Dev.bankNext f d b).now = d.now := by
  induction f generalizing d with
  | zero => rfl
  | succ f ih =>
    unfold Dev.bankNext
    dsimp only
    repeat' split
    all_goals simp [ih]

@[simp] theorem Dev.holderLeaves_now (d : Dev) (b : Nat) : (d.holderLeaves b).now = d.now := by
  unfold Dev.holderLeaves
  simp

@[simp] theorem Dev.releaseIf_now (d : Dev) (n : Nat) : (d.releaseIf n).now = d.now := by
  unfold Dev.releaseIf
  simp

@[simp] theorem Dev.toDecay_now (d : Dev) (n : Nat) (slow : Bool) : (d.toDecay n slow).now = d.now := by
  unfold Dev.toDecay
  simp

@[simp] theorem Dev.cutChan_now (d : Dev) (n mask : Nat) : (d.cutChan n mask).now = d.now := by
  unfold Dev.cutChan
  dsimp only
  repeat' split
  all_goals simp

@[simp] theorem Dev.stopOcc_now (d : Dev) (id mask : Nat) : (d.stopOcc id mask).now = d.now := by
  unfold Dev.stopOcc
  split <;> simp

@[simp] theorem Dev.stopAll_now (d : Dev) (ids : List Nat) (mask : Nat) (cnt : Option Nat) : (d.stopAll ids mask cnt).now = d.now := by
  have note : ∀ (e : Dev) (k : Nat), (cnt.elim e (fun c => e.inc (0x2180 + k) c)).now = e.now := by
    intro e k
    cases cnt <;> simp
  unfold Dev.stopAll
  simp [note]

@[simp] theorem Dev.stopWhere_now (d : Dev) (p : Occ → Bool) (mask cnt : Nat) : (d.stopWhere p mask cnt).now = d.now := by
  unfold Dev.stopWhere
  simp

@[simp] theorem Dev.stateSource_now (d : Dev) (dom : Nat) (any : Bool) : (d.stateSource dom any).now = d.now := by
  unfold Dev.stateSource
  simp

@[simp] theorem Dev.forgetArmed_now (d : Dev) (dom : Nat) : (d.forgetArmed dom).now = d.now := by
  unfold Dev.forgetArmed
  simp

@[simp] theorem Dev.disarmOccs_now (d : Dev) (doms : List Nat) (veto : Bool) : (d.disarmOccs doms veto).now = d.now := by
  unfold Dev.disarmOccs
  simp

@[simp] theorem Dev.slowEnds_now (d : Dev) : (d.slowEnds).now = d.now := by
  unfold Dev.slowEnds
  simp

@[simp] theorem Dev.disarmDoms_now (d : Dev) (doms : List Nat) (veto : Bool) : (d.disarmDoms doms veto).now = d.now := by
  unfold Dev.disarmDoms
  simp


end Sys2Proof.Machine
end

section
/-! SUPPORT. The Timebase (R107, R108, R111, R113): the status bits and the objects after a loss of the reference, on the way back from
RC fallback, and after a calibration of the vernier. -/

namespace Sys2Proof.Machine

/-! ### Bits of the status -/

theorem Dev.tbBit_tbSet (d : Dev) (b k : Nat) (on : Bool) : (d.tbSet b on).tbBit k = if k = b then on else d.tbBit k := by
  simp [Dev.tbBit, Dev.tbSet, Dev.bit_setBit]

theorem Dev.tbBit_setObj (d : Dev) {u : Nat} (v k : Nat) (hu : u < 256) (h : u ≠ 0x04) : (d.setObj 0x2000 u v).tbBit k = d.tbBit k := by
  unfold Dev.tbBit Dev.bit
  rw [Dev.obj_setObj_sub _ _ hu (by decide) h.symm]

theorem Dev.tbBit_congr {d e : Dev} (h : d.regs = e.regs) (k : Nat) : d.tbBit k = e.tbBit k := by
  unfold Dev.tbBit Dev.bit
  rw [Dev.obj_congr h]

/-- A status bit that is set changes no other object. -/
theorem Dev.obj_tbSet (d : Dev) (b : Nat) (on : Bool) {i u : Nat} (hu : u < 256) (h : ¬(i = 0x2000 ∧ u = 0x04)) :
    (d.tbSet b on).obj i u = d.obj i u := Dev.obj_setBit d b on (by decide) hu h

@[simp] theorem Dev.tbSet_now (d : Dev) (b : Nat) (on : Bool) : (d.tbSet b on).now = d.now := by simp [Dev.tbSet]

@[simp] theorem Dev.tbSet_tb (d : Dev) (b : Nat) (on : Bool) : (d.tbSet b on).tb = d.tb := by simp [Dev.tbSet]

/-- The status word is one of the objects that a command lists. -/
theorem Dev.sameBut.tbSet {d e : Dev} {P : Nat → Nat → Bool} (h : d.sameBut e P) (b : Nat) (on : Bool) (hp : P 0x2000 0x04 = true) :
    d.sameBut (e.tbSet b on) P := h.setObj _ (by decide) hp

/-! ### Source 125 -/

@[simp] theorem Dev.raise_tb (d : Dev) (x : Nat) : (d.raise x).tb = d.tb := by
  unfold Dev.raise
  dsimp only
  repeat' split
  all_goals simp

@[simp] theorem Dev.raiseTb_regs (d : Dev) : d.raiseTb.regs = d.regs := by
  unfold Dev.raiseTb
  split
  · exact d.raise_regs 125
  · rfl

/-- Raising source 125, or owing it, touches neither the wait for the reference nor the failures of the vernier. -/
@[simp] theorem Dev.raiseTb_tb (d : Dev) : d.raiseTb.tb.restore = d.tb.restore ∧ d.raiseTb.tb.vernFails = d.tb.vernFails := by
  unfold Dev.raiseTb
  split <;> simp

/-! ### The reference is lost -/

/-- An entry of the event log, or its drop, changes no object of the Timebase. -/
theorem Dev.obj_logEvent (d : Dev) (cls cause src data : Nat) {i u : Nat} (hu : u < 256) (hi : i ≠ 0x2F20) :
    (d.logEvent cls cause src data).obj i u = d.obj i u := by
  unfold Dev.logEvent
  dsimp only
  split
  · rw [Dev.raiseIf_obj, Dev.obj_inc _ (by decide) hu, if_neg (fun hc => hi hc.1)]
    exact Dev.obj_congr rfl ..
  · exact Dev.obj_congr rfl ..

/-- The objects of the Timebase as the record of a loss leaves them: the bits and the count, the time, the RC oscillator. -/
def Dev.lossMarked (d : Dev) : Dev :=
  ((((d.tbSet 2 true).tbSet 1 true).inc 0x2000 0x05).setObj 0x2000 0x06 d.now).setObj 0x2000 0x03 0

theorem Dev.obj_lossNote (d : Dev) {i u : Nat} (hu : u < 256) (hi : i ≠ 0x2F20) : d.lossNote.obj i u = d.lossMarked.obj i u := by
  have hdev : d.lossNote = (Dev.raiseTb { d.lossMarked with
      tb := { d.lossMarked.tb with restore := some (0, d.now) } }).logEvent 3 125 125 0 := rfl
  rw [hdev, Dev.obj_logEvent _ _ _ _ _ hu hi, Dev.obj_congr (Dev.raiseTb_regs _)]
  rfl

theorem Dev.obj_lossMarked (d : Dev) {i u : Nat} (hu : u < 256) (h : ¬(i = 0x2000 ∧ u = 0x04)) :
    d.lossMarked.obj i u = if i = 0x2000 ∧ u = 0x03 then 0 else if i = 0x2000 ∧ u = 0x06 then d.now
      else if i = 0x2000 ∧ u = 0x05 then satInc32 (d.obj 0x2000 0x05) else d.obj i u := by
  unfold Dev.lossMarked
  rw [Dev.obj_setObj _ _ (by decide) hu, Dev.obj_setObj _ _ (by decide) hu, Dev.obj_inc _ (by decide) hu, Dev.obj_tbSet _ _ _ hu h,
    Dev.obj_tbSet _ _ _ hu h, Dev.obj_tbSet _ _ _ (by decide) (by decide), Dev.obj_tbSet _ _ _ (by decide) (by decide)]

/-- A loss sets pll_locked, for the RC oscillator, and ref_lost. -/
theorem Dev.tbBit_lossNote (d : Dev) (k : Nat) : d.lossNote.tbBit k = if k = 1 then true else if k = 2 then true else d.tbBit k := by
  have hmarked : d.lossNote.tbBit k = d.lossMarked.tbBit k := congrArg (Nat.testBit · k) (d.obj_lossNote (by decide) (by decide))
  rw [hmarked, Dev.lossMarked, Dev.tbBit_setObj _ _ _ (by decide) (by decide), Dev.tbBit_setObj _ _ _ (by decide) (by decide), Dev.inc,
    Dev.tbBit_setObj _ _ _ (by decide) (by decide), Dev.tbBit_tbSet, Dev.tbBit_tbSet]

/-- What a loss of the reference leaves in the Timebase (R111). -/
def Dev.LossCounted (d u : Dev) : Prop :=
  u.obj 0x2000 0x05 = satInc32 (d.obj 0x2000 0x05) ∧ u.obj 0x2000 0x06 = d.now ∧ u.obj 0x2000 0x03 = 0 ∧ u.tbBit 2 = true ∧
    u.tbBit 3 = true ∧ u.tbBit 0 = false

/-- A loss is counted on the device that has noted it: in RC fallback, with ref_valid down. -/
theorem Dev.lossCounted_of_note {d e : Dev} (hcount : e.obj 0x2000 0x05 = d.obj 0x2000 0x05) (hnow : e.now = d.now)
    (hfallback : e.tbBit 3 = true) (hvalid : e.tbBit 0 = false) : d.LossCounted e.lossNote := by
  have hobj : ∀ u < 256, u ≠ 0x04 → e.lossNote.obj 0x2000 u = _ := fun u hu h =>
    (e.obj_lossNote hu (by decide)).trans (e.obj_lossMarked hu (by simp [h]))
  exact ⟨(hobj 0x05 (by decide) (by decide)).trans (congrArg satInc32 hcount), (hobj 0x06 (by decide) (by decide)).trans hnow,
    hobj 0x03 (by decide) (by decide), e.tbBit_lossNote 2, (e.tbBit_lossNote 3).trans hfallback, (e.tbBit_lossNote 0).trans hvalid⟩

/-- A loss during relocking (R113). -/
theorem Dev.refLoss_relocking {d : Dev} (hfallback : d.tbBit 3 = true) (hrelock : d.tbBit 4 = true) :
    d.LossCounted d.refLoss ∧ d.refLoss.tbBit 4 = false := by
  have hdev : d.refLoss = ((d.tbSet 4 false).tbSet 0 false).lossNote := by simp [Dev.refLoss, hfallback, hrelock]
  rw [hdev]
  refine ⟨Dev.lossCounted_of_note ?_ (by simp) ?_ ?_, ?_⟩
  · rw [Dev.obj_tbSet _ _ _ (by decide) (by decide), Dev.obj_tbSet _ _ _ (by decide) (by decide)]
  · simp [Dev.tbBit_tbSet, hfallback]
  · simp [Dev.tbBit_tbSet]
  · simp [Dev.tbBit_lossNote, Dev.tbBit_tbSet]

/-- The links that a loss of the reference takes down raise their source and change no object (R112). -/
def Dev.linksFall (d : Dev) : Dev := ([4, 5] : List Nat).foldl (fun (d : Dev) p => d.raiseIf (d.linkUp p) 120) d

theorem Dev.linksFall_regs (d : Dev) : d.linksFall.regs = d.regs := Dev.foldl_keeps Dev.regs (fun e _ => e.raiseIf_regs _ _) _ d

theorem Dev.linksFall_now (d : Dev) : d.linksFall.now = d.now := Dev.foldl_now (fun e _ => e.raiseIf_now _ _) _ d

/-- The first loss (R111): both domains are disarmed before it is noted. -/
theorem Dev.refLoss_first {d : Dev} (hfallback : d.tbBit 3 = false) (hvalid : d.tbBit 0 = true) :
    d.LossCounted d.refLoss ∧ ∀ k < 2, d.refLoss.disarmed k := by
  have hdev : d.refLoss = ((((d.tbSet 0 false).disarmBoth false).linksFall).tbSet 3 true).lossNote := by
    simp [Dev.refLoss, hfallback, hvalid, Dev.linksFall]
  have htimebase : ∀ u < 256, (((d.tbSet 0 false).disarmBoth false).linksFall).obj 0x2000 u = (d.tbSet 0 false).obj 0x2000 u :=
    fun u hu => (Dev.obj_congr (Dev.linksFall_regs _) ..).trans (Dev.obj_disarmDoms _ _ _ (by decide) hu)
  rw [hdev]
  refine ⟨Dev.lossCounted_of_note ?_ ?_ ?_ ?_, fun k hk => ?_⟩
  · rw [Dev.obj_tbSet _ _ _ (by decide) (by decide), htimebase _ (by decide), Dev.obj_tbSet _ _ _ (by decide) (by decide)]
  · simp [Dev.linksFall_now, Dev.disarmBoth]
  · simp [Dev.tbBit_tbSet]
  · have hdown : (((d.tbSet 0 false).disarmBoth false).linksFall).tbBit 0 = (d.tbSet 0 false).tbBit 0 :=
      congrArg (Nat.testBit · 0) (htimebase 0x04 (by decide))
    rw [Dev.tbBit_tbSet, if_neg (by decide), hdown, Dev.tbBit_tbSet, if_pos rfl]
  · unfold Dev.disarmed Dev.bit
    rw [Dev.obj_lossNote _ (by decide) (by omega), Dev.obj_lossMarked _ (by decide) (by omega), if_neg (by omega), if_neg (by omega),
      if_neg (by omega), Dev.obj_tbSet _ _ _ (by decide) (by omega), Dev.obj_congr (Dev.linksFall_regs _)]
    exact Dev.disarmDoms_disarmed _ _ (by simp; omega) (by omega)

/-! ### The way back -/

/-- A reference that has stayed valid long enough is locked to (R113). -/
theorem Dev.refRestore_locks {d : Dev} {refIn : Nat} {crystal : Bool} (hchoice : refChoice refIn crystal ≠ 0)
    (hfallback : d.tbBit 3 = true) (hrelock : d.tbBit 4 = false) {x since : Nat} (hsince : d.tb.restore = some (x, since))
    (hlong : since + d.obj 0x2000 0x07 * tqMs ≤ d.now) :
    d.refRestore refIn crystal =
      (((d.tbSet 0 true).tbSet 4 true).tbSet 1 false).setObj 0x2000 0x03 (refChoice refIn crystal) := by
  simp [Dev.refRestore, hchoice, hfallback, hrelock, hsince, hlong]

/-- REF_IN comes before the crystal. -/
theorem refChoice_of_ne {refIn : Nat} {crystal : Bool} (h : refChoice refIn crystal ≠ 0) :
    refChoice refIn crystal = if 2 ≤ refIn then refIn else 1 := by
  unfold refChoice at h ⊢
  cases crystal <;> simp_all

/-- The lock ends the fallback (R113). -/
theorem Dev.relockDone_ends {d : Dev} (hfallback : d.tbBit 3 = true) (hrelock : d.tbBit 4 = true) :
    d.relockDone.regs = (((d.tbSet 3 false).tbSet 4 false).tbSet 1 true).regs ∧ d.relockDone.tb.restore = none := by
  have hdev : d.relockDone = Dev.raiseTb { ((d.tbSet 3 false).tbSet 4 false).tbSet 1 true with
      tb := { (((d.tbSet 3 false).tbSet 4 false).tbSet 1 true).tb with restore := none } } := by
    simp [Dev.relockDone, hfallback, hrelock]
  rw [hdev]
  exact ⟨Dev.raiseTb_regs _, (Dev.raiseTb_tb _).1⟩

/-! ### The vernier -/

/-- The status word of the Timebase. -/
def tbStatus (i w : Nat) : Bool := decide (i = 0x2000) && decide (w = 0x04)

theorem Dev.vernierSet_sets (d : Dev) (fail : Bool) : (d.vernierSet fail).tbBit 5 = fail ∧
    (d.vernierSet fail).tb.vernFails = d.tb.vernFails ∧ d.sameBut (d.vernierSet fail) tbStatus := by
  unfold Dev.vernierSet
  split
  · next h => exact ⟨h, rfl, Dev.sameBut_refl _ _⟩
  · exact ⟨(Dev.tbBit_congr rfl 5).trans (Dev.bit_setBit_self ..), by simp, ((Dev.sameBut_refl d _).tbSet 5 fail rfl).regs rfl⟩

/-- The device as a calibration has measured it, before its result counts. -/
def Dev.measured (d : Dev) (worst : Nat) : Dev := { d.setObj 0x2000 0x08 (min 65535 worst) with tb := { d.tb with calAt := d.now } }

theorem Dev.obj_measured (d : Dev) (worst : Nat) {i u : Nat} (hu : u < 256) :
    (d.measured worst).obj i u = if i = 0x2000 ∧ u = 0x08 then min 65535 worst else d.obj i u :=
  Dev.obj_setObj d _ (by decide) hu

/-- A calibration that passes (R107). -/
theorem Dev.vernierRun_passed (d : Dev) {worst : Nat} (h : worst ≤ 200) : (d.vernierRun worst).tbBit 5 = false ∧
    (d.vernierRun worst).tb.vernFails = 0 ∧ (d.measured worst).sameBut (d.vernierRun worst) tbStatus := by
  have hdev : d.vernierRun worst = { (d.measured worst).vernierSet false with
      tb := { ((d.measured worst).vernierSet false).tb with vernFails := 0 } } := by
    unfold Dev.vernierRun
    rw [if_pos h]
    rfl
  obtain ⟨hbit, -, hsame⟩ := (d.measured worst).vernierSet_sets false
  rw [hdev]
  exact ⟨(Dev.tbBit_congr rfl 5).trans hbit, rfl, hsame.regs rfl⟩

/-- A calibration that fails (R107, R108): the third failure in a row sets vernier_fail. -/
theorem Dev.vernierRun_failed (d : Dev) {worst : Nat} (h : 200 < worst) :
    (d.vernierRun worst).tbBit 5 = (decide (2 ≤ d.tb.vernFails) || d.tbBit 5) ∧
    (d.vernierRun worst).tb.vernFails = min 3 (d.tb.vernFails + 1) ∧ (d.measured worst).sameBut (d.vernierRun worst) tbStatus := by
  obtain ⟨e, hregs, hfails, hdev⟩ : ∃ e : Dev, e.regs = (d.measured worst).regs ∧ e.tb.vernFails = min 3 (d.tb.vernFails + 1) ∧
      d.vernierRun worst = if min 3 (d.tb.vernFails + 1) = 3 && !e.tbBit 5 then (e.vernierSet true).raiseTb else e := by
    refine ⟨{ d.measured worst with tb := { (d.measured worst).tb with vernFails := min 3 (d.tb.vernFails + 1) } }, rfl, rfl, ?_⟩
    unfold Dev.vernierRun
    rw [if_neg (by omega)]
    rfl
  have hbit : e.tbBit 5 = d.tbBit 5 := (Dev.tbBit_congr hregs 5).trans (Dev.tbBit_setObj d _ 5 (by decide) (by decide))
  obtain ⟨hset, hkept, hsame⟩ := e.vernierSet_sets true
  rw [hdev]
  split
  · next hthird =>
    simp only [Bool.and_eq_true, decide_eq_true_eq] at hthird
    have htwo : 2 ≤ d.tb.vernFails := by omega
    refine ⟨?_, ?_, (Dev.sameBut_of_regs hregs).trans (hsame.regs (Dev.raiseTb_regs _))⟩
    · rw [Dev.tbBit_congr (Dev.raiseTb_regs _), hset]
      simp [htwo]
    · rw [(Dev.raiseTb_tb _).2, hkept, hfails]
  · next hthird =>
    refine ⟨?_, hfails, Dev.sameBut_of_regs hregs⟩
    rw [hbit] at hthird ⊢
    cases hb : d.tbBit 5
    · simp [hb] at hthird ⊢
      omega
    · simp

/-- Either way, a calibration changes the measured error and the status word. -/
theorem Dev.vernierRun_measures (d : Dev) (worst : Nat) : (d.vernierRun worst).obj 0x2000 0x08 = min 65535 worst ∧
    d.sameBut (d.vernierRun worst) (fun i w => decide (i = 0x2000) && (decide (w = 0x04) || decide (w = 0x08))) := by
  have hsame : (d.measured worst).sameBut (d.vernierRun worst) tbStatus := by
    rcases Nat.lt_or_ge 200 worst with h | h
    · exact (d.vernierRun_failed h).2.2
    · exact (d.vernierRun_passed h).2.2
  refine ⟨(hsame 0x2000 0x08 (by decide) rfl).trans ((d.obj_measured worst (by decide)).trans (if_pos ⟨rfl, rfl⟩)), fun i w hw hout => ?_⟩
  simp only [Bool.and_eq_false_imp, Bool.or_eq_false_iff, decide_eq_true_eq, decide_eq_false_iff_not] at hout
  rw [hsame i w hw (by simpa [tbStatus] using fun hi => (hout hi).1), d.obj_measured worst hw, if_neg (fun hc => (hout hc.1).2 hc.2)]

/-! ### The statement -/

/-- A command whose whole effect is a change of the device. -/
theorem State.does_of_dev {s : State} {t : Nat} {c : Instr} {u : Dev} {changed : List (Nat × Nat)} {post : Dev → Prop}
    (hexec : exec c s = .next { s with dev := u }) (hpost : post u)
    (hsame : (s.devAt t).sameBut u (fun i w => changed.contains (i, w))) : s.does t c changed post :=
  ⟨_, hexec, hpost, rfl, hsame.mono (fun i w h => by rw [h, Bool.or_true])⟩

/-- Settles O19: a loss is noted on a device in RC fallback with ref_valid down, whichever way it came there; the way back sets bits of the
status, and a calibration counts its failures. -/
theorem referenceLostAndBack : Obligations.ReferenceLostAndBack := by
  refine ⟨fun s t => ⟨fun hfallback hvalid => ?_, fun hfallback hrelock => ?_⟩, fun s t =>
    ⟨fun refIn crystal hchoice hfallback hrelock x since hsince hlong => ?_, fun hfallback hrelock => ?_,
      fun worst hpower hstopped hdue => ?_⟩⟩
  · obtain ⟨hcounted, hdisarmed⟩ := Dev.refLoss_first hfallback hvalid
    exact ⟨{ s with dev := (s.devAt t).refLoss }, rfl, hcounted, hdisarmed⟩
  · obtain ⟨hcounted, hbit⟩ := Dev.refLoss_relocking hfallback hrelock
    exact ⟨{ s with dev := (s.devAt t).refLoss }, rfl, hcounted, hbit⟩
  · have hdev := Dev.refRestore_locks hchoice hfallback hrelock hsince hlong
    refine State.does_of_dev (u := (s.devAt t).refRestore refIn crystal) rfl ?_ ?_
    · rw [hdev]
      refine ⟨(Dev.obj_setObj_self ..).trans (refChoice_of_ne hchoice), ?_⟩
      simp [Dev.tbBit_setObj, Dev.tbBit_tbSet, hfallback]
    · rw [hdev]
      exact ((((Dev.sameBut_refl _ _).tbSet 0 true rfl).tbSet 4 true rfl).tbSet 1 false rfl).setObj _ (by decide) rfl
  · obtain ⟨hregs, hrestore⟩ := Dev.relockDone_ends hfallback hrelock
    refine State.does_of_dev (u := (s.devAt t).relockDone) rfl ?_ ?_
    · simp [Dev.tbBit_congr hregs, Dev.tbBit_tbSet, hrestore]
    · exact (((Dev.sameBut_refl _ _).tbSet 3 false rfl).tbSet 4 false rfl).tbSet 1 true rfl |>.regs hregs
  · have hdev : (s.devAt t).vernier worst = (s.devAt t).vernierRun worst := by
      simp [Dev.vernier, hpower, hstopped, Nat.not_lt.mpr hdue]
    obtain ⟨hmeasured, hsame⟩ := (s.devAt t).vernierRun_measures worst
    refine State.does_of_dev (u := (s.devAt t).vernier worst) rfl ?_ ?_
    · rw [hdev]
      refine ⟨hmeasured, fun hpass => ?_, fun hfail hfew => ?_, fun hfail htwo => ?_⟩
      · obtain ⟨hbit, hfails, -⟩ := (s.devAt t).vernierRun_passed hpass
        exact ⟨hbit, hfails⟩
      · obtain ⟨hbit, hfails, -⟩ := (s.devAt t).vernierRun_failed hfail
        refine ⟨hbit.trans (by simp [Nat.not_le.mpr hfew]), hfails.trans (by omega)⟩
      · obtain ⟨hbit, -, -⟩ := (s.devAt t).vernierRun_failed hfail
        exact hbit.trans (by simp [htwo])
    · rw [hdev]
      refine hsame.mono (fun i w h => ?_)
      simp only [Bool.and_eq_true, Bool.or_eq_true, decide_eq_true_eq] at h
      obtain ⟨rfl, rfl | rfl⟩ := h <;> rfl

end Sys2Proof.Machine
end

section
/-! SUPPORT. What the Timebase keeps through a reset of another part (R103, R104, R466): a reset of PD4 to PD13 leaves its objects alone, a
device reset keeps the epoch. -/

namespace Sys2Proof.Machine

/-! ### The objects of the Timebase -/

/-- What the objects of the Timebase read. -/
def Dev.tbObjs (d : Dev) (u : Nat) : Nat := if u < 256 then d.obj 0x2000 u else 0

theorem Dev.obj_of_tbObjs {d e : Dev} (h : d.tbObjs = e.tbObjs) {u : Nat} (hu : u < 256) : d.obj 0x2000 u = e.obj 0x2000 u := by
  simpa [Dev.tbObjs, hu] using congrFun h u

theorem Dev.tbObjs_of_obj {d e : Dev} (h : ∀ u < 256, d.obj 0x2000 u = e.obj 0x2000 u) : d.tbObjs = e.tbObjs := by
  funext u
  unfold Dev.tbObjs
  split
  · next hu => exact h u hu
  · rfl

theorem Dev.tbObjs_congr {d e : Dev} (h : d.regs = e.regs) : d.tbObjs = e.tbObjs := Dev.tbObjs_of_obj (fun u _ => Dev.obj_congr h _ u)

/-- What leaves the low objects alone leaves those of the Timebase alone. -/
theorem Dev.tbObjs_of_low {d e : Dev} (h : d.low = e.low) : d.tbObjs = e.tbObjs :=
  Dev.tbObjs_of_obj (fun _ hu => Dev.obj_of_low h (by simp [lowKey, hu]))

theorem Dev.setObj_tbObjs (d : Dev) {i u : Nat} (v : Nat) (hi : 0x2000 < i) : (d.setObj i u v).tbObjs = d.tbObjs := by
  refine Dev.tbObjs_of_obj (fun w hw => ?_)
  unfold Dev.obj Dev.setObj
  dsimp only
  rw [Store.get_put, if_neg]
  unfold okey keySpan
  omega

theorem Dev.setBit_tbObjs (d : Dev) {i : Nat} (u b : Nat) (on : Bool) (hi : 0x2000 < i) : (d.setBit i u b on).tbObjs = d.tbObjs :=
  Dev.setObj_tbObjs d _ hi

theorem Dev.inc_tbObjs (d : Dev) {i : Nat} (u : Nat) (hi : 0x2000 < i) : (d.inc i u).tbObjs = d.tbObjs := Dev.setObj_tbObjs d _ hi

/-- Objects that return to their defaults on either side of the Timebase. -/
theorem Dev.resetObjs_tbObjs (d : Dev) {lo hi : Nat} (h : 0x2000 < lo ∨ hi < 0x2000) : (d.resetObjs lo hi).tbObjs = d.tbObjs := by
  refine Dev.tbObjs_of_obj (fun w hw => ?_)
  unfold Dev.obj Dev.resetObjs
  dsimp only
  rw [Store.get_clearRange, if_neg]
  unfold okey keySpan
  omega

theorem Dev.resetObj_tbObjs (d : Dev) {i : Nat} (u : Nat) (hi : 0x2000 < i) : (d.resetObj i u).tbObjs = d.tbObjs := by
  refine Dev.tbObjs_of_obj (fun w hw => ?_)
  unfold Dev.obj Dev.resetObj
  dsimp only
  rw [Store.get_clearRange, if_neg]
  unfold okey keySpan
  omega

theorem Dev.foldl_tbObjs {α : Type} {g : Dev → α → Dev} {l : List α} (h : ∀ e, ∀ x ∈ l, (g e x).tbObjs = e.tbObjs) (d : Dev) :
    (l.foldl g d).tbObjs = d.tbObjs :=
  List.foldlRecOn l g (motive := fun e => e.tbObjs = d.tbObjs) rfl (fun e he x hx => (h e x hx).trans he)

/-- What changes other objects alone leaves those of the Timebase alone. -/
theorem Dev.tbObjs_of_sameBut {d e : Dev} {P : Nat → Nat → Bool} (h : d.sameBut e P) (hp : ∀ u, P 0x2000 u = false) :
    e.tbObjs = d.tbObjs := Dev.tbObjs_of_obj (fun u hu => h 0x2000 u hu (hp u))

/-! ### Disarms, groups and banks -/

theorem Dev.disarmDoms_tbObjs (d : Dev) (doms : List Nat) (veto : Bool) : (d.disarmDoms doms veto).tbObjs = d.tbObjs :=
  Dev.tbObjs_of_obj (fun _ hu => Dev.obj_disarmDoms d doms veto (by decide) hu)

theorem Dev.mapBanks_tbObjs (d : Dev) : d.mapBanks.tbObjs = d.tbObjs := by
  unfold Dev.mapBanks
  dsimp only
  rw [Dev.foldl_tbObjs (fun e x _ => Dev.setObj_tbObjs e _ (by omega)), Dev.foldl_tbObjs (fun e x _ => Dev.setObj_tbObjs e _ (by omega))]

theorem Dev.groupCut_tbObjs (d : Dev) (pd : Nat) : (d.groupCut pd).tbObjs = d.tbObjs := by
  unfold Dev.groupCut
  refine Dev.tbObjs_of_low (Dev.low_foldl (fun e n => ?_) _ _)
  split
  · exact Dev.cutChan_low e n 0
  · rfl

theorem Dev.linkLoss_tbObjs (d : Dev) : d.linkLoss.tbObjs = d.tbObjs := by
  unfold Dev.linkLoss
  dsimp only
  rw [Dev.tbObjs_congr (Dev.raise_regs _ _), Dev.tbObjs_congr (Dev.pulse_regs _ _), Dev.tbObjs_of_low (Dev.protStatus_low _),
    Dev.setObj_tbObjs _ _ (by decide), Dev.inc_tbObjs _ _ (by decide)]
  exact (Dev.disarmDoms_tbObjs _ _ _).trans (Dev.tbObjs_congr rfl)

theorem Dev.aliveStops_tbObjs (d : Dev) : d.aliveStops.tbObjs = d.tbObjs := by
  unfold Dev.aliveStops
  split
  · exact d.linkLoss_tbObjs
  · rfl

/-! ### The resets of the domains -/

theorem Dev.stackReset_regs (d : Dev) (c : Nat) : (d.stackReset c).regs = d.regs := by
  have hstack : ∀ l : List (Nat × Nat), ∀ e : Dev, (l.foldl (fun (d : Dev) (e : Nat × Nat) =>
      d.setPend e.1 c (if (d.pend e.1 c).pending then { (d.pend e.1 c) with active := false }
        else { (d.pend e.1 c) with active := false, pending := true, prio := e.2 })) e).regs = e.regs :=
    Dev.foldl_regs (fun _ _ => rfl)
  exact hstack (d.core c).stack d

theorem Dev.synthReset_tbObjs (d : Dev) (k : Nat) : (d.synthReset k).tbObjs = d.tbObjs := by
  unfold Dev.synthReset
  rw [Dev.resetObjs_tbObjs _ (.inl (by omega)), Dev.resetObjs_tbObjs _ (.inl (by omega)), Dev.resetObjs_tbObjs _ (.inl (by omega))]
  exact Dev.tbObjs_congr rfl

theorem Dev.syncReset_tbObjs (d : Dev) : d.syncReset.tbObjs = d.tbObjs := by
  unfold Dev.syncReset
  dsimp only
  rw [Dev.synthReset_tbObjs, Dev.synthReset_tbObjs, Dev.foldl_tbObjs (fun e x _ => Dev.setObj_tbObjs e _ (by omega)),
    Dev.resetObjs_tbObjs _ (.inl (by decide)), Dev.resetObjs_tbObjs _ (.inl (by decide))]
  exact (Dev.tbObjs_congr rfl).trans ((Dev.disarmDoms_tbObjs _ _ _).trans (Dev.disarmDoms_tbObjs _ _ _))

theorem Dev.schedReset_tbObjs (d : Dev) : d.schedReset.tbObjs = d.tbObjs := by
  unfold Dev.schedReset
  dsimp only
  rw [Dev.resetObjs_tbObjs _ (.inl (by decide)), Dev.resetObjs_tbObjs _ (.inl (by decide)),
    Dev.foldl_tbObjs (fun e s _ => (Dev.resetObj_tbObjs _ _ (by decide)).trans (Dev.resetObj_tbObjs _ _ (by decide)))]
  exact Dev.tbObjs_congr rfl

theorem Dev.groupReset_tbObjs (d : Dev) (pd : Nat) : (d.groupReset pd).tbObjs = d.tbObjs := by
  unfold Dev.groupReset
  dsimp only
  rw [Dev.mapBanks_tbObjs, Dev.foldl_tbObjs, Dev.foldl_tbObjs]
  · intro e n _
    rw [Dev.setObj_tbObjs _ _ (by omega), Dev.resetObjs_tbObjs _ (.inl (by omega)), Dev.resetObjs_tbObjs _ (.inl (by omega))]
    exact Dev.tbObjs_congr rfl
  · intro e b _
    rw [Dev.setObj_tbObjs _ _ (by omega), Dev.resetObjs_tbObjs _ (.inl (by omega)), Dev.resetObjs_tbObjs _ (.inl (by omega))]
    exact Dev.tbObjs_congr rfl

theorem Dev.boostReset_tbObjs (d : Dev) : d.boostReset.tbObjs = d.tbObjs := by
  unfold Dev.boostReset
  dsimp only
  rw [Dev.mapBanks_tbObjs, Dev.resetObjs_tbObjs _ (.inl (by decide)), Dev.resetObjs_tbObjs _ (.inl (by decide))]
  exact (Dev.tbObjs_congr rfl).trans (Dev.tbObjs_of_low ((Dev.railOff_low _ 1).trans (Dev.railOff_low d 0)))

theorem Dev.closureReset_tbObjs (d : Dev) : d.closureReset.tbObjs = d.tbObjs :=
  (Dev.resetObjs_tbObjs _ (.inl (by decide))).trans (Dev.tbObjs_congr rfl)

/-- The status word and acc_class of a synthesiser. -/
def synthShown (k i w : Nat) : Bool := decide (i = 0x2200 + k) && (decide (w = 0x20) || decide (w = 0x21))

/-- Bringing the status of a synthesiser up to date writes five bits of the word, and acc_class. -/
theorem Dev.synthStatus_writes (d : Dev) (k : Nat) : ∃ (active short learned running live : Bool) (cls : Nat), (d.synthStatus k).regs =
    ((((((d.setBit (0x2200 + k) 0x21 6 active).setBit (0x2200 + k) 0x21 5 short).setBit (0x2200 + k) 0x21 3 learned).setBit
      (0x2200 + k) 0x21 1 running).setBit (0x2200 + k) 0x21 0 live).setObj (0x2200 + k) 0x20 cls).regs := by
  unfold Dev.synthStatus
  extract_lets y i active d6 d5 d3 d1 d0 y' e was cls u
  have hsynth : ∀ (f : Dev) (r : Synth), (f.setSynth k r).regs = f.regs := fun _ _ => rfl
  have hlayer : e.regs = d0.regs := by
    unfold e
    split
    · rfl
    · exact hsynth ..
  have hcause : (if cls < was then u.synthCause k 0 else u).regs = u.regs := by
    split
    · exact Dev.raiseIf_regs ..
    · rfl
  have hclass : u.regs = (d0.setObj i 0x20 cls).regs := by
    unfold u Dev.setObj
    rw [hlayer]
  have hbits : ∃ short learned running live : Bool, d0 = ((((d.setBit i 0x21 6 active).setBit i 0x21 5 short).setBit i 0x21 3 learned).setBit
      i 0x21 1 running).setBit i 0x21 0 live := ⟨_, _, _, _, rfl⟩
  clear_value u d0
  obtain ⟨short, learned, running, live, rfl⟩ := hbits
  exact ⟨active, short, learned, running, live, cls, hcause.trans hclass⟩

/-- Bringing the status of a synthesiser up to date changes no other object. -/
theorem Dev.synthStatus_sameBut (d : Dev) (k : Nat) : d.sameBut (d.synthStatus k) (synthShown k) := by
  obtain ⟨active, short, learned, running, live, cls, hregs⟩ := d.synthStatus_writes k
  have hbit : ∀ {e : Dev} (b : Nat) (on : Bool), d.sameBut e (synthShown k) → d.sameBut (e.setBit (0x2200 + k) 0x21 b on) (synthShown k) :=
    fun b on h => h.setObj _ (by decide) (by simp [synthShown])
  exact ((hbit _ _ (hbit _ _ (hbit _ _ (hbit _ _ (hbit _ _ (Dev.sameBut_refl _ _)))))).setObj cls (by decide)
    (by simp [synthShown])).regs hregs

/-- table_mismatch is not among the bits that are brought up to date. -/
theorem Dev.synthStatus_mismatch (d : Dev) (k : Nat) : (d.synthStatus k).bit (0x2200 + k) 0x21 2 = d.bit (0x2200 + k) 0x21 2 := by
  obtain ⟨active, short, learned, running, live, cls, hregs⟩ := d.synthStatus_writes k
  have hobj := Dev.obj_congr hregs (0x2200 + k) 0x21
  rw [Dev.obj_setObj_sub _ _ (by decide) (by decide) (by decide)] at hobj
  refine (congrArg (Nat.testBit · 2) hobj).trans ?_
  change Dev.bit _ (0x2200 + k) 0x21 2 = _
  simp [Dev.bit_setBit]

theorem Dev.ffFrom_regs (d : Dev) (k t : Nat) : (d.ffFrom k t).regs = d.regs := by
  unfold Dev.ffFrom
  dsimp only
  split <;> rfl

theorem Dev.ffUpdate_tbObjs (d : Dev) (k : Nat) : (d.ffUpdate k).tbObjs = d.tbObjs := by
  have hstatus : ∀ e : Dev, (e.synthStatus k).tbObjs = e.tbObjs := fun e =>
    Dev.tbObjs_of_sameBut (e.synthStatus_sameBut k) (fun u => by simp [synthShown]; omega)
  unfold Dev.ffUpdate
  extract_lets chans live dt y far end_ moved e passed
  have hkept : e.tbObjs = d.tbObjs := (hstatus _).trans (Dev.tbObjs_congr rfl)
  split
  · exact (Dev.tbObjs_congr (Dev.ffFrom_regs ..)).trans hkept
  · exact hkept

theorem Dev.sensingReset_tbObjs (d : Dev) : d.sensingReset.tbObjs = d.tbObjs := by
  unfold Dev.sensingReset
  dsimp only
  rw [Dev.ffUpdate_tbObjs, Dev.ffUpdate_tbObjs, Dev.resetObjs_tbObjs _ (.inl (by decide)), Dev.resetObjs_tbObjs _ (.inl (by decide))]
  exact Dev.tbObjs_congr rfl

theorem Dev.vetoWritten_tbObjs (d : Dev) (old : Nat) : (d.vetoWritten 0x04 old).tbObjs = d.tbObjs := by
  unfold Dev.vetoWritten
  dsimp only
  split
  · rfl
  · rw [if_pos rfl, Dev.tbObjs_of_obj (fun _ hu => Dev.obj_globalDisarm _ (by decide) hu)]
    exact Dev.tbObjs_of_obj (fun _ hu => by
      rw [Dev.obj_setObj_idx _ _ (by decide) hu (by decide), Dev.obj_setObj_idx _ _ (by decide) hu (by decide)])

theorem Dev.closeSession_tbObjs (d : Dev) {p : Nat} (hp : p < 6) (reason : Nat) : (d.closeSession p reason).tbObjs = d.tbObjs := by
  have hguardian : ∀ e : Dev, (e.guardianLoss p).tbObjs = e.tbObjs := fun e => by
    unfold Dev.guardianLoss
    split
    · rw [Dev.vetoWritten_tbObjs]
      exact Dev.tbObjs_of_obj (fun _ hu => Dev.obj_setObj_idx _ _ (by decide) hu (by decide))
    · rfl
  unfold Dev.closeSession
  split
  · dsimp only
    rw [Dev.tbObjs_congr (Dev.raiseIf_regs ..), hguardian]
    refine Dev.tbObjs_of_obj (fun u hu => ?_)
    rw [Dev.obj_setObj_idx _ _ (by decide) hu (by omega), Dev.obj_zero _ (by decide) hu, if_neg (by omega),
      Dev.obj_congr (Dev.setPort_regs ..), Dev.obj_mapClaims _ _ hu, if_neg (by omega), Dev.obj_lossAction _ _ (by decide) hu]
  · rfl

theorem Dev.portsReset_tbObjs (d : Dev) : d.portsReset.tbObjs = d.tbObjs := by
  have hsessions : ∀ e : Dev, ∀ p ∈ List.range 6, ((e.closeSession p 5).raiseIf (decide (4 ≤ p) && e.linkUp p) 120).tbObjs = e.tbObjs :=
    fun e p hp => (Dev.tbObjs_congr (Dev.raiseIf_regs ..)).trans (e.closeSession_tbObjs (List.mem_range.mp hp) 5)
  unfold Dev.portsReset
  extract_lets closed fresh e
  have hfresh : fresh.regs = closed.regs := Dev.foldl_regs (fun e p => Dev.setPort_regs e p _) (List.range 6) closed
  have hclosed : closed.tbObjs = d.tbObjs := Dev.foldl_tbObjs hsessions d
  clear_value fresh closed
  rw [Dev.resetObjs_tbObjs _ (.inr (by decide)), Dev.resetObjs_tbObjs _ (.inr (by decide))]
  exact (Dev.tbObjs_congr hfresh).trans hclosed

theorem Dev.analogReset_tbObjs (d : Dev) : d.analogReset.tbObjs = d.tbObjs :=
  (Dev.resetObjs_tbObjs _ (.inl (by decide))).trans (Dev.tbObjs_congr rfl)

theorem Dev.lanternReset_tbObjs (d : Dev) : d.lanternReset.tbObjs = d.tbObjs :=
  (Dev.resetObjs_tbObjs _ (.inl (by decide))).trans (Dev.tbObjs_congr rfl)

theorem Dev.groupDefaults_tbObjs (d : Dev) : d.groupDefaults.tbObjs = d.tbObjs :=
  Dev.tbObjs_of_obj (fun _ hu => d.obj_groupDefaults hu (by decide))

/-- The reset of a single domain leaves the objects of the Timebase, in PD1 and PD0, alone (R466). -/
theorem Dev.pdReset_tbObjs (d : Dev) (k : Nat) : (d.pdReset k).tbObjs = d.tbObjs := by
  have hcores : ∀ e : Dev, (((e.aliveStops.stackReset 2).stackReset 3).tbObjs) = e.tbObjs := fun e =>
    (Dev.tbObjs_congr (Dev.stackReset_regs ..)).trans ((Dev.tbObjs_congr (Dev.stackReset_regs ..)).trans e.aliveStops_tbObjs)
  unfold Dev.pdReset
  repeat' split
  · refine Eq.trans (Dev.tbObjs_congr ?_) (hcores d)
    rfl
  · exact d.syncReset_tbObjs
  · exact (Dev.schedReset_tbObjs _).trans d.aliveStops_tbObjs
  · exact d.groupReset_tbObjs k
  · exact d.boostReset_tbObjs
  · exact d.closureReset_tbObjs
  · exact d.sensingReset_tbObjs
  · exact (Dev.groupDefaults_tbObjs _).trans d.portsReset_tbObjs
  · exact (Dev.lanternReset_tbObjs _).trans d.analogReset_tbObjs
  · rfl

/-! ### A brown-out of a single domain -/

theorem Dev.history_tbObjs (d : Dev) (cause detail : Nat) : (d.history cause detail).tbObjs = d.tbObjs := by
  unfold Dev.history
  dsimp only
  rw [Dev.setObj_tbObjs _ _ (by decide), Dev.foldl_tbObjs (fun e k _ => Dev.setObj_tbObjs e _ (by decide))]

theorem Dev.domainGo_tbObjs (d : Dev) (k : Nat) : (d.domainGo k).tbObjs = d.tbObjs := by
  have hphase : ((d.pdReset k).setObj 0x2F00 0x0A 3).tbObjs = d.tbObjs :=
    (Dev.setObj_tbObjs _ _ (by decide)).trans (d.pdReset_tbObjs k)
  exact Eq.trans (Dev.tbObjs_congr (by rfl)) hphase

theorem Dev.brownSingle_tbObjs (d : Dev) (k : Nat) : (d.brownSingle k).tbObjs = d.tbObjs := by
  unfold Dev.brownSingle
  extract_lets recorded flagged e
  have hrecorded : recorded.tbObjs = d.tbObjs := by
    rw [Dev.inc_tbObjs _ _ (by decide), Dev.history_tbObjs, Dev.history_tbObjs, Dev.inc_tbObjs _ _ (by decide)]
  have hflagged : flagged.tbObjs = d.tbObjs :=
    (Dev.tbObjs_congr (Dev.raiseIf_regs ..)).trans ((Dev.setBit_tbObjs _ _ _ _ (by decide)).trans hrecorded)
  have he : e.tbObjs = d.tbObjs := by
    unfold e
    split
    · exact (Dev.groupCut_tbObjs ..).trans hflagged
    · exact hflagged
  repeat' split
  · exact Eq.trans (Dev.tbObjs_congr (by rfl)) ((e.domainGo_tbObjs k).trans he)
  · exact Eq.trans (Dev.tbObjs_congr (by rfl)) ((e.pdReset_tbObjs k).trans he)
  · exact Eq.trans (Dev.tbObjs_congr (by rfl)) ((e.domainGo_tbObjs k).trans he)

/-! ### The epoch -/

/-- A device reset keeps the epoch. -/
theorem Dev.assertReset_epoch (d : Dev) (cause detail target : Nat) :
    (d.assertReset cause detail target).obj 0x2000 0x02 = d.obj 0x2000 0x02 := by
  rw [Dev.obj_assertReset _ _ _ _ (by decide) (by decide) (by decide) (by decide) (by decide), if_neg (by decide), if_pos (by decide),
    Dev.obj_history _ _ _ (by decide), if_neg (by decide), Dev.obj_inc _ (by decide) (by decide), if_neg (by decide)]

/-- A brown-out of PD1 restarts the counter and counts in the epoch (R103, R104). -/
theorem Dev.brownOut_pd1 {d : Dev} (hon : d.pdOn 1 = true) :
    (d.brownOut 1).now = 0 ∧ (d.brownOut 1).obj 0x2000 0x02 = satInc32 (d.obj 0x2000 0x02) := by
  have hdev : d.brownOut 1 = { ((d.assertReset 2 1 2).restartCounter).inc 0x2000 0x02 with
      rst := { ((d.assertReset 2 1 2).restartCounter).rst with tbStopped := true } } := by
    simp [Dev.brownOut, hon]
  have hepoch := d.assertReset_epoch 2 1 2
  rw [hdev, ← hepoch]
  generalize d.assertReset 2 1 2 = e
  exact ⟨rfl, (Dev.obj_inc e.restartCounter (by decide) (by decide)).trans (if_pos ⟨rfl, rfl⟩)⟩

/-- Power-on sets the epoch to its default. -/
theorem Dev.powerOn_epoch (d : Dev) : d.powerOn.obj 0x2000 0x02 = 0 := by
  obtain ⟨e, -, -, -, -, hobj, hdev⟩ := d.powerOn_cleared
  have hkept : d.powerOn.tbObjs = e.tbObjs := by
    rw [hdev, Dev.setObj_tbObjs _ _ (by decide), Dev.setObj_tbObjs _ _ (by decide), Dev.setObj_tbObjs _ _ (by decide),
      Dev.setObj_tbObjs _ _ (by decide), Dev.setObj_tbObjs _ _ (by decide)]
  rw [Dev.obj_of_tbObjs hkept (by decide), hobj _ _ (by decide) (by decide) (by decide) (by decide)]
  decide

/-- A brown-out of another domain keeps the epoch: a device reset that it causes does, and the reset of the domain alone too. -/
theorem Dev.brownOut_epoch (d : Dev) {k : Nat} (hk : k ≠ 1) : (d.brownOut k).obj 0x2000 0x02 = d.obj 0x2000 0x02 := by
  unfold Dev.brownOut
  rw [if_neg hk]
  repeat' split
  · rfl
  · exact d.assertReset_epoch 2 k 2
  · exact Dev.obj_of_tbObjs (d.brownSingle_tbObjs k) (by decide)
  · rfl

/-- Settles O20: the one brown-out that restarts the counter counts in the epoch, and no other reset but power-on touches it. -/
theorem epochCounts : Obligations.EpochCounts := by
  refine fun s t => ⟨fun hon => ?_, ?_, fun k hk => ?_⟩
  · obtain ⟨hnow, hepoch⟩ := Dev.brownOut_pd1 hon
    exact ⟨{ s with dev := (s.devAt t).brownOut 1 }, rfl, hnow, hepoch⟩
  · obtain ⟨-, -, -, -, -, -, hnow, -⟩ := (s.devAt t).powerOn_leaves
    exact ⟨{ s with dev := (s.devAt t).powerOn }, rfl, hnow, (s.devAt t).powerOn_epoch⟩
  · exact ⟨{ s with dev := (s.devAt t).brownOut k }, rfl, (s.devAt t).brownOut_epoch (fun h => hk (Fin.ext h))⟩

end Sys2Proof.Machine
end

section
/-! SUPPORT. The clears of the counters (R119, R165, R166, R199, R200, R237, R269 to R271): how the command of a block that stores its values
is carried out, what the write of its subindex alone brings up to date, and what the actions leave. -/

namespace Sys2Proof.Machine

/-! ### A write of one subindex -/

@[simp] theorem oneWr_kind (r : Req) (i u n v : Nat) (b : ObjBlock) : (oneWr r i u n v b).kind = b.kind := rfl

@[simp] theorem oneWr_inst (r : Req) (i u n v : Nat) (b : ObjBlock) : (oneWr r i u n v b).inst = i - b.first := rfl

@[simp] theorem oneWr_has (r : Req) (i u n v : Nat) (b : ObjBlock) (k : Nat) : (oneWr r i u n v b).has k = decide (u = k) := by
  simp [Wr.has, oneWr, hostWr]

@[simp] theorem oneWr_span (r : Req) (i u n v : Nat) (b : ObjBlock) (lo hi : Nat) :
    (oneWr r i u n v b).span lo hi = (decide (lo ≤ u) && decide (u ≤ hi)) := by
  simp [Wr.span, oneWr, hostWr]

@[simp] theorem oneWr_val (r : Req) (i u n v : Nat) (b : ObjBlock) (k : Nat) :
    (oneWr r i u n v b).val k = if u = k then some (v % 256 ^ n) else none := by
  by_cases h : u = k <;> simp [Wr.val, oneWr, hostWr, h]

theorem oneWr_acc {r : Req} {i u n v : Nat} {b : ObjBlock} {row : ObjRow} (hr : objRow i u = some row) (a : Access) :
    (oneWr r i u n v b).acc a = decide (row.acc = a) := by
  simp [Wr.acc, oneWr, hostWr, hr]

/-! ### The command of a block -/

/-- A subindex of one symbol whose write starts a command of its block. -/
def ObjBlock.Starts (b : ObjBlock) (i u : Nat) : Prop :=
  blockOf i = some b ∧ ∃ row, objRow i u = some row ∧ row.ty.size = 1 ∧ row.ty.isBlob = false ∧ row.acc = .cmd

/-- An accepted write of a command of a block that stores its values: the block's hooks see the write, and the command follows the
response. -/
theorem Dev.applied_starts {d : Dev} {r : Req} {i u : Nat} {b : ObjBlock} (hs : b.Starts i u) (hk : b.kind.stores = true) :
    d.applied (oneWr r i u 1 1 b) = { dev := Dev.hooks d (d.writtenBy r.port i) (oneWr r i u 1 1 b)
                                      after := fun e => e.command (oneWr r i u 1 1 b) u 1 } := by
  obtain ⟨-, row, hr, -, -, hc⟩ := hs
  obtain ⟨hloft, hmailbox, hfirmware, -, -, hreset, hpower⟩ : b.kind ≠ .loft ∧ b.kind ≠ .mailbox ∧ b.kind ≠ .firmware ∧
      b.kind ≠ .learned ∧ b.kind ≠ .nv ∧ b.kind ≠ .reset ∧ b.kind ≠ .power := by
    simpa [ObjKind.stores] using hk
  have hstored : d.stored (oneWr r i u 1 1 b) = d := by simp [Dev.stored, Dev.storePut, oneWr, hostWr, hr, hc, unstored]
  have hcmd : ∀ e : Dev, e.commands (oneWr r i u 1 1 b) = e.command (oneWr r i u 1 1 b) u 1 := fun e => by
    simp [Dev.commands, Wr.isCommand, oneWr, hostWr, hr, hc]
  have hsend : d.sendPart (oneWr r i u 1 1 b) = d := by
    unfold Dev.sendPart
    split
    · next h => exact absurd h hmailbox
    · next h => exact absurd h hloft
    · rfl
  have heff : d.windowEff (oneWr r i u 1 1 b) = LoftEff.none := Dev.windowEff_none (fun h => absurd h hloft)
  have hfirst : (oneWr r i u 1 1 b).silences = false := by simp [Wr.silences, hfirmware, hreset, hpower]
  unfold Dev.applied Dev.accept
  rw [hsend, hstored, heff, hfirst, funext hcmd]
  rfl

/-- How a clear is carried out: the subindex that starts it, what a write of that subindex alone brings up to date, and the action. -/
structure Clears (r : Req) (i u : Nat) (b : ObjBlock) (shown : Nat → Nat → Bool) (act : Dev → Dev) : Prop where
  starts : b.Starts i u
  stores : b.kind.stores = true
  hook : ∀ g : Dev, g.sameBut (Dev.hooks g (g.writtenBy r.port i) (oneWr r i u 1 1 b)) shown
  command : ∀ e : Dev, e.command (oneWr r i u 1 1 b) u 1 = act e

/-- An accepted clear: its action is the last thing that happens, on a device with the objects of the command's instant but for those of
chapter 02 and those that the write has brought up to date. -/
theorem Clears.next {r : Req} {i u : Nat} {b : ObjBlock} {shown : Nat → Nat → Bool} {act : Dev → Dev} (hc : Clears r i u b shown act)
    {s : State} {t : Nat} (h : s.takes t r i u 1 1 = true) : ∃ e : Dev,
      s.requests t (putFrame r i u 1 (leBytes 1 1)) = .next { s with dev := act e } ∧
      (s.devAt t).sameBut e (fun j w => portObj j || shown j w) := by
  obtain ⟨hb, row, hr, hn, hty, -⟩ := hc.starts
  have hnext := State.requests_of_serves h
  rw [State.answer_of_takes h hb hr hn hty, Dev.applied_starts hc.starts hc.stores] at hnext
  refine ⟨_, hnext.trans (congrArg (fun d : Dev => Host.Outcome.next { s with dev := d }) (hc.command _)), ?_⟩
  have hserved := (s.devAt t).served_portObjs (putFrame r i u 1 (leBytes 1 1))
  refine (Dev.sameBut.trans (hserved.mono (fun j w hp => ?_)) ((hc.hook _).mono (fun j w hp => ?_))).regs
    (Dev.respond_regs _ _ (st := .ok) _ _ (by decide))
  · simp [show portObj j = true from hp]
  · simp [hp]

/-- A clear does what its action leaves. -/
theorem Clears.does {r : Req} {i u : Nat} {b : ObjBlock} {shown : Nat → Nat → Bool} {act : Dev → Dev} (hc : Clears r i u b shown act)
    {s : State} {t : Nat} {c : Instr} (h : s.takes t r i u 1 1 = true)
    (hexec : exec c s = onBoth s t (fun m d => d.putOne m r i u 1 1)) {changed : List (Nat × Nat)} {post : Dev → Prop}
    (hshown : ∀ j w, shown j w = true → changed.contains (j, w) = true)
    (hact : ∀ e : Dev, (s.devAt t).sameBut e (fun j w => portObj j || shown j w) →
      post (act e) ∧ e.sameBut (act e) (fun j w => changed.contains (j, w))) : s.does t c changed post := by
  obtain ⟨e, hnext, hsame⟩ := hc.next h
  obtain ⟨hpost, hchanged⟩ := hact e hsame
  refine ⟨_, hexec.trans ((State.putOne_requests s t r i u 1 1).trans hnext), hpost, rfl,
    (hsame.mono (fun j w hp => ?_)).trans (hchanged.mono (fun j w hp => by rw [hp, Bool.or_true]))⟩
  rcases (Bool.or_eq_true ..).mp hp with hp | hp
  · rw [hp, Bool.true_or]
  · rw [hshown j w hp, Bool.or_true]

/-! ### What a clear zeroes -/

theorem mem_span {i a b j w : Nat} : (j, w) ∈ span i a b ↔ j = i ∧ a ≤ w ∧ w ≤ b := by
  simp only [span, List.mem_map, List.mem_range, Prod.mk.injEq]
  constructor
  · rintro ⟨k, hk, rfl, rfl⟩
    omega
  · rintro ⟨rfl, ha, hb⟩
    exact ⟨w - a, by omega, rfl, by omega⟩

theorem Dev.zero_sameBut (d : Dev) (i : Nat) {a b : Nat} (hb : b < 256) : d.sameBut (d.zero i a b) (fun j w => (span i a b).contains (j, w)) := by
  intro j w hw hout
  rw [Dev.obj_zero _ hb hw, if_neg]
  exact fun h => by simp [mem_span.mpr h] at hout

theorem Dev.zero_zeroed (d : Dev) (i : Nat) {a b : Nat} (hb : b < 256) : (d.zero i a b).zeroed (span i a b) := by
  rintro ⟨j, w⟩ he
  obtain ⟨rfl, ha, hw⟩ := mem_span.mp he
  rw [Dev.obj_zero _ hb (by omega), if_pos ⟨rfl, ha, hw⟩]

/-- Objects that read 0 do so after a write to another one. -/
theorem Dev.zeroed_setObj {d : Dev} {i j a b u : Nat} (h : d.zeroed (span i a b)) (v : Nat) (hb : b < 256) (hu : u < 256)
    (hout : (j, u) ∉ span i a b) : (d.setObj j u v).zeroed (span i a b) := by
  rintro ⟨k, w⟩ he
  have hin := mem_span.mp he
  rw [Dev.obj_setObj _ _ hu (by omega), if_neg]
  · exact h _ he
  · rintro ⟨rfl, rfl⟩
    exact hout he

/-- A clear that zeroes a run of counters and does nothing else. -/
theorem Clears.zeroes {r : Req} {i u a z : Nat} {b : ObjBlock} (hc : Clears r i u b (fun _ _ => false) (fun e => e.zero i a z))
    {s : State} {t : Nat} {c : Instr} (h : s.takes t r i u 1 1 = true)
    (hexec : exec c s = onBoth s t (fun m d => d.putOne m r i u 1 1)) (hz : z < 256) :
    s.does t c (span i a z) (fun d => d.zeroed (span i a z)) :=
  hc.does h hexec (fun _ _ hp => by cases hp) (fun e _ => ⟨e.zero_zeroed i hz, e.zero_sameBut i hz⟩)

/-! ### The blocks -/

def timebaseBlock : ObjBlock := ⟨0x2000, 1, .timebase, timebaseRows⟩
def wheelBlock : ObjBlock := ⟨0x2100, 8, .wheel, wheelRows⟩
def domainBlock : ObjBlock := ⟨0x2180, 2, .domain, domainRows⟩
def synthBlock : ObjBlock := ⟨0x2200, 2, .synth, synthRows⟩
def toothBlock : ObjBlock := ⟨0x2210, 2, .tooth, toothRows⟩
def channelBlock : ObjBlock := ⟨0x2700, 48, .channel, channelRows⟩
def bankBlock : ObjBlock := ⟨0x2740, 16, .bank, bankRows⟩
def boostBlock : ObjBlock := ⟨0x2780, 2, .boost, boostRows⟩

theorem clearFlags_clears (r : Req) : Clears r 0x2000 0x09 timebaseBlock (fun _ _ => false) (fun e => e.setBit 0x2000 0x04 2 false) where
  starts := ⟨by decide, by decide⟩
  stores := rfl
  hook := fun _ => Dev.sameBut_of_regs rfl
  command := fun _ => rfl

theorem domainClear_starts (k : Fin 2) : domainBlock.Starts (0x2180 + k) 0x1C := ⟨by revert k; decide, by revert k; decide +kernel⟩
theorem schedClear_starts (k : Fin 2) : domainBlock.Starts (0x2180 + k) 0x3E := ⟨by revert k; decide, by revert k; decide +kernel⟩

/-- A write to a wheel input that leaves its configuration alone does nothing more. -/
theorem Dev.wheelHook_command {g d : Dev} {w : Wr} (hregs : d.regs = g.regs) (h3 : w.span 0x03 0x03 = false) (h6 : w.span 0x06 0x07 = false)
    (h9 : w.has 0x09 = false) (hrwd : w.acc .rwd = false) : Dev.wheelHook g d w = d := by
  have hobj := fun i u => Dev.obj_congr hregs i u
  have hfold : ∀ l : List Nat, l.foldl (fun (d : Dev) _ => d) d = d := fun l => by induction l <;> simp_all
  unfold Dev.wheelHook
  simp [h3, h6, h9, hrwd, hobj, hfold]

/-- A write to a domain that leaves its configuration and its slots alone does nothing more. -/
theorem Dev.domainHook_command {d : Dev} {w : Wr} (hrwd : w.acc .rwd = false) (hslots : w.puts.filter (fun p => 0x40 ≤ p.sub && p.sub ≤ 0x57) = []) :
    d.domainHook w = d := by
  unfold Dev.domainHook
  simp [hrwd, hslots]

/-- A write to a boost controller that leaves its switch and its targets alone does nothing more. -/
theorem Dev.boostHook_command {g d : Dev} {w : Wr} (hregs : d.regs = g.regs) (h1 : w.val 0x01 = none) (h2 : w.has 0x02 = false)
    (h9 : w.has 0x09 = false) : Dev.boostHook g d w = d := by
  have howner : ∀ q, d.rampOwner q = g.rampOwner q := fun q => by
    unfold Dev.rampOwner
    simp only [Dev.obj_congr hregs]
  unfold Dev.boostHook
  simp only [h1, h2, h9, howner, Bool.or_self, Bool.false_and, Bool.false_eq_true, if_false]
  split
  · next h => simp at h
  · rfl

theorem wheelClear_clears (r : Req) (n : Fin 8) : Clears r (0x2100 + n) 0x12 wheelBlock (fun _ _ => false) (fun e => e.wheelClear n) where
  starts := ⟨by revert n; decide, by revert n; decide +kernel⟩
  stores := rfl
  hook := fun g => by
    obtain ⟨row, hr, hcmd⟩ : ∃ row, objRow (0x2100 + n) 0x12 = some row ∧ row.acc = .cmd := by revert n; decide +kernel
    have hhook : Dev.hooks g (g.writtenBy r.port (0x2100 + n)) (oneWr r (0x2100 + n) 0x12 1 1 wheelBlock) =
        g.writtenBy r.port (0x2100 + n) :=
      Dev.wheelHook_command rfl (by simp) (by simp) (by simp) (by simp [oneWr_acc hr, hcmd])
    rw [hhook]
    exact Dev.sameBut_of_regs rfl
  command := fun e => by simp [Dev.command, Dev.domainCommand, wheelBlock]

/-- The clears of a domain object: of its own counters, and of the scheduler's. -/
theorem domain_hook {r : Req} {k : Fin 2} {u : Nat} (hs : domainBlock.Starts (0x2180 + k) u) (hu : u < 0x40) (g : Dev) :
    g.sameBut (Dev.hooks g (g.writtenBy r.port (0x2180 + k)) (oneWr r (0x2180 + k) u 1 1 domainBlock)) (fun _ _ => false) := by
  obtain ⟨-, row, hr, -, -, hcmd⟩ := hs
  have hslots : (oneWr r (0x2180 + k) u 1 1 domainBlock).puts.filter (fun p => 0x40 ≤ p.sub && p.sub ≤ 0x57) = [] := by
    simp [oneWr, hostWr]
    omega
  have hhook : Dev.hooks g (g.writtenBy r.port (0x2180 + k)) (oneWr r (0x2180 + k) u 1 1 domainBlock) =
      g.writtenBy r.port (0x2180 + k) := Dev.domainHook_command (by simp [oneWr_acc hr, hcmd]) hslots
  rw [hhook]
  exact Dev.sameBut_of_regs rfl

theorem domainClear_clears (r : Req) (k : Fin 2) :
    Clears r (0x2180 + k) 0x1C domainBlock (fun _ _ => false) (fun e => e.domainClear k) where
  starts := domainClear_starts k
  stores := rfl
  hook := domain_hook (domainClear_starts k) (by decide)
  command := fun e => by simp [Dev.command, Dev.domainCommand, domainBlock]

theorem schedClear_clears (r : Req) (k : Fin 2) :
    Clears r (0x2180 + k) 0x3E domainBlock (fun _ _ => false) (fun e => e.schedClear k) where
  starts := schedClear_starts k
  stores := rfl
  hook := domain_hook (schedClear_starts k) (by decide)
  command := fun e => by simp [Dev.command, Dev.domainCommand, domainBlock]

/-- A write to a synthesiser that names neither a mark nor the inertia brings its status up to date. -/
theorem synthClear_clears (r : Req) (k : Fin 2) : Clears r (0x2200 + k) 0x2E synthBlock (synthShown k) (fun e => e.synthClear k) where
  starts := ⟨by revert k; decide, by revert k; decide +kernel⟩
  stores := rfl
  hook := fun g => by
    have hhook : Dev.hooks g (g.writtenBy r.port (0x2200 + k)) (oneWr r (0x2200 + k) 0x2E 1 1 synthBlock) =
        (g.writtenBy r.port (0x2200 + k)).synthStatus k := by
      have hmarks : List.range 4 = [0, 1, 2, 3] := rfl
      simp [Dev.hooks, Dev.synthHook, synthBlock, hmarks]
    rw [hhook]
    exact Dev.sameBut.trans (Dev.sameBut_of_regs rfl) (Dev.synthStatus_sameBut _ k)
  command := fun e => by simp [Dev.command, Dev.domainCommand, synthBlock]

theorem toothTableClear_clears (r : Req) (k : Fin 2) : Clears r (0x2210 + k) 0x08 toothBlock (synthShown k) (fun e => e.toothClear k) where
  starts := ⟨by revert k; decide, by revert k; decide +kernel⟩
  stores := rfl
  hook := fun g => by
    have hhook : Dev.hooks g (g.writtenBy r.port (0x2210 + k)) (oneWr r (0x2210 + k) 0x08 1 1 toothBlock) =
        (g.writtenBy r.port (0x2210 + k)).synthStatus k := by
      simp [Dev.hooks, Dev.toothHook, toothBlock]
    rw [hhook]
    exact Dev.sameBut.trans (Dev.sameBut_of_regs rfl) (Dev.synthStatus_sameBut _ k)
  command := fun e => by simp [Dev.command, Dev.domainCommand, toothBlock]

theorem channelClear_clears (r : Req) (n : Fin 48) :
    Clears r (0x2700 + n) 0x0E channelBlock (fun _ _ => false) (fun e => e.channelClear n) where
  starts := ⟨by revert n; decide, by revert n; decide +kernel⟩
  stores := rfl
  hook := fun _ => Dev.sameBut_of_regs rfl
  command := fun e => by simp [Dev.command, Dev.driveCommand, channelBlock]

theorem bankClear_clears (r : Req) (b : Fin 16) :
    Clears r (0x2740 + b) 0x15 bankBlock (fun _ _ => false) (fun e => e.bankClear b) where
  starts := ⟨by revert b; decide, by revert b; decide +kernel⟩
  stores := rfl
  hook := fun _ => Dev.sameBut_of_regs rfl
  command := fun e => by simp [Dev.command, Dev.driveCommand, bankBlock]

theorem boostClear_clears (r : Req) (x : Fin 2) :
    Clears r (0x2780 + x) 0x11 boostBlock (fun _ _ => false) (fun e => e.boostClear x) where
  starts := ⟨by revert x; decide, by revert x; decide +kernel⟩
  stores := rfl
  hook := fun g => by
    have hhook : Dev.hooks g (g.writtenBy r.port (0x2780 + x)) (oneWr r (0x2780 + x) 0x11 1 1 boostBlock) =
        g.writtenBy r.port (0x2780 + x) := Dev.boostHook_command (g := g) (d := g.writtenBy r.port (0x2780 + x))
          (w := oneWr r (0x2780 + x) 0x11 1 1 boostBlock) rfl (by simp) (by simp) (by simp)
    rw [hhook]
    exact Dev.sameBut_of_regs rfl
  command := fun e => by simp [Dev.command, Dev.driveCommand, boostBlock]

/-! ### What the actions leave -/

/-- An object outside chapter 02 stands as a clear's request is taken up. -/
@[simp] theorem portObj_apart (a n : Nat) (h : 0x1800 ≤ a) : portObj (a + n) = false := by
  simp [portObj]
  omega

/-- A clear that also writes one object of the index whose counters it zeroes. -/
theorem Dev.zero_then_setObj (d : Dev) {i a b u : Nat} (v : Nat) (hb : b < 256) (hu : u < 256) (hout : u < a) :
    ((d.zero i a b).setObj i u v).zeroed (span i a b) ∧ ((d.zero i a b).setObj i u v).obj i u = v ∧
      d.sameBut ((d.zero i a b).setObj i u v) (fun j w => ((i, u) :: span i a b).contains (j, w)) := by
  refine ⟨Dev.zeroed_setObj (d.zero_zeroed i hb) v hb hu (fun h => ?_), Dev.obj_setObj_self .., ?_⟩
  · have := mem_span.mp h
    omega
  · refine ((d.zero_sameBut i hb).mono (fun j w h => ?_)).setObj v hu (by simp)
    rw [List.contains_cons, h, Bool.or_true]

theorem Dev.obj_resetObj (d : Dev) {i u j w : Nat} (hu : u < 256) (hw : w < 256) (h : ¬(j = i ∧ w = u)) :
    (d.resetObj i u).obj j w = d.obj j w := by
  unfold Dev.obj Dev.resetObj
  dsimp only
  rw [Store.get_clearRange, if_neg]
  unfold okey keySpan
  omega

theorem Dev.sameBut.resetObj {d e : Dev} {P : Nat → Nat → Bool} (h : d.sameBut e P) {i u : Nat} (hu : u < 256) (hp : P i u = true) :
    d.sameBut (e.resetObj i u) P := fun j w hw hq => by
  rw [Dev.obj_resetObj _ hu hw, h j w hw hq]
  rintro ⟨rfl, rfl⟩
  rw [hp] at hq
  cases hq

/-- The objects that the clear of a tooth table changes. -/
def toothCleared (k j w : Nat) : Bool :=
  synthShown k j w || (decide (j = 0x2200 + k) && decide (w = 0x0E)) ||
    (decide (j = 0x2210 + k) && (decide (w = 0x01) || decide (w = 0x03) || decide (w = 0x04) || decide (w = 0x07)))

theorem synthShown_iff {k j w : Nat} : synthShown k j w = true ↔ j = 0x2200 + k ∧ (w = 0x20 ∨ w = 0x21) := by simp [synthShown]

theorem toothCleared_iff {k j w : Nat} : toothCleared k j w = true ↔ (j = 0x2200 + k ∧ (w = 0x20 ∨ w = 0x21 ∨ w = 0x0E)) ∨
    (j = 0x2210 + k ∧ (w = 0x01 ∨ w = 0x03 ∨ w = 0x04 ∨ w = 0x07)) := by
  simp only [toothCleared, synthShown, Bool.or_eq_true, Bool.and_eq_true, decide_eq_true_eq]
  omega

/-- A learning run that is aborted shows its state, and has learned nothing (R179). -/
theorem Dev.learnAbort_leaves (d : Dev) (k : Nat) : d.sameBut (d.learnAbort k) (toothCleared k) ∧
    (d.obj (0x2200 + k) 0x0E = 1 ∨ d.obj (0x2200 + k) 0x0E = 2 → (d.learnAbort k).obj (0x2200 + k) 0x0E = 5) := by
  unfold Dev.learnAbort
  extract_lets i y stopped shown
  have hstopped : stopped.regs = d.regs := rfl
  have hshown : d.sameBut shown (toothCleared k) :=
    ((Dev.sameBut_of_regs hstopped).setObj _ (by decide) (by simp [toothCleared, i])).setObj _ (by decide) (by simp [toothCleared])
  have hcause : (shown.synthCause k 2).regs = shown.regs := Dev.raiseIf_regs ..
  split
  · refine ⟨(hshown.regs hcause).setObj _ (by decide) (by simp [toothCleared, synthShown, i]), fun _ => ?_⟩
    rw [Dev.obj_setBit _ _ _ (by decide) (by decide) (by simp), Dev.obj_congr hcause, Dev.obj_setObj_idx _ _ (by decide) (by decide) (by omega),
      Dev.obj_setObj_self]
  · next h => exact ⟨Dev.sameBut_refl _ _, fun hrun => absurd (by simpa using hrun) h⟩

/-- The clear of a tooth table (R179, R200): the table is empty, a learning run is aborted, and table_mismatch is clear. -/
theorem Dev.toothClear_leaves (d : Dev) (k : Nat) : (d.toothClear k).obj (0x2210 + k) 0x01 = 0 ∧
    (d.obj (0x2200 + k) 0x0E = 1 ∨ d.obj (0x2200 + k) 0x0E = 2 → (d.toothClear k).obj (0x2200 + k) 0x0E = 5) ∧
    (d.toothClear k).bit (0x2200 + k) 0x21 2 = false ∧ d.sameBut (d.toothClear k) (toothCleared k) := by
  obtain ⟨habort, hstate⟩ := d.learnAbort_leaves k
  unfold Dev.toothClear
  dsimp only
  refine ⟨?_, fun hrun => ?_, ?_, ?_⟩
  · rw [Dev.synthStatus_sameBut _ k _ _ (by decide) (by simp [synthShown]), Dev.obj_setBit _ _ _ (by decide) (by decide) (by omega),
      Dev.obj_setObj_self]
  · rw [Dev.synthStatus_sameBut _ k _ _ (by decide) (by simp [synthShown]), Dev.obj_setBit _ _ _ (by decide) (by decide) (by simp),
      Dev.obj_setObj_idx _ _ (by decide) (by decide) (by omega), Dev.obj_resetObj _ (by decide) (by decide) (by omega),
      Dev.obj_resetObj _ (by decide) (by decide) (by omega), hstate hrun]
  · rw [Dev.synthStatus_mismatch, Dev.bit_setBit_self]
  · have hcleared := ((habort.resetObj (i := 0x2210 + k) (u := 0x03) (by decide) (by simp [toothCleared])).resetObj (i := 0x2210 + k)
      (u := 0x04) (by decide) (by simp [toothCleared])).setObj (i := 0x2210 + k) (u := 0x01) 0 (by decide) (by simp [toothCleared])
    exact (hcleared.setObj _ (by decide) (by simp [toothCleared, synthShown])).trans
      ((Dev.synthStatus_sameBut _ k).mono (fun j w h => by simp [toothCleared, h]))

/-- Settles O26: each clear is the command of its block; the write of its subindex alone does no more than bring a synthesiser's status up
to date, and its action zeroes counters and clears the bits it names. -/
theorem clearsOfAngle : Obligations.ClearsOfAngle := by
  intro s t r d
  refine ⟨fun h => ?_, fun n h => ?_, fun k h => ?_, fun k h => (schedClear_clears r k).zeroes h rfl (by decide), fun k h => ?_, fun k h => ?_,
    fun n h => (channelClear_clears r n).zeroes h rfl (by decide), fun b h => (bankClear_clears r b).zeroes h rfl (by decide),
    fun x h => (boostClear_clears r x).zeroes h rfl (by decide)⟩
  · refine (clearFlags_clears r).does h rfl (fun _ _ hp => by cases hp) (fun e hsame => ⟨?_, ?_⟩)
    · have hkept : e.obj 0x2000 0x04 = d.obj 0x2000 0x04 := hsame _ _ (by decide) rfl
      rw [Dev.setBit, Dev.obj_setObj_self, hkept]
    · exact (Dev.sameBut_refl _ _).setObj _ (by decide) rfl
  · refine (wheelClear_clears r n).does h rfl (fun _ _ hp => by cases hp) (fun e hsame => ?_)
    have hkept : e.obj (0x2100 + n) 0x0B = d.obj (0x2100 + n) 0x0B := hsame _ _ (by decide) (by simp)
    obtain ⟨hzeroed, hbits, hrest⟩ := e.zero_then_setObj (i := 0x2100 + n) (a := 0x0D) (b := 0x10) (u := 0x0B)
      (e.obj (0x2100 + n) 0x0B &&& 0x07) (by decide) (by decide) (by decide)
    exact ⟨⟨hzeroed, hbits.trans (by rw [hkept])⟩, hrest⟩
  · refine (domainClear_clears r k).does h rfl (fun _ _ hp => by cases hp) (fun e hsame => ?_)
    have hkept : (e.zero (0x2180 + k) 0x16 0x1A).obj (0x2180 + k) 0x11 = d.obj (0x2180 + k) 0x11 :=
      (Dev.obj_zero _ (by decide) (by decide)).trans ((if_neg (by simp)).trans (hsame _ _ (by decide) (by simp)))
    obtain ⟨hzeroed, hbits, hrest⟩ := e.zero_then_setObj (i := 0x2180 + k) (a := 0x16) (b := 0x1A) (u := 0x11)
      (bitTo ((e.zero (0x2180 + k) 0x16 0x1A).obj (0x2180 + k) 0x11) 7 false) (by decide) (by decide) (by decide)
    exact ⟨⟨hzeroed, hbits.trans (by rw [hkept])⟩, hrest⟩
  · refine (synthClear_clears r k).does h rfl (fun j w hp => ?_) (fun e _ => ⟨e.zero_zeroed _ (by decide), ?_⟩)
    · obtain ⟨rfl, rfl | rfl⟩ := synthShown_iff.mp hp <;> simp
    · refine (e.zero_sameBut _ (by decide)).mono (fun j w hp => ?_)
      simp only [List.contains_cons, hp, Bool.or_true]
  · refine (toothTableClear_clears r k).does h rfl (fun j w hp => ?_) (fun e hsame => ?_)
    · obtain ⟨rfl, rfl | rfl⟩ := synthShown_iff.mp hp <;> simp
    · obtain ⟨hempty, habort, hmismatch, hrest⟩ := e.toothClear_leaves k
      have hkept : e.obj (0x2200 + k) 0x0E = d.obj (0x2200 + k) 0x0E := hsame _ _ (by decide) (by simp [synthShown])
      refine ⟨⟨hempty, fun hrun => habort (by rwa [hkept]), hmismatch⟩, hrest.mono (fun j w hp => ?_)⟩
      rcases toothCleared_iff.mp hp with ⟨rfl, rfl | rfl | rfl⟩ | ⟨rfl, rfl | rfl | rfl | rfl⟩ <;> simp

end Sys2Proof.Machine
end

section
/-! SUPPORT. The arm command (R162): how a command that takes a value is carried out in a block that stores its values, and what an arm or
a disarm of one domain leaves in the domains. -/

namespace Sys2Proof.Machine

/-! ### A command with a value -/

/-- An accepted write of a command's value, whatever the value: the block's hooks see the write, and the command follows the response. -/
theorem Dev.applied_startsWith {d : Dev} {r : Req} {i u : Nat} {b : ObjBlock} (hs : b.Starts i u) (hk : b.kind.stores = true) (v : Nat) :
    d.applied (oneWr r i u 1 v b) = { dev := Dev.hooks d (d.writtenBy r.port i) (oneWr r i u 1 v b)
                                      after := fun e => e.command (oneWr r i u 1 v b) u (v % 256) } := by
  obtain ⟨-, row, hr, -, -, hc⟩ := hs
  obtain ⟨hloft, hmailbox, hfirmware, -, -, hreset, hpower⟩ : b.kind ≠ .loft ∧ b.kind ≠ .mailbox ∧ b.kind ≠ .firmware ∧
      b.kind ≠ .learned ∧ b.kind ≠ .nv ∧ b.kind ≠ .reset ∧ b.kind ≠ .power := by
    simpa [ObjKind.stores] using hk
  have hstored : d.stored (oneWr r i u 1 v b) = d := by simp [Dev.stored, Dev.storePut, oneWr, hostWr, hr, hc, unstored]
  have hcmd : (fun e : Dev => e.commands (oneWr r i u 1 v b)) = fun e => e.command (oneWr r i u 1 v b) u (v % 256) := by
    funext e
    simp [Dev.commands, Wr.isCommand, oneWr, hostWr, hr, hc]
  have hsend : d.sendPart (oneWr r i u 1 v b) = d := by
    unfold Dev.sendPart
    split
    · next h => exact absurd h hmailbox
    · next h => exact absurd h hloft
    · rfl
  have heff : d.windowEff (oneWr r i u 1 v b) = LoftEff.none := Dev.windowEff_none (fun h => absurd h hloft)
  have hfirst : (oneWr r i u 1 v b).silences = false := by simp [Wr.silences, hfirmware, hreset, hpower]
  unfold Dev.applied Dev.accept
  rw [hsend, hstored, heff, hfirst, hcmd]
  rfl

/-- The hooks of a domain see nothing to do in a command: its write stores no configuration and no slot. -/
theorem Dev.hooks_domain {r : Req} {k : Fin 2} {u : Nat} (hs : domainBlock.Starts (0x2180 + k) u) (hu : u < 0x40) (v : Nat) (g d : Dev) :
    Dev.hooks g d (oneWr r (0x2180 + k) u 1 v domainBlock) = d := by
  obtain ⟨-, row, hr, -, -, hcmd⟩ := hs
  refine Dev.domainHook_command (by simp [oneWr_acc hr, hcmd]) ?_
  simp [oneWr, hostWr]
  omega

/-- An accepted command of a domain: it is the last thing that happens, on a device with the objects of the command's instant but for those
of chapter 02. -/
theorem State.requests_of_domain {s : State} {t : Nat} {r : Req} {k : Fin 2} {u v : Nat} (hs : domainBlock.Starts (0x2180 + k) u)
    (hu : u < 0x40) (h : s.takes t r (0x2180 + k) u 1 v = true) : ∃ e : Dev,
      onBoth s t (fun m d => d.putOne m r (0x2180 + k) u 1 v) =
        .next { s with dev := e.command (oneWr r (0x2180 + k) u 1 v domainBlock) u (v % 256) } ∧
      (s.devAt t).sameBut e portObjs := by
  obtain ⟨hb, row, hr, hn, hty, -⟩ := id hs
  have hnext := State.requests_of_serves h
  rw [State.answer_of_takes h hb hr hn hty, Dev.applied_startsWith hs rfl, Dev.hooks_domain hs hu] at hnext
  refine ⟨_, (State.putOne_requests ..).trans hnext, ?_⟩
  exact (Dev.served_portObjs _ (putFrame r (0x2180 + k) u 1 (leBytes 1 v))).regs (Dev.respond_regs _ _ (st := .ok) _ _ (by decide))

theorem domainBlock_starts_arm (k : Fin 2) : domainBlock.Starts (0x2180 + k) 0x0F := ⟨by revert k; decide, by revert k; decide +kernel⟩

/-! ### What an arm and a disarm leave in the domains -/

/-- The signature check writes the table's state and the synthesiser's status (R175). -/
theorem Dev.sigCheck_sameBut (d : Dev) (k : Nat) : d.sameBut (d.sigCheck k) (toothCleared k) := by
  unfold Dev.sigCheck
  split
  · have htable : d.sameBut (d.setObj (0x2210 + k) 0x01 3) (toothCleared k) :=
      (Dev.sameBut_refl _ _).setObj _ (by decide) (by simp [toothCleared])
    have hmarked : d.sameBut ((d.setObj (0x2210 + k) 0x01 3).setBit (0x2200 + k) 0x21 2 true) (toothCleared k) :=
      htable.setObj _ (by decide) (by simp [toothCleared, synthShown])
    have hcause : ∀ e : Dev, (e.synthCause k 3).regs = e.regs := fun e => e.raiseIf_regs ..
    exact (hmarked.regs (hcause _)).trans ((Dev.synthStatus_sameBut _ k).mono (fun j w h => by simp [toothCleared, h]))
  · exact Dev.sameBut_refl _ _

theorem Dev.obj_sigCheck (d : Dev) (k : Nat) {i u : Nat} (hi : i < 0x2200) (hu : u < 256) : (d.sigCheck k).obj i u = d.obj i u := by
  refine Dev.sigCheck_sameBut d k i u hu ?_
  simp [toothCleared, synthShown]
  omega

/-- The time against which keep-alives run starts with the first domain to be armed, and is no object (R22). -/
theorem Dev.lastAlive_low (d : Dev) (first : Bool) :
    (if first then { d with stops := { d.stops with lastAlive := d.now } } else d).low = d.low := by
  split
  · exact Dev.low_stops ..
  · rfl

/-- An arm of a domain changes no object of the domains but its own armed bit, as far as the scheduler leaves them alone. -/
theorem Dev.obj_arm (d : Dev) (k : Nat) {j u : Nat} (hj : j < 2) (hu : u < 0x35) :
    (d.arm k).obj (0x2180 + j) u = (d.setBit (0x2180 + k) 0x11 0 true).obj (0x2180 + j) u := by
  have hlow : lowKey (0x2180 + j) u = true := by
    simp [lowKey]
    omega
  unfold Dev.arm
  rw [Dev.obj_of_low (Dev.schedStart_low ..) hlow, Dev.obj_sigCheck _ _ (by omega) (by omega),
    Dev.obj_of_low ((Dev.lastAlive_low ..).trans (Dev.protStatus_low _)) hlow]

theorem Dev.obj_disarm (d : Dev) (k : Nat) (veto : Bool) {j u : Nat} (hj : j < 2) (hu : u < 0x35) :
    (d.disarm k veto).obj (0x2180 + j) u = (d.setBit (0x2180 + k) 0x11 0 false).obj (0x2180 + j) u := by
  refine Dev.obj_of_low (Dev.disarmDoms_low ..) ?_
  simp [lowKey]
  omega

/-- A device on which the armed bit of one domain has been written: that domain is armed or not as the bit says, the other one as before,
and both are in their states. -/
theorem Dev.armed_setBit {d e : Dev} {k : Nat} {on : Bool} (hk : k < 2)
    (h : ∀ j < 2, ∀ u < 0x35, e.obj (0x2180 + j) u = (d.setBit (0x2180 + k) 0x11 0 on).obj (0x2180 + j) u) :
    e.armed k = on ∧ e.armed (1 - k) = d.armed (1 - k) ∧ ∀ j < 2, e.domState j = d.domState j := by
  refine ⟨?_, ?_, fun j hj => ?_⟩
  · exact (congrArg (Nat.testBit · 0) (h k hk 0x11 (by decide))).trans (Dev.bit_setBit_self ..)
  · refine congrArg (Nat.testBit · 0) ((h (1 - k) (by omega) 0x11 (by decide)).trans ?_)
    exact Dev.obj_setBit _ _ _ (by decide) (by decide) (by omega)
  · exact (h j hj 0x10 (by decide)).trans (Dev.obj_setBit _ _ _ (by decide) (by decide) (by simp))

/-- The objects of the domains do not change as a request is taken up. -/
theorem Dev.domains_of_sameBut {d e : Dev} (h : d.sameBut e portObjs) (j : Nat) {u : Nat} (hu : u < 256) :
    e.obj (0x2180 + j) u = d.obj (0x2180 + j) u := h _ _ hu (portObj_apart _ _ (by decide))

/-- Settles O24: the command is the last thing that happens, and of the domains it writes one bit. -/
theorem armAndDisarm : Obligations.ArmAndDisarm := by
  intro s t r k
  dsimp only
  have hdomains : ∀ {e u : Dev} {on : Bool}, (s.devAt t).sameBut e portObjs →
      (∀ j < 2, ∀ w < 0x35, u.obj (0x2180 + j) w = (e.setBit (0x2180 + k) 0x11 0 on).obj (0x2180 + j) w) → u.armed k = on ∧
        u.armed (1 - k) = (s.devAt t).armed (1 - k) ∧ ∀ j < 2, u.domState j = (s.devAt t).domState j := fun {e u on} he hu => by
    obtain ⟨harmed, hother, hstates⟩ := Dev.armed_setBit k.isLt hu
    refine ⟨harmed, hother.trans ?_, fun j hj => (hstates j hj).trans (Dev.domains_of_sameBut he j (by decide))⟩
    exact congrArg (Nat.testBit · 0) (Dev.domains_of_sameBut he _ (by decide))
  refine ⟨fun h => ?_, fun h => ?_⟩
  · obtain ⟨e, hexec, he⟩ := State.requests_of_domain (domainBlock_starts_arm k) (by decide) h
    obtain ⟨harmed, hrest⟩ := hdomains he (fun j hj w hw => e.obj_arm k hj hw)
    have hcmd : e.command (oneWr r (0x2180 + k) 0x0F 1 1 domainBlock) 0x0F (1 % 256) = e.arm k := by
      simp [Dev.command, Dev.domainCommand, domainBlock]
    exact ⟨_, hexec, by rwa [hcmd], by rwa [hcmd], rfl⟩
  · obtain ⟨e, hexec, he⟩ := State.requests_of_domain (domainBlock_starts_arm k) (by decide) h
    obtain ⟨harmed, hrest⟩ := hdomains he (fun j hj w hw => e.obj_disarm k false hj hw)
    have hcmd : e.command (oneWr r (0x2180 + k) 0x0F 1 2 domainBlock) 0x0F (2 % 256) = e.disarm k false := by
      simp [Dev.command, Dev.domainCommand, domainBlock]
    exact ⟨_, hexec, by rwa [hcmd], by rwa [hcmd], rfl⟩

end Sys2Proof.Machine
end

section
/-! SUPPORT. Entries of a domain to STOPPED, LOSS and CAM_ONLY (R133, R148 to R151): the objects that they change, what they leave in the
domain's own object, and that the wheel inputs' accepted edges and lines stand. -/

namespace Sys2Proof.Machine

/-! ### What an entry changes -/

/-- The objects that an entry of a domain to a state may change: its own, its synthesiser's and tooth table's, and the scheduler's. -/
def entryObj (k j w : Nat) : Bool := !lowKey j w || decide (j = 0x2180 + k) || toothCleared k j w

theorem entryObj_own (k w : Nat) : entryObj k (0x2180 + k) w = true := by simp [entryObj]

/-- The objects below the domains, and those of the other domain as far as the scheduler leaves them alone, are none of them. -/
theorem entryObj_apart {k j w : Nat} (hj : j < 0x2182) (hne : j ≠ 0x2180 + k) (hw : w < 0x35) : entryObj k j w = false := by
  simp only [entryObj, lowKey, toothCleared, synthShown, Bool.or_eq_false_iff, Bool.not_eq_false', Bool.and_eq_true, Bool.or_eq_true,
    Bool.and_eq_false_iff, decide_eq_true_eq, decide_eq_false_iff_not]
  omega

/-- A step of an entry to a state, with the objects that it may change. -/
abbrev Dev.entryStep (d e : Dev) (k : Nat) : Prop := d.sameBut e (entryObj k)

theorem Dev.setObj_entry (d : Dev) (k : Nat) {u : Nat} (v : Nat) (hu : u < 256) : d.entryStep (d.setObj (0x2180 + k) u v) k :=
  (Dev.sameBut_refl _ _).setObj v hu (entryObj_own k u)

theorem Dev.toothCleared_entry {d e : Dev} {k : Nat} (h : d.sameBut e (toothCleared k)) : d.entryStep e k :=
  h.mono (fun j w hp => by simp [entryObj, hp])

theorem Dev.synthShown_entry {d e : Dev} {k : Nat} (h : d.sameBut e (synthShown k)) : d.entryStep e k :=
  Dev.toothCleared_entry (h.mono (fun j w hp => by simp [toothCleared, hp]))

theorem Dev.low_entry {d e : Dev} (k : Nat) (h : e.low = d.low) : d.entryStep e k := fun j w _ hp => by
  refine Dev.obj_of_low h ?_
  simp only [entryObj, Bool.or_eq_false_iff, Bool.not_eq_false'] at hp
  exact hp.1.1

/-! ### What stands in the domain's own object -/

/-- Of the own object of a domain, an entry to a state changes after the state's own part the angle, the speed and the lowest bits of the
status (R149, R160). -/
def Dev.keepsDomain (d e : Dev) (k : Nat) : Prop :=
  (∀ u < 0x35, u ∉ [0x11, 0x12, 0x13, 0x14] → e.obj (0x2180 + k) u = d.obj (0x2180 + k) u) ∧
    ∀ b, 4 < b → e.bit (0x2180 + k) 0x11 b = d.bit (0x2180 + k) 0x11 b

theorem Dev.keepsDomain.trans {d e f : Dev} {k : Nat} (h : d.keepsDomain e k) (g : e.keepsDomain f k) : d.keepsDomain f k :=
  ⟨fun u hu hne => (g.1 u hu hne).trans (h.1 u hu hne), fun b hb => (g.2 b hb).trans (h.2 b hb)⟩

/-- A step that leaves the object as the scheduler knows it alone. -/
theorem Dev.keepsDomain_of_obj {d e : Dev} {k : Nat} (h : ∀ u < 0x35, e.obj (0x2180 + k) u = d.obj (0x2180 + k) u) : d.keepsDomain e k :=
  ⟨fun u hu _ => h u hu, fun b _ => congrArg (Nat.testBit · b) (h 0x11 (by decide))⟩

theorem Dev.keepsDomain_of_regs {d e : Dev} (k : Nat) (h : e.regs = d.regs) : d.keepsDomain e k :=
  Dev.keepsDomain_of_obj (fun _ _ => Dev.obj_congr h ..)

theorem Dev.keepsDomain_of_toothCleared {d e : Dev} {k : Nat} (h : d.sameBut e (toothCleared k)) : d.keepsDomain e k :=
  Dev.keepsDomain_of_obj (fun u hu => h _ u (by omega) (by simp [toothCleared, synthShown]))

theorem Dev.keepsDomain_of_low {d e : Dev} {k : Nat} (hk : k < 0x280) (h : e.low = d.low) : d.keepsDomain e k :=
  Dev.keepsDomain_of_obj (fun u hu => Dev.obj_of_low h (by simp [lowKey]; omega))

/-! ### The parts of an entry -/

theorem Dev.restartSeen_regs (d : Dev) (k : Nat) : (d.restartSeen k).regs = d.regs :=
  Dev.foldl_keeps Dev.regs (fun (e : Dev) n => show (e.setWheel n { (e.wheel n) with seen := 0 }).regs = e.regs from rfl) _ d

/-- The state's own part: the code and the time, beside sources and lines (R151). -/
theorem Dev.stateSet_regs (d : Dev) (k new : Nat) (stall : Bool) :
    (d.stateSet k new stall).regs = ((d.setObj (0x2180 + k) 0x10 new).setObj (0x2180 + k) 0x1B d.now).regs := by
  simp [Dev.stateSet]

theorem Dev.obj_stateSet (d : Dev) (k new : Nat) (stall : Bool) {u : Nat} (hu : u < 256) :
    (d.stateSet k new stall).obj (0x2180 + k) u = if u = 0x1B then d.now else if u = 0x10 then new else d.obj (0x2180 + k) u := by
  rw [Dev.obj_congr (d.stateSet_regs k new stall), Dev.obj_setObj _ _ (by decide) hu, Dev.obj_setObj _ _ (by decide) hu]
  simp

/-- A bit of the status behind a write of another subindex. -/
theorem Dev.bit_setObj_sub (d : Dev) {i j u w : Nat} (v b : Nat) (hu : u < 256) (hw : w < 256) (h : w ≠ u) :
    (d.setObj i u v).bit j w b = d.bit j w b := congrArg (Nat.testBit · b) (Dev.obj_setObj_sub d v hu hw h)

theorem Dev.bit_congr {d e : Dev} (h : d.regs = e.regs) (i u b : Nat) : d.bit i u b = e.bit i u b :=
  congrArg (Nat.testBit · b) (Dev.obj_congr h i u)

/-- Another bit of a status than the one that is written. -/
theorem Dev.bit_setBit_other (d : Dev) {i u b c : Nat} (on : Bool) (hu : u < 256) (h : c ≠ b) :
    (d.setBit i u b on).bit i u c = d.bit i u c := by
  rw [Dev.bit_setBit _ _ _ _ hu hu, if_neg (fun hc => h hc.2.2)]

/-- One of the lowest bits of the status is written. -/
theorem Dev.setBit_keepsDomain (d : Dev) (k : Nat) {b : Nat} (on : Bool) (hb : b ≤ 4) :
    d.keepsDomain (d.setBit (0x2180 + k) 0x11 b on) k :=
  ⟨fun u hu hne => Dev.obj_setBit _ _ _ (by decide) (by omega) (fun hc => hne (by simp [hc.2])),
    fun c hc => Dev.bit_setBit_other _ _ (by decide) (by omega)⟩

/-- The angle or the speed is written. -/
theorem Dev.setObj_keepsDomain (d : Dev) (k : Nat) {w : Nat} (v : Nat) (hw : w ∈ [0x12, 0x13, 0x14]) :
    d.keepsDomain (d.setObj (0x2180 + k) w v) k := by
  have hsub : w = 0x12 ∨ w = 0x13 ∨ w = 0x14 := by simpa using hw
  refine ⟨fun u hu hout => Dev.obj_setObj_sub _ _ (by omega) (by omega) ?_,
    fun b _ => Dev.bit_setObj_sub _ _ _ (by omega) (by decide) (by omega)⟩
  rintro rfl
  exact hout (List.mem_cons_of_mem _ hw)

theorem Dev.hidePos_keepsDomain (d : Dev) (k : Nat) : d.keepsDomain (d.hidePos k) k :=
  (((d.setObj_keepsDomain k _ (by simp)).trans (Dev.setObj_keepsDomain _ k _ (by simp))).trans
    (Dev.setBit_keepsDomain _ k _ (by decide))).trans (Dev.setBit_keepsDomain _ k _ (by decide))

theorem Dev.angleLost_keepsDomain (d : Dev) (k : Nat) : d.keepsDomain (d.angleLost k) k := by
  have hdom : ∀ m : Dom, d.keepsDomain (d.setDom k m) k := fun m => Dev.keepsDomain_of_regs k rfl
  have hlimp : ∀ e : Dev, e.keepsDomain (e.limpStatus k) k := fun e => e.setBit_keepsDomain k _ (by decide)
  exact ((((hdom _).trans (Dev.hidePos_keepsDomain _ k)).trans (Dev.setObj_keepsDomain _ k _ (by simp))).trans
    (Dev.setBit_keepsDomain _ k _ (by decide))).trans ((hlimp _).trans (Dev.keepsDomain_of_regs k (Dev.restartSeen_regs _ k)))

theorem Dev.setBit_entry (d : Dev) (k b : Nat) (on : Bool) : d.entryStep (d.setBit (0x2180 + k) 0x11 b on) k := d.setObj_entry k _ (by decide)

theorem Dev.limpStatus_entry (d : Dev) (k : Nat) : d.entryStep (d.limpStatus k) k := d.setBit_entry k _ _

theorem Dev.hidePos_entry (d : Dev) (k : Nat) : d.entryStep (d.hidePos k) k :=
  (((d.setObj_entry k _ (by decide)).trans (Dev.setObj_entry _ k _ (by decide))).trans (Dev.setBit_entry _ k _ _)).trans
    (Dev.setBit_entry _ k _ _)

theorem Dev.angleLost_entry (d : Dev) (k : Nat) : d.entryStep (d.angleLost k) k := by
  have hdom : ∀ m : Dom, d.entryStep (d.setDom k m) k := fun m => Dev.sameBut_of_regs rfl
  exact ((((hdom _).trans (Dev.hidePos_entry _ k)).trans (Dev.setObj_entry _ k _ (by decide))).trans (Dev.setBit_entry _ k _ _)).trans
    ((Dev.limpStatus_entry _ k).regs (Dev.restartSeen_regs _ k))

theorem Dev.leaveFull_sameBut (d : Dev) (k : Nat) : d.sameBut (d.leaveFull k) (synthShown k) :=
  (Dev.sameBut_of_regs (e := d.setSynth k _) rfl).setObj _ (by decide) (by simp [synthShown])

theorem Dev.cycLost_regs (d : Dev) (k : Nat) : (d.cycLost k).regs = d.regs := by
  refine Dev.foldl_regs (fun e x => ?_) _ _
  split <;> rfl

/-- The synthesiser stops: its status word and its class change (R193). -/
theorem Dev.synthStop_sameBut (d : Dev) (k : Nat) : d.sameBut (d.synthStop k) (synthShown k) := by
  have hsynth : ∀ y : Synth, d.sameBut ((d.leaveFull k).setSynth k y) (synthShown k) := fun y => (d.leaveFull_sameBut k).regs rfl
  exact ((hsynth _).regs (Dev.cycLost_regs _ k)).trans (Dev.synthStatus_sameBut _ k)

theorem Dev.stateSet_entry (d : Dev) (k new : Nat) (stall : Bool) : d.entryStep (d.stateSet k new stall) k :=
  ((d.setObj_entry k new (by decide)).trans (Dev.setObj_entry _ k d.now (by decide))).regs (Dev.stateSet_regs ..)

theorem Dev.synthShown_toothCleared {d e : Dev} {k : Nat} (h : d.sameBut e (synthShown k)) : d.sameBut e (toothCleared k) :=
  h.mono (fun j w hp => by simp [toothCleared, hp])

theorem Dev.synthStop_keepsDomain (d : Dev) (k : Nat) : d.keepsDomain (d.synthStop k) k :=
  Dev.keepsDomain_of_toothCleared (Dev.synthShown_toothCleared (d.synthStop_sameBut k))

/-- The scheduler takes the change of state, after the domain's record has been written. -/
theorem Dev.schedState_setDom_low (d : Dev) (k : Nat) (m : Dom) (old new : Nat) : ((d.setDom k m).schedState k old new).low = d.low :=
  (Dev.schedState_low ..).trans (Dev.setDom_low ..)

/-! ### LOSS -/

/-- A domain whose entry to LOSS has been noted in its object: the state, the time, the cause, the count (R151). -/
def Dev.lossNoted (d : Dev) (k cause : Nat) : Dev := ((d.stateSet k 5 false).setObj (0x2180 + k) 0x15 cause).inc (0x2180 + k) 0x16

theorem Dev.obj_lossNoted (d : Dev) (k cause : Nat) {u : Nat} (hu : u < 256) : (d.lossNoted k cause).obj (0x2180 + k) u =
    if u = 0x16 then satInc32 (d.obj (0x2180 + k) 0x16) else if u = 0x15 then cause else if u = 0x1B then d.now
      else if u = 0x10 then 5 else d.obj (0x2180 + k) u := by
  rw [Dev.lossNoted, Dev.obj_inc _ (by decide) hu, Dev.obj_setObj _ _ (by decide) hu, Dev.obj_setObj _ _ (by decide) (by decide),
    Dev.obj_stateSet _ _ _ _ hu, Dev.obj_stateSet _ _ _ _ (by decide)]
  simp

/-- The entry of a domain that follows crank or cam. -/
theorem Dev.toLoss_of_synced {d : Dev} {k : Nat} (h0 : d.domState k ≠ 0) (h5 : d.domState k ≠ 5) (cause : Nat) :
    ∃ m : Dom, d.toLoss k cause = ((((d.lossNoted k cause).angleLost k).synthStop k).setDom k m).schedState k (d.domState k) 5 :=
  ⟨_, by simp only [Dev.toLoss, h0, h5, if_false, decide_false, Bool.false_and, Bool.false_eq_true]; rfl⟩

/-- A domain that follows crank or cam enters LOSS with a cause, and the loss is counted (R151). -/
theorem Dev.toLoss_enters {d : Dev} {k : Nat} (hk : k < 0x280) (h0 : d.domState k ≠ 0) (h5 : d.domState k ≠ 5) (cause : Nat) :
    (d.toLoss k cause).domState k = 5 ∧ (d.toLoss k cause).obj (0x2180 + k) 0x15 = cause ∧
      (d.toLoss k cause).obj (0x2180 + k) 0x16 = satInc32 (d.obj (0x2180 + k) 0x16) ∧
      ∀ b, 4 < b → (d.toLoss k cause).bit (0x2180 + k) 0x11 b = d.bit (0x2180 + k) 0x11 b := by
  obtain ⟨m, hdev⟩ := Dev.toLoss_of_synced h0 h5 cause
  have hkeeps : (d.lossNoted k cause).keepsDomain (d.toLoss k cause) k := by
    rw [hdev]
    exact ((Dev.angleLost_keepsDomain _ k).trans (Dev.synthStop_keepsDomain _ k)).trans
      (Dev.keepsDomain_of_low hk (Dev.schedState_setDom_low ..))
  obtain ⟨hobj, hbits⟩ := hkeeps
  refine ⟨(hobj 0x10 (by decide) (by decide)).trans ?_, (hobj 0x15 (by decide) (by decide)).trans ?_,
    (hobj 0x16 (by decide) (by decide)).trans ?_, fun b hb => (hbits b hb).trans (congrArg (Nat.testBit · b) ?_)⟩ <;>
  · rw [Dev.obj_lossNoted _ _ _ (by decide)]
    rfl

/-- Whatever an entry to LOSS does, the objects of the other parts stand. -/
theorem Dev.toLoss_entry (d : Dev) (k cause : Nat) : d.entryStep (d.toLoss k cause) k := by
  have hnoted : d.entryStep (d.lossNoted k cause) k :=
    ((d.stateSet_entry k 5 false).trans (Dev.setObj_entry _ k _ (by decide))).trans (Dev.setObj_entry _ k _ (by decide))
  have hlost := (hnoted.trans (Dev.angleLost_entry _ k)).trans (Dev.synthShown_entry (Dev.synthStop_sameBut _ k))
  unfold Dev.toLoss
  dsimp only
  split
  · exact Dev.sameBut_refl _ _
  · split
    · split
      · exact d.setObj_entry k _ (by decide)
      · exact Dev.sameBut_refl _ _
    · split
      · exact Dev.sameBut_refl _ _
      · exact hlost.trans (Dev.low_entry k (Dev.schedState_setDom_low ..))

/-! ### STOPPED -/

/-- A domain whose stall has been noted in its object (R133, R157). -/
def Dev.stallNoted (d : Dev) (k : Nat) : Dev :=
  (((d.stateSet k 0 true).setObj (0x2180 + k) 0x15 9).setBit (0x2180 + k) 0x11 7 true).setBit (0x2180 + k) 0x11 8 false

theorem Dev.stallNoted_reads (d : Dev) (k : Nat) :
    (d.stallNoted k).obj (0x2180 + k) 0x10 = 0 ∧ (d.stallNoted k).obj (0x2180 + k) 0x15 = 9 ∧
    (d.stallNoted k).obj (0x2180 + k) 0x1B = d.now ∧ (d.stallNoted k).bit (0x2180 + k) 0x11 7 = true := by
  have hobj : ∀ u < 256, u ≠ 0x11 → (d.stallNoted k).obj (0x2180 + k) u =
      ((d.stateSet k 0 true).setObj (0x2180 + k) 0x15 9).obj (0x2180 + k) u := fun u hu hne =>
    (Dev.obj_setBit _ _ _ (by decide) hu (fun hc => hne hc.2)).trans (Dev.obj_setBit _ _ _ (by decide) hu (fun hc => hne hc.2))
  have hset : ∀ u < 256, u ≠ 0x15 → ((d.stateSet k 0 true).setObj (0x2180 + k) 0x15 9).obj (0x2180 + k) u = _ :=
    fun u hu hne => (Dev.obj_setObj_sub _ _ (by decide) hu hne).trans (d.obj_stateSet k 0 true hu)
  refine ⟨(hobj _ (by decide) (by decide)).trans (hset _ (by decide) (by decide)),
    (hobj _ (by decide) (by decide)).trans (Dev.obj_setObj_self ..),
    (hobj _ (by decide) (by decide)).trans (hset _ (by decide) (by decide)), ?_⟩
  exact (Dev.bit_setBit_other _ _ (by decide) (by decide)).trans (Dev.bit_setBit_self ..)

/-- A learned trigger that falls is noted outside the domains (R180). -/
theorem Dev.learnPend_low (d : Dev) : d.learnPend.low = d.low := Dev.setBit_low d 0x08 0 true (by decide)

theorem Dev.toStopped_eq (d : Dev) (k : Nat) : ∃ (m : Dom) (long : Bool), d.toStopped k =
    (if long then ((((d.stallNoted k).angleLost k).learnAbort k).synthStop k |>.setDom k m).learnPend
      else ((((d.stallNoted k).angleLost k).learnAbort k).synthStop k).setDom k m).schedState k (d.domState k) 0 :=
  ⟨_, _, rfl⟩

theorem Dev.toStopped_end (d : Dev) (k : Nat) : (d.toStopped k).low = ((((d.stallNoted k).angleLost k).learnAbort k).synthStop k).low := by
  obtain ⟨m, long, hdev⟩ := d.toStopped_eq k
  rw [hdev, Dev.schedState_low]
  split
  · exact (Dev.learnPend_low _).trans (Dev.setDom_low ..)
  · exact Dev.setDom_low ..

/-- A stall leaves the domain STOPPED with cause 9, the time and stall noted (R133). -/
theorem Dev.toStopped_enters (d : Dev) {k : Nat} (hk : k < 0x280) :
    (d.toStopped k).domState k = 0 ∧ (d.toStopped k).obj (0x2180 + k) 0x15 = 9 ∧
    (d.toStopped k).obj (0x2180 + k) 0x1B = d.now ∧ (d.toStopped k).bit (0x2180 + k) 0x11 7 = true := by
  obtain ⟨hobj, hbits⟩ : (d.stallNoted k).keepsDomain (d.toStopped k) k :=
    (((Dev.angleLost_keepsDomain _ k).trans (Dev.keepsDomain_of_toothCleared (Dev.learnAbort_leaves _ k).1)).trans
      (Dev.synthStop_keepsDomain _ k)).trans (Dev.keepsDomain_of_low hk (d.toStopped_end k))
  obtain ⟨hstate, hcause, htime, hbit⟩ := d.stallNoted_reads k
  exact ⟨(hobj 0x10 (by decide) (by decide)).trans hstate, (hobj 0x15 (by decide) (by decide)).trans hcause,
    (hobj 0x1B (by decide) (by decide)).trans htime, (hbits 7 (by decide)).trans hbit⟩

theorem Dev.toStopped_entry (d : Dev) (k : Nat) : d.entryStep (d.toStopped k) k := by
  have hnoted : d.entryStep (d.stallNoted k) k :=
    (((d.stateSet_entry k 0 true).trans (Dev.setObj_entry _ k _ (by decide))).trans (Dev.setBit_entry _ k _ _)).trans (Dev.setBit_entry _ k _ _)
  exact (((hnoted.trans (Dev.angleLost_entry _ k)).trans (Dev.toothCleared_entry (Dev.learnAbort_leaves _ k).1)).trans
    (Dev.synthShown_entry (Dev.synthStop_sameBut _ k))).trans (Dev.low_entry k (d.toStopped_end k))

/-! ### CAM_ONLY -/

theorem Dev.markTime_regs (d : Dev) (k m : Nat) : (d.markTime k m).regs = d.regs := by
  unfold Dev.markTime Dev.markFrom
  dsimp only
  repeat' split
  all_goals rfl

theorem Dev.markTimes_regs (d : Dev) (k : Nat) : (d.markTimes k).regs = d.regs := Dev.foldl_regs (fun e m => e.markTime_regs k m) _ d

theorem Dev.toCamOnly_eq (d : Dev) (k : Nat) : ∃ (m : Dom) (y : Synth), d.toCamOnly k =
    ((((((((d.setDom k m).stateSet k 4 false).hidePos k).setBit (0x2180 + k) 0x11 3 true).leaveFull k).setSynth k y).synthStatus k).markTimes
      k).schedState k (d.domState k) 4 := by
  unfold Dev.toCamOnly
  extract_lets p st m d1 d2 d3 d4 y q d5
  exact ⟨_, _, rfl⟩

/-- A domain that loses its crank while the cam can stand in enters CAM_ONLY, and its status but for the lowest bits stands (R148). -/
theorem Dev.toCamOnly_enters (d : Dev) {k : Nat} (hk : k < 0x280) : (d.toCamOnly k).domState k = 4 ∧
    ∀ b, 4 < b → (d.toCamOnly k).bit (0x2180 + k) 0x11 b = d.bit (0x2180 + k) 0x11 b := by
  obtain ⟨m, y, hdev⟩ := d.toCamOnly_eq k
  have hset : ∀ u < 256, ((d.setDom k m).stateSet k 4 false).obj (0x2180 + k) u = _ := fun u hu => (d.setDom k m).obj_stateSet k 4 false hu
  have hkeeps : ((d.setDom k m).stateSet k 4 false).keepsDomain (d.toCamOnly k) k := by
    rw [hdev]
    have hsynth : ∀ e : Dev, e.keepsDomain ((e.leaveFull k).setSynth k y) k := fun e =>
      (Dev.keepsDomain_of_toothCleared (Dev.synthShown_toothCleared (e.leaveFull_sameBut k))).trans (Dev.keepsDomain_of_regs k rfl)
    exact (((((Dev.hidePos_keepsDomain _ k).trans (Dev.setBit_keepsDomain _ k _ (by decide))).trans (hsynth _)).trans
      (Dev.keepsDomain_of_toothCleared (Dev.synthShown_toothCleared (Dev.synthStatus_sameBut _ k)))).trans
      (Dev.keepsDomain_of_regs k (Dev.markTimes_regs ..))).trans (Dev.keepsDomain_of_low hk (Dev.schedState_low ..))
  obtain ⟨hobj, hbits⟩ := hkeeps
  exact ⟨(hobj 0x10 (by decide) (by decide)).trans (hset 0x10 (by decide)),
    fun b hb => (hbits b hb).trans (congrArg (Nat.testBit · b) (hset 0x11 (by decide)))⟩

theorem Dev.toCamOnly_entry (d : Dev) (k : Nat) : d.entryStep (d.toCamOnly k) k := by
  obtain ⟨m, y, hdev⟩ := d.toCamOnly_eq k
  rw [hdev]
  have hdom : d.entryStep (d.setDom k m) k := Dev.sameBut_of_regs rfl
  have hsynth : ∀ e : Dev, e.entryStep ((e.leaveFull k).setSynth k y) k := fun e =>
    (Dev.synthShown_entry (e.leaveFull_sameBut k)).regs rfl
  exact ((((((hdom.trans (Dev.stateSet_entry _ k 4 false)).trans (Dev.hidePos_entry _ k)).trans (Dev.setBit_entry _ k _ _)).trans
    (hsynth _)).trans (Dev.synthShown_entry (Dev.synthStatus_sameBut _ k))).regs (Dev.markTimes_regs _ k)).trans
    (Dev.low_entry k (Dev.schedState_low ..))

end Sys2Proof.Machine
end

section
/-! SUPPORT. The timeouts of a domain (R133, R148 to R150, R153): what each does once its deadline has passed. -/

namespace Sys2Proof.Machine

/-! ### Deadlines that have passed -/

/-- No edge stamped before the stall deadline has come (R133). -/
theorem Dev.stall_due {d : Dev} {k : Nat} (hk : k < 2) (hruns : d.runs 5 = true) (hstate : d.domState k ≠ 0)
    (hlate : (d.stallDeadline k).1 < ((d.now : Nat) : Rat)) (hpending : d.edgePending (d.stallDeadline k).2 (d.stallDeadline k).1 = false) :
    d.stall k = d.toStopped k := by
  unfold Dev.stall
  simp [hk, hruns, hstate, hlate, hpending]

/-- The instant from which an input counts as absent: three times the expected interval after its last accepted edge (R148, R149). -/
def Dev.absentFrom (d : Dev) (n : Nat) : Rat := ((d.obj (0x2100 + n) 0x0C : Nat) : Rat) + 3 * d.expected n

/-- The crank is absent: the domain follows the cam where it can, else it is lost (R148). -/
theorem Dev.crankAbsent_due {d : Dev} {k n : Nat} (hin : (d.pat k).crankIn = some n) (hruns : d.runs 5 = true)
    (hstate : d.domState k = 2 ∨ d.domState k = 3) (hlate : d.absentFrom n < ((d.now : Nat) : Rat))
    (hpending : d.edgePending [n] (d.absentFrom n) = false) :
    d.crankAbsent k = if d.domState k = 3 && d.bit (0x2180 + k) 0x11 1 then (d.setBit (0x2180 + k) 0x11 6 true).toCamOnly k
      else (d.setBit (0x2180 + k) 0x11 6 true).toLoss k 7 := by
  have hsame : (d.setBit (0x2180 + k) 0x11 6 true).domState k = d.domState k := Dev.obj_setBit _ _ _ (by decide) (by decide) (by simp)
  have hlimp : (d.setBit (0x2180 + k) 0x11 6 true).bit (0x2180 + k) 0x11 1 = d.bit (0x2180 + k) 0x11 1 :=
    Dev.bit_setBit_other _ _ (by decide) (by decide)
  unfold Dev.absentFrom at hlate hpending
  unfold Dev.crankAbsent
  simp only [hin, hruns, hlate, hpending, hsame, hlimp]
  simp [hstate]

/-- The cam is absent: in FULL_SYNC it is noted once, in CAM_ONLY the domain is lost (R149, R150). -/
theorem Dev.camAbsent_due {d : Dev} {k n : Nat} (hin : (d.pat k).camIn = some n) (hruns : d.runs 5 = true) (hedges : 0 < (d.wheel n).edges)
    (hcam : (d.pat k).cam ≠ []) (hlate : d.absentFrom n < ((d.now : Nat) : Rat)) (hpending : d.edgePending [n] (d.absentFrom n) = false) :
    d.camAbsent k =
      if d.domState k = 3 then
        if (d.dom k).absentNoted = some (d.obj (0x2100 + n) 0x0C) then d
        else (d.setDom k { (d.dom k) with absentNoted := some (d.obj (0x2100 + n) 0x0C) }).camFault k
      else if d.domState k = 4 then d.toLoss k 8 else d := by
  unfold Dev.absentFrom at hlate hpending
  unfold Dev.camAbsent
  simp [hin, hruns, hedges, hcam, hlate, hpending]

/-- cam_fault is set and cam_matched cleared, in the domain's status alone (R149). -/
theorem Dev.camFault_leaves (d : Dev) (k : Nat) :
    (d.camFault k).bit (0x2180 + k) 0x11 5 = true ∧ (d.camFault k).bit (0x2180 + k) 0x11 4 = false ∧
    d.sameBut (d.camFault k) (fun j w => [(0x2180 + k, 0x11)].contains (j, w)) := by
  have hbit : ∀ b, (d.camFault k).bit (0x2180 + k) 0x11 b =
      (((d.setBit (0x2180 + k) 0x11 5 true).setBit (0x2180 + k) 0x11 4 false).limpStatus k).bit (0x2180 + k) 0x11 b := fun b => Dev.bit_congr (Dev.raise_regs ..) ..
  have hset : ∀ {e : Dev} (b : Nat) (on : Bool), d.sameBut e (fun j w => [(0x2180 + k, 0x11)].contains (j, w)) →
      d.sameBut (e.setBit (0x2180 + k) 0x11 b on) (fun j w => [(0x2180 + k, 0x11)].contains (j, w)) :=
    fun b on h => h.setObj _ (by decide) (by simp)
  refine ⟨?_, ?_, (hset 1 _ (hset 4 false (hset 5 true (Dev.sameBut_refl _ _)))).regs (Dev.raise_regs ..)⟩
  · rw [hbit, Dev.limpStatus, Dev.bit_setBit_other _ _ (by decide) (by decide), Dev.bit_setBit_other _ _ (by decide) (by decide),
      Dev.bit_setBit_self]
  · rw [hbit, Dev.limpStatus, Dev.bit_setBit_other _ _ (by decide) (by decide), Dev.bit_setBit_self]

/-- A cam fault after the domain's record has been written. -/
theorem Dev.camFault_noted (d : Dev) (k : Nat) (m : Dom) : ((d.setDom k m).camFault k).bit (0x2180 + k) 0x11 5 = true ∧
    ((d.setDom k m).camFault k).bit (0x2180 + k) 0x11 4 = false ∧
    d.sameBut ((d.setDom k m).camFault k) (fun j w => [(0x2180 + k, 0x11)].contains (j, w)) := by
  obtain ⟨hfault, hmatched, hsame⟩ := (d.setDom k m).camFault_leaves k
  exact ⟨hfault, hmatched, Dev.sameBut.trans (Dev.sameBut_of_regs rfl) hsame⟩

/-- The search revolutions have passed without a phase (R149). -/
theorem Dev.camSearchRevs_due {d : Dev} {k : Nat} (hruns : d.runs 5 = true) (hstate : d.domState k = 2)
    (hrevs : d.obj (0x2180 + k) 0x0B * (d.pat k).edges ≤ (d.dom k).searchEdges) (hnoted : (d.dom k).searchNoted = false) :
    d.camSearchRevs k = (d.setDom k { (d.dom k) with searchNoted := true }).camFault k := by
  unfold Dev.camSearchRevs
  simp [hruns, hstate, hrevs, hnoted]

/-- The dwell in LOSS has passed (R153). -/
theorem Dev.lossDwell_due {d : Dev} {k : Nat} (hruns : d.runs 5 = true) (hstate : d.domState k = 5)
    (hdwell : d.obj (0x2180 + k) 0x1B + d.obj (0x2180 + k) 0x0C * tqMs ≤ d.now) :
    d.lossDwell k = d.setDom k { (d.dom k) with dwellDone := true } := by
  unfold Dev.lossDwell
  simp [hruns, hstate, hdwell]

/-! ### The statement -/

/-- The other domain stays in its state. -/
theorem Dev.otherState_of_entry {d e : Dev} {k : Nat} (hk : k < 2) (h : d.entryStep e k) : e.domState (1 - k) = d.domState (1 - k) :=
  h _ 0x10 (by decide) (entryObj_apart (by omega) (by omega) (by decide))

/-- The crank's absence has been noted in the status, and the domain is then lost with cause 7 (R148). -/
theorem Dev.crankLost_enters {d : Dev} {k : Nat} (hk : k < 2) (h0 : d.domState k ≠ 0) (h5 : d.domState k ≠ 5) (cause : Nat) :
    ((d.setBit (0x2180 + k) 0x11 6 true).toLoss k cause).domState k = 5 ∧
      ((d.setBit (0x2180 + k) 0x11 6 true).toLoss k cause).obj (0x2180 + k) 0x15 = cause ∧
      ((d.setBit (0x2180 + k) 0x11 6 true).toLoss k cause).obj (0x2180 + k) 0x16 = satInc32 (d.obj (0x2180 + k) 0x16) ∧
      ((d.setBit (0x2180 + k) 0x11 6 true).toLoss k cause).bit (0x2180 + k) 0x11 6 = true := by
  have hobj : ∀ u < 256, u ≠ 0x11 → (d.setBit (0x2180 + k) 0x11 6 true).obj (0x2180 + k) u = d.obj (0x2180 + k) u :=
    fun u hu hne => Dev.obj_setBit _ _ _ (by decide) hu (fun hc => hne hc.2)
  have hstate : (d.setBit (0x2180 + k) 0x11 6 true).domState k = d.domState k := hobj 0x10 (by decide) (by decide)
  obtain ⟨hlost, hcause, hcount, hbits⟩ := Dev.toLoss_enters (d := d.setBit (0x2180 + k) 0x11 6 true) (k := k) (by omega)
    (by rwa [hstate]) (by rwa [hstate]) cause
  exact ⟨hlost, hcause, hcount.trans (congrArg satInc32 (hobj _ (by decide) (by decide))),
    (hbits 6 (by decide)).trans (Dev.bit_setBit_self ..)⟩

/-- A command that acts on the device alone, once it is known what it makes of the device. -/
theorem State.exec_of_dev {s : State} {t : Nat} {c : Instr} {f : Dev → Dev} {u : Dev} (hexec : exec c s = onDev s t f)
    (hdev : f (s.devAt t) = u) : exec c s = .next { s with dev := u } := by
  rw [hexec, ← hdev]
  rfl

/-- Settles O23: each deadline that has passed makes the domain enter STOPPED, LOSS or CAM_ONLY, sets cam_fault, or ends the dwell. -/
theorem domainTimeouts : Obligations.DomainTimeouts := by
  intro s t k
  dsimp only
  intro hruns
  have hk := k.isLt
  refine ⟨fun hstate hlate hpending => ?_, fun n hin hlate hpending => ?_, fun n hin hedges hcam hlate hpending => ?_,
    fun hstate hrevs hnoted => ?_, fun hstate hdwell => ?_⟩
  · have hexec := State.exec_of_dev (c := .stall t k) (f := fun d => d.stall k) rfl (Dev.stall_due hk hruns hstate hlate hpending)
    obtain ⟨hstopped, hcause, htime, hbit⟩ := (s.devAt t).toStopped_enters (k := k) (by omega)
    refine ⟨_, hexec, ?_⟩
    dsimp only
    exact ⟨hstopped, hcause, htime, hbit, Dev.otherState_of_entry hk (Dev.toStopped_entry _ _)⟩
  · have hset : (s.devAt t).entryStep ((s.devAt t).setBit (0x2180 + k) 0x11 6 true) k := Dev.setBit_entry _ k _ _
    refine ⟨fun hstate => ?_, fun hstate hlimp => ?_⟩
    · have hdev := Dev.crankAbsent_due hin hruns (hstate.imp_right (·.1)) hlate hpending
      rw [if_neg (by rcases hstate with h | ⟨-, h⟩ <;> simp [h])] at hdev
      have hexec := State.exec_of_dev (c := .crankAbsent t k) (f := fun d => d.crankAbsent k) rfl hdev
      obtain ⟨hlost, hcause, hcount, hbit⟩ := Dev.crankLost_enters (d := s.devAt t) hk (by omega) (by omega) 7
      refine ⟨_, hexec, ?_⟩
      dsimp only
      exact ⟨hlost, hcause, hcount, hbit, Dev.otherState_of_entry hk (hset.trans (Dev.toLoss_entry _ _ _))⟩
    · have hdev := Dev.crankAbsent_due hin hruns (.inr hstate) hlate hpending
      rw [if_pos (by simp [hstate, hlimp])] at hdev
      have hexec := State.exec_of_dev (c := .crankAbsent t k) (f := fun d => d.crankAbsent k) rfl hdev
      obtain ⟨hlimps, hbits⟩ := ((s.devAt t).setBit (0x2180 + k) 0x11 6 true).toCamOnly_enters (k := k) (by omega)
      refine ⟨_, hexec, ?_⟩
      dsimp only
      exact ⟨hlimps, (hbits 6 (by decide)).trans (Dev.bit_setBit_self ..),
        Dev.otherState_of_entry hk (hset.trans (Dev.toCamOnly_entry _ _))⟩
  · have hdev := Dev.camAbsent_due hin hruns hedges hcam hlate hpending
    refine ⟨fun hstate => ?_, fun hstate hfresh => ?_⟩
    · rw [if_neg (by omega), if_pos hstate] at hdev
      have hexec := State.exec_of_dev (c := .camAbsent t k) (f := fun d => d.camAbsent k) rfl hdev
      obtain ⟨hlost, hcause, hcount, -⟩ := Dev.toLoss_enters (d := s.devAt t) (k := k) (by omega) (by omega) (by omega) 8
      refine ⟨_, hexec, ?_⟩
      dsimp only
      exact ⟨hlost, hcause, hcount, Dev.otherState_of_entry hk (Dev.toLoss_entry _ _ _)⟩
    · rw [if_pos hstate, if_neg hfresh] at hdev
      obtain ⟨hfault, hmatched, hsame⟩ := (s.devAt t).camFault_noted k
        { ((s.devAt t).dom k) with absentNoted := some ((s.devAt t).obj (0x2100 + n) 0x0C) }
      exact State.does_of_dev (State.exec_of_dev (c := .camAbsent t k) (f := fun d => d.camAbsent k) rfl hdev)
        ⟨hfault, hmatched, (hsame _ _ (by decide) (by simp)).trans hstate⟩ hsame
  · have hexec := State.exec_of_dev (c := .camSearchRevs t k) (f := fun d => d.camSearchRevs k) rfl
      (Dev.camSearchRevs_due hruns hstate hrevs hnoted)
    obtain ⟨hfault, hmatched, hsame⟩ := (s.devAt t).camFault_noted k { ((s.devAt t).dom k) with searchNoted := true }
    exact State.does_of_dev hexec ⟨hfault, hmatched⟩ hsame
  · have hexec := State.exec_of_dev (c := .lossDwell t k) (f := fun d => d.lossDwell k) rfl (Dev.lossDwell_due hruns hstate hdwell)
    exact State.does_of_dev hexec (congrArg Dom.dwellDone (Store.get_put_self ..)) (Dev.sameBut_of_regs rfl)

end Sys2Proof.Machine
end

section
/-! SUPPORT. The conditioned level of a wheel input, its minimum-pulse filter, and an edge that has passed it (R121 to R131, R159, R161). -/

namespace Sys2Proof.Machine

/-! ### Records of the inputs -/

theorem Dev.wheel_setWheel (d : Dev) (n m : Nat) (w : Wheel) : (d.setWheel n w).wheel m = if m = n then w else d.wheel m := Store.get_put ..

@[simp] theorem Dev.wheel_setWheel_self (d : Dev) (n : Nat) (w : Wheel) : (d.setWheel n w).wheel n = w := Store.get_put_self ..

theorem Dev.wheel_congr {d e : Dev} (h : d.wheels = e.wheels) (n : Nat) : d.wheel n = e.wheel n := by
  unfold Dev.wheel
  rw [h]

@[simp] theorem Dev.wheel_setObj (d : Dev) (i u v n : Nat) : (d.setObj i u v).wheel n = d.wheel n := rfl
@[simp] theorem Dev.wheel_setBit (d : Dev) (i u b : Nat) (on : Bool) (n : Nat) : (d.setBit i u b on).wheel n = d.wheel n := rfl
@[simp] theorem Dev.wheel_inc (d : Dev) (i u n : Nat) : (d.inc i u).wheel n = d.wheel n := rfl

theorem Dev.pulse_wheels (d : Dev) (n : Nat) : (d.pulse n).wheels = d.wheels := by
  unfold Dev.pulse Dev.pulseAt
  split <;> rfl

/-! ### The conditioned level -/

/-- A change of level with nothing in the filter enters it with its instant (R126). -/
theorem Dev.levelChange_enters {d : Dev} {n : Nat} (hempty : (d.wheel n).filt = none) (lvl : Bool) :
    d.levelChange n lvl = (d.setBit (0x2100 + n) 0x0B 0 lvl).setWheel n { (d.wheel n) with filt := some (d.now, lvl) } := by
  simp [Dev.levelChange, hempty]

/-- With nothing in the filter no crank change of the same stamp is waited for. -/
theorem Dev.crankTwin_of_empty {d : Dev} {n : Nat} (hempty : (d.wheel n).filt = none) : d.crankTwin n = none := by
  unfold Dev.crankTwin
  simp [hempty]

theorem Dev.minPulse_of_single {d : Dev} {n : Nat} (htwin : d.crankTwin n = none) : d.minPulse n = d.filterDone n := by
  unfold Dev.minPulse
  rw [htwin]

theorem Dev.minPulse_of_empty {d : Dev} {n : Nat} (hempty : (d.wheel n).filt = none) : d.minPulse n = d := by
  rw [Dev.minPulse_of_single (Dev.crankTwin_of_empty hempty)]
  unfold Dev.filterDone
  rw [hempty]

/-- The objects of the status word of an input, as lists of what a command changes name them. -/
theorem Dev.setBit_changes (d : Dev) (i u b : Nat) (on : Bool) (hu : u < 256) :
    d.sameBut (d.setBit i u b on) (fun j w => [(i, u)].contains (j, w)) := (Dev.sameBut_refl _ _).setObj _ hu (by simp)

/-- A change of level changes the level bit alone. -/
theorem Dev.levelChange_leaves {d : Dev} {n : Nat} (hempty : (d.wheel n).filt = none) (lvl : Bool) :
    (d.levelChange n lvl).bit (0x2100 + n) 0x0B 0 = lvl ∧ ((d.levelChange n lvl).wheel n).filt = some (d.now, lvl) ∧
      d.sameBut (d.levelChange n lvl) (fun j w => [(0x2100 + n, 0x0B)].contains (j, w)) := by
  rw [Dev.levelChange_enters hempty]
  exact ⟨(Dev.bit_congr (d := Dev.setWheel _ _ _) rfl _ _ _).trans (Dev.bit_setBit_self ..), congrArg Wheel.filt (Dev.wheel_setWheel_self ..),
    (d.setBit_changes _ _ 0 lvl (by decide)).regs rfl⟩

/-- The first crossing of an unresolved input gives it its level, with nothing in the filter (R125). -/
def Dev.resolved (d : Dev) (n : Nat) (lvl : Bool) : Dev :=
  ((d.setBit (0x2100 + n) 0x0B 1 false).setBit (0x2100 + n) 0x0B 0 lvl).setWheel n { (d.wheel n) with passed := lvl, filt := none }

theorem Dev.resolved_leaves (d : Dev) (n : Nat) (lvl : Bool) : (d.resolved n lvl).bit (0x2100 + n) 0x0B 1 = false ∧
    (d.resolved n lvl).bit (0x2100 + n) 0x0B 0 = lvl ∧ ((d.resolved n lvl).wheel n).filt = none ∧
    d.sameBut (d.resolved n lvl) (fun j w => [(0x2100 + n, 0x0B)].contains (j, w)) := by
  have hbit : ∀ b, (d.resolved n lvl).bit (0x2100 + n) 0x0B b = ((d.setBit (0x2100 + n) 0x0B 1 false).setBit (0x2100 + n) 0x0B 0 lvl).bit
      (0x2100 + n) 0x0B b := fun b => Dev.bit_congr rfl ..
  refine ⟨?_, ?_, congrArg Wheel.filt (Dev.wheel_setWheel_self ..),
    ((d.setBit_changes _ _ 1 false (by decide)).trans (Dev.setBit_changes _ _ _ 0 lvl (by decide))).regs rfl⟩
  · rw [hbit, Dev.bit_setBit_other _ _ (by decide) (by decide), Dev.bit_setBit_self]
  · rw [hbit, Dev.bit_setBit_self]

/-- A crossing report of an input with fixed thresholds and nothing in its filter (R121, R125). -/
theorem Dev.threshold_fixed {d : Dev} {n : Nat} (hn : n < 8) (hruns : d.runs 5 = true) (hmode : d.obj (0x2100 + n) 0x03 ≠ 0)
    (hempty : (d.wheel n).filt = none) (mv : Int) (peak : Nat) : d.threshold n mv peak =
      let high := decide (d.armingLevel n < ((mv : Int) : Rat))
      let low := decide (mv < d.sobj 16 (0x2100 + n) 0x07)
      if d.bit (0x2100 + n) 0x0B 1 then
        if high || low then d.resolved n high else d
      else if high && !d.bit (0x2100 + n) 0x0B 0 then d.levelChange n true
      else if low && d.bit (0x2100 + n) 0x0B 0 then d.levelChange n false
      else d := by
  unfold Dev.threshold
  simp [Nat.not_le.mpr hn, hruns, hmode, Dev.minPulse_of_empty hempty, Dev.resolved]

/-! ### The filter -/

/-- A change that has lasted for the filter time leaves the filter (R126). -/
theorem Dev.filterDone_passes {d : Dev} {n st : Nat} {lvl : Bool} (hn : n < 8) (hruns : d.runs 5 = true)
    (hfilt : (d.wheel n).filt = some (st, lvl)) (hlasts : 10 * st + 1024 * d.obj (0x2100 + n) 0x05 ≤ 10 * d.now) :
    d.filterDone n = d.passFilter n st lvl := by
  unfold Dev.filterDone
  simp [hfilt, hruns, hn, hlasts]

/-- A change that has not lasted yet stays in the filter. -/
theorem Dev.filterDone_waits {d : Dev} {n : Nat}
    (hwaits : ∀ st lvl, (d.wheel n).filt = some (st, lvl) → 10 * d.now < 10 * st + 1024 * d.obj (0x2100 + n) 0x05) : d.filterDone n = d := by
  unfold Dev.filterDone
  split
  · next st lvl hfilt => simp [Nat.not_le.mpr (hwaits st lvl hfilt)]
  · rfl

/-- A cam's change waits for the crank's of the same stamp (R159). -/
theorem Dev.minPulse_waits {d : Dev} {n c : Nat} (htwin : d.crankTwin n = some c)
    (hwaits : ∀ st lvl, (d.wheel c).filt = some (st, lvl) → 10 * d.now < 10 * st + 1024 * d.obj (0x2100 + c) 0x05) : d.minPulse n = d := by
  unfold Dev.minPulse
  simp [htwin, Dev.filterDone_waits hwaits]

/-- A change of level has left the filter: the device before its polarity is looked at. -/
def Dev.filtered (d : Dev) (n st : Nat) (lvl : Bool) : Dev :=
  d.setWheel n { (d.wheel n) with filt := none, passed := lvl, passedAt := some st }

/-- The polarity selection of an input takes a change to a level (R129). -/
def Dev.selects (d : Dev) (n : Nat) (lvl : Bool) : Bool :=
  d.obj (0x2100 + n) 0x04 = 2 || (d.obj (0x2100 + n) 0x04 = 1 && lvl) || (d.obj (0x2100 + n) 0x04 = 0 && !lvl)

theorem Dev.selects_iff (d : Dev) (n : Nat) (lvl : Bool) :
    d.selects n lvl = true ↔ d.obj (0x2100 + n) 0x04 = 2 ∨ d.obj (0x2100 + n) 0x04 = if lvl then 1 else 0 := by
  cases lvl <;> simp [Dev.selects]

/-- The expected interval of an input does not depend on what is in its filter (R130). -/
theorem Dev.expected_filtered (d : Dev) (n st : Nat) (lvl : Bool) : (d.filtered n st lvl).expected n = d.expected n := by
  have hwheel : (d.filtered n st lvl).wheel n = { (d.wheel n) with filt := none, passed := lvl, passedAt := some st } :=
    Dev.wheel_setWheel_self ..
  unfold Dev.expected
  rw [hwheel]
  rfl

/-- An edge comes less than a quarter of the expected interval after the last accepted one (R131). -/
def Dev.comesEarly (d : Dev) (n st : Nat) : Bool :=
  decide (0 < (d.wheel n).edges) && decide (((st - d.obj (0x2100 + n) 0x0C : Nat) : Rat) < d.expected n / 4)

theorem Dev.obj_filtered (d : Dev) (n st : Nat) (lvl : Bool) (i u : Nat) : (d.filtered n st lvl).obj i u = d.obj i u :=
  Dev.obj_congr (e := d) rfl i u

/-- A change leaves the filter less than 2048 ticks after the one before (R128). -/
def Dev.overruns (d : Dev) (n st : Nat) : Bool :=
  match (d.wheel n).passedAt with
  | some p => decide (st < p + 20480)
  | none => false

theorem Dev.overruns_eq_false {d : Dev} {n st : Nat} (hclear : ∀ p, (d.wheel n).passedAt = some p → p + 20480 ≤ st) :
    d.overruns n st = false := by
  unfold Dev.overruns
  split
  · next p hp => simpa using hclear p hp
  · rfl

/-- The branches of a change that leaves the filter. -/
theorem Dev.passFilter_eq (d : Dev) (n st : Nat) (lvl : Bool) :
    d.passFilter n st lvl =
      if d.overruns n st then ((((d.filtered n st lvl).inc (0x2100 + n) 0x10).setBit (0x2100 + n) 0x0B 3 true).raise (8 + n)).inputFault n 2
      else if !(d.filtered n st lvl).selects n lvl then d.filtered n st lvl
      else if decide (0 < (d.wheel n).edges) &&
          decide (4 * ((st - (d.filtered n st lvl).obj (0x2100 + n) 0x0C : Nat) : Rat) < (d.filtered n st lvl).expected n) then
        (d.filtered n st lvl).rejectEdge n st
      else (d.filtered n st lvl).acceptEdge n st lvl := rfl

/-- A change that leaves the filter late enough after the one before: its polarity decides, then its interval (R129, R131). -/
theorem Dev.passFilter_decides {d : Dev} {n st : Nat} {lvl : Bool} (hclear : ∀ p, (d.wheel n).passedAt = some p → p + 20480 ≤ st) :
    d.passFilter n st lvl =
      if d.selects n lvl then
        if d.comesEarly n st then (d.filtered n st lvl).rejectEdge n st else (d.filtered n st lvl).acceptEdge n st lvl
      else d.filtered n st lvl := by
  have hselects : (d.filtered n st lvl).selects n lvl = d.selects n lvl := by simp only [Dev.selects, Dev.obj_filtered]
  have hquarter : (4 * ((st - d.obj (0x2100 + n) 0x0C : Nat) : Rat) < d.expected n) ↔
      ((st - d.obj (0x2100 + n) 0x0C : Nat) : Rat) < d.expected n / 4 := by
    rw [lt_div_iff₀ (by norm_num : (0 : Rat) < 4), mul_comm]
  rw [Dev.passFilter_eq, Dev.overruns_eq_false hclear, hselects, Dev.obj_filtered, Dev.expected_filtered]
  cases d.selects n lvl <;> simp [Dev.comesEarly, hquarter]

/-! ### An accepted edge of an input without a domain -/

/-- Nothing is expected of an input without a domain, so that none of its edges comes early. -/
theorem Dev.comesEarly_unassigned {d : Dev} {n : Nat} (hnone : 1 < d.obj (0x2100 + n) 0x01) (st : Nat) : d.comesEarly n st = false := by
  have hexpected : d.expected n = 0 := by simp [Dev.expected, hnone]
  have hnonneg : (0 : Rat) ≤ ((st - d.obj (0x2100 + n) 0x0C : Nat) : Rat) := Nat.cast_nonneg _
  simp [Dev.comesEarly, hexpected, not_lt.mpr hnonneg]

/-- An edge of an input without a domain is accepted: its stamp is taken and it is counted (R130, R163). -/
theorem Dev.acceptEdge_unassigned {d : Dev} {n : Nat} (hnone : 1 < d.obj (0x2100 + n) 0x01) (st : Nat) (rise : Bool) :
    (d.acceptEdge n st rise).obj (0x2100 + n) 0x0C = st ∧
      (d.acceptEdge n st rise).obj (0x2100 + n) 0x0D = satInc32 (d.obj (0x2100 + n) 0x0D) ∧
      ((d.acceptEdge n st rise).wheel n).edges = (d.wheel n).edges + 1 ∧
      d.sameBut (d.acceptEdge n st rise) (fun j w => [(0x2100 + n, 0x0B), (0x2100 + n, 0x0C), (0x2100 + n, 0x0D)].contains (j, w)) := by
  obtain ⟨m, hm, hdev⟩ : ∃ m : Wheel, m.edges = (d.wheel n).edges + 1 ∧ d.acceptEdge n st rise =
      ((((d.setWheel n m).setObj (0x2100 + n) 0x0C st).inc (0x2100 + n) 0x0D).setBit (0x2100 + n) 0x0B 2 false).pulse n :=
    ⟨{ (d.wheel n) with
        seen := (d.wheel n).seen + 1, edges := (d.wheel n).edges + 1, lastIval := st - d.obj (0x2100 + n) 0x0C }, rfl,
      by simp only [Dev.acceptEdge, if_pos hnone]⟩
  have hset : ∀ {e : Dev} {u : Nat} (v : Nat), u < 256 → u ∈ [0x0B, 0x0C, 0x0D] →
      d.sameBut e (fun j w => [(0x2100 + n, 0x0B), (0x2100 + n, 0x0C), (0x2100 + n, 0x0D)].contains (j, w)) →
      d.sameBut (e.setObj (0x2100 + n) u v) (fun j w => [(0x2100 + n, 0x0B), (0x2100 + n, 0x0C), (0x2100 + n, 0x0D)].contains (j, w)) :=
    fun v hu hmem h => h.setObj v hu (by simpa using hmem)
  rw [hdev]
  refine ⟨?_, ?_, ?_, ?_⟩
  · rw [Dev.obj_congr (Dev.pulse_regs ..), Dev.obj_setBit _ _ _ (by decide) (by decide) (by simp), Dev.obj_inc _ (by decide) (by decide),
      if_neg (by simp), Dev.obj_setObj_self]
  · rw [Dev.obj_congr (Dev.pulse_regs ..), Dev.obj_setBit _ _ _ (by decide) (by decide) (by simp), Dev.obj_inc _ (by decide) (by decide),
      if_pos (by simp), Dev.obj_setObj_sub _ _ (by decide) (by decide) (by decide), Dev.obj_congr (d := d.setWheel n m) (e := d) rfl]
  · rw [Dev.wheel_congr (Dev.pulse_wheels ..), Dev.wheel_setBit, Dev.wheel_inc, Dev.wheel_setObj, Dev.wheel_setWheel_self, hm]
  · have hwheel := Dev.sameBut_of_regs (d := d) (e := d.setWheel n m) (P := fun j w =>
      [(0x2100 + n, 0x0B), (0x2100 + n, 0x0C), (0x2100 + n, 0x0D)].contains (j, w)) rfl
    exact (hset _ (by decide) (by decide) (hset _ (by decide) (by decide) (hset st (by decide) (by decide) hwheel))).regs (Dev.pulse_regs ..)

/-! ### The arming peak and aux_speed -/

/-- A VR input that nothing has armed for twice its expected interval forgets its peak (R122). -/
theorem Dev.armingFallback_due {d : Dev} {n : Nat} (hn : n < 8) (hruns : d.runs 5 = true) (hvr : d.obj (0x2100 + n) 0x03 = 0)
    (harmed : d.bit (0x2100 + n) 0x0B 2 = false)
    (hlate : ((d.obj (0x2100 + n) 0x0C : Nat) : Rat) + 2 * d.expected n ≤ ((d.now : Nat) : Rat)) :
    d.armingFallback n = d.setWheel n { (d.wheel n) with vrPeak := 0 } := by
  unfold Dev.armingFallback
  simp [hn, hruns, hvr, harmed, hlate]

/-- An auxiliary input without an edge for three times its expected interval shows no speed (R161). -/
theorem Dev.auxTimeout_due {d : Dev} {n : Nat} (hruns : d.runs 5 = true) (haux : d.obj (0x2100 + n) 0x02 = 2)
    (hlate : ((d.obj (0x2100 + n) 0x0C : Nat) : Rat) + 3 * d.expected n < ((d.now : Nat) : Rat)) :
    d.auxTimeout n = d.setObj (0x2100 + n) 0x11 0 := by
  unfold Dev.auxTimeout
  simp [hruns, haux, hlate]

/-! ### What the commands do -/

section Commands
variable {s : State} {t : Nat} {n : Fin 8}

/-- A report of the differential voltage, once it is known what it makes of the device. -/
theorem State.does_threshold {mv : Int} {peak : Nat} {u : Dev} {changed : List (Nat × Nat)} {post : Dev → Prop}
    (hdev : (s.devAt t).threshold n mv peak = u) (hpost : post u)
    (hsame : (s.devAt t).sameBut u (fun i w => changed.contains (i, w))) : s.does t (.thresholdCrossing t n mv peak) changed post :=
  State.does_of_dev (State.exec_of_dev (c := .thresholdCrossing t n mv peak) (f := fun d => d.threshold n mv peak) rfl hdev) hpost hsame

/-- The end of the filter time, once it is known what it makes of the device. -/
theorem State.exec_minPulse {u : Dev} (hdev : (s.devAt t).minPulse n = u) : exec (.minPulseFilter t n) s = .next { s with dev := u } :=
  State.exec_of_dev (c := .minPulseFilter t n) (f := fun d => d.minPulse n) rfl hdev

end Commands

/-- Settles O21: a crossing changes the level bit and enters the filter, what the filter lets through is discarded or accepted, and the two
timeouts reset what they name. -/
theorem wheelLevels : Obligations.WheelLevels := by
  intro s t n
  dsimp only
  intro hruns
  have hn := n.isLt
  refine ⟨fun hmode hempty mv peak => ?_, fun c htwin hwaits => ?_, fun st lvl htwin hfilt hlasts hclear => ?_, fun hvr harmed hlate => ?_,
    fun haux hlate => ?_⟩
  · have hreport := Dev.threshold_fixed hn hruns hmode hempty mv peak
    refine ⟨fun hresolved hlevel hhigh => ?_, fun hresolved hlevel hlow => ?_, fun hhigh hlow => ?_, fun hunresolved hhigh => ?_⟩
    · have hdev : (s.devAt t).threshold n mv peak = (s.devAt t).levelChange n true := by simp [hreport, hresolved, hlevel, hhigh]
      obtain ⟨hbit, hentered, hsame⟩ := Dev.levelChange_leaves hempty true
      exact State.does_threshold hdev ⟨hbit, hentered⟩ hsame
    · have hdev : (s.devAt t).threshold n mv peak = (s.devAt t).levelChange n false := by simp [hreport, hresolved, hlevel, hlow]
      obtain ⟨hbit, hentered, hsame⟩ := Dev.levelChange_leaves hempty false
      exact State.does_threshold hdev ⟨hbit, hentered⟩ hsame
    · have hdev : (s.devAt t).threshold n mv peak = s.devAt t := by simp [hreport, hhigh, hlow]
      exact State.does_threshold hdev rfl (Dev.sameBut_refl _ _)
    · have hdev : (s.devAt t).threshold n mv peak = (s.devAt t).resolved n true := by simp [hreport, hunresolved, hhigh]
      obtain ⟨hbit, hlevel, hempty, hsame⟩ := (s.devAt t).resolved_leaves n true
      exact State.does_threshold hdev ⟨hbit, hlevel, hempty⟩ hsame
  · exact State.does_of_dev (State.exec_minPulse (Dev.minPulse_waits htwin hwaits)) rfl (Dev.sameBut_refl _ _)
  · have hpassed : (s.devAt t).minPulse n = (s.devAt t).passFilter n st lvl :=
      (Dev.minPulse_of_single htwin).trans (Dev.filterDone_passes hn hruns hfilt hlasts)
    rw [Dev.passFilter_decides hclear] at hpassed
    refine ⟨fun hpolarity => ?_, fun hpolarity hnone => ?_⟩
    · have hsel : (s.devAt t).selects n lvl = false := by cases lvl <;> simp_all [Dev.selects]
      rw [hsel] at hpassed
      exact State.does_of_dev (State.exec_minPulse hpassed) (Dev.wheel_setWheel_self ..) (Dev.sameBut_of_regs rfl)
    · rw [(Dev.selects_iff ..).mpr (.inl hpolarity), Dev.comesEarly_unassigned hnone] at hpassed
      have hnone' : 1 < ((s.devAt t).filtered n st lvl).obj (0x2100 + n) 0x01 := by rwa [Dev.obj_filtered]
      obtain ⟨hstamp, hcount, hedges, hsame⟩ := Dev.acceptEdge_unassigned hnone' st lvl
      refine State.does_of_dev (State.exec_minPulse hpassed) ⟨hstamp, hcount.trans (by rw [Dev.obj_filtered]), hedges.trans ?_⟩
        ((Dev.sameBut_of_regs rfl).trans hsame)
      rw [Dev.filtered, Dev.wheel_setWheel_self]
  · exact State.does_of_dev (State.exec_of_dev (c := .armingFallback t n) (f := fun d => d.armingFallback n) rfl
      (Dev.armingFallback_due hn hruns hvr harmed hlate)) (Dev.wheel_setWheel_self ..) (Dev.sameBut_of_regs rfl)
  · exact State.does_of_dev (State.exec_of_dev (c := .auxSpeedTimeout t n) (f := fun d => d.auxTimeout n) rfl
      (Dev.auxTimeout_due hruns haux hlate)) (Dev.obj_setObj_self ..) ((Dev.sameBut_refl _ _).setObj 0 (by decide) (by simp))

end Sys2Proof.Machine
end

section
/-! SUPPORT. What the scheduler and the drive leave alone beside the objects: everything but their own records, the sources, the
synthesisers' note of the last shot and the event lines from 8 on. The lines 0 to 7 belong to the wheel inputs (R163). -/

namespace Sys2Proof.Machine

/-- A device without what the scheduler and the drive write; of the event lines those of the wheel inputs stay. -/
def Dev.undriven (d : Dev) : Dev :=
  { d with regs := [], irq := [], faultLine := false, evt := (List.range 8).map (fun n => (n, d.line n)), synths := [], occs := [],
           nextOcc := 0, tops := [], chans := [], banks := [], boosts := [], lanes := [], closures := [] }

theorem Dev.wheels_of_undriven {d e : Dev} (h : d.undriven = e.undriven) : d.wheels = e.wheels := by
  simpa [Dev.undriven] using congrArg Dev.wheels h

theorem Dev.line_of_undriven {d e : Dev} (h : d.undriven = e.undriven) {n : Nat} (hn : n < 8) : d.line n = e.line n := by
  have hlines : (List.range 8).map (fun n => (n, d.line n)) = (List.range 8).map (fun n => (n, e.line n)) := congrArg Dev.evt h
  simpa using List.map_inj_left.mp hlines n (List.mem_range.mpr hn)

@[simp] theorem Dev.undriven_ite (c : Prop) [Decidable c] (a b : Dev) :
    (if c then a else b).undriven = if c then a.undriven else b.undriven := apply_ite ..

@[simp] theorem Dev.foldl_undriven {α : Type} {g : Dev → α → Dev} (h : ∀ e x, (g e x).undriven = e.undriven) (l : List α) (d : Dev) :
    (l.foldl g d).undriven = d.undriven := Dev.foldl_keeps Dev.undriven h l d

/-! ### Stores -/

@[simp] theorem Dev.setObj_undriven (d : Dev) (i u v : Nat) : (d.setObj i u v).undriven = d.undriven := by simp [Dev.undriven, Dev.line]
@[simp] theorem Dev.setBit_undriven (d : Dev) (i u b : Nat) (on : Bool) :
    (d.setBit i u b on).undriven = d.undriven := by simp [Dev.undriven, Dev.line]
@[simp] theorem Dev.inc_undriven (d : Dev) (i u : Nat) : (d.inc i u).undriven = d.undriven := by simp [Dev.undriven, Dev.line]
@[simp] theorem Dev.setSynth_undriven (d : Dev) (k : Nat) (y : Synth) :
    (d.setSynth k y).undriven = d.undriven := by simp [Dev.undriven, Dev.line]
@[simp] theorem Dev.setOcc_undriven (d : Dev) (id : Nat) (o : Occ) :
    (d.setOcc id o).undriven = d.undriven := by simp [Dev.undriven, Dev.line]
@[simp] theorem Dev.setTopRec_undriven (d : Dev) (rid : Nat) (r : TopRec) :
    (d.setTopRec rid r).undriven = d.undriven := by simp [Dev.undriven, Dev.line]
@[simp] theorem Dev.setChan_undriven (d : Dev) (n : Nat) (c : Chan) :
    (d.setChan n c).undriven = d.undriven := by simp [Dev.undriven, Dev.line]
@[simp] theorem Dev.setBank_undriven (d : Dev) (b : Nat) (k : Bank) :
    (d.setBank b k).undriven = d.undriven := by simp [Dev.undriven, Dev.line]
@[simp] theorem Dev.setLane_undriven (d : Dev) (n : Nat) (l : Lane) :
    (d.setLane n l).undriven = d.undriven := by simp [Dev.undriven, Dev.line]
@[simp] theorem Dev.setClosure_undriven (d : Dev) (n : Nat) (c : Closure) :
    (d.setClosure n c).undriven = d.undriven := by simp [Dev.undriven, Dev.line]
@[simp] theorem Dev.undriven_occs (d : Dev) (x : Store Occ) :
    ({ d with occs := x } : Dev).undriven = d.undriven := by simp [Dev.undriven, Dev.line]
@[simp] theorem Dev.mapCaps_undriven (d : Dev) (f : Cap → Cap) :
    (d.mapCaps f).undriven = d.undriven := by simp [Dev.undriven, Dev.line, Dev.mapCaps]
@[simp] theorem Dev.laneRelease_undriven (d : Dev) (id : Nat) :
    (d.laneRelease id).undriven = d.undriven := by simp [Dev.undriven, Dev.line, Dev.laneRelease]
@[simp] theorem Dev.cloQueue_undriven (d : Dev) (n : Nat) (r : CloRes) :
    (d.cloQueue n r).undriven = d.undriven := by simp [Dev.undriven, Dev.line, Dev.cloQueue]
@[simp] theorem Dev.addTree_undriven (d : Dev) (os : List Occ) :
    (d.addTree os).undriven = d.undriven := by simp [Dev.undriven, Dev.line, Dev.addTree]
@[simp] theorem Dev.chanOut_undriven (d : Dev) (n mask : Nat) :
    (d.chanOut n mask).undriven = d.undriven := by simp [Dev.undriven, Dev.line, Dev.chanOut]
@[simp] theorem Dev.chanDiag_undriven (d : Dev) (n mask : Nat) :
    (d.chanDiag n mask).undriven = d.undriven := by simp [Dev.undriven, Dev.line, Dev.chanDiag]
@[simp] theorem Dev.bankStatus_undriven (d : Dev) (b : Nat) :
    (d.bankStatus b).undriven = d.undriven := by simp [Dev.undriven, Dev.line, Dev.bankStatus]
@[simp] theorem Dev.sawCurrent_undriven (d : Dev) (n cur : Nat) :
    (d.sawCurrent n cur).undriven = d.undriven := by simp [Dev.undriven, Dev.line, Dev.sawCurrent]

/-! ### Sources and lines -/

@[simp] theorem Dev.raise_undriven (d : Dev) (x : Nat) : (d.raise x).undriven = d.undriven := by
  unfold Dev.raise
  dsimp only
  repeat' split
  all_goals rfl

@[simp] theorem Dev.raiseIf_undriven (d : Dev) (c : Bool) (x : Nat) : (d.raiseIf c x).undriven = d.undriven := by
  simp [Dev.raiseIf]

theorem Dev.line_setLine (d : Dev) (n m : Nat) (l : EvtLine) : (d.setLine n l).line m = if m = n then l else d.line m := Store.get_put ..

/-- A pulse on a line leaves the other lines alone. -/
theorem Dev.line_pulse (d : Dev) {n m : Nat} (h : m ≠ n) : (d.pulse n).line m = d.line m := by
  unfold Dev.pulse Dev.pulseAt
  split
  · rfl
  · rw [Dev.line_setLine, if_neg h]

@[simp] theorem Dev.pulse_undriven (d : Dev) {n : Nat} (h : 8 ≤ n) : (d.pulse n).undriven = d.undriven := by
  have hlines : (List.range 8).map (fun m => (m, (d.pulse n).line m)) = (List.range 8).map (fun m => (m, d.line m)) :=
    List.map_congr_left (fun m hm => by rw [Dev.line_pulse _ (by have := List.mem_range.mp hm; omega)])
  unfold Dev.undriven
  rw [hlines]
  unfold Dev.pulse Dev.pulseAt
  split <;> rfl

@[simp] theorem Dev.pulseIf_undriven (d : Dev) (c : Bool) {n : Nat} (h : 8 ≤ n) : (d.pulseIf c n).undriven = d.undriven := by
  simp [Dev.pulseIf, h]

/-- The lines of groups, banks and domains come after those of the wheel inputs. -/
@[simp] theorem Dev.pulse_add_undriven (d : Dev) {a n : Nat} (h : 8 ≤ a) : (d.pulse (a + n)).undriven = d.undriven :=
  Dev.pulse_undriven d (Nat.le_add_right_of_le h)

@[simp] theorem Dev.pulseIf_add_undriven (d : Dev) (c : Bool) {a n : Nat} (h : 8 ≤ a) : (d.pulseIf c (a + n)).undriven = d.undriven :=
  Dev.pulseIf_undriven d c (Nat.le_add_right_of_le h)

/-! ### Captures -/

@[simp] theorem Dev.windowCut_undriven (d : Dev) (occ n start : Nat) : (d.windowCut occ n start).undriven = d.undriven := by
  simp [Dev.windowCut]

@[simp] theorem Dev.laneAlloc_undriven (d : Dev) (id : Nat) (o : Occ) : (d.laneAlloc id o).1.undriven = d.undriven := by
  unfold Dev.laneAlloc
  dsimp only
  repeat' split
  all_goals simp [Dev.cloCause]

@[simp] theorem Dev.capAbort_undriven (d : Dev) (id : Nat) : (d.capAbort id).undriven = d.undriven := by
  simp [Dev.capAbort]

@[simp] theorem Dev.capNote_undriven (d : Dev) (id start chanOut shotOut : Nat) :
    (d.capNote id start chanOut shotOut).undriven = d.undriven := by
  simp [Dev.capNote]

@[simp] theorem Dev.capBankChange_undriven (d : Dev) (b : Nat) : (d.capBankChange b).undriven = d.undriven := by
  simp [Dev.capBankChange]

/-! ### Occurrences -/

@[simp] theorem Dev.occFlag_undriven (d : Dev) (id mask : Nat) : (d.occFlag id mask).undriven = d.undriven := by
  simp [Dev.occFlag]

@[simp] theorem Dev.treeEnds_undriven (d : Dev) (t : Nat) : (d.treeEnds t).undriven = d.undriven := by
  simp [Dev.treeEnds]

@[simp] theorem Dev.countOutcome_undriven (d : Dev) (t : Nat) : (d.countOutcome t).undriven = d.undriven := by
  unfold Dev.countOutcome
  dsimp only
  split
  · exact (Dev.undriven_occs _ _).trans (by simp)
  · simp

@[simp] theorem Dev.treeCheck_undriven (d : Dev) (t : Nat) : (d.treeCheck t).undriven = d.undriven := by
  unfold Dev.treeCheck
  dsimp only
  rw [Dev.undriven_ite, Dev.undriven_occs, ite_self]
  simp

@[simp] theorem Dev.occGone_undriven (d : Dev) (id mask : Nat) : (d.occGone id mask).undriven = d.undriven := by
  simp [Dev.occGone]

@[simp] theorem Dev.settleRefs_undriven (f : Nat) (d : Dev) (t : Nat) : (Dev.settleRefs f d t).undriven = d.undriven := by
  induction f generalizing d with
  | zero => rfl
  | succ f ih =>
    unfold Dev.settleRefs
    split
    · rfl
    · simp [ih]

@[simp] theorem Dev.treeRefs_undriven (d : Dev) (t : Nat) : (d.treeRefs t).undriven = d.undriven := by
  simp [Dev.treeRefs]

@[simp] theorem Dev.occDrop_undriven (d : Dev) (id mask : Nat) : (d.occDrop id mask).undriven = d.undriven := by
  simp [Dev.occDrop]

@[simp] theorem Dev.occStart_undriven (d : Dev) (id at_ : Nat) : (d.occStart id at_).undriven = d.undriven := by
  simp [Dev.occStart]

@[simp] theorem Dev.occEnd_undriven (d : Dev) (id mask chanOut : Nat) : (d.occEnd id mask chanOut).undriven = d.undriven := by
  simp [Dev.occEnd]

/-! ### The drive -/

@[simp] theorem Dev.switchBank_undriven (d : Dev) (b : Nat) (want : Option Bool) : (d.switchBank b want).undriven = d.undriven := by
  unfold Dev.switchBank
  dsimp only
  repeat' split
  all_goals simp

@[simp] theorem Dev.slowToFast_undriven (d : Dev) (b : Nat) : (d.slowToFast b).undriven = d.undriven := by
  simp [Dev.slowToFast]

@[simp] theorem Dev.bankApply_undriven (d : Dev) (b : Nat) : (d.bankApply b).undriven = d.undriven := by
  simp [Dev.bankApply]

@[simp] theorem Dev.boostOver_undriven (d : Dev) (n : Nat) : (d.boostOver n).undriven = d.undriven := by
  simp [Dev.boostOver]

@[simp] theorem Dev.enterPhase_undriven (d : Dev) (n ph cur : Nat) : (d.enterPhase n ph cur).undriven = d.undriven := by
  simp [Dev.enterPhase]

@[simp] theorem Dev.gotoPhase_undriven (d : Dev) (n ph cur : Nat) (wait : Bool) : (d.gotoPhase n ph cur wait).undriven = d.undriven := by
  simp [Dev.gotoPhase]

@[simp] theorem Dev.beginRun_undriven (d : Dev) (n at_ : Nat) : (d.beginRun n at_).undriven = d.undriven := by
  unfold Dev.beginRun
  dsimp only
  split <;> simp

@[simp] theorem Dev.driveDrop_undriven (d : Dev) (n out diag : Nat) : (d.driveDrop n out diag).undriven = d.undriven := by
  unfold Dev.driveDrop
  dsimp only
  split <;> simp

@[simp] theorem Dev.overlapDrop_undriven (d : Dev) (n out : Nat) (priority : Bool) :
    (d.overlapDrop n out priority).undriven = d.undriven := by
  simp [Dev.overlapDrop, Dev.ovlCause]

@[simp] theorem Dev.checkDrop_undriven (d : Dev) (n bit_ : Nat) : (d.checkDrop n bit_).undriven = d.undriven := by
  simp [Dev.checkDrop]

@[simp] theorem Dev.takeBank_undriven (d : Dev) (n at_ cur : Nat) (wait : Bool) : (d.takeBank n at_ cur wait).undriven = d.undriven := by
  simp [Dev.takeBank]

@[simp] theorem Dev.bankNext_undriven (f : Nat) (d : Dev) (b : Nat) : (Dev.bankNext f d b).undriven = d.undriven := by
  induction f generalizing d with
  | zero => rfl
  | succ f ih =>
    unfold Dev.bankNext
    dsimp only
    repeat' split
    all_goals simp [ih]

@[simp] theorem Dev.holderLeaves_undriven (d : Dev) (b : Nat) : (d.holderLeaves b).undriven = d.undriven := by
  simp [Dev.holderLeaves]

@[simp] theorem Dev.releaseIf_undriven (d : Dev) (n : Nat) : (d.releaseIf n).undriven = d.undriven := by
  simp [Dev.releaseIf]

@[simp] theorem Dev.toDecay_undriven (d : Dev) (n : Nat) (slow : Bool) : (d.toDecay n slow).undriven = d.undriven := by
  simp [Dev.toDecay]

@[simp] theorem Dev.cutChan_undriven (d : Dev) (n mask : Nat) : (d.cutChan n mask).undriven = d.undriven := by
  unfold Dev.cutChan
  dsimp only
  split <;> simp

/-! ### The scheduler -/

@[simp] theorem Dev.armTree_undriven (d : Dev) (dom rid c : Nat) : (d.armTree dom rid c).undriven = d.undriven := by
  simp [Dev.armTree]

@[simp] theorem Dev.schedArm_undriven (d : Dev) (dom : Nat) : (d.schedArm dom).undriven = d.undriven := by
  simp [Dev.schedArm]

@[simp] theorem Dev.lockOcc_undriven (d : Dev) (id : Nat) (stale : Bool) : (d.lockOcc id stale).undriven = d.undriven := by
  simp [Dev.lockOcc]

@[simp] theorem Dev.lateOcc_undriven (d : Dev) (id : Nat) : (d.lateOcc id).undriven = d.undriven := by
  simp [Dev.lateOcc]

@[simp] theorem Dev.testOcc_undriven (d : Dev) (id : Nat) (again : Bool) : (d.testOcc id again).undriven = d.undriven := by
  unfold Dev.testOcc
  dsimp only
  repeat' split
  all_goals simp

@[simp] theorem Dev.testPass_undriven (f : Nat) (b : Bool) (d : Dev) (l : List Nat) : (Dev.testPass f b d l).undriven = d.undriven := by
  induction f generalizing b d l with
  | zero => rfl
  | succ f ih => simp [Dev.testPass, ih]

@[simp] theorem Dev.lockDue_undriven (d : Dev) (id : Nat) : (d.lockDue id).undriven = d.undriven := by
  unfold Dev.lockDue
  dsimp only
  split <;> simp

@[simp] theorem Dev.testWhere_undriven (d : Dev) (p : Occ → Bool) : (d.testWhere p).undriven = d.undriven := by
  simp [Dev.testWhere]

@[simp] theorem Dev.schedStart_undriven (d : Dev) (dom : Nat) : (d.schedStart dom).undriven = d.undriven := by
  simp [Dev.schedStart]

@[simp] theorem Dev.lockNow_undriven (d : Dev) (dom : Nat) : (d.lockNow dom).undriven = d.undriven := by
  simp [Dev.lockNow]

@[simp] theorem Dev.stopOcc_undriven (d : Dev) (id mask : Nat) : (d.stopOcc id mask).undriven = d.undriven := by
  unfold Dev.stopOcc
  split <;> simp

@[simp] theorem Dev.stopAll_undriven (d : Dev) (ids : List Nat) (mask : Nat) (cnt : Option Nat) :
    (d.stopAll ids mask cnt).undriven = d.undriven := by
  have note : ∀ (e : Dev) (k : Nat), (cnt.elim e (fun c => e.inc (0x2180 + k) c)).undriven = e.undriven := by
    intro e k
    cases cnt <;> rfl
  simp [Dev.stopAll, note]

@[simp] theorem Dev.stateCancel_undriven (d : Dev) (dom : Nat) (p : Occ → Bool) : (d.stateCancel dom p).undriven = d.undriven := by
  simp [Dev.stateCancel, Dev.stateSource, Dev.stopWhere]

@[simp] theorem Dev.forgetArmed_undriven (d : Dev) (dom : Nat) : (d.forgetArmed dom).undriven = d.undriven := by
  simp [Dev.forgetArmed]

@[simp] theorem Dev.halfGone_undriven (d : Dev) (t : Nat) : (d.halfGone t).undriven = d.undriven := by
  unfold Dev.halfGone
  dsimp only
  split <;> simp

@[simp] theorem Dev.discardFire_undriven (d : Dev) (dom : Nat) : (d.discardFire dom).undriven = d.undriven := by
  simp [Dev.discardFire]

/-- A change of state in the scheduler leaves everything alone but what the scheduler and the drive own. -/
@[simp] theorem Dev.schedState_undriven (d : Dev) (dom old new : Nat) : (d.schedState dom old new).undriven = d.undriven := by
  simp [Dev.schedState]

end Sys2Proof.Machine
end

section
/-! SUPPORT. An edge that comes too early for its input (R131): what it changes, how rejections count (R132), and what the sixteenth does. -/

namespace Sys2Proof.Machine

/-! ### Patterns under a write to an input -/

/-- A symbol of an object behind a write to an object of a lower index, whatever its subindex and offset. -/
theorem Dev.blobByte_setObj_above (d : Dev) {i u j : Nat} (v w off : Nat) (hu : u < 256) (h : i < j) :
    (d.setObj i u v).blobByte j w off = d.blobByte j w off := by
  refine (Store.get_put ..).trans (if_neg ?_)
  unfold okey keySpan
  omega

theorem Dev.obj_setObj_above (d : Dev) {i u j : Nat} (v w : Nat) (hu : u < 256) (h : i < j) : (d.setObj i u v).obj j w = d.obj j w :=
  d.blobByte_setObj_above v w 0 hu h

theorem Dev.pat_congr {d e : Dev} (h : d.regs = e.regs) (k : Nat) : d.pat k = e.pat k := by
  have hobj : d.obj = e.obj := funext₂ (Dev.obj_congr h)
  have hblob : d.blobByte = e.blobByte := by
    funext i u off
    rw [Dev.blobByte, Dev.blobByte, h]
  simp only [Dev.pat, Dev.inputsOf, Dev.revsOf, hobj, hblob]

/-- Of an input's objects the patterns read domain, role and polarity alone (R134). -/
theorem Dev.pat_setObj (d : Dev) {n u : Nat} (v k : Nat) (hn : n < 8) (hu : u < 256) (h : u ∉ [0x01, 0x02, 0x04]) :
    (d.setObj (0x2100 + n) u v).pat k = d.pat k := by
  have hinput : ∀ w ∈ [0x01, 0x02, 0x04], ∀ m, (d.setObj (0x2100 + n) u v).obj (0x2100 + m) w = d.obj (0x2100 + m) w := by
    intro w hw m
    refine Dev.obj_setObj_sub _ _ hu ?_ (fun heq => h (heq ▸ hw))
    rcases (by simpa using hw : w = 1 ∨ w = 2 ∨ w = 4) with rfl | rfl | rfl <;> decide
  have hdomain := fun j w (hj : 0x2108 ≤ j) => d.obj_setObj_above (i := 0x2100 + n) (j := j) v w hu (by omega)
  have hteeth := fun off => d.blobByte_setObj_above (i := 0x2100 + n) (j := 0x2190 + k) v 0x02 off hu (by omega)
  simp only [Dev.pat, Dev.inputsOf, Dev.revsOf, hteeth, hinput 0x01 (by simp), hinput 0x02 (by simp), hinput 0x04 (by simp),
    hdomain (0x2180 + k) _ (by omega), hdomain (0x2190 + k) _ (by omega)]

/-! ### Rejections that count -/

/-- What the count of rejections depends on (R132). -/
theorem Dev.rejectCount_congr {d e : Dev} {n : Nat} (hdomain : d.obj (0x2100 + n) 0x01 = e.obj (0x2100 + n) 0x01)
    (hrole : d.obj (0x2100 + n) 0x02 = e.obj (0x2100 + n) 0x02) (hteeth : d.obj (0x2100 + n) 0x0A = e.obj (0x2100 + n) 0x0A)
    (hstate : ∀ k, d.domState k = e.domState k) (hpat : ∀ k, d.pat k = e.pat k) (hedges : (d.wheel n).edges = (e.wheel n).edges)
    (hrej : (d.wheel n).rejAt = (e.wheel n).rejAt) : d.rejectCount n = e.rejectCount n := by
  simp only [Dev.rejectCount, hdomain, hrole, hteeth, hstate, hpat, hedges, hrej]

/-- The record of an input with one more rejection at a stamp. -/
def Wheel.rejecting (w : Wheel) (st : Nat) : Wheel := { w with rejAt := ((w.edges, st) :: w.rejAt).take 4096 }

/-- A change has left the filter and has been rejected as noise: noted in the input's record and counted. -/
def Dev.rejected (d : Dev) (n st : Nat) (lvl : Bool) : Dev :=
  ((d.filtered n st lvl).setWheel n (((d.filtered n st lvl).wheel n).rejecting st)).inc (0x2100 + n) 0x0F

theorem Dev.obj_rejected (d : Dev) (n st : Nat) (lvl : Bool) (j : Nat) {w : Nat} (hw : w < 256) :
    (d.rejected n st lvl).obj j w = if j = 0x2100 + n ∧ w = 0x0F then satInc32 (d.obj (0x2100 + n) 0x0F) else d.obj j w := by
  rw [Dev.rejected, Dev.obj_inc _ (by decide) hw]
  rfl

theorem Dev.wheel_rejected (d : Dev) (n st : Nat) (lvl : Bool) :
    (d.rejected n st lvl).wheel n = ({ (d.wheel n) with filt := none, passed := lvl, passedAt := some st } : Wheel).rejecting st := by
  rw [Dev.rejected, Dev.wheel_inc, Dev.wheel_setWheel_self, Dev.filtered, Dev.wheel_setWheel_self]

/-- A rejection leaves every object but rate_rejects (R131). -/
theorem Dev.rejected_sameBut (d : Dev) (n st : Nat) (lvl : Bool) :
    d.sameBut (d.rejected n st lvl) (fun j w => [(0x2100 + n, 0x0F)].contains (j, w)) := fun j w hw hout => by
  rw [Dev.obj_rejected _ _ _ _ _ hw, if_neg (by simpa using hout)]

/-- Counting a rejection in rate_rejects does not change how many count at present. -/
theorem Dev.rejectCount_rejected (d : Dev) {n : Nat} (hn : n < 8) (st : Nat) (lvl : Bool) :
    (d.rejected n st lvl).rejectCount n = (d.setWheel n ((d.wheel n).rejecting st)).rejectCount n := by
  have hobj : ∀ j w, w < 256 → ¬(j = 0x2100 + n ∧ w = 0x0F) → (d.rejected n st lvl).obj j w =
      (d.setWheel n ((d.wheel n).rejecting st)).obj j w := fun j w hw hne =>
    (d.obj_rejected n st lvl j hw).trans ((if_neg hne).trans rfl)
  refine Dev.rejectCount_congr (hobj _ _ (by decide) (by simp)) (hobj _ _ (by decide) (by simp)) (hobj _ _ (by decide) (by simp))
    (fun k => hobj _ _ (by decide) (by simp)) (fun k => ?_) ?_ ?_
  · rw [Dev.rejected, Dev.inc, Dev.pat_setObj _ _ _ hn (by decide) (by decide)]
    exact Dev.pat_congr rfl k
  · rw [Dev.wheel_rejected, Dev.wheel_setWheel_self]
    rfl
  · rw [Dev.wheel_rejected, Dev.wheel_setWheel_self]
    rfl

/-- A selected change in the filter that has lasted for its time and comes less than a quarter of the expected interval after the last
accepted edge (R126, R128, R129, R131). -/
structure Dev.Noise (d : Dev) (n st : Nat) (lvl : Bool) : Prop where
  runs : d.runs 5 = true
  filt : (d.wheel n).filt = some (st, lvl)
  lasts : 10 * st + 1024 * d.obj (0x2100 + n) 0x05 ≤ 10 * d.now
  clear : ∀ p, (d.wheel n).passedAt = some p → p + 20480 ≤ st
  selected : d.obj (0x2100 + n) 0x04 = 2 ∨ d.obj (0x2100 + n) 0x04 = if lvl then 1 else 0
  edges : 0 < (d.wheel n).edges
  early : ((st - d.obj (0x2100 + n) 0x0C : Nat) : Rat) < d.expected n / 4

/-- Such a change is rejected; the sixteenth rejection that counts is a fault of the input (R131, R132). -/
theorem Dev.Noise.filterDone {d : Dev} {n st : Nat} {lvl : Bool} (h : d.Noise n st lvl) (hn : n < 8) :
    d.filterDone n = if (d.setWheel n ((d.wheel n).rejecting st)).rejectCount n = 16 then
      (((d.rejected n st lvl).setBit (0x2100 + n) 0x0B 4 true).raise (8 + n)).inputFault n 5 else d.rejected n st lvl := by
  have hearly : d.comesEarly n st = true := by simp [Dev.comesEarly, h.edges, h.early]
  rw [Dev.filterDone_passes hn h.runs h.filt h.lasts, Dev.passFilter_decides h.clear, if_pos ((Dev.selects_iff ..).mpr h.selected),
    if_pos hearly, ← Dev.rejectCount_rejected d hn st lvl]
  rfl

/-! ### A fault of an input -/

/-- The accepted edges of an input and its event line. -/
def Dev.accepted (d : Dev) (n : Nat) : Nat × EvtLine := ((d.wheel n).edges, d.line n)

theorem Dev.accepted_congr {d e : Dev} (hwheels : d.wheels = e.wheels) (hevt : d.evt = e.evt) (n : Nat) : d.accepted n = e.accepted n := by
  unfold Dev.accepted Dev.line
  rw [Dev.wheel_congr hwheels, hevt]

theorem Dev.accepted_of_undriven {d e : Dev} (h : d.undriven = e.undriven) {n : Nat} (hn : n < 8) : d.accepted n = e.accepted n :=
  Prod.ext (congrArg Wheel.edges (Dev.wheel_congr (Dev.wheels_of_undriven h) n)) (Dev.line_of_undriven h hn)

theorem Dev.accepted_setWheel (d : Dev) {m : Nat} {w : Wheel} (h : w.edges = (d.wheel m).edges) (n : Nat) :
    (d.setWheel m w).accepted n = d.accepted n := by
  refine Prod.ext ?_ rfl
  change ((d.setWheel m w).wheel n).edges = (d.wheel n).edges
  rw [Dev.wheel_setWheel]
  split
  · next heq => rw [h, heq]
  · rfl

theorem Dev.accepted_setObj (d : Dev) (i u v n : Nat) : (d.setObj i u v).accepted n = d.accepted n := Dev.accepted_congr rfl rfl n

theorem Dev.accepted_setBit (d : Dev) (i u b : Nat) (on : Bool) (n : Nat) : (d.setBit i u b on).accepted n = d.accepted n :=
  Dev.accepted_setObj ..

theorem Dev.accepted_setDom (d : Dev) (k : Nat) (m : Dom) (n : Nat) : (d.setDom k m).accepted n = d.accepted n :=
  Dev.accepted_congr rfl rfl n

theorem Dev.stateSet_undriven (d : Dev) (k new : Nat) (stall : Bool) : (d.stateSet k new stall).undriven = d.undriven := by
  simp [Dev.stateSet]

theorem Dev.synthStatus_undriven (d : Dev) (k : Nat) : (d.synthStatus k).undriven = d.undriven := by
  simp [Dev.synthStatus, Dev.synthCause]

theorem Dev.leaveFull_undriven (d : Dev) (k : Nat) : (d.leaveFull k).undriven = d.undriven := by simp [Dev.leaveFull]

theorem Dev.lossNoted_undriven (d : Dev) (k cause : Nat) : (d.lossNoted k cause).undriven = d.undriven := by
  simp [Dev.lossNoted, Dev.stateSet_undriven]

theorem Dev.restartSeen_accepted (d : Dev) (k n : Nat) : (d.restartSeen k).accepted n = d.accepted n :=
  Dev.foldl_keeps (fun e => e.accepted n) (fun e m => e.accepted_setWheel (w := { (e.wheel m) with seen := 0 }) rfl n) _ d

theorem Dev.angleLost_accepted (d : Dev) (k n : Nat) : (d.angleLost k).accepted n = d.accepted n := by
  simp only [Dev.angleLost, Dev.restartSeen_accepted, Dev.limpStatus, Dev.hidePos, Dev.accepted_setBit, Dev.accepted_setObj,
    Dev.accepted_setDom]

theorem Dev.cycLost_accepted (d : Dev) (k n : Nat) : (d.cycLost k).accepted n = d.accepted n := by
  refine Dev.foldl_keeps (fun e => e.accepted n) (fun e x => ?_) _ _
  split <;> rfl

theorem Dev.synthStop_accepted (d : Dev) (k : Nat) {n : Nat} (hn : n < 8) : (d.synthStop k).accepted n = d.accepted n := by
  unfold Dev.synthStop
  dsimp only
  rw [Dev.accepted_of_undriven (Dev.synthStatus_undriven ..) hn, Dev.cycLost_accepted, Dev.accepted_of_undriven (Dev.setSynth_undriven ..) hn,
    Dev.accepted_of_undriven (Dev.leaveFull_undriven ..) hn]

/-- An entry to LOSS leaves the accepted edges and the line of every input. -/
theorem Dev.toLoss_accepted (d : Dev) (k cause : Nat) {n : Nat} (hn : n < 8) : (d.toLoss k cause).accepted n = d.accepted n := by
  have hlost : ∀ m, (((((d.lossNoted k cause).angleLost k).synthStop k).setDom k m).schedState k (d.domState k) 5).accepted n =
      d.accepted n := fun m => calc
      _ = ((((d.lossNoted k cause).angleLost k).synthStop k).setDom k m).accepted n :=
        Dev.accepted_of_undriven (Dev.schedState_undriven ..) hn
      _ = ((d.lossNoted k cause).angleLost k).accepted n :=
        (Dev.accepted_setDom ..).trans (Dev.synthStop_accepted _ k hn)
      _ = (d.lossNoted k cause).accepted n := Dev.angleLost_accepted ..
      _ = d.accepted n := Dev.accepted_of_undriven (d.lossNoted_undriven k cause) hn
  unfold Dev.toLoss
  dsimp only
  split
  · rfl
  · split
    · split <;> rfl
    · split
      · rfl
      · exact hlost _

/-- A fault of an input blanks aux_speed or moves the domain: the input's other objects, its accepted edges and its line stand (R132). -/
theorem Dev.inputFault_leaves (d : Dev) {n : Nat} (hn : n < 8) (cause : Nat) :
    (∀ u < 0x11, (d.inputFault n cause).obj (0x2100 + n) u = d.obj (0x2100 + n) u) ∧ (d.inputFault n cause).accepted n = d.accepted n := by
  unfold Dev.inputFault
  dsimp only
  split
  · refine ⟨fun u hu => Dev.obj_setObj_sub _ _ (by decide) (by omega) (by omega), ?_⟩
    exact (Dev.accepted_setObj ..).trans (d.accepted_setWheel (w := { (d.wheel n) with auxHold := d.obj (0x2100 + n) 0x0A }) rfl n)
  · split
    · exact ⟨fun _ _ => rfl, rfl⟩
    · next hdomain =>
      exact ⟨fun u hu => Dev.toLoss_entry d _ cause _ _ (by omega) (entryObj_apart (by omega) (by omega) (by omega)),
        d.toLoss_accepted _ cause hn⟩

/-! ### What the end of the filter time does to such an edge -/

/-- Once the crank's change of the same stamp has left its filter, the cam's may leave (R159). -/
theorem Dev.minPulse_of_twin {d : Dev} {n c : Nat} (htwin : d.crankTwin n = some c) (hgone : (d.filterDone c).crankTwin n = none) :
    d.minPulse n = (d.filterDone c).filterDone n := by
  unfold Dev.minPulse
  simp [htwin, hgone]

/-- What a rejection shows: rate_rejects counts, and neither the accepted edges nor the domains, synthesisers and lines move (R131). -/
theorem Dev.rejected_shows (d : Dev) (n st : Nat) (lvl : Bool) :
    (d.rejected n st lvl).obj (0x2100 + n) 0x0F = satInc32 (d.obj (0x2100 + n) 0x0F) ∧
      ((d.rejected n st lvl).wheel n).edges = (d.wheel n).edges ∧ (d.rejected n st lvl).doms = d.doms ∧
      (d.rejected n st lvl).synths = d.synths ∧ (d.rejected n st lvl).evt = d.evt :=
  ⟨(d.obj_rejected n st lvl _ (by decide)).trans (if_pos (by simp)), by rw [Dev.wheel_rejected]; rfl, rfl, rfl, rfl⟩

/-- The sixteenth rejection that counts: reject_limit is set, and of the edge the same holds as of any other rejection (R132). -/
theorem Dev.rejectLimit_shows (d : Dev) {n : Nat} (hn : n < 8) (st : Nat) (lvl : Bool) {u : Dev}
    (hu : (((d.rejected n st lvl).setBit (0x2100 + n) 0x0B 4 true).raise (8 + n)).inputFault n 5 = u) :
    u.obj (0x2100 + n) 0x0F = satInc32 (d.obj (0x2100 + n) 0x0F) ∧ u.obj (0x2100 + n) 0x0C = d.obj (0x2100 + n) 0x0C ∧
      u.bit (0x2100 + n) 0x0B 4 = true ∧ (u.wheel n).edges = (d.wheel n).edges ∧ u.line n = d.line n := by
  subst hu
  obtain ⟨hobj, haccepted⟩ := Dev.inputFault_leaves (((d.rejected n st lvl).setBit (0x2100 + n) 0x0B 4 true).raise (8 + n)) hn 5
  obtain ⟨hcount, hedges, -, -, hevt⟩ := d.rejected_shows n st lvl
  have hset : ∀ w < 0x11, w ≠ 0x0B → (((d.rejected n st lvl).setBit (0x2100 + n) 0x0B 4 true).raise (8 + n)).obj (0x2100 + n) w =
      (d.rejected n st lvl).obj (0x2100 + n) w := fun w hw hne =>
    (Dev.obj_congr (Dev.raise_regs ..) ..).trans (Dev.obj_setBit _ _ _ (by decide) (by omega) (fun hc => hne hc.2))
  have hkept : (((d.rejected n st lvl).setBit (0x2100 + n) 0x0B 4 true).raise (8 + n)).accepted n = (d.rejected n st lvl).accepted n :=
    Dev.accepted_of_undriven ((Dev.raise_undriven ..).trans (Dev.setBit_undriven ..)) hn
  obtain ⟨hfaultEdges, hfaultLine⟩ := Prod.ext_iff.mp (haccepted.trans hkept)
  refine ⟨(hobj _ (by decide)).trans ((hset _ (by decide) (by decide)).trans hcount),
    (hobj _ (by decide)).trans ((hset _ (by decide) (by decide)).trans ?_),
    (congrArg (Nat.testBit · 4) (hobj 0x0B (by decide))).trans ?_, hfaultEdges.trans hedges, hfaultLine.trans ?_⟩
  · exact d.rejected_sameBut n st lvl _ _ (by decide) (by simp)
  · exact (Dev.bit_congr (Dev.raise_regs ..) ..).trans (Dev.bit_setBit_self ..)
  · exact congrArg (Store.get (fun _ => {}) · n) hevt

/-- Settles O22: the filter lets the edge through to its rejection, which counts it and leaves all else; the sixteenth adds the fault of
the input. -/
theorem noiseRejected : Obligations.NoiseRejected := by
  intro s t n st lvl
  dsimp only
  have hn := n.isLt
  refine ⟨fun htwin ⟨hruns, hfilt, hlasts, hclear, hselected, hedges, hearly⟩ => ?_,
    fun c htwin hgone ⟨hruns, hfilt, hlasts, hclear, hselected, hedges, hearly⟩ hfew => ?_⟩
  · have hnoise : (s.devAt t).Noise n st lvl := ⟨hruns, hfilt, hlasts, hclear, hselected, hedges, hearly⟩
    have hpassed := (Dev.minPulse_of_single htwin).trans (hnoise.filterDone hn)
    refine ⟨fun hfew => ?_, fun hlimit => ?_⟩
    · exact State.does_of_dev (State.exec_minPulse (hpassed.trans (if_neg hfew))) ((s.devAt t).rejected_shows n st lvl)
        ((s.devAt t).rejected_sameBut n st lvl)
    · obtain ⟨hcount, hlast, hbit, haccepted, hline⟩ := (s.devAt t).rejectLimit_shows hn st lvl rfl
      refine ⟨_, State.exec_minPulse (hpassed.trans (if_pos hlimit)), ?_⟩
      dsimp only
      exact ⟨hcount, hlast, hbit, haccepted, hline, rfl⟩
  · have hnoise : ((s.devAt t).filterDone c).Noise n st lvl := ⟨hruns, hfilt, hlasts, hclear, hselected, hedges, hearly⟩
    have hpassed := (Dev.minPulse_of_twin htwin hgone).trans (hnoise.filterDone hn)
    obtain ⟨hcount, haccepted, hdoms, hsynths, hevt⟩ := ((s.devAt t).filterDone c).rejected_shows n st lvl
    have hlast := ((s.devAt t).filterDone c).rejected_sameBut n st lvl (0x2100 + n) 0x0C (by decide) (by simp)
    refine ⟨_, State.exec_minPulse (hpassed.trans (if_neg hfew)), ?_⟩
    dsimp only
    exact ⟨hcount, hlast, haccepted, hdoms, hsynths, hevt, rfl⟩

end Sys2Proof.Machine
end

section
/-! SUPPORT. Tooth learning, refit, inertia and angle marks (R176 to R179, R183, R188, R190): what the commands of a synthesiser leave in its
record and in the objects that show it. -/

namespace Sys2Proof.Machine

/-! ### The record of a synthesiser -/

@[simp] theorem Dev.synth_setSynth_self (d : Dev) (k : Nat) (y : Synth) : (d.setSynth k y).synth k = y := Store.get_put_self ..

theorem Dev.synth_congr {d e : Dev} (h : d.synths = e.synths) (k : Nat) : d.synth k = e.synth k := by
  unfold Dev.synth
  rw [h]

@[simp] theorem Dev.obj_setSynth (d : Dev) (k : Nat) (y : Synth) (i u : Nat) : (d.setSynth k y).obj i u = d.obj i u := Dev.obj_congr rfl i u

@[simp] theorem Dev.synth_setObj (d : Dev) (i u v k : Nat) : (d.setObj i u v).synth k = d.synth k := Dev.synth_congr rfl k
@[simp] theorem Dev.synth_inc (d : Dev) (i u k : Nat) : (d.inc i u).synth k = d.synth k := Dev.synth_congr rfl k

@[simp] theorem Dev.raise_synth (d : Dev) (x k : Nat) : (d.raise x).synth k = d.synth k := by
  refine Dev.synth_congr ?_ k
  unfold Dev.raise
  dsimp only
  split_ifs <;> rfl

@[simp] theorem Dev.synthCause_synth (d : Dev) (k b j : Nat) : (d.synthCause k b).synth j = d.synth j := by
  unfold Dev.synthCause Dev.raiseIf
  split
  · exact Dev.raise_synth ..
  · rfl

@[simp] theorem Dev.synthCause_regs (d : Dev) (k b : Nat) : (d.synthCause k b).regs = d.regs := Dev.raiseIf_regs ..

@[simp] theorem Dev.pulse_synth (d : Dev) (n k : Nat) : (d.pulse n).synth k = d.synth k := by
  refine Dev.synth_congr ?_ k
  unfold Dev.pulse Dev.pulseAt
  split <;> rfl

/-- Bringing the status up to date takes no more from the record than its feed-forward layer (R187). -/
theorem Dev.synthStatus_synth (d : Dev) (k : Nat) :
    ∃ (ff : List (Nat × Rat)) (whole : Bool), (d.synthStatus k).synth k = { (d.synth k) with ff := ff, cFf := whole } := by
  unfold Dev.synthStatus
  extract_lets y i active d6 d5 d3 d1 d0 y' e was cls u
  have hbits : d0.synths = d.synths := rfl
  have hlayer : ∃ (ff : List (Nat × Rat)) (whole : Bool), u.synth k = { (d.synth k) with ff := ff, cFf := whole } := by
    have hrecord : y' = d.synth k := Dev.synth_congr hbits k
    unfold u e
    rw [Dev.synth_setObj]
    clear_value d0 y'
    split
    · exact ⟨(d.synth k).ff, (d.synth k).cFf, Dev.synth_congr hbits k⟩
    · exact ⟨[], false, by rw [Dev.synth_setSynth_self, hrecord]⟩
  split
  · rwa [Dev.synthCause_synth]
  · exact hlayer

/-! ### Learning runs -/

/-- The objects in which a learning run shows: its state, the status of the synthesiser, learn_count, and orders_used, which the
statement names too and no run writes. -/
abbrev learnObjs (k : Nat) : List (Nat × Nat) :=
  [(0x2200 + k, 0x0E), (0x2200 + k, 0x20), (0x2200 + k, 0x21), (0x2210 + k, 0x07), (0x2220 + k, 0x33)]

/-- A run has come to a state, with learn_count 0, and shows in no other object. -/
structure Dev.RunsTo (d u : Dev) (k v : Nat) : Prop where
  state : u.obj (0x2200 + k) 0x0E = v
  count : u.obj (0x2210 + k) 0x07 = 0
  rest : d.sameBut u (fun i w => (learnObjs k).contains (i, w))

theorem Dev.RunsTo.regs {d e u : Dev} {k v : Nat} (h : d.RunsTo e k v) (hr : u.regs = e.regs) : d.RunsTo u k v :=
  ⟨(Dev.obj_congr hr ..).trans h.state, (Dev.obj_congr hr ..).trans h.count, h.rest.regs hr⟩

theorem learnObjs_of_synthShown {k i w : Nat} (h : synthShown k i w = true) : (learnObjs k).contains (i, w) = true := by
  obtain ⟨rfl, rfl | rfl⟩ := synthShown_iff.mp h <;> simp

/-- The status of the synthesiser does not say what the run has come to. -/
theorem Dev.RunsTo.shown {d e u : Dev} {k v : Nat} (h : d.RunsTo e k v) (hu : e.sameBut u (synthShown k)) : d.RunsTo u k v :=
  ⟨(hu _ _ (by decide) (by simp [synthShown])).trans h.state, (hu _ _ (by decide) (by simp [synthShown])).trans h.count,
    h.rest.trans (hu.mono (fun _ _ => learnObjs_of_synthShown))⟩

/-- The two stores with which a run comes to a state. -/
theorem Dev.runsTo_stores {d e : Dev} (h : e.regs = d.regs) (k v : Nat) :
    d.RunsTo ((e.setObj (0x2200 + k) 0x0E v).setObj (0x2210 + k) 0x07 0) k v :=
  ⟨by rw [Dev.obj_setObj_idx _ _ (by decide) (by decide) (by omega), Dev.obj_setObj_self], Dev.obj_setObj_self ..,
    ((Dev.sameBut_of_regs h).setObj _ (by decide) (by simp)).setObj _ (by decide) (by simp)⟩

/-- The same stores in the other order. -/
theorem Dev.runsTo_stores_count_first {d e : Dev} (h : e.regs = d.regs) (k v : Nat) :
    d.RunsTo ((e.setObj (0x2210 + k) 0x07 0).setObj (0x2200 + k) 0x0E v) k v :=
  ⟨Dev.obj_setObj_self .., by rw [Dev.obj_setObj_idx _ _ (by decide) (by decide) (by omega), Dev.obj_setObj_self],
    ((Dev.sameBut_of_regs h).setObj _ (by decide) (by simp)).setObj _ (by decide) (by simp)⟩

/-- A run that starts is a commanded one, and nothing of an earlier one is left (R176). -/
theorem Dev.learnStart_begins (d : Dev) (k : Nat) : d.RunsTo (d.learnStart k) k 1 ∧ ((d.learnStart k).synth k).acc = [] ∧
    ((d.learnStart k).synth k).tableDue = false := by
  unfold Dev.learnStart
  extract_lets y started
  have hstores : d.RunsTo ((started.setObj (0x2200 + k) 0x0E 1).setObj (0x2210 + k) 0x07 0) k 1 :=
    Dev.runsTo_stores (show started.regs = d.regs from rfl) k 1
  obtain ⟨ff, whole, hsynth⟩ := ((started.setObj (0x2200 + k) 0x0E 1).setObj (0x2210 + k) 0x07 0).synthStatus_synth k
  refine ⟨hstores.shown (Dev.synthStatus_sameBut _ k), ?_, ?_⟩ <;> simp [hsynth, started]

/-- A run that is aborted comes to state 5 (R179). -/
theorem Dev.learnAbort_ends {d : Dev} {k : Nat} (h : d.obj (0x2200 + k) 0x0E = 1 ∨ d.obj (0x2200 + k) 0x0E = 2) :
    d.RunsTo (d.learnAbort k) k 5 := by
  unfold Dev.learnAbort
  extract_lets i y stopped shown
  have hstores : d.RunsTo shown k 5 := Dev.runsTo_stores (show stopped.regs = d.regs from rfl) k 5
  rw [if_pos (by simpa using h)]
  exact (hstores.regs (Dev.synthCause_regs _ k 2)).shown ((Dev.sameBut_refl _ _).setObj _ (by decide) (by simp [synthShown, i]))

/-- Without a run there is none to abort. -/
theorem Dev.learnAbort_idle {d : Dev} {k : Nat} (h1 : d.obj (0x2200 + k) 0x0E ≠ 1) (h2 : d.obj (0x2200 + k) 0x0E ≠ 2) :
    d.learnAbort k = d := by
  simp [Dev.learnAbort, h1, h2]

/-- The computation of a table that is due ends the run, with a table where it is in range (R177). -/
theorem Dev.tableCompute_ends {d : Dev} {k : Nat} (hruns : d.runs 4 = true) (hdue : (d.synth k).tableDue = true)
    (hdown : d.coreDown 2 = false) : ((d.tableCompute k).synth k).tableDue = false ∧
      (d.RunsTo (d.tableCompute k) k 3 ∧ ((d.tableCompute k).synth k).table.isSome = true ∨ d.RunsTo (d.tableCompute k) k 6) := by
  unfold Dev.tableCompute
  extract_lets y i j p revs raw mean new commanded fails w replace rows table computed ended
  rw [if_neg (by simp [hruns, hdown, y, hdue])]
  have hstores : d.RunsTo ended k (if fails then 6 else 3) :=
    Dev.runsTo_stores_count_first (show computed.regs = d.regs from rfl) k _
  have hshown := (hstores.regs (Dev.synthCause_regs ended k 2)).shown (Dev.synthStatus_sameBut _ k)
  obtain ⟨ff, whole, hsynth⟩ := (ended.synthCause k 2).synthStatus_synth k
  rw [Dev.synthCause_synth] at hsynth
  have hrecord : ended.synth k =
      { y with acc := [], speedSum := 0, runRevs := 0, tableDue := false, table := if fails then y.table else some table } := by
    rw [show ended = (computed.setObj j 0x07 0).setObj i 0x0E (if fails then 6 else 3) from rfl, Dev.synth_setObj, Dev.synth_setObj]
    exact Dev.synth_setSynth_self ..
  rw [hsynth, hrecord]
  clear_value ended table fails
  refine ⟨rfl, ?_⟩
  cases fails with
  | false => exact .inl ⟨hshown, rfl⟩
  | true => exact .inr hshown

/-- A commanded run that has spent its revolutions comes to state 4 (R176). -/
theorem Dev.learnTimeout_ends {d : Dev} {k : Nat} (hruns : d.runs 4 = true) (hdown : d.coreDown 2 = false)
    (hrun : d.obj (0x2200 + k) 0x0E = 1) (hspent : 4 * d.obj (0x2200 + k) 0x08 ≤ (d.synth k).runRevs)
    (hdue : (d.synth k).tableDue = false) : d.RunsTo (d.learnTimeout k) k 4 := by
  unfold Dev.learnTimeout
  extract_lets y i stopped
  rw [if_pos (by simp [hruns, hdown, i, hrun, y, hspent, hdue])]
  have hstores : d.RunsTo ((stopped.setObj i 0x0E 4).setObj (0x2210 + k) 0x07 0) k 4 :=
    Dev.runsTo_stores (show stopped.regs = d.regs from rfl) k 4
  exact (hstores.regs (Dev.synthCause_regs _ k 2)).shown (Dev.synthStatus_sameBut _ k)

/-! ### The learning commands -/

theorem synthBlock_starts_learn (k : Fin 2) : synthBlock.Starts (0x2200 + k) 0x0D := ⟨by revert k; decide, by revert k; decide +kernel⟩

/-- The hooks of a synthesiser bring its status up to date, and see nothing more to do in a command. -/
theorem Dev.hooks_learn (r : Req) (k : Fin 2) (v : Nat) (g d : Dev) :
    Dev.hooks g d (oneWr r (0x2200 + k) 0x0D 1 v synthBlock) = d.synthStatus k := by
  simp [Dev.hooks, Dev.synthHook, synthBlock, List.range_succ]

/-- An accepted learning command: it is the last thing that happens, on a device with the objects of the command's instant but for those of
chapter 02 and the status of the synthesiser. -/
theorem State.requests_of_learn {s : State} {t : Nat} {r : Req} {k : Fin 2} {v : Nat} (h : s.takes t r (0x2200 + k) 0x0D 1 v = true) :
    ∃ e : Dev, onBoth s t (fun m d => d.putOne m r (0x2200 + k) 0x0D 1 v) =
        .next { s with dev := e.command (oneWr r (0x2200 + k) 0x0D 1 v synthBlock) 0x0D (v % 256) } ∧
      (s.devAt t).sameBut e (fun j w => portObj j || synthShown k j w) := by
  have hs := synthBlock_starts_learn k
  obtain ⟨hb, row, hr, hn, hty, -⟩ := id hs
  have hnext := State.requests_of_serves h
  rw [State.answer_of_takes h hb hr hn hty, Dev.applied_startsWith hs rfl, Dev.hooks_learn] at hnext
  refine ⟨_, (State.putOne_requests ..).trans hnext, ?_⟩
  have hserved := ((s.devAt t).served_portObjs (putFrame r (0x2200 + k) 0x0D 1 (leBytes 1 v))).mono
    (Q := fun j w => portObj j || synthShown k j w) (fun j w hp => by simp [show portObj j = true from hp])
  have hshown := (Dev.synthStatus_sameBut (((s.devAt t).served (putFrame r (0x2200 + k) 0x0D 1 (leBytes 1 v))).writtenBy r.port
    (0x2200 + k)) k).mono (Q := fun j w => portObj j || synthShown k j w) (fun j w hp => by simp [hp])
  exact (hserved.trans hshown).regs (Dev.respond_regs _ _ (st := .ok) _ _ (by decide))

theorem command_learnStart (r : Req) (k : Fin 2) (e : Dev) :
    e.command (oneWr r (0x2200 + k) 0x0D 1 1 synthBlock) 0x0D (1 % 256) = e.learnStart k := by
  simp [Dev.command, Dev.domainCommand, synthBlock]

theorem command_learnAbort (r : Req) (k : Fin 2) (e : Dev) :
    e.command (oneWr r (0x2200 + k) 0x0D 1 2 synthBlock) 0x0D (2 % 256) = e.learnAbort k := by
  simp [Dev.command, Dev.domainCommand, synthBlock]

/-- An accepted learning command does what its action leaves; it finds the run in the state of the command's instant. -/
theorem State.does_of_learn {s : State} {t : Nat} {r : Req} {k : Fin 2} {v : Nat} {c : Instr} {act : Dev → Dev} {post : Dev → Prop}
    (h : s.takes t r (0x2200 + k) 0x0D 1 v = true) (hexec : exec c s = onBoth s t (fun m d => d.putOne m r (0x2200 + k) 0x0D 1 v))
    (hcmd : ∀ e : Dev, e.command (oneWr r (0x2200 + k) 0x0D 1 v synthBlock) 0x0D (v % 256) = act e)
    (hact : ∀ e : Dev, e.obj (0x2200 + k) 0x0E = (s.devAt t).obj (0x2200 + k) 0x0E →
      post (act e) ∧ e.sameBut (act e) (fun i w => (learnObjs k).contains (i, w))) : s.does t c (learnObjs k) post := by
  obtain ⟨e, hnext, hsame⟩ := State.requests_of_learn h
  obtain ⟨hpost, hrest⟩ := hact e (hsame _ _ (by decide) (by simp [synthShown]))
  rw [hcmd] at hnext
  refine ⟨_, hexec.trans hnext, hpost, rfl,
    (hsame.mono (fun i w hp => ?_)).trans (hrest.mono (fun i w hp => by rw [hp, Bool.or_true]))⟩
  rcases (Bool.or_eq_true ..).mp hp with hp | hp
  · rw [hp, Bool.true_or]
  · rw [learnObjs_of_synthShown hp, Bool.or_true]

/-! ### Refit and inertia -/

/-- A refit that C2 finishes waits for a snap (R183). -/
theorem Dev.refitDone_finished {d : Dev} {k mean : Nat} {snaps : List (Nat × Nat)} (hruns : d.runs 4 = true) (hdown : d.coreDown 2 = false)
    (hbegun : (d.synth k).refitBegun = some (mean, snaps)) (more : Nat) : d.refitDone k true more =
      d.setSynth k { (d.synth k) with refitBegun := none, refit := some (d.refitBlend k (d.harmFitted k more snaps), mean) } := by
  simp [Dev.refitDone, hbegun, hruns, hdown]

/-- A refit that is discarded is counted (R183). -/
theorem Dev.refitDone_discarded {d : Dev} {k mean : Nat} {snaps : List (Nat × Nat)} (hruns : d.runs 4 = true) (hdown : d.coreDown 2 = false)
    (hbegun : (d.synth k).refitBegun = some (mean, snaps)) (more : Nat) : d.refitDone k false more =
      (d.setSynth k { (d.synth k) with refitBegun := none }).inc (0x2200 + k) 0x27 := by
  simp [Dev.refitDone, hbegun, hruns, hdown]

/-- An update of the inertia uses the cycle it has taken up, computes nothing or a value within the limits, and at most counts that it was
held to them (R188). -/
theorem Dev.inertiaUpdate_leaves {d : Dev} {k : Nat} {rows : List (Rat × Rat)} (hruns : d.runs 4 = true) (hdown : d.coreDown 2 = false)
    (hin : (d.synth k).inertiaIn = some rows) (hlimits : d.obj (0x2200 + k) 0x14 ≤ d.obj (0x2200 + k) 0x15) :
    (((d.inertiaUpdate k).synth k).inertiaIn = none ∧ (((d.inertiaUpdate k).synth k).inertia = (d.synth k).inertia ∨
      ∃ v, ((d.inertiaUpdate k).synth k).inertia = some v ∧ d.obj (0x2200 + k) 0x14 ≤ v ∧ v ≤ d.obj (0x2200 + k) 0x15)) ∧
      d.sameBut (d.inertiaUpdate k) (fun i w => [(0x2200 + k, 0x28)].contains (i, w)) := by
  unfold Dev.inertiaUpdate
  extract_lets y i e old y'
  split
  · next hnone => exact absurd (hnone.symm.trans hin) (by simp)
  · rw [if_neg (by simp [hruns, hdown])]
    extract_lets used sxy sxx new low v high v' f
    have he : e.synth k = { y with inertiaIn := none } := Dev.synth_setSynth_self ..
    have hf : f.synth k = { (e.synth k) with inertia := some v' } := Dev.synth_setSynth_self ..
    have hwithin : d.obj i 0x14 ≤ v' ∧ v' ≤ d.obj i 0x15 := by
      simp only [v', high, v, low, e, i, Dev.obj_setSynth, decide_eq_true_eq]
      split_ifs <;> omega
    split
    · rw [he]
      exact ⟨⟨rfl, .inl rfl⟩, Dev.sameBut_of_regs rfl⟩
    · have hcounted : ((f.inc i 0x28).synthCause k 4).synth k = f.synth k := by rw [Dev.synthCause_synth, Dev.synth_inc]
      have hpost : (f.synth k).inertiaIn = none ∧ ((f.synth k).inertia = y.inertia ∨ ∃ v, (f.synth k).inertia = some v ∧
          d.obj i 0x14 ≤ v ∧ v ≤ d.obj i 0x15) := by
        rw [hf, he]
        exact ⟨rfl, .inr ⟨v', rfl, hwithin⟩⟩
      have hsame : d.sameBut f (fun i w => [(0x2200 + k, 0x28)].contains (i, w)) := Dev.sameBut_of_regs rfl
      split
      · rw [hcounted]
        exact ⟨hpost, (hsame.inc (by decide) (by simp [i])).regs (Dev.synthCause_regs ..)⟩
      · exact ⟨hpost, hsame⟩

/-! ### Angle marks -/

@[simp] theorem Synth.mark_setMark_self (y : Synth) (m : Nat) (v : Mark) : (y.setMark m v).mark m = v := Store.get_put_self ..

/-- The time of a mark is frozen from 40 us before it (R190). -/
theorem Dev.markFreeze_due {d : Dev} {k m time : Nat} (hm : m < 4) (hruns : d.runs 5 = true) (htime : ((d.synth k).mark m).time = some time)
    (hfree : ((d.synth k).mark m).frozen = none) (hdue : time ≤ d.now + 40 * tqUs) : d.markFreeze k m =
      d.setSynth k ((d.synth k).setMark m { ((d.synth k).mark m) with frozen := some time }) := by
  have hdue' : time ≤ d.now + 409600 := hdue
  simp [Dev.markFreeze, htime, hfree, hruns, hm, hdue']

/-- A mark that takes its next crossing has fired when it had, and what was not frozen is not. -/
theorem Dev.markTime_mark (d : Dev) (k m : Nat) (hfree : ((d.synth k).mark m).frozen = none) :
    (((d.markTime k m).synth k).mark m).fired = ((d.synth k).mark m).fired ∧ (((d.markTime k m).synth k).mark m).frozen = none := by
  unfold Dev.markTime Dev.markFrom
  extract_lets y v w c c'
  split
  · exact ⟨rfl, hfree⟩
  · split <;> simp [v, y, hfree]

/-- A mark that fires at its frozen time is stamped with it, and has fired in the cycle of its word (R190). -/
theorem Dev.markFire_fires {d : Dev} {k m time : Nat} (hm : m < 4) (hruns : d.runs 5 = true)
    (hfrozen : ((d.synth k).mark m).frozen = some time) (hdue : time ≤ d.now) (hsync : d.domState k = 3 ∨ d.domState k = 4) :
    (d.markFire k m).obj (0x2200 + k) (0x2A + m) = time ∧
      (((d.markFire k m).synth k).mark m).fired = some (((d.synth k).mark m).target / auCycle) ∧
      (((d.markFire k m).synth k).mark m).frozen = none := by
  have hfire : d.markFire k m = (d.markPulse k m time ((d.synth k).mark m).target).markTime k m := by
    simp [Dev.markFire, hfrozen, hruns, hm, hdue, hsync]
  have hmark : ((d.markPulse k m time ((d.synth k).mark m).target).synth k).mark m =
      { ((d.synth k).mark m) with fired := some (((d.synth k).mark m).target / auCycle), time := none, frozen := none } := by
    simp [Dev.markPulse]
  obtain ⟨hfired, hfree⟩ := Dev.markTime_mark (d.markPulse k m time ((d.synth k).mark m).target) k m (by rw [hmark])
  rw [hfire, hfired, hmark]
  refine ⟨?_, rfl, hfree⟩
  rw [Dev.obj_congr (Dev.markTime_regs ..), Dev.markPulse, Dev.pulse_obj, Dev.obj_setObj_self]

/-! ### The statement -/

/-- Settles O25: a run comes to its state by two stores, which the status of the synthesiser does not touch; refit and inertia are values of
the synthesiser's record that wait for a snap, and a mark that fires keeps what it has noted as it takes its next crossing. -/
theorem learningAndPrediction : Obligations.LearningAndPrediction := by
  refine ⟨fun s t r k => ?_, fun s t k => ?_, fun s t k m time => ?_⟩
  · dsimp only
    refine ⟨fun h => ?_, fun h => ⟨fun hrun => ?_, fun h1 h2 => ?_⟩, fun hruns hdue hdown => ?_, fun hruns hdown hrun hspent hdue => ?_⟩
    · refine State.does_of_learn (act := fun e => e.learnStart k) h rfl (command_learnStart r k) (fun e _ => ?_)
      obtain ⟨⟨hstate, hcount, hrest⟩, hpoints, hdue⟩ := e.learnStart_begins k
      exact ⟨⟨hstate, hcount, hpoints, hdue⟩, hrest⟩
    · refine State.does_of_learn (act := fun e => e.learnAbort k) h rfl (command_learnAbort r k) (fun e hkept => ?_)
      obtain ⟨hstate, hcount, hrest⟩ := Dev.learnAbort_ends (d := e) (by rwa [hkept])
      exact ⟨⟨hstate, hcount⟩, hrest⟩
    · refine State.does_of_learn (act := fun e => e.learnAbort k) h rfl (command_learnAbort r k) (fun e hkept => ?_)
      rw [Dev.learnAbort_idle (d := e) (by rwa [hkept]) (by rwa [hkept])]
      exact ⟨hkept, Dev.sameBut_refl _ _⟩
    · obtain ⟨hover, hend⟩ := Dev.tableCompute_ends hruns hdue hdown
      have hexec := State.exec_of_dev (s := s) (t := t) (c := .tableCompute t k) (f := fun d => d.tableCompute k) rfl rfl
      rcases hend with ⟨⟨hstate, hcount, hrest⟩, htable⟩ | ⟨hstate, hcount, hrest⟩
      · exact State.does_of_dev hexec ⟨.inl hstate, hcount, hover, fun _ => htable⟩ hrest
      · refine State.does_of_dev hexec ⟨.inr hstate, hcount, hover, fun h => ?_⟩ hrest
        rw [hstate] at h
        cases h
    · obtain ⟨hstate, hcount, hrest⟩ := Dev.learnTimeout_ends hruns hdown hrun hspent hdue
      exact State.does_of_dev (State.exec_of_dev (f := fun d => d.learnTimeout k) rfl rfl) ⟨hstate, hcount⟩ hrest
  · dsimp only
    refine fun hruns hdown => ⟨fun mean snaps hbegun => ⟨fun more => ?_, fun more => ?_⟩, fun rows hin hlimits => ?_⟩
    · have hdev := Dev.refitDone_finished hruns hdown hbegun more
      refine State.does_of_dev (State.exec_of_dev (f := fun d => d.refitDone k true more) rfl hdev) ?_ (Dev.sameBut_of_regs rfl)
      simp
    · have hdev := Dev.refitDone_discarded hruns hdown hbegun more
      refine State.does_of_dev (State.exec_of_dev (f := fun d => d.refitDone k false more) rfl hdev) ⟨Dev.obj_setObj_self .., ?_, ?_⟩
        ((Dev.sameBut_of_regs rfl).inc (by decide) (by simp))
      · simp
      · simp
    · obtain ⟨hpost, hrest⟩ := Dev.inertiaUpdate_leaves hruns hdown hin hlimits
      exact State.does_of_dev (State.exec_of_dev (f := fun d => d.inertiaUpdate k) rfl rfl) hpost hrest
  · dsimp only
    refine fun hruns => ⟨fun htime hfree hdue => ?_, fun hfrozen hdue hsync => ?_⟩
    · have hdev := Dev.markFreeze_due m.isLt hruns htime hfree hdue
      refine State.does_of_dev (State.exec_of_dev (f := fun d => d.markFreeze k m) rfl hdev) ?_ (Dev.sameBut_of_regs rfl)
      simp
    · obtain ⟨hstamp, hfired, hfree⟩ := Dev.markFire_fires m.isLt hruns hfrozen hdue hsync
      exact ⟨_, State.exec_of_dev (f := fun d => d.markFire k m) rfl rfl, hstamp, hfired, hfree, rfl⟩

end Sys2Proof.Machine
end

section
/-! SUPPORT. Reading rules for occurrences, channels and banks, and the lock point of a shot's occurrence (R215, R216, R229). -/

namespace Sys2Proof.Machine

/-! ### Occurrences, channels and banks after a store -/

theorem Dev.occ_setOcc (d : Dev) (id j : Nat) (o : Occ) : (d.setOcc id o).occ j = if j = id then o else d.occ j := by
  unfold Dev.occ Dev.setOcc Store.get
  rw [Store.find_insert _ _ _ _ (Store.find_drop_self ..)]
  by_cases h : j = id
  · simp [h]
  · simp [h, Store.find_drop_ne]

@[simp] theorem Dev.occ_setOcc_self (d : Dev) (id : Nat) (o : Occ) : (d.setOcc id o).occ id = o := by simp [Dev.occ_setOcc]

theorem Dev.occ_congr {d e : Dev} (h : d.occs = e.occs) (id : Nat) : d.occ id = e.occ id := by
  unfold Dev.occ
  rw [h]

theorem Dev.mem_setOcc {d : Dev} {id : Nat} {o : Occ} {e : Nat × Occ} (h : e ∈ (d.setOcc id o).occs) :
    e = (id, o) ∨ e ∈ d.occs ∧ e.1 ≠ id := by
  rcases Store.mem_insert h with h | h
  · exact .inl h
  · exact .inr (by simpa [Store.drop] using h)

theorem Dev.chan_setChan (d : Dev) (n m : Nat) (c : Chan) : (d.setChan n c).chan m = if m = n then c else d.chan m := Store.get_put ..

@[simp] theorem Dev.chan_setChan_self (d : Dev) (n : Nat) (c : Chan) : (d.setChan n c).chan n = c := Store.get_put_self ..

theorem Dev.chan_congr {d e : Dev} (h : d.chans = e.chans) (n : Nat) : d.chan n = e.chan n := by
  unfold Dev.chan
  rw [h]

theorem Dev.bank_setBank (d : Dev) (b a : Nat) (k : Bank) : (d.setBank b k).bank a = if a = b then k else d.bank a := Store.get_put ..

@[simp] theorem Dev.bank_setBank_self (d : Dev) (b : Nat) (k : Bank) : (d.setBank b k).bank b = k := Store.get_put_self ..

theorem Dev.bank_congr {d e : Dev} (h : d.banks = e.banks) (b : Nat) : d.bank b = e.bank b := by
  unfold Dev.bank
  rw [h]

@[simp] theorem Dev.chan_setObj (d : Dev) (i u v n : Nat) : (d.setObj i u v).chan n = d.chan n := Dev.chan_congr rfl n

/-- The objects whose subindex is in a list. -/
abbrev atSubs (l : List Nat) : Nat → Nat → Bool := fun _ w => l.contains w

theorem Dev.sameBut.widen {d e : Dev} {l m : List Nat} (h : d.sameBut e (atSubs l)) (hsub : l ⊆ m) : d.sameBut e (atSubs m) :=
  h.mono (fun _ _ hw => List.contains_iff_mem.mpr (hsub (List.contains_iff_mem.mp hw)))

/-! ### The lock point -/

theorem Dev.windowCut_occs (d : Dev) (id n start : Nat) : (d.windowCut id n start).occs = d.occs := by
  unfold Dev.windowCut
  extract_lets hit ks cut
  exact Dev.foldl_keeps Dev.occs (fun e k => by simp) ks d

/-- Lane allocation gives an occurrence its lane, or none, with the closure configuration, and leaves the rest (R279 to R281). -/
theorem Dev.laneAlloc_occ (d : Dev) (id : Nat) (o : Occ) :
    ∃ (lane : Option Nat) (noLane : Bool) (clo : List Nat),
      (d.laneAlloc id o).2 = { o with lane := lane, noLane := noLane, clo := clo } := by
  unfold Dev.laneAlloc
  dsimp only
  split
  · exact ⟨o.lane, o.noLane, o.clo, rfl⟩
  · split
    · exact ⟨_, o.noLane, _, rfl⟩
    · exact ⟨o.lane, _, _, rfl⟩

/-- With nothing else locked or running no window meets that of an occurrence (R229). -/
theorem Dev.conflicts_of_free {d : Dev} (hfree : ∀ e ∈ d.occs, e.2.st ≠ .locked ∧ e.2.st ≠ .running) {id : Nat} (o' o : Occ) :
    (d.setOcc id o').conflicts id o = false := by
  refine List.any_eq_false.mpr (fun e he => ?_)
  rcases Dev.mem_setOcc he with rfl | ⟨hmem, -⟩
  · simp
  · obtain ⟨hlocked, hrunning⟩ := hfree e hmem
    simp [hlocked, hrunning]

/-- An occurrence that locks with nothing else locked or running stands locked, with its start as resolved and its end after the duration
(R216). -/
theorem Dev.lockOcc_locks {d : Dev} {id start : Nat} {o : Occ} (hocc : d.occ id = o) (hstart : o.start = some start)
    (hdur : o.dur = d.elecDur o.cfg) (hfree : ∀ e ∈ d.occs, e.2.st ≠ .locked ∧ e.2.st ≠ .running) :
    ((d.lockOcc id false).occ id).st = .locked ∧ ((d.lockOcc id false).occ id).frozen = true ∧
      ((d.lockOcc id false).occ id).start = some start ∧ ((d.lockOcc id false).occ id).stop = start + o.dur ∧
      ((d.lockOcc id false).occ id).rid = o.rid := by
  unfold Dev.lockOcc
  extract_lets w s dur lockedOcc d1 i d2 cut
  have hs : s = start := by simp [s, w, hocc, hstart]
  have hd : dur = o.dur := by simp [dur, w, hocc, hdur]
  have hrid : lockedOcc.rid = o.rid := show w.rid = o.rid from hocc ▸ rfl
  have hapart : d2.conflicts id lockedOcc = false := Dev.conflicts_of_free hfree lockedOcc lockedOcc
  rw [if_neg (by simp [hapart])]
  have hcut : cut.occ id = lockedOcc := (Dev.occ_congr (Dev.windowCut_occs ..) id).trans (Dev.occ_setOcc_self ..)
  obtain ⟨lane, noLane, clo, halloc⟩ := cut.laneAlloc_occ id { (cut.occ id) with st := .locked }
  split
  next e o' h =>
    have ho' : o' = _ := (congrArg Prod.snd h).symm.trans halloc
    rw [Dev.occ_setOcc_self, ho', hcut]
    exact ⟨rfl, rfl, congrArg some hs, by simp [lockedOcc, hs, hd], hrid⟩

/-- The one armed occurrence of a shot that is due locks by itself where no lower shot is armed (R215, R216). -/
theorem Dev.lockPoint_single {d : Dev} {sh id start : Nat} {o : Occ} (hruns : d.runs 6 = true)
    (honly : d.occs.filter (fun e => decide (e.2.rid = sh) && e.2.st = .armed && !e.2.ghost) = [(id, o)])
    (hlower : ∀ e ∈ d.occs, e.2.rid < sh → e.2.st ≠ .armed) (hstart : o.start = some start)
    (hdue : start ≤ d.now + d.lockLead o.dom) : d.lockPoint sh false = d.lockOcc id false := by
  have hlead : start - d.lockLead o.dom ≤ d.now := by omega
  have hat : d.lockAt o false = some (start - d.lockLead o.dom) := by simp [Dev.lockAt, hstart]
  unfold Dev.lockPoint
  rw [honly]
  simp only [hruns, hat, hlead, List.filterMap_cons, List.filterMap_nil, if_true, List.foldl_nil, Bool.not_true, Bool.false_eq_true,
    if_false]
  rw [List.filter_eq_nil_iff.mpr (fun e he harmed => ?_)]
  · rfl
  · simp only [Bool.and_eq_true, decide_eq_true_eq] at harmed
    obtain ⟨⟨⟨hst, -⟩, hrid⟩, -⟩ := harmed
    exact hlower e he hrid hst

end Sys2Proof.Machine
end

section
/-! SUPPORT. The start of a shot's occurrence (R216, R233, R235): it runs in its tree whatever the tree's bookkeeping takes away, and
its record shows it. -/

namespace Sys2Proof.Machine

/-! ### An occurrence that stands -/

theorem Store.mem_insert_iff {α : Type} {m : Store α} {k : Nat} {v : α} {e : Nat × α} :
    e ∈ Store.insert m k v ↔ e = (k, v) ∨ e ∈ m := by
  refine ⟨Store.mem_insert, fun h => ?_⟩
  induction m with
  | nil => simpa [Store.insert] using h
  | cons x m ih =>
    rw [Store.insert]
    split
    · simpa using h
    · simp only [List.mem_cons] at h ⊢
      tauto

/-- A listed key is found, with a value that is listed under it. -/
theorem Store.find_of_mem {α : Type} {m : Store α} {k : Nat} {v : α} (h : (k, v) ∈ m) : ∃ w, m.find k = some w ∧ (k, w) ∈ m := by
  induction m with
  | nil => cases h
  | cons x m ih =>
    obtain ⟨j, w⟩ := x
    by_cases hk : k = j
    · subst hk
      exact ⟨w, by simp [Store.find_cons], List.mem_cons_self ..⟩
    · have hm : (k, v) ∈ m := by simpa [hk] using h
      obtain ⟨w', hfind, hmem⟩ := ih hm
      exact ⟨w', by rw [Store.find_cons, if_neg hk, hfind], List.mem_cons_of_mem _ hmem⟩

/-- A number is listed, and only with occurrences that satisfy a predicate. -/
def Dev.Stands (d : Dev) (id : Nat) (p : Occ → Prop) : Prop := (∃ o, (id, o) ∈ d.occs) ∧ ∀ o, (id, o) ∈ d.occs → p o

theorem Dev.Stands.occ {d : Dev} {id : Nat} {p : Occ → Prop} (h : d.Stands id p) : p (d.occ id) := by
  obtain ⟨⟨o, hmem⟩, hall⟩ := h
  obtain ⟨w, hfind, hw⟩ := Store.find_of_mem hmem
  have hocc : d.occ id = w := by simp [Dev.occ, Store.get, hfind]
  rw [hocc]
  exact hall w hw

theorem Dev.Stands.congr {d e : Dev} {id : Nat} {p : Occ → Prop} (h : d.Stands id p) (hoccs : e.occs = d.occs) : e.Stands id p := by
  unfold Dev.Stands
  rwa [hoccs]

theorem Dev.stands_setOcc_self (d : Dev) {id : Nat} {o : Occ} {p : Occ → Prop} (hp : p o) : (d.setOcc id o).Stands id p := by
  refine ⟨⟨o, Store.mem_insert_iff.mpr (.inl rfl)⟩, fun o' hmem => ?_⟩
  rcases Dev.mem_setOcc hmem with heq | ⟨-, hne⟩
  · cases heq
    exact hp
  · exact absurd rfl hne

theorem Dev.Stands.setOcc {d : Dev} {id j : Nat} {o : Occ} {p : Occ → Prop} (h : d.Stands id p) (ho : j = id → p o) :
    (d.setOcc j o).Stands id p := by
  by_cases hj : j = id
  · subst hj
    exact Dev.stands_setOcc_self d (ho rfl)
  · obtain ⟨⟨w, hw⟩, hall⟩ := h
    refine ⟨⟨w, Store.mem_insert_iff.mpr (.inr (by simp [Store.drop, hw, Ne.symm hj]))⟩, fun o' hmem => ?_⟩
    rcases Dev.mem_setOcc hmem with heq | ⟨hmem, -⟩
    · cases heq
      exact absurd rfl hj
    · exact hall o' hmem

theorem Dev.Stands.filter {d : Dev} {id : Nat} {p : Occ → Prop} (h : d.Stands id p) {q : Nat × Occ → Bool}
    (hq : ∀ o, p o → q (id, o) = true) : ({ d with occs := d.occs.filter q } : Dev).Stands id p := by
  obtain ⟨⟨w, hw⟩, hall⟩ := h
  exact ⟨⟨w, List.mem_filter.mpr ⟨hw, hq w (hall w hw)⟩⟩, fun o ho => hall o (List.mem_of_mem_filter ho)⟩

/-! ### The start of an occurrence -/

/-- A shot's occurrence of a tree that runs. -/
def Occ.runsIn (t : Nat) (o : Occ) : Prop := o.st = .running ∧ isSheaf o.rid = false ∧ o.ghost = false ∧ o.tree = t

@[simp] theorem Dev.pulseIf_flight (d : Dev) (c : Bool) (n : Nat) :
    (d.pulseIf c n).occs = d.occs ∧ (d.pulseIf c n).chans = d.chans ∧ (d.pulseIf c n).banks = d.banks := by
  unfold Dev.pulseIf Dev.pulse Dev.pulseAt
  split_ifs <;> exact ⟨rfl, rfl, rfl⟩

/-- The ancestors of an occurrence are sheaves of its tree. -/
theorem mem_of_occAncestors {f : Nat} {os : List (Nat × Occ)} {o : Occ} {e : Nat × Occ} (h : e ∈ occAncestors f os o) :
    e ∈ os ∧ isSheaf e.2.rid = true := by
  induction f generalizing o with
  | zero => cases h
  | succ f ih =>
    rw [occAncestors] at h
    split at h
    · cases h
    · next p hparent =>
      have hp : 0x8000 ≤ p := by
        unfold parentSheaf at hparent
        split at hparent
        · cases hparent
          exact Nat.le_add_right ..
        · cases hparent
      split at h
      · next a hfind =>
        rcases List.mem_cons.mp h with rfl | h
        · have hrid : e.2.rid = p := by simpa using List.find?_some hfind
          exact ⟨List.mem_of_find?_eq_some hfind, by simp [isSheaf, hrid, hp]⟩
        · exact ih h
      · cases h

theorem Dev.Stands.countOutcome {d : Dev} {id t : Nat} (h : d.Stands id (Occ.runsIn t)) (top : Nat) :
    (d.countOutcome top).Stands id (Occ.runsIn t) := by
  unfold Dev.countOutcome
  extract_lets o r r' d1 d2 gone
  have h1 : d1.Stands id (Occ.runsIn t) := h.congr (by simp [d1])
  have h2 : d2.Stands id (Occ.runsIn t) := h1.congr (by simp [d2])
  clear_value d1 d2 gone
  split
  · exact h2.filter (fun o ho => by simp [ho.1])
  · exact h1

/-- A tree with a running occurrence stays, and so does the occurrence. -/
theorem Dev.Stands.treeCheck {d : Dev} {id t : Nat} (h : d.Stands id (Occ.runsIn t)) : (d.treeCheck t).Stands id (Occ.runsIn t) := by
  unfold Dev.treeCheck
  extract_lets o marked counted
  have hmarked : marked.Stands id (Occ.runsIn t) := h.setOcc (fun ht => by
    have hrun := h.occ
    rw [← ht] at hrun
    exact hrun)
  have hstands : Dev.Stands counted id (Occ.runsIn t) := by
    unfold counted
    split_ifs
    · exact hmarked
    · exact hmarked.countOutcome t
    · exact h
  clear_value counted
  obtain ⟨o', hmem⟩ := hstands.1
  obtain ⟨hst, hrid, hghost, htree⟩ := hstands.2 o' hmem
  have hlive : treeOver (Dev.treeOf counted t) = false := by
    refine List.all_eq_false.mpr ⟨(id, o'), List.mem_filter.mpr ⟨hmem, by simp [htree]⟩, ?_⟩
    simp [hst, hrid, hghost]
  rw [hlive]
  exact hstands

theorem Dev.occFlag_occ (d : Dev) (id mask : Nat) :
    (d.occFlag id mask).occ id = { (d.occ id) with flags := (d.occ id).flags ||| mask } := by
  unfold Dev.occFlag
  extract_lets o o' e os
  have hstored : e.occ id = o' := (Dev.occ_congr (by simp [e]) id).trans (d.occ_setOcc_self id o')
  refine (Dev.occ_congr (Dev.foldl_keeps Dev.occs (fun f a => ?_) _ e) id).trans hstored
  simp

/-- An occurrence that starts runs (R216). -/
theorem Dev.occStart_runs {d : Dev} {id : Nat} (hrid : isSheaf (d.occ id).rid = false) (hghost : (d.occ id).ghost = false) (at_ : Nat) :
    ((d.occStart id at_).occ id).st = .running := by
  have hflag := d.occFlag_occ id 1
  unfold Dev.occStart
  extract_lets e o e1 i e2 y e3 e4 os e5
  have ho : o = { (d.occ id) with flags := (d.occ id).flags ||| 1 } := hflag
  clear_value e
  have hruns : e1.Stands id (Occ.runsIn o.tree) := Dev.stands_setOcc_self e (by simp [Occ.runsIn, ho, hrid, hghost])
  have hpulsed : e4.Stands id (Occ.runsIn o.tree) := hruns.congr (by simp [e4, e3, e2])
  have hbegun : e5.Stands id (Occ.runsIn o.tree) := by
    refine List.foldlRecOn (motive := fun f : Dev => f.Stands id (Occ.runsIn o.tree)) _ _ hpulsed (fun f hf a ha => ?_)
    obtain ⟨hmem, hsheaf⟩ := mem_of_occAncestors ha
    split
    · exact hf
    · refine (hf.setOcc (fun hid => ?_)).congr (Dev.pulseIf_flight ..).1
      have hrun := hpulsed.2 a.2 (hid ▸ List.mem_of_mem_filter hmem)
      rw [hrun.2.1] at hsheaf
      cases hsheaf
  exact hbegun.treeCheck.occ.1

/-- The power die's records of channels and banks. -/
def Dev.drives (d : Dev) : Store Chan × Store Bank := (d.chans, d.banks)

theorem Dev.occFlag_drives (d : Dev) (id mask : Nat) : (d.occFlag id mask).drives = d.drives := by
  unfold Dev.occFlag
  extract_lets o o' e os
  have he : e.drives = d.drives := by simp [Dev.drives, e]
  rw [← he]
  exact Dev.foldl_keeps Dev.drives (fun f a => by simp [Dev.drives]) _ e

theorem Dev.countOutcome_drives (d : Dev) (t : Nat) : (d.countOutcome t).drives = d.drives := by
  unfold Dev.countOutcome
  dsimp only
  split <;> simp [Dev.drives]

theorem Dev.treeCheck_drives (d : Dev) (t : Nat) : (d.treeCheck t).drives = d.drives := by
  unfold Dev.treeCheck
  extract_lets o marked counted
  have hmarked : marked.drives = d.drives := by simp [Dev.drives, marked]
  have h : Dev.drives counted = d.drives := by
    unfold counted
    split_ifs
    · exact hmarked
    · exact (Dev.countOutcome_drives ..).trans hmarked
    · rfl
  clear_value counted
  split
  · exact h
  · exact h

theorem Dev.occStart_drives (d : Dev) (id at_ : Nat) : (d.occStart id at_).drives = d.drives := by
  unfold Dev.occStart
  extract_lets e o e1 i e2 y e3 e4 os e5
  have hpulsed : e4.drives = e.drives := by simp [Dev.drives, e4, e3, e2, e1]
  have hbegun : e5.drives = e4.drives := Dev.foldl_keeps Dev.drives (fun f a => by split <;> simp [Dev.drives]) _ e4
  rw [Dev.treeCheck_drives, hbegun, hpulsed]
  exact Dev.occFlag_drives ..

theorem Dev.occFlag_sameBut (d : Dev) (id mask : Nat) : d.sameBut (d.occFlag id mask) (atSubs [0x10, 0x13]) := by
  unfold Dev.occFlag
  extract_lets o o' e os
  refine Dev.sameBut.foldl _ ?_ (fun f a _ hf => hf.setObj _ (by decide) rfl)
  exact (Dev.sameBut_of_regs rfl).setObj (e := d.setOcc id o') _ (by decide) rfl

theorem Dev.countOutcome_sameBut (d : Dev) (t : Nat) : d.sameBut (d.countOutcome t) (atSubs [0x01]) := by
  unfold Dev.countOutcome
  extract_lets o r r' d1 d2 gone
  have h : d.sameBut d1 (atSubs [0x01]) := Dev.sameBut_of_regs rfl
  split
  · exact (h.setObj 0 (by decide) rfl).regs (e := d2) rfl
  · exact h

theorem Dev.treeCheck_sameBut (d : Dev) (t : Nat) : d.sameBut (d.treeCheck t) (atSubs [0x01]) := by
  unfold Dev.treeCheck
  extract_lets o marked counted
  have hset : d.sameBut marked (atSubs [0x01]) := Dev.sameBut_of_regs (by simp [marked])
  have h : d.sameBut counted (atSubs [0x01]) := by
    unfold counted
    split_ifs
    · exact hset
    · exact hset.trans (Dev.countOutcome_sameBut _ _)
    · exact Dev.sameBut_refl _ _
  clear_value counted
  split
  · exact h.regs rfl
  · exact h

/-- The objects in which the start of an occurrence shows: the outcome words, enable of a record that has reached its count, the record's
start and counter, the domain's counter. -/
abbrev startSubs : List Nat := [0x01, 0x10, 0x13, 0x15, 0x19, 0x35]

/-- An occurrence that starts has its start recorded and counted (R235). -/
theorem Dev.occStart_records (d : Dev) (id at_ : Nat) :
    (d.occStart id at_).obj (recIx (d.occ id).rid) 0x15 = at_ ∧
      (d.occStart id at_).obj (recIx (d.occ id).rid) 0x19 = satInc32 (d.obj (recIx (d.occ id).rid) 0x19) ∧
      d.sameBut (d.occStart id at_) (atSubs startSubs) := by
  unfold Dev.occStart
  extract_lets e o e1 i e2 y e3 e4 os e5
  have hkept : d.sameBut e (atSubs [0x10, 0x13]) := d.occFlag_sameBut id 1
  have hi : i = recIx (d.occ id).rid := by simp [i, o, e, Dev.occFlag_occ]
  have he1 : e1.regs = e.regs := by simp [e1]
  clear_value e i e1
  rw [← hi]
  have hlate : e2.sameBut (e5.treeCheck o.tree) (atSubs [0x01]) := by
    refine Dev.sameBut.trans ?_ (Dev.treeCheck_sameBut _ _)
    refine Dev.sameBut.foldl _ (Dev.sameBut_of_regs (by simp [e4, e3])) (fun f a _ hf => hf.regs ?_)
    split <;> simp
  refine ⟨?_, ?_, ?_⟩
  · rw [hlate i 0x15 (by decide) rfl]
    simp [e2, Dev.obj_inc]
  · rw [hlate i 0x19 (by decide) rfl]
    have hfirst : e1.obj i 0x19 = d.obj i 0x19 := (Dev.obj_congr he1 ..).trans (hkept i 0x19 (by decide) rfl)
    simp [e2, Dev.obj_inc, Dev.obj_setObj, hfirst]
  · have h1 : d.sameBut e1 (atSubs startSubs) := (hkept.widen (by decide)).regs he1
    have h2 : d.sameBut e2 (atSubs startSubs) :=
      ((h1.setObj _ (by decide) rfl).inc (by decide) rfl).inc (by decide) rfl
    exact h2.trans (hlate.widen (by decide))

end Sys2Proof.Machine
end

section
/-! SUPPORT. A shot takes an idle bank with a ready rail and enters boost (R245, R252, R304): what each operation of the drive leaves of
objects, occurrences, channels and holders. -/

namespace Sys2Proof.Machine

/-! ### The gate rises -/

/-- A channel with a started shot on it, its low side on. -/
def Chan.fires (c : Chan) (id : Nat) : Prop := c.started = true ∧ c.low = true ∧ c.occ = some id

/-- A shot whose gate rises is its occurrence's start, on a device whose channel fires and has counted (R245, R269). -/
theorem Dev.beginRun_starts {d : Dev} {n id : Nat} (hocc : (d.chan n).occ = some id) (at_ : Nat) :
    ∃ e : Dev, d.beginRun n at_ = e.occStart id at_ ∧ (e.chan n).fires id ∧ e.banks = d.banks ∧ e.occs = d.occs ∧
      e.obj (0x2700 + n) 0x09 = satInc32 (d.obj (0x2700 + n) 0x09) ∧ d.sameBut e (atSubs [0x04, 0x09]) := by
  unfold Dev.beginRun
  extract_lets c e1 e2
  have hcount : e2.obj (0x2700 + n) 0x09 = satInc32 (d.obj (0x2700 + n) 0x09) := by
    simp [e2, e1, Dev.chanOut, Dev.obj_inc, Dev.obj_setObj]
  have hrest : d.sameBut e2 (atSubs [0x04, 0x09]) :=
    ((Dev.sameBut_of_regs (e := e1) rfl).setObj _ (by decide) rfl).inc (by decide) rfl
  have hchan : e2.chan n = { c with started := true, low := true, onAt := d.now, railWait := false, deferWait := false, start := at_ } :=
    d.chan_setChan_self n _
  have hfires : (e2.chan n).fires id := by
    rw [hchan]
    exact ⟨rfl, rfl, hocc⟩
  have hbanks : e2.banks = d.banks := rfl
  have hoccs : e2.occs = d.occs := rfl
  clear_value e2
  split
  next id' h =>
    cases hocc.symm.trans h
    refine ⟨_, rfl, ?_, hbanks, hoccs, by simpa using hcount, hrest.regs rfl⟩
    rw [Dev.chan_setChan_self]
    exact hfires
  next h =>
    cases hocc.symm.trans h

/-! ### The boost phase begins -/

theorem Dev.holder_setBank (d : Dev) {b : Nat} {k : Bank} (h : k.holder = (d.bank b).holder) (a : Nat) :
    ((d.setBank b k).bank a).holder = (d.bank a).holder := by
  rw [Dev.bank_setBank]
  split
  · next ha => rw [ha, h]
  · rfl

/-- What the operations on a bank's switches keep: objects, occurrences, channels, and who holds which bank. -/
structure Dev.KeepsShots (d e : Dev) : Prop where
  regs : e.regs = d.regs
  occs : e.occs = d.occs
  chans : e.chans = d.chans
  holder : ∀ a, (e.bank a).holder = (d.bank a).holder

/-- The switches of a bank move by one store of its record, which keeps the holder; where one falls or rises, captures note it
(R252, R285). -/
theorem Dev.switchBank_stores (d : Dev) (b : Nat) (want : Option Bool) : ∃ k : Bank,
    (d.switchBank b want = d.setBank b k ∨ d.switchBank b want = (d.setBank b k).capBankChange b) ∧ k.holder = (d.bank b).holder := by
  unfold Dev.switchBank
  extract_lets k dead isOn
  clear_value isOn
  cases want with
  | none =>
    dsimp only
    split
    · exact ⟨_, .inl rfl, rfl⟩
    · exact ⟨_, .inr rfl, rfl⟩
  | some x =>
    dsimp only
    split
    · exact ⟨_, .inl rfl, rfl⟩
    · cases isOn with
      | some y => exact ⟨_, .inr rfl, rfl⟩
      | none =>
        dsimp only
        split
        · split
          · exact ⟨_, .inl rfl, rfl⟩
          · exact ⟨_, .inr rfl, rfl⟩
        · exact ⟨_, .inr rfl, rfl⟩

theorem Dev.switchBank_keepsShots (d : Dev) (b : Nat) (want : Option Bool) : d.KeepsShots (d.switchBank b want) := by
  obtain ⟨k, h | h, hk⟩ := d.switchBank_stores b want
  · rw [h]
    exact ⟨rfl, rfl, rfl, d.holder_setBank hk⟩
  · rw [h]
    exact ⟨rfl, rfl, rfl, d.holder_setBank hk⟩

/-- Turning members from slow to fast decay touches no object, no occurrence, no bank and no channel that is not in decay (R248). -/
theorem Dev.slowToFast_leaves (d : Dev) (b : Nat) : (d.slowToFast b).regs = d.regs ∧ (d.slowToFast b).occs = d.occs ∧
    (d.slowToFast b).banks = d.banks ∧ ∀ n, d.phase n ≠ 5 → (d.slowToFast b).chan n = d.chan n := by
  unfold Dev.slowToFast
  split
  · exact ⟨rfl, rfl, rfl, fun _ _ => rfl⟩
  · refine List.foldlRecOn (motive := fun e : Dev => e.regs = d.regs ∧ e.occs = d.occs ∧ e.banks = d.banks ∧
      ∀ n, d.phase n ≠ 5 → e.chan n = d.chan n) _ _ ⟨rfl, rfl, rfl, fun _ _ => rfl⟩ (fun e he m _ => ?_)
    obtain ⟨hregs, hoccs, hbanks, hchan⟩ := he
    dsimp only
    split
    · next hslow =>
      refine ⟨hregs, hoccs, hbanks, fun n hn => ?_⟩
      rw [Dev.chan_setChan, if_neg, hchan n hn]
      rintro rfl
      have hphase : e.phase n = d.phase n := Dev.obj_congr hregs ..
      simp [hphase, hn] at hslow
    · exact ⟨hregs, hoccs, hbanks, hchan⟩

/-- Bringing a bank up to date writes its object's state, holder and waiting, and nothing else of objects or drives (R270). -/
theorem Dev.bankStatus_leaves (d : Dev) (b : Nat) : (d.bankStatus b).occs = d.occs ∧ (d.bankStatus b).drives = d.drives ∧
    d.sameBut (d.bankStatus b) (atSubs [0x0E, 0x0F, 0x10]) :=
  ⟨rfl, rfl, (((Dev.sameBut_refl d _).setObj _ (by decide) rfl).setObj _ (by decide) rfl).setObj _ (by decide) rfl⟩

/-- Moving a bank's high side to what its members need leaves the occurrences, who holds which bank, and a channel that is not in decay. -/
theorem Dev.bankApply_leaves (d : Dev) (b : Nat) : (d.bankApply b).occs = d.occs ∧
    (∀ a, ((d.bankApply b).bank a).holder = (d.bank a).holder) ∧ (∀ n, d.phase n ≠ 5 → (d.bankApply b).chan n = d.chan n) ∧
    d.sameBut (d.bankApply b) (atSubs [0x0E, 0x0F, 0x10]) := by
  have hswitch := d.switchBank_keepsShots b (d.bankWant b)
  obtain ⟨hregs, hoccs, hbanks, hchan⟩ := (d.switchBank b (d.bankWant b)).slowToFast_leaves b
  obtain ⟨hoccs', hdrives, hsame⟩ := ((d.switchBank b (d.bankWant b)).slowToFast b).bankStatus_leaves b
  have hobjs : (((d.switchBank b (d.bankWant b)).slowToFast b)).regs = d.regs := hregs.trans hswitch.regs
  refine ⟨hoccs'.trans (hoccs.trans hswitch.occs), fun a => ?_, fun n hn => ?_, (Dev.sameBut_of_regs hobjs).trans hsame⟩
  · refine (congrArg Bank.holder ?_).trans (hswitch.holder a)
    exact Dev.bank_congr ((congrArg Prod.snd hdrives).trans hbanks) a
  · have hphase : (d.switchBank b (d.bankWant b)).phase n = d.phase n := Dev.obj_congr hswitch.regs ..
    refine (Dev.chan_congr (congrArg Prod.fst hdrives) n).trans ((hchan n (by rwa [hphase])).trans ?_)
    exact Dev.chan_congr hswitch.chans n

/-- The end of a boost phase is recorded in last_boost_time alone (R269). -/
theorem Dev.boostOver_leaves (d : Dev) (n : Nat) : (d.boostOver n).occs = d.occs ∧ (d.boostOver n).drives = d.drives ∧
    d.sameBut (d.boostOver n) (atSubs [0x06]) := by
  unfold Dev.boostOver
  split
  · exact ⟨rfl, rfl, (Dev.sameBut_refl d _).setObj _ (by decide) rfl⟩
  · exact ⟨rfl, rfl, Dev.sameBut_refl d _⟩

/-- The objects in which a channel's new phase shows: its phase, last_boost_time, and the bank's state. -/
abbrev phaseSubs : List Nat := [0x03, 0x06, 0x0E, 0x0F, 0x10]

/-- A channel that enters boost keeps its low side on (R245, R249). -/
theorem Dev.enterPhase_boost {d : Dev} {n id : Nat} (hfires : (d.chan n).fires id) (cur : Nat) :
    (d.enterPhase n 2 cur).phase n = 2 ∧ ((d.enterPhase n 2 cur).chan n).fires id ∧ (d.enterPhase n 2 cur).occs = d.occs ∧
      (d.enterPhase n 2 cur).banks = d.banks ∧ d.sameBut (d.enterPhase n 2 cur) (atSubs phaseSubs) := by
  obtain ⟨hoccs, hdrives, hsame⟩ := d.boostOver_leaves n
  have hchan : (d.boostOver n).chan n = d.chan n := Dev.chan_congr (congrArg Prod.fst hdrives) n
  have hbanks : (d.boostOver n).banks = d.banks := congrArg Prod.snd hdrives
  unfold Dev.enterPhase
  generalize d.boostOver n = e at hoccs hdrives hsame hchan hbanks ⊢
  extract_lets seen c off c'
  have hc : c = { (d.chan n) with most := max (d.chan n).most cur } := by
    rw [← hchan]
    exact Dev.chan_setChan_self ..
  have hc' : c'.fires id := by
    obtain ⟨hstarted, hlow, hocc⟩ := hfires
    simp [Chan.fires, c', off, hc, hstarted, hlow, hocc]
  have hregs : seen.regs = e.regs := by simp [seen, Dev.sawCurrent]
  have hseen : seen.occs = d.occs ∧ seen.banks = d.banks := by simp [seen, Dev.sawCurrent, hoccs, hbanks]
  have hold : d.sameBut (seen.setChan n c') (atSubs phaseSubs) := (hsame.widen (by decide)).regs (by simp [hregs])
  clear_value seen c'
  have hstored : ((seen.setChan n c').setObj (0x2700 + n) 0x03 2).banks = seen.banks := by simp
  obtain ⟨hoccs', hdrives', hsame'⟩ := (((seen.setChan n c').setObj (0x2700 + n) 0x03 2)).bankStatus_leaves (seen.bankOf n)
  refine ⟨?_, ?_, hoccs'.trans (by simpa using hseen.1), (congrArg Prod.snd hdrives').trans (hstored.trans hseen.2),
    (hold.setObj 2 (by decide) rfl).trans (hsame'.widen (by decide))⟩
  · exact (hsame' (0x2700 + n) 0x03 (by decide) rfl).trans (Dev.obj_setObj_self ..)
  · rw [Dev.chan_congr (congrArg Prod.fst hdrives') n, Dev.chan_setObj, Dev.chan_setChan_self]
    exact hc'

/-- A channel that goes to boost at once, with its low side on, boosts (R245). -/
theorem Dev.gotoPhase_boost {d : Dev} {n id : Nat} (hfires : (d.chan n).fires id) (cur : Nat) :
    (d.gotoPhase n 2 cur false).phase n = 2 ∧ ((d.gotoPhase n 2 cur false).chan n).fires id ∧
      (d.gotoPhase n 2 cur false).occs = d.occs ∧ (∀ a, ((d.gotoPhase n 2 cur false).bank a).holder = (d.bank a).holder) ∧
      d.sameBut (d.gotoPhase n 2 cur false) (atSubs phaseSubs) := by
  unfold Dev.gotoPhase
  extract_lets b
  rw [if_neg (by decide)]
  have hset := d.holder_setBank (b := b) (k := { (d.bank b) with entering := none }) rfl
  obtain ⟨hphase, hchan, hoccs, hbanks, hsame⟩ :=
    Dev.enterPhase_boost (d := d.setBank b { (d.bank b) with entering := none }) hfires cur
  obtain ⟨hoccs', hholder, hchan', hsame'⟩ := ((d.setBank b { (d.bank b) with entering := none }).enterPhase n 2 cur).bankApply_leaves b
  refine ⟨?_, ?_, hoccs'.trans hoccs, fun a => ?_, ?_⟩
  · exact (hsame' _ _ (by decide) rfl).trans hphase
  · rwa [hchan' n (by rw [hphase]; decide)]
  · rw [hholder a, Dev.bank_congr hbanks a, hset a]
  · exact ((Dev.sameBut_of_regs rfl).trans hsame).trans (hsame'.widen (by decide))

/-! ### A locked occurrence on an idle bank -/

/-- The objects that a start writes before its checks: last_outcome of its channel, and last_diag. -/
def freshObj (n i w : Nat) : Bool := decide (i = 0x2700 + n) && decide (w = 0x04) || decide (w = 0x0A)

/-- The start checks look at no object that the fresh record of a channel writes (R304). -/
theorem Dev.startCheck_congr {d e : Dev} {n : Nat} (hn : n < 48) (hsame : d.sameBut e (freshObj n)) (hnow : e.now = d.now)
    (hrst : e.rst = d.rst) (hstops : e.stops = d.stops) : e.startCheck n = d.startCheck n := by
  have hapart : ∀ a, 0x2730 ≤ a → freshObj n a 0x04 = false := fun a ha => by
    have hne : a ≠ 0x2700 + n := by omega
    simp [freshObj, hne]
  have hbank : e.bankOf n = d.bankOf n := hsame _ _ (by decide) (by simp [freshObj])
  have hrail : e.railOf (d.bankOf n) = d.railOf (d.bankOf n) := hsame _ _ (by decide) (by simp [freshObj])
  have hbits : ∀ a, 0x2730 ≤ a → ∀ k, e.bit a 0x04 k = d.bit a 0x04 k := fun a ha k =>
    congrArg (Nat.testBit · k) (hsame a 0x04 (by decide) (hapart a ha))
  have hinhibit : e.bit (0x2880 + n) 0x09 8 = d.bit (0x2880 + n) 0x09 8 :=
    congrArg (Nat.testBit · 8) (hsame _ 0x09 (by decide) (by simp [freshObj]))
  have hpower : e.obj 0x2F10 0x01 = d.obj 0x2F10 0x01 := hsame _ _ (by decide) (by simp [freshObj])
  have hgroup : e.groupDown (groupPd n) = d.groupDown (groupPd n) := by
    simp only [Dev.groupDown, Dev.pdOn, Dev.bit, hrst, hpower]
  have harm : e.armBlocks = d.armBlocks := by simp only [Dev.armBlocks, hstops, hnow]
  unfold Dev.startCheck
  simp only [hbank, hrail, hinhibit, hgroup, harm, hbits (0x28B0 + d.bankOf n) (by omega),
    hbits (0x28C0 + d.railOf (d.bankOf n)) (by omega)]

/-- A locked occurrence whose gate nothing holds goes to its channel with what it carries, and takes an idle bank whose checks it passes
(R245, R304). -/
theorem Dev.startOcc_idle {d : Dev} {id start : Nat} {o : Occ} (hocc : d.occ id = o) (hstart : o.start = some start)
    (hn : o.cfg.channel < 48) (hcut : o.cut = false) (hveto : d.cutNow o = false) (hkill : d.stops.killLow = false)
    (hprot : d.bit 0x28C8 0x01 7 = false) (hlink : d.stops.linkDown = false) (htap : d.tapBlocks = false)
    (hcheck : d.startCheck o.cfg.channel = none) (hidle : (d.bank (d.bankOf o.cfg.channel)).holder = none) (cur : Nat) :
    ∃ e : Dev, d.startOcc id cur = e.takeBank o.cfg.channel (d.edgeAt start) 0 false ∧
      (e.chan o.cfg.channel).occ = some id ∧ (e.chan o.cfg.channel).prof = o.shadow ∧ e.occs = d.occs ∧
      d.sameBut e (freshObj o.cfg.channel) := by
  unfold Dev.startOcc
  extract_lets w n s c e
  have hw : w = o := hocc
  have hnw : n = o.cfg.channel := congrArg (fun o : Occ => o.cfg.channel) hw
  have hs : s = d.edgeAt start := by simp [s, hw, hstart]
  have hchan : e.chan n = c := (Dev.chan_congr (by simp [e]) n).trans (d.chan_setChan_self n c)
  have hsame : d.sameBut e (freshObj n) :=
    ((Dev.sameBut_of_regs (e := d.setChan n c) (by simp)).setObj _ (by decide) (by simp [freshObj])).setObj _ (by decide)
      (by simp [freshObj])
  have hoccs : e.occs = d.occs := by simp [e]
  have hnone : e.startCheck n = none := by
    rw [Dev.startCheck_congr (hnw ▸ hn) hsame (by simp [e]) (by simp [e]) (by simp [e]), hnw, hcheck]
  have hbank : e.bankOf n = d.bankOf o.cfg.channel := (hsame _ _ (by decide) (by simp [freshObj])).trans (by rw [hnw]; rfl)
  have hfree : (e.bank (e.bankOf n)).holder = none := by
    rw [hbank, ← hidle]
    exact congrArg Bank.holder (Dev.bank_congr (by simp [e]) _)
  have hc : c.occ = some id ∧ c.prof = o.shadow := ⟨rfl, congrArg Occ.shadow hw⟩
  rw [if_neg (by simp [hw, hcut, hveto]), if_neg (by simp [hkill, hprot, hlink, htap])]
  clear_value e c
  rw [hnone]
  dsimp only
  rw [hfree, hs, ← hnw]
  exact ⟨e, rfl, by rw [hchan]; exact hc.1, by rw [hchan]; exact hc.2, hoccs, hsame⟩

/-- A shot without skip_boost that finds the rail ready takes the bank and goes to boost (R245). -/
theorem Dev.takeBank_boost {d : Dev} {n at_ : Nat} (hskip : (d.chan n).prof.getD 14 0 % 2 = 0)
    (hready : d.bit (0x2780 + d.railOf (d.bankOf n)) 0x0C 2 = true) (cur : Nat) (wait : Bool) : d.takeBank n at_ cur wait =
      ((d.setBank (d.bankOf n) { (d.bank (d.bankOf n)) with holder := some n }).beginRun n at_).gotoPhase n 2 cur wait := by
  unfold Dev.takeBank
  extract_lets b c x hold
  rw [if_neg (by rw [show c.prof.getD 14 0 % 2 = 0 from hskip]; decide), if_pos hready]

/-- A shot that is due and has no better rival on its bank is started (R253). -/
theorem Dev.shotStart_due {d : Dev} {sh : Nat} {e : Nat × Occ} (hruns : d.runs 6 = true) (hdue : d.dueStart sh = some e)
    (hbest : d.bestRival e = e) (cur : Nat) : d.shotStart sh cur = d.startOcc e.1 cur := by
  simp [Dev.shotStart, hdue, hruns, hbest]

/-- A shot on its channel that takes an idle bank with a ready rail boosts, runs, and has its start recorded and counted (R245). -/
theorem Dev.takeBank_fires {d : Dev} {n id at_ : Nat} (hocc : (d.chan n).occ = some id) (hskip : (d.chan n).prof.getD 14 0 % 2 = 0)
    (hready : d.bit (0x2780 + d.railOf (d.bankOf n)) 0x0C 2 = true) (hrid : isSheaf (d.occ id).rid = false)
    (hghost : (d.occ id).ghost = false) (cur : Nat) :
    let u := d.takeBank n at_ cur false
    u.phase n = 2 ∧ (u.chan n).fires id ∧ (u.bank (d.bankOf n)).holder = some n ∧ (u.occ id).st = .running ∧
      u.obj (recIx (d.occ id).rid) 0x15 = at_ ∧ u.obj (recIx (d.occ id).rid) 0x19 = satInc32 (d.obj (recIx (d.occ id).rid) 0x19) ∧
      u.obj (0x2700 + n) 0x09 = satInc32 (d.obj (0x2700 + n) 0x09) := by
  rw [Dev.takeBank_boost hskip hready]
  obtain ⟨e, hrun, hfires, hbanks, hoccs, hcount, hsame⟩ := Dev.beginRun_starts
    (d := d.setBank (d.bankOf n) { (d.bank (d.bankOf n)) with holder := some n }) hocc at_
  have ho : e.occ id = d.occ id := Dev.occ_congr hoccs id
  rw [hrun]
  have hdrives := e.occStart_drives id at_
  obtain ⟨hstart, hstarts, hkept⟩ := e.occStart_records id at_
  have hruns := Dev.occStart_runs (d := e) (by rwa [ho]) (by rwa [ho]) at_
  rw [ho] at hstart hstarts
  generalize e.occStart id at_ = v at hdrives hstart hstarts hkept hruns ⊢
  have hfires' : (v.chan n).fires id := by rwa [Dev.chan_congr (congrArg Prod.fst hdrives) n]
  obtain ⟨hphase, hchan, hoccs', hholder, hlate⟩ := Dev.gotoPhase_boost hfires' cur
  refine ⟨hphase, hchan, ?_, (congrArg Occ.st (Dev.occ_congr hoccs' id)).trans hruns, (hlate _ 0x15 (by decide) rfl).trans hstart, ?_, ?_⟩
  · rw [hholder, Dev.bank_congr (congrArg Prod.snd hdrives), Dev.bank_congr hbanks, Dev.bank_setBank_self]
  · rw [hlate _ 0x19 (by decide) rfl, hstarts, hsame _ 0x19 (by decide) rfl]
    rfl
  · rw [hlate _ 0x09 (by decide) rfl, hkept _ 0x09 (by decide) rfl, hcount]
    rfl

/-! ### The statement -/

/-- Settles O27: the lock point is one store of the occurrence behind its lane, and a start on an idle bank ends in boost with what it has
recorded on the way. -/
theorem shotsLockAndStart : Obligations.ShotsLockAndStart := by
  refine ⟨fun s t sh id o start => ?_, fun s t sh cur id start o => ?_⟩
  · dsimp only
    intro hruns hocc hdur honly hfree hstart hdue
    have hdev := Dev.lockPoint_single hruns honly (fun e he => (hfree e he).2.2) hstart hdue
    obtain ⟨hst, hfrozen, hstart', hstop, hrid⟩ :=
      Dev.lockOcc_locks hocc hstart hdur (fun e he => ⟨(hfree e he).1, (hfree e he).2.1⟩)
    exact ⟨_, State.exec_of_dev (f := fun d => d.lockPoint sh false) rfl hdev, hst, hfrozen, hstart', hstop, hrid, rfl⟩
  · dsimp only
    intro hruns hdue hbest hocc hsh hghost hstart hn hcut hveto hkill hprot hlink htap hcheck hidle hskip hready
    obtain ⟨e, hstarts, hchan, hprof, hoccs, hsame⟩ :=
      Dev.startOcc_idle hocc hstart hn hcut hveto hkill hprot hlink htap hcheck hidle cur
    have hdev := (Dev.shotStart_due hruns hdue hbest cur).trans hstarts
    have ho : e.occ id = o := (Dev.occ_congr hoccs id).trans hocc
    have hrid : recIx (e.occ id).rid = 0x3000 + sh := by
      have hlt := sh.isLt
      rw [ho, hsh, recIx, if_pos (by omega)]
    have hshot : isSheaf (e.occ id).rid = false := by
      have hlt := sh.isLt
      rw [ho, hsh, isSheaf, decide_eq_false (by omega)]
    have hbank : e.bankOf o.cfg.channel = (s.devAt t).bankOf o.cfg.channel := hsame _ _ (by decide) (by simp [freshObj])
    have hrail : e.railOf (e.bankOf o.cfg.channel) = (s.devAt t).railOf ((s.devAt t).bankOf o.cfg.channel) := by
      rw [hbank]
      exact hsame _ _ (by decide) (by simp [freshObj])
    have hready' : e.bit (0x2780 + e.railOf (e.bankOf o.cfg.channel)) 0x0C 2 = true := by
      rw [hrail, ← hready]
      exact congrArg (Nat.testBit · 2) (hsame _ 0x0C (by decide) (by simp [freshObj]))
    obtain ⟨hphase, ⟨hstarted, hlow, hon⟩, hholder, hst, hrecorded, hcounted, hchannel⟩ :=
      Dev.takeBank_fires (at_ := (s.devAt t).edgeAt start) hchan (by rwa [hprof]) hready' hshot (by rwa [ho]) 0
    rw [hrid] at hrecorded hcounted
    rw [hbank] at hholder
    rw [hsame _ 0x19 (by decide) (by simp [freshObj])] at hcounted
    rw [hsame _ 0x09 (by decide) (by simp [freshObj])] at hchannel
    exact ⟨_, State.exec_of_dev (f := fun d => d.shotStart sh cur) rfl hdev, hphase, hstarted, hlow, hon, hholder, hst, hrecorded,
      hcounted, hchannel, rfl⟩

end Sys2Proof.Machine
end

section
/-! SUPPORT. A cancel while the first of an occurrence's two firings runs (R219, R227): under crank_fire the two firings are one occurrence,
and the cancel takes away the one that has not started. -/

namespace Sys2Proof.Machine

/-- One of the two firings of an occurrence of shot 0, whose slot 0 has crank_fire: each is a tree of its own, and the second comes half a
cycle after the first. -/
def Occ.firing (tree : Nat) (second : Bool) (st : OccSt) (start : Nat) : Occ :=
  { tree := tree, crankFire := true, half := second, st := st, frozen := st = .running, start := some start, dur := 1024000,
    stop := start + 1024000, cfg := { enable := true, parent := 0x4000, channel := 5, kind := 1, duration := 1024000 } }

def firstFiring : Occ := Occ.firing 0 false .running 0
def secondFiring : Occ := Occ.firing 1 true .armed 600000000

/-- The state after reset with a session open on P1 and with these two firings: the first one runs, the second one is armed. -/
def State.firesTwice : State :=
  { State.reset with
    dev := { (State.reset.dev.canSession 0) with occs := [(0, firstFiring), (1, secondFiring)], nextOcc := 2 } }

theorem dev_of_shotCancel {s u : State} {t : Nat} {r : Req} {sh : Fin 1024} (h : exec (.shotCancel t r sh) s = .next u) :
    u.dev = ((s.devAt t).putOne s.loft r (0x3000 + sh) 0x11 1 1).1 := by
  cases h
  rfl

theorem firesTwice_takes : State.firesTwice.takes 0 canReq (0x3000 + (0 : Fin 1024)) 0x11 1 1 = true := by decide +kernel

/-- Both firings are present, the running one first. -/
theorem firesTwice_present :
    ((State.firesTwice.devAt 0).arrive canReq).present (0 : Fin 1024) = [(0, firstFiring), (1, secondFiring)] := by decide +kernel

theorem firesTwice_occs : ((State.firesTwice.devAt 0).arrive canReq).occs.length = 2 := by decide +kernel

/-- The cancel leaves the running firing alone and takes the armed one away. -/
theorem firesTwice_cancelled :
    ((State.firesTwice.devAt 0).putOne State.firesTwice.loft canReq (0x3000 + (0 : Fin 1024)) 0x11 1 1).1.occs =
      [(0, firstFiring)] := by decide +kernel

/-- Refutes O28: with a running occurrence first among those present, an accepted cancel need not leave the occurrences as they were. Where
the running one is the first firing under crank_fire, its second firing is cancelled. -/
theorem not_shotsEndOrAreCancelled : ¬ Obligations.ShotsEndOrAreCancelled := by
  rintro ⟨-, cancels⟩
  obtain ⟨cancel, -⟩ := cancels State.firesTwice 0 canReq
  obtain ⟨u, hexec, hkept, -⟩ := (cancel 0 firesTwice_takes).2 _ _ firesTwice_present rfl
  have hcount := congrArg List.length hkept
  rw [dev_of_shotCancel hexec, firesTwice_cancelled, firesTwice_occs] at hcount
  cases hcount

end Sys2Proof.Machine
end

section
/-! SUPPORT. What the drive's operations leave of a channel that they do not act on (R252 to R254): its record and the objects of its shot. The
shots that wait take a free bank in turn; none of them is the channel's own unless that waits as well. -/

namespace Sys2Proof.Machine

@[simp] theorem Dev.raise_drives (d : Dev) (x : Nat) : (d.raise x).drives = d.drives := by
  unfold Dev.raise
  dsimp only
  split_ifs <;> simp [Dev.drives]

@[simp] theorem Dev.raiseIf_drives (d : Dev) (c : Bool) (x : Nat) : (d.raiseIf c x).drives = d.drives := by
  unfold Dev.raiseIf
  split <;> simp

/-! ### What stands on a channel -/

/-- What a channel has of its shot: its record, its phase, last_outcome and last_boost_time (R269). -/
structure ShotOn where
  chan : Chan
  phase : Nat
  outcome : Nat
  boosted : Nat

def Dev.shotOn (d : Dev) (n : Nat) : ShotOn :=
  { chan := d.chan n, phase := d.phase n, outcome := d.obj (0x2700 + n) 0x04, boosted := d.obj (0x2700 + n) 0x06 }

section Frames
variable {d e : Dev} {m n : Nat}

theorem Dev.shotOn_of_sameBut {l : List Nat} (hdrives : e.drives = d.drives) (hsame : d.sameBut e (atSubs l))
    (hl : ∀ w ∈ [0x03, 0x04, 0x06], l.contains w = false) (n : Nat) : e.shotOn n = d.shotOn n := by
  have hobj : ∀ w ∈ [0x03, 0x04, 0x06], e.obj (0x2700 + n) w = d.obj (0x2700 + n) w := fun w hw =>
    hsame _ w (by revert w; decide) (hl w hw)
  simp only [Dev.shotOn, Dev.phase, Dev.chan_congr (congrArg Prod.fst hdrives) n, hobj 0x03 (by decide), hobj 0x04 (by decide),
    hobj 0x06 (by decide)]

theorem Dev.of_shotOn (h : e.shotOn n = d.shotOn n) : e.chan n = d.chan n ∧ e.phase n = d.phase n ∧
    e.obj (0x2700 + n) 0x04 = d.obj (0x2700 + n) 0x04 ∧ e.obj (0x2700 + n) 0x06 = d.obj (0x2700 + n) 0x06 :=
  ⟨congrArg ShotOn.chan h, congrArg ShotOn.phase h, congrArg ShotOn.outcome h, congrArg ShotOn.boosted h⟩

theorem Dev.shotOn_congr (hdrives : e.drives = d.drives) (hregs : e.regs = d.regs) (n : Nat) : e.shotOn n = d.shotOn n :=
  Dev.shotOn_of_sameBut (l := []) hdrives (Dev.sameBut_of_regs hregs) (by simp) n

@[simp] theorem Dev.setObj_shotOn_sub {u : Nat} (hu : u < 256) (h : u ≠ 0x03 ∧ u ≠ 0x04 ∧ u ≠ 0x06) (i v : Nat) :
    (d.setObj i u v).shotOn n = d.shotOn n :=
  Dev.shotOn_of_sameBut (d := d) (e := d.setObj i u v) (l := [u]) rfl ((Dev.sameBut_refl d (atSubs [u])).setObj (i := i) v hu (by simp))
    (by simpa [eq_comm] using h) n

theorem Dev.setObj_shotOn_idx {i u : Nat} (hu : u < 256) (h : i ≠ 0x2700 + n) (v : Nat) : (d.setObj i u v).shotOn n = d.shotOn n := by
  have hobj : ∀ w < 256, (d.setObj i u v).obj (0x2700 + n) w = d.obj (0x2700 + n) w := fun w hw => Dev.obj_setObj_idx _ v hu hw h.symm
  simp only [Dev.shotOn, Dev.phase, Dev.chan_setObj, hobj 0x03 (by decide), hobj 0x04 (by decide), hobj 0x06 (by decide)]

@[simp] theorem Dev.inc_shotOn_sub {u : Nat} (hu : u < 256) (h : u ≠ 0x03 ∧ u ≠ 0x04 ∧ u ≠ 0x06) (i : Nat) :
    (d.inc i u).shotOn n = d.shotOn n :=
  Dev.setObj_shotOn_sub hu h ..

theorem Dev.setChan_shotOn (hm : m ≠ n) (c : Chan) : (d.setChan m c).shotOn n = d.shotOn n := by
  simp [Dev.shotOn, Dev.phase, Dev.chan_setChan, hm.symm]

@[simp] theorem Dev.setBank_shotOn (b : Nat) (k : Bank) : (d.setBank b k).shotOn n = d.shotOn n := rfl
@[simp] theorem Dev.raise_shotOn (x : Nat) : (d.raise x).shotOn n = d.shotOn n := Dev.shotOn_congr (by simp) (by simp) n
@[simp] theorem Dev.raiseIf_shotOn (c : Bool) (x : Nat) : (d.raiseIf c x).shotOn n = d.shotOn n := Dev.shotOn_congr (by simp) (by simp) n
@[simp] theorem Dev.pulse_shotOn (x : Nat) : (d.pulse x).shotOn n = d.shotOn n :=
  Dev.shotOn_congr (by unfold Dev.pulse Dev.pulseAt; split <;> rfl) (by simp) n
@[simp] theorem Dev.pulseIf_shotOn (c : Bool) (x : Nat) : (d.pulseIf c x).shotOn n = d.shotOn n := by
  unfold Dev.pulseIf
  split <;> simp

theorem Dev.chanOut_shotOn (hm : m ≠ n) (mask : Nat) : (d.chanOut m mask).shotOn n = d.shotOn n :=
  Dev.setObj_shotOn_idx (by decide) (by simpa using hm) _

@[simp] theorem Dev.chanDiag_shotOn (mask : Nat) : (d.chanDiag m mask).shotOn n = d.shotOn n := by simp [Dev.chanDiag]

theorem Dev.setPhase_shotOn (hm : m ≠ n) (ph : Nat) : (d.setObj (0x2700 + m) 0x03 ph).shotOn n = d.shotOn n :=
  Dev.setObj_shotOn_idx (by decide) (by simpa using hm) _

/-! ### Occurrences that start or are dropped -/

@[simp] theorem Dev.setOcc_shotOn (id : Nat) (o : Occ) : (d.setOcc id o).shotOn n = d.shotOn n := rfl

@[simp] theorem Dev.laneRelease_shotOn (id : Nat) : (d.laneRelease id).shotOn n = d.shotOn n := rfl

@[simp] theorem Dev.occFlag_shotOn (id mask : Nat) : (d.occFlag id mask).shotOn n = d.shotOn n :=
  Dev.shotOn_of_sameBut (d.occFlag_drives id mask) (d.occFlag_sameBut id mask) (by decide) n

@[simp] theorem Dev.treeCheck_shotOn (t : Nat) : (d.treeCheck t).shotOn n = d.shotOn n :=
  Dev.shotOn_of_sameBut (d.treeCheck_drives t) (d.treeCheck_sameBut t) (by decide) n

@[simp] theorem Dev.occStart_shotOn (id at_ : Nat) : (d.occStart id at_).shotOn n = d.shotOn n :=
  Dev.shotOn_of_sameBut (d.occStart_drives id at_) (d.occStart_records id at_).2.2 (by decide) n

@[simp] theorem Dev.treeEnds_shotOn (t : Nat) : (d.treeEnds t).shotOn n = d.shotOn n := by
  unfold Dev.treeEnds
  exact Dev.foldl_keeps (Dev.shotOn · n) (fun f x => by dsimp only; split <;> simp) _ d

@[simp] theorem Dev.occGone_shotOn (id mask : Nat) : (d.occGone id mask).shotOn n = d.shotOn n := by
  simp [Dev.occGone]

@[simp] theorem Dev.settleRefs_shotOn (f : Nat) (t : Nat) : (Dev.settleRefs f d t).shotOn n = d.shotOn n := by
  induction f generalizing d with
  | zero => rfl
  | succ f ih =>
    unfold Dev.settleRefs
    split <;> simp [ih]

@[simp] theorem Dev.occDrop_shotOn (id mask : Nat) : (d.occDrop id mask).shotOn n = d.shotOn n := by
  simp [Dev.occDrop, Dev.treeRefs]

/-! ### A bank's high side -/

@[simp] theorem Dev.switchBank_shotOn (b : Nat) (want : Option Bool) : (d.switchBank b want).shotOn n = d.shotOn n := by
  obtain ⟨k, h | h, -⟩ := d.switchBank_stores b want <;> rw [h] <;> rfl

@[simp] theorem Dev.bankStatus_shotOn (b : Nat) : (d.bankStatus b).shotOn n = d.shotOn n := by
  obtain ⟨-, hdrives, hsame⟩ := d.bankStatus_leaves b
  exact Dev.shotOn_of_sameBut hdrives hsame (by decide) n

/-- A channel that is not in decay is not turned to fast decay. -/
theorem Dev.slowToFast_shotOn (h : (d.shotOn n).phase ≠ 5) (b : Nat) : (d.slowToFast b).shotOn n = d.shotOn n := by
  obtain ⟨hregs, -, -, hchan⟩ := d.slowToFast_leaves b
  simp only [Dev.shotOn, Dev.phase, Dev.obj_congr hregs, hchan n h]

theorem Dev.bankApply_shotOn (h : (d.shotOn n).phase ≠ 5) (b : Nat) : (d.bankApply b).shotOn n = d.shotOn n := by
  unfold Dev.bankApply
  rw [Dev.bankStatus_shotOn, Dev.slowToFast_shotOn] <;> simp [h]

/-! ### Another channel's shot -/

theorem Dev.boostOver_shotOn (hm : m ≠ n) : (d.boostOver m).shotOn n = d.shotOn n := by
  unfold Dev.boostOver
  split
  · exact Dev.setObj_shotOn_idx (by decide) (by simpa using hm) _
  · rfl

theorem Dev.enterPhase_shotOn (hm : m ≠ n) (ph cur : Nat) : (d.enterPhase m ph cur).shotOn n = d.shotOn n := by
  simp [Dev.enterPhase, Dev.sawCurrent, Dev.setPhase_shotOn hm, Dev.setChan_shotOn hm, Dev.boostOver_shotOn hm]

theorem Dev.gotoPhase_shotOn (hm : m ≠ n) (h : (d.shotOn n).phase ≠ 5) (ph cur : Nat) (wait : Bool) :
    (d.gotoPhase m ph cur wait).shotOn n = d.shotOn n := by
  have hseen : ((d.boostOver m).sawCurrent m cur).shotOn n = d.shotOn n := by
    rw [Dev.sawCurrent, Dev.setChan_shotOn hm, Dev.boostOver_shotOn hm]
  unfold Dev.gotoPhase
  extract_lets b k e1 e2
  have he2 : e2.shotOn n = d.shotOn n := by
    simp [e2, e1, Dev.slowToFast_shotOn, hseen, h]
  clear_value e2
  split
  · split
    · simp [he2]
    · simp [Dev.enterPhase_shotOn hm, he2]
  · rw [Dev.bankApply_shotOn] <;> simp [Dev.enterPhase_shotOn hm, h]

theorem Dev.beginRun_shotOn (hm : m ≠ n) (at_ : Nat) : (d.beginRun m at_).shotOn n = d.shotOn n := by
  unfold Dev.beginRun
  dsimp only
  split <;> simp [Dev.setChan_shotOn hm, Dev.chanOut_shotOn hm]

theorem Dev.driveDrop_shotOn (hm : m ≠ n) (out diag : Nat) : (d.driveDrop m out diag).shotOn n = d.shotOn n := by
  unfold Dev.driveDrop
  dsimp only
  split <;> simp [Dev.setPhase_shotOn hm, Dev.setChan_shotOn hm, Dev.chanOut_shotOn hm]

theorem Dev.overlapDrop_shotOn (hm : m ≠ n) (out : Nat) (priority : Bool) : (d.overlapDrop m out priority).shotOn n = d.shotOn n := by
  unfold Dev.overlapDrop
  dsimp only
  split <;> simp [Dev.driveDrop_shotOn hm, Dev.ovlCause]

theorem Dev.checkDrop_shotOn (hm : m ≠ n) (hn : n < 48) (k : Nat) : (d.checkDrop m k).shotOn n = d.shotOn n := by
  have hrail : ∀ (f : Dev) (x : Nat), (f.inc (0x28C0 + x) 0x06).shotOn n = f.shotOn n := fun f x =>
    Dev.setObj_shotOn_idx (by decide) (by omega) _
  unfold Dev.checkDrop
  dsimp only
  rw [Dev.driveDrop_shotOn hm]
  split_ifs <;> simp [hrail]

theorem Dev.takeBank_shotOn (hm : m ≠ n) (h : (d.shotOn n).phase ≠ 5) (at_ cur : Nat) (wait : Bool) :
    (d.takeBank m at_ cur wait).shotOn n = d.shotOn n := by
  unfold Dev.takeBank
  dsimp only
  split_ifs
  all_goals
    simp [Dev.gotoPhase_shotOn hm, Dev.beginRun_shotOn hm, Dev.driveDrop_shotOn hm, Dev.setPhase_shotOn hm, Dev.setChan_shotOn hm,
      Dev.chanOut_shotOn hm, h]

/-- The shot that waits first waits. -/
theorem Dev.deferWait_of_firstWaiting {b : Nat} (h : d.firstWaiting b = some m) : (d.chan m).deferWait = true := by
  have hall : ∀ k, d.firstWaiting b = some k → (d.chan k).deferWait = true := by
    unfold Dev.firstWaiting
    refine List.foldlRecOn (motive := fun best : Option Nat => ∀ k, best = some k → (d.chan k).deferWait = true) _ _ (by simp) ?_
    intro best hbest k hk j hj
    have hkwaits : (d.chan k).deferWait = true := (List.mem_filter.mp hk).2
    dsimp only at hj
    split at hj
    · cases hj
      exact hkwaits
    · split at hj
      · cases hj
        exact hkwaits
      · exact hbest j hj
  exact hall m h

/-- The shots that wait take a free bank without touching a channel whose own shot does not wait and is not in decay (R254). -/
theorem Dev.bankNext_shotOn (hn : n < 48) (f b : Nat) (hphase : (d.shotOn n).phase ≠ 5) (hwait : (d.shotOn n).chan.deferWait = false) :
    (Dev.bankNext f d b).shotOn n = d.shotOn n := by
  induction f generalizing d with
  | zero => rfl
  | succ f ih =>
    have rest : ∀ e : Dev, e.shotOn n = d.shotOn n → (Dev.bankNext f e b).shotOn n = d.shotOn n := fun e he =>
      (ih (by rwa [he]) (by rwa [he])).trans he
    unfold Dev.bankNext
    split
    · rfl
    · split
      · rfl
      · next m hfirst =>
        have hm : m ≠ n := by
          rintro rfl
          exact Bool.noConfusion (hwait.symm.trans (Dev.deferWait_of_firstWaiting hfirst))
        dsimp only
        split
        · exact rest _ (Dev.overlapDrop_shotOn hm ..)
        · split
          · exact rest _ (by simp [Dev.checkDrop_shotOn hm hn])
          · exact rest _ (by simp [Dev.takeBank_shotOn hm, Dev.setChan_shotOn hm, hphase])

theorem Dev.holderLeaves_shotOn (hn : n < 48) (b : Nat) (hphase : (d.shotOn n).phase ≠ 5) (hwait : (d.shotOn n).chan.deferWait = false) :
    (d.holderLeaves b).shotOn n = d.shotOn n := by
  have hnext : ∀ e : Dev, e.shotOn n = d.shotOn n → (Dev.bankNext 8 e b).shotOn n = d.shotOn n := fun e he =>
    (Dev.bankNext_shotOn hn 8 b (by rwa [he]) (by rwa [he])).trans he
  unfold Dev.holderLeaves
  dsimp only
  rw [Dev.bankApply_shotOn] <;> simp [hnext, hphase]

theorem Dev.releaseIf_shotOn (hn : n < 48) (hphase : (d.shotOn n).phase ≠ 5) (hwait : (d.shotOn n).chan.deferWait = false) (m : Nat) :
    (d.releaseIf m).shotOn n = d.shotOn n := by
  unfold Dev.releaseIf
  dsimp only
  split
  · exact Dev.holderLeaves_shotOn hn _ hphase hwait
  · exact Dev.bankApply_shotOn hphase _

end Frames

end Sys2Proof.Machine
end

section
/-! SUPPORT. The phases of a shot (R245, R246, R248): what entering a phase records, what follows a boost, and the channel at rest. -/

namespace Sys2Proof.Machine

/-- A reported current moves neither the start of the channel's phase nor whether its shot waits. -/
theorem Dev.sawCurrent_keeps (d : Dev) (n cur : Nat) : ((d.sawCurrent n cur).chan n).deferWait = (d.chan n).deferWait ∧
    ((d.sawCurrent n cur).chan n).phaseAt = (d.chan n).phaseAt := by simp [Dev.sawCurrent]

/-- A channel that enters a phase is in it; last_outcome stands, last_boost_time is that of the boost that ended, and a shot that has not
waited does not wait (R249, R269). -/
theorem Dev.enterPhase_enters (d : Dev) (n ph cur : Nat) :
    (d.enterPhase n ph cur).phase n = ph ∧ ((d.enterPhase n ph cur).chan n).deferWait = (d.chan n).deferWait ∧
      (d.boostOver n).sameBut (d.enterPhase n ph cur) (atSubs [0x03, 0x0E, 0x0F, 0x10]) := by
  obtain ⟨-, hdrives, -⟩ := d.boostOver_leaves n
  have hchan : (d.boostOver n).chan n = d.chan n := Dev.chan_congr (congrArg Prod.fst hdrives) n
  unfold Dev.enterPhase
  rw [← hchan]
  generalize d.boostOver n = e
  extract_lets seen c off c'
  have hc : c.deferWait = (e.chan n).deferWait := (e.sawCurrent_keeps n cur).1
  have hsame : e.sameBut ((seen.setChan n c').setObj (0x2700 + n) 0x03 ph) (atSubs [0x03, 0x0E, 0x0F, 0x10]) :=
    (Dev.sameBut_of_regs (e := seen.setChan n c') rfl).setObj _ (by decide) rfl
  have hstored : ((seen.setChan n c').setObj (0x2700 + n) 0x03 ph).chan n = c' := by simp
  obtain ⟨-, hdrives', hsame'⟩ := ((seen.setChan n c').setObj (0x2700 + n) 0x03 ph).bankStatus_leaves (seen.bankOf n)
  refine ⟨(hsame' _ 0x03 (by decide) rfl).trans (Dev.obj_setObj_self ..), ?_, hsame.trans (hsame'.widen (by decide))⟩
  rw [Dev.chan_congr (congrArg Prod.fst hdrives') n, hstored]
  exact hc

/-- How long a channel's present phase has lasted, as last_boost_time records it (R269). -/
def Dev.phaseTime (d : Dev) (n : Nat) : Nat := min 65535 ((d.now - (d.chan n).phaseAt) / 1024)

theorem Dev.boostOver_due {d : Dev} {n : Nat} (hphase : d.phase n = 2) (hfree : (d.bank (d.bankOf n)).entering = none) :
    d.boostOver n = d.setObj (0x2700 + n) 0x06 (d.phaseTime n) := by
  have hdue : d.phaseDue n = 2 := by simp [Dev.phaseDue, hfree, hphase]
  unfold Dev.boostOver
  rw [if_pos (by simp [hphase, hdue])]
  rfl

/-- A channel that leaves boost for a phase has its duration recorded (R245, R269). -/
theorem Dev.enterPhase_records {d : Dev} {n : Nat} (hphase : d.phase n = 2) (hfree : (d.bank (d.bankOf n)).entering = none)
    (ph cur : Nat) : (d.enterPhase n ph cur).obj (0x2700 + n) 0x06 = d.phaseTime n ∧
      (d.enterPhase n ph cur).obj (0x2700 + n) 0x04 = d.obj (0x2700 + n) 0x04 := by
  obtain ⟨-, -, hsame⟩ := d.enterPhase_enters n ph cur
  rw [Dev.boostOver_due hphase hfree] at hsame
  exact ⟨(hsame _ 0x06 (by decide) rfl).trans (Dev.obj_setObj_self ..),
    (hsame _ 0x04 (by decide) rfl).trans (Dev.obj_setObj_sub _ _ (by decide) (by decide) (by decide))⟩

/-- Moving the high side keeps the shot that is to enter its phase with the rise (R252). -/
theorem Dev.switchBank_entering (d : Dev) (b : Nat) (want : Option Bool) :
    ((d.switchBank b want).bank b).entering = (d.bank b).entering := by
  have hmapped : ∀ f : Dev, (f.capBankChange b).bank b = f.bank b := fun f => rfl
  unfold Dev.switchBank
  extract_lets k dead isOn
  clear_value isOn
  cases want with
  | none =>
    dsimp only
    split <;> simp [hmapped, k]
  | some x =>
    dsimp only
    split
    · simp [k]
    · cases isOn with
      | some y => simp [hmapped, k]
      | none =>
        dsimp only
        split
        · split <;> simp [hmapped, k]
        · simp [hmapped, k]

/-- The end of a boost phase: its duration is recorded, and hold follows, or peak, once the bank's switch for it has risen (R245, R246,
R252). -/
def Dev.boostEnds (d u : Dev) (n : Nat) : Prop :=
  u.obj (0x2700 + n) 0x06 = d.phaseTime n ∧ ((d.chan n).prof.getD 4 0 = 0 → u.phase n = 4) ∧
    ((d.chan n).prof.getD 4 0 ≠ 0 → u.phase n = 3 ∨ u.phase n = 2 ∧ (u.bank (d.bankOf n)).entering = some (n, 3))


/-- The boost of a channel ends with peak to follow (R245, R252): the bank moves to BHS, and the phase begins at once or with the rise that
waits for the dead time. -/
theorem Dev.gotoPhase_peak {d : Dev} {n : Nat} (hphase : d.phase n = 2) (hfree : (d.bank (d.bankOf n)).entering = none) (cur : Nat) :
    (d.gotoPhase n 3 cur true).obj (0x2700 + n) 0x06 = d.phaseTime n ∧
      (d.gotoPhase n 3 cur true).obj (0x2700 + n) 0x04 = d.obj (0x2700 + n) 0x04 ∧
      ((d.gotoPhase n 3 cur true).phase n = 3 ∨
        (d.gotoPhase n 3 cur true).phase n = 2 ∧ ((d.gotoPhase n 3 cur true).bank (d.bankOf n)).entering = some (n, 3)) := by
  have hdrives : (d.boostOver n).drives = d.drives := (d.boostOver_leaves n).2.1
  unfold Dev.gotoPhase
  extract_lets b k e1 e2
  rw [if_pos rfl]
  obtain ⟨hregs, -, hbanks, hchan⟩ := (e1.switchBank b (e1.bankWant b)).slowToFast_leaves b
  have hswitch := e1.switchBank_keepsShots b (e1.bankWant b)
  have hobj : ∀ w < 256, e2.obj (0x2700 + n) w = if w = 0x06 then d.phaseTime n else d.obj (0x2700 + n) w := fun w hw => by
    refine (Dev.obj_congr (hregs.trans hswitch.regs) _ w).trans ((Dev.obj_congr (e := d.boostOver n) rfl _ w).trans ?_)
    rw [Dev.boostOver_due hphase hfree, Dev.obj_setObj _ _ (by decide) hw]
    simp
  have hphase' : e2.phase n = 2 := (hobj 0x03 (by decide)).trans hphase
  have hbank : e2.bankOf n = b := hobj 0x02 (by decide)
  have hentering : (e2.bank b).entering = some (n, 3) := by
    rw [Dev.bank_congr hbanks, Dev.switchBank_entering]
    exact congrArg Bank.entering (Dev.bank_setBank_self ..)
  have hbegan : (e2.chan n).phaseAt = (d.chan n).phaseAt := by
    rw [hchan n (by rw [Dev.phase, Dev.obj_congr hregs.symm]; exact hphase'.trans_ne (by decide)), Dev.chan_congr hswitch.chans]
    rw [← Dev.chan_congr (congrArg Prod.fst hdrives) n]
    exact ((d.boostOver n).sawCurrent_keeps n cur).2
  have hnow : e2.now = d.now := by simp [e2, e1]
  clear_value e2
  split
  · obtain ⟨-, hdrives', hsame⟩ := e2.bankStatus_leaves b
    refine ⟨(hsame _ 0x06 (by decide) rfl).trans (hobj 0x06 (by decide)), (hsame _ 0x04 (by decide) rfl).trans (hobj 0x04 (by decide)),
      .inr ⟨(hsame _ 0x03 (by decide) rfl).trans hphase', ?_⟩⟩
    exact (congrArg Bank.entering (Dev.bank_congr (congrArg Prod.snd hdrives') b)).trans hentering
  · generalize hf : e2.setBank b { (e2.bank b) with entering := none } = f
    have hfree' : (f.bank (f.bankOf n)).entering = none := by
      have hb : f.bankOf n = b := by rw [← hf]; exact hbank
      rw [hb, ← hf, Dev.bank_setBank_self]
    obtain ⟨htime, hout⟩ := Dev.enterPhase_records (d := f) (by rw [← hf]; exact hphase') hfree' 3 cur
    have hsince : f.phaseTime n = d.phaseTime n := by
      rw [← hf]
      exact congrArg₂ (fun now at_ => min 65535 ((now - at_) / 1024)) hnow hbegan
    refine ⟨htime.trans hsince, hout.trans ?_, .inl (f.enterPhase_enters n 3 cur).1⟩
    rw [← hf]
    exact hobj 0x04 (by decide)

/-- A boost phase that ends is recorded, with hold or peak to follow, and last_outcome stands (R245, R246, R254). -/
theorem Dev.boostEnd_ends {d : Dev} {n : Nat} (hn : n < 48) (hphase : d.phase n = 2) (hfree : (d.bank (d.bankOf n)).entering = none)
    (hwait : (d.chan n).deferWait = false) (cur : Nat) :
    d.boostEnds (d.boostEnd n cur) n ∧ (d.boostEnd n cur).obj (0x2700 + n) 0x04 = d.obj (0x2700 + n) 0x04 := by
  unfold Dev.boostEnd
  split
  · next hskip =>
    obtain ⟨hhold, hstill, -⟩ := d.enterPhase_enters n 4 cur
    obtain ⟨htime, hout⟩ := Dev.enterPhase_records hphase hfree 4 cur
    obtain ⟨-, hphase', hout', htime'⟩ := Dev.of_shotOn (Dev.holderLeaves_shotOn (d := d.enterPhase n 4 cur) hn (d.bankOf n)
      (hhold.trans_ne (by decide)) (hstill.trans hwait))
    exact ⟨⟨htime'.trans htime, fun _ => hphase'.trans hhold, fun h => absurd hskip h⟩, hout'.trans hout⟩
  · next hpeak =>
    obtain ⟨htime, hout, hnext⟩ := Dev.gotoPhase_peak hphase hfree cur
    exact ⟨⟨htime, fun h => absurd h hpeak, fun _ => hnext⟩, hout⟩

/-- A channel that takes no further part is idle, with its record empty and last_outcome as it was (R248). -/
theorem Dev.chanIdle_idles (d : Dev) (n : Nat) : (d.chanIdle n).phase n = 0 ∧ (d.chanIdle n).chan n = {} ∧
    (d.chanIdle n).obj (0x2700 + n) 0x04 = d.obj (0x2700 + n) 0x04 := by
  unfold Dev.chanIdle
  extract_lets c e1 e2
  have hout : e2.obj (0x2700 + n) 0x04 = d.obj (0x2700 + n) 0x04 := by
    have hcaps : e1.obj (0x2700 + n) 0x04 = d.obj (0x2700 + n) 0x04 := rfl
    unfold e2
    split <;> simp [Dev.obj_setObj, hcaps]
  clear_value e2
  generalize hf : ((e2.setChan n {}).setObj (0x2700 + n) 0x03 0) = f
  have hidle : f.phase n = 0 := by rw [← hf]; exact Dev.obj_setObj_self ..
  obtain ⟨hchan', hphase', hout', -⟩ := Dev.of_shotOn (Dev.bankApply_shotOn (d := f) (n := n) (hidle.trans_ne (by decide)) (e2.bankOf n))
  refine ⟨hphase'.trans hidle, hchan'.trans ?_, hout'.trans ?_⟩
  · simp [← hf]
  · simp [← hf, Dev.obj_setObj, hout]

/-- With t_boost_max elapsed, boost_timeout is marked first, unless the current has reached i_boost in that cycle (R245). -/
theorem Dev.boostTimeEnd_due {d : Dev} {n cur : Nat} (hruns : d.runs (groupPd n) = true) (hphase : d.phase n = 2)
    (hfree : (d.bank (d.bankOf n)).entering = none) (hover : (d.chan n).phaseAt + (d.chan n).prof.getD 1 0 * 1024 ≤ d.now) :
    d.boostTimeEnd n cur = (if (d.chan n).upper 2 ≤ cur then d else d.chanOut n 256).boostEnd n cur := by
  unfold Dev.boostTimeEnd
  dsimp only
  rw [if_pos (by simpa [hruns, hphase, hfree] using hover)]

/-- A boost ended by time is an end of the boost phase, with boost_timeout set unless the current ended it (R245). -/
theorem Dev.boostTimeEnd_ends {d : Dev} {n cur : Nat} (hn : n < 48) (hruns : d.runs (groupPd n) = true) (hphase : d.phase n = 2)
    (hfree : (d.bank (d.bankOf n)).entering = none) (hwait : (d.chan n).deferWait = false)
    (hover : (d.chan n).phaseAt + (d.chan n).prof.getD 1 0 * 1024 ≤ d.now) :
    d.boostEnds (d.boostTimeEnd n cur) n ∧ (d.boostTimeEnd n cur).bit (0x2700 + n) 0x04 8 =
      (if (d.chan n).upper 2 ≤ cur then d.bit (0x2700 + n) 0x04 8 else true) := by
  rw [Dev.boostTimeEnd_due hruns hphase hfree hover]
  split
  · obtain ⟨hends, hout⟩ := Dev.boostEnd_ends hn hphase hfree hwait cur
    exact ⟨hends, congrArg (Nat.testBit · 8) hout⟩
  · have hobj : ∀ w < 256, w ≠ 0x04 → (d.chanOut n 256).obj (0x2700 + n) w = d.obj (0x2700 + n) w := fun w hw hne =>
      Dev.obj_setObj_sub _ _ (by decide) hw hne
    have hbank : (d.chanOut n 256).bankOf n = d.bankOf n := hobj 0x02 (by decide) (by decide)
    obtain ⟨hends, hout⟩ := Dev.boostEnd_ends (d := d.chanOut n 256) hn ((hobj 0x03 (by decide) (by decide)).trans hphase)
      (by rw [hbank]; exact hfree) hwait cur
    have h256 : Nat.testBit 256 8 = true := by decide
    refine ⟨?_, (congrArg (Nat.testBit · 8) hout).trans ?_⟩
    · unfold Dev.boostEnds at hends
      rwa [hbank] at hends
    · simp [Dev.chanOut, h256]

/-- Settles O29: a phase ends by entering the next one, and the shots that then take the bank leave the channel alone. -/
theorem phasesOfAShot : Obligations.PhasesOfAShot := by
  intro s t n cur
  dsimp only
  intro hruns hwait
  refine ⟨fun hphase hfree => ⟨?_, fun hover => ?_⟩, fun hphase hover => ?_, fun hphase => ⟨?_, fun hover => ?_⟩⟩
  · have hdev : (s.devAt t).boostCurrentEnd n = (s.devAt t).boostEnd n (((s.devAt t).chan n).upper 2) := by
      unfold Dev.boostCurrentEnd
      rw [if_pos (by simp [hruns, hphase, hfree])]
    obtain ⟨hends, -⟩ := Dev.boostEnd_ends n.isLt hphase hfree hwait (((s.devAt t).chan n).upper 2)
    exact ⟨_, State.exec_of_dev (f := fun d => d.boostCurrentEnd n) rfl hdev, hends, rfl⟩
  · obtain ⟨hends, hmark⟩ := Dev.boostTimeEnd_ends (cur := cur) n.isLt hruns hphase hfree hwait hover
    exact ⟨_, State.exec_of_dev (f := fun d => d.boostTimeEnd n cur) rfl rfl, hends, hmark, rfl⟩
  · have hdev : (s.devAt t).peakEnd n cur = ((s.devAt t).enterPhase n 4 cur).releaseIf n := by
      unfold Dev.peakEnd
      dsimp only
      rw [if_pos (by simpa [hruns, hphase] using hover)]
    obtain ⟨hhold, hstill, -⟩ := (s.devAt t).enterPhase_enters n 4 cur
    obtain ⟨-, hphase', -⟩ := Dev.of_shotOn (Dev.releaseIf_shotOn (d := (s.devAt t).enterPhase n 4 cur) n.isLt
      (hhold.trans_ne (by decide)) (hstill.trans hwait) n)
    exact ⟨_, State.exec_of_dev (f := fun d => d.peakEnd n cur) rfl hdev, hphase'.trans hhold, rfl⟩
  · have hdev : (s.devAt t).decayEnd n = (s.devAt t).chanIdle n := by simp [Dev.decayEnd, hruns, hphase]
    obtain ⟨hidle, hempty, -⟩ := (s.devAt t).chanIdle_idles n
    exact ⟨_, State.exec_of_dev (f := fun d => d.decayEnd n) rfl hdev, hidle, hempty, rfl⟩
  · have hdev : (s.devAt t).decayTimeout n = ((s.devAt t).chanOut n 2048).chanIdle n := by
      unfold Dev.decayTimeout
      dsimp only
      rw [if_pos (by simpa [hruns, hphase] using hover)]
    obtain ⟨hidle, hempty, hout⟩ := ((s.devAt t).chanOut n 2048).chanIdle_idles n
    have h2048 : Nat.testBit 2048 11 = true := by decide
    refine ⟨_, State.exec_of_dev (f := fun d => d.decayTimeout n) rfl hdev, hidle, hempty,
      (congrArg (Nat.testBit · 11) hout).trans ?_, rfl⟩
    simp [Dev.chanOut, h2048]

end Sys2Proof.Machine
end

section
/-! SUPPORT. Regulation in peak and hold (R249, R250): the two thresholds as branches of their commands, the count of a limited cycle, and
the finding of the chop limit (R303, R314). -/

namespace Sys2Proof.Machine

/-- At the upper threshold, after blanking, the low side goes off (R249). -/
theorem Dev.regUpper_due {d : Dev} {n : Nat} (hruns : d.runs (groupPd n) = true) (hphase : d.phase n = 3 ∨ d.phase n = 4)
    (hlow : (d.chan n).low = true) (hblank : (d.chan n).onAt + (d.chan n).prof.getD 9 0 * 64 ≤ d.now) :
    d.regUpper n = (d.setChan n { (d.chan n) with low := false, offAt := d.now, limitedNow := false }).sawCurrent n
      ((d.chan n).upper (d.phase n)) := by
  unfold Dev.regUpper
  dsimp only
  rw [if_pos (by simpa [hruns, hphase, hlow] using hblank)]

/-- At the lower threshold the low side goes on once t_off_min has run; before that the first report of an off-interval limits the cycle
(R249, R250). -/
theorem Dev.regLower_due {d : Dev} {n : Nat} (hruns : d.runs (groupPd n) = true) (hphase : d.phase n = 3 ∨ d.phase n = 4)
    (hlow : (d.chan n).low = false) : d.regLower n =
      if (d.chan n).offAt + (d.chan n).prof.getD 8 0 * 64 ≤ d.now then
        d.setChan n { (d.chan n) with low := true, onAt := d.now, limitedNow := false }
      else if (d.chan n).limitedNow then d else d.chopLimited n := by
  unfold Dev.regLower
  dsimp only
  rw [if_pos (by simp [hruns, hphase, hlow])]

/-- The objects in which a finding of a channel's diagnosis shows: its sticky bit, last_diag, the time and a counter. -/
abbrev diagObjs (n cnt : Nat) : List (Nat × Nat) := [(0x2880 + n, 0x09), (0x2880 + n, 0x0A), (0x2880 + n, 0x0B), (0x2880 + n, cnt)]

theorem Dev.diagFound_drives (d : Dev) (n b cnt : Nat) : (d.diagFound n b cnt).drives = d.drives := rfl

/-- A finding sets its sticky bit, is stamped and counted (R314). -/
theorem Dev.diagFound_notes (d : Dev) (n b : Nat) {cnt : Nat} (hcnt : 0x0C ≤ cnt ∧ cnt < 256) :
    (d.diagFound n b cnt).bit (0x2880 + n) 0x09 b = true ∧ (d.diagFound n b cnt).obj (0x2880 + n) 0x0B = d.now ∧
      (d.diagFound n b cnt).obj (0x2880 + n) cnt = satInc32 (d.obj (0x2880 + n) cnt) ∧
      d.sameBut (d.diagFound n b cnt) (fun i w => (diagObjs n cnt).contains (i, w)) := by
  obtain ⟨hlo, hhi⟩ := hcnt
  have h9 : 0x09 ≠ cnt := by omega
  have hA : cnt ≠ 0x0A := by omega
  have hB : 0x0B ≠ cnt := by omega
  refine ⟨?_, ?_, ?_, ?_⟩
  · simp [Dev.bit, Dev.diagFound, Dev.chanDiag, Dev.setBit, Dev.obj_inc, Dev.obj_setObj, hhi, h9, testBit_bitTo]
  · simp [Dev.diagFound, Dev.obj_inc, hhi, hB]
  · simp [Dev.diagFound, Dev.chanDiag, Dev.setBit, Dev.obj_inc, Dev.obj_setObj, hhi, h9.symm, hA, hB.symm]
  · exact (((((Dev.sameBut_refl d _).setObj _ (by decide) (by simp)).setObj _ (by decide) (by simp)).setObj _ (by decide)
      (by simp)).setObj _ (by decide) (by simp)).inc hhi (by simp)

/-- The device with one more limited chop cycle on a channel, before the chop limit is looked at (R250). -/
def Dev.chopCounted (d : Dev) (n : Nat) : Dev :=
  ((d.setChan n { (d.chan n) with limited := (d.chan n).limited + 1, limitedNow := true }).inc (0x2700 + n) 0x0D).chanOut n 512

theorem Dev.chopLimited_eq (d : Dev) (n : Nat) : d.chopLimited n =
    if (d.chan n).limited + 1 = (d.chan n).diag.getD 6 0 then
      ((d.chopCounted n).diagFound n 4 0x10).raiseIf (((d.chopCounted n)).bit (0x2880 + n) 0x01 1) 48
    else d.chopCounted n := rfl

theorem Dev.chan_chopCounted (d : Dev) (n : Nat) : (d.chopCounted n).chan n =
    { (d.chan n) with limited := (d.chan n).limited + 1, limitedNow := true } := Dev.chan_setChan_self ..

/-- A limited cycle is counted and marked in last_outcome (R250, R269). -/
theorem Dev.chopCounted_counts (d : Dev) (n : Nat) :
    (d.chopCounted n).obj (0x2700 + n) 0x0D = satInc32 (d.obj (0x2700 + n) 0x0D) ∧ (d.chopCounted n).bit (0x2700 + n) 0x04 9 = true ∧
      d.sameBut (d.chopCounted n) (fun i w => [(0x2700 + n, 0x04), (0x2700 + n, 0x0D)].contains (i, w)) := by
  refine ⟨?_, ?_, ?_⟩
  · simp [Dev.chopCounted, Dev.chanOut, Dev.obj_setObj, Dev.obj_inc]
  · have h512 : Nat.testBit 512 9 = true := by decide
    simp [Dev.bit, Dev.chopCounted, Dev.chanOut, h512]
  · exact ((Dev.sameBut_of_regs (e := d.setChan n _) rfl).inc (by decide) (by simp)).setObj _ (by decide) (by simp)

/-- The cycle that meets the chop limit is counted, and it is a finding of the channel's diagnosis (R250, R303, R314). -/
theorem Dev.chopLimited_finds {d : Dev} {n : Nat} (hlimit : (d.chan n).limited + 1 = (d.chan n).diag.getD 6 0) :
    ((d.chopLimited n).chan n).limited = (d.chan n).limited + 1 ∧ (d.chopLimited n).bit (0x2880 + n) 0x09 4 = true ∧
      (d.chopLimited n).obj (0x2880 + n) 0x0B = d.now ∧
      (d.chopLimited n).obj (0x2880 + n) 0x10 = satInc32 (d.obj (0x2880 + n) 0x10) ∧
      d.sameBut (d.chopLimited n) (fun i w => ((0x2700 + n, 0x04) :: (0x2700 + n, 0x0D) :: diagObjs n 0x10).contains (i, w)) := by
  obtain ⟨-, -, hkept⟩ := d.chopCounted_counts n
  obtain ⟨hbit, htime, hfound, hsame⟩ := (d.chopCounted n).diagFound_notes n 4 (cnt := 0x10) (by decide)
  have hdrives : ∀ c, (((d.chopCounted n).diagFound n 4 0x10).raiseIf c 48).drives = (d.chopCounted n).drives := fun c =>
    (Dev.raiseIf_drives ..).trans (Dev.diagFound_drives ..)
  have hfirst : (d.chopCounted n).obj (0x2880 + n) 0x10 = d.obj (0x2880 + n) 0x10 := hkept _ _ (by decide) (by simp)
  rw [Dev.chopLimited_eq, if_pos hlimit]
  refine ⟨?_, (Dev.bit_congr (Dev.raiseIf_regs ..) ..).trans hbit, (Dev.raiseIf_obj ..).trans htime,
    (Dev.raiseIf_obj ..).trans (hfound.trans (congrArg satInc32 hfirst)), Dev.sameBut.regs ?_ (Dev.raiseIf_regs ..)⟩
  · rw [Dev.chan_congr (congrArg Prod.fst (hdrives _)) n, Dev.chan_chopCounted]
  · refine (hkept.mono (fun i w h => ?_)).trans (hsame.mono (fun i w h => ?_))
    all_goals
      simp only [List.contains_iff_mem, List.mem_cons, List.not_mem_nil, or_false] at h ⊢
      tauto

/-- Settles O30: each clause is one branch of the two regulation commands; the chop limit is a finding of the channel's diagnosis behind
the counted cycle. -/
theorem regulationChops : Obligations.RegulationChops := by
  intro s t n
  dsimp only
  intro hruns hphase
  refine ⟨fun hlow hblank => ?_, fun hoff => ?_⟩
  · refine State.does_of_dev (State.exec_of_dev (f := fun d => d.regUpper n) rfl (Dev.regUpper_due hruns hphase hlow hblank)) ?_
      (Dev.sameBut_of_regs rfl)
    simp [Dev.sawCurrent]
  · have hdue := Dev.regLower_due hruns hphase hoff
    refine ⟨fun hdone => ?_, fun hearly hfresh => ?_⟩
    · rw [if_pos hdone] at hdue
      refine State.does_of_dev (State.exec_of_dev (f := fun d => d.regLower n) rfl hdue) ?_ (Dev.sameBut_of_regs rfl)
      simp
    · rw [if_neg (by omega), hfresh, if_neg (by decide)] at hdue
      refine ⟨fun hmore => ?_, fun hlimit => ?_⟩
      · obtain ⟨hcount, hmark, hkept⟩ := (s.devAt t).chopCounted_counts n
        rw [Dev.chopLimited_eq, if_neg hmore] at hdue
        refine State.does_of_dev (State.exec_of_dev (f := fun d => d.regLower n) rfl hdue) ⟨?_, ?_, hcount, hmark⟩ hkept
        all_goals rw [Dev.chan_chopCounted]
        exact hoff
      · obtain ⟨hlimited, hbit, htime, hfound, hsame⟩ := Dev.chopLimited_finds hlimit
        exact State.does_of_dev (State.exec_of_dev (f := fun d => d.regLower n) rfl hdue) ⟨hlimited, hbit, htime, hfound⟩ hsame

end Sys2Proof.Machine
end

section
/-! SUPPORT. Banks and rails (R260, R262, R305): a state on which a clause fails. It is not claimed to be one that a device comes to, as the
statement does not ask for that: no record of the dictionary has the number on which its tree stands. -/

namespace Sys2Proof.Machine

/-- The state after reset with a session on P1 that owns boost controller A and with its rail already at v_target. The shot of channel 0
waits for that rail; it is the one member of a tree whose top-level record is a sheaf for one cycle with the number 0x380. The
dictionary has 512 sheaves (R236); the index that `recIx` gives to this one is 0x2780, boost controller A. -/
def State.strayWait : State :=
  { State.reset with
    dev := { (((State.reset.dev.canSession 0).setObj 0x1700 0x5C 1).setObj 0x2700 0x02 0) with
      occs := [(0, { rid := 0x8380, cfg := { cycles := 1 } }), (1, { st := .locked })]
      nextOcc := 2
      chans := [(0, { occ := some 1, railWait := true })]
      banks := [(0, { holder := some 0 })]
      boosts := [(0, { mv := 100000 })] } }

theorem dev_of_railEnable {s u : State} {t : Nat} {r : Req} {x : Fin 2} (h : exec (.railEnable t r x) s = .next u) :
    u.dev = ((s.devAt t).putOne s.loft r (0x2780 + x) 0x01 1 1).1 := by
  cases h
  rfl

theorem strayWait_takes : State.strayWait.takes 0 canReq (0x2780 + (0 : Fin 2)) 0x01 1 1 = true := by decide +kernel

/-- Enabled with the rail at its target, the controller is ready at once and serves the shot, which ARM_N drops (R304). Its tree has reached
its outcome, and the enable of the top-level record falls (R205): that is rail_enable. -/
theorem strayWait_enabled :
    ((State.strayWait.devAt 0).putOne State.strayWait.loft canReq (0x2780 + (0 : Fin 2)) 0x01 1 1).1.obj (0x2780 + (0 : Fin 2)) 0x01 = 0 := by
  decide +kernel

/-- Refutes O31: where a tree stands on a record whose index is that of a boost controller, an accepted rail_enable = 1 does not leave the
controller enabled. -/
theorem not_banksAndRails : ¬ Obligations.BanksAndRails := by
  rintro ⟨-, rails⟩
  obtain ⟨-, enable⟩ := rails State.strayWait 0 0 0
  obtain ⟨u, hexec, henabled, -⟩ := (enable canReq).1 strayWait_takes
  rw [dev_of_railEnable hexec] at henabled
  exact absurd (henabled.symm.trans strayWait_enabled) (by decide)

end Sys2Proof.Machine
end

section
/-! SUPPORT. The clears of closure sensing, of the diagnostics and protection, and of the pressure and vibration channels (R296, R297, R306, R314
to R317, R338, R339): two shapes of a clear, and the commands of the blocks that have one of them. -/

namespace Sys2Proof.Machine

/-! ### Shapes of a clear -/

/-- A block that does no more than store what is written has no reaction to a write. -/
theorem Dev.hooks_quiet (g d : Dev) {w : Wr} (h : w.kind.quiet = true) : Dev.hooks g d w = d := by
  have hkind : w.kind ∈ ([.port, .notify, .profile, .channel, .lane, .chanDiag, .bankDiag, .boostDiag, .protect, .irq, .source, .stack,
      .doorbell, .route, .dma, .timebase, .reset] : List ObjKind) := by simpa [ObjKind.quiet] using h
  simp only [List.mem_cons, List.not_mem_nil, or_false] at hkind
  unfold Dev.hooks
  rcases hkind with hk | hk | hk | hk | hk | hk | hk | hk | hk | hk | hk | hk | hk | hk | hk | hk | hk <;> simp only [hk]

/-- A clear of a block whose hooks do nothing with its write. -/
theorem Clears.of_hooks {r : Req} {i u : Nat} {b : ObjBlock} {act : Dev → Dev} (hs : b.Starts i u) (hk : b.kind.stores = true)
    (hhook : ∀ g d : Dev, d.regs = g.regs → Dev.hooks g d (oneWr r i u 1 1 b) = d)
    (hcmd : ∀ e : Dev, e.command (oneWr r i u 1 1 b) u 1 = act e) : Clears r i u b (fun _ _ => false) act where
  starts := hs
  stores := hk
  hook := fun g => by
    rw [hhook g (g.writtenBy r.port i) rfl]
    exact Dev.sameBut_of_regs rfl
  command := hcmd

/-- A clear of a block that does no more than store what is written. -/
theorem Clears.of_quiet {r : Req} {i u : Nat} {b : ObjBlock} {act : Dev → Dev} (hs : b.Starts i u) (hk : b.kind.stores = true)
    (hq : b.kind.quiet = true) (hcmd : ∀ e : Dev, e.command (oneWr r i u 1 1 b) u 1 = act e) : Clears r i u b (fun _ _ => false) act :=
  Clears.of_hooks hs hk (fun g d _ => Dev.hooks_quiet g d hq) hcmd

/-- A clear that writes one object anew from its old value, and does nothing else. -/
theorem Clears.rewrites {r : Req} {i u y : Nat} {b : ObjBlock} {f : Nat → Nat}
    (hc : Clears r i u b (fun _ _ => false) (fun e => e.setObj i y (f (e.obj i y)))) {s : State} {t : Nat} {c : Instr}
    (h : s.takes t r i u 1 1 = true) (hexec : exec c s = onBoth s t (fun m d => d.putOne m r i u 1 1)) (hi : 0x1800 ≤ i) (hy : y < 256) :
    s.does t c [(i, y)] (fun d => d.obj i y = f ((s.devAt t).obj i y)) := by
  refine hc.does h hexec (fun _ _ hp => by cases hp) (fun e hsame => ⟨?_, (Dev.sameBut_refl _ _).setObj _ hy (by simp)⟩)
  have hkept : e.obj i y = (s.devAt t).obj i y := hsame _ _ hy ((Bool.or_false _).trans (portObj_apart i 0 hi))
  rw [Dev.obj_setObj_self, hkept]

/-- A clear that zeroes a run of counters and writes one object before it anew from its old value. -/
theorem Clears.zeroesAndRewrites {r : Req} {i u y a z : Nat} {b : ObjBlock} {f : Nat → Nat}
    (hc : Clears r i u b (fun _ _ => false) (fun e => (e.zero i a z).setObj i y (f (e.obj i y)))) {s : State} {t : Nat} {c : Instr}
    (h : s.takes t r i u 1 1 = true) (hexec : exec c s = onBoth s t (fun m d => d.putOne m r i u 1 1)) (hi : 0x1800 ≤ i) (hz : z < 256)
    (hy : y < a) (hy' : y < 256) :
    s.does t c ((i, y) :: span i a z) (fun d => d.zeroed (span i a z) ∧ d.obj i y = f ((s.devAt t).obj i y)) := by
  refine hc.does h hexec (fun _ _ hp => by cases hp) (fun e hsame => ?_)
  have hkept : e.obj i y = (s.devAt t).obj i y := hsame _ _ hy' ((Bool.or_false _).trans (portObj_apart i 0 hi))
  obtain ⟨hzeroed, hword, hrest⟩ := e.zero_then_setObj (i := i) (a := a) (b := z) (u := y) (f (e.obj i y)) hz hy' hy
  exact ⟨⟨hzeroed, hword.trans (by rw [hkept])⟩, hrest⟩

/-! ### The blocks -/

def closureBlock : ObjBlock := ⟨0x2800, 48, .closure, closureRows⟩
def laneBlock : ObjBlock := ⟨0x2840, 16, .lane, laneRows⟩
def chanDiagBlock : ObjBlock := ⟨0x2880, 48, .chanDiag, chanDiagRows⟩
def bankDiagBlock : ObjBlock := ⟨0x28B0, 16, .bankDiag, bankDiagRows⟩
def boostDiagBlock : ObjBlock := ⟨0x28C0, 2, .boostDiag, boostDiagRows⟩
def protectBlock : ObjBlock := ⟨0x28C8, 1, .protect, protectRows⟩
def pressureBlock : ObjBlock := ⟨0x2900, 24, .pressure, pressureRows⟩
def vibrationBlock : ObjBlock := ⟨0x2920, 8, .vibration, vibrationRows⟩

/-- A write to a closure object that leaves the trims alone does nothing more (R292). -/
theorem Dev.closureHook_command {d : Dev} {w : Wr} (hhost : w.host = true) (htrims : w.span 0x14 0x17 = false) : d.closureHook w = d := by
  simp [Dev.closureHook, hhost, htrims]

/-- A write to a pressure channel that leaves its switch, its slot and its pegging alone does nothing more. -/
theorem Dev.pressHook_command {g d : Dev} {w : Wr} (hregs : d.regs = g.regs) (h2 : w.has 0x02 = false) (h3 : w.has 0x03 = false)
    (h4 : w.has 0x04 = false) : Dev.pressHook g d w = d := by
  simp [Dev.pressHook, Dev.obj_congr hregs, h2, h3, h4]

/-- A write to a vibration channel that leaves its switch, its domain and its bands alone does nothing more. -/
theorem Dev.vibHook_command {g d : Dev} {w : Wr} (hregs : d.regs = g.regs)
    (hbands : ∀ k < 4, w.span (0x10 + 8 * k) (0x15 + 8 * k) = false) : Dev.vibHook g d w = d := by
  have hnone : (List.range 4).foldl (fun d k => if w.span (0x10 + 8 * k) (0x15 + 8 * k) then d.bandWritten w.inst k else d) d = d := by
    refine (List.foldl_ext _ (fun d _ => d) d (fun e k hk => ?_)).trans (List.foldl_fixed ..)
    rw [hbands k (List.mem_range.mp hk), if_neg Bool.false_ne_true]
  have hobj := fun i u => Dev.obj_congr hregs i u
  unfold Dev.vibHook
  simp only [hnone, hobj]
  exact if_neg (by simp; omega)

theorem closureClear_clears (r : Req) (n : Fin 48) :
    Clears r (0x2800 + n) 0x29 closureBlock (fun _ _ => false) (fun e => e.closureClear n) :=
  Clears.of_hooks ⟨by revert n; decide, by revert n; decide +kernel⟩ rfl (fun _ _ _ => Dev.closureHook_command rfl (by simp))
    (fun e => by simp [Dev.command, Dev.driveCommand, closureBlock])

theorem laneClear_clears (r : Req) (k : Fin 16) :
    Clears r (0x2840 + k) 0x0C laneBlock (fun _ _ => false) (fun e => e.laneClear k) :=
  Clears.of_quiet ⟨by revert k; decide, by revert k; decide +kernel⟩ rfl rfl (fun e => by simp [Dev.command, Dev.driveCommand, laneBlock])

theorem channelClearFault_clears (r : Req) (n : Fin 48) :
    Clears r (0x2880 + n) 0x13 chanDiagBlock (fun _ _ => false) (fun e => e.channelClearFault n) :=
  Clears.of_quiet ⟨by revert n; decide, by revert n; decide +kernel⟩ rfl rfl (fun e => by simp [Dev.command, Dev.driveCommand, chanDiagBlock])

theorem bankClearFault_clears (r : Req) (b : Fin 16) :
    Clears r (0x28B0 + b) 0x09 bankDiagBlock (fun _ _ => false) (fun e => e.bankClearFault b) :=
  Clears.of_quiet ⟨by revert b; decide, by revert b; decide +kernel⟩ rfl rfl (fun e => by simp [Dev.command, Dev.driveCommand, bankDiagBlock])

theorem channelDiagClear_clears (r : Req) (n : Fin 48) :
    Clears r (0x2880 + n) 0x14 chanDiagBlock (fun _ _ => false) (fun e => e.channelDiagClear n) :=
  Clears.of_quiet ⟨by revert n; decide, by revert n; decide +kernel⟩ rfl rfl (fun e => by simp [Dev.command, Dev.driveCommand, chanDiagBlock])

theorem bankDiagClear_clears (r : Req) (b : Fin 16) :
    Clears r (0x28B0 + b) 0x0A bankDiagBlock (fun _ _ => false) (fun e => e.bankDiagClear b) :=
  Clears.of_quiet ⟨by revert b; decide, by revert b; decide +kernel⟩ rfl rfl (fun e => by simp [Dev.command, Dev.driveCommand, bankDiagBlock])

/-- The word of boost_fault stands as the counters beside it are zeroed. -/
theorem Dev.boostDiagClear_eq (d : Dev) (x : Nat) : d.boostDiagClear x =
    (d.zero (0x28C0 + x) 0x05 0x07).setObj (0x28C0 + x) 0x04 (bitTo (d.obj (0x28C0 + x) 0x04) 2 false) := by
  rw [Dev.boostDiagClear, Dev.setBit, Dev.obj_zero _ (by decide) (by decide), if_neg (by simp)]

theorem boostDiagClear_clears (r : Req) (x : Fin 2) : Clears r (0x28C0 + x) 0x08 boostDiagBlock (fun _ _ => false)
    (fun e => (e.zero (0x28C0 + x) 0x05 0x07).setObj (0x28C0 + x) 0x04 (bitTo (e.obj (0x28C0 + x) 0x04) 2 false)) :=
  Clears.of_quiet ⟨by revert x; decide, by revert x; decide +kernel⟩ rfl rfl
    (fun e => by rw [← Dev.boostDiagClear_eq]; simp [Dev.command, Dev.driveCommand, boostDiagBlock])

theorem protectionClear_clears (r : Req) :
    Clears r 0x28C8 0x0A protectBlock (fun _ _ => false) (fun e => e.protectionClear) :=
  Clears.of_quiet ⟨by decide, by decide +kernel⟩ rfl rfl (fun _ => rfl)

theorem pressureClear_clears (r : Req) (c : Fin 24) :
    Clears r (0x2900 + c) 0x1E pressureBlock (fun _ _ => false) (fun e => e.pressureClear c) :=
  Clears.of_hooks ⟨by revert c; decide, by revert c; decide +kernel⟩ rfl
    (fun _ _ hregs => Dev.pressHook_command (w := oneWr r (0x2900 + c) 0x1E 1 1 pressureBlock) hregs (by simp) (by simp) (by simp))
    (fun e => by simp [Dev.command, Dev.blockCommand, pressureBlock])

theorem vibrationClear_clears (r : Req) (v : Fin 8) :
    Clears r (0x2920 + v) 0x33 vibrationBlock (fun _ _ => false) (fun e => e.vibrationClear v) :=
  Clears.of_hooks ⟨by revert v; decide, by revert v; decide +kernel⟩ rfl
    (fun _ _ hregs => Dev.vibHook_command hregs (fun k hk => by simp; omega))
    (fun e => by simp [Dev.command, Dev.blockCommand, vibrationBlock])

/-! ### A vibration channel -/

/-- The counters of a vibration channel: its clips, and the exceeds of its four bands. -/
abbrev vibCounters (v : Nat) : List (Nat × Nat) :=
  [(0x2920 + v, 0x07), (0x2920 + v, 0x17), (0x2920 + v, 0x1F), (0x2920 + v, 0x27), (0x2920 + v, 0x2F)]

theorem Dev.vibrationClear_leaves (d : Dev) (v : Nat) : (d.vibrationClear v).zeroed (vibCounters v) ∧
    (d.vibrationClear v).obj (0x2920 + v) 0x06 = bitTo (d.obj (0x2920 + v) 0x06) 6 false ∧
    d.sameBut (d.vibrationClear v) (fun j w => ((0x2920 + v, 0x06) :: vibCounters v).contains (j, w)) := by
  have hrange : List.range 4 = [0, 1, 2, 3] := rfl
  unfold Dev.vibrationClear Dev.setBit
  simp only [hrange, List.foldl_cons, List.foldl_nil]
  refine ⟨?_, ?_, ?_⟩
  · rintro ⟨j, w⟩ he
    simp only [List.mem_cons, List.not_mem_nil, or_false, Prod.mk.injEq] at he
    rcases he with ⟨rfl, rfl⟩ | ⟨rfl, rfl⟩ | ⟨rfl, rfl⟩ | ⟨rfl, rfl⟩ | ⟨rfl, rfl⟩ <;> simp [Dev.obj_setObj]
  · simp [Dev.obj_setObj]
  · exact (((((((Dev.sameBut_refl _ _).setObj _ (by decide) (by simp)).setObj _ (by decide) (by simp)).setObj _ (by decide) (by simp)).setObj
      _ (by decide) (by simp)).setObj _ (by decide) (by simp)).setObj _ (by decide) (by simp))

/-! ### The statement -/

/-- Settles O34: each clear is the command of its block, which zeroes a run of counters, writes one word anew, or both. -/
theorem clearsOfSensing : Obligations.ClearsOfSensing := by
  intro s t r d
  refine ⟨fun n h => (closureClear_clears r n).zeroes h rfl (by decide), fun k h => (laneClear_clears r k).zeroes h rfl (by decide),
    fun n h => (channelClearFault_clears r n).rewrites (f := fun w => bitTo w 8 false) h rfl (by omega) (by decide),
    fun b h => (bankClearFault_clears r b).rewrites (f := fun w => bitTo w 4 false) h rfl (by omega) (by decide),
    fun n h => (channelDiagClear_clears r n).zeroesAndRewrites (f := (· &&& 0x100)) h rfl (by omega) (by decide) (by decide) (by decide),
    fun b h => (bankDiagClear_clears r b).zeroesAndRewrites (f := (· &&& 0x18)) h rfl (by omega) (by decide) (by decide) (by decide),
    fun x h => (boostDiagClear_clears r x).zeroesAndRewrites (f := fun w => bitTo w 2 false) h rfl (by omega) (by decide) (by decide) (by decide),
    fun h => (protectionClear_clears r).zeroesAndRewrites (f := (· &&& 0xCF)) h rfl (by omega) (by decide) (by decide) (by decide),
    fun c h => (pressureClear_clears r c).zeroesAndRewrites (f := (· &&& 0x07)) h rfl (by omega) (by decide) (by decide) (by decide),
    fun v h => ?_⟩
  refine (vibrationClear_clears r v).does h rfl (fun _ _ hp => by cases hp) (fun e hsame => ?_)
  have hkept : e.obj (0x2920 + v) 0x06 = d.obj (0x2920 + v) 0x06 := hsame _ _ (by decide) (by simp)
  obtain ⟨hzeroed, hbits, hrest⟩ := e.vibrationClear_leaves v
  exact ⟨⟨hzeroed, hbits.trans (by rw [hkept])⟩, hrest⟩

end Sys2Proof.Machine
end

section
/-! SUPPORT. The records of the capture lanes and of the channels' closure detection: reading after writing, what requests and the shared
operations leave of them, and how a command that takes a value is carried out in a block without a reaction of its own. -/

namespace Sys2Proof.Machine

/-! ### Reading the records -/

theorem Dev.lane_congr {d e : Dev} (h : d.lanes = e.lanes) (k : Nat) : d.lane k = e.lane k := by
  unfold Dev.lane
  rw [h]

theorem Dev.closure_congr {d e : Dev} (h : d.closures = e.closures) (n : Nat) : d.closure n = e.closure n := by
  unfold Dev.closure
  rw [h]

@[simp] theorem Dev.lane_setLane_self (d : Dev) (k : Nat) (l : Lane) : (d.setLane k l).lane k = l := Store.get_put_self ..

@[simp] theorem Dev.closure_setClosure_self (d : Dev) (n : Nat) (c : Closure) : (d.setClosure n c).closure n = c := Store.get_put_self ..

@[simp] theorem Dev.lane_setObj (d : Dev) (i u v k : Nat) : (d.setObj i u v).lane k = d.lane k := Dev.lane_congr rfl k
@[simp] theorem Dev.lane_inc (d : Dev) (i u k : Nat) : (d.inc i u).lane k = d.lane k := Dev.lane_congr rfl k

@[simp] theorem Dev.closure_setObj (d : Dev) (i u v n : Nat) : (d.setObj i u v).closure n = d.closure n := Dev.closure_congr rfl n
@[simp] theorem Dev.closure_setSobj (d : Dev) (w i u : Nat) (v : Int) (n : Nat) : (d.setSobj w i u v).closure n = d.closure n :=
  Dev.closure_congr rfl n
@[simp] theorem Dev.closure_inc (d : Dev) (i u n : Nat) : (d.inc i u).closure n = d.closure n := Dev.closure_congr rfl n

@[simp] theorem Dev.closure_raise (d : Dev) (x n : Nat) : (d.raise x).closure n = d.closure n := by
  refine Dev.closure_congr ?_ n
  unfold Dev.raise
  dsimp only
  split_ifs <;> rfl

@[simp] theorem Dev.closure_cloCause (d : Dev) (clo : List Nat) (b x n : Nat) : (d.cloCause clo b x).closure n = d.closure n := by
  unfold Dev.cloCause Dev.raiseIf
  split
  · exact Dev.closure_raise ..
  · rfl

@[simp] theorem Dev.closure_pulse (d : Dev) (x n : Nat) : (d.pulse x).closure n = d.closure n := by
  refine Dev.closure_congr ?_ n
  unfold Dev.pulse Dev.pulseAt
  split <;> rfl

@[simp] theorem Dev.cloCause_regs (d : Dev) (clo : List Nat) (b x : Nat) : (d.cloCause clo b x).regs = d.regs := Dev.raiseIf_regs ..

@[simp] theorem Dev.cloCause_obj (d : Dev) (clo : List Nat) (b x i u : Nat) : (d.cloCause clo b x).obj i u = d.obj i u :=
  Dev.obj_congr (Dev.cloCause_regs ..) i u

/-! ### The lanes while a request is taken up and answered -/

@[simp] theorem Dev.post_lanes (d : Dev) (m : Msg) : (d.post m).lanes = d.lanes := by
  unfold Dev.post Dev.transmit Dev.resolveHop
  dsimp only
  split_ifs <;> rfl

@[simp] theorem Dev.pulse_lanes (d : Dev) (x : Nat) : (d.pulse x).lanes = d.lanes := by
  unfold Dev.pulse Dev.pulseAt
  split <;> rfl

@[simp] theorem Dev.sendBatch_lanes (d : Dev) (p : Nat) (first : Bool) : (d.sendBatch p first).lanes = d.lanes := by
  unfold Dev.sendBatch
  dsimp only
  split
  · rfl
  · refine (Dev.pulse_lanes ..).trans ((Dev.foldl_keeps Dev.lanes (fun e x => ?_) _ _).trans ?_)
    · split <;> rfl
    · split
      · unfold Dev.postFirst
        split
        · rfl
        · exact Dev.foldl_keeps Dev.lanes (fun e m => e.post_lanes m) _ _
      · exact Dev.foldl_keeps Dev.lanes (fun e m => e.post_lanes m) _ _

@[simp] theorem Dev.frameIn_lanes (d : Dev) (p : Nat) (peer : Bool) : (d.frameIn p peer).lanes = d.lanes := by
  unfold Dev.frameIn Dev.validFrame Dev.leaveDoze
  dsimp only
  split_ifs <;> simp

@[simp] theorem Dev.arrive_lanes (d : Dev) (r : Req) : (d.arrive r).lanes = d.lanes := by
  unfold Dev.arrive
  dsimp only
  split
  · split <;> simp
  · simp

@[simp] theorem Dev.served_lanes (d : Dev) (f : Frame) : (d.served f).lanes = d.lanes := by
  unfold Dev.served Dev.staged
  split <;> simp [Dev.accessBy]

@[simp] theorem Dev.respond_lanes (d : Dev) (f : Frame) (st : Status) (data : List Byte) (first : Bool) :
    (d.respond f st data first).lanes = d.lanes := by
  unfold Dev.respond
  dsimp only
  split_ifs <;> simp

/-! ### A command with a value -/

/-- An accepted command of a block whose hooks do nothing with its write, whatever its value: its action is the last thing that happens, on
a device with the objects of the command's instant but for those of chapter 02, and with its lanes. -/
theorem State.does_of_command {s : State} {t : Nat} {r : Req} {i u v : Nat} {b : ObjBlock} {act : Dev → Dev} {c : Instr}
    {changed : List (Nat × Nat)} {post : Dev → Prop} (h : s.takes t r i u 1 v = true)
    (hexec : exec c s = onBoth s t (fun m d => d.putOne m r i u 1 v)) (hs : b.Starts i u) (hk : b.kind.stores = true)
    (hhook : ∀ g d : Dev, Dev.hooks g d (oneWr r i u 1 v b) = d) (hcmd : ∀ e : Dev, e.command (oneWr r i u 1 v b) u (v % 256) = act e)
    (hact : ∀ e : Dev, (s.devAt t).sameBut e portObjs → e.lanes = (s.devAt t).lanes →
      post (act e) ∧ e.sameBut (act e) (fun j w => changed.contains (j, w))) : s.does t c changed post := by
  obtain ⟨hb, row, hr, hn, hty, -⟩ := id hs
  have hnext := State.requests_of_serves h
  rw [State.answer_of_takes h hb hr hn hty, Dev.applied_startsWith hs hk, hhook, frameUnpad_putFrame] at hnext
  have hanswered : (s.devAt t).sameBut ((((s.devAt t).served (putFrame r i u 1 (leBytes 1 v))).writtenBy r.port i).respond
      (putFrame r i u 1 (leBytes 1 v)) .ok [] false) portObjs :=
    (Dev.served_portObjs _ (putFrame r i u 1 (leBytes 1 v))).regs (Dev.respond_regs _ _ _ _ (by decide))
  have hlanes := (Dev.respond_lanes (((s.devAt t).served (putFrame r i u 1 (leBytes 1 v))).writtenBy r.port i) (putFrame r i u 1 (leBytes 1 v))
    .ok [] false).trans (Dev.served_lanes ..)
  have hacts := (hexec.trans (State.putOne_requests ..)).trans
    (hnext.trans (congrArg (fun d : Dev => Host.Outcome.next { s with dev := d }) (hcmd _)))
  obtain ⟨hpost, hchanged⟩ := hact _ hanswered hlanes
  refine ⟨_, hacts, hpost, rfl, ?_⟩
  exact (hanswered.mono (fun j w hp => by rw [show portObj j = true from hp, Bool.true_or])).trans
    (hchanged.mono (fun j w hp => by rw [hp, Bool.or_true]))

end Sys2Proof.Machine
end

section
/-! SUPPORT. Shot learning (R288, R291): what C3 does with one result, as a failure, as a step of the trim, or not at all, and the reset of
roles. -/

namespace Sys2Proof.Machine

/-! ### Signed words -/

theorem toSigned_bounds (v : Nat) : -2 ^ 31 ≤ toSigned 32 v ∧ toSigned 32 v < 2 ^ 31 := by
  unfold toSigned
  dsimp only
  split <;> omega

/-- An integer that fits is read back from its word. -/
theorem toSigned_ofSigned {i : Int} (hlow : -2 ^ 31 ≤ i) (hhigh : i < 2 ^ 31) : toSigned 32 (ofSigned 32 i) = i := by
  unfold toSigned ofSigned
  dsimp only
  split <;> omega

/-! ### What C3 makes of a result -/

/-- The objects that shot learning writes for a role of a channel: learned-data pending, the role's trim and state, the error, the flags,
and the counts of outliers and of clamps. -/
abbrev learningObjs (n k : Nat) : List (Nat × Nat) :=
  (0x2F20, 0x08) :: (0x2800 + n, 0x14 + k) :: (0x2800 + n, 0x18 + k) ::
    [(0x2800 + n, 0x1E), (0x2800 + n, 0x20), (0x2800 + n, 0x26), (0x2800 + n, 0x27)]

/-- What learning from a result leaves alone: the queue of the results, and the objects that learning does not write. -/
structure Dev.LearnsFor (d u : Dev) (n k : Nat) : Prop where
  queue : (u.closure n).learn = (d.closure n).learn
  rest : d.sameBut u (fun i w => (learningObjs n k).contains (i, w))

theorem Dev.LearnsFor.refl (d : Dev) (n k : Nat) : d.LearnsFor d n k := ⟨rfl, Dev.sameBut_refl _ _⟩

theorem Dev.LearnsFor.trans {d e f : Dev} {n k : Nat} (h : d.LearnsFor e n k) (g : e.LearnsFor f n k) : d.LearnsFor f n k :=
  ⟨g.queue.trans h.queue, h.rest.trans g.rest⟩

/-- A step that changes no object and no queue. -/
theorem Dev.LearnsFor.regs {d e f : Dev} {n k : Nat} (h : d.LearnsFor e n k) (hq : (f.closure n).learn = (e.closure n).learn)
    (hr : f.regs = e.regs) : d.LearnsFor f n k := ⟨hq.trans h.queue, h.rest.regs hr⟩

theorem Dev.LearnsFor.setObj {d e : Dev} {n k i u : Nat} (h : d.LearnsFor e n k) (v : Nat) (hu : u < 256)
    (hmem : (i, u) ∈ learningObjs n k) : d.LearnsFor (e.setObj i u v) n k :=
  ⟨(congrArg Closure.learn (Dev.closure_setObj ..)).trans h.queue, h.rest.setObj v hu (List.contains_iff_mem.mpr hmem)⟩

/-- A result that failed (R288): its role's state may become 3; trims and counts stand. -/
theorem Dev.learnFail_leaves (d : Dev) (clo : List Nat) {n k : Nat} (hk : k < 4) : d.LearnsFor (d.learnFail clo n k) n k ∧
    (d.learnFail clo n k).obj (0x2800 + n) (0x14 + k) = d.obj (0x2800 + n) (0x14 + k) ∧
    (d.learnFail clo n k).obj (0x2800 + n) 0x26 = d.obj (0x2800 + n) 0x26 := by
  unfold Dev.learnFail
  extract_lets i c f failed
  have hfailed : d.LearnsFor failed n k := (Dev.LearnsFor.refl d n k).regs (by simp [failed, c]) rfl
  split
  · refine ⟨(hfailed.setObj (i := i) (u := 0x18 + k) 3 (by omega) (by simp [i])).regs (by simp) (by simp), ?_, ?_⟩
    all_goals
      rw [Dev.cloCause_obj, Dev.obj_setObj_sub _ _ (by omega) (by omega) (by omega)]
      exact Dev.obj_congr rfl ..
  · exact ⟨hfailed, Dev.obj_congr rfl .., Dev.obj_congr rfl ..⟩

theorem Dev.trimMoved_leaves (d : Dev) {n : Nat} (hn : n < 48) (k : Nat) : d.LearnsFor (d.trimMoved n k) n k ∧
    ∀ u < 256, (d.trimMoved n k).obj (0x2800 + n) u = d.obj (0x2800 + n) u := by
  unfold Dev.trimMoved Dev.learnPend Dev.setBit
  split
  · exact ⟨(Dev.LearnsFor.refl d n k).setObj _ (by decide) (by simp), fun u hu => Dev.obj_setObj_idx _ _ (by decide) hu (by omega)⟩
  · exact ⟨Dev.LearnsFor.refl d n k, fun _ _ => rfl⟩

/-- A trim update (R288). -/
theorem Dev.learnStep_leaves (d : Dev) (clo : List Nat) {n k : Nat} (hn : n < 48) (hk : k < 4) (err : Int) :
    let raw := Int.tdiv (err * (cloOf clo 0x0C : Nat)) 256
    let most : Int := (cloOf clo 0x0D : Nat)
    let step := if most < raw.natAbs then (if err < 0 then -most else most) else raw
    let lo := toSigned 32 (cloOf clo 0x0E)
    let hi := toSigned 32 (cloOf clo 0x0F)
    let u := (d.learnStep clo n k err).1
    d.LearnsFor u n k ∧ u.trim n k = min hi (max (d.trim n k - step) lo) ∧
      (u.obj (0x2800 + n) (0x18 + k) = 1 ∨ u.obj (0x2800 + n) (0x18 + k) = 2) := by
  intro raw most step lo hi u
  have hfits : ∀ x : Int, toSigned 32 (ofSigned 32 (min hi (max x lo))) = min hi (max x lo) := fun x => by
    have hlo := toSigned_bounds (cloOf clo 0x0E)
    have hhi := toSigned_bounds (cloOf clo 0x0F)
    exact toSigned_ofSigned (by omega) (by omega)
  unfold u Dev.learnStep
  extract_lets i c stepClamped step' t atLimit t' inb noted trimmed counted raised moved
  have ht : t' = min hi (max (d.trim n k - step) lo) := by simp [t', t, step', step, stepClamped]
  have htrimmed : d.LearnsFor trimmed n k ∧ trimmed.obj i (0x14 + k) = ofSigned 32 t' :=
    ⟨((Dev.LearnsFor.refl d n k).regs (f := noted) (by simp [noted, c]) rfl).setObj _ (by omega) (by simp [i]), Dev.obj_setObj_self ..⟩
  have hcounted : d.LearnsFor counted n k ∧ counted.obj i (0x14 + k) = ofSigned 32 t' := by
    unfold counted
    split
    · exact ⟨htrimmed.1.setObj _ (by decide) (by simp [i]),
        (Dev.obj_setObj_sub _ _ (by decide) (by omega) (by omega)).trans htrimmed.2⟩
    · exact htrimmed
  have hraised : d.LearnsFor raised n k ∧ raised.obj i (0x14 + k) = ofSigned 32 t' := by
    unfold raised
    split
    · exact ⟨hcounted.1.regs (by simp) (by simp), (Dev.cloCause_obj ..).trans hcounted.2⟩
    · exact hcounted
  have hmoved : d.LearnsFor moved n k ∧ moved.obj i (0x14 + k) = ofSigned 32 t' ∧
      (moved.obj i (0x18 + k) = 1 ∨ moved.obj i (0x18 + k) = 2) := by
    unfold moved
    refine ⟨(hraised.1.setObj (i := i) (u := 0x18 + k) _ (by omega) (by simp [i])).regs (by simp) (Dev.pulse_regs ..), ?_, ?_⟩
    · rw [Dev.pulse_obj, Dev.obj_setObj_sub _ _ (by omega) (by omega) (by omega), hraised.2]
    · rw [Dev.pulse_obj, Dev.obj_setObj_self]
      split <;> simp
  obtain ⟨hlearns, hkept⟩ := moved.trimMoved_leaves hn k
  obtain ⟨hmoves, hword, hstate⟩ := hmoved
  refine ⟨hmoves.trans hlearns, ?_, ?_⟩
  · rw [Dev.trim, Dev.sobj, hkept _ (by omega), hword, ht, hfits]
  · rwa [hkept _ (by omega)]

/-! ### One result -/

/-- What C3 makes of one result while learning is on (R288, R289): the device, and the flags that it adds to the result. -/
def Dev.learnFrom (d : Dev) (n : Nat) (r : CloRes) : Dev × Nat :=
  let err : Int := (r.hyd : Int) - r.duration
  let d := if r.excluded || !r.flags.testBit 0 then d else d.setSobj 32 (0x2800 + n) 0x1E err
  if r.excluded then (d, 64)
  else if !r.flags.testBit 0 then (d.learnFail r.clo n r.role, 0)
  else if cloOf r.clo 0x11 < err.natAbs then ((d.inc (0x2800 + n) 0x26).learnFail r.clo n r.role, 128)
  else d.learnStep r.clo n r.role err

section
variable {d : Dev} {n : Nat} {r : CloRes}

theorem Dev.learnFrom_excluded (hex : r.excluded = true) : d.learnFrom n r = (d, 64) := by
  simp [Dev.learnFrom, hex]

theorem Dev.learnFrom_undetected (hex : r.excluded = false) (hfound : r.flags.testBit 0 = false) :
    d.learnFrom n r = (d.learnFail r.clo n r.role, 0) := by
  simp [Dev.learnFrom, hex, hfound]

theorem Dev.learnFrom_outlier (hex : r.excluded = false) (hfound : r.flags.testBit 0 = true)
    (hout : cloOf r.clo 0x11 < ((r.hyd : Int) - r.duration).natAbs) : d.learnFrom n r =
      (((d.setSobj 32 (0x2800 + n) 0x1E ((r.hyd : Int) - r.duration)).inc (0x2800 + n) 0x26).learnFail r.clo n r.role, 128) := by
  simp [Dev.learnFrom, hex, hfound, hout]

theorem Dev.learnFrom_counts (hex : r.excluded = false) (hfound : r.flags.testBit 0 = true)
    (hin : ((r.hyd : Int) - r.duration).natAbs ≤ cloOf r.clo 0x11) : d.learnFrom n r =
      (d.setSobj 32 (0x2800 + n) 0x1E ((r.hyd : Int) - r.duration)).learnStep r.clo n r.role ((r.hyd : Int) - r.duration) := by
  simp [Dev.learnFrom, hex, hfound, Nat.not_lt.mpr hin]

/-- The error of a result is noted, and then the result is learned from or not. -/
theorem Dev.learnsFor_error (d : Dev) (n k : Nat) (err : Int) : d.LearnsFor (d.setSobj 32 (0x2800 + n) 0x1E err) n k :=
  (Dev.LearnsFor.refl d n k).setObj _ (by decide) (by simp)

/-- A result that counts moves no other object than those of its role. -/
theorem Dev.learnFrom_leaves (d : Dev) (hn : n < 48) (hr : r.role < 4) : d.LearnsFor (d.learnFrom n r).1 n r.role := by
  have herror := d.learnsFor_error n r.role ((r.hyd : Int) - r.duration)
  cases hex : r.excluded with
  | true =>
    rw [Dev.learnFrom_excluded hex]
    exact Dev.LearnsFor.refl d n r.role
  | false =>
    cases hfound : r.flags.testBit 0 with
    | false =>
      rw [Dev.learnFrom_undetected hex hfound]
      exact (Dev.learnFail_leaves d r.clo hr).1
    | true =>
      by_cases hout : cloOf r.clo 0x11 < ((r.hyd : Int) - r.duration).natAbs
      · rw [Dev.learnFrom_outlier hex hfound hout]
        exact (herror.setObj _ (by decide) (by simp)).trans (Dev.learnFail_leaves _ r.clo hr).1
      · rw [Dev.learnFrom_counts hex hfound (by omega)]
        exact herror.trans (Dev.learnStep_leaves _ r.clo hn hr _).1

theorem Dev.trim_of_obj {d e : Dev} {n k : Nat} (h : e.obj (0x2800 + n) (0x14 + k) = d.obj (0x2800 + n) (0x14 + k)) :
    e.trim n k = d.trim n k := congrArg (toSigned 32) h

/-- The trims stand under a write behind them. -/
theorem Dev.trim_setObj (d : Dev) (n : Nat) {k u : Nat} (v : Nat) (hk : k < 4) (hu : 0x18 ≤ u) (hu' : u < 256) :
    (d.setObj (0x2800 + n) u v).trim n k = d.trim n k :=
  Dev.trim_of_obj (Dev.obj_setObj_sub _ _ hu' (by omega) (by omega))

/-- A result that does not count moves no trim (R288, R289). -/
theorem Dev.learnFrom_trim_stands (d : Dev) (hr : r.role < 4) (h : r.excluded = true ∨ r.flags.testBit 0 = false ∨
    cloOf r.clo 0x11 < ((r.hyd : Int) - r.duration).natAbs) : (d.learnFrom n r).1.trim n r.role = d.trim n r.role := by
  cases hex : r.excluded with
  | true => rw [Dev.learnFrom_excluded hex]
  | false =>
    cases hfound : r.flags.testBit 0 with
    | false =>
      rw [Dev.learnFrom_undetected hex hfound]
      exact Dev.trim_of_obj (Dev.learnFail_leaves d r.clo hr).2.1
    | true =>
      have hout : cloOf r.clo 0x11 < ((r.hyd : Int) - r.duration).natAbs := by simpa [hex, hfound] using h
      rw [Dev.learnFrom_outlier hex hfound hout, Dev.trim_of_obj (Dev.learnFail_leaves _ r.clo hr).2.1, Dev.inc, Dev.setSobj,
        Dev.trim_setObj _ _ _ hr (by decide) (by decide), Dev.trim_setObj _ _ _ hr (by decide) (by decide)]

/-- A result off the window is counted as an outlier (R288). -/
theorem Dev.learnFrom_outlier_counted (d : Dev) (hr : r.role < 4) (hex : r.excluded = false) (hfound : r.flags.testBit 0 = true)
    (hout : cloOf r.clo 0x11 < ((r.hyd : Int) - r.duration).natAbs) :
    (d.learnFrom n r).1.obj (0x2800 + n) 0x26 = satInc32 (d.obj (0x2800 + n) 0x26) := by
  rw [Dev.learnFrom_outlier hex hfound hout, (Dev.learnFail_leaves _ r.clo hr).2.2, Dev.inc, Dev.obj_setObj_self, Dev.setSobj,
    Dev.obj_setObj_sub _ _ (by decide) (by decide) (by decide)]

/-! ### The oldest result that waits -/

/-- The device once C3 has taken a result off its queue. -/
def Dev.resultTaken (d : Dev) (n : Nat) (rest : List CloRes) : Dev := d.setClosure n { (d.closure n) with learn := rest }

variable {rest : List CloRes}

/-- With learning off a result is taken and no more. -/
theorem Dev.shotLearning_off (hruns : d.runs 10 = true) (hup : d.coreDown 3 = false) (hlearn : (d.closure n).learn = r :: rest)
    (hoff : cloOf r.clo 0x0B = 0) : d.shotLearning n = (d.resultTaken n rest, .none) := by
  simp [Dev.shotLearning, hlearn, hruns, hup, hoff, Dev.resultTaken]

/-- With learning on a result is taken and learned from; the record and the flags follow where they still show it. -/
theorem Dev.shotLearning_on (hruns : d.runs 10 = true) (hup : d.coreDown 3 = false) (hlearn : (d.closure n).learn = r :: rest)
    (hon : cloOf r.clo 0x0B ≠ 0) : d.shotLearning n =
      (let p := (d.resultTaken n rest).learnFrom n r
       let e := (p.1.accessBy 11).writtenBy 11 (0x2800 + n)
       if r.serial = (d.closure n).written then
         (e.setObj (0x2800 + n) 0x20 (e.obj (0x2800 + n) 0x20 ||| p.2),
           { writes := [(cloAddr n + 12, leBytes 4 (e.obj (0x2800 + n) 0x1E)), (cloAddr n + 20, leBytes 2 (r.flags ||| p.2))] })
       else (e, .none)) := by
  unfold Dev.shotLearning
  simp only [hlearn, hruns, hup, hon, Bool.not_true, Bool.or_self, Bool.false_eq_true, if_false]
  rfl

/-- What the processing of a result leaves: its queue without it, the objects of its role, and in the Loft its error and its flags. -/
theorem Dev.shotLearning_leaves (hruns : d.runs 10 = true) (hup : d.coreDown 3 = false) (hlearn : (d.closure n).learn = r :: rest)
    (hon : cloOf r.clo 0x0B ≠ 0) : ∃ (u : Dev) (eff : LoftEff), d.shotLearning n = (u, eff) ∧
      (u.closure n).learn = (((d.resultTaken n rest).learnFrom n r).1.closure n).learn ∧
      ((d.resultTaken n rest).learnFrom n r).1.sameBut u (fun i w => [(0x2800 + n, 0x20)].contains (i, w)) ∧
      ∀ m q, ¬(cloAddr n + 12 ≤ q ∧ q < cloAddr n + 16) → ¬(cloAddr n + 20 ≤ q ∧ q < cloAddr n + 22) →
        loftByte (eff.apply m) q = loftByte m q := by
  rw [Dev.shotLearning_on hruns hup hlearn hon]
  extract_lets p e
  have hclosure : e.closure n = p.1.closure n := rfl
  have hregs : e.regs = p.1.regs := rfl
  clear_value e
  split
  · refine ⟨_, _, rfl, by rw [Dev.closure_setObj, hclosure], (Dev.sameBut_of_regs hregs).setObj _ (by decide) (by simp),
      fun m q herror hflags => ?_⟩
    show loftByte (loftPut (loftPut m _ _) _ _) q = loftByte m q
    rw [loftByte_put_out (by rwa [leBytes_length]), loftByte_put_out (by rwa [leBytes_length])]
  · exact ⟨e, .none, rfl, by rw [hclosure], Dev.sameBut_of_regs hregs, fun _ _ _ _ => rfl⟩

end

/-! ### The reset of roles -/

/-- A role of a channel takes trim_init and learn_state 0 (R291). -/
def Dev.resetRole (d : Dev) (n k : Nat) : Dev :=
  let c := d.closure n
  let e := d.setClosure n { c with fails := Store.put (fun _ => 0) c.fails k 0, inband := Store.put (fun _ => 0) c.inband k 0 }
  (e.setObj (0x2800 + n) (0x14 + k) (e.obj (0x2800 + n) 0x10)).setObj (0x2800 + n) (0x18 + k) 0

theorem Dev.resetLearning_eq (d : Dev) (n mask : Nat) : d.resetLearning n mask =
    (let e := (maskBits 4 mask).foldl (fun d k => d.resetRole n k) d
     if mask % 16 = 0 then e else e.learnPend) := rfl

theorem Dev.obj_resetRole (d : Dev) (n : Nat) {k j w : Nat} (hk : k < 4) (hw : w < 256) : (d.resetRole n k).obj j w =
    if j = 0x2800 + n ∧ w = 0x18 + k then 0 else if j = 0x2800 + n ∧ w = 0x14 + k then d.obj (0x2800 + n) 0x10 else d.obj j w := by
  unfold Dev.resetRole
  extract_lets c e
  have hobj : ∀ i u, e.obj i u = d.obj i u := fun i u => Dev.obj_congr rfl i u
  rw [Dev.obj_setObj _ _ (by omega) hw, Dev.obj_setObj _ _ (by omega) hw, hobj, hobj]

/-- The reset of several roles: those named take trim_init and state 0, the others and every other object stand. -/
theorem Dev.resetRoles_obj (n : Nat) {l : List Nat} (hl : ∀ k ∈ l, k < 4) (d : Dev) :
    (∀ k < 4, (l.foldl (fun d k => d.resetRole n k) d).obj (0x2800 + n) (0x14 + k) =
        (if k ∈ l then d.obj (0x2800 + n) 0x10 else d.obj (0x2800 + n) (0x14 + k)) ∧
      (l.foldl (fun d k => d.resetRole n k) d).obj (0x2800 + n) (0x18 + k) = if k ∈ l then 0 else d.obj (0x2800 + n) (0x18 + k)) ∧
    d.sameBut (l.foldl (fun d k => d.resetRole n k) d) (fun j w => (span (0x2800 + n) 0x14 0x1B).contains (j, w)) := by
  induction l generalizing d with
  | nil => exact ⟨fun _ _ => ⟨rfl, rfl⟩, Dev.sameBut_refl _ _⟩
  | cons k l ih =>
    have hk : k < 4 := hl k (List.mem_cons_self ..)
    obtain ⟨hroles, hrest⟩ := ih (fun x hx => hl x (List.mem_cons_of_mem _ hx)) (d.resetRole n k)
    refine ⟨fun j hj => ?_, Dev.sameBut.trans (fun i w hw hout => ?_) hrest⟩
    · obtain ⟨htrim, hstate⟩ := hroles j hj
      have hinit : (d.resetRole n k).obj (0x2800 + n) 0x10 = d.obj (0x2800 + n) 0x10 := by
        rw [Dev.obj_resetRole _ _ hk (by decide), if_neg (by omega), if_neg (by omega)]
      rw [List.foldl_cons, htrim, hstate, hinit, Dev.obj_resetRole _ _ hk (by omega), Dev.obj_resetRole _ _ hk (by omega)]
      by_cases hjk : j = k
      · simp [hjk]
      · simp [hjk, show 20 + j ≠ 24 + k by omega, show 24 + j ≠ 20 + k by omega]
    · have hspan : ¬(i = 0x2800 + n ∧ 0x14 ≤ w ∧ w ≤ 0x1B) := fun h => by simp [mem_span.mpr h] at hout
      rw [Dev.obj_resetRole _ _ hk hw, if_neg (by omega), if_neg (by omega)]

/-- RESET_LEARNING resets the roles of its mask, and is a learned-data trigger (R291, R292). -/
theorem Dev.resetLearning_leaves (d : Dev) {n : Nat} (hn : n < 48) (mask : Nat) :
    (∀ k < 4, if mask.testBit k
      then (d.resetLearning n mask).obj (0x2800 + n) (0x14 + k) = d.obj (0x2800 + n) 0x10 ∧
        (d.resetLearning n mask).obj (0x2800 + n) (0x18 + k) = 0
      else (d.resetLearning n mask).obj (0x2800 + n) (0x14 + k) = d.obj (0x2800 + n) (0x14 + k) ∧
        (d.resetLearning n mask).obj (0x2800 + n) (0x18 + k) = d.obj (0x2800 + n) (0x18 + k)) ∧
    d.sameBut (d.resetLearning n mask) (fun j w => ((0x2F20, 0x08) :: span (0x2800 + n) 0x14 0x1B).contains (j, w)) := by
  have hmask : ∀ k, k ∈ maskBits 4 mask ↔ k < 4 ∧ mask.testBit k = true := fun k => by simp [maskBits]
  obtain ⟨hroles, hrest⟩ := Dev.resetRoles_obj n (fun k hk => ((hmask k).mp hk).1) d
  have hmono := hrest.mono (Q := fun j w => ((0x2F20, 0x08) :: span (0x2800 + n) 0x14 0x1B).contains (j, w))
    (fun j w h => by rw [List.contains_cons, h, Bool.or_true])
  rw [Dev.resetLearning_eq]
  extract_lets e
  have hpend : ∀ u < 256, (if mask % 16 = 0 then e else e.learnPend).obj (0x2800 + n) u = e.obj (0x2800 + n) u := fun u hu => by
    split
    · rfl
    · exact Dev.obj_setObj_idx _ _ (by decide) hu (by omega)
  refine ⟨fun k hk => ?_, ?_⟩
  · obtain ⟨htrim, hstate⟩ := hroles k hk
    rw [hpend _ (by omega), hpend _ (by omega), htrim, hstate]
    simp only [hmask]
    split <;> simp_all
  · split
    · exact hmono
    · exact hmono.setObj _ (by decide) (by simp)

/-! ### The statement -/

theorem closureBlock_starts_reset (n : Fin 48) : closureBlock.Starts (0x2800 + n) 0x28 := ⟨by revert n; decide, by revert n; decide +kernel⟩

/-- A command with an effect on the device and on the Loft, once it is known what both become. -/
theorem State.exec_of_both {s : State} {t : Nat} {c : Instr} {f : Store Byte → Dev → Dev × LoftEff} {u : Dev} {eff : LoftEff}
    (hexec : exec c s = onBoth s t f) (heff : f s.loft (s.devAt t) = (u, eff)) :
    exec c s = .next { s with dev := u, loft := eff.apply s.loft } := by
  unfold State.devAt at heff
  rw [hexec, onBoth, heff]

/-- Settles O33: what C3 makes of the oldest result is nothing, a failure, or a step of the trim; a reset writes the named roles. -/
theorem trimsLearn : Obligations.TrimsLearn := by
  intro s t n d i
  refine ⟨?_, fun r mask h => ?_⟩
  · intro r rest hruns hup hlearn hrole err raw most step lo hi
    have htaken : (d.resultTaken n rest).regs = d.regs := rfl
    have hqueue : ((d.resultTaken n rest).closure n).learn = rest := by simp [Dev.resultTaken]
    by_cases hon : cloOf r.clo 0x0B = 0
    · refine ⟨_, State.exec_of_both (f := fun _ d => d.shotLearning n) rfl (Dev.shotLearning_off hruns hup hlearn hon), hqueue, fun _ _ _ => rfl,
        Dev.sameBut_of_regs htaken, fun _ => Dev.sameBut_of_regs htaken, fun h => absurd hon h⟩
    · obtain ⟨u, eff, hdev, hkept, hflags, hloft⟩ := Dev.shotLearning_leaves hruns hup hlearn hon
      have hleaves := (d.resultTaken n rest).learnFrom_leaves n.isLt hrole
      have hobj : ∀ w < 256, w ≠ 0x20 → u.obj i w = ((d.resultTaken n rest).learnFrom n r).1.obj i w := fun w hw hne =>
        hflags i w hw (by simpa [i] using hne)
      have htrim : u.trim n r.role = ((d.resultTaken n rest).learnFrom n r).1.trim n r.role :=
        Dev.trim_of_obj (hobj _ (by omega) (by omega))
      refine ⟨_, State.exec_of_both (f := fun _ d => d.shotLearning n) rfl hdev, hkept.trans (hleaves.queue.trans hqueue), fun q => hloft s.loft q, ?_, fun h => absurd h hon,
        fun _ => ⟨fun hnot => ?_, fun hex hfound hout => ?_, fun hex hfound hin _ _ => ?_⟩⟩
      · exact (Dev.sameBut_of_regs htaken).trans (hleaves.rest.trans (hflags.mono (fun j w h => by
          obtain ⟨rfl, rfl⟩ : j = i ∧ w = 0x20 := by simpa using h
          simp [i])))
      · rw [htrim, Dev.learnFrom_trim_stands _ hrole hnot]
        exact Dev.trim_of_obj (Dev.obj_congr htaken ..)
      · rw [hobj _ (by decide) (by decide), Dev.learnFrom_outlier_counted _ hrole hex hfound hout]
        exact congrArg satInc32 (Dev.obj_congr htaken ..)
      · obtain ⟨-, hmoved, hstate⟩ := ((d.resultTaken n rest).setSobj 32 (0x2800 + n) 0x1E err).learnStep_leaves r.clo n.isLt hrole err
        rw [← Dev.learnFrom_counts hex hfound hin] at hmoved hstate
        have herror : ((d.resultTaken n rest).setSobj 32 (0x2800 + n) 0x1E err).trim n r.role = d.trim n r.role :=
          (Dev.trim_setObj _ _ _ hrole (by decide) (by decide)).trans (Dev.trim_of_obj (Dev.obj_congr htaken ..))
        rw [herror] at hmoved
        exact ⟨htrim.trans hmoved, by rwa [hobj _ (by omega) (by omega)]⟩
  · refine State.does_of_command (act := fun e => e.resetLearning n (mask % 256)) h rfl (closureBlock_starts_reset n) rfl
      (fun _ _ => Dev.closureHook_command rfl (by simp)) (fun e => by simp [Dev.command, Dev.driveCommand, closureBlock, i])
      (fun e hsame _ => ?_)
    obtain ⟨hroles, hrest⟩ := e.resetLearning_leaves n.isLt (mask % 256)
    refine ⟨fun k hk => ?_, hrest⟩
    have hkept : ∀ w < 256, e.obj i w = d.obj i w := fun w hw => hsame i w hw (portObj_apart _ _ (by decide))
    have hbit : (mask % 256).testBit k = mask.testBit k := by
      rw [show (256 : Nat) = 2 ^ 8 from rfl, Nat.testBit_mod_two_pow]
      simp
      omega
    have hrole := hroles k hk
    rw [hbit, hkept 0x10 (by decide), hkept (0x14 + k) (by omega), hkept (0x18 + k) (by omega)] at hrole
    exact hrole

end Sys2Proof.Machine
end

section
/-! SUPPORT. Captures and results (R273 to R275, R282, R284, R286, R297): what each command of a lane leaves in its record and its object,
and how a result comes to its record in the Loft, to its object and to C3. -/

namespace Sys2Proof.Machine

/-! ### Results that wait -/

@[simp] theorem Dev.cloQueue_regs (d : Dev) (n : Nat) (r : CloRes) : (d.cloQueue n r).regs = d.regs := rfl

@[simp] theorem Dev.cloQueue_obj (d : Dev) (n : Nat) (r : CloRes) (i u : Nat) : (d.cloQueue n r).obj i u = d.obj i u := Dev.obj_congr rfl i u

@[simp] theorem Dev.lane_cloQueue (d : Dev) (n : Nat) (r : CloRes) (k : Nat) : (d.cloQueue n r).lane k = d.lane k := Dev.lane_congr rfl k

@[simp] theorem Dev.cloQueue_res (d : Dev) (n : Nat) (r : CloRes) : ((d.cloQueue n r).closure n).res = (d.closure n).res ++ [r] := by
  simp [Dev.cloQueue]

/-! ### Lanes -/

section
variable {d : Dev} {k : Nat} {c : Cap}

/-- Sample 0 of a capture (R273): the first edge of the converter clock at or after its start. -/
def Cap.firstEdge (c : Cap) : Nat := (c.start + 255) / 256 * 256

theorem Cap.firstEdge_bounds (c : Cap) : c.start ≤ c.firstEdge ∧ c.firstEdge < c.start + 256 ∧ c.firstEdge % 256 = 0 := by
  unfold Cap.firstEdge
  omega

theorem Dev.captureStart_begins (hruns : d.runs 10 = true) (hres : (d.lane k).res = some c) (hcap : (d.lane k).cap = none)
    (hstart : c.start ≤ d.now) (hfree : (d.lane k).held = false) : d.captureStart k =
      (d.setLane k { (d.lane k) with res := none, cap := some { c with t0 := c.firstEdge } }).setObj (0x2840 + k) 0x03 c.chan := by
  simp [Dev.captureStart, hres, hcap, hruns, hstart, hfree, Cap.firstEdge]

theorem Dev.captureStart_held (hruns : d.runs 10 = true) (hres : (d.lane k).res = some c) (hcap : (d.lane k).cap = none)
    (hstart : c.start ≤ d.now) (hheld : (d.lane k).held = true) : d.captureStart k =
      (d.setLane k { (d.lane k) with res := none }).cloQueue c.chan (d.aborted c k false) := by
  simp [Dev.captureStart, hres, hcap, hruns, hstart, hheld]

theorem Dev.laneOverrun_abandons (hruns : d.runs 10 = true) (hcap : (d.lane k).cap = some c) : d.laneOverrun k =
    ((d.setLane k ((d.lane k).finish d.now none)).inc (0x2840 + k) 0x06).cloQueue c.chan (d.aborted c k true) := by
  simp [Dev.laneOverrun, hcap, hruns]

/-- The lane's object once a capture has ended: captures, last_t0, last_len, last_shot (R275, R297). -/
def Dev.captureShown (d : Dev) (k : Nat) (c : Cap) (len : Nat) : Dev :=
  (((d.inc (0x2840 + k) 0x05).setObj (0x2840 + k) 0x08 c.t0).setObj (0x2840 + k) 0x09 len).setObj (0x2840 + k) 0x0B c.shot

theorem Dev.captureEnd_stores {xs : List Nat} (hruns : d.runs 10 = true) (hcap : (d.lane k).cap = some c) (hstop : c.stop ≤ d.now) :
    d.captureEnd k xs =
      (((d.accessBy 14).setLane k ((d.lane k).finish c.stop (some { c with samples := (xs.take (c.count c.stop)).length }))).captureShown k c
        (xs.take (c.count c.stop)).length, { writes := [(0x28000 * k, sampleBytes (xs.take (c.count c.stop)))] }) := by
  simp [Dev.captureEnd, hcap, hruns, hstop, Dev.captureShown]

theorem Dev.captureShown_shows (d : Dev) (k : Nat) (c : Cap) (len : Nat) :
    (d.captureShown k c len).obj (0x2840 + k) 0x05 = satInc32 (d.obj (0x2840 + k) 0x05) ∧
    (d.captureShown k c len).obj (0x2840 + k) 0x08 = c.t0 ∧ (d.captureShown k c len).obj (0x2840 + k) 0x09 = len ∧
    (d.captureShown k c len).obj (0x2840 + k) 0x0B = c.shot ∧
    d.sameBut (d.captureShown k c len)
      (fun i w => [(0x2840 + k, 0x05), (0x2840 + k, 0x08), (0x2840 + k, 0x09), (0x2840 + k, 0x0B)].contains (i, w)) := by
  unfold Dev.captureShown
  refine ⟨?_, ?_, ?_, Dev.obj_setObj_self .., ?_⟩
  · simp [Dev.obj_setObj, Dev.obj_inc]
  · simp [Dev.obj_setObj]
  · simp [Dev.obj_setObj]
  · exact ((((Dev.sameBut_refl _ _).inc (by decide) (by simp)).setObj _ (by decide) (by simp)).setObj _ (by decide) (by simp)).setObj _
      (by decide) (by simp)

theorem Dev.kinkSearch_queues {rest : List Cap} (m : Store Byte) (hruns : d.runs 10 = true) (hsearch : (d.lane k).toSearch = c :: rest)
    (hended : c.clo.getD 0 0 ≠ 1 ∨ c.decayEnd.isSome = true) :
    d.kinkSearch m k = (d.setLane k { (d.lane k) with toSearch := rest }).cloQueue c.chan (d.kinkResult m k c) := by
  have hready : (decide (c.clo.getD 0 0 = 1) && c.decayEnd.isNone) = false := by
    rcases hended with h | h
    · rw [decide_eq_false h, Bool.false_and]
    · rw [Option.isNone_eq_false_iff.mpr h, Bool.and_false]
  unfold Dev.kinkSearch
  simp only [hsearch, hruns, hready, Bool.not_true, Bool.or_self, Bool.false_eq_true, if_false]

end

/-! ### Hold and release -/

theorem laneBlock_starts_hold (k : Fin 16) : laneBlock.Starts (0x2840 + k) 0x07 := ⟨by revert k; decide, by revert k; decide +kernel⟩

/-- An accepted hold or release of a lane changes its record alone. -/
theorem State.does_of_laneHold {s : State} {t : Nat} {r : Req} {k : Fin 16} {v : Nat} {c : Instr} {post : Dev → Prop}
    (h : s.takes t r (0x2840 + k) 0x07 1 v = true) (hexec : exec c s = onBoth s t (fun m d => d.putOne m r (0x2840 + k) 0x07 1 v))
    (hpost : ∀ e : Dev, e.lanes = (s.devAt t).lanes → post (e.laneHold k (v % 256))) : s.does t c [] post := by
  refine State.does_of_command (act := fun e => e.laneHold k (v % 256)) h hexec (laneBlock_starts_hold k) rfl
    (fun g d => Dev.hooks_quiet g d rfl) (fun e => by simp [Dev.command, Dev.driveCommand, laneBlock])
    (fun e _ hlanes => ⟨hpost e hlanes, Dev.sameBut_of_regs ?_⟩)
  unfold Dev.laneHold
  dsimp only
  split_ifs <;> rfl

theorem Dev.laneHold_holds (d : Dev) (k : Nat) : (d.laneHold k 1).lane k =
    if (d.lane k).cap.isSome then { (d.lane k) with holdAfter := true } else { (d.lane k) with held := true } := by
  unfold Dev.laneHold
  dsimp only
  rw [if_pos rfl]
  split <;> simp

theorem Dev.laneHold_releases (d : Dev) (k : Nat) : (d.laneHold k 2).lane k = { (d.lane k) with held := false, holdAfter := false } := by
  simp [Dev.laneHold]

/-! ### The record of a result in the Loft -/

theorem CloRes.bytes_length (r : CloRes) (err : Nat) : (r.bytes err).length = 26 := by simp [CloRes.bytes]

theorem sampleBytes_length (xs : List Nat) : (sampleBytes xs).length = 2 * xs.length := by
  induction xs with
  | nil => rfl
  | cons x xs ih =>
    rw [sampleBytes, List.map_cons, List.flatten_cons, List.length_append, leBytes_length, List.length_cons]
    unfold sampleBytes at ih
    omega

/-- Runs that are written before another one. -/
theorem LoftEff.apply_append_one (l : List (Nat × List Byte)) (a : Nat) (bs : List Byte) (m : Store Byte) :
    LoftEff.apply { writes := l ++ [(a, bs)] } m = loftPut (LoftEff.apply { writes := l } m) a bs := by
  simp [LoftEff.apply, List.foldl_append]

/-- What an abandoned capture left lies in its lane's buffer, as far as it had sampled (R274). -/
theorem Dev.partSamples_inside (d : Dev) (r : CloRes) (m : Store Byte) {q : Nat}
    (h : ¬(0x28000 * r.lane ≤ q ∧ q < 0x28000 * r.lane + 2 * r.taken)) :
    loftByte (LoftEff.apply { writes := d.partSamples r } m) q = loftByte m q := by
  unfold Dev.partSamples
  dsimp only
  split
  · rfl
  · rw [LoftEff.apply_one, loftByte_put_out (by rwa [sampleBytes_length, List.length_map, List.length_range])]

/-! ### The object of a channel -/

/-- The objects in which a result stands, and those that count results without a close time. -/
abbrev shownObjs (i : Nat) : List (Nat × Nat) := [(i, 0x1C), (i, 0x1D), (i, 0x1F), (i, 0x20), (i, 0x21), (i, 0x22)]
abbrev countedObjs (i : Nat) : List (Nat × Nat) := [(i, 0x23), (i, 0x24)]

/-- The object of a channel once a result stands in it (R286, R296): last_close_time to last_lane, and the count of results. -/
def Dev.resultShown (d : Dev) (i : Nat) (r : CloRes) : Dev :=
  (((((d.setObj i 0x1C r.close).setObj i 0x1D r.hyd).setSobj 32 i 0x1F r.kink).setObj i 0x20 r.flags).setObj i 0x21 r.lane).inc i 0x22

/-- A result that found nothing, or a peak at the window's edge, is counted and may raise its cause (R294, R296). -/
def Dev.resultCounted (d : Dev) (i : Nat) (r : CloRes) : Dev :=
  let d := if r.flags.testBit 1 then (d.inc i 0x23).cloCause r.clo 1 36 else d
  if r.flags.testBit 2 then (d.inc i 0x24).cloCause r.clo 2 37 else d

theorem Dev.resultShown_shows (d : Dev) (i : Nat) (r : CloRes) :
    (d.resultShown i r).obj i 0x1C = r.close ∧ (d.resultShown i r).obj i 0x1D = r.hyd ∧ (d.resultShown i r).obj i 0x20 = r.flags ∧
    (d.resultShown i r).obj i 0x21 = r.lane ∧ (d.resultShown i r).obj i 0x22 = satInc32 (d.obj i 0x22) ∧
    d.sameBut (d.resultShown i r) (fun j w => (shownObjs i).contains (j, w)) := by
  unfold Dev.resultShown Dev.setSobj
  refine ⟨?_, ?_, ?_, ?_, ?_, ?_⟩
  · simp [Dev.obj_inc, Dev.obj_setObj]
  · simp [Dev.obj_inc, Dev.obj_setObj]
  · simp [Dev.obj_inc, Dev.obj_setObj]
  · simp [Dev.obj_inc]
  · simp [Dev.obj_inc, Dev.obj_setObj]
  · exact ((((((Dev.sameBut_refl _ _).setObj _ (by decide) (by simp)).setObj _ (by decide) (by simp)).setObj _ (by decide) (by simp)).setObj _
      (by decide) (by simp)).setObj _ (by decide) (by simp)).inc (by decide) (by simp)

@[simp] theorem Dev.closure_resultShown (d : Dev) (i : Nat) (r : CloRes) (n : Nat) : (d.resultShown i r).closure n = d.closure n := by
  simp [Dev.resultShown]

theorem Dev.resultCounted_counts (d : Dev) (i : Nat) (r : CloRes) :
    (r.flags.testBit 1 = true → (d.resultCounted i r).obj i 0x23 = satInc32 (d.obj i 0x23)) ∧
    (r.flags.testBit 2 = true → (d.resultCounted i r).obj i 0x24 = satInc32 (d.obj i 0x24)) ∧
    d.sameBut (d.resultCounted i r) (fun j w => (countedObjs i).contains (j, w)) ∧
    ∀ n, (d.resultCounted i r).closure n = d.closure n := by
  unfold Dev.resultCounted
  cases r.flags.testBit 1 <;> cases r.flags.testBit 2
  · exact ⟨Bool.noConfusion, Bool.noConfusion, Dev.sameBut_refl _ _, fun _ => rfl⟩
  · refine ⟨Bool.noConfusion, fun _ => ?_, ((Dev.sameBut_refl _ _).inc (by decide) (by simp)).regs (Dev.cloCause_regs ..), fun n => ?_⟩
    all_goals simp [Dev.obj_inc]
  · refine ⟨fun _ => ?_, Bool.noConfusion, ((Dev.sameBut_refl _ _).inc (by decide) (by simp)).regs (Dev.cloCause_regs ..), fun n => ?_⟩
    all_goals simp [Dev.obj_inc]
  · refine ⟨fun _ => ?_, fun _ => ?_, ((((Dev.sameBut_refl _ _).inc (by decide) (by simp)).regs (Dev.cloCause_regs ..)).inc (by decide)
      (by simp)).regs (Dev.cloCause_regs ..), fun n => ?_⟩
    all_goals simp [Dev.obj_inc]

/-! ### A result is written -/

section
variable {d : Dev} {n : Nat} {r : CloRes} {rest : List CloRes}

/-- A result as it is written, with its place among the results of its channel (R284, R286). -/
def Dev.resultNext (d : Dev) (n : Nat) (r : CloRes) : CloRes := { (d.resultFilled n r) with serial := (d.closure n).written + 1 }

/-- The device once the oldest result of a channel has left its queue, for C3 where it learns (R288, R292). -/
def Dev.resultSent (d : Dev) (n : Nat) (q : CloRes) (rest : List CloRes) : Dev :=
  let c := d.closure n
  (d.accessBy 14).setClosure n
    { c with res := rest, written := q.serial, learn := if q.durMode = 1 && !d.coreDown 3 then c.learn ++ [q] else c.learn }

/-- A result goes to C3, if that runs, if its shot learns (R288, R292). -/
theorem Dev.resultSent_learn (d : Dev) (n : Nat) (q : CloRes) (rest : List CloRes) : ((d.resultSent n q rest).closure n).learn =
    (d.closure n).learn ++ (if q.durMode = 1 ∧ d.coreDown 3 = false then [q] else []) := by
  unfold Dev.resultSent
  rw [Dev.closure_setClosure_self]
  by_cases h : q.durMode = 1 ∧ d.coreDown 3 = false
  · simp [h]
  · rw [if_neg h, List.append_nil, if_neg (by simpa using h)]

theorem Dev.resultWrite_writes (hruns : d.runs 10 = true) (hres : (d.closure n).res = r :: rest) : d.resultWrite n =
    (let q := d.resultNext n r
     let e := ((d.resultSent n q rest).resultShown (0x2800 + n) q).resultCounted (0x2800 + n) q
     (e.pulse (if q.flags.testBit 0 then 116 else 117),
       { writes := d.partSamples q ++ [(cloAddr n, q.bytes (e.obj (0x2800 + n) 0x1E))] })) := by
  unfold Dev.resultWrite
  simp only [hres, hruns, Bool.not_true, Bool.false_eq_true, if_false]
  rfl

end

/-- A result that gives a close time keeps it, and the time from the start (R284). -/
theorem Dev.resultNext_found (d : Dev) (n : Nat) {r : CloRes} (h : r.flags.testBit 0 = true) :
    (d.resultNext n r).close = r.close ∧ (d.resultNext n r).hyd = r.hyd := by
  simp [Dev.resultNext, Dev.resultFilled, h]

/-- Two changes after each other change what either changes. -/
theorem Dev.sameBut.append {d e f : Dev} {l m : List (Nat × Nat)} (h : d.sameBut e (fun i w => l.contains (i, w)))
    (g : e.sameBut f (fun i w => m.contains (i, w))) : d.sameBut f (fun i w => (l ++ m).contains (i, w)) :=
  (h.mono (fun i w hin => by simp only [List.contains_append, hin, Bool.true_or])).trans
    (g.mono (fun i w hin => by simp only [List.contains_append, hin, Bool.or_true]))

/-- The oldest result of a channel is written (R286): its record and what an abandoned capture left, its object, its counts, and C3. -/
theorem Dev.resultWrite_leaves {d : Dev} {n : Nat} {r : CloRes} {rest : List CloRes} (hruns : d.runs 10 = true)
    (hres : (d.closure n).res = r :: rest) : ∃ (u : Dev) (eff : LoftEff), d.resultWrite n = (u, eff) ∧
      u.closure n = (d.resultSent n (d.resultNext n r) rest).closure n ∧
      (∀ m, eff.apply m = loftPut (LoftEff.apply { writes := d.partSamples (d.resultNext n r) } m) (cloAddr n)
        ((d.resultNext n r).bytes (d.obj (0x2800 + n) 0x1E))) ∧
      (u.obj (0x2800 + n) 0x1C = (d.resultNext n r).close ∧ u.obj (0x2800 + n) 0x1D = (d.resultNext n r).hyd ∧
        u.obj (0x2800 + n) 0x20 = r.flags ∧ u.obj (0x2800 + n) 0x21 = r.lane ∧
        u.obj (0x2800 + n) 0x22 = satInc32 (d.obj (0x2800 + n) 0x22)) ∧
      (r.flags.testBit 1 = true → u.obj (0x2800 + n) 0x23 = satInc32 (d.obj (0x2800 + n) 0x23)) ∧
      (r.flags.testBit 2 = true → u.obj (0x2800 + n) 0x24 = satInc32 (d.obj (0x2800 + n) 0x24)) ∧
      d.sameBut u (fun i w => (shownObjs (0x2800 + n) ++ countedObjs (0x2800 + n)).contains (i, w)) := by
  rw [Dev.resultWrite_writes hruns hres]
  extract_lets q e
  obtain ⟨hclose, hhyd, hflags, hlane, hcount, hshown⟩ := (d.resultSent n q rest).resultShown_shows (0x2800 + n) q
  obtain ⟨hmissed, houtside, hcounted, hclosure⟩ := ((d.resultSent n q rest).resultShown (0x2800 + n) q).resultCounted_counts (0x2800 + n) q
  have hsent : ∀ i w, (d.resultSent n q rest).obj i w = d.obj i w := fun i w => Dev.obj_congr rfl i w
  have hsame : d.sameBut e (fun i w => (shownObjs (0x2800 + n) ++ countedObjs (0x2800 + n)).contains (i, w)) :=
    Dev.sameBut.append (fun i w hw hout => (hshown i w hw hout).trans (hsent i w)) hcounted
  have hkept : ∀ w < 256, w ≠ 0x23 → w ≠ 0x24 → e.obj (0x2800 + n) w = ((d.resultSent n q rest).resultShown (0x2800 + n) q).obj (0x2800 + n) w :=
    fun w hw h1 h2 => hcounted _ w hw (by simp [h1, h2])
  have hbefore : ∀ w < 256, 0x22 < w → ((d.resultSent n q rest).resultShown (0x2800 + n) q).obj (0x2800 + n) w = d.obj (0x2800 + n) w :=
    fun w hw hlate => (hshown _ w hw (by simp; omega)).trans (hsent ..)
  have herror : e.obj (0x2800 + n) 0x1E = d.obj (0x2800 + n) 0x1E := hsame _ _ (by decide) (by simp)
  refine ⟨_, _, rfl, ?_, fun m => ?_, ⟨?_, ?_, ?_, ?_, ?_⟩, fun h => ?_, fun h => ?_, hsame.regs (Dev.pulse_regs ..)⟩
  · rw [Dev.closure_pulse, hclosure, Dev.closure_resultShown]
  · rw [LoftEff.apply_append_one, herror]
  · rw [Dev.pulse_obj, hkept _ (by decide) (by decide) (by decide), hclose]
  · rw [Dev.pulse_obj, hkept _ (by decide) (by decide) (by decide), hhyd]
  · exact (Dev.pulse_obj ..).trans ((hkept _ (by decide) (by decide) (by decide)).trans hflags)
  · exact (Dev.pulse_obj ..).trans ((hkept _ (by decide) (by decide) (by decide)).trans hlane)
  · rw [Dev.pulse_obj, hkept _ (by decide) (by decide) (by decide), hcount, hsent]
  · rw [Dev.pulse_obj, hmissed h, hbefore _ (by decide) (by decide)]
  · rw [Dev.pulse_obj, houtside h, hbefore _ (by decide) (by decide)]

/-! ### The statement -/

/-- Settles O32: each command of a lane, the kink engine and the write of a result acts as the equation of its case says. -/
theorem capturesAndResults : Obligations.CapturesAndResults := by
  refine ⟨fun s t k => ?_, ?_, ?_⟩
  · intro d i l
    refine ⟨fun hruns => ⟨fun c hres hcap hstart => ⟨fun hfree => ?_, fun hheld => ?_⟩, fun c hcap => ?_, fun c xs hcap hstop => ?_⟩,
      fun r => ⟨fun h => ?_, fun h => ?_⟩⟩
    · exact State.does_of_dev (State.exec_of_dev (f := fun d => d.captureStart k) rfl (Dev.captureStart_begins hruns hres hcap hstart hfree))
        ⟨Dev.obj_setObj_self .., c.firstEdge, (Dev.lane_setObj ..).trans (Dev.lane_setLane_self ..), c.firstEdge_bounds⟩
        ((Dev.sameBut_of_regs rfl).setObj _ (by decide) (by simp [i]))
    · exact State.does_of_dev (State.exec_of_dev (f := fun d => d.captureStart k) rfl (Dev.captureStart_held hruns hres hcap hstart hheld))
        ⟨(Dev.lane_cloQueue ..).trans (Dev.lane_setLane_self ..), Dev.cloQueue_res ..⟩ (Dev.sameBut_of_regs rfl)
    · refine State.does_of_dev (State.exec_of_dev (f := fun d => d.laneOverrun k) rfl (Dev.laneOverrun_abandons hruns hcap))
        ⟨?_, ?_, ?_, Dev.cloQueue_res ..⟩ (((Dev.sameBut_of_regs rfl).inc (by decide) (by simp [i])).regs (Dev.cloQueue_regs ..))
      · simp [Lane.finish]
      · simp [Lane.finish, d]
      · rw [Dev.cloQueue_obj, Dev.inc, Dev.obj_setObj_self]
        rfl
    · intro ys
      obtain ⟨hcount, ht0, hlen, hshot, hsame⟩ := (((s.devAt t).accessBy 14).setLane k ((d.lane k).finish c.stop
        (some { c with samples := ys.length }))).captureShown_shows k c ys.length
      refine ⟨_, State.exec_of_both (f := fun _ d => d.captureEnd k xs) rfl (Dev.captureEnd_stores hruns hcap hstop),
        fun q => loftByte_put .., ?_, hcount, ht0, hlen, hshot, hsame⟩
      simp [Dev.captureShown, Lane.finish]
    · exact State.does_of_laneHold h rfl (fun e hlanes => (e.laneHold_holds k).trans (by rw [Dev.lane_congr hlanes]))
    · exact State.does_of_laneHold h rfl (fun e hlanes => (e.laneHold_releases k).trans (by rw [Dev.lane_congr hlanes]))
  · intro s t k c rest d hruns hsearch hended
    refine State.does_of_dev (State.exec_of_both (f := fun m d => (d.kinkSearch m k, {})) rfl
      (Prod.ext (Dev.kinkSearch_queues s.loft hruns hsearch hended) rfl))
      ⟨(Dev.lane_cloQueue ..).trans (Dev.lane_setLane_self ..), Dev.cloQueue_res ..⟩ (Dev.sameBut_of_regs rfl)
  · intro s t n r rest d i q hruns hres
    obtain ⟨u, eff, hdev, hclosure, hloft, ⟨hclose, hhyd, hflags, hlane, hcount⟩, hmissed, houtside, hsame⟩ :=
      Dev.resultWrite_leaves (d := d) hruns hres
    refine ⟨_, State.exec_of_both (f := fun _ d => d.resultWrite n) rfl hdev, ?_, ?_, fun x hx => ?_, fun x hout hpart => ?_, ?_,
      hclose, hhyd, hflags, hlane, hcount, Dev.resultNext_found d n, hmissed, houtside, hsame⟩
    · rw [hclosure, Dev.resultSent, Dev.closure_setClosure_self]
    · rw [hclosure, Dev.resultSent, Dev.closure_setClosure_self]
      rfl
    · show loftByte (eff.apply s.loft) _ = _
      rw [hloft, loftByte_put, if_pos]
      · rw [Nat.add_sub_cancel_left]
        rfl
      · rw [CloRes.bytes_length, cloAddr, loftSize]
        omega
    · show loftByte (eff.apply s.loft) _ = _
      rw [hloft, loftByte_put_out (by rwa [CloRes.bytes_length])]
      exact d.partSamples_inside (d.resultNext n r) s.loft hpart
    · exact (congrArg Closure.learn hclosure).trans (d.resultSent_learn ..)

end Sys2Proof.Machine
end

section
/-! SUPPORT. The reset of a drive group (R308, R313): which objects it returns to their defaults, that it leaves every channel of the group
idle, and what the two ways into it, idle channels and the end of the time, make of the device. -/

namespace Sys2Proof.Machine

/-! ### Objects that return to their defaults -/

/-- An object after a run of indices has returned to its defaults. -/
theorem Dev.obj_resetObjs (d : Dev) {lo hi j w : Nat} (hw : w < 256) :
    (d.resetObjs lo hi).obj j w = if lo ≤ j ∧ j ≤ hi then objDefault j w 0 else d.obj j w := by
  have hkeys : (okey lo 0 0 ≤ okey j w 0 ∧ okey j w 0 < okey (hi + 1) 0 0) = (lo ≤ j ∧ j ≤ hi) := by
    unfold okey keySpan
    apply propext
    omega
  unfold Dev.obj Dev.resetObjs
  simp only [Store.get_clearRange, hkeys, keyDefault_okey j hw]

theorem Dev.sameBut.resetObjs {d e : Dev} {P : Nat → Nat → Bool} (h : d.sameBut e P) {lo hi : Nat}
    (hp : ∀ i w, lo ≤ i → i ≤ hi → P i w = true) : d.sameBut (e.resetObjs lo hi) P := fun j w hw hq => by
  rw [Dev.obj_resetObjs _ hw, if_neg, h j w hw hq]
  rintro ⟨hlo, hhi⟩
  rw [hp j w hlo hhi] at hq
  cases hq

/-- A channel that has taken its defaults is in phase 0. -/
theorem objDefault_phase : ∀ n < 48, objDefault (0x2700 + n) 0x03 0 = 0 := by decide +kernel

/-! ### The parts of the reset -/

/-- The reset of a channel: its object and its diagnostics at their defaults, its inhibit kept. -/
def Dev.channelReset (d : Dev) (n : Nat) : Dev :=
  (((d.setChan n {}).resetObjs (0x2700 + n) (0x2700 + n)).resetObjs (0x2880 + n) (0x2880 + n)).setObj (0x2880 + n) 0x09
    (d.obj (0x2880 + n) 0x09 &&& 0x100)

/-- The reset of a bank: its object and its diagnostics at their defaults, its failures kept. -/
def Dev.bankReset (d : Dev) (b : Nat) : Dev :=
  (((d.setBank b {}).resetObjs (0x2740 + b) (0x2740 + b)).resetObjs (0x28B0 + b) (0x28B0 + b)).setObj (0x28B0 + b) 0x04
    (d.obj (0x28B0 + b) 0x04 &&& 0x18)

/-- A drive group is reset channel by channel, bank by bank, and the bank map is drawn anew. -/
theorem Dev.groupReset_eq (d : Dev) (pd : Nat) :
    d.groupReset pd = ((groupBanks pd).foldl Dev.bankReset ((groupChans pd).foldl Dev.channelReset d)).mapBanks := rfl

theorem lt_of_mem_groupChans {pd n : Nat} (h : n ∈ groupChans pd) : n < 48 := by
  obtain ⟨i, hi, rfl⟩ := List.mem_map.mp h
  have := List.mem_range.mp hi
  split <;> omega

theorem lt_of_mem_groupBanks {pd b : Nat} (h : b ∈ groupBanks pd) : b < 16 := by
  obtain ⟨i, hi, rfl⟩ := List.mem_map.mp h
  have := List.mem_range.mp hi
  split <;> omega

/-! ### The objects that each part changes -/

/-- The objects of the banks and of their diagnostics. -/
def bankObj (i _w : Nat) : Bool := decide (0x2740 ≤ i ∧ i < 0x2750 ∨ 0x28B0 ≤ i ∧ i < 0x28C0)

/-- The objects that show the bank map: the bank of a channel, the banks of a rail. -/
def bankMapObj (i w : Nat) : Bool := decide (w = 0x02 ∧ 0x2700 ≤ i ∧ i < 0x2730 ∨ w = 0x10 ∧ 0x2780 ≤ i ∧ i < 0x2782)

theorem Dev.channelReset_sameBut (d : Dev) (n : Nat) :
    d.sameBut (d.channelReset n) (fun i _ => i == 0x2700 + n || i == 0x2880 + n) := by
  refine Dev.sameBut.setObj (Dev.sameBut.resetObjs (Dev.sameBut.resetObjs (Dev.sameBut_of_regs rfl) ?_) ?_) _ (by decide) (by simp)
  all_goals
    intro i w hlo hhi
    simp [Nat.le_antisymm hhi hlo]

theorem Dev.bankReset_sameBut (d : Dev) {b : Nat} (hb : b < 16) : d.sameBut (d.bankReset b) bankObj := by
  have hown : ∀ i w, i = 0x2740 + b ∨ i = 0x28B0 + b → bankObj i w = true := fun i w h => decide_eq_true (by omega)
  exact (((Dev.sameBut_of_regs rfl).resetObjs (fun i w hlo hhi => hown i w (.inl (Nat.le_antisymm hhi hlo)))).resetObjs
    (fun i w hlo hhi => hown i w (.inr (Nat.le_antisymm hhi hlo)))).setObj _ (by decide) (hown _ _ (.inr rfl))

theorem Dev.banksReset_sameBut (d : Dev) (pd : Nat) : d.sameBut ((groupBanks pd).foldl Dev.bankReset d) bankObj :=
  Dev.sameBut.foldl _ (Dev.sameBut_refl d _) (fun e _ hb he => he.trans (e.bankReset_sameBut (lt_of_mem_groupBanks hb)))

theorem Dev.bankReset_chans (d : Dev) (b : Nat) : (d.bankReset b).chans = d.chans := rfl

theorem Dev.mapBanks_sameBut (d : Dev) : d.sameBut d.mapBanks bankMapObj := by
  unfold Dev.mapBanks
  refine Dev.sameBut.foldl _ (Dev.sameBut.foldl _ (Dev.sameBut_refl d _) (fun e n hn h => ?_)) (fun e x hx h => ?_)
  · have := List.mem_range.mp hn
    exact h.setObj _ (by decide) (decide_eq_true (by omega))
  · have := List.mem_range.mp hx
    exact h.setObj _ (by decide) (decide_eq_true (by omega))

theorem Dev.mapBanks_chans (d : Dev) : d.mapBanks.chans = d.chans := by
  have hset : ∀ (i u : Nat → Nat) (v : Dev → Nat → Nat) (l : List Nat) (e : Dev),
      (l.foldl (fun e n => e.setObj (i n) (u n) (v e n)) e).chans = e.chans :=
    fun i u v => Dev.foldl_keeps Dev.chans (fun _ _ => rfl)
  unfold Dev.mapBanks
  dsimp only
  rw [hset _ (fun _ => 0x10), hset _ (fun _ => 0x02)]

/-! ### The channels are idle -/

/-- A channel is idle: its record is empty and its object shows phase 0. -/
def Dev.isIdle (d : Dev) (n : Nat) : Prop := d.chan n = {} ∧ d.phase n = 0

/-- A channel stays idle under what leaves the records of the channels and the object of its phase alone. -/
theorem Dev.isIdle.keeps {d e : Dev} {n : Nat} {P : Nat → Nat → Bool} (h : d.isIdle n) (hchans : e.chans = d.chans)
    (hsame : d.sameBut e P) (hout : P (0x2700 + n) 0x03 = false) : e.isIdle n :=
  ⟨(Dev.chan_congr hchans n).trans h.1, (hsame _ _ (by decide) hout).trans h.2⟩

theorem Dev.channelReset_self (d : Dev) {n : Nat} (hn : n < 48) : (d.channelReset n).isIdle n := by
  refine ⟨Dev.chan_setChan_self d n {}, ?_⟩
  unfold Dev.phase Dev.channelReset
  rw [Dev.obj_setObj_sub _ _ (by decide) (by decide) (by decide), Dev.obj_resetObjs _ (by decide), if_neg (by omega),
    Dev.obj_resetObjs _ (by decide), if_pos ⟨le_rfl, le_rfl⟩, objDefault_phase n hn]

/-- The reset of one channel leaves the idle ones idle. -/
theorem Dev.isIdle.channelReset {d : Dev} {m : Nat} (h : d.isIdle m) (hm : m < 48) (n : Nat) (hn : n < 48) :
    (d.channelReset n).isIdle m := by
  by_cases hmn : m = n
  · subst hmn
    exact d.channelReset_self hn
  · refine ⟨((d.chan_setChan n m {}).trans (if_neg hmn)).trans h.1, (d.channelReset_sameBut n _ _ (by decide) ?_).trans h.2⟩
    simp only [Bool.or_eq_false_iff, beq_eq_false_iff_ne]
    omega

/-- Once every channel of a list has been reset, they are idle, and so is what was idle before. -/
theorem Dev.foldl_channelReset_idle {l : List Nat} (hl : ∀ n ∈ l, n < 48) (d : Dev) {m : Nat} (hm : m < 48) :
    m ∈ l ∨ d.isIdle m → (l.foldl Dev.channelReset d).isIdle m := by
  induction l generalizing d with
  | nil => simp
  | cons n l ih =>
    have hn : n < 48 := hl n (List.mem_cons_self ..)
    intro h
    refine ih (fun x hx => hl x (List.mem_cons_of_mem _ hx)) (d.channelReset n) ?_
    rcases h with h | h
    · rcases List.mem_cons.mp h with rfl | h
      · exact .inr (d.channelReset_self hn)
      · exact .inl h
    · exact .inr (h.channelReset hm n hn)

/-- The reset of a drive group leaves every channel of the group idle. -/
theorem Dev.groupReset_isIdle (d : Dev) {pd n : Nat} (h : n ∈ groupChans pd) : (d.groupReset pd).isIdle n := by
  have hn : n < 48 := lt_of_mem_groupChans h
  have hreset : ((groupChans pd).foldl Dev.channelReset d).isIdle n :=
    Dev.foldl_channelReset_idle (fun _ => lt_of_mem_groupChans) d hn (.inl h)
  have hbanks : ((groupBanks pd).foldl Dev.bankReset ((groupChans pd).foldl Dev.channelReset d)).isIdle n := by
    exact hreset.keeps (Dev.foldl_keeps Dev.chans Dev.bankReset_chans _ _) (Dev.banksReset_sameBut _ pd) (decide_eq_false (by omega))
  rw [Dev.groupReset_eq]
  exact hbanks.keeps (Dev.mapBanks_chans _) (Dev.mapBanks_sameBut _) (decide_eq_false (by omega))

/-- The reset of a drive group leaves the protection object alone. -/
theorem Dev.groupReset_protection (d : Dev) (pd : Nat) {w : Nat} (hw : w < 256) : (d.groupReset pd).obj 0x28C8 w = d.obj 0x28C8 w := by
  have hchans : d.sameBut ((groupChans pd).foldl Dev.channelReset d) (fun i _ => decide (i < 0x28B0)) := by
    refine Dev.sameBut.foldl _ (Dev.sameBut_refl d _) (fun e n hn he => he.trans ((e.channelReset_sameBut n).mono (fun i w h => ?_)))
    have hlt := lt_of_mem_groupChans hn
    simp only [Bool.or_eq_true, beq_iff_eq] at h
    exact decide_eq_true (by omega)
  rw [Dev.groupReset_eq, Dev.mapBanks_sameBut _ _ _ hw (decide_eq_false (by omega)), Dev.banksReset_sameBut _ pd _ _ hw rfl,
    hchans _ _ hw rfl]

/-! ### The two ways into the reset -/

theorem Dev.pdReset_group (d : Dev) {k : Nat} (hk : k = 7 ∨ k = 8) : d.pdReset k = d.groupReset k := by
  rcases hk with rfl | rfl <;> rfl

/-- The reset of a drive group that goes ahead: the reset is in its third state, the channels of the group are idle, and the protection
object's status stands. -/
theorem Dev.domainGo_group (d : Dev) {k : Nat} (hk : k = 7 ∨ k = 8) :
    (d.domainGo k).obj 0x2F00 0x0A = 3 ∧ (∀ n ∈ groupChans k, (d.domainGo k).isIdle n) ∧
      (d.domainGo k).obj 0x28C8 0x01 = d.obj 0x28C8 0x01 := by
  have hregs : (d.domainGo k).regs = ((d.groupReset k).setObj 0x2F00 0x0A 3).regs := by
    rw [← d.pdReset_group hk]
    rfl
  have hchans : (d.domainGo k).chans = (d.groupReset k).chans := by
    rw [← d.pdReset_group hk]
    rfl
  have hsame : (d.groupReset k).sameBut (d.domainGo k) (fun i _ => i == 0x2F00) :=
    ((Dev.sameBut_refl _ _).setObj 3 (by decide) rfl).regs hregs
  refine ⟨(Dev.obj_congr hregs ..).trans (Dev.obj_setObj_self ..), fun n hn => ?_, ?_⟩
  · have hlt := lt_of_mem_groupChans hn
    exact (d.groupReset_isIdle hn).keeps hchans hsame (beq_false_of_ne (by omega))
  · exact (hsame _ _ (by decide) rfl).trans (d.groupReset_protection k (by decide))

/-- The device at the end of the time, before the group is reset: its running shots are cut, drive_reset_timeout is set and source 53
raised. -/
def Dev.groupTimedOut (d : Dev) (k : Nat) : Dev := ((d.groupCut k).setBit 0x28C8 0x01 8 true).raise 53

theorem Dev.groupTimedOut_noted (d : Dev) (k : Nat) : (d.groupTimedOut k).bit 0x28C8 0x01 8 = true :=
  (Dev.bit_congr (Dev.raise_regs ..) ..).trans (Dev.bit_setBit_self ..)

section
variable {d : Dev} {k : Nat} (hready : d.ready = true) (hasked : d.obj 0x2F00 0x0A = 1) (hgroup : d.rst.domReset = some k)
include hready hasked hgroup

theorem Dev.driveGroupIdle_goes (hidle : d.groupIdle k = true) : d.driveGroupIdle = d.domainGo k := by
  simp [Dev.driveGroupIdle, hgroup, hready, hasked, hidle]

theorem Dev.driveResetTimeout_goes (hlate : d.rst.domDeadline ≤ d.now) :
    d.driveResetTimeout =
      { (d.groupTimedOut k).domainGo k with rst := { ((d.groupTimedOut k).domainGo k).rst with domLate := true } } := by
  simp [Dev.driveResetTimeout, Dev.groupTimedOut, hgroup, hready, hasked, hlate]

end

/-! ### The statement -/

/-- Settles O37: both commands end in the reset of the group, the late one after the cut and its note in the protection object. -/
theorem driveGroupResets : Obligations.DriveGroupResets := by
  intro s t k d idle hk hready hasked hgroup
  refine ⟨fun hidle => ?_, fun hlate => ?_⟩
  · obtain ⟨hstate, hchans, -⟩ := d.domainGo_group hk
    exact ⟨_, State.exec_of_dev (f := fun d => d.driveGroupIdle) rfl (Dev.driveGroupIdle_goes hready hasked hgroup hidle),
      ⟨hstate, hchans⟩, rfl⟩
  · obtain ⟨hstate, hchans, hprot⟩ := (d.groupTimedOut k).domainGo_group hk
    have hnoted : ((d.groupTimedOut k).domainGo k).bit 0x28C8 0x01 8 = true :=
      (congrArg (·.testBit 8) hprot).trans (d.groupTimedOut_noted k)
    exact ⟨_, State.exec_of_dev (f := fun d => d.driveResetTimeout) rfl (Dev.driveResetTimeout_goes hready hasked hgroup hlate),
      ⟨hstate, hchans⟩, rfl, hnoted, rfl⟩

end Sys2Proof.Machine
end

section
/-! SUPPORT. What a sample of the pressure channels leaves (R318 to R327): each channel's sample changes four objects of its own, and the grid
of these the status word alone, in which it spares the sticky bit of the clips. -/

namespace Sys2Proof.Machine

/-! ### Changes that spare one bit of a word -/

/-- One device keeps every object of another but those of a set, and one bit of a word, which may be of the set. -/
def Dev.sparesBit (d e : Dev) (P : Nat → Nat → Bool) (i u b : Nat) : Prop := d.sameBut e P ∧ e.bit i u b = d.bit i u b

section
variable {d e f : Dev} {P Q : Nat → Nat → Bool} {i u b : Nat}

theorem Dev.sparesBit_of_regs (h : e.regs = d.regs) : d.sparesBit e P i u b := ⟨Dev.sameBut_of_regs h, Dev.bit_congr h ..⟩

theorem Dev.sparesBit.trans (h : d.sparesBit e P i u b) (g : e.sparesBit f P i u b) : d.sparesBit f P i u b :=
  ⟨h.1.trans g.1, g.2.trans h.2⟩

theorem Dev.sparesBit.regs (h : d.sparesBit e P i u b) (hr : f.regs = e.regs) : d.sparesBit f P i u b :=
  h.trans (Dev.sparesBit_of_regs hr)

/-- A write of another subindex of the set. -/
theorem Dev.sparesBit.setObj (h : d.sparesBit e P i u b) {j w : Nat} (v : Nat) (hu : u < 256) (hw : w < 256) (hp : P j w = true)
    (hne : u ≠ w) : d.sparesBit (e.setObj j w v) P i u b :=
  ⟨h.1.setObj v hw hp, (Dev.bit_setObj_sub _ _ _ hw hu hne).trans h.2⟩

/-- A write of another bit of the word. -/
theorem Dev.sparesBit.setBit (h : d.sparesBit e P i u b) {c : Nat} (on : Bool) (hu : u < 256) (hp : P i u = true) (hne : b ≠ c) :
    d.sparesBit (e.setBit i u c on) P i u b :=
  ⟨h.1.setObj _ hu hp, (Dev.bit_setBit_other _ _ hu hne).trans h.2⟩

end

/-! ### Steps taken in turn -/

/-- A step of each of the first numbers in turn, with what they store in the Loft. -/
def Dev.inTurn (d : Dev) (f : Dev → Nat → Dev × List (Nat × List Byte)) (n : Nat) : Dev × List (Nat × List Byte) :=
  (List.range n).foldl (fun (a : Dev × List (Nat × List Byte)) k =>
    let (d, e) := f a.1 k
    (d, a.2 ++ e)) (d, [])

theorem Dev.inTurn_succ (d : Dev) (f : Dev → Nat → Dev × List (Nat × List Byte)) (n : Nat) :
    d.inTurn f (n + 1) = ((f (d.inTurn f n).1 n).1, (d.inTurn f n).2 ++ (f (d.inTurn f n).1 n).2) := by
  simp only [Dev.inTurn, List.range_succ, List.foldl_append, List.foldl_cons, List.foldl_nil]

/-! ### The grid of a pressure channel -/

/-- The status word of a pressure channel. -/
def pressStatus (c i w : Nat) : Bool := i == 0x2900 + c && w == 0x10

/-- Of the objects, what the grid of a channel changes: its status word, and in that not the sticky bit of the clips (R327). -/
abbrev Dev.gridKeeps (d e : Dev) (c : Nat) : Prop := d.sparesBit e (pressStatus c) (0x2900 + c) 0x10 3

section
variable {d e : Dev} {c : Nat}

theorem Dev.gridKeeps_of_regs (h : e.regs = d.regs) : d.gridKeeps e c := Dev.sparesBit_of_regs h

theorem Dev.sparesBit.pressBit (h : d.gridKeeps e c) {b : Nat} (on : Bool) (hb : 3 ≠ b) : d.gridKeeps (e.pressBit c b on) c :=
  Dev.sparesBit.setBit h on (by decide) (by simp [pressStatus]) hb

end

theorem Dev.setPress_regs (d : Dev) (c : Nat) (p : Press) : (d.setPress c p).regs = d.regs := rfl

@[simp] theorem Dev.pressResult_regs (d : Dev) (c k tdc : Nat) (final whole valid : Bool) (flags : Nat) :
    (d.pressResult c k tdc final whole valid flags).regs = d.regs := by
  unfold Dev.pressResult
  dsimp only
  split <;> rfl

theorem Dev.gridBegin_regs (d : Dev) (c k tdc g i word : Nat) : (d.gridBegin c k tdc g i word).regs = d.regs := by
  unfold Dev.gridBegin
  dsimp only
  rw [Dev.setPress_regs]
  split
  · exact Dev.pressResult_regs ..
  · rfl

theorem Dev.gridEnd_keeps (d : Dev) (c k tdc : Nat) : d.gridKeeps (d.gridEnd c k tdc) c := by
  unfold Dev.gridEnd
  extract_lets p flat valid e q last f
  have hregs : f.regs = d.regs := Dev.pressResult_regs ..
  split
  · exact (Dev.gridKeeps_of_regs hregs).pressBit _ (by decide)
  · exact Dev.gridKeeps_of_regs hregs

/-- Whichever way a decision falls. -/
theorem Dev.gridKeeps.ite {d e f : Dev} {c : Nat} {p : Prop} [Decidable p] (h : d.gridKeeps e c) (g : d.gridKeeps f c) :
    d.gridKeeps (if p then e else f) c := by
  split
  · exact h
  · exact g

theorem Dev.gridPoint_keeps (d : Dev) (m : Store Byte) (c k tdc g i word : Nat) (v : Int) (clipped : Bool) :
    d.gridKeeps (d.gridPoint m c k tdc g i word v clipped).1 c := by
  unfold Dev.gridPoint
  extract_lets p count begun q noPeg
  have hbegun : d.gridKeeps begun c :=
    Dev.gridKeeps.ite (Dev.gridKeeps_of_regs (Dev.gridBegin_regs ..)) (Dev.gridKeeps_of_regs rfl)
  split
  extract_lets r stops stopped counted dt stored shown ended
  have hstopped : d.gridKeeps stopped c := Dev.gridKeeps.ite (hbegun.pressBit _ (by decide)) hbegun
  have hstored : d.gridKeeps stored c := hstopped.regs (Dev.setPress_regs ..)
  have hshown : d.gridKeeps shown c := Dev.gridKeeps.ite (hstored.regs (Dev.pressResult_regs ..)) hstored
  exact Dev.gridKeeps.ite (hshown.trans (Dev.gridEnd_keeps ..)) hshown

theorem Dev.gridRun_keeps (m : Store Byte) (c k tdc g w : Nat) (v : Int) (cl : Bool) (fuel : Nat) (d : Dev) :
    d.gridKeeps (Dev.gridRun m c k tdc g w v cl fuel d).1 c := by
  induction fuel generalizing d with
  | zero => exact Dev.gridKeeps_of_regs rfl
  | succ fuel ih =>
    unfold Dev.gridRun
    split
    · split
      · exact (Dev.gridPoint_keeps ..).trans (ih _)
      · exact Dev.gridKeeps_of_regs rfl
    · exact Dev.gridKeeps_of_regs rfl

theorem Dev.pegSample_keeps (d : Dev) (c tdc word : Nat) (code : Int) : d.gridKeeps (d.pegSample c tdc word code) c := by
  unfold Dev.pegSample
  extract_lets p start
  split
  · exact Dev.gridKeeps_of_regs rfl
  · exact Dev.gridKeeps_of_regs rfl
  · split
    · exact Dev.gridKeeps_of_regs rfl
    · exact (Dev.gridKeeps_of_regs (Dev.setPress_regs ..)).pressBit _ (by decide)

/-! ### One channel's sample -/

theorem Dev.slotDom_lt {d : Dev} {slot k : Nat} (h : d.slotDom slot = some k) : k < 2 := by
  unfold Dev.slotDom at h
  split_ifs at h <;> cases h <;> decide

/-- No domain gives an angle: neither is in FULL_SYNC or CAM_ONLY (R323). -/
def Dev.noAngle (d : Dev) : Prop := ∀ k < 2, d.domState k ≠ 3 ∧ d.domState k ≠ 4

/-- The objects that a sample of a channel may change. -/
def sampledObj (c i w : Nat) : Bool := i == 0x2900 + c && [0x0F, 0x10, 0x19, 0x1C].contains w

theorem Dev.pressSample_disabled {d : Dev} {c : Nat} (h : d.obj (0x2900 + c) 0x01 = 0) (m : Store Byte) (code : Int) :
    d.pressSample m c code = (d, []) := if_pos h

/-- Where a channel's sample lies: the domain of its slot that gives it an angle, the slot's TDC, the angle word (R318, R335). -/
def Dev.samplePlace (d : Dev) (c : Nat) : Option (Nat × Nat × Nat) :=
  let slot := d.obj (0x2900 + c) 0x02
  (if slot < 24 then d.slotDom slot else none).bind
    (fun k => if d.domState k = 3 || d.domState k = 4 then some (k, d.obj (0x2180 + k) (0x40 + slot), d.estAt k d.now) else none)

/-- A pegged channel's sample has met its peg window. -/
def Dev.samplePegged (d : Dev) (c : Nat) (code : Int) : Dev :=
  match d.samplePlace c with
  | some (_, tdc, w) => if d.obj (0x2900 + c) 0x04 = 1 then d.pegSample c tdc w code else d
  | none => d

/-- The offset of a channel's samples: 0 without pegging. -/
def Dev.sampleOff (d : Dev) (c : Nat) : Option Int := if d.obj (0x2900 + c) 0x04 = 0 then some 0 else (d.press c).offset

/-- A sample with its value reaches the grid, or breaks its production where no domain gives an angle. -/
def Dev.sampleToGrid (d : Dev) (m : Store Byte) (c : Nat) (v : Int) (cl : Bool) (place : Option (Nat × Nat × Nat)) :
    Dev × List (Nat × List Byte) :=
  match place with
  | none => ((d.setPress c (d.press c).rest).pressBit c 0 false, [])
  | some (k, tdc, w) =>
    let g := gridSize (d.revsOf k)
    let p := d.press c
    let d := if p.next.isSome then d else
      let nx := if p.from0 then (0, atOrAfter w (((tdc : Int) + gridOff g 0) % (auCycle : Int)).toNat) else gridFirst g tdc w
      d.setPress c { p with next := some nx, from0 := false, last := some (w, v, cl) }
    let (d, e) := Dev.gridRun m c k tdc g w v cl (2 * g) d
    let held := match (d.press c).last with
      | some (_, _, lc) => e.isEmpty && lc
      | none => false
    let d := d.setPress c { (d.press c) with last := some (w, v, cl || held) }
    (d.pressBit c 0 true, e)

/-- The value of a sample: its code with the offset, kept in 16 bits (R320). -/
def sampleValue (code : Int) (off : Option Int) : Int := clampInt (-32768) 32767 (code + off.getD 0)

/-- A sample is clipped where its code or its value stands at a limit (R327). -/
def sampleClips (code : Int) (off : Option Int) : Bool :=
  decide (code = -32768) || decide (code = 32767) || decide (code + off.getD 0 ≠ sampleValue code off)

/-- What a sample shows of itself (R319, R327): its value and offset, pegged, and, where it is clipped, clip_seen and the count. -/
def Dev.sampleShown (d : Dev) (c : Nat) (code : Int) (off : Option Int) : Dev :=
  let e := ((d.setSobj 16 (0x2900 + c) 0x0F (sampleValue code off)).setSobj 16 (0x2900 + c) 0x19 (off.getD 0)).pressBit c 2 off.isSome
  if sampleClips code off then (e.inc (0x2900 + c) 0x1C).pressBit c 3 true else e

/-- The sample of an enabled channel meets the peg window, is shown, and goes to the grid. -/
theorem Dev.pressSample_enabled {d : Dev} {c : Nat} (h : d.obj (0x2900 + c) 0x01 ≠ 0) (m : Store Byte) (raw : Int) :
    d.pressSample m c raw =
      let code := clampInt (-32768) 32767 raw
      let e := d.samplePegged c code
      let off := e.sampleOff c
      (e.sampleShown c code off).sampleToGrid m c (sampleValue code off) (sampleClips code off) (d.samplePlace c) :=
  if_neg h

theorem Dev.samplePlace_none {d : Dev} (h : d.noAngle) (c : Nat) : d.samplePlace c = none := by
  unfold Dev.samplePlace
  extract_lets slot
  rw [Option.bind_eq_none_iff]
  intro k hk
  have hlt : k < 2 := by
    split at hk
    · exact Dev.slotDom_lt hk
    · cases hk
  simp [h k hlt]

theorem Dev.samplePegged_keeps (d : Dev) (c : Nat) (code : Int) : d.gridKeeps (d.samplePegged c code) c := by
  unfold Dev.samplePegged
  split
  · exact Dev.gridKeeps.ite (Dev.pegSample_keeps ..) (Dev.gridKeeps_of_regs rfl)
  · exact Dev.gridKeeps_of_regs rfl

theorem Dev.sampleToGrid_keeps (d : Dev) (m : Store Byte) (c : Nat) (v : Int) (cl : Bool) (place : Option (Nat × Nat × Nat)) :
    d.gridKeeps (d.sampleToGrid m c v cl place).1 c := by
  unfold Dev.sampleToGrid
  split
  · exact (Dev.gridKeeps_of_regs (Dev.setPress_regs ..)).pressBit _ (by decide)
  · extract_lets g p nx placed
    have hplaced : d.gridKeeps placed c :=
      Dev.gridKeeps.ite (Dev.gridKeeps_of_regs rfl) (Dev.gridKeeps_of_regs (Dev.setPress_regs ..))
    exact ((hplaced.trans (Dev.gridRun_keeps ..)).regs (Dev.setPress_regs ..)).pressBit _ (by decide)

theorem Dev.sampleShown_sameBut (d : Dev) (c : Nat) (code : Int) (off : Option Int) :
    d.sameBut (d.sampleShown c code off) (sampledObj c) := by
  have hin : ∀ w ∈ [0x0F, 0x10, 0x19, 0x1C], sampledObj c (0x2900 + c) w = true := fun w h => by simpa [sampledObj] using h
  unfold Dev.sampleShown
  extract_lets e
  have he : d.sameBut e (sampledObj c) :=
    (((Dev.sameBut_refl _ _).setObj _ (by decide) (hin 0x0F (by decide))).setObj _ (by decide) (hin 0x19 (by decide))).setObj _ (by decide)
      (hin 0x10 (by decide))
  split
  · exact (he.inc (by decide) (hin 0x1C (by decide))).setObj _ (by decide) (hin 0x10 (by decide))
  · exact he

theorem Dev.sampleShown_value (d : Dev) (c : Nat) (code : Int) (off : Option Int) :
    (d.sampleShown c code off).obj (0x2900 + c) 0x0F = ofSigned 16 (sampleValue code off) := by
  unfold Dev.sampleShown Dev.pressBit Dev.setBit Dev.inc Dev.setSobj
  split <;> simp [Dev.obj_setObj]

theorem Dev.sampleShown_clip (d : Dev) (c : Nat) {code : Int} {off : Option Int} (h : sampleClips code off = true) :
    (d.sampleShown c code off).obj (0x2900 + c) 0x1C = satInc32 (d.obj (0x2900 + c) 0x1C) ∧
      (d.sampleShown c code off).bit (0x2900 + c) 0x10 3 = true := by
  have hshown : d.sampleShown c code off = _ := if_pos h
  rw [hshown]
  refine ⟨?_, Dev.bit_setBit_self ..⟩
  simp [Dev.pressBit, Dev.setBit, Dev.setSobj, Dev.obj_inc, Dev.obj_setObj]

/-- The grid's objects are among the sample's. -/
theorem Dev.gridKeeps.sampled {d e : Dev} {c : Nat} (h : d.gridKeeps e c) : d.sameBut e (sampledObj c) :=
  h.1.mono (fun i w hp => by
    simp only [pressStatus, Bool.and_eq_true, beq_iff_eq] at hp
    simp [sampledObj, hp])

/-- A sample of a channel changes no object but four of its own. -/
theorem Dev.pressSample_sameBut (d : Dev) (m : Store Byte) (c : Nat) (code : Int) :
    d.sameBut (d.pressSample m c code).1 (sampledObj c) := by
  by_cases h : d.obj (0x2900 + c) 0x01 = 0
  · rw [Dev.pressSample_disabled h]
    exact Dev.sameBut_refl _ _
  · rw [Dev.pressSample_enabled h]
    exact ((Dev.samplePegged_keeps ..).sampled.trans (Dev.sampleShown_sameBut _ _ _ _)).trans (Dev.sampleToGrid_keeps ..).sampled

/-- Without an angle a sample yields no grid point. -/
theorem Dev.pressSample_stores_nothing {d : Dev} (h : d.noAngle) (m : Store Byte) (c : Nat) (code : Int) :
    (d.pressSample m c code).2 = [] := by
  by_cases hon : d.obj (0x2900 + c) 0x01 = 0
  · rw [Dev.pressSample_disabled hon]
  · rw [Dev.pressSample_enabled hon, Dev.samplePlace_none h]
    rfl

/-- What a sample of a channel is to show: of an enabled channel without pegging its code, the clipped ones counted; of a disabled channel
nothing. -/
def Dev.sampledAs (d e : Dev) (c : Nat) (code : Int) : Prop :=
  (d.obj (0x2900 + c) 0x01 ≠ 0 → d.obj (0x2900 + c) 0x04 = 0 → e.obj (0x2900 + c) 0x0F = ofSigned 16 code ∧
    (code = -32768 ∨ code = 32767 →
      e.obj (0x2900 + c) 0x1C = satInc32 (d.obj (0x2900 + c) 0x1C) ∧ e.bit (0x2900 + c) 0x10 3 = true)) ∧
  (d.obj (0x2900 + c) 0x01 = 0 → e.obj (0x2900 + c) 0x0F = d.obj (0x2900 + c) 0x0F)

theorem clampInt_idem (i : Int) : clampInt (-32768) 32767 (clampInt (-32768) 32767 i) = clampInt (-32768) 32767 i := by
  unfold clampInt
  omega

theorem Dev.pressSample_sampledAs (d : Dev) (m : Store Byte) (c : Nat) (raw : Int) :
    d.sampledAs (d.pressSample m c raw).1 c (clampInt (-32768) 32767 raw) := by
  refine ⟨fun hon hpeg => ?_, fun hoff => by rw [Dev.pressSample_disabled hoff]⟩
  rw [Dev.pressSample_enabled hon]
  extract_lets code e off
  have he : d.gridKeeps e c := Dev.samplePegged_keeps ..
  have hoff : off = some 0 := if_pos ((he.1 _ _ (by decide) (by simp [pressStatus])).trans hpeg)
  have hvalue : sampleValue code off = code := by
    rw [hoff, sampleValue, Option.getD_some, add_zero]
    exact clampInt_idem raw
  obtain ⟨hobjs, hbit⟩ := Dev.sampleToGrid_keeps (e.sampleShown c code off) m c (sampleValue code off) (sampleClips code off) (d.samplePlace c)
  have hclips : code = -32768 ∨ code = 32767 → sampleClips code off = true := fun h => by
    rcases h with h | h <;> simp [sampleClips, h]
  refine ⟨?_, fun hclip => ⟨?_, ?_⟩⟩
  · rw [hobjs _ _ (by decide) (by simp [pressStatus])]
    exact (Dev.sampleShown_value ..).trans (congrArg _ hvalue)
  · rw [hobjs _ _ (by decide) (by simp [pressStatus]), ← he.1 _ _ (by decide) (by simp [pressStatus])]
    exact (Dev.sampleShown_clip _ _ (hclips hclip)).1
  · exact hbit.trans (Dev.sampleShown_clip _ _ (hclips hclip)).2

/-! ### The samples of all channels -/

theorem sampledObj_index {c i w : Nat} (h : sampledObj c i w = true) : i = 0x2900 + c := by
  simp only [sampledObj, Bool.and_eq_true, beq_iff_eq] at h
  exact h.1

theorem sampledObj_other {c i : Nat} (h : i ≠ 0x2900 + c) (w : Nat) : sampledObj c i w = false :=
  Bool.eq_false_iff.mpr (fun ht => h (sampledObj_index ht))

/-- Devices that agree on the channel's object before the sample, and after it. -/
theorem Dev.sampledAs.congr {d d' e e' : Dev} {c : Nat} {code : Int} (h : d.sampledAs e c code)
    (hd : ∀ w < 256, d'.obj (0x2900 + c) w = d.obj (0x2900 + c) w) (he : ∀ w < 256, e'.obj (0x2900 + c) w = e.obj (0x2900 + c) w) :
    d'.sampledAs e' c code := by
  simpa only [Dev.sampledAs, Dev.bit, hd _ (show 0x01 < 256 by decide), hd _ (show 0x04 < 256 by decide), hd _ (show 0x0F < 256 by decide),
    hd _ (show 0x1C < 256 by decide), he _ (show 0x0F < 256 by decide), he _ (show 0x1C < 256 by decide),
    he _ (show 0x10 < 256 by decide)] using h

/-- The samples of an instant, channel by channel, with what they store in the Loft. -/
def Dev.pressRound (d : Dev) (m : Store Byte) (codes : List Int) (n : Nat) : Dev × List (Nat × List Byte) :=
  d.inTurn (fun e c => e.pressSample m c (codes.getD c 0)) n

theorem Dev.pressRound_succ (d : Dev) (m : Store Byte) (codes : List Int) (n : Nat) : d.pressRound m codes (n + 1) =
    (((d.pressRound m codes n).1.pressSample m n (codes.getD n 0)).1,
      (d.pressRound m codes n).2 ++ ((d.pressRound m codes n).1.pressSample m n (codes.getD n 0)).2) :=
  d.inTurn_succ ..

/-- The objects of the first channels. -/
def pressObj (n i _w : Nat) : Bool := decide (0x2900 ≤ i ∧ i < 0x2900 + n)

theorem Dev.pressRound_sameBut (d : Dev) (m : Store Byte) (codes : List Int) (n : Nat) :
    d.sameBut (d.pressRound m codes n).1 (pressObj n) := by
  induction n with
  | zero => exact Dev.sameBut_refl _ _
  | succ n ih =>
    rw [Dev.pressRound_succ]
    refine (ih.mono (fun i w h => ?_)).trans ((Dev.pressSample_sameBut _ _ _ _).mono (fun i w h => ?_))
    · simp only [pressObj, decide_eq_true_eq] at h ⊢
      omega
    · have hi := sampledObj_index h
      exact decide_eq_true (by omega)

/-- Every channel's sample shows what it is to show. -/
theorem Dev.pressRound_sampledAs (d : Dev) (m : Store Byte) (codes : List Int) (n : Nat) :
    ∀ c < n, d.sampledAs (d.pressRound m codes n).1 c (clampInt (-32768) 32767 (codes.getD c 0)) := by
  induction n with
  | zero => exact fun c hc => absurd hc (Nat.not_lt_zero c)
  | succ n ih =>
    intro c hc
    rw [Dev.pressRound_succ]
    rcases Nat.lt_succ_iff_lt_or_eq.mp hc with hlt | rfl
    · exact (ih c hlt).congr (fun _ _ => rfl)
        (fun w hw => Dev.pressSample_sameBut _ _ _ _ _ _ hw (sampledObj_other (by omega) w))
    · exact (Dev.pressSample_sampledAs ..).congr
        (fun w hw => (Dev.pressRound_sameBut d m codes c _ _ hw (decide_eq_false (by omega))).symm) (fun _ _ => rfl)

theorem Dev.noAngle.keeps {d e : Dev} {P : Nat → Nat → Bool} (h : d.noAngle) (hsame : d.sameBut e P)
    (hP : ∀ k < 2, P (0x2180 + k) 0x10 = false) : e.noAngle := fun k hk => by
  have hstate : e.domState k = d.domState k := hsame _ _ (by decide) (hP k hk)
  rw [hstate]
  exact h k hk

theorem Dev.pressRound_stores_nothing {d : Dev} (h : d.noAngle) (m : Store Byte) (codes : List Int) (n : Nat) :
    (d.pressRound m codes n).2 = [] := by
  induction n with
  | zero => rfl
  | succ n ih =>
    have hround := h.keeps (Dev.pressRound_sameBut d m codes n) (fun k hk => decide_eq_false (by omega))
    rw [Dev.pressRound_succ, ih, Dev.pressSample_stores_nothing hround]
    rfl

/-- The feed-forward changes no object but the status of its synthesiser. -/
theorem Dev.ffUpdate_sameBut (d : Dev) (k : Nat) : d.sameBut (d.ffUpdate k) (synthShown k) := by
  unfold Dev.ffUpdate
  extract_lets chans live dt y far last moved e passed
  have hkept : d.sameBut e (synthShown k) := Dev.synthStatus_sameBut (d.setSynth k _) k
  split
  · exact hkept.regs (Dev.ffFrom_regs ..)
  · exact hkept

/-- A sample instant: the samples of the 24 channels, then the feed-forward of both domains. -/
theorem Dev.pressureSample_runs {d : Dev} {t : Nat} (hruns : d.runs 11 = true) (ht : t % 51200 = 0) (m : Store Byte) (codes : List Int) :
    ∃ e : Dev, e.regs = (d.pressRound m codes 24).1.regs ∧
      d.pressureSample m t codes = ((e.ffUpdate 0).ffUpdate 1,
        if e.pdOn 2 then { writes := (d.pressRound m codes 24).2 } else LoftEff.none) := by
  unfold Dev.pressureSample
  rw [if_neg (by simp [hruns, ht])]
  split
  next f l hfold =>
    have hround : d.pressRound m codes 24 = (f, l) := hfold
    rw [hround]
    exact ⟨if f.pdOn 2 && !l.isEmpty then f.accessBy 14 else f, by split <;> rfl, rfl⟩

/-- A sample instant leaves every channel as its sample is to show it, and without an angle nothing in the Loft. -/
theorem Dev.pressureSample_leaves {d : Dev} {t : Nat} (hruns : d.runs 11 = true) (ht : t % 51200 = 0) (m : Store Byte) (codes : List Int) :
    ∃ (u : Dev) (eff : LoftEff), d.pressureSample m t codes = (u, eff) ∧
      (∀ c < 24, d.sampledAs u c (clampInt (-32768) 32767 (codes.getD c 0))) ∧ (d.noAngle → eff.apply m = m) := by
  obtain ⟨e, hregs, heq⟩ := Dev.pressureSample_runs hruns ht m codes
  refine ⟨_, _, heq, fun c hc => ?_, fun h => ?_⟩
  · have hother : ∀ k < 2, ∀ w, synthShown k (0x2900 + c) w = false := fun k hk w => by
      rw [synthShown, decide_eq_false (by omega), Bool.false_and]
    exact (Dev.pressRound_sampledAs d m codes 24 c hc).congr (fun _ _ => rfl) (fun w hw =>
      (Dev.ffUpdate_sameBut _ 1 _ _ hw (hother 1 (by decide) w)).trans
        ((Dev.ffUpdate_sameBut _ 0 _ _ hw (hother 0 (by decide) w)).trans (Dev.obj_congr hregs ..)))
  · rw [Dev.pressRound_stores_nothing h]
    split <;> rfl

end Sys2Proof.Machine
end

section
/-! SUPPORT. What a sample of a vibration channel leaves (R330 to R335): its clip, the objects of its four bands, and the bands' windows. -/

namespace Sys2Proof.Machine

/-! ### The bands of a channel -/

/-- What the bands of a vibration channel measure: raw_len, and energy and exceeds of each (R332, R334). -/
abbrev bandValues (i : Nat) : List (Nat × Nat) :=
  (i, 0x31) :: (span i 0x16 0x17 ++ span i 0x1E 0x1F ++ span i 0x26 0x27 ++ span i 0x2E 0x2F)

/-- The objects that the bands of a vibration channel change: its status word and those. -/
abbrev bandObjs (i : Nat) : List (Nat × Nat) := (i, 0x06) :: bandValues i

theorem mem_bandObjs {i j w : Nat} : (bandObjs i).contains (j, w) = true ↔
    j = i ∧ (w = 0x06 ∨ w = 0x31 ∨ 0x16 ≤ w ∧ w ≤ 0x17 ∨ 0x1E ≤ w ∧ w ≤ 0x1F ∨ 0x26 ≤ w ∧ w ≤ 0x27 ∨ 0x2E ≤ w ∧ w ≤ 0x2F) := by
  simp only [List.contains_iff_mem, List.mem_cons, List.mem_append, mem_span, Prod.mk.injEq]
  omega

/-- Of the objects, what the bands of a channel change: those, and in the status word not the sticky bit of the clips. -/
abbrev Dev.bandKeeps (d e : Dev) (v : Nat) : Prop :=
  d.sparesBit e (fun j w => (bandObjs (0x2920 + v)).contains (j, w)) (0x2920 + v) 0x06 6

section
variable {d e : Dev} {v : Nat}

theorem Dev.bandKeeps_of_regs (h : e.regs = d.regs) : d.bandKeeps e v := Dev.sparesBit_of_regs h

/-- A write of a band's energy or count, or of raw_len. -/
theorem Dev.sparesBit.bandObj (h : d.bandKeeps e v) {w : Nat} (x : Nat) (hw : (bandObjs (0x2920 + v)).contains (0x2920 + v, w) = true)
    (hne : 0x06 ≠ w) : d.bandKeeps (e.setObj (0x2920 + v) w x) v :=
  h.setObj x (by decide) (by have := mem_bandObjs.mp hw; omega) hw hne

/-- A write of another status bit. -/
theorem Dev.sparesBit.bandBit (h : d.bandKeeps e v) {b : Nat} (on : Bool) (hb : 6 ≠ b) : d.bandKeeps (e.setBit (0x2920 + v) 0x06 b on) v :=
  Dev.sparesBit.setBit h on (by decide) (mem_bandObjs.mpr ⟨rfl, .inl rfl⟩) hb

theorem Dev.sparesBit.vibStatus (h : d.bandKeeps e v) : d.bandKeeps (e.vibStatus v) v :=
  (h.bandBit _ (by decide)).bandBit _ (by decide)

end

theorem Dev.setBand_regs (d : Dev) (v k : Nat) (b : Band) : (d.setBand v k b).regs = d.regs := rfl

theorem Dev.bandDiscard_keeps (d : Dev) (v k : Nat) : d.bandKeeps (d.bandDiscard v k) v := by
  unfold Dev.bandDiscard
  dsimp only
  split
  · exact (Dev.bandKeeps_of_regs (Dev.setBand_regs ..)).vibStatus
  · exact Dev.bandKeeps_of_regs (Dev.setBand_regs ..)

theorem Dev.bandClose_keeps (d : Dev) (v : Nat) {k : Nat} (hk : k < 4) (b : Band) (w : AngWin) : d.bandKeeps (d.bandClose v k b w) v := by
  unfold Dev.bandClose
  extract_lets i energy closed top copied shown hit marked
  have hclosed : d.bandKeeps closed v := (Dev.bandKeeps_of_regs (Dev.setBand_regs ..)).vibStatus
  have hcopied : d.bandKeeps copied v := by
    unfold copied
    split
    · exact (hclosed.regs (Dev.setBand_regs ..)).bandObj _ (mem_bandObjs.mpr (by omega)) (by decide)
    · exact hclosed
  have hmarked : d.bandKeeps marked v := (hcopied.bandObj _ (mem_bandObjs.mpr (by omega)) (by omega)).bandBit _ (by omega)
  split
  · exact (hmarked.bandObj _ (mem_bandObjs.mpr (by omega)) (by omega)).regs (Dev.raiseIf_regs ..)
  · exact hmarked

theorem Dev.bandSample_keeps (d : Dev) (v : Nat) {k : Nat} (hk : k < 4) (dom : Nat) (code : Int) (cl : Bool) :
    d.bandKeeps (d.bandSample v k dom code cl).1 v := by
  unfold Dev.bandSample
  extract_lets i b slot
  split
  · exact Dev.bandKeeps_of_regs rfl
  · split
    extract_lets met
    split
    · exact Dev.bandKeeps_of_regs (Dev.setBand_regs ..)
    · exact Dev.bandKeeps_of_regs (Dev.setBand_regs ..)
    · exact Dev.bandClose_keeps _ _ hk _ _

/-- A sample with an angle meets the bands in turn. -/
def Dev.bandRound (d : Dev) (v dom : Nat) (code : Int) (cl : Bool) (n : Nat) : Dev × List (Nat × List Byte) :=
  d.inTurn (fun e k => e.bandSample v k dom code cl) n

theorem Dev.bandRound_succ (d : Dev) (v dom : Nat) (code : Int) (cl : Bool) (n : Nat) : d.bandRound v dom code cl (n + 1) =
    (((d.bandRound v dom code cl n).1.bandSample v n dom code cl).1,
      (d.bandRound v dom code cl n).2 ++ ((d.bandRound v dom code cl n).1.bandSample v n dom code cl).2) :=
  d.inTurn_succ ..

theorem Dev.bandRound_keeps (d : Dev) (v dom : Nat) (code : Int) (cl : Bool) {n : Nat} (hn : n ≤ 4) :
    d.bandKeeps (d.bandRound v dom code cl n).1 v := by
  induction n with
  | zero => exact Dev.bandKeeps_of_regs rfl
  | succ n ih =>
    rw [Dev.bandRound_succ]
    exact (ih (Nat.le_of_succ_le hn)).trans (Dev.bandSample_keeps _ v hn dom code cl)

theorem Dev.vibDisable_keeps (d : Dev) (v : Nat) : d.bandKeeps (d.vibDisable v) v := by
  unfold Dev.vibDisable
  exact List.foldlRecOn _ _ (motive := fun e => d.bandKeeps e v) (Dev.bandKeeps_of_regs rfl)
    (fun e he k _ => he.trans (e.bandDiscard_keeps v k))

/-! ### Windows that are discarded -/

theorem Dev.band_setBand (d : Dev) (v k j : Nat) (b : Band) : (d.setBand v k b).band v j = if j = k then b else d.band v j := by
  unfold Dev.band Dev.setBand
  rw [Store.get_put]
  simp

theorem Dev.band_congr {d e : Dev} (h : e.vib = d.vib) (v k : Nat) : e.band v k = d.band v k := by
  unfold Dev.band
  rw [h]

theorem Dev.bandDiscard_band (d : Dev) (v k : Nat) : ∃ b : Band, b.win.isOpen = false ∧
    ∀ j, (d.bandDiscard v k).band v j = if j = k then b else d.band v j := by
  unfold Dev.bandDiscard
  extract_lets b
  split
  · exact ⟨{ b with win := {}, written := false, lastInc := true }, rfl,
      fun j => (Dev.band_congr (by simp [Dev.vibStatus]) v j).trans (Dev.band_setBand ..)⟩
  · exact ⟨{ b with win := {}, written := false }, rfl, fun j => Dev.band_setBand ..⟩

/-- Once the windows of a list of bands have been discarded, they are closed. -/
theorem Dev.foldl_bandDiscard_closes (v : Nat) {l : List Nat} (d : Dev) {k : Nat} (h : k ∈ l ∨ (d.band v k).win.isOpen = false) :
    ((l.foldl (fun d k => d.bandDiscard v k) d).band v k).win.isOpen = false := by
  induction l generalizing d with
  | nil => simpa using h
  | cons j l ih =>
    obtain ⟨b, hb, hband⟩ := d.bandDiscard_band v j
    refine ih (d.bandDiscard v j) ?_
    rw [hband]
    rcases h with h | h
    · rcases List.mem_cons.mp h with rfl | h
      · exact .inr (by rw [if_pos rfl, hb])
      · exact .inl h
    · right
      split
      · exact hb
      · exact h

theorem Dev.vibDisable_closes (d : Dev) (v : Nat) {k : Nat} (hk : k < 4) : ((d.vibDisable v).band v k).win.isOpen = false :=
  Dev.foldl_bandDiscard_closes v d (.inl (List.mem_range.mpr hk))

/-! ### One sample -/

/-- A clipped sample sets clip and clip_seen and is counted (R330). -/
def Dev.vibClipped (d : Dev) (v : Nat) : Dev :=
  (((d.setBit (0x2920 + v) 0x06 4 true).setBit (0x2920 + v) 0x06 6 true).inc (0x2920 + v) 0x07).raiseIf (d.bit (0x2920 + v) 0x05 1) 68

theorem Dev.vibClipped_leaves (d : Dev) (v : Nat) : (d.vibClipped v).obj (0x2920 + v) 0x07 = satInc32 (d.obj (0x2920 + v) 0x07) ∧
    (d.vibClipped v).bit (0x2920 + v) 0x06 6 = true ∧
    d.sameBut (d.vibClipped v) (fun j w => [(0x2920 + v, 0x06), (0x2920 + v, 0x07)].contains (j, w)) := by
  have hregs : (d.vibClipped v).regs = _ := Dev.raiseIf_regs ..
  refine ⟨?_, ?_, ?_⟩
  · rw [Dev.obj_congr hregs]
    simp [Dev.setBit, Dev.obj_inc, Dev.obj_setObj]
  · exact (Dev.bit_congr hregs ..).trans ((Dev.bit_setObj_sub _ _ _ (by decide) (by decide) (by decide)).trans (Dev.bit_setBit_self ..))
  · exact ((((Dev.sameBut_refl _ _).setObj _ (by decide) (by simp)).setObj _ (by decide) (by simp)).inc (by decide) (by simp)).regs hregs

/-- Whether a code is clipped. -/
def vibClips (code : Int) : Bool :=
  decide (clampInt (-32768) 32767 code = -32768) || decide (clampInt (-32768) 32767 code = 32767)

theorem vibClips_iff (code : Int) : vibClips code = true ↔ code ≤ -32768 ∨ 32767 ≤ code := by
  unfold vibClips clampInt
  rw [Bool.or_eq_true, decide_eq_true_iff, decide_eq_true_iff]
  omega

/-- The channel at a sample, before its bands meet it. -/
def Dev.vibHeard (d : Dev) (v : Nat) (code : Int) : Dev := if vibClips code then d.vibClipped v else d

theorem Dev.vibHeard_sameBut (d : Dev) (v : Nat) (code : Int) :
    d.sameBut (d.vibHeard v code) (fun j w => [(0x2920 + v, 0x06), (0x2920 + v, 0x07)].contains (j, w)) := by
  unfold Dev.vibHeard
  split
  · exact (d.vibClipped_leaves v).2.2
  · exact Dev.sameBut_refl _ _

section
variable {d : Dev} {v t : Nat} (hruns : d.runs 11 = true) (ht : t % 10240 = 0) (hon : d.obj (0x2920 + v) 0x01 ≠ 0)
include hruns ht hon

/-- With an angle the bands meet the sample; without one their windows are discarded (R332, R335). -/
theorem Dev.vibrationSample_runs (code : Int) : ∃ (u : Dev) (eff : LoftEff), d.vibrationSample v t code = (u, eff) ∧
    (d.vibHeard v code).bandKeeps u v ∧
    (d.domState (d.obj (0x2920 + v) 0x02) ≠ 3 → d.domState (d.obj (0x2920 + v) 0x02) ≠ 4 →
      eff = LoftEff.none ∧ u = (d.vibHeard v code).vibDisable v) := by
  have hkept := d.vibHeard_sameBut v code
  have hdom : (d.vibHeard v code).obj (0x2920 + v) 0x02 = d.obj (0x2920 + v) 0x02 := hkept _ _ (by decide) (by simp)
  have hstate : ∀ k, (d.vibHeard v code).domState k = d.domState k := fun k => hkept _ _ (by decide) (by simp)
  unfold Dev.vibrationSample
  rw [if_neg (by simp [hruns, ht, hon])]
  extract_lets code' cl heard dom
  have hheard : heard = d.vibHeard v code := rfl
  clear_value heard
  subst hheard
  split
  next hangle =>
    split
    next f l hfold =>
      have hround : (d.vibHeard v code).bandRound v dom code' cl 4 = (f, l) := hfold
      have hbands := (d.vibHeard v code).bandRound_keeps v dom code' cl (Nat.le_refl 4)
      rw [hround] at hbands
      refine ⟨_, _, rfl, hbands.regs (by split <;> rfl), fun h3 h4 => ?_⟩
      simp [dom, hdom, hstate, h3, h4] at hangle
  next =>
    exact ⟨_, _, rfl, Dev.vibDisable_keeps _ v, fun _ _ => ⟨rfl, rfl⟩⟩

/-- A vibration sample: its clip is counted, the bands' objects change beside that, and without an angle every window ends up closed. -/
theorem Dev.vibrationSample_leaves (code : Int) : ∃ (u : Dev) (eff : LoftEff), d.vibrationSample v t code = (u, eff) ∧
    (code ≤ -32768 ∨ 32767 ≤ code →
      u.obj (0x2920 + v) 0x07 = satInc32 (d.obj (0x2920 + v) 0x07) ∧ u.bit (0x2920 + v) 0x06 6 = true) ∧
    (-32768 < code → code < 32767 → u.obj (0x2920 + v) 0x07 = d.obj (0x2920 + v) 0x07) ∧
    (d.domState (d.obj (0x2920 + v) 0x02) ≠ 3 → d.domState (d.obj (0x2920 + v) 0x02) ≠ 4 →
      eff = LoftEff.none ∧ ∀ k < 4, (u.band v k).win.isOpen = false) ∧
    d.sameBut u (fun j w => ((0x2920 + v, 0x06) :: (0x2920 + v, 0x07) :: bandValues (0x2920 + v)).contains (j, w)) := by
  obtain ⟨u, eff, heq, ⟨hbands, hbit⟩, hrest⟩ := Dev.vibrationSample_runs hruns ht hon code
  have hcount : u.obj (0x2920 + v) 0x07 = (d.vibHeard v code).obj (0x2920 + v) 0x07 :=
    hbands _ _ (by decide) (Bool.eq_false_iff.mpr (fun h => by have := mem_bandObjs.mp h; omega))
  refine ⟨u, eff, heq, fun hclip => ?_, fun hlow hhigh => ?_, fun h3 h4 => ?_, ?_⟩
  · have hheard : d.vibHeard v code = d.vibClipped v := if_pos ((vibClips_iff code).mpr hclip)
    obtain ⟨hc, hb, -⟩ := d.vibClipped_leaves v
    rw [hcount, hbit, hheard]
    exact ⟨hc, hb⟩
  · have hheard : d.vibHeard v code = d := if_neg (fun h => by have := (vibClips_iff code).mp h; omega)
    rw [hcount, hheard]
  · obtain ⟨heff, rfl⟩ := hrest h3 h4
    exact ⟨heff, fun k hk => Dev.vibDisable_closes _ v hk⟩
  · refine ((d.vibHeard_sameBut v code).mono (fun j w h => ?_)).trans (hbands.mono (fun j w h => ?_))
    · simp only [List.contains_iff_mem, List.mem_cons, List.not_mem_nil, or_false] at h ⊢
      exact h.elim .inl (fun h => .inr (.inl h))
    · simp only [List.contains_iff_mem, List.mem_cons] at h ⊢
      exact h.elim .inl (fun h => .inr (.inr h))

end

end Sys2Proof.Machine
end

section
/-! SUPPORT. The results of a pressure cycle (R328, R329), which C2 takes off the channel's queue and writes to its object and its counters;
and the statement about samples and results. -/

namespace Sys2Proof.Machine

/-! ### The records of the channels beside their objects -/

theorem Dev.press_congr {d e : Dev} (h : e.pressures = d.pressures) (c : Nat) : e.press c = d.press c := by
  unfold Dev.press
  rw [h]

@[simp] theorem Dev.press_setPress_self (d : Dev) (c : Nat) (p : Press) : (d.setPress c p).press c = p := Store.get_put_self ..

@[simp] theorem Dev.raiseIf_pressures (d : Dev) (b : Bool) (x : Nat) : (d.raiseIf b x).pressures = d.pressures := by
  unfold Dev.raiseIf Dev.raise
  dsimp only
  split_ifs <;> rfl

/-- One device has the channels' records of another, and its objects but for those of a list. -/
def Dev.showsIn (d e : Dev) (l : List (Nat × Nat)) : Prop :=
  e.pressures = d.pressures ∧ d.sameBut e (fun i w => l.contains (i, w))

section
variable {d e f : Dev} {l m : List (Nat × Nat)} {i u : Nat}

theorem Dev.showsIn_refl (d : Dev) (l : List (Nat × Nat)) : d.showsIn d l := ⟨rfl, Dev.sameBut_refl _ _⟩

theorem Dev.showsIn.setObj (h : d.showsIn e l) (v : Nat) (hu : u < 256) (hin : (i, u) ∈ l) : d.showsIn (e.setObj i u v) l :=
  ⟨h.1, h.2.setObj v hu (List.contains_iff_mem.mpr hin)⟩

theorem Dev.showsIn.raiseIf (h : d.showsIn e l) (b : Bool) (x : Nat) : d.showsIn (e.raiseIf b x) l :=
  ⟨(Dev.raiseIf_pressures ..).trans h.1, h.2.regs (Dev.raiseIf_regs ..)⟩

theorem Dev.showsIn.trans (h : d.showsIn e l) (g : e.showsIn f l) : d.showsIn f l := ⟨g.1.trans h.1, h.2.trans g.2⟩

theorem Dev.showsIn.widen (h : d.showsIn e l) (hsub : l ⊆ m) : d.showsIn e m :=
  ⟨h.1, h.2.mono (fun _ _ hin => List.contains_iff_mem.mpr (hsub (List.contains_iff_mem.mp hin)))⟩

theorem Dev.showsIn.obj (h : d.showsIn e l) (hu : u < 256) (hout : (i, u) ∉ l) : e.obj i u = d.obj i u :=
  h.2 _ _ hu (Bool.eq_false_iff.mpr (fun hin => hout (List.contains_iff_mem.mp hin)))

end

/-! ### What is written of a cycle -/

/-- What the first write of a cycle shows: the status bit over_pressure, and :12, :13, :14, :16 (R328). -/
abbrev mainObjs (i : Nat) : List (Nat × Nat) := [(i, 0x10), (i, 0x12), (i, 0x13), (i, 0x14), (i, 0x16)]

/-- What the last write of a cycle shows: :15 and :17 (R328). -/
abbrev lastObjs (i : Nat) : List (Nat × Nat) := [(i, 0x15), (i, 0x17)]

theorem Dev.resultsMain_shows (d : Dev) (m : Store Byte) (c : Nat) (r : PressRes) :
    d.showsIn (d.resultsMain m c r).1 (mainObjs (0x2900 + c)) := by
  unfold Dev.resultsMain
  extract_lets i g
  split
  extract_lets ixs ps
  split
  extract_lets shown lim hot warned
  have hin : ∀ w ∈ [0x10, 0x12, 0x13, 0x14, 0x16], (i, w) ∈ mainObjs i := fun w h => by simpa [mainObjs] using h
  have hshown : d.showsIn shown (mainObjs i) :=
    ((Dev.showsIn_refl _ _).setObj _ (by decide) (hin 0x12 (by decide))).setObj _ (by decide) (hin 0x13 (by decide))
  have hwarned : d.showsIn warned (mainObjs i) := by
    unfold warned
    split
    · exact (hshown.setObj _ (by decide) (hin 0x10 (by decide))).raiseIf _ _
    · exact hshown
  split
  next e fl heq =>
    split at heq
    all_goals
      cases heq
      exact (hwarned.setObj _ (by decide) (hin 0x14 (by decide))).setObj _ (by decide) (hin 0x16 (by decide))

theorem Dev.resultsLast_shows (d : Dev) (m : Store Byte) (c : Nat) (r : PressRes) :
    d.showsIn (d.resultsLast m c r) (lastObjs (0x2900 + c)) := by
  unfold Dev.resultsLast
  extract_lets i g
  have hin : ∀ w ∈ [0x15, 0x17], (i, w) ∈ lastObjs i := fun w h => by simpa [lastObjs] using h
  split
  all_goals exact ((Dev.showsIn_refl _ _).setObj _ (by decide) (hin 0x15 (by decide))).setObj _ (by decide) (hin 0x17 (by decide))

/-- The counter of the cycles that ended as one did: cycles_valid or cycles_invalid (R329). -/
def PressRes.counter (r : PressRes) : Nat := if r.valid then 0x1A else 0x1B

/-- The counter of the cycles that ended otherwise. -/
def PressRes.otherCounter (r : PressRes) : Nat := if r.valid then 0x1B else 0x1A

theorem PressRes.counters (r : PressRes) :
    r.counter = 0x1A ∧ r.otherCounter = 0x1B ∨ r.counter = 0x1B ∧ r.otherCounter = 0x1A := by
  unfold PressRes.counter PressRes.otherCounter
  cases r.valid <;> decide

/-- What the results of a cycle change. -/
abbrev cycleObjs (i : Nat) : List (Nat × Nat) := (i, 0x10) :: (i, 0x1A) :: (i, 0x1B) :: span i 0x11 0x18

theorem mem_cycleObjs {i w : Nat} : (i, w) ∈ cycleObjs i ↔ 0x10 ≤ w ∧ w ≤ 0x18 ∨ w = 0x1A ∨ w = 0x1B := by
  simp only [List.mem_cons, mem_span, Prod.mk.injEq, true_and]
  omega

/-- What a cycle's results change before its count and its counter. -/
abbrev shownObjsOf (i : Nat) : List (Nat × Nat) := mainObjs i ++ lastObjs i

theorem mem_shownObjsOf {i w : Nat} : (i, w) ∈ shownObjsOf i ↔ w = 0x10 ∨ 0x12 ≤ w ∧ w ≤ 0x17 := by
  simp only [List.mem_append, List.mem_cons, List.not_mem_nil, or_false, Prod.mk.injEq, true_and]
  omega

theorem shownObjsOf_sub (i : Nat) : shownObjsOf i ⊆ cycleObjs i := by
  rintro ⟨j, w⟩ h
  have hj : j = i := by
    simp only [List.mem_append, List.mem_cons, List.not_mem_nil, or_false, Prod.mk.injEq] at h
    omega
  subst hj
  have := mem_shownObjsOf.mp h
  exact mem_cycleObjs.mpr (by omega)

/-- A complete cycle's flags and count are written, and it is counted as valid or invalid. -/
def Dev.cycleCounted (d : Dev) (i flags : Nat) (r : PressRes) : Dev :=
  ((d.setObj i 0x18 flags).setObj i 0x11 r.count).inc i r.counter

theorem Dev.cycleCounted_counts (d : Dev) (i flags : Nat) (r : PressRes) :
    d.showsIn (d.cycleCounted i flags r) (cycleObjs i) ∧
    (d.cycleCounted i flags r).obj i 0x11 = r.count ∧
    (d.cycleCounted i flags r).obj i r.counter = satInc32 (d.obj i r.counter) ∧
    (d.cycleCounted i flags r).obj i r.otherCounter = d.obj i r.otherCounter := by
  unfold Dev.cycleCounted
  refine ⟨?_, ?_⟩
  · exact (((Dev.showsIn_refl _ _).setObj _ (by decide) (mem_cycleObjs.mpr (by decide))).setObj _ (by decide)
      (mem_cycleObjs.mpr (by decide))).setObj _ (by have := r.counters; omega) (mem_cycleObjs.mpr (by have := r.counters; omega))
  · rcases r.counters with ⟨hc, ho⟩ | ⟨hc, ho⟩
    all_goals
      rw [hc, ho]
      simp [Dev.obj_inc, Dev.obj_setObj]

/-- The results of a complete cycle are shown, then it is counted, then its sources are raised. -/
theorem Dev.resultsFinal_whole (d : Dev) (m : Store Byte) (c : Nat) {r : PressRes} (hwhole : r.whole = true) :
    ∃ (e : Dev) (flags : Nat) (valid fault : Bool), d.showsIn e (shownObjsOf (0x2900 + c)) ∧
      d.resultsFinal m c r = ((e.cycleCounted (0x2900 + c) flags r).raiseIf valid 64).raiseIf fault 65 := by
  unfold Dev.resultsFinal
  extract_lets i
  rw [if_neg (by simp [hwhole])]
  split
  next e extra heq =>
    have he : d.showsIn e (mainObjs i) := by
      split at heq
      · cases heq
        exact d.resultsMain_shows m c r
      · cases heq
        exact Dev.showsIn_refl _ _
    exact ⟨e.resultsLast m c r, _, _, _, (he.widen (List.subset_append_left ..)).trans
      ((e.resultsLast_shows m c r).widen (List.subset_append_right ..)), rfl⟩

theorem Dev.resultsFinal_counts (d : Dev) (m : Store Byte) (c : Nat) {r : PressRes} (hwhole : r.whole = true) :
    d.showsIn (d.resultsFinal m c r) (cycleObjs (0x2900 + c)) ∧
    (d.resultsFinal m c r).obj (0x2900 + c) 0x11 = r.count ∧
    (d.resultsFinal m c r).obj (0x2900 + c) r.counter = satInc32 (d.obj (0x2900 + c) r.counter) ∧
    (d.resultsFinal m c r).obj (0x2900 + c) r.otherCounter = d.obj (0x2900 + c) r.otherCounter := by
  obtain ⟨e, flags, valid, fault, he, heq⟩ := d.resultsFinal_whole m c hwhole
  obtain ⟨hshows, hcount, hcounter, hother⟩ := e.cycleCounted_counts (0x2900 + c) flags r
  have hkept : ∀ w ∈ [0x1A, 0x1B], e.obj (0x2900 + c) w = d.obj (0x2900 + c) w := fun w hw => by
    have hw' : w = 0x1A ∨ w = 0x1B := by simpa using hw
    exact he.obj (by omega) (fun h => by have := mem_shownObjsOf.mp h; omega)
  rw [heq]
  simp only [Dev.raiseIf_obj]
  refine ⟨(((he.widen (shownObjsOf_sub _)).trans hshows).raiseIf _ _).raiseIf _ _, hcount, ?_, ?_⟩
  · rw [hcounter, hkept _ (by rcases r.counters with ⟨h, -⟩ | ⟨h, -⟩ <;> simp [h])]
  · rw [hother, hkept _ (by rcases r.counters with ⟨-, h⟩ | ⟨-, h⟩ <;> simp [h])]

/-- The results of a cycle that is not complete: result_flags alone (R329). -/
theorem Dev.resultsFinal_broken (d : Dev) (m : Store Byte) (c : Nat) {r : PressRes} (hwhole : r.whole = false) :
    d.resultsFinal m c r = d.setObj (0x2900 + c) 0x18 r.flags :=
  if_pos (by rw [hwhole]; rfl)

/-- What C2 writes before the end of the cycle: the first results, their flags and their count. -/
def Dev.resultsEarly (d : Dev) (m : Store Byte) (c : Nat) (r : PressRes) : Dev :=
  (((d.resultsMain m c r).1.setObj (0x2900 + c) 0x18 (r.flags + (d.resultsMain m c r).2)).setObj (0x2900 + c) 0x11 r.count)

theorem Dev.resultsEarly_shows (d : Dev) (m : Store Byte) (c : Nat) (r : PressRes) :
    d.showsIn (d.resultsEarly m c r) (cycleObjs (0x2900 + c)) :=
  ((((d.resultsMain_shows m c r).widen (List.subset_append_left ..)).widen (shownObjsOf_sub _)).setObj _ (by decide)
    (mem_cycleObjs.mpr (by decide))).setObj _ (by decide) (mem_cycleObjs.mpr (by decide))

/-! ### The queue of a channel -/

/-- The oldest results of a channel are taken off its queue. -/
def Dev.cycleTaken (d : Dev) (c : Nat) (rest : List PressRes) : Dev := d.setPress c { d.press c with results := rest }

section
variable {d : Dev} {c : Nat} {r : PressRes} {rest : List PressRes} (hruns : d.runs 11 = true) (hup : d.coreDown 2 = false)
  (hres : (d.press c).results = r :: rest)
include hruns hup hres

theorem Dev.cycleResults_early (m : Store Byte) (hfinal : r.final = false) :
    d.cycleResults m c = (d.cycleTaken c rest).resultsEarly m c r := by
  simp [Dev.cycleResults, Dev.cycleTaken, Dev.resultsEarly, hres, hruns, hup, hfinal]

theorem Dev.cycleResults_final (m : Store Byte) (hfinal : r.final = true) :
    d.cycleResults m c = (d.cycleTaken c rest).resultsFinal m c r := by
  simp [Dev.cycleResults, Dev.cycleTaken, hres, hruns, hup, hfinal]

end

/-- Results written to the object of a channel whose oldest ones are taken: its queue holds the others, and the objects that they change. -/
theorem Dev.cycleTaken_shows {d u : Dev} {c : Nat} {rest : List PressRes} {l : List (Nat × Nat)}
    (h : (d.cycleTaken c rest).showsIn u l) : (u.press c).results = rest ∧ d.sameBut u (fun i w => l.contains (i, w)) :=
  ⟨by rw [Dev.press_congr h.1, Dev.cycleTaken, Dev.press_setPress_self], (Dev.sameBut_of_regs rfl).trans h.2⟩

/-! ### The statement -/

theorem exec_pressureSample (s : State) (t : Nat) (codes : List Int) :
    exec (.pressureSample t codes) s = execPressureSample t codes s := rfl

theorem exec_vibrationSample (s : State) (t : Nat) (v : Fin 8) (code : Int) :
    exec (.vibrationSample t v code) s = execVibrationSample t v code s := rfl

/-- Settles O38: a pressure sample leaves every channel as its code has it, a vibration sample its clip and its bands; the results of a cycle
come to the object and its counters from the queue of the channel. -/
theorem samplesAndCycles : Obligations.SamplesAndCycles := by
  refine ⟨?_, ?_⟩
  · intro s t d hruns
    refine ⟨fun codes ht => ?_, fun v code ht hon => ?_⟩
    · obtain ⟨u, eff, heq, hsampled, hloft⟩ := Dev.pressureSample_leaves hruns ht s.loft codes
      exact ⟨_, State.exec_of_both (f := fun m d => d.pressureSample m t codes) (exec_pressureSample ..) heq, fun c hc => (hsampled c hc).1,
        fun c hc => (hsampled c hc).2, fun h => hloft h⟩
    · obtain ⟨u, eff, heq, hclip, hclear, hrest, hsame⟩ := Dev.vibrationSample_leaves hruns ht hon code
      refine ⟨_, State.exec_of_both (f := fun _ d => d.vibrationSample v t code) (exec_vibrationSample ..) heq, hclip, hclear,
        fun h3 h4 => ?_, hsame⟩
      obtain ⟨rfl, hclosed⟩ := hrest h3 h4
      exact ⟨rfl, hclosed⟩
  · intro s t c r rest d i hruns hup hres
    have hexec : ∀ {u}, d.cycleResults s.loft c = u → exec (.cycleResults t c) s = .next { s with dev := u } := fun h =>
      State.exec_of_both (f := fun m d => (d.cycleResults m c, {})) rfl (Prod.ext h rfl)
    cases hfinal : r.final
    case false =>
      obtain ⟨hqueue, hsame⟩ := Dev.cycleTaken_shows (Dev.resultsEarly_shows (d.cycleTaken c rest) s.loft c r)
      exact State.does_of_dev (hexec (Dev.cycleResults_early hruns hup hres s.loft hfinal))
        ⟨hqueue, fun _ => Dev.obj_setObj_self .., nofun, nofun⟩ hsame
    case true =>
      have hrun := hexec (Dev.cycleResults_final hruns hup hres s.loft hfinal)
      cases hwhole : r.whole
      case false =>
        rw [Dev.resultsFinal_broken _ _ _ hwhole] at hrun
        obtain ⟨hqueue, hsame⟩ := Dev.cycleTaken_shows
          ((Dev.showsIn_refl (d.cycleTaken c rest) (cycleObjs i)).setObj (u := 0x18) r.flags (by decide) (mem_cycleObjs.mpr (by decide)))
        exact State.does_of_dev hrun ⟨hqueue, by simp, fun _ _ => ⟨Dev.obj_setObj_self .., (Dev.sameBut_of_regs rfl).setObj _ (by decide)
          (by simp [i])⟩, nofun⟩ hsame
      case true =>
        obtain ⟨hshows, hcount, hcounter, hother⟩ := (d.cycleTaken c rest).resultsFinal_counts s.loft c hwhole
        obtain ⟨hqueue, hsame⟩ := Dev.cycleTaken_shows hshows
        exact State.does_of_dev hrun ⟨hqueue, fun _ => hcount, nofun, fun _ _ => ⟨hcounter, hother⟩⟩ hsame

end Sys2Proof.Machine
end

section
/-! SUPPORT. The Loft under every command: what can stop, its canonical form, and the commands that store nothing into it (R401,
R402). -/

namespace Sys2Proof.Machine

/-! ### Stops and the form of the Loft -/

/-- A request for a slot that is no well-placed access stops the command: it lies outside the Loft's addresses or spans a word. -/
theorem execLoftAccess_fault {t : Nat} {b : Fin 8} {reqs : List LoftReq} {s : State} {e : Fault}
    (h : execLoftAccess t b reqs s = .fault e) :
    (e = .loftAddress ∧ ∃ r ∈ reqs, loftSize ≤ r.addr) ∨
      (e = .loftSpan ∧ ∃ r ∈ reqs, reqSpans r = true ∧ ∀ q ∈ reqs, q.addr < loftSize) := by
  unfold execLoftAccess at h
  split at h
  · next hout =>
    cases h
    simpa [reqOutside] using hout
  · next hin =>
    split at h
    · next hspan =>
      cases h
      obtain ⟨r, hr, hs⟩ := List.any_eq_true.mp hspan
      exact .inr ⟨rfl, r, hr, hs, by simpa [reqOutside] using hin⟩
    · cases h

/-- Settles O3: every command's meaning is a next state, but for the two refusals of a place that LOFT_ACCESS makes. -/
theorem stopsOnlyAtLoftAccess : Obligations.StopsOnlyAtLoftAccess := by
  refine ⟨fun c s e h => ?_, fun c s e h => ?_⟩
  · cases c
    case loftAccess t b reqs =>
      simp only [exec, execLoftAccess] at h
      split at h
      · cases h
      · split at h <;> cases h
    all_goals cases h
  · cases c
    case loftAccess t b reqs => exact ⟨t, b, reqs, rfl, execLoftAccess_fault h⟩
    all_goals cases h

/-! ### Requests that store nothing into the Loft -/

theorem Dev.sopRead_eff (d : Dev) (m : Store Byte) (f : Frame) : (d.sopRead m f).eff = {} := by
  unfold Dev.sopRead
  dsimp only
  split <;> rfl

theorem Dev.blockStart_eff (d : Dev) (m : Store Byte) (f : Frame) : (d.blockStart m f).eff = {} := by
  unfold Dev.blockStart
  dsimp only
  split <;> rfl

theorem Dev.blockData_eff (d : Dev) (f : Frame) (segs : Nat) : (d.blockData f segs).eff = {} := by
  unfold Dev.blockData
  dsimp only
  split
  · rfl
  · rfl
  · split <;> split <;> rfl

theorem Dev.claimAnswer_eff (d : Dev) (cls entry : Nat) (insts : List Nat) (conflict : Option Nat) (o : Option Status) :
    (d.claimAnswer cls entry insts conflict o).eff = {} := by
  cases o <;> rfl

theorem Dev.sopOpen_eff (d : Dev) (f : Frame) : (d.sopOpen f).eff = {} := by
  unfold Dev.sopOpen
  dsimp only
  split
  · rfl
  · split <;> rfl

theorem Dev.sopClose_eff (d : Dev) (f : Frame) : (d.sopClose f).eff = {} := by
  unfold Dev.sopClose
  split <;> rfl

theorem Dev.sopDoze_eff (d : Dev) (f : Frame) : (d.sopDoze f).eff = {} := by
  unfold Dev.sopDoze
  split <;> rfl

theorem Dev.sopPing_eff (d : Dev) (f : Frame) : (d.sopPing f).eff = {} := by
  unfold Dev.sopPing
  split <;> rfl

theorem Dev.sopAck_eff (d : Dev) (f : Frame) : (d.sopAck f).eff = {} := by
  unfold Dev.sopAck
  split <;> rfl

/-- A block write of another block than the Loft's stores nothing into the Loft. -/
theorem Dev.blockApply_eff {d : Dev} {w : Wr} (h : w.kind ≠ .loft) (data : List Byte) (nvOk : Bool) :
    (d.blockApply w data nvOk).eff = {} := by
  unfold Dev.blockApply
  split
  · rfl
  · split
    · split <;> rfl
    · exact Dev.windowEff_none (fun hk => absurd hk h)

/-- A block write reaches the Loft through its own object alone. -/
theorem Dev.blockWrite_eff {d : Dev} {f : Frame} {x : Xfer} (hx : x.index ≠ 0x2D00) (nvOk : Bool) :
    (d.blockWrite f x nvOk).eff = {} := by
  unfold Dev.blockWrite
  dsimp only
  split
  · rfl
  · next b hb =>
    split
    · rfl
    · split
      · rfl
      · exact Dev.blockApply_eff (w := hostWr f.req.port x.index b _) (fun hk => hx (blockOf_loft hb hk)) _ _

/-- The transfer that a request continues is one of the request's object. -/
theorem Dev.xferOf_index {d : Dev} {f : Frame} {x : Xfer} (h : d.xferOf f = some x) : x.index = f.index := by
  unfold Dev.xferOf at h
  split at h
  · split at h
    · next hx =>
      cases h
      exact hx.1
    · cases h
  · cases h

theorem Dev.blockEnd_eff {d : Dev} {f : Frame} (hi : f.index ≠ 0x2D00) (nvOk : Bool) : (d.blockEnd f nvOk).eff = {} := by
  unfold Dev.blockEnd
  dsimp only
  split
  · rfl
  · rfl
  · next x _ hx =>
    split
    · exact Dev.blockWrite_eff (Dev.xferOf_index hx ▸ hi) nvOk
    · rfl

/-- A frame that is no write of a Loft window stores nothing into the Loft. -/
theorem Dev.sopBody_eff {m : Store Byte} {f : Frame} {segs : Nat} {nvOk : Bool} {d : Dev}
    (h : f.index = 0x2D00 → f.op ≠ 0x02 ∧ f.op ≠ 0x05) : (Dev.sopBody m f segs nvOk d).eff = {} := by
  unfold Dev.sopBody
  split
  · exact Dev.sopRead_eff ..
  · next hop => exact Dev.sopWrite_eff (fun hi => absurd hop (h hi).1)
  · exact Dev.blockStart_eff ..
  · exact Dev.blockData_eff ..
  · next hop => exact Dev.blockEnd_eff (fun hi => (h hi).2 hop) nvOk
  · exact Dev.claimAnswer_eff ..
  · exact Dev.claimAnswer_eff ..
  · exact Dev.sopOpen_eff ..
  · exact Dev.sopClose_eff ..
  · exact Dev.sopDoze_eff ..
  · exact Dev.sopAck_eff ..
  · exact Dev.sopPing_eff ..

theorem Dev.frame_eff {d : Dev} {m : Store Byte} {f : Frame} {ops : Nat → Bool} {segs : Nat} {nvOk : Bool}
    (h : ops f.op = true → f.index = 0x2D00 → f.op ≠ 0x02 ∧ f.op ≠ 0x05) : (d.frame m f ops segs nvOk).2 = {} := by
  unfold Dev.frame
  split
  · next hop => exact Dev.sop_eff (fun _ => Dev.sopBody_eff (by simpa using h hop))
  · rfl

/-- A command on the device and the Loft that has no effect on the Loft leaves it as it was. -/
theorem onBoth_loft {s u : State} {t : Nat} {g : Store Byte → Dev → Dev × LoftEff} (h : onBoth s t g = .next u)
    (hg : ∀ m d, (g m d).2 = {}) : u.loft = s.loft := by
  cases h
  exact congrArg (·.apply s.loft) (hg _ _)

/-- A command that hands a frame of a row to its port, where the row holds no write of a Loft window. -/
theorem frame_loft {s u : State} {t : Nat} {f : Frame} {ops : Nat → Bool} {segs : Nat} {nvOk : Bool}
    (h : onBoth s t (fun m d => d.frame m f ops segs nvOk) = .next u)
    (hop : ops f.op = true → f.index = 0x2D00 → f.op ≠ 0x02 ∧ f.op ≠ 0x05) : u.loft = s.loft :=
  onBoth_loft h (fun _ _ => Dev.frame_eff hop)

/-- The WRITE of one value elsewhere than to the Loft's window. -/
theorem putOne_loft {s u : State} {t : Nat} {r : Req} {i w n v : Nat} (h : onBoth s t (fun m d => d.putOne m r i w n v) = .next u)
    (hi : i ≠ 0x2D00 ∨ w ≠ 0x30) : u.loft = s.loft :=
  onBoth_loft h (fun _ _ => Dev.putOne_eff _ _ _ _ _ _ _ hi)

/-- A request of one frame that is no write of the Loft's object. -/
theorem sop_loft {s u : State} {t : Nat} {f : Frame} (h : onBoth s t (fun m d => d.sop f (Dev.sopBody m f 0 true)) = .next u)
    (hi : f.index = 0x2D00 → f.op ≠ 0x02 ∧ f.op ≠ 0x05) : u.loft = s.loft :=
  onBoth_loft h (fun _ _ => Dev.sop_eff (fun _ => Dev.sopBody_eff hi))

/-- A command that hands its frame to the port where that names an object other than the Loft's. -/
theorem gated_loft {s u : State} {t : Nat} {f : Frame} {c : Dev → Prop} [DecidablePred c] {ops : Nat → Bool}
    (h : onBoth s t (fun m d => if c d then d.frame m f ops 0 true else (d, {})) = .next u)
    (hi : ∀ d, c d → f.index ≠ 0x2D00) : u.loft = s.loft := by
  refine onBoth_loft h (fun m d => ?_)
  split
  · next hc => exact Dev.frame_eff (fun _ hx => absurd hx (hi d hc))
  · rfl

/-- A veto names the Guardian's object. -/
theorem Dev.isVeto_index {d : Dev} {f : Frame} (h : d.isVeto f = true) : f.index = 0x1800 := by
  simp only [Dev.isVeto, Bool.and_eq_true, decide_eq_true_eq] at h
  exact h.1.1.2

/-- Settles O7: a request stores into the Loft only as a WRITE or a block write of the Loft's window, which no row but WRITE,
BLOCK_END and WINDOW admits; a command without a request has an effect on the Loft only if it is one of those left out. -/
theorem loftUnchanged : Obligations.LoftUnchanged := by
  intro c s u hc h
  cases c
  case write | blockEnd | captureEnd | resultWrite | shotLearning | pressureSample | vibrationSample | fifoTransfer | loftAccess
    | window | dmaElement | phaseP5 | phaseP6 => cases hc
  all_goals dsimp only [exec] at h
  case read | blockStart | blockData | claim | release | sessionOpen | sessionClose | doze | notifyAck | ping =>
    exact frame_loft h (by simp; omega)
  case vetoWrite => exact gated_loft h (fun d hv => by rw [Dev.isVeto_index hv]; decide)
  case learnedExport | learnedImport =>
    exact gated_loft (c := fun _ => _) h (fun _ hx => by rw [hx.1]; decide)
  case programWrite | send => exact sop_loft h (fun hx => by simp only [putFrame] at hx; omega)
  case take => exact sop_loft h (fun _ => by simp)
  case cyclicTimeTrigger | cyclicAngleTrigger | kinkSearch | cycleResults => exact onBoth_loft h (fun _ _ => rfl)
  case forceClose | guardianLock | cyclicEnable | activate | clearFlags | arm | disarm | wheelClear | domainClear |
    learnCmdStart | learnCmdAbort | toothTableClear | synthClear | shotCancel | shotCancelDisable | sheafCancel |
    sheafCancelDisable | cancelAll | schedClear | railEnable | railDisable | mapLock | channelClear | bankClear | boostClear
    | channelClearFault | bankClearFault | channelDiagClear | bankDiagClear | boostDiagClear | driveProtectionClear |
    resetLearning | closureClear | laneHold | laneRelease | laneClear | pressureClear | vibrationClear | comparatorClear |
    rampStart | timerArm | timerStart | timerStop | timerClear | gstartRelease | routeClear | lanternEnable | lanternDisable
    | inject | lanternClear | loftClear | dmaArm | dmaArmStart | dmaStop | dmaPause | dmaClear | stackReset | routeLock |
    irqClear | stackClear | pairLock | ring | answer | holdReleaseSchedules | holdReleaseDefaults | deviceReset |
    domainReset | domainReq | sleep | powerClear | commitPersistent | commitEmpty | commitLearned =>
    exact putOne_loft h (by omega)
  all_goals
    cases h
    rfl

/-- A command that may store into the Loft does so through an effect that keeps its form. -/
theorem exec_loftWf {c : Instr} {s u : State} (hc : c.sparesLoft = false) (hs : loftWf s.loft) (h : exec c s = .next u) :
    loftWf u.loft := by
  cases c
  case loftAccess t b reqs =>
    simp only [exec, execLoftAccess] at h
    split at h
    · cases h
    · split at h
      · cases h
      · cases h
        exact LoftEff.apply_wf _ hs
  case write | blockEnd | captureEnd | resultWrite | shotLearning | pressureSample | vibrationSample | fifoTransfer | window
    | dmaElement | phaseP5 | phaseP6 =>
    cases h
    exact LoftEff.apply_wf _ hs
  all_goals cases hc

/-- Settles O6: a command that spares the Loft leaves its form alone, and the effect of any other keeps it. -/
theorem stepKeepsLoftForm : Obligations.StepKeepsLoftForm := by
  intro s u hs h
  cases hq : s.pending with
  | nil =>
    rw [step_of_idle hq] at h
    cases h
    exact hs
  | cons c rest =>
    rw [step_of_front hq] at h
    cases hc : c.sparesLoft with
    | true =>
      have hl := loftUnchanged c _ u hc h
      exact show loftWf u.loft from hl ▸ hs
    | false => exact exec_loftWf (s := { s with pending := rest }) hc hs h

/-- Settles O5: the Loft is empty at reset. -/
theorem resetKeepsLoftForm : Obligations.ResetKeepsLoftForm := loftWf_nil

end Sys2Proof.Machine
end

section
/-! SUPPORT. The image of the learned data read back (R496 to R498): each field stands where the check of an import looks for it. -/

namespace Sys2Proof.Machine

/-! ### Fields of a message -/

/-- A field behind a run of symbols is one of the rest. -/
theorem fieldOf_append {a : List Byte} (b : List Byte) {off : Nat} (n : Nat) (h : a.length ≤ off) :
    fieldOf (a ++ b) off n = fieldOf b (off - a.length) n := by
  unfold fieldOf
  rw [List.drop_append, List.drop_eq_nil_of_le h, List.nil_append]

/-- A little-endian value in front reads back what fits it. -/
theorem fieldOf_leBytes (n v : Nat) (b : List Byte) : fieldOf (leBytes n v ++ b) 0 n = v % 256 ^ n := by
  unfold fieldOf
  rw [List.drop_zero, List.take_left' (leBytes_length n v), ofLe_leBytes]

/-- A little-endian value behind a run of symbols reads back what fits it. -/
theorem fieldOf_between {a : List Byte} {off : Nat} (h : a.length = off) (n v : Nat) (b : List Byte) :
    fieldOf (a ++ (leBytes n v ++ b)) off n = v % 256 ^ n := by
  rw [fieldOf_append _ _ (by omega), ← h, Nat.sub_self, fieldOf_leBytes]

/-! ### The CRC fits its field -/

theorem crcStep_lt {c : Nat} (h : c < 2 ^ 32) : crcStep c < 2 ^ 32 := by
  unfold crcStep
  split
  · exact Nat.xor_lt_two_pow (by omega) (by decide)
  · omega

theorem crcByte_lt {c : Nat} (h : c < 2 ^ 32) (b : Byte) : crcByte c b < 2 ^ 32 := by
  have hb : c ^^^ b.toNat < 2 ^ 32 := Nat.xor_lt_two_pow h (by omega)
  unfold crcByte
  iterate 8 apply crcStep_lt
  exact hb

theorem crc32_lt (bs : List Byte) : crc32 bs < 2 ^ 32 := by
  have hfold : ∀ (l : List Byte) (c : Nat), c < 2 ^ 32 → l.foldl crcByte c < 2 ^ 32 := by
    intro l
    induction l with
    | nil => exact fun c h => h
    | cons b l ih => exact fun c h => ih _ (crcByte_lt h b)
  exact Nat.xor_lt_two_pow (hfold bs _ (by decide)) (by decide)

/-! ### The exported image -/

@[simp] theorem Dev.imageHead_length (d : Dev) (n : Nat) : (d.imageHead n).length = 60 := by simp [Dev.imageHead]

/-- The CRC of an image stands behind the header, over the header and the body. -/
theorem Dev.exportImage_crc (d : Dev) :
    fieldOf d.exportImage 60 4 = crc32 (d.exportImage.take 60 ++ d.exportImage.drop 64) := by
  have hcrc := crc32_lt (d.imageHead d.imageBody.length ++ d.imageBody)
  unfold Dev.exportImage
  dsimp only
  rw [List.append_assoc, fieldOf_between (by simp), List.take_left' (by simp), Nat.mod_eq_of_lt (by simpa using hcrc),
    ← List.append_assoc, List.drop_left' (by simp)]

/-- The fields of the header of an exported image that an import checks: magic, format, level, product code, length of the body. -/
theorem Dev.exportImage_head (d : Dev) : fieldOf d.exportImage 0 4 = imageMagic ∧ fieldOf d.exportImage 4 2 = 1 ∧
    fieldOf d.exportImage 6 1 = 1 ∧ fieldOf d.exportImage 8 4 = d.obj 0x1018 0x02 % 2 ^ 32 ∧
    fieldOf d.exportImage 36 4 = d.imageBody.length % 2 ^ 32 := by
  unfold Dev.exportImage Dev.imageHead
  simp [List.append_assoc, fieldOf_append, fieldOf_leBytes, imageMagic]

/-- Settles O59: no check of the import finds a fault in the fields, the length or the CRC that the export has laid out. -/
theorem exportedImagePasses : Obligations.ExportedImagePasses := by
  intro d hproduct
  obtain ⟨hmagic, hformat, hlevel, hcode, hlength⟩ := d.exportImage_head
  have hbody := d.imageBody_length
  have hlen : d.exportImage.length = 64 + d.imageBody.length := by
    simp [Dev.exportImage]
    omega
  rw [Nat.mod_eq_of_lt hproduct] at hcode
  rw [Nat.mod_eq_of_lt hbody] at hlength
  unfold Dev.importState
  simp [hmagic, hformat, hlevel, hcode, hlength, hlen, d.exportImage_crc]

end Sys2Proof.Machine
end

section
/-! SUPPORT. What a request leaves alone on its way in and out: every record of the device but those of the ports, the queues of the
ports and the event lines; and how an accepted write of one value is carried out on them (R15, R43, R44). -/

namespace Sys2Proof.Machine

/-! ### The records inside the device -/

/-- What the traffic of the ports leaves alone beside the objects, of the records of chapters 12 to 16: the clock, the timers, the Lanterns,
the DMA channels, the mailboxes, the non-volatile store, the cores, the resets and the sources at the cores. -/
def Dev.inner (d : Dev) : Nat × Store Timer × Store Lan × Store Dma × Store Mbox × Nv × Store Core × Rst × (Nat → Fin 4 → Pend) :=
  (d.now, d.timers, d.lans, d.dmas, d.mboxes, d.nv, d.cores, d.rst, fun src c => d.pend src c)

@[simp] theorem Dev.setObj_inner (d : Dev) (i u v : Nat) : (d.setObj i u v).inner = d.inner := (rfl)
@[simp] theorem Dev.inc_inner (d : Dev) (i u : Nat) : (d.inc i u).inner = d.inner := (rfl)
@[simp] theorem Dev.setPort_inner (d : Dev) (p : Nat) (r : Port) : (d.setPort p r).inner = d.inner := (rfl)
@[simp] theorem Dev.writtenBy_inner (d : Dev) (who i : Nat) : (d.writtenBy who i).inner = d.inner := (rfl)
@[simp] theorem Dev.accessBy_inner (d : Dev) (who : Nat) : (d.accessBy who).inner = d.inner := (rfl)

@[simp] theorem Dev.pulse_inner (d : Dev) (n : Nat) : (d.pulse n).inner = d.inner := by
  unfold Dev.pulse Dev.pulseAt
  split <;> rfl

/-- The sources at the queues of the ports stand behind those at the cores. -/
theorem Dev.setPend_inner (d : Dev) (src : Nat) {tgt : Nat} (h : 4 ≤ tgt ∧ tgt < 16) (q : Pend) : (d.setPend src tgt q).inner = d.inner := by
  have hpend : ∀ x (c : Fin 4), (d.setPend src tgt q).pend x c = d.pend x c := fun x c => by
    unfold Dev.pend Dev.setPend
    dsimp only
    rw [Store.get_put, if_neg]
    omega
  simp only [Dev.inner, hpend]
  rfl

theorem Dev.transmit_inner (d : Dev) (m : Msg) : (d.transmit m).inner = d.inner := by
  unfold Dev.transmit Dev.resolveHop
  dsimp only
  split_ifs <;> rfl

@[simp] theorem Dev.post_inner (d : Dev) (m : Msg) : (d.post m).inner = d.inner := by
  unfold Dev.post
  split
  · rfl
  · exact Dev.transmit_inner ..

theorem Dev.postFirst_inner (d : Dev) (p : Nat) (ms : List Msg) : (d.postFirst p ms).inner = d.inner := by
  unfold Dev.postFirst
  split
  · rfl
  · exact Dev.foldl_keeps Dev.inner (fun e m => e.post_inner m) _ _

theorem Dev.sendBatch_inner (d : Dev) {n : Nat} (hn : n < 6) (first : Bool) : (d.sendBatch n first).inner = d.inner := by
  unfold Dev.sendBatch
  dsimp only
  split
  · rfl
  · refine (Dev.pulse_inner ..).trans ((Dev.foldl_keeps Dev.inner (fun e x => ?_) _ _).trans ?_)
    · split
      · exact Dev.setPend_inner _ _ (by omega) _
      · exact Dev.setPend_inner _ _ (by omega) _
    · split
      · exact (Dev.postFirst_inner ..).trans rfl
      · exact (Dev.foldl_keeps Dev.inner (fun e m => e.post_inner m) _ _).trans rfl

theorem Dev.leaveDoze_inner (d : Dev) {p : Nat} (hp : p < 6) : (d.leaveDoze p).inner = d.inner := by
  unfold Dev.leaveDoze
  dsimp only
  split
  · split
    · simp [Dev.sendBatch_inner _ hp true]
    · simp
  · rfl

theorem Dev.frameIn_inner (d : Dev) {p : Nat} (hp : p < 6) (peer : Bool) : (d.frameIn p peer).inner = d.inner := by
  unfold Dev.frameIn Dev.validFrame
  dsimp only
  split
  · simp [Dev.leaveDoze_inner _ hp]
  · simp

@[simp] theorem Dev.arrive_inner (d : Dev) (r : Req) : (d.arrive r).inner = d.inner := by
  unfold Dev.arrive
  dsimp only
  split
  · split
    · rfl
    · exact Dev.frameIn_inner _ r.port.isLt _
  · exact Dev.frameIn_inner _ r.port.isLt _

@[simp] theorem Dev.served_inner (d : Dev) (f : Frame) : (d.served f).inner = d.inner := by
  unfold Dev.served Dev.staged
  split <;> simp

@[simp] theorem Dev.respond_inner (d : Dev) (f : Frame) (st : Status) (data : List Byte) (first : Bool) :
    (d.respond f st data first).inner = d.inner := by
  have hcount : (if st = .busy then d.inc (0x1100 + f.req.port.val) 0x06 else d).inner = d.inner := by split <;> rfl
  unfold Dev.respond
  dsimp only
  split
  · exact hcount
  · exact (Dev.post_inner ..).trans hcount

section
variable {d e : Dev} (h : d.inner = e.inner)
include h

theorem Dev.now_of_inner : d.now = e.now := congrArg (·.1) h
theorem Dev.timers_of_inner : d.timers = e.timers := congrArg (·.2.1) h
theorem Dev.lans_of_inner : d.lans = e.lans := congrArg (·.2.2.1) h
theorem Dev.dmas_of_inner : d.dmas = e.dmas := congrArg (·.2.2.2.1) h
theorem Dev.mboxes_of_inner : d.mboxes = e.mboxes := congrArg (·.2.2.2.2.1) h
theorem Dev.nv_of_inner : d.nv = e.nv := congrArg (·.2.2.2.2.2.1) h
theorem Dev.cores_of_inner : d.cores = e.cores := congrArg (·.2.2.2.2.2.2.1) h
theorem Dev.rst_of_inner : d.rst = e.rst := congrArg (·.2.2.2.2.2.2.2.1) h
theorem Dev.pend_of_inner (src : Nat) (c : Fin 4) : d.pend src c = e.pend src c :=
  congrFun (congrFun (congrArg (·.2.2.2.2.2.2.2.2) h) src) c

end

/-! ### An accepted write of one value -/

/-- An accepted write outside the Loft's window: the values are stored and the block reacts, on a device with the objects of the command's
instant but for those of chapter 02 and with its inner records; the response changes neither; a command comes last. -/
theorem State.does_of_applied {s : State} {t : Nat} {f : Frame} {w : Wr} {c : Instr} {changed : List (Nat × Nat)} {post : Dev → Prop}
    (h : s.serves t f 0 true = true) (hf : frameUnpad f = f) (hexec : exec c s = s.requests t f)
    (hanswer : s.answer t f = ((s.devAt t).served f).applied w) (heff : ((s.devAt t).served f).windowEff w = {})
    (hact : ∀ g e : Dev, (s.devAt t).sameBut g portObjs → g.inner = (s.devAt t).inner → e.regs = ((g.sendPart w).accept w).regs →
      e.inner = ((g.sendPart w).accept w).inner →
      post (e.commands w) ∧ g.sameBut (e.commands w) (fun j x => portObj j || changed.contains (j, x))) : s.does t c changed post := by
  have hnext := State.requests_of_serves h
  rw [hanswer, hf] at hnext
  have hserved := (s.devAt t).served_portObjs f
  obtain ⟨hpost, hsame⟩ := hact _ ((((s.devAt t).served f).applied w).dev.respond f .ok [] w.silences) hserved (Dev.served_inner ..)
    (Dev.respond_regs _ _ _ _ (by decide)) (Dev.respond_inner ..)
  refine ⟨_, hexec.trans hnext, hpost, congrArg (·.apply s.loft) heff, ?_⟩
  exact (hserved.mono (fun j x hp => by rw [show portObj j = true from hp, Bool.true_or])).trans hsame

/-- The WRITE of one value is such a write. -/
theorem State.does_of_write {s : State} {t : Nat} {r : Req} {i u n v : Nat} {b : ObjBlock} {row : ObjRow} {c : Instr}
    {changed : List (Nat × Nat)} {post : Dev → Prop} (h : s.takes t r i u n v = true)
    (hexec : exec c s = onBoth s t (fun m d => d.putOne m r i u n v)) (hb : blockOf i = some b) (hr : objRow i u = some row)
    (hn : row.ty.size = n) (hty : row.ty.isBlob = false) (hloft : u ≠ 0x30)
    (hact : ∀ g e : Dev, (s.devAt t).sameBut g portObjs → g.inner = (s.devAt t).inner →
      e.regs = ((g.sendPart (oneWr r i u n v b)).accept (oneWr r i u n v b)).regs →
      e.inner = ((g.sendPart (oneWr r i u n v b)).accept (oneWr r i u n v b)).inner →
      post (e.commands (oneWr r i u n v b)) ∧
        g.sameBut (e.commands (oneWr r i u n v b)) (fun j w => portObj j || changed.contains (j, w))) :
    s.does t c changed post :=
  State.does_of_applied h (frameUnpad_putFrame ..) (hexec.trans (State.putOne_requests ..)) (State.answer_of_takes h hb hr hn hty)
    (Dev.windowEff_none (fun _ q hq => by
      obtain rfl : q = ⟨u, v % 256 ^ n, leBytes n v⟩ := by simpa [oneWr, hostWr] using hq
      exact hloft)) hact

/-- A write of one value that is not a command has nothing to do behind its response. -/
theorem Dev.commands_value (e : Dev) {r : Req} {i u n v : Nat} {b : ObjBlock} {row : ObjRow} (hr : objRow i u = some row)
    (hc : row.acc ≠ .cmd) : e.commands (oneWr r i u n v b) = e :=
  Dev.commands_none _ (fun q hq => by
    obtain rfl : q = ⟨u, v % 256 ^ n, leBytes n v⟩ := by simpa [oneWr, hostWr] using hq
    simp [Wr.isCommand, oneWr, hostWr, hr, hc])

/-- A write of one command does that command behind its response. -/
theorem Dev.commands_one (e : Dev) {r : Req} {i u n v : Nat} {b : ObjBlock} {row : ObjRow} (hr : objRow i u = some row)
    (hc : row.acc = .cmd) : e.commands (oneWr r i u n v b) = e.command (oneWr r i u n v b) u (v % 256 ^ n) := by
  simp [Dev.commands, Wr.isCommand, oneWr, hostWr, hr, hc]

end Sys2Proof.Machine
end

section
/-! SUPPORT. The test access port (R514 to R517): what a disarm leaves of it, and its instructions. -/

namespace Sys2Proof.Machine

/-! ### A disarm leaves the test access port alone -/

@[simp] theorem Dev.tap_ite (c : Prop) [Decidable c] (a b : Dev) : (if c then a else b).tap = if c then a.tap else b.tap := apply_ite ..

/-- Steps that leave the test access port alone, one behind the other. -/
@[simp] theorem Dev.foldl_tap {α : Type} {g : Dev → α → Dev} (h : ∀ e x, (g e x).tap = e.tap) (l : List α) (d : Dev) :
    (l.foldl g d).tap = d.tap := Dev.foldl_keeps Dev.tap h l d

@[simp] theorem Dev.raise_tap (d : Dev) (x : Nat) : (d.raise x).tap = d.tap := by
  unfold Dev.raise
  dsimp only
  repeat' split
  all_goals simp

@[simp] theorem Dev.raiseIf_tap (d : Dev) (c : Bool) (x : Nat) : (d.raiseIf c x).tap = d.tap := by
  unfold Dev.raiseIf
  simp

@[simp] theorem Dev.pulseAt_tap (d : Dev) (n at_ : Nat) : (d.pulseAt n at_).tap = d.tap := by
  unfold Dev.pulseAt
  simp

@[simp] theorem Dev.pulse_tap (d : Dev) (n : Nat) : (d.pulse n).tap = d.tap := Dev.pulseAt_tap d n d.now

@[simp] theorem Dev.pulseIf_tap (d : Dev) (c : Bool) (n : Nat) : (d.pulseIf c n).tap = d.tap := by
  unfold Dev.pulseIf
  simp

@[simp] theorem Dev.mapCaps_tap (d : Dev) (f : Cap → Cap) : (d.mapCaps f).tap = d.tap := by
  unfold Dev.mapCaps
  simp

@[simp] theorem Dev.laneRelease_tap (d : Dev) (id : Nat) : (d.laneRelease id).tap = d.tap := by
  unfold Dev.laneRelease
  simp

@[simp] theorem Dev.cloQueue_tap (d : Dev) (n : Nat) (r : CloRes) : (d.cloQueue n r).tap = d.tap := by
  unfold Dev.cloQueue
  simp

@[simp] theorem Dev.capAbort_tap (d : Dev) (id : Nat) : (d.capAbort id).tap = d.tap := by
  unfold Dev.capAbort
  simp

@[simp] theorem Dev.capStop_tap (d : Dev) (scope : Nat → Nat → Bool) : (d.capStop scope).tap = d.tap := by
  unfold Dev.capStop
  simp

@[simp] theorem Dev.capNote_tap (d : Dev) (id start chanOut shotOut : Nat) : (d.capNote id start chanOut shotOut).tap = d.tap := by
  unfold Dev.capNote
  simp

@[simp] theorem Dev.capBankChange_tap (d : Dev) (b : Nat) : (d.capBankChange b).tap = d.tap := by
  unfold Dev.capBankChange
  simp

@[simp] theorem Dev.occFlag_tap (d : Dev) (id mask : Nat) : (d.occFlag id mask).tap = d.tap := by
  unfold Dev.occFlag
  simp

@[simp] theorem Dev.treeEnds_tap (d : Dev) (t : Nat) : (d.treeEnds t).tap = d.tap := by
  unfold Dev.treeEnds
  simp

@[simp] theorem Dev.countOutcome_tap (d : Dev) (t : Nat) : (d.countOutcome t).tap = d.tap := by
  unfold Dev.countOutcome
  simp

@[simp] theorem Dev.treeCheck_tap (d : Dev) (t : Nat) : (d.treeCheck t).tap = d.tap := by
  unfold Dev.treeCheck
  simp

@[simp] theorem Dev.occGone_tap (d : Dev) (id mask : Nat) : (d.occGone id mask).tap = d.tap := by
  unfold Dev.occGone
  simp

@[simp] theorem Dev.settleRefs_tap (f : Nat) (d : Dev) (t : Nat) : (Dev.settleRefs f d t).tap = d.tap := by
  induction f generalizing d with
  | zero => rfl
  | succ f ih =>
    unfold Dev.settleRefs
    split
    · rfl
    · simp [ih]

@[simp] theorem Dev.treeRefs_tap (d : Dev) (t : Nat) : (d.treeRefs t).tap = d.tap := by
  unfold Dev.treeRefs
  simp

@[simp] theorem Dev.occDrop_tap (d : Dev) (id mask : Nat) : (d.occDrop id mask).tap = d.tap := by
  unfold Dev.occDrop
  simp

@[simp] theorem Dev.occStart_tap (d : Dev) (id at_ : Nat) : (d.occStart id at_).tap = d.tap := by
  unfold Dev.occStart
  simp

@[simp] theorem Dev.occEnd_tap (d : Dev) (id mask chanOut : Nat) : (d.occEnd id mask chanOut).tap = d.tap := by
  unfold Dev.occEnd
  simp

@[simp] theorem Dev.bankStatus_tap (d : Dev) (b : Nat) : (d.bankStatus b).tap = d.tap := by
  unfold Dev.bankStatus
  simp

@[simp] theorem Dev.switchBank_tap (d : Dev) (b : Nat) (want : Option Bool) : (d.switchBank b want).tap = d.tap := by
  unfold Dev.switchBank
  dsimp only
  repeat' split
  all_goals simp

@[simp] theorem Dev.slowToFast_tap (d : Dev) (b : Nat) : (d.slowToFast b).tap = d.tap := by
  unfold Dev.slowToFast
  simp

@[simp] theorem Dev.bankApply_tap (d : Dev) (b : Nat) : (d.bankApply b).tap = d.tap := by
  unfold Dev.bankApply
  simp

@[simp] theorem Dev.sawCurrent_tap (d : Dev) (n cur : Nat) : (d.sawCurrent n cur).tap = d.tap := by
  unfold Dev.sawCurrent
  simp

@[simp] theorem Dev.boostOver_tap (d : Dev) (n : Nat) : (d.boostOver n).tap = d.tap := by
  unfold Dev.boostOver
  simp

@[simp] theorem Dev.enterPhase_tap (d : Dev) (n ph cur : Nat) : (d.enterPhase n ph cur).tap = d.tap := by
  unfold Dev.enterPhase
  simp

@[simp] theorem Dev.gotoPhase_tap (d : Dev) (n ph cur : Nat) (wait : Bool) : (d.gotoPhase n ph cur wait).tap = d.tap := by
  unfold Dev.gotoPhase
  simp

@[simp] theorem Dev.beginRun_tap (d : Dev) (n at_ : Nat) : (d.beginRun n at_).tap = d.tap := by
  unfold Dev.beginRun
  dsimp only
  repeat' split
  all_goals simp [Dev.chanOut]

@[simp] theorem Dev.driveDrop_tap (d : Dev) (n out diag : Nat) : (d.driveDrop n out diag).tap = d.tap := by
  unfold Dev.driveDrop
  dsimp only
  repeat' split
  all_goals simp [Dev.chanOut, Dev.chanDiag]

@[simp] theorem Dev.overlapDrop_tap (d : Dev) (n out : Nat) (priority : Bool) : (d.overlapDrop n out priority).tap = d.tap := by
  unfold Dev.overlapDrop
  simp [Dev.ovlCause]

@[simp] theorem Dev.checkDrop_tap (d : Dev) (n bit_ : Nat) : (d.checkDrop n bit_).tap = d.tap := by
  unfold Dev.checkDrop
  simp

@[simp] theorem Dev.takeBank_tap (d : Dev) (n at_ cur : Nat) (wait : Bool) : (d.takeBank n at_ cur wait).tap = d.tap := by
  unfold Dev.takeBank
  simp [Dev.chanOut]

@[simp] theorem Dev.bankNext_tap (f : Nat) (d : Dev) (b : Nat) : (Dev.bankNext f d b).tap = d.tap := by
  induction f generalizing d with
  | zero => rfl
  | succ f ih =>
    unfold Dev.bankNext
    dsimp only
    repeat' split
    all_goals simp [ih]

@[simp] theorem Dev.holderLeaves_tap (d : Dev) (b : Nat) : (d.holderLeaves b).tap = d.tap := by
  unfold Dev.holderLeaves
  simp

@[simp] theorem Dev.releaseIf_tap (d : Dev) (n : Nat) : (d.releaseIf n).tap = d.tap := by
  unfold Dev.releaseIf
  simp

@[simp] theorem Dev.toDecay_tap (d : Dev) (n : Nat) (slow : Bool) : (d.toDecay n slow).tap = d.tap := by
  unfold Dev.toDecay
  simp

@[simp] theorem Dev.cutChan_tap (d : Dev) (n mask : Nat) : (d.cutChan n mask).tap = d.tap := by
  unfold Dev.cutChan
  dsimp only
  repeat' split
  all_goals simp

@[simp] theorem Dev.stopOcc_tap (d : Dev) (id mask : Nat) : (d.stopOcc id mask).tap = d.tap := by
  unfold Dev.stopOcc
  split <;> simp

@[simp] theorem Dev.stopAll_tap (d : Dev) (ids : List Nat) (mask : Nat) (cnt : Option Nat) : (d.stopAll ids mask cnt).tap = d.tap := by
  have note : ∀ (e : Dev) (k : Nat), (cnt.elim e (fun c => e.inc (0x2180 + k) c)).tap = e.tap := by
    intro e k
    cases cnt <;> simp
  unfold Dev.stopAll
  simp [note]

@[simp] theorem Dev.stopWhere_tap (d : Dev) (p : Occ → Bool) (mask cnt : Nat) : (d.stopWhere p mask cnt).tap = d.tap := by
  unfold Dev.stopWhere
  simp

@[simp] theorem Dev.stateSource_tap (d : Dev) (dom : Nat) (any : Bool) : (d.stateSource dom any).tap = d.tap := by
  unfold Dev.stateSource
  simp

@[simp] theorem Dev.forgetArmed_tap (d : Dev) (dom : Nat) : (d.forgetArmed dom).tap = d.tap := by
  unfold Dev.forgetArmed
  simp

@[simp] theorem Dev.disarmOccs_tap (d : Dev) (doms : List Nat) (veto : Bool) : (d.disarmOccs doms veto).tap = d.tap := by
  unfold Dev.disarmOccs
  simp

@[simp] theorem Dev.slowEnds_tap (d : Dev) : (d.slowEnds).tap = d.tap := by
  unfold Dev.slowEnds
  simp

@[simp] theorem Dev.disarmDoms_tap (d : Dev) (doms : List Nat) (veto : Bool) : (d.disarmDoms doms veto).tap = d.tap := by
  unfold Dev.disarmDoms
  simp

@[simp] theorem Dev.boostGatesLow_tap (d : Dev) : d.boostGatesLow.tap = d.tap := by
  unfold Dev.boostGatesLow
  simp

/-! ### Instructions -/

/-- The device with an instruction current. -/
def Dev.tapSet (d : Dev) (instr : Nat) (driving floating : Bool) (captured : List Bool) : Dev :=
  { d with tap := { d.tap with instr := tapInstruction instr, driving := driving, floating := floating, captured := captured } }

/-- EXTEST, CLAMP and HIGHZ disarm both domains. -/
theorem Dev.tapLoad_blocks (d : Dev) {instr : Nat} (h : instr = 0 ∨ instr = 3 ∨ instr = 4) (driving floating : Bool) (captured : List Bool) :
    (d.tapLoad instr driving floating captured).tap = (d.tapSet instr driving floating captured).tap ∧
      ∀ k < 2, (d.tapLoad instr driving floating captured).bit (0x2180 + k) 0x11 0 = false := by
  have hblocks : (d.tapSet instr driving floating captured).tapBlocks = true := by
    rcases h with rfl | rfl | rfl <;> rfl
  have hload : d.tapLoad instr driving floating captured =
      ((d.tapSet instr driving floating captured).boostGatesLow).disarmBoth false := if_pos hblocks
  rw [hload]
  exact ⟨by simp [Dev.disarmBoth], fun k hk => Dev.disarmDoms_disarmed _ _ (by simp; omega) (by omega)⟩

/-- The other instructions change the test access port and nothing else. -/
theorem Dev.tapLoad_passes (d : Dev) {instr : Nat} (h : instr = 1 ∨ instr = 2 ∨ instr = 31) (driving floating : Bool) (captured : List Bool) :
    d.tapLoad instr driving floating captured = d.tapSet instr driving floating captured := by
  have hpasses : (d.tapSet instr driving floating captured).tapBlocks ≠ true := by
    rcases h with rfl | rfl | rfl <;> exact Bool.false_ne_true
  exact if_neg hpasses

/-- Settles O60: each instruction loads the register of the port, and the three that clamp the gates disarm both domains. -/
theorem tapInstructions : Obligations.TapInstructions := by
  intro s t hon
  refine ⟨fun cells => ?_, ?_, ?_, fun pins cells => ?_, ?_, ?_, ?_⟩
  · obtain ⟨htap, hdisarmed⟩ := Dev.tapLoad_blocks { s.devAt t with tap := { s.dev.tap with cells := cells } } (.inl rfl) true false
      s.dev.tap.captured
    exact ⟨_, State.exec_of_dev (f := fun d => d.tapExtest cells) rfl (if_pos hon), htap, hdisarmed⟩
  · obtain ⟨htap, hdisarmed⟩ := (s.devAt t).tapLoad_blocks (.inr (.inl rfl)) true false [false]
    exact ⟨_, State.exec_of_dev (f := fun d => d.tapClamp) rfl (if_pos hon), htap, hdisarmed⟩
  · obtain ⟨htap, hdisarmed⟩ := (s.devAt t).tapLoad_blocks (.inr (.inr rfl)) false true [false]
    exact ⟨_, State.exec_of_dev (f := fun d => d.tapHighz) rfl (if_pos hon), htap, hdisarmed⟩
  · have hload := Dev.tapLoad_passes { s.devAt t with tap := { s.dev.tap with cells := cells } } (.inl rfl) false false pins
    exact ⟨_, State.exec_of_dev (f := fun d => d.tapSample pins cells) rfl ((if_pos hon).trans hload), rfl, rfl⟩
  · have hload := (s.devAt t).tapLoad_passes (.inr (.inl rfl)) false false ((List.range 32).map (fun k => (s.devAt t).idcodeWord.testBit k))
    exact ⟨_, State.exec_of_dev (f := fun d => d.tapIdcode) rfl ((if_pos hon).trans hload), rfl, rfl, rfl, rfl⟩
  · have hload := (s.devAt t).tapLoad_passes (.inr (.inr rfl)) false false [false]
    exact ⟨_, State.exec_of_dev (f := fun d => d.tapBypass) rfl ((if_pos hon).trans hload), rfl, rfl⟩
  · have hload := Dev.tapLoad_passes { s.devAt t with tap := { s.dev.tap with pinned := false } } (.inr (.inl rfl)) false false
      s.dev.tap.captured
    exact ⟨_, State.exec_of_dev (f := fun d => d.tapReset) rfl ((if_pos hon).trans hload), rfl, rfl⟩

end Sys2Proof.Machine
end

section
/-! SUPPORT. Three statements about requests that fail for what comes with the request: the padding of a CAN frame, which is no part of
the message (R52), and the batch that a dozing port sends as it hears the request (R88, R89), whose pulse goes out on a line of its own
(R371). Each is refuted by a request that a host can send. -/

namespace Sys2Proof.Machine

/-! ### An acknowledgement with padding -/

/-- The state after reset with a session on P1 that accepts NOTIFY; no source is active. -/
def State.nothingActive : State :=
  { State.reset with dev := State.reset.dev.canSession 8 }

theorem nothingActive_serves : State.nothingActive.serves 0 paddedAck 0 true = true := by decide +kernel

theorem nothingActive_inactive :
    ∀ b ∈ paddedAck.data, b.toNat < 128 → (((State.nothingActive.devAt 0).arrive paddedAck.req).pend b.toNat 5).active = false := by
  decide +kernel

theorem nothingActive_count : ((State.nothingActive.devAt 0).arrive paddedAck.req).obj 0x1601 0x05 = 0 := by decide +kernel

/-- The one source that the message names is counted. -/
theorem paddedAck_counted :
    ((State.nothingActive.devAt 0).frame State.nothingActive.loft paddedAck (fun o => o = 0x0B) 0 true).1.obj 0x1601 0x05 = 1 := by
  decide +kernel

/-- Refutes O50: a NOTIFY_ACK on CAN counts the sources that it lists, not the symbols of its padding. -/
theorem not_inactiveCompletionsIgnored : ¬ Obligations.InactiveCompletionsIgnored := by
  rintro ⟨-, ack⟩
  obtain ⟨u, hexec, hcount, -⟩ := ack State.nothingActive 0 paddedAck rfl nothingActive_serves (by decide) nothingActive_inactive
  have hcounted : u.dev.obj 0x1601 0x05 = min 0xFFFFFFFF (0 + 4) := nothingActive_count ▸ hcount
  rw [dev_of_notifyAck hexec, paddedAck_counted] at hcounted
  exact absurd hcounted (by decide)

/-! ### A write of the Loft's window with padding -/

/-- The state after reset with a session on P1 that has claimed the device, and a window of one symbol in the region that hosts may write. -/
def State.windowOpen : State :=
  { State.reset with
    dev := (((State.reset.dev.canSession 0xFFFFFFFF).setObj 0x1700 0x01 1).setObj 0x2D00 0x21 0xA00000).setObj 0x2D00 0x29 1 }

/-- A write of one symbol, in a CAN frame of 12 symbols: the three last ones are padding. -/
def paddedWindow : Frame :=
  { req := canReq, op := 0x02, index := 0x2D00, sub := 0x30, ctl := 1, len := 1, data := [7, 0, 0, 0] }

theorem windowOpen_serves : State.windowOpen.serves 0 paddedWindow 0 true = true := by decide +kernel

theorem windowOpen_length : (State.windowOpen.devAt 0).obj 0x2D00 (0x28 + paddedWindow.req.port) = 1 := by decide +kernel

/-- Refutes O46: a WRITE of the window on CAN brings one symbol where its frame carries four. -/
theorem not_scrubberAndWindow : ¬ Obligations.ScrubberAndWindow := by
  intro h
  obtain ⟨u, -, -, hlength, -⟩ := ((h State.windowOpen 0).2 paddedWindow rfl rfl (by decide) windowOpen_serves).2 rfl
  rw [windowOpen_length] at hlength
  exact absurd hlength (by decide)

/-! ### The clear of the line on which a batch is announced -/

/-- The state after reset with P1 dozing in a session that accepts every feature and has claimed the device, one source pending in its
queue, and the batch held. -/
def State.batchHeld : State :=
  { State.reset with
    dev := (((((State.reset.dev.setObj 0x1201 0x01 2).setObj 0x1201 0x03 0xFFFFFFFF).setObj 0x1201 0x04 0xFFFFFFFF).setObj 0x1700 0x01 1).setPort 1
      { (State.reset.dev.port 1) with held := true }).setPend 0 5 { pending := true, occ := 1 } }

/-- Line 250, on which P1 announces its batches. -/
abbrev batchLine : Fin 256 := 250

theorem batchHeld_takes :
    State.batchHeld.takes 0 canReq (0x2F80 + batchLine / 2) (0x06 + 0x10 * (batchLine.val % 2)) 1 1 = true := by decide +kernel

theorem batchHeld_quiet : ((State.batchHeld.devAt 0).line batchLine).count = 0 := by decide +kernel

theorem dev_of_routeClear {s u : State} {t : Nat} {r : Req} {line : Fin 256} (h : exec (.routeClear t r line) s = .next u) :
    u.dev = ((s.devAt t).putOne s.loft r (0x2F80 + line / 2) (0x06 + 0x10 * (line.val % 2)) 1 1).1 := by
  cases h
  rfl

/-- The request wakes the port, and the batch that goes out pulses the line before the clear. -/
theorem batchLine_pulsed :
    (((State.batchHeld.devAt 0).putOne State.batchHeld.loft canReq (0x2F80 + batchLine / 2) (0x06 + 0x10 * (batchLine.val % 2)) 1 1).1.line
      batchLine).count = 1 := by decide +kernel

/-- Refutes O44: the clear of a line's counters does not leave the rest of the line as it was where the request for it ends the doze of
a port whose held batch pulses that line. -/
theorem not_clearsOfEngines : ¬ Obligations.ClearsOfEngines := by
  intro h
  obtain ⟨-, -, route, -⟩ := h State.batchHeld 0 canReq
  obtain ⟨u, hexec, hline, -⟩ := route batchLine batchHeld_takes
  have hcount : (u.dev.line batchLine).count = ((State.batchHeld.devAt 0).line batchLine).count := congrArg EvtLine.count hline
  rw [dev_of_routeClear hexec, batchLine_pulsed, batchHeld_quiet] at hcount
  cases hcount

end Sys2Proof.Machine
end

section
/-! SUPPORT. Two statements that leave one case out: a channel stopped by cmd 3 with every element copied, whose completion is that of the
run before (R424), and watches that fire together, of which the lower number is kept as the earlier one (R449). -/

namespace Sys2Proof.Machine

/-! ### A completion that belongs to the run before -/

/-- The state after reset with channel 0 running, every element copied, and the mark of a stop at instant 0 still on it. -/
def State.stopMarked : State :=
  { State.reset with dev := { State.reset.dev.setObj 0x2D10 0x16 2 with dmas := [(0, { all := true, stopped := some (0, false) })] } }

theorem dev_of_dmaComplete {s u : State} {t : Nat} {c : Fin 16} (h : exec (.dmaComplete t c) s = .next u) :
    u.dev = (s.devAt t).dmaComplete c := by
  cases h
  rfl

theorem stopMarked_runs :
    (State.stopMarked.devAt 0).runs 2 = true ∧ (State.stopMarked.devAt 0).dmaState 0 = 2 ∧ ((State.stopMarked.devAt 0).dma 0).all = true := by
  decide +kernel

theorem stopMarked_uncounted :
    ((State.stopMarked.devAt 0).dmaComplete 0).obj 0x2D10 0x19 ≠ satInc32 ((State.stopMarked.devAt 0).obj 0x2D10 0x19) := by
  decide +kernel

/-- Refutes O47: a channel that bears the mark of a stop counts no completion but that of the run which was stopped. -/
theorem not_dmaCommands : ¬ Obligations.DmaCommands := by
  intro h
  obtain ⟨-, -, -, -, running⟩ := h State.stopMarked 0 canReq 0
  obtain ⟨hruns, hstate, hall⟩ := stopMarked_runs
  obtain ⟨-, -, -, -, complete⟩ := running hruns
  obtain ⟨u, hexec, ⟨hcount, -⟩, -⟩ := complete hstate hall
  rw [dev_of_dmaComplete hexec] at hcount
  exact stopMarked_uncounted hcount

/-! ### Two watches that fire at one instant -/

/-- The state after reset in service with watch 0 due, of kind 3, and the record of watch 1, which has fired at the same instant, in
the wake log. -/
def State.twoWatches : State :=
  { State.reset with
    dev := { ((State.reset.dev.setObj 0x2E20 0x10 (3 * 2 ^ 28)).setObj 0x2E20 0x22 1).setObj 0x2E20 0x23 (2 ^ 28) with
      night := [(0, { live := true }), (1, { firedAt := some 0 })] } }

theorem dev_of_watchFire {s u : State} {t : Nat} {w : Fin 16} (h : exec (.watchFire t w) s = .next u) :
    u.dev = (s.devAt t).watchFire w := by
  cases h
  rfl

theorem twoWatches_due :
    (State.twoWatches.devAt 0).watchDue 0 = true ∧ (State.twoWatches.devAt 0).rst.waking = false ∧
      (State.twoWatches.devAt 0).rst.slept = none := by decide +kernel

/-- The record of watch 1 stays in front. -/
theorem twoWatches_front :
    ((State.twoWatches.devAt 0).watchFire 0).obj 0x2E20 0x23 = 2 ^ 28 ∧ (State.twoWatches.devAt 0).obj 0x2E20 0x10 = 3 * 2 ^ 28 := by
  decide +kernel

/-- Refutes O53: a watch that fires behind one of a higher number at the same instant writes its record after that one's. -/
theorem not_nightlightActs : ¬ Obligations.NightlightActs := by
  rintro ⟨fires, -⟩
  obtain ⟨hdue, hwaking, hslept⟩ := twoWatches_due
  obtain ⟨u, hexec, -, -, hrecord, -⟩ := (fires State.twoWatches 0 0 hdue hwaking).2 hslept
  obtain ⟨hfront, hkind⟩ := twoWatches_front
  have hnewest : u.dev.obj 0x2E20 0x23 = 0 * 2 ^ 28 + (State.twoWatches.devAt 0).obj 0x2E20 0x10 / 2 ^ 28 * 2 ^ 24 := hrecord
  rw [dev_of_watchFire hexec] at hnewest
  have hsame := hfront.symm.trans (hnewest.trans (by rw [hkind]))
  revert hsame
  decide

end Sys2Proof.Machine
end

section
/-! SUPPORT. An accepted write of one value to a block that does nothing more than store its values: a value is stored, and a command is
carried out behind the response, on a device with the records of the command's instant. -/

namespace Sys2Proof.Machine

/-- A subindex of `n` symbols whose write starts a command of its block. -/
def ObjBlock.Command (b : ObjBlock) (i u n : Nat) : Prop :=
  blockOf i = some b ∧ ∃ row, objRow i u = some row ∧ row.ty.size = n ∧ row.ty.isBlob = false ∧ row.acc = .cmd

/-- A subindex of `n` symbols whose write is stored. -/
def ObjBlock.Value (b : ObjBlock) (i u n : Nat) : Prop :=
  blockOf i = some b ∧ ∃ row, objRow i u = some row ∧ row.ty.size = n ∧ row.ty.isBlob = false ∧ row.acc ≠ .cmd ∧
    unstored b.kind u row.acc = false

section
variable {r : Req} {i u n v : Nat} {b : ObjBlock}

/-- A command stores nothing, and a value is stored. -/
theorem Dev.stored_command (g : Dev) (hs : b.Command i u n) : g.stored (oneWr r i u n v b) = g := by
  obtain ⟨-, row, hr, -, -, hc⟩ := hs
  simp [Dev.stored, Dev.storePut, oneWr, hostWr, hr, hc, unstored]

theorem Dev.stored_value (g : Dev) (hs : b.Value i u n) : g.stored (oneWr r i u n v b) = g.setObj i u (v % 256 ^ n) := by
  obtain ⟨-, row, hr, -, hty, -, hstores⟩ := hs
  simp only [Dev.stored, oneWr, hostWr, List.foldl_cons, List.foldl_nil, Dev.storePut, hr, hstores, Bool.false_eq_true, if_false]
  split
  · next k hk =>
    rw [hk] at hty
    cases hty
  · rfl

end

variable {s : State} {t : Nat} {r : Req} {i u n v : Nat} {b : ObjBlock} {c : Instr} {changed : List (Nat × Nat)} {post : Dev → Prop}

/-- A write of one command of such a block. -/
theorem State.does_of_quietCommand (h : s.takes t r i u n v = true)
    (hexec : exec c s = onBoth s t (fun m d => d.putOne m r i u n v)) (hs : b.Command i u n) (hk : b.kind.quiet = true) (hloft : u ≠ 0x30)
    (hact : ∀ e : Dev, (s.devAt t).sameBut e portObjs → e.inner = (s.devAt t).inner →
      post (e.command (oneWr r i u n v b) u (v % 256 ^ n)) ∧
        e.sameBut (e.command (oneWr r i u n v b) u (v % 256 ^ n)) (fun j w => changed.contains (j, w))) :
    s.does t c changed post := by
  obtain ⟨hb, row, hr, hn, hty, hc⟩ := id hs
  refine State.does_of_write h hexec hb hr hn hty hloft (fun g e hg hginner heregs heinner => ?_)
  rw [Dev.accepted_quiet g (w := oneWr r i u n v b) hk, Dev.stored_command g hs] at heregs heinner
  obtain ⟨hpost, hsame⟩ := hact e (hg.regs heregs) (heinner.trans ((Dev.writtenBy_inner ..).trans hginner))
  rw [Dev.commands_one e hr hc]
  exact ⟨hpost, (Dev.sameBut_of_regs heregs).trans (hsame.mono (fun j w hp => by rw [hp, Bool.or_true]))⟩

/-- A write of one value that such a block stores. -/
theorem State.does_of_quietValue (h : s.takes t r i u n v = true)
    (hexec : exec c s = onBoth s t (fun m d => d.putOne m r i u n v)) (hs : b.Value i u n) (hk : b.kind.quiet = true) (hloft : u ≠ 0x30)
    (hu : u < 256) (hin : changed.contains (i, u) = true)
    (hact : ∀ e : Dev, e.inner = (s.devAt t).inner → e.obj i u = v % 256 ^ n → post e) : s.does t c changed post := by
  obtain ⟨hb, row, hr, hn, hty, hc, -⟩ := id hs
  refine State.does_of_write h hexec hb hr hn hty hloft (fun g e hg hginner heregs heinner => ?_)
  rw [Dev.accepted_quiet g (w := oneWr r i u n v b) hk, Dev.stored_value g hs] at heregs heinner
  rw [Dev.commands_value e hr hc]
  refine ⟨hact e (heinner.trans hginner) ((Dev.obj_congr heregs ..).trans (Dev.obj_setObj_self ..)), ?_⟩
  exact ((Dev.sameBut_refl g _).setObj _ hu (by rw [hin, Bool.or_true])).regs heregs

end Sys2Proof.Machine
end

section
/-! SUPPORT. The priority stack of a core (R433, R435 to R439): which source is the best of those pending, what taking one and completing
it leave, and the freeze. -/

namespace Sys2Proof.Machine

/-! ### A source at a target -/

theorem Dev.pend_congr {d e : Dev} (h : d.irq = e.irq) (x y : Nat) : d.pend x y = e.pend x y := by
  unfold Dev.pend
  rw [h]

@[simp] theorem Dev.pend_setPend_self (d : Dev) (x y : Nat) (p : Pend) : (d.setPend x y p).pend x y = p := by
  simp [Dev.pend, Dev.setPend]

/-- A source at the same target is another entry. -/
theorem Dev.pend_setPend_ne (d : Dev) {x z : Nat} (y : Nat) (p : Pend) (h : z ≠ x) : (d.setPend x y p).pend z y = d.pend z y := by
  unfold Dev.pend Dev.setPend
  rw [Store.get_put, if_neg]
  omega

@[simp] theorem Dev.pend_setCore (d : Dev) (c : Nat) (r : Core) (x y : Nat) : (d.setCore c r).pend x y = d.pend x y := rfl

@[simp] theorem Dev.core_setCore_self (d : Dev) (c : Nat) (r : Core) : (d.setCore c r).core c = r := by
  simp [Dev.core, Dev.setCore]

theorem Dev.core_congr {d e : Dev} (h : d.cores = e.cores) (c : Nat) : d.core c = e.core c := by
  unfold Dev.core
  rw [h]

@[simp] theorem Pend.raised_pending (p : Pend) (prio now : Nat) : (p.raised prio now).pending = true := by
  unfold Pend.raised
  split
  · next h => exact (Bool.and_eq_true_iff.mp h).1
  · rfl

@[simp] theorem Pend.raised_active (p : Pend) (prio now : Nat) : (p.raised prio now).active = p.active := by
  unfold Pend.raised
  split <;> rfl

/-! ### Raises -/

@[simp] theorem Dev.raise_cores (d : Dev) (x : Nat) : (d.raise x).cores = d.cores := by
  unfold Dev.raise Dev.raiseAt
  dsimp only
  repeat' split
  all_goals rfl

/-- A raise makes its source pending where it goes, and leaves the others at every target as they were. -/
theorem Dev.raise_pend_ne (d : Dev) {x z : Nat} {y : Nat} (hy : y < 16) (h : z ≠ x) : (d.raise x).pend z y = d.pend z y := by
  have hat : ∀ (e : Dev) (tgt prio : Nat), tgt < 16 → (e.raiseAt x tgt prio).pend z y = e.pend z y := fun e tgt prio ht => by
    unfold Dev.raiseAt Dev.pend Dev.setPend
    dsimp only
    rw [Store.get_put, if_neg]
    omega
  unfold Dev.raise
  dsimp only
  split
  · rfl
  · split
    · next hx =>
      split
      · subst hx
        exact (hat _ _ _ (by omega)).trans rfl
      · rfl
    · split
      · exact hat _ _ _ (by omega)
      · rfl

/-- A raise of any source takes no target's activity away. -/
theorem Dev.raise_active (d : Dev) (x z : Nat) {y : Nat} (hy : y < 16) : ((d.raise x).pend z y).active = (d.pend z y).active := by
  have hat : ∀ (e : Dev) (tgt prio : Nat), tgt < 16 → ((e.raiseAt x tgt prio).pend z y).active = (e.pend z y).active :=
    fun e tgt prio ht => by
      unfold Dev.raiseAt Dev.pend Dev.setPend
      dsimp only
      rw [Store.get_put]
      split
      · next h =>
        obtain ⟨rfl, rfl⟩ : z = x ∧ y = tgt := by omega
        exact Pend.raised_active ..
      · rfl
  unfold Dev.raise
  dsimp only
  split
  · rfl
  · split
    · next hx =>
      split
      · subst hx
        exact (hat _ _ _ (by omega)).trans rfl
      · rfl
    · split
      · exact hat _ _ _ (by omega)
      · rfl

/-- A raised source is pending at the target of its route. -/
theorem Dev.raise_pending {d : Dev} {x tgt : Nat} (hon : d.pdOn 2 = true) (hx : x ≠ 127) (hroute : (d.routeOf x).1 = tgt) (htgt : tgt ≤ 9) :
    ((d.raise x).pend x tgt).pending = true := by
  have hraise : d.raise x = d.raiseAt x tgt (d.routeOf x).2 := by
    simp [Dev.raise, hon, hx, hroute, htgt]
  rw [hraise]
  simp [Dev.raiseAt]

/-- Source 127 sets C0's fault line and is pending at the queue of the Guardian's port. -/
theorem Dev.raise_fault {d : Dev} (hon : d.pdOn 2 = true) : (d.raise 127).faultLine = true ∧
    (d.obj 0x1800 0x01 ≤ 5 → ((d.raise 127).pend 127 (4 + d.obj 0x1800 0x01)).pending = true) := by
  have hraise : d.raise 127 = if d.obj 0x1800 0x01 ≤ 5 then ({ d with faultLine := true } : Dev).raiseAt 127 (4 + d.obj 0x1800 0x01) 0
      else { d with faultLine := true } := by
    simp [Dev.raise, hon]
    rfl
  rw [hraise]
  split
  · exact ⟨rfl, fun _ => by simp [Dev.raiseAt]⟩
  · next h => exact ⟨rfl, fun hg => absurd hg h⟩

theorem Dev.raise_faultLine (d : Dev) {x : Nat} (hx : x ≠ 127) : (d.raise x).faultLine = d.faultLine := by
  unfold Dev.raise Dev.raiseAt
  dsimp only
  split
  · rfl
  · split <;> rfl

/-! ### The event log -/

/-- A log entry leaves the cores, the fault line and every source but 121 as they were, and makes nothing active or inactive. -/
theorem Dev.logEvent_irq (d : Dev) (cls cause src data : Nat) :
    (d.logEvent cls cause src data).cores = d.cores ∧ (d.logEvent cls cause src data).faultLine = d.faultLine ∧
      ∀ x y, y < 16 → ((d.logEvent cls cause src data).pend x y).active = (d.pend x y).active ∧
        (x ≠ 121 → (d.logEvent cls cause src data).pend x y = d.pend x y) := by
  unfold Dev.logEvent
  dsimp only
  split
  · unfold Dev.raiseIf
    split
    · exact ⟨Dev.raise_cores .., Dev.raise_faultLine _ (by decide), fun x y hy =>
        ⟨Dev.raise_active _ _ _ hy, fun hx => Dev.raise_pend_ne _ hy hx⟩⟩
    · exact ⟨rfl, rfl, fun _ _ _ => ⟨rfl, fun _ => rfl⟩⟩
  · exact ⟨rfl, rfl, fun _ _ _ => ⟨rfl, fun _ => rfl⟩⟩

/-- A log entry changes at most the count of those dropped. -/
theorem Dev.logEvent_sameBut (d : Dev) (cls cause src data : Nat) :
    d.sameBut (d.logEvent cls cause src data) (fun i w => ([(0x2F20, 0x13)] : List (Nat × Nat)).contains (i, w)) := by
  unfold Dev.logEvent
  dsimp only
  split
  · exact ((Dev.sameBut_of_regs rfl).inc (by decide) (by decide)).regs (Dev.raiseIf_regs ..)
  · exact Dev.sameBut_of_regs rfl

/-! ### The best source -/

theorem betterSrc_or (a b : Nat × Nat) : betterSrc a b = a ∨ betterSrc a b = b := by
  unfold betterSrc
  split
  · exact .inr rfl
  · exact .inl rfl

/-- A candidate comes no later than another: by priority, then by number. -/
def srcFirst (a b : Nat × Nat) : Prop := a.2 < b.2 ∨ (a.2 = b.2 ∧ a.1 ≤ b.1)

theorem srcFirst_refl (a : Nat × Nat) : srcFirst a a := .inr ⟨rfl, le_rfl⟩

theorem srcFirst_trans {a b c : Nat × Nat} (h : srcFirst a b) (g : srcFirst b c) : srcFirst a c := by
  unfold srcFirst at *
  omega

theorem srcFirst_antisymm {a b : Nat × Nat} (h : srcFirst a b) (g : srcFirst b a) : a = b := by
  unfold srcFirst at *
  exact Prod.ext (by omega) (by omega)

theorem betterSrc_first (a b : Nat × Nat) : srcFirst (betterSrc a b) a ∧ srcFirst (betterSrc a b) b := by
  unfold betterSrc srcFirst
  split <;> constructor <;> omega

theorem bestSrc_none {l : List (Nat × Nat)} (h : bestSrc l = none) : l = [] := by
  cases l with
  | nil => rfl
  | cons a l =>
    simp only [bestSrc] at h
    split at h <;> cases h

/-- The best of a list of candidates is one of them and comes no later than any. -/
theorem bestSrc_some {l : List (Nat × Nat)} {a : Nat × Nat} (h : bestSrc l = some a) : a ∈ l ∧ ∀ b ∈ l, srcFirst a b := by
  induction l generalizing a with
  | nil => cases h
  | cons x l ih =>
    simp only [bestSrc] at h
    split at h
    · next hnone =>
      obtain rfl := Option.some.inj h
      rw [bestSrc_none hnone]
      simp [srcFirst_refl]
    · next y hsome =>
      obtain rfl := Option.some.inj h
      obtain ⟨hmem, hfirst⟩ := ih hsome
      obtain ⟨hx, hy⟩ := betterSrc_first x y
      refine ⟨?_, fun b hb => ?_⟩
      · rcases betterSrc_or x y with he | he <;> rw [he]
        · exact List.mem_cons_self ..
        · exact List.mem_cons_of_mem _ hmem
      · rcases List.mem_cons.mp hb with rfl | hb
        · exact hx
        · exact srcFirst_trans hy (hfirst b hb)

/-- A candidate is the best exactly where it is one and none comes before it. -/
theorem bestSrc_eq_some {l : List (Nat × Nat)} {a : Nat × Nat} : bestSrc l = some a ↔ a ∈ l ∧ ∀ b ∈ l, srcFirst a b := by
  refine ⟨bestSrc_some, fun ⟨hmem, hfirst⟩ => ?_⟩
  cases hbest : bestSrc l with
  | none =>
    rw [bestSrc_none hbest] at hmem
    cases hmem
  | some b =>
    obtain ⟨hb, hbfirst⟩ := bestSrc_some hbest
    rw [srcFirst_antisymm (hbfirst a hmem) (hfirst b hb)]

/-- What a stack that is not frozen presents (R435). -/
theorem Dev.presentable_iff {d : Dev} {c : Nat} (h : (d.core c).frozen = false) (src : Nat) : d.presentable c = some src ↔
    ∃ p, (src, p) ∈ d.pendingAt c ∧ p < (d.core c).ceiling ∧
      ∀ e ∈ d.pendingAt c, e.2 < (d.core c).ceiling → p < e.2 ∨ (p = e.2 ∧ src ≤ e.1) := by
  have hcandidates : d.presentable c = some src ↔
      ∃ p, bestSrc ((d.pendingAt c).filter (fun e => decide (e.2 < (d.core c).ceiling))) = some (src, p) := by
    simp [Dev.presentable, h]
  simp only [hcandidates, bestSrc_eq_some, List.mem_filter, decide_eq_true_eq, srcFirst, and_assoc, and_imp]

end Sys2Proof.Machine
end

section
/-! SUPPORT. A stack that presents, takes, completes, freezes and is reset (R433, R435 to R439): what each command leaves. -/

namespace Sys2Proof.Machine

/-! ### Taking and completing -/

/-- The device with a source taken by a core, before the log records it. -/
def Dev.taken (d : Dev) (c src : Nat) : Dev :=
  (d.setPend src c { d.pend src c with pending := false, active := true }).setCore c
    { d.core c with stack := (src, (d.pend src c).prio) :: (d.core c).stack, presented := none }

theorem Dev.taken_core (d : Dev) (c src : Nat) : ((d.taken c src).core c).stack = (src, (d.pend src c).prio) :: (d.core c).stack :=
  congrArg Core.stack (Dev.core_setCore_self ..)

theorem Dev.taken_pend (d : Dev) (c src : Nat) :
    (d.taken c src).pend src c = { d.pend src c with pending := false, active := true } := by
  simp [Dev.taken]

/-- What a core takes goes on top of its stack. -/
theorem Dev.coreTake_takes {d : Dev} {c src : Nat} (hc : c < 16) (hruns : d.runs 2 = true) (hup : d.coreDown c = false)
    (hfrozen : (d.core c).frozen = false) (hpresented : (d.core c).presented = some src) (hpending : (d.pend src c).pending = true)
    (hactive : (d.pend src c).active = false) (hprio : (d.pend src c).prio < (d.core c).ceiling) :
    ((d.coreTake c).core c).stack = (src, (d.pend src c).prio) :: (d.core c).stack ∧
      (src ≠ 121 → ((d.coreTake c).pend src c).pending = false) ∧ ((d.coreTake c).pend src c).active = true ∧
      d.sameBut (d.coreTake c) (fun i w => ([(0x2F20, 0x13)] : List (Nat × Nat)).contains (i, w)) := by
  have hdev : d.coreTake c = (d.taken c src).logEvent ((d.taken c src).srcClass src) src src (d.pend src c).occ := by
    have hguard : (!d.runs 2 || d.coreDown c || (d.core c).frozen || !(d.pend src c).pending || (d.pend src c).active ||
        !decide ((d.pend src c).prio < (d.core c).ceiling)) = false := by
      simp [hruns, hup, hfrozen, hpending, hactive, hprio]
    unfold Dev.coreTake
    simp only [hpresented, hguard, Bool.false_eq_true, if_false]
    rfl
  obtain ⟨hcores, -, hirq⟩ := (d.taken c src).logEvent_irq ((d.taken c src).srcClass src) src src (d.pend src c).occ
  obtain ⟨hkeepsActive, hkeeps⟩ := hirq src c hc
  rw [hdev]
  refine ⟨(congrArg Core.stack (Dev.core_congr hcores c)).trans (d.taken_core c src), fun hx => ?_, ?_,
    Dev.sameBut.trans (Dev.sameBut_of_regs rfl) (Dev.logEvent_sameBut _ _ _ _ _)⟩
  · rw [hkeeps hx, Dev.taken_pend]
  · rw [hkeepsActive, Dev.taken_pend]

/-- The completion of the source on top pops it. -/
theorem Dev.coreComplete_pops {d : Dev} {c src p : Nat} {rest : List (Nat × Nat)} (hruns : d.runs 2 = true) (hup : d.coreDown c = false)
    (hfrozen : (d.core c).frozen = false) (hfault : ¬(c = 0 ∧ src = 127 ∧ d.faultLine = true)) (hactive : (d.pend src c).active = true)
    (hstack : (d.core c).stack = (src, p) :: rest) : d.coreComplete c src =
      (d.setPend src c { d.pend src c with active := false }).setCore c { d.core c with stack := rest, presented := none } := by
  unfold Dev.coreComplete
  simp [hruns, hup, hfault, hfrozen, hactive, hstack]

/-- A completion of a source below the top freezes the stack. -/
theorem Dev.coreComplete_freezes {d : Dev} {c src top p : Nat} {rest : List (Nat × Nat)} (hruns : d.runs 2 = true)
    (hup : d.coreDown c = false) (hfrozen : (d.core c).frozen = false) (hfault : ¬(c = 0 ∧ src = 127 ∧ d.faultLine = true))
    (hactive : (d.pend src c).active = true) (hstack : (d.core c).stack = (top, p) :: rest) (htop : top ≠ src) :
    d.coreComplete c src = d.freeze c src top := by
  unfold Dev.coreComplete
  simp [hruns, hup, hfault, hfrozen, hactive, hstack, htop]

/-- A frozen stack completes nothing. -/
theorem Dev.coreComplete_frozen {d : Dev} {c src : Nat} (hruns : d.runs 2 = true) (hup : d.coreDown c = false)
    (hfrozen : (d.core c).frozen = true) (hfault : ¬(c = 0 ∧ src = 127 ∧ d.faultLine = true)) :
    d.coreComplete c src = d.inc (0x2E10 + c) 0x05 := by
  unfold Dev.coreComplete
  simp [hruns, hup, hfault, hfrozen]

/-- C0 completes source 127 on its fault line. -/
theorem Dev.coreComplete_faultLine {d : Dev} (hruns : d.runs 2 = true) (hup : d.coreDown 0 = false) (hfault : d.faultLine = true) :
    d.coreComplete 0 127 = { d with faultLine := false } := by
  unfold Dev.coreComplete
  simp [hruns, hup, hfault]

theorem Dev.coreTake_frozen {d : Dev} {c : Nat} (hfrozen : (d.core c).frozen = true) : d.coreTake c = d := by
  unfold Dev.coreTake
  dsimp only
  split <;> simp [hfrozen]

/-! ### The freeze -/

/-- The device as a freeze has counted it, before it is reported. -/
def Dev.frozenAt (d : Dev) (c src top : Nat) : Dev :=
  let d := d.setCore c { (d.core c) with frozen := true, presented := none }
  let d := (d.inc (0x2E10 + c) 0x06).inc 0x2E00 0x04
  (d.setObj 0x2E00 0x05 (c * 65536 + src * 256 + top)).setObj 0x2E00 0x06 d.now

theorem Dev.freeze_eq (d : Dev) (c src top : Nat) :
    d.freeze c src top = ((d.frozenAt c src top).raise 127).logEvent 5 127 127 (c * 65536 + src * 256 + top) := rfl

theorem Dev.obj_frozenAt (d : Dev) (c src top : Nat) {i u : Nat} (hu : u < 256) :
    (d.frozenAt c src top).obj i u = if i = 0x2E00 ∧ u = 0x06 then d.now else if i = 0x2E00 ∧ u = 0x05 then c * 65536 + src * 256 + top
      else if i = 0x2E00 ∧ u = 0x04 then satInc32 (d.obj 0x2E00 0x04) else if i = 0x2E10 + c ∧ u = 0x06 then
        satInc32 (d.obj (0x2E10 + c) 0x06) else d.obj i u := by
  have hcore : ∀ j w, (d.setCore c { (d.core c) with frozen := true, presented := none }).obj j w = d.obj j w :=
    fun j w => Dev.obj_congr rfl j w
  have hsub : ¬((0x2E00 : Nat) = 0x2E10 + c ∧ (0x04 : Nat) = 0x06) := by omega
  unfold Dev.frozenAt
  dsimp only
  rw [Dev.obj_setObj _ _ (by decide) hu, Dev.obj_setObj _ _ (by decide) hu, Dev.obj_inc _ (by decide) hu, Dev.obj_inc _ (by decide) hu,
    Dev.obj_inc _ (by decide) (by decide), if_neg hsub]
  simp only [hcore]
  rfl

/-- An object of a freeze reads as it was counted. -/
theorem Dev.obj_freeze (d : Dev) (c src top : Nat) {i u : Nat} (hu : u < 256) (hi : i ≠ 0x2F20) :
    (d.freeze c src top).obj i u = (d.frozenAt c src top).obj i u := by
  rw [Dev.freeze_eq, Dev.obj_logEvent _ _ _ _ _ hu hi]
  exact Dev.obj_congr (Dev.raise_regs ..) i u

/-- What a freeze leaves beside the objects: the stack as it was, frozen, and source 127 raised. -/
theorem Dev.freeze_leaves {d : Dev} {c src top : Nat} (hc : c < 4) (hon : d.pdOn 2 = true) :
    ((d.freeze c src top).core c).stack = (d.core c).stack ∧ ((d.freeze c src top).core c).frozen = true ∧
      (d.freeze c src top).faultLine = true ∧ (d.obj 0x1800 0x01 ≤ 5 →
        ((d.freeze c src top).pend 127 (4 + d.obj 0x1800 0x01)).pending = true) := by
  have hobj : ∀ i, i ≠ 0x2E00 → i ≠ 0x2E10 + c → ∀ u < 256, (d.frozenAt c src top).obj i u = d.obj i u := fun i hi hne u hu => by
    rw [Dev.obj_frozenAt _ _ _ _ hu]
    simp [hi, hne]
  have hpower : (d.frozenAt c src top).pdOn 2 = true := by
    unfold Dev.pdOn Dev.bit
    rw [hobj 0x2F10 (by decide) (by omega) _ (by decide)]
    exact hon
  have hguardian := hobj 0x1800 (by decide) (by omega) 0x01 (by decide)
  have hcore : (d.frozenAt c src top).core c = { d.core c with frozen := true, presented := none } := Dev.core_setCore_self d c _
  obtain ⟨hline, hpending⟩ := Dev.raise_fault hpower
  rw [hguardian] at hpending
  obtain ⟨hcores, hlogLine, hirq⟩ := ((d.frozenAt c src top).raise 127).logEvent_irq 5 127 127 (c * 65536 + src * 256 + top)
  have hstack := (Dev.core_congr (hcores.trans (Dev.raise_cores ..)) c).trans hcore
  rw [Dev.freeze_eq, hstack]
  refine ⟨rfl, rfl, hlogLine.trans hline, fun hport => ?_⟩
  rw [(hirq 127 _ (by omega)).2 (by decide)]
  exact hpending hport

/-- What a freeze changes of the objects. -/
theorem Dev.freeze_sameBut (d : Dev) (c src top : Nat) : d.sameBut (d.freeze c src top) (fun i w =>
    ([(0x2E10 + c, 0x06), (0x2E00, 0x04), (0x2E00, 0x05), (0x2E00, 0x06), (0x2F20, 0x13)] : List (Nat × Nat)).contains (i, w)) := by
  have hcounted : d.sameBut (d.frozenAt c src top) (fun i w =>
      ([(0x2E10 + c, 0x06), (0x2E00, 0x04), (0x2E00, 0x05), (0x2E00, 0x06), (0x2F20, 0x13)] : List (Nat × Nat)).contains (i, w)) := by
    refine Dev.sameBut.setObj (Dev.sameBut.setObj (Dev.sameBut.inc (Dev.sameBut.inc (Dev.sameBut_of_regs rfl) (by decide) ?_)
      (by decide) ?_) _ (by decide) ?_) _ (by decide) ?_ <;> simp
  refine (hcounted.regs (Dev.raise_regs _ _)).trans ((Dev.logEvent_sameBut _ _ _ _ _).mono (fun i w h => ?_))
  simp only [List.contains_cons, List.contains_nil, Bool.or_false] at h ⊢
  simp [h]

/-! ### The statements -/

theorem Dev.faultLine_not {d : Dev} {c : Fin 4} {src : Fin 128} (h : c = 0 → src.val = 127 → d.faultLine = false) :
    ¬(c.val = 0 ∧ src.val = 127 ∧ d.faultLine = true) := fun ⟨hc, hs, hl⟩ => by
  rw [h (Fin.ext hc) hs] at hl
  cases hl

theorem Dev.runs_ready {d : Dev} {k : Nat} (h : d.runs k = true) : d.ready = true ∧ d.pdOn k = true := Bool.and_eq_true_iff.mp h

/-- Settles O51: the stack stands as it was, with the core frozen, and a frozen core presents, takes and completes nothing. -/
theorem frozenStacks : Obligations.FrozenStacks := by
  intro s t c d r i hruns hup
  obtain ⟨-, hon⟩ := Dev.runs_ready hruns
  refine ⟨fun src top p rest hfrozen hstack hactive htop hfault => ?_, fun hfrozen => ⟨?_, ?_, fun src hfault => ?_, fun src hsrc hroute => ?_⟩⟩
  · have hdev := Dev.coreComplete_freezes hruns hup hfrozen (Dev.faultLine_not hfault) hactive hstack htop
    have hobj : ∀ j u, u < 256 → j ≠ 0x2F20 → (d.coreComplete c src).obj j u = _ := fun j u hu hj => by
      rw [hdev, Dev.obj_freeze _ _ _ _ hu hj, Dev.obj_frozenAt _ _ _ _ hu]
    obtain ⟨hkept, hfroze, hline, hpending⟩ := Dev.freeze_leaves (d := d) (src := src) (top := top) c.isLt hon
    refine State.does_of_dev (u := d.coreComplete c src) rfl ?_ ?_
    · refine ⟨?_, ?_, ?_, hobj 0x2E00 0x04 (by decide) (by decide), hobj 0x2E00 0x05 (by decide) (by decide),
        hobj 0x2E00 0x06 (by decide) (by decide), ?_, ?_⟩
      · rw [hdev, hkept]
      · rw [hdev, hfroze]
      · rw [hobj i 0x06 (by decide) (by omega)]
        simp [i]
        omega
      · rw [hdev, hline]
      · rw [hdev]
        exact hpending
    · rw [hdev]
      exact d.freeze_sameBut c src top
  · have hpresents : d.presentation c = d.setCore c { d.core c with presented := none } := by
      unfold Dev.presentation Dev.presentable
      have hf : (d.core c).frozen = true := hfrozen
      simp [hruns, hup, hf]
    refine State.does_of_dev (u := d.presentation c) rfl ?_ ?_ <;> rw [hpresents]
    · rw [Dev.core_setCore_self]
      exact ⟨rfl, rfl, rfl⟩
    · exact Dev.sameBut_of_regs rfl
  · refine State.does_of_dev (u := d.coreTake c) rfl ?_ ?_ <;> rw [Dev.coreTake_frozen hfrozen]
    · exact ⟨rfl, rfl⟩
    · exact Dev.sameBut_refl _ _
  · have hdev := Dev.coreComplete_frozen (src := src) hruns hup hfrozen (Dev.faultLine_not hfault)
    refine State.does_of_dev (u := d.coreComplete c src) rfl ?_ ?_ <;> rw [hdev]
    · exact ⟨Dev.obj_setObj_self .., rfl, rfl⟩
    · exact (Dev.sameBut_refl _ _).inc (by decide) (by simp [i])
  · exact Dev.raise_pending hon (by omega) hroute (by omega)

/-- The entries of a stack, one behind the other, become pending and no longer active. -/
def Dev.reraised (d : Dev) (c : Nat) (e : Nat × Nat) : Dev :=
  d.setPend e.1 c (if (d.pend e.1 c).pending then { (d.pend e.1 c) with active := false }
    else { (d.pend e.1 c) with active := false, pending := true, prio := e.2 })

theorem Dev.stackReset_eq (d : Dev) (c : Nat) : d.stackReset c =
    { ((d.core c).stack.foldl (fun d e => d.reraised c e) d).setCore c { d.core c with stack := [], frozen := false, presented := none } with
      faultLine := false } := rfl

/-- A source waits at a target, and is not active there. -/
def Dev.awaits (d : Dev) (c x : Nat) : Prop := (d.pend x c).active = false ∧ (d.pend x c).pending = true

theorem Dev.awaits_reraised (d : Dev) (c : Nat) (e : Nat × Nat) : (d.reraised c e).awaits c e.1 := by
  unfold Dev.awaits Dev.reraised
  rw [Dev.pend_setPend_self]
  split
  · next h => exact ⟨rfl, h⟩
  · exact ⟨rfl, rfl⟩

theorem Dev.awaits_reraised_of {d : Dev} {c x : Nat} (h : d.awaits c x) (e : Nat × Nat) : (d.reraised c e).awaits c x := by
  by_cases hx : x = e.1
  · exact hx ▸ d.awaits_reraised c e
  · unfold Dev.awaits Dev.reraised
    rw [Dev.pend_setPend_ne _ _ _ hx]
    exact h

theorem Dev.awaits_foldl (d : Dev) (c : Nat) (l : List (Nat × Nat)) :
    (∀ x, d.awaits c x → (l.foldl (fun d e => d.reraised c e) d).awaits c x) ∧
      ∀ e ∈ l, (l.foldl (fun d e => d.reraised c e) d).awaits c e.1 := by
  induction l generalizing d with
  | nil => exact ⟨fun _ h => h, fun _ h => absurd h List.not_mem_nil⟩
  | cons a l ih =>
    obtain ⟨hkeeps, hall⟩ := ih (d.reraised c a)
    refine ⟨fun x hx => hkeeps x (Dev.awaits_reraised_of hx a), fun e he => ?_⟩
    rcases List.mem_cons.mp he with rfl | he
    · exact hkeeps _ (d.awaits_reraised c e)
    · exact hall e he

/-- What the reset of a stack leaves (R439). -/
theorem Dev.stackReset_leaves (d : Dev) (c : Nat) : ((d.stackReset c).core c).stack = [] ∧ ((d.stackReset c).core c).frozen = false ∧
    (d.stackReset c).faultLine = false ∧ ∀ e ∈ (d.core c).stack, (d.stackReset c).awaits c e.1 := by
  have hcore : (d.stackReset c).core c = { d.core c with stack := [], frozen := false, presented := none } := Dev.core_setCore_self ..
  rw [hcore]
  exact ⟨rfl, rfl, rfl, (d.awaits_foldl c (d.core c).stack).2⟩

/-- The block of the priority stacks, and the command that resets one. -/
abbrev stackBlock : ObjBlock := ⟨0x2E10, 4, .stack, stackRows⟩

theorem stackBlock_reset (c : Fin 4) : stackBlock.Command (0x2E10 + c) 0x08 1 := ⟨by revert c; decide, by revert c; decide +kernel⟩

/-- Settles O49: what is presented is the first of the candidates; a stack grows and shrinks at its top; a reset makes its sources wait
again. -/
theorem stacksNestAndRecover : Obligations.StacksNestAndRecover := by
  constructor
  · intro s t c d r hruns hup hfrozen
    refine ⟨?_, fun src hpresented hpending hactive hprio => ?_, fun src p rest hstack hactive hfault => ?_⟩
    · have hpresents : d.presentation c = d.setCore c { d.core c with presented := d.presentable c } := by
        simp [Dev.presentation, hruns, hup]
      refine State.does_of_dev (u := d.presentation c) rfl ?_ ?_ <;> rw [hpresents]
      · rw [Dev.core_setCore_self]
        exact ⟨rfl, Dev.presentable_iff hfrozen⟩
      · exact Dev.sameBut_of_regs rfl
    · obtain ⟨hstack, hidle, hactive, hsame⟩ := Dev.coreTake_takes (by omega) hruns hup hfrozen hpresented hpending hactive hprio
      exact State.does_of_dev (u := d.coreTake c) rfl ⟨hstack, hidle, hactive⟩ hsame
    · have hdev := Dev.coreComplete_pops hruns hup hfrozen (Dev.faultLine_not hfault) hactive hstack
      refine State.does_of_dev (u := d.coreComplete c src) rfl ?_ ?_ <;> rw [hdev]
      · rw [Dev.core_setCore_self]
        exact ⟨rfl, congrArg Pend.active (Dev.pend_setPend_self d src c _)⟩
      · exact Dev.sameBut_of_regs rfl
  · intro s t c d
    refine ⟨fun hruns hup hline => ?_, fun q hq => ?_⟩
    · refine State.does_of_dev (u := d.coreComplete 0 127) rfl ?_ ?_ <;> rw [Dev.coreComplete_faultLine hruns hup hline]
      · exact ⟨rfl, rfl, rfl⟩
      · exact Dev.sameBut_of_regs rfl
    · refine State.does_of_quietCommand hq rfl (stackBlock_reset c) rfl (by decide) (fun e _ hinner => ?_)
      have hcommand : e.command (oneWr q (0x2E10 + c.val) 0x08 1 1 stackBlock) 0x08 (1 % 256 ^ 1) = e.stackReset c := by
        simp [Dev.command, Dev.deviceCommand, stackBlock]
      have hcore : e.core c = d.core c := Dev.core_congr (Dev.cores_of_inner hinner) c
      rw [hcommand, ← hcore]
      exact ⟨e.stackReset_leaves c, Dev.sameBut_of_regs (e.stackReset_regs c)⟩

end Sys2Proof.Machine
end

section
/-! SUPPORT. The mailboxes and the doorbells (R445 to R448): a message that is sent and taken, and the bells that a mask names. -/

namespace Sys2Proof.Machine

/-! ### Mailboxes -/

@[simp] theorem Dev.raiseIf_mboxes (d : Dev) (c : Bool) (x : Nat) : (d.raiseIf c x).mboxes = d.mboxes := by
  unfold Dev.raiseIf Dev.raise Dev.raiseAt
  dsimp only
  repeat' split
  all_goals rfl

theorem Dev.mbox_congr {d e : Dev} (h : d.mboxes = e.mboxes) (m : Nat) : d.mbox m = e.mbox m := by
  unfold Dev.mbox
  rw [h]

@[simp] theorem Dev.mbox_setMbox_self (d : Dev) (m : Nat) (r : Mbox) : (d.setMbox m r).mbox m = r := by
  simp [Dev.mbox, Dev.setMbox]

@[simp] theorem Dev.mbox_setObj (d : Dev) (i u v m : Nat) : (d.setObj i u v).mbox m = d.mbox m := (rfl)
@[simp] theorem Dev.mbox_inc (d : Dev) (i u m : Nat) : (d.inc i u).mbox m = d.mbox m := (rfl)

/-- What a send leaves in its mailbox (R445). -/
theorem Dev.mboxSend_leaves (d : Dev) (m : Nat) (data : List Byte) :
    (d.mboxSend m data).mbox m = { full := true, msg := data } ∧
      ∀ i u, u < 256 → (d.mboxSend m data).obj i u = if i = 0x2E40 + m ∧ u = 0x0A then d.now else if i = 0x2E40 + m ∧ u = 0x08 then
        satInc32 (d.obj (0x2E40 + m) 0x08) else if i = 0x2E40 + m ∧ u = 0x07 then (d.obj (0x2E40 + m) 0x07 + 1) % 256 else d.obj i u := by
  have hset : ∀ j w, (d.setMbox m { full := true, msg := data }).obj j w = d.obj j w := fun j w => Dev.obj_congr rfl j w
  unfold Dev.mboxSend
  dsimp only
  refine ⟨by rw [Dev.mbox_congr (Dev.raiseIf_mboxes ..)]; simp, fun i u hu => ?_⟩
  rw [Dev.obj_congr (Dev.raiseIf_regs ..), Dev.obj_setObj _ _ (by decide) hu, Dev.obj_inc _ (by decide) hu, Dev.obj_setObj _ _ (by decide) hu,
    Dev.obj_setObj _ _ (by decide) (by decide), if_neg (c := (0x2E40 + m = 0x2E40 + m ∧ (0x08 : Nat) = 0x07)) (fun h => by omega)]
  simp only [hset]
  rfl

/-- A mailbox whose message has been taken is not full (R446). -/
theorem Dev.mboxTake_empties (d : Dev) (m : Nat) : ((d.mboxTake m).mbox m).full = false := by
  unfold Dev.mboxTake
  split
  · rw [Dev.mbox_congr (Dev.raiseIf_mboxes ..), Dev.mbox_setMbox_self]
  · next h => exact Bool.eq_false_iff.mpr h

/-- The block of the mailboxes, the message that a send writes and the word that a read of take returns. -/
abbrev mailboxBlock : ObjBlock := ⟨0x2E40, 32, .mailbox, mailboxRows⟩

theorem mailboxBlock_message (m : Fin 32) : blockOf (0x2E40 + m) = some mailboxBlock ∧
    objRow (0x2E40 + m) 0x04 = some ⟨0x04, 0x04, 0, 31, .blob 64, .rw, .bytes [], .n, .any, .any⟩ :=
  ⟨by revert m; decide, by revert m; decide +kernel⟩

theorem mailboxBlock_take (m : Fin 32) : blockOf (0x2E40 + m) = some mailboxBlock ∧
    objRow (0x2E40 + m) 0x05 = some ⟨0x05, 0x05, 0, 31, .u32, .ro, .lin 0 0 0, .n, .any, .any⟩ :=
  ⟨by revert m; decide, by revert m; decide +kernel⟩

/-- The write that a send is. -/
def messageWr (r : Req) (m : Fin 32) (data : List Byte) : Wr := hostWr r.port (0x2E40 + m) mailboxBlock [⟨0x04, ofLe data, data⟩]

/-- A message that is accepted is written whole. -/
theorem State.answer_of_message {s : State} {t : Nat} {r : Req} {m : Fin 32} {data : List Byte}
    (h : s.serves t (putFrame r (0x2E40 + m) 0x04 1 data) 0 true = true) :
    s.answer t (putFrame r (0x2E40 + m) 0x04 1 data) =
      ((s.devAt t).served (putFrame r (0x2E40 + m) 0x04 1 data)).applied (messageWr r m data) := by
  obtain ⟨hb, hr⟩ := mailboxBlock_message m
  have hok := State.answer_ok h
  unfold State.answer at hok ⊢
  rw [frameUnpad_putFrame] at hok ⊢
  obtain ⟨b, puts, hblock, hputs, ha⟩ := sopWrite_ok (d := (s.devAt t).served (putFrame r (0x2E40 + m) 0x04 1 data)) hok
  have hone : puts = [⟨0x04, ofLe data, data⟩] := by
    have hsubs : subsOf (putFrame r (0x2E40 + m) 0x04 1 data) = [0x04] := by simp [subsOf, putFrame]
    rw [hsubs] at hputs
    simp only [putFrame, splitPuts, hr, List.drop_length, List.take_length, List.isEmpty_nil, Bool.and_true, if_true] at hputs
    split at hputs
    · simpa using hputs.symm
    · cases hputs
  obtain rfl : mailboxBlock = b := Option.some.inj (hb.symm.trans hblock)
  rw [hone] at ha
  exact ha

/-- A READ that is served gives the values of its subindices. -/
theorem Dev.sopRead_ok {d : Dev} {m : Store Byte} {f : Frame} (h : (d.sopRead m f).st = .ok) :
    d.sopRead m f = { dev := d.readsDone f.index (subsOf f), data := d.readAll m f.req.port f.index (subsOf f) } := by
  unfold Dev.sopRead at h ⊢
  dsimp only at h ⊢
  split at h
  · next st hst =>
    obtain ⟨e, he, hrefused⟩ := firstStatus_mem hst
    have hok : e.1 = .ok := hrefused.trans h
    simp only [Dev.readChecks, List.mem_cons, List.not_mem_nil, or_false] at he
    rcases he with rfl | rfl | rfl | rfl | rfl | rfl | rfl <;> cases hok
  · rfl

/-! ### Doorbells -/

/-- One bell rings: its bit, its count and its source. -/
def Dev.bellRung (d : Dev) (k : Nat) : Dev := ((d.setBit 0x2E60 0x03 k true).inc 0x2E60 (0x20 + k)).raise (117 + k / 8)

theorem Dev.ringBells_eq (d : Dev) (mask : Nat) : d.ringBells mask = (maskBits 16 mask).foldl (fun d k => d.bellRung k) d := rfl

theorem Dev.bellRung_obj (d : Dev) {k u : Nat} (hk : k < 16) (hu : u < 256) (i : Nat) (h : ¬(i = 0x2E60 ∧ u = 0x03)) :
    (d.bellRung k).obj i u = if i = 0x2E60 ∧ u = 0x20 + k then satInc32 (d.obj 0x2E60 (0x20 + k)) else d.obj i u := by
  unfold Dev.bellRung
  rw [Dev.obj_congr (Dev.raise_regs ..), Dev.obj_inc _ (by omega) hu, Dev.obj_setBit _ _ _ (by decide) (by omega) (by omega),
    Dev.obj_setBit _ _ _ (by decide) hu h]

theorem Dev.bellRung_bit (d : Dev) {k : Nat} (hk : k < 16) (b : Nat) :
    (d.bellRung k).bit 0x2E60 0x03 b = (d.bit 0x2E60 0x03 b || decide (b = k)) := by
  unfold Dev.bellRung Dev.inc
  rw [Dev.bit_congr (Dev.raise_regs ..), Dev.bit_setObj_sub _ _ _ (by omega) (by decide) (by omega), Dev.bit_setBit _ _ _ _ (by decide) (by decide)]
  by_cases h : b = k <;> simp [h]

/-- The bells of a list ring, each once. -/
theorem Dev.bellsRung {l : List Nat} (hl : ∀ k ∈ l, k < 16) (hnodup : l.Nodup) (d : Dev) :
    (∀ b, (l.foldl (fun d k => d.bellRung k) d).bit 0x2E60 0x03 b = (d.bit 0x2E60 0x03 b || decide (b ∈ l))) ∧
      ∀ i u, u < 256 → ¬(i = 0x2E60 ∧ u = 0x03) → (l.foldl (fun d k => d.bellRung k) d).obj i u =
        if i = 0x2E60 ∧ ∃ k ∈ l, u = 0x20 + k then satInc32 (d.obj i u) else d.obj i u := by
  induction l generalizing d with
  | nil => simp
  | cons x l ih =>
    obtain ⟨hx, hnodup⟩ := List.nodup_cons.mp hnodup
    have hx16 := hl x (List.mem_cons_self ..)
    obtain ⟨hbit, hobj⟩ := ih (fun k hk => hl k (List.mem_cons_of_mem _ hk)) hnodup (d.bellRung x)
    refine ⟨fun b => ?_, fun i u hu h => ?_⟩
    · rw [List.foldl_cons, hbit, Dev.bellRung_bit _ hx16, Bool.or_assoc, ← Bool.decide_or]
      simp only [List.mem_cons]
    · rw [List.foldl_cons, hobj i u hu h, Dev.bellRung_obj _ hx16 hu _ h]
      by_cases hrung : i = 0x2E60 ∧ u = 0x20 + x
      · have hother : ¬(i = 0x2E60 ∧ ∃ k ∈ l, u = 0x20 + k) := fun ⟨_, k, hk, hku⟩ => hx (by
          obtain rfl : x = k := by omega
          exact hk)
        rw [if_neg hother, if_pos hrung, if_pos ⟨hrung.1, x, List.mem_cons_self .., hrung.2⟩, hrung.1, hrung.2]
      · have hsame : (i = 0x2E60 ∧ ∃ k ∈ x :: l, u = 0x20 + k) ↔ (i = 0x2E60 ∧ ∃ k ∈ l, u = 0x20 + k) := by
          simp only [List.mem_cons, exists_eq_or_imp]
          tauto
        rw [if_neg hrung]
        simp only [hsame]

theorem mem_maskBits {n mask k : Nat} : k ∈ maskBits n mask ↔ k < n ∧ mask.testBit k = true := by
  simp [maskBits]

theorem maskBits_nodup (n mask : Nat) : (maskBits n mask).Nodup := List.nodup_range.filter _

/-- Clearing the bits of a list. -/
theorem Dev.bellsAnswered (l : List Nat) (d : Dev) :
    (∀ b, (l.foldl (fun d k => d.setBit 0x2E60 0x03 k false) d).bit 0x2E60 0x03 b = (d.bit 0x2E60 0x03 b && !decide (b ∈ l))) ∧
      d.sameBut (l.foldl (fun d k => d.setBit 0x2E60 0x03 k false) d) (fun i w => ([(0x2E60, 0x03)] : List (Nat × Nat)).contains (i, w)) := by
  refine ⟨fun b => ?_, Dev.sameBut.foldl l (Dev.sameBut_refl _ _) (fun f k _ hf => hf.setObj _ (by decide) (by simp))⟩
  induction l generalizing d with
  | nil => simp
  | cons x l ih =>
    rw [List.foldl_cons, ih, Dev.bit_setBit _ _ _ _ (by decide) (by decide)]
    by_cases h : b = x <;> simp [h]

/-- The blocks of the interrupt controller and of the doorbells. -/
abbrev irqBlock : ObjBlock := ⟨0x2E00, 1, .irq, irqRows⟩
abbrev doorbellBlock : ObjBlock := ⟨0x2E60, 1, .doorbell, doorbellRows⟩

theorem irqBlock_lock : irqBlock.Value 0x2E00 0x01 1 := ⟨by decide, by decide +kernel⟩
theorem doorbellBlock_lock : doorbellBlock.Value 0x2E60 0x01 1 := ⟨by decide, by decide +kernel⟩
theorem doorbellBlock_ring : doorbellBlock.Command 0x2E60 0x04 2 := ⟨by decide, by decide +kernel⟩
theorem doorbellBlock_answer : doorbellBlock.Command 0x2E60 0x05 2 := ⟨by decide, by decide +kernel⟩

/-- A send stores its message and counts it, and changes nothing else. -/
theorem State.does_of_send {s : State} {t : Nat} {r : Req} {m : Fin 32} {data : List Byte}
    (h : s.serves t (putFrame r (0x2E40 + m) 0x04 1 data) 0 true = true) :
    s.does t (.send t r m data) [(0x2E40 + m.val, 0x07), (0x2E40 + m.val, 0x08), (0x2E40 + m.val, 0x0A)] (fun u =>
      (u.mbox m).full = true ∧ (u.mbox m).msg = data ∧ u.obj (0x2E40 + m) 0x07 = ((s.devAt t).obj (0x2E40 + m) 0x07 + 1) % 256 ∧
      u.obj (0x2E40 + m) 0x08 = satInc32 ((s.devAt t).obj (0x2E40 + m) 0x08) ∧ u.obj (0x2E40 + m) 0x0A = (s.devAt t).now) := by
  obtain ⟨-, hrow⟩ := mailboxBlock_message m
  have hexec : exec (.send t r m data) s = s.requests t (putFrame r (0x2E40 + m) 0x04 1 data) := by
    unfold State.requests
    rw [frameUnpad_putFrame]
    rfl
  have heff : ((s.devAt t).served (putFrame r (0x2E40 + m) 0x04 1 data)).windowEff (messageWr r m data) = {} := (rfl)
  refine State.does_of_applied h (frameUnpad_putFrame ..) hexec (State.answer_of_message h) heff (fun g e hg hginner heregs heinner => ?_)
  have haccept : (g.sendPart (messageWr r m data)).accept (messageWr r m data) = (g.mboxSend m data).writtenBy r.port (0x2E40 + m) := by
    have hbox : g.sendPart (messageWr r m data) = g.mboxSend m data := by simp [Dev.sendPart, messageWr, hostWr]
    have hstored : (g.mboxSend m data).stored (messageWr r m data) = g.mboxSend m data := by
      simp [Dev.stored, Dev.storePut, messageWr, hostWr, hrow, unstored]
    rw [hbox]
    unfold Dev.accept
    rw [hstored]
    rfl
  have hnone : e.commands (messageWr r m data) = e := Dev.commands_none _ (by simp [messageWr, hostWr, Wr.isCommand, hrow])
  rw [haccept] at heregs heinner
  obtain ⟨hmessage, hobj⟩ := g.mboxSend_leaves m data
  have hmbox : e.mbox m = { full := true, msg := data } :=
    (Dev.mbox_congr ((Dev.mboxes_of_inner heinner).trans rfl) m).trans hmessage
  have hat : ∀ u < 256, g.obj (0x2E40 + m) u = (s.devAt t).obj (0x2E40 + m) u := fun u hu => hg _ u hu (by simp [portObjs])
  have hread : ∀ i u, u < 256 → e.obj i u = _ := fun i u hu => (Dev.obj_congr heregs i u).trans (hobj i u hu)
  rw [hnone, hmbox, hread _ _ (by decide), hread _ _ (by decide), hread _ _ (by decide), hat _ (by decide), hat _ (by decide),
    Dev.now_of_inner hginner]
  refine ⟨⟨rfl, rfl, by simp, by simp, by simp⟩, fun i u hu hout => ?_⟩
  simp only [List.contains_cons, List.contains_nil, Bool.or_false, Bool.or_eq_false_iff, beq_eq_false_iff_ne, ne_eq, Prod.mk.injEq] at hout
  obtain ⟨-, h7, h8, ha⟩ := hout
  rw [hread i u hu, if_neg ha, if_neg h8, if_neg h7]

/-- A read of take is answered with the word of the mailbox, which is empty behind it. -/
theorem State.does_of_take {s : State} {t : Nat} {r : Req} {m : Fin 32} {f : Frame}
    (hf : f = { req := r, op := 0x01, index := 0x2E40 + m.val, sub := 0x05, ctl := 1, len := 0, data := [] })
    (h : s.serves t f 0 true = true) :
    s.does t (.take t r m) [] (fun u => u.answered f .ok (leBytes 4 ((s.devAt t).mboxWord m)) ∧ (u.mbox m).full = false) := by
  obtain ⟨hb, hrow⟩ := mailboxBlock_take m
  have hunpad : frameUnpad f = f := by
    subst hf
    unfold frameUnpad
    split <;> rfl
  have hexec : exec (.take t r m) s = s.requests t f := by
    unfold State.requests
    rw [hunpad, hf]
    rfl
  have hsubs : subsOf f = [0x05] := by subst hf; rfl
  have hok := State.answer_ok h
  have hnext := State.requests_of_serves h
  have hg : (s.devAt t).sameBut ((s.devAt t).served f) portObjs := Dev.served_portObjs _ _
  have hginner : ((s.devAt t).served f).inner = (s.devAt t).inner := Dev.served_inner ..
  generalize hserved : (s.devAt t).served f = g at hg hginner
  have hanswer : s.answer t f = { dev := g.mboxTake m, data := leBytes 4 (g.mboxWord m) } := by
    have hread : (g.sopRead s.loft f).st = .ok := by
      have := hok
      unfold State.answer at this
      rw [hunpad, hserved] at this
      subst hf
      exact this
    have hbody : s.answer t f = g.sopRead s.loft f := by
      unfold State.answer
      rw [hunpad, hserved]
      subst hf
      rfl
    have hdone : g.readsDone f.index (subsOf f) = g.mboxTake m := by
      rw [hsubs]
      subst hf
      have hbox : 0x2E40 + m.val < 0x2E60 := by omega
      simp [Dev.readsDone, Dev.readDone, hbox]
    have hpd : ∀ m : Fin 32, objPd (0x2E40 + m.val) 0x05 = none := by decide
    have hword : g.readAll s.loft f.req.port f.index (subsOf f) = leBytes 4 (g.mboxWord m) := by
      rw [hsubs]
      subst hf
      simp [Dev.readAll, Dev.readObj, Dev.view, Dev.viewOf, Dev.objOff, hpd, hb, hrow, OTy.size]
    rw [hbody, Dev.sopRead_ok hread, hdone, hword]
  have hmail : g.mboxWord m = (s.devAt t).mboxWord m := by
    unfold Dev.mboxWord
    rw [hg _ _ (by decide) (by simp [portObjs]), Dev.mbox_congr (Dev.mboxes_of_inner hginner)]
  rw [hanswer, hunpad, hmail] at hnext
  have hsent : ∀ data, ({ dev := g.mboxTake m, data := data } : Answer).sent f = (g.mboxTake m).respond f .ok data false := fun _ => rfl
  rw [hsent] at hnext
  refine ⟨_, hexec.trans hnext, ⟨Dev.respond_answered .., ?_⟩, rfl, ?_⟩
  · exact (congrArg Mbox.full (Dev.mbox_congr (Dev.mboxes_of_inner (Dev.respond_inner ..)) m)).trans (Dev.mboxTake_empties ..)
  · refine Dev.sameBut.mono ((hg.regs (Dev.mboxTake_regs ..)).regs (Dev.respond_regs _ _ (st := .ok) _ _ (by decide))) (fun i w hp => ?_)
    rw [show portObj i = true from hp, Bool.true_or]

/-- Settles O52: a send and a lock are writes, a take is a read that empties its mailbox, and the bells of a mask are told apart by number. -/
theorem mailboxesAndBells : Obligations.MailboxesAndBells := by
  intro s t r d
  refine ⟨fun h => ?_, fun h => ?_, fun m data h => State.does_of_send h, fun m => ?_, fun mask hmask h => ?_, fun mask hmask h => ?_⟩
  · exact State.does_of_quietValue h rfl irqBlock_lock rfl (by decide) (by decide) (by simp) (fun e _ hlock => hlock)
  · exact State.does_of_quietValue h rfl doorbellBlock_lock rfl (by decide) (by decide) (by simp) (fun e _ hlock => hlock)
  · intro f h
    exact State.does_of_take rfl h
  · refine State.does_of_quietCommand h rfl doorbellBlock_ring rfl (by decide) (fun e he _ => ?_)
    have hcommand : e.command (oneWr r 0x2E60 0x04 2 mask doorbellBlock) 0x04 (mask % 256 ^ 2) = e.ringBells mask := by
      simp [Dev.command, Dev.deviceCommand, Nat.mod_eq_of_lt hmask]
    obtain ⟨hbit, hobj⟩ := Dev.bellsRung (fun k hk => (mem_maskBits.mp hk).1) (maskBits_nodup 16 mask) e
    have hat : ∀ u < 256, e.obj 0x2E60 u = d.obj 0x2E60 u := fun u hu => he _ u hu (by simp [portObjs, portObj])
    rw [hcommand, Dev.ringBells_eq]
    refine ⟨fun k hk => ⟨?_, ?_⟩, fun i u hu hout => ?_⟩
    · rw [hbit]
      simp [Dev.bit, hat, mem_maskBits, hk]
    · rw [hobj _ _ (by omega) (by omega), hat _ (by omega)]
      simp [mem_maskBits, hk]
    · have hne : ¬(i = 0x2E60 ∧ u = 0x03) := fun hc => by simp [hc] at hout
      rw [hobj i u hu hne, if_neg]
      rintro ⟨rfl, k, hk, rfl⟩
      have hk16 := (mem_maskBits.mp hk).1
      have hin : (0x2E60, 0x20 + k) ∈ span 0x2E60 0x20 0x2F := mem_span.mpr ⟨rfl, by omega, by omega⟩
      exact absurd hout (Bool.not_eq_false _ ▸ List.contains_iff_mem.mpr (List.mem_cons_of_mem _ hin))
  · refine State.does_of_quietCommand h rfl doorbellBlock_answer rfl (by decide) (fun e he _ => ?_)
    have hcommand : e.command (oneWr r 0x2E60 0x05 2 mask doorbellBlock) 0x05 (mask % 256 ^ 2) = e.answerBells mask := by
      simp [Dev.command, Dev.deviceCommand, Nat.mod_eq_of_lt hmask]
    obtain ⟨hbit, hsame⟩ := Dev.bellsAnswered (maskBits 16 mask) e
    have hbells : e.obj 0x2E60 0x03 = d.obj 0x2E60 0x03 := he _ _ (by decide) (by decide)
    rw [hcommand]
    refine ⟨fun k hk => (hbit k).trans ?_, hsame⟩
    simp [Dev.bit, hbells, mem_maskBits, hk]

end Sys2Proof.Machine
end

section
/-! SUPPORT. Comparators and ramps (R340, R344, R346 to R349, R351): what a report, a report that is taken back and a counted transition
change of a pair's status, and a ramp that goes back. -/

namespace Sys2Proof.Machine

/-! ### The status of a pair -/

/-- What a step changes of a pair: at most the listed bits of its status and the listed subindices; no time passes. -/
structure Dev.PairStep (d e : Dev) (n : Nat) (bits : List Nat) (subs : List Nat) : Prop where
  bit : ∀ b, b ∉ bits → e.bit (0x2A00 + n) 0x10 b = d.bit (0x2A00 + n) 0x10 b
  obj : ∀ j w, w < 256 → ¬(j = 0x2A00 + n ∧ (w = 0x10 ∨ w ∈ subs)) → e.obj j w = d.obj j w
  now : e.now = d.now

theorem Dev.PairStep.trans {d e f : Dev} {n : Nat} {bits subs bits' subs' : List Nat} (h : d.PairStep e n bits subs)
    (g : e.PairStep f n bits' subs') : d.PairStep f n (bits ++ bits') (subs ++ subs') where
  bit := fun b hb => by
    rw [List.mem_append, not_or] at hb
    rw [g.bit b hb.2, h.bit b hb.1]
  obj := fun j w hw hout => by
    rw [g.obj j w hw (fun hc => hout ⟨hc.1, hc.2.imp_right (List.mem_append_right _)⟩),
      h.obj j w hw (fun hc => hout ⟨hc.1, hc.2.imp_right (List.mem_append_left _)⟩)]
  now := g.now.trans h.now

theorem Dev.PairStep.refl (d : Dev) (n : Nat) : d.PairStep d n [] [] := ⟨fun _ _ => rfl, fun _ _ _ _ => rfl, rfl⟩

theorem Dev.PairStep.mono {d e : Dev} {n : Nat} {bits subs bits' subs' : List Nat} (h : d.PairStep e n bits subs) (hb : bits ⊆ bits')
    (hs : subs ⊆ subs') : d.PairStep e n bits' subs' where
  bit := fun b hb' => h.bit b (fun hc => hb' (hb hc))
  obj := fun j w hw hout => h.obj j w hw (fun hc => hout ⟨hc.1, hc.2.imp_right (hs ·)⟩)
  now := h.now

/-- A step of a pair changes no object but its status and the listed subindices. -/
theorem Dev.PairStep.sameBut {d e : Dev} {n : Nat} {bits subs : List Nat} (h : d.PairStep e n bits subs) {l : List (Nat × Nat)}
    (hl : (0x2A00 + n, 0x10) ∈ l) (hsubs : ∀ w ∈ subs, (0x2A00 + n, w) ∈ l) : d.sameBut e (fun i w => l.contains (i, w)) :=
  fun j w hw hout => h.obj j w hw (by
    have hne : (j, w) ∉ l := fun hc => Bool.false_ne_true (Eq.trans (Eq.symm hout) (List.contains_iff_mem.mpr hc))
    rintro ⟨rfl, rfl | hw⟩
    · exact hne hl
    · exact hne (hsubs _ hw))

theorem Dev.pairStep_setBit (d : Dev) (n b : Nat) (on : Bool) : d.PairStep (d.setBit (0x2A00 + n) 0x10 b on) n [b] [] where
  bit := fun k hk => Dev.bit_setBit_other _ _ (by decide) (by simpa using hk)
  obj := fun j w hw hout => Dev.obj_setBit _ _ _ (by decide) hw (fun hc => hout ⟨hc.1, .inl hc.2⟩)
  now := rfl

theorem Dev.pairStep_setObj (d : Dev) (n : Nat) {u : Nat} (v : Nat) (hu : u < 256) (hne : u ≠ 0x10) :
    d.PairStep (d.setObj (0x2A00 + n) u v) n [] [u] where
  bit := fun k _ => Dev.bit_setObj_sub _ _ _ hu (by decide) hne.symm
  obj := fun j w hw hout => by
    rw [Dev.obj_setObj _ _ hu hw, if_neg]
    exact fun hc => hout ⟨hc.1, .inr (by simp [hc.2])⟩
  now := rfl

/-- What leaves the objects and the clock alone. -/
theorem Dev.pairStep_regs {d e : Dev} (n : Nat) (h : e.regs = d.regs) (hnow : e.now = d.now) : d.PairStep e n [] [] where
  bit := fun _ _ => Dev.bit_congr h ..
  obj := fun _ _ _ _ => Dev.obj_congr h ..
  now := hnow

theorem Dev.pairStep_raiseIf (d : Dev) (n : Nat) (c : Bool) (x : Nat) : d.PairStep (d.raiseIf c x) n [] [] :=
  Dev.pairStep_regs n (Dev.raiseIf_regs ..) (Dev.raiseIf_now ..)

theorem Dev.pairStep_setCmp (d : Dev) (n : Nat) (c : Cmp) : d.PairStep (d.setCmp n c) n [] [] := Dev.pairStep_regs n rfl rfl

@[simp] theorem Dev.cmp_setCmp_self (d : Dev) (n : Nat) (c : Cmp) : (d.setCmp n c).cmp n = c := by
  simp [Dev.cmp, Dev.setCmp]

/-! ### Reports and counts -/

/-- A reported transition (R346). -/
theorem Dev.cmpReport_step (d : Dev) (n : Nat) {u : Nat} (hu : u < 2) (level : Bool) :
    d.PairStep (d.cmpReport n u level) n [u] [0x11 + u] ∧ (d.cmpReport n u level).cmpOut n u = level ∧
      (d.cmpReport n u level).obj (0x2A00 + n) (0x11 + u) = d.now := by
  obtain ⟨e, hsame, hdev⟩ : ∃ e : Dev, e.PairStep (d.cmpReport n u level) n [] [] ∧
      e = (d.setBit (0x2A00 + n) 0x10 u level).setObj (0x2A00 + n) (0x11 + u) d.now := by
    refine ⟨_, Dev.pairStep_regs n ?_ ?_, rfl⟩
    · unfold Dev.cmpReport
      dsimp only
      rw [Dev.raiseIf_regs, Dev.pulseIf_regs]
      rfl
    · unfold Dev.cmpReport
      simp [Dev.setCmp]
  subst hdev
  have hstep := ((d.pairStep_setBit n u level).trans (Dev.pairStep_setObj _ n (u := 0x11 + u) d.now (by omega) (by omega))).trans hsame
  refine ⟨hstep.mono (by simp) (by simp), ?_, ?_⟩
  · unfold Dev.cmpOut
    rw [hsame.bit _ (by simp), Dev.bit_setObj_sub _ _ _ (by omega) (by decide) (by omega), Dev.bit_setBit_self]
  · rw [hsame.obj _ _ (by omega) (by simp; omega), Dev.obj_setObj_self]

/-- A report that is taken back (R357). -/
theorem Dev.cmpUnreport_step (d : Dev) (n : Nat) {u : Nat} (hu : u < 2) : d.PairStep (d.cmpUnreport n u) n [u] [0x11 + u] := by
  have hnone : d.PairStep d n [u] [0x11 + u] := (Dev.PairStep.refl d n).mono (by simp) (by simp)
  unfold Dev.cmpUnreport
  dsimp only
  split
  · next r hr =>
    split
    · have hback := (d.pairStep_setBit n u (!d.cmpOut n u)).trans
        (Dev.pairStep_setObj _ n (u := 0x11 + u) r.time (by omega) (by omega))
      refine (hback.trans (Dev.pairStep_regs n ?_ ?_)).mono (by simp) (by simp)
      · split <;> rfl
      · split <;> rfl
    · exact hnone
  · exact hnone

@[simp] theorem Dev.raiseIf_cmps (d : Dev) (c : Bool) (x : Nat) : (d.raiseIf c x).cmps = d.cmps := by
  unfold Dev.raiseIf Dev.raise Dev.raiseAt
  dsimp only
  repeat' split
  all_goals rfl

/-- A counted transition (R347). -/
theorem Dev.cmpToggle_step (d : Dev) (n : Nat) {u : Nat} (hu : u < 2) : d.PairStep (d.cmpToggle n u) n [7] [0x13 + u] ∧
    (d.cmpToggle n u).obj (0x2A00 + n) (0x13 + u) = satInc16 (d.obj (0x2A00 + n) (0x13 + u)) ∧ (d.cmpToggle n u).cmps = d.cmps := by
  have hcount := d.pairStep_setObj n (u := 0x13 + u) (satInc16 (d.obj (0x2A00 + n) (0x13 + u))) (by omega) (by omega)
  have hself := Dev.obj_setObj_self d (0x2A00 + n) (0x13 + u) (satInc16 (d.obj (0x2A00 + n) (0x13 + u)))
  have hcmps : (d.setObj (0x2A00 + n) (0x13 + u) (satInc16 (d.obj (0x2A00 + n) (0x13 + u)))).cmps = d.cmps := rfl
  unfold Dev.cmpToggle Dev.inc16
  dsimp only
  generalize d.setObj (0x2A00 + n) (0x13 + u) (satInc16 (d.obj (0x2A00 + n) (0x13 + u))) = e at *
  split
  · have hsat := (e.pairStep_setBit n 7 true).trans (Dev.pairStep_raiseIf _ n (e.bit (0x2A00 + n) 0x0F 4) (80 + n))
    refine ⟨(hcount.trans hsat).mono (by simp) (by simp), ?_, (Dev.raiseIf_cmps ..).trans hcmps⟩
    rw [hsat.obj _ _ (by omega) (by simp; omega), hself]
  · exact ⟨hcount.mono (by simp) (by simp), hself, hcmps⟩

/-! ### Live transitions -/

/-- A live transition of a resolved comparator has been counted, and a report of this instant at which a window closed is taken back. -/
def Dev.liveCounted (d : Dev) (n u : Nat) (level : Bool) : Dev :=
  let e := (d.setBit (0x2A00 + n) 0x10 (2 + u) level).cmpToggle n u
  if (e.cmp n).closed = some e.now then e.cmpUnreport n u else e

theorem Dev.liveTransition_resolved {d : Dev} {n u : Nat} {level : Bool} (hruns : d.runs 13 = true) (henabled : d.obj (0x2A00 + n) 0x01 ≠ 0)
    (hresolved : d.cmpUnresolved n u = false) (hlive : d.cmpLive n u = !level) : d.liveTransition n u level =
      if (d.liveCounted n u level).blanking n || (d.liveCounted n u level).cmpOut n u = level then d.liveCounted n u level
      else (d.liveCounted n u level).cmpReport n u level := by
  obtain ⟨hready, hon⟩ := Bool.and_eq_true_iff.mp hruns
  have hchange : ¬d.cmpLive n u = level := by simp [hlive]
  unfold Dev.liveTransition
  simp only [hready, hon, henabled, hresolved, hchange, Bool.true_or, Bool.not_true, Bool.false_or, decide_false, Bool.false_eq_true, if_false]
  rfl

/-- The counted transition: the live output has changed, the count is one more, and the reported output and its time stand, unless a
window closed at this instant. -/
theorem Dev.liveCounted_step (d : Dev) (n : Nat) {u : Nat} (hu : u < 2) (level : Bool) :
    d.PairStep (d.liveCounted n u level) n [2 + u, 7, u] [0x13 + u, 0x11 + u] ∧ (d.liveCounted n u level).cmpLive n u = level ∧
      (d.liveCounted n u level).obj (0x2A00 + n) (0x13 + u) = satInc16 (d.obj (0x2A00 + n) (0x13 + u)) ∧
      ((d.cmp n).closed ≠ some d.now → d.PairStep (d.liveCounted n u level) n [2 + u, 7] [0x13 + u]) := by
  have hlive := d.pairStep_setBit n (2 + u) level
  obtain ⟨htoggle, hcount, hcmps⟩ := (d.setBit (0x2A00 + n) 0x10 (2 + u) level).cmpToggle_step n hu
  have hcmp : ((d.setBit (0x2A00 + n) 0x10 (2 + u) level).cmpToggle n u).cmp n = d.cmp n := by
    unfold Dev.cmp
    rw [hcmps]
    rfl
  have hself : ((d.setBit (0x2A00 + n) 0x10 (2 + u) level).cmpToggle n u).cmpLive n u = level := by
    unfold Dev.cmpLive
    rw [htoggle.bit _ (by simp; omega), Dev.bit_setBit_self]
  rw [hlive.obj _ _ (by omega) (by simp; omega)] at hcount
  have hstep := hlive.trans htoggle
  unfold Dev.liveCounted
  dsimp only
  rw [hcmp, hstep.now]
  generalize (d.setBit (0x2A00 + n) 0x10 (2 + u) level).cmpToggle n u = e at *
  split
  · next hclosed =>
    have hback := e.cmpUnreport_step n hu
    refine ⟨(hstep.trans hback).mono (by simp) (by simp), ?_, ?_, fun h => absurd hclosed h⟩
    · unfold Dev.cmpLive
      rw [hback.bit _ (by simp)]
      exact hself
    · rw [hback.obj _ _ (by omega) (by simp; omega), hcount]
  · exact ⟨hstep.mono (by simp) (by simp), hself, hcount, fun _ => hstep.mono (by simp) (by simp)⟩

/-- An unresolved comparator resolves silently (R344). -/
theorem Dev.liveTransition_resolves {d : Dev} {n u : Nat} {level : Bool} (hruns : d.runs 13 = true)
    (henabled : d.obj (0x2A00 + n) 0x01 ≠ 0) (hunresolved : d.cmpUnresolved n u = true) :
    d.PairStep (d.liveTransition n u level) n [4 + u, 2 + u, u] [] ∧ (d.liveTransition n u level).cmpUnresolved n u = false ∧
      (d.liveTransition n u level).cmpLive n u = level ∧ (d.liveTransition n u level).cmpOut n u = level := by
  obtain ⟨hready, hon⟩ := Bool.and_eq_true_iff.mp hruns
  have hdev : d.liveTransition n u level =
      ((d.setBit (0x2A00 + n) 0x10 (4 + u) false).setBit (0x2A00 + n) 0x10 (2 + u) level).setBit (0x2A00 + n) 0x10 u level := by
    unfold Dev.liveTransition
    simp [hready, hon, henabled, hunresolved]
  rw [hdev]
  refine ⟨(((d.pairStep_setBit n (4 + u) false).trans (Dev.pairStep_setBit _ n (2 + u) level)).trans (Dev.pairStep_setBit _ n u level)).mono
    (by simp) (by simp), ?_, ?_, ?_⟩
  · unfold Dev.cmpUnresolved
    rw [Dev.bit_setBit_other _ _ (by decide) (by omega), Dev.bit_setBit_other _ _ (by decide) (by omega), Dev.bit_setBit_self]
  · unfold Dev.cmpLive
    rw [Dev.bit_setBit_other _ _ (by decide) (by omega), Dev.bit_setBit_self]
  · unfold Dev.cmpOut
    rw [Dev.bit_setBit_self]

/-- Outside a window the change is reported, unless the reported output has the level already. -/
theorem Dev.liveTransition_reports {d : Dev} {n u : Nat} (hu : u < 2) {level : Bool} (hruns : d.runs 13 = true)
    (henabled : d.obj (0x2A00 + n) 0x01 ≠ 0) (hresolved : d.cmpUnresolved n u = false) (hlive : d.cmpLive n u = !level)
    (hopen : d.blanking n = false) : d.PairStep (d.liveTransition n u level) n [2 + u, 7, u] [0x13 + u, 0x11 + u] ∧
      (d.liveTransition n u level).cmpLive n u = level ∧ (d.liveTransition n u level).cmpOut n u = level ∧
      (d.liveTransition n u level).obj (0x2A00 + n) (0x13 + u) = satInc16 (d.obj (0x2A00 + n) (0x13 + u)) ∧
      ((d.cmp n).closed ≠ some d.now → (d.liveTransition n u level).obj (0x2A00 + n) (0x11 + u) =
        if d.cmpOut n u = level then d.obj (0x2A00 + n) (0x11 + u) else d.now) := by
  obtain ⟨hstep, hnowLive, hcount, hexact⟩ := d.liveCounted_step n hu level
  have hblank : (d.liveCounted n u level).blanking n = false := (hstep.bit 6 (by simp; omega)).trans hopen
  rw [Dev.liveTransition_resolved hruns henabled hresolved hlive, hblank, Bool.false_or]
  generalize hcounted : d.liveCounted n u level = e at *
  split
  · next hout =>
    simp only [decide_eq_true_eq] at hout
    refine ⟨hstep, hnowLive, hout, hcount, fun hclosed => ?_⟩
    have hstays := hexact hclosed
    have hwas : d.cmpOut n u = level := by
      rw [← hout]
      exact (hstays.bit u (by simp; omega)).symm
    rw [if_pos hwas, hstays.obj _ _ (by omega) (by simp; omega)]
  · next hout =>
    simp only [decide_eq_true_eq] at hout
    obtain ⟨hreport, hreported, htime⟩ := e.cmpReport_step n hu level
    refine ⟨(hstep.trans hreport).mono (by simp) (by simp), ?_, hreported, ?_, fun hclosed => ?_⟩
    · unfold Dev.cmpLive
      rw [hreport.bit _ (by simp)]
      exact hnowLive
    · rw [hreport.obj _ _ (by omega) (by simp; omega), hcount]
    · have hwas : ¬d.cmpOut n u = level := fun hc => hout (((hexact hclosed).bit u (by simp; omega)).trans hc)
      rw [if_neg hwas, htime, hstep.now]

/-- In a window the change is counted, and not reported (R348). -/
theorem Dev.liveTransition_blanked {d : Dev} {n u : Nat} (hu : u < 2) {level : Bool} (hruns : d.runs 13 = true)
    (henabled : d.obj (0x2A00 + n) 0x01 ≠ 0) (hresolved : d.cmpUnresolved n u = false) (hlive : d.cmpLive n u = !level)
    (hblank : d.blanking n = true) (hclosed : (d.cmp n).closed ≠ some d.now) :
    d.PairStep (d.liveTransition n u level) n [2 + u, 7] [0x13 + u] ∧ (d.liveTransition n u level).cmpLive n u = level ∧
      (d.liveTransition n u level).obj (0x2A00 + n) (0x13 + u) = satInc16 (d.obj (0x2A00 + n) (0x13 + u)) := by
  obtain ⟨-, hnowLive, hcount, hexact⟩ := d.liveCounted_step n hu level
  have hstep := hexact hclosed
  have hstill : (d.liveCounted n u level).blanking n = true := (hstep.bit 6 (by simp; omega)).trans hblank
  rw [Dev.liveTransition_resolved hruns henabled hresolved hlive, hstill, Bool.true_or, if_pos rfl]
  exact ⟨hstep, hnowLive, hcount⟩

/-! ### Windows -/

/-- The device with another book of what its consumers have received. -/
def Dev.withHeard (d : Dev) (b : Store Nat) : Dev := { d with heard := b }

/-- What a pulse that arrives changes before its consumer acts: the book of what has been received. -/
theorem Dev.onPulse_of_arrives {d : Dev} {c : Consumer} {line : Nat} (h : (d.arrives c line).isSome = true) (f : Dev → Dev) :
    ∃ b, d.onPulse c line f = f (d.withHeard b) := by
  obtain ⟨e, he⟩ := Option.isSome_iff_exists.mp h
  have hbook : ∃ b, e = d.withHeard b := by
    unfold Dev.arrives at he
    dsimp only at he
    split at he
    · cases he
    · split at he
      · exact ⟨_, (Option.some.inj he).symm⟩
      · split at he
        · exact ⟨_, (Option.some.inj he).symm⟩
        · cases he
  obtain ⟨b, rfl⟩ := hbook
  exact ⟨b, by simp only [Dev.onPulse, he]⟩

/-- A report of this instant is taken back as a window opens, but for the one whose pulse opens it. -/
def Dev.openBack (d : Dev) (n u : Nat) : Dev := if d.obj (0x2A00 + n) 0x0C = 128 + 2 * n + u then d else d.cmpUnreport n u

theorem Dev.openBack_step (d : Dev) (n : Nat) {u : Nat} (hu : u < 2) : d.PairStep (d.openBack n u) n [u] [0x11 + u] := by
  unfold Dev.openBack
  split
  · exact (Dev.PairStep.refl d n).mono (by simp) (by simp)
  · exact d.cmpUnreport_step n hu

/-- A pulse opens a window (R349). -/
theorem Dev.blankOpen_opens {d : Dev} {n : Nat} (hruns : d.runs 13 = true) (henabled : d.obj (0x2A00 + n) 0x01 ≠ 0)
    (harrives : (d.arrives (.blankOpen n) (d.obj (0x2A00 + n) 0x0C)).isSome = true) (hshut : d.blanking n = false)
    (hmode : d.obj (0x2A00 + n) 0x0B = 1 ∨ d.obj (0x2A00 + n) 0x0B = 2) :
    d.PairStep (d.blankOpen n) n [0, 1, 6] [0x11, 0x12] ∧ (d.blankOpen n).blanking n = true ∧
      ((d.blankOpen n).cmp n).mode = d.obj (0x2A00 + n) 0x0B ∧ ((d.blankOpen n).cmp n).from_ = d.now := by
  obtain ⟨e, hstep, hdev⟩ : ∃ e, d.PairStep e n [0, 1] [0x11, 0x12] ∧ d.blankOpen n =
      (e.setBit (0x2A00 + n) 0x10 6 true).setCmp n { (e.setBit (0x2A00 + n) 0x10 6 true).cmp n with
        mode := d.obj (0x2A00 + n) 0x0B, from_ := e.now } := by
    unfold Dev.blankOpen
    simp only [hruns, henabled, Bool.not_true, decide_false, Bool.or_self, Bool.false_eq_true, if_false]
    obtain ⟨b, hpulse⟩ := Dev.onPulse_of_arrives harrives _
    have hstill : (d.withHeard b).blanking n = false := hshut
    have hnamed : (decide (d.obj (0x2A00 + n) 0x0B = 1) || decide (d.obj (0x2A00 + n) 0x0B = 2)) = true := by simpa using hmode
    have hbook : d.PairStep (d.withHeard b) n [] [] := Dev.pairStep_regs n rfl rfl
    have hback := (hbook.trans (Dev.openBack_step (d.withHeard b) n (u := 0) (by decide))).trans (Dev.openBack_step _ n (u := 1) (by decide))
    refine ⟨_, hback.mono (bits' := [0, 1]) (subs' := [0x11, 0x12]) (by simp) (by simp), hpulse.trans ?_⟩
    simp only [hstill, hnamed, Bool.false_eq_true, if_false, if_true]
    rfl
  have hbit := e.pairStep_setBit n 6 true
  have hset := Dev.bit_setBit_self e (0x2A00 + n) 0x10 6 true
  generalize e.setBit (0x2A00 + n) 0x10 6 true = f at hdev hbit hset
  rw [hdev]
  refine ⟨((hstep.trans hbit).trans (f.pairStep_setCmp n _)).mono (by simp) (by simp), hset, ?_, ?_⟩
  · rw [Dev.cmp_setCmp_self]
  · rw [Dev.cmp_setCmp_self]
    exact hstep.now

/-- At the end of a window a comparator whose outputs differ reports once. -/
def Dev.cmpSettle (d : Dev) (n u : Nat) : Dev :=
  if !d.cmpUnresolved n u && d.cmpLive n u != d.cmpOut n u then d.cmpReport n u (d.cmpLive n u) else d

theorem Dev.cmpSettle_step (d : Dev) (n : Nat) {u : Nat} (hu : u < 2) : d.PairStep (d.cmpSettle n u) n [u] [0x11 + u] ∧
    (d.cmpUnresolved n u = false → (d.cmpSettle n u).cmpOut n u = d.cmpLive n u ∧
      (d.cmpOut n u ≠ d.cmpLive n u → (d.cmpSettle n u).obj (0x2A00 + n) (0x11 + u) = d.now)) := by
  unfold Dev.cmpSettle
  split
  · obtain ⟨hstep, hout, htime⟩ := d.cmpReport_step n hu (d.cmpLive n u)
    exact ⟨hstep, fun _ => ⟨hout, fun _ => htime⟩⟩
  · next h =>
    refine ⟨(Dev.PairStep.refl d n).mono (by simp) (by simp), fun hresolved => ?_⟩
    have hsame : d.cmpLive n u = d.cmpOut n u := by simpa [hresolved] using h
    exact ⟨hsame.symm, fun hne => absurd hsame.symm hne⟩

/-- The end of a window (R348). -/
theorem Dev.blankEnd_ends (d : Dev) (n : Nat) : d.PairStep (d.blankEnd n) n [6, 0, 1] [0x11, 0x12] ∧ (d.blankEnd n).blanking n = false ∧
    ∀ u < 2, d.cmpUnresolved n u = false → (d.blankEnd n).cmpOut n u = d.cmpLive n u ∧
      (d.cmpOut n u ≠ d.cmpLive n u → (d.blankEnd n).obj (0x2A00 + n) (0x11 + u) = d.now) := by
  obtain ⟨e, hshut, hopen, hdev⟩ : ∃ e, d.PairStep e n [6] [] ∧ e.blanking n = false ∧ d.blankEnd n = (e.cmpSettle n 0).cmpSettle n 1 := by
    refine ⟨(d.setBit (0x2A00 + n) 0x10 6 false).setCmp n
      { ((d.setBit (0x2A00 + n) 0x10 6 false).cmp n) with mode := 0, from_ := 0, closed := some d.now }, ?_, ?_, rfl⟩
    · exact ((d.pairStep_setBit n 6 false).trans (Dev.pairStep_setCmp _ n _)).mono (by simp) (by simp)
    · exact (Dev.bit_congr rfl _ _ _).trans (Dev.bit_setBit_self d ..)
  obtain ⟨hupper, hupperOut⟩ := e.cmpSettle_step n (u := 0) (by decide)
  obtain ⟨hlower, hlowerOut⟩ := (e.cmpSettle n 0).cmpSettle_step n (u := 1) (by decide)
  have hbit : ∀ b, b ≠ 6 → e.bit (0x2A00 + n) 0x10 b = d.bit (0x2A00 + n) 0x10 b := fun b hb => hshut.bit b (by simpa using hb)
  have hbits : ∀ b, b ≠ 6 → b ≠ 0 → (e.cmpSettle n 0).bit (0x2A00 + n) 0x10 b = d.bit (0x2A00 + n) 0x10 b := fun b hb h0 =>
    (hupper.bit b (by simpa using h0)).trans (hbit b hb)
  rw [hdev]
  refine ⟨((hshut.trans hupper).trans hlower).mono (by simp) (by simp), ?_, fun u hu hresolved => ?_⟩
  · exact ((hlower.bit 6 (by simp)).trans (hupper.bit 6 (by simp))).trans hopen
  · obtain rfl | rfl : u = 0 ∨ u = 1 := by omega
    · obtain ⟨hout, htime⟩ := hupperOut ((hbit 4 (by decide)).trans hresolved)
      refine ⟨(hlower.bit 0 (by simp)).trans (hout.trans (hbit 2 (by decide))), fun hne => ?_⟩
      rw [hlower.obj _ _ (by decide) (by simp)]
      refine (htime (fun hc => hne ?_)).trans hshut.now
      exact (hbit 0 (by decide)).symm.trans (hc.trans (hbit 2 (by decide)))
    · obtain ⟨hout, htime⟩ := hlowerOut ((hbits 5 (by decide) (by decide)).trans hresolved)
      refine ⟨hout.trans (hbits 3 (by decide) (by decide)), fun hne => ?_⟩
      refine (htime (fun hc => hne ?_)).trans (hupper.now.trans hshut.now)
      exact (hbits 1 (by decide) (by decide)).symm.trans (hc.trans (hbits 3 (by decide) (by decide)))

/-- A window closes when its length has run or a pulse of its end line arrives (R348, R349). -/
theorem Dev.blankClose_closes {d : Dev} {n : Nat} (hruns : d.runs 13 = true) (hopen : d.blanking n = true)
    (hend : if (d.cmp n).mode = 1 then (d.cmp n).from_ + d.obj (0x2A00 + n) 0x0E * tq100ns ≤ d.now
      else (d.arrives (.blankClose n) (d.obj (0x2A00 + n) 0x0D)).isSome = true) :
    ∃ b, d.blankClose n = (d.withHeard b).blankEnd n := by
  unfold Dev.blankClose
  simp only [hruns, hopen, Bool.not_true, Bool.or_self, Bool.false_eq_true, if_false]
  split at hend
  · next hmode => exact ⟨d.heard, (if_pos hmode).trans (if_pos hend)⟩
  · next hmode =>
    rw [if_neg hmode]
    exact Dev.onPulse_of_arrives hend _

/-! ### Ramps -/

/-- A ramp at its start value (R351). -/
theorem Dev.rampReturn_back (d : Dev) (k : Nat) : ((d.rampReturn k).obj (0x2A10 + k) 0x08 = 1 ∧ (d.rampReturn k).obj (0x2A10 + k) 0x09 = d.now) ∧
    d.sameBut (d.rampReturn k) (fun i w => ([(0x2A10 + k, 0x08), (0x2A10 + k, 0x09)] : List (Nat × Nat)).contains (i, w)) := by
  unfold Dev.rampReturn
  refine ⟨⟨?_, Dev.obj_setObj_self ..⟩, ((Dev.sameBut_refl _ _).setObj _ (by decide) (by simp)).setObj _ (by decide) (by simp)⟩
  rw [Dev.obj_setObj_sub _ _ (by decide) (by decide) (by decide), Dev.obj_setObj_self]

/-- A ramp that has reached its end (R351). -/
theorem Dev.rampEnd_of_end {d : Dev} {k : Nat} (hfree : d.rampFree k = true) (hruns : d.bit (0x2A10 + k) 0x08 0 = true)
    (hend : ((d.obj (0x2A10 + k) 0x04 : Int) - d.obj (0x2A10 + k) 0x03).natAbs * 1000 * tqUs ≤
      (d.now - d.obj (0x2A10 + k) 0x09) * d.obj (0x2A10 + k) 0x05) :
    d.rampEnd k = if d.obj (0x2A10 + k) 0x02 = 1 then d.rampReturn k else d.setObj (0x2A10 + k) 0x08 2 := by
  unfold Dev.rampEnd
  simp only [hfree, hruns, decide_eq_true hend, Bool.and_self, if_true]

/-- The block of the ramps, and the command that starts one. -/
abbrev rampBlock : ObjBlock := ⟨0x2A10, 4, .ramp, rampRows⟩

theorem rampBlock_start (k : Fin 4) : rampBlock.Command (0x2A10 + k) 0x0A 1 := ⟨by revert k; decide, by revert k; decide +kernel⟩

/-- Whether a ramp runs on its own settings is read from objects outside chapter 02, and from the phase of the device. -/
theorem Dev.rampFree_congr {d e : Dev} (h : d.sameBut e portObjs) (hrst : e.rst = d.rst) (k : Fin 4) : e.rampFree k = d.rampFree k := by
  have hobj : ∀ i u, u < 256 → 0x1800 ≤ i → e.obj i u = d.obj i u := fun i u hu hi => h i u hu (by simp [portObjs, portObj]; omega)
  have howner : e.rampOwner k = d.rampOwner k := by
    unfold Dev.rampOwner
    rw [hobj 0x2780 0x01 (by decide) (by decide), hobj 0x2780 0x07 (by decide) (by decide), hobj 0x2781 0x01 (by decide) (by decide),
      hobj 0x2781 0x07 (by decide) (by decide)]
  unfold Dev.rampFree Dev.runs Dev.ready Dev.pdOn Dev.bit
  rw [howner, hrst, hobj _ _ (by decide) (by decide), hobj _ _ (by decide) (by decide), hobj _ _ (by decide) (by decide),
    hobj _ _ (by decide) (by omega)]

/-- A write of start sets the output back (R351). -/
theorem State.does_of_rampStart {s : State} {t : Nat} {r : Req} {k : Fin 4} (hfree : (s.devAt t).rampFree k = true)
    (h : s.takes t r (0x2A10 + k) 0x0A 1 1 = true) :
    s.does t (.rampStart t r k) [(0x2A10 + k.val, 0x08), (0x2A10 + k.val, 0x09)] (fun u =>
      u.obj (0x2A10 + k) 0x08 = 1 ∧ u.obj (0x2A10 + k) 0x09 = (s.devAt t).now) := by
  obtain ⟨hb, row, hr, hn, hty, hc⟩ := rampBlock_start k
  refine State.does_of_write h rfl hb hr hn hty (by decide) (fun g e hg hginner heregs heinner => ?_)
  have henabled : g.obj (0x2A10 + k) 0x01 ≠ 0 := by
    rw [hg _ _ (by decide) (by simp [portObjs, portObj]; omega)]
    have hone : (s.devAt t).obj (0x2A10 + k) 0x01 = 1 := by
      simp only [Dev.rampFree, Bool.and_eq_true, decide_eq_true_eq] at hfree
      exact hfree.1.2
    rw [hone]
    decide
  have haccept : (g.sendPart (oneWr r (0x2A10 + k) 0x0A 1 1 rampBlock)).accept (oneWr r (0x2A10 + k) 0x0A 1 1 rampBlock) =
      g.writtenBy r.port (0x2A10 + k) := by
    have hsend : g.sendPart (oneWr r (0x2A10 + k) 0x0A 1 1 rampBlock) = g := rfl
    have hwritten : (g.writtenBy r.port (0x2A10 + k)).rampWritten k = g.writtenBy r.port (0x2A10 + k) := if_neg henabled
    rw [hsend]
    unfold Dev.accept
    rw [Dev.stored_command g (rampBlock_start k)]
    simpa [Dev.hooks, Wr.master, oneWr, hostWr, rampBlock] using hwritten
  rw [haccept] at heregs heinner
  have hfreeNow : e.rampFree k = true := by
    rw [Dev.rampFree_congr (hg.regs heregs) ((Dev.rst_of_inner heinner).trans (Dev.rst_of_inner hginner)) k]
    exact hfree
  have hback : e.commands (oneWr r (0x2A10 + k) 0x0A 1 1 rampBlock) = e.rampReturn k := by
    rw [Dev.commands_one e hr hc]
    simp [Dev.command, Dev.blockCommand, rampBlock, Dev.rampStart, hfreeNow]
  obtain ⟨⟨hstatus, htime⟩, hsame⟩ := e.rampReturn_back k
  rw [hback]
  refine ⟨⟨hstatus, htime.trans ((Dev.now_of_inner heinner).trans (Dev.now_of_inner hginner))⟩, ?_⟩
  exact (Dev.sameBut_of_regs heregs).trans (hsame.mono (fun i w hp => by rw [hp, Bool.or_true]))

/-! ### The statement -/

/-- The comparator of a pair that a transition names, as a truth value. -/
theorem b2n_cast (u : Fin 2) : b2n ((u.val : Nat) : Bool) = u.val := by
  revert u
  decide

/-- Settles O39: a pair's commands are steps of its status bits, and a ramp's are its return to the start value. -/
theorem comparatorsAndRamps : Obligations.ComparatorsAndRamps := by
  constructor
  · intro s t n d i hruns henabled
    refine ⟨fun u level => ?_, fun harrives hshut hmode => ?_, fun hopen hend => ?_⟩
    · have hexec : exec (.liveTransition t n u level) s = .next { s with dev := d.liveTransition n u level } := by
        have hraw : exec (.liveTransition t n u level) s = .next { s with dev := d.liveTransition n (b2n ((u.val : Nat) : Bool)) level } := rfl
        rw [hraw, b2n_cast]
      refine ⟨fun hunresolved => ?_, fun hresolved hlive => ⟨fun hopen => ?_, fun hblank hclosed => ?_⟩⟩
      · obtain ⟨hstep, hdone⟩ := Dev.liveTransition_resolves (level := level) hruns henabled hunresolved
        exact State.does_of_dev hexec hdone (hstep.sameBut (by simp [i]) (by simp))
      · obtain ⟨hstep, hdone⟩ := Dev.liveTransition_reports u.isLt hruns henabled hresolved hlive hopen
        exact State.does_of_dev hexec hdone (hstep.sameBut (by simp [i]) (by simp [i]))
      · obtain ⟨hstep, hnowLive, hcount⟩ := Dev.liveTransition_blanked u.isLt hruns henabled hresolved hlive hblank hclosed
        refine State.does_of_dev hexec ⟨hnowLive, hstep.bit u (by simp; omega), hcount⟩ (hstep.sameBut (by simp [i]) (by simp [i]))
    · obtain ⟨hstep, hdone⟩ := Dev.blankOpen_opens hruns henabled harrives hshut hmode
      exact State.does_of_dev (u := d.blankOpen n) rfl hdone (hstep.sameBut (by simp [i]) (by simp [i]))
    · obtain ⟨b, hdev⟩ := Dev.blankClose_closes hruns hopen hend
      obtain ⟨hstep, hdone⟩ := (d.withHeard b).blankEnd_ends n
      refine State.does_of_dev (u := d.blankClose n) rfl ?_ ?_ <;> rw [hdev]
      · exact hdone
      · exact (Dev.sameBut_of_regs rfl).trans (hstep.sameBut (by simp [i]) (by simp [i]))
  · intro s t k d i back hfree
    have hback : ∀ e : Dev, e.regs = d.regs → e.now = d.now → back (e.rampReturn k) ∧
        d.sameBut (e.rampReturn k) (fun i w => ([(0x2A10 + k.val, 0x08), (0x2A10 + k.val, 0x09)] : List (Nat × Nat)).contains (i, w)) :=
      fun e hregs hnow => by
        obtain ⟨⟨hstatus, htime⟩, hsame⟩ := e.rampReturn_back k
        exact ⟨⟨hstatus, htime.trans hnow⟩, (Dev.sameBut_of_regs hregs).trans hsame⟩
    refine ⟨fun harrives => ?_, fun r h => State.does_of_rampStart hfree h, fun hruns hend => ⟨fun hmode => ?_, fun hmode => ?_⟩⟩
    · obtain ⟨b, hpulse⟩ := Dev.onPulse_of_arrives harrives (fun d => d.rampReturn k)
      have hdev : d.rampReset k = (d.withHeard b).rampReturn k := (if_pos hfree).trans hpulse
      obtain ⟨hdone, hsame⟩ := hback (d.withHeard b) rfl rfl
      exact State.does_of_dev (u := d.rampReset k) rfl (hdev ▸ hdone) (hdev ▸ hsame)
    · have hdev : d.rampEnd k = d.rampReturn k := (Dev.rampEnd_of_end hfree hruns hend).trans (if_pos hmode)
      obtain ⟨hdone, hsame⟩ := hback d rfl rfl
      exact State.does_of_dev (u := d.rampEnd k) rfl (hdev ▸ hdone) (hdev ▸ hsame)
    · have hdev : d.rampEnd k = d.setObj i 0x08 2 := (Dev.rampEnd_of_end hfree hruns hend).trans (if_neg hmode)
      refine State.does_of_dev (u := d.rampEnd k) rfl ?_ ?_ <;> rw [hdev]
      · exact Dev.obj_setObj_self ..
      · exact (Dev.sameBut_refl _ _).setObj _ (by decide) (by simp)

end Sys2Proof.Machine
end

section
/-! SUPPORT. One element of a DMA run (R415, R416, R419, R423): what it changes of the channel and of its ring, where its symbols go, and an
uncorrectable error met by its read. -/

namespace Sys2Proof.Machine

/-! ### Symbols at addresses of a ring -/

/-- Single symbols written to distinct addresses: each stands at its own, and every other address is as it was. -/
theorem loftByte_scattered {at_ : Nat → Nat} {f : Nat → Byte} {l : List Nat} (hnodup : l.Nodup)
    (hinj : ∀ j ∈ l, ∀ k ∈ l, at_ j = at_ k → j = k) (hin : ∀ j ∈ l, at_ j < loftSize) (m : Store Byte) :
    (∀ j ∈ l, loftByte (l.foldl (fun m j => loftPut m (at_ j) [f j]) m) (at_ j) = f j) ∧
      ∀ q, (∀ j ∈ l, q ≠ at_ j) → loftByte (l.foldl (fun m j => loftPut m (at_ j) [f j]) m) q = loftByte m q := by
  induction l generalizing m with
  | nil => exact ⟨fun _ h => absurd h List.not_mem_nil, fun _ _ => rfl⟩
  | cons x l ih =>
    obtain ⟨hx, hnodup⟩ := List.nodup_cons.mp hnodup
    obtain ⟨hat, hout⟩ := ih hnodup (fun j hj k hk => hinj j (List.mem_cons_of_mem _ hj) k (List.mem_cons_of_mem _ hk))
      (fun j hj => hin j (List.mem_cons_of_mem _ hj)) (loftPut m (at_ x) [f x])
    refine ⟨fun j hj => ?_, fun q hq => ?_⟩
    · rcases List.mem_cons.mp hj with rfl | hj
      · have hapart : ∀ k ∈ l, at_ j ≠ at_ k := fun k hk he =>
          hx (hinj j (List.mem_cons_self ..) k (List.mem_cons_of_mem _ hk) he ▸ hk)
        rw [List.foldl_cons, hout _ hapart, loftByte_put, if_pos ⟨le_rfl, by simp, hin j (List.mem_cons_self ..)⟩]
        simp
      · exact hat j hj
    · have hne := hq x (List.mem_cons_self ..)
      rw [List.foldl_cons, hout q (fun j hj => hq j (List.mem_cons_of_mem _ hj)), loftByte_put_out (by simp; omega)]

/-- Places of a ring that are less than its length apart are distinct. -/
theorem ring_distinct {x j k n len : Nat} (hj : j < n) (hk : k < n) (hn : n ≤ len) (h : (x + j) % len = (x + k) % len) : j = k := by
  have hmod : j ≡ k [MOD len] := Nat.ModEq.add_left_cancel' x h
  exact Nat.ModEq.eq_of_lt_of_lt hmod (by omega) (by omega)

@[simp] theorem loftBytes_length (m : Store Byte) (a n : Nat) : (loftBytes m a n).length = n := by simp [loftBytes]

@[simp] theorem ringBytes_length (m : Store Byte) (base len ix n : Nat) : (ringBytes m base len ix n).length = n := by simp [ringBytes]

/-! ### The channel and its ring -/

/-- The engine whose ring a channel works on. -/
def Dev.dmaEngine (d : Dev) (c : Nat) : Nat := 0x2C00 + d.obj (0x2D10 + c) 0x11

/-- Where the read of the next element starts. -/
def Dev.dmaFrom (d : Dev) (c : Nat) : Nat :=
  if d.obj (0x2D10 + c) 0x0F = 1 then d.obj (d.dmaEngine c) 0x13 + d.obj (d.dmaEngine c) 0x18
  else (d.dmaAddr c 0x03 0x09 (d.dma c).i0 (d.dma c).i1 (d.dma c).i2).toNat

/-- The symbols of the next element. -/
def Dev.dmaBytes (d : Dev) (m : Store Byte) (c : Nat) : List Byte :=
  if d.obj (0x2D10 + c) 0x0F = 1 then
    ringBytes m (d.obj (d.dmaEngine c) 0x13) (d.obj (d.dmaEngine c) 0x14) (d.obj (d.dmaEngine c) 0x18) (d.dmaSize c)
  else loftBytes m (d.dmaFrom c) (d.dmaSize c)

/-- The device with the rings of an element moved on. -/
def Dev.dmaRings (d : Dev) (c : Nat) : Dev :=
  let d' := if d.obj (0x2D10 + c) 0x0F = 1 then
      d.setObj (d.dmaEngine c) 0x18 ((d.obj (d.dmaEngine c) 0x18 + d.dmaSize c) % d.obj (d.dmaEngine c) 0x14)
    else d
  if d.obj (0x2D10 + c) 0x10 = 1 then
    d'.setObj (d.dmaEngine c) 0x15 ((d'.obj (d.dmaEngine c) 0x15 + d.dmaSize c) % d'.obj (d.dmaEngine c) 0x12)
  else d'

/-- The credit of an element has been spent where the channel is paced, and the innermost loop that has elements left has moved on. -/
def Dev.dmaCounted (d : Dev) (c : Nat) (paced : Bool) : Dev :=
  let spent := paced && (d.obj (0x2D10 + c) 0x14 = 0 || (d.obj (0x2D10 + c) 0x14 = 1 && (d.dmaNext c).2.1) ||
    (d.obj (0x2D10 + c) 0x14 = 2 && (d.dmaNext c).2.2))
  let d' := if spent then d.setObj (0x2D10 + c) 0x1A (d.obj (0x2D10 + c) 0x1A - 1) else d
  (d'.inc (0x2D10 + c) 0x18).setDma c (d.dmaNext c).1

/-- Where the symbols of the next element go. -/
def Dev.dmaWrites (d : Dev) (m : Store Byte) (c : Nat) : List (Nat × List Byte) :=
  if d.obj (0x2D10 + c) 0x10 = 1 then
    ((List.range (d.dmaSize c)).zip (d.dmaBytes m c)).map (fun k =>
      (d.obj (d.dmaEngine c) 0x11 + (d.obj (d.dmaEngine c) 0x15 + k.1) % d.obj (d.dmaEngine c) 0x12, [k.2]))
  else [((d.dmaAddr c 0x04 0x0C (d.dma c).i0 (d.dma c).i1 (d.dma c).i2).toNat, d.dmaBytes m c)]

/-- The channel may copy its next element (R416, R418 to R420). -/
structure Dev.DmaGoes (d : Dev) (c : Nat) : Prop where
  runs : d.runs 2 = true
  running : d.dmaState c = 2
  left : (d.dma c).all = false
  unpaused : d.obj (0x2D10 + c) 0x02 ≠ 1
  credit : d.obj (0x2D10 + c) 0x13 ≤ 255 → d.obj (0x2D10 + c) 0x1A ≠ 0
  ring : d.dmaRingWait c = false

theorem Dev.DmaGoes.guard {d : Dev} {c : Nat} (h : d.DmaGoes c) : (!d.runs 2 || decide (d.dmaState c ≠ 2) || (d.dma c).all ||
    decide (d.obj (0x2D10 + c) 0x02 = 1) || (decide (d.obj (0x2D10 + c) 0x13 ≤ 255) && decide (d.obj (0x2D10 + c) 0x1A = 0)) ||
    d.dmaRingWait c) = false := by
  have hcredit : (decide (d.obj (0x2D10 + c) 0x13 ≤ 255) && decide (d.obj (0x2D10 + c) 0x1A = 0)) = false := by
    simpa using h.credit
  simp [h.runs, h.running, h.left, h.unpaused, h.ring, hcredit]

/-- An element whose read meets no error. -/
theorem Dev.dmaElement_copies {d : Dev} {c : Nat} (m : Store Byte) (h : d.DmaGoes c)
    (hgood : d.meetsBad (d.dmaFrom c) (d.dmaSize c) = false) :
    d.dmaElement m c false = (((d.accessBy 12).dmaRings c).dmaCounted c (decide (d.obj (0x2D10 + c) 0x13 ≤ 255)), { writes := d.dmaWrites m c }) := by
  have hmeets : (false || (d.accessBy 12).meetsBad (d.dmaFrom c) (d.dmaSize c)) = false := hgood
  refine (if_neg (Bool.eq_false_iff.mp h.guard)).trans ((if_neg (Bool.eq_false_iff.mp hmeets)).trans ?_)
  rfl

/-- An element whose read meets an uncorrectable error. -/
theorem Dev.dmaElement_stops {d : Dev} {c : Nat} (m : Store Byte) (h : d.DmaGoes c) {ecc : Bool}
    (hbad : ecc = true ∨ d.meetsBad (d.dmaFrom c) (d.dmaSize c) = true) :
    d.dmaElement m c ecc = (((d.accessBy 12).eccBad (d.dmaFrom c) false).dmaEcc c (d.dmaFrom c), LoftEff.none) := by
  have hmeets : (ecc || (d.accessBy 12).meetsBad (d.dmaFrom c) (d.dmaSize c)) = true := (Bool.or_eq_true ..).mpr hbad
  exact (if_neg (Bool.eq_false_iff.mp h.guard)).trans (if_pos hmeets)

/-- The objects of a channel's ring after an element. -/
theorem Dev.obj_dmaRings (d : Dev) (c : Nat) {j u : Nat} (hu : u < 256) : (d.dmaRings c).obj j u =
    if d.obj (0x2D10 + c) 0x10 = 1 ∧ j = d.dmaEngine c ∧ u = 0x15 then
      (d.obj (d.dmaEngine c) 0x15 + d.dmaSize c) % d.obj (d.dmaEngine c) 0x12
    else if d.obj (0x2D10 + c) 0x0F = 1 ∧ j = d.dmaEngine c ∧ u = 0x18 then
      (d.obj (d.dmaEngine c) 0x18 + d.dmaSize c) % d.obj (d.dmaEngine c) 0x14
    else d.obj j u := by
  unfold Dev.dmaRings
  dsimp only
  by_cases hsrc : d.obj (0x2D10 + c) 0x0F = 1 <;> by_cases hdst : d.obj (0x2D10 + c) 0x10 = 1
  all_goals simp only [hsrc, hdst, if_true, if_false, true_and, false_and]
  · rw [Dev.obj_setObj _ _ (by decide) hu, Dev.obj_setObj _ _ (by decide) hu, Dev.obj_setObj_sub _ _ (by decide) (by decide) (by decide),
      Dev.obj_setObj_sub _ _ (by decide) (by decide) (by decide)]
  · rw [Dev.obj_setObj _ _ (by decide) hu]
  · rw [Dev.obj_setObj _ _ (by decide) hu]

/-- An engine's ring lies apart from the channel. -/
theorem Dev.dmaEngine_ne {d : Dev} {c : Nat} (h : d.obj (0x2D10 + c) 0x11 < 8) (k : Nat) : 0x2D10 + k ≠ d.dmaEngine c := by
  unfold Dev.dmaEngine
  omega

/-- The channel itself stands as its rings move. -/
theorem Dev.obj_dmaRings_channel (d : Dev) (c : Nat) {u : Nat} (hu : u < 256)
    (hring : d.obj (0x2D10 + c) 0x0F = 1 ∨ d.obj (0x2D10 + c) 0x10 = 1 → d.obj (0x2D10 + c) 0x11 < 8) :
    (d.dmaRings c).obj (0x2D10 + c) u = d.obj (0x2D10 + c) u := by
  rw [Dev.obj_dmaRings _ _ hu, if_neg, if_neg]
  · exact fun h => Dev.dmaEngine_ne (hring (.inl h.1)) c h.2.1
  · exact fun h => Dev.dmaEngine_ne (hring (.inr h.1)) c h.2.1

@[simp] theorem Dev.dmaRings_dma (d : Dev) (c k : Nat) : (d.dmaRings c).dma k = d.dma k := by
  unfold Dev.dmaRings
  dsimp only
  split <;> split <;> rfl

/-- The loops of a channel, as the statement counts them. -/
theorem Dev.dmaNext_loops (d : Dev) (c : Nat) : (d.dmaNext c).1 =
    if (d.dma c).i0 + 1 < d.obj (0x2D10 + c) 0x06 then { d.dma c with i0 := (d.dma c).i0 + 1 }
    else if (d.dma c).i1 + 1 < d.obj (0x2D10 + c) 0x07 then { d.dma c with i0 := 0, i1 := (d.dma c).i1 + 1 }
    else if (d.dma c).i2 + 1 < d.obj (0x2D10 + c) 0x08 then { d.dma c with i0 := 0, i1 := 0, i2 := (d.dma c).i2 + 1 }
    else { d.dma c with all := true } := by
  unfold Dev.dmaNext Dev.dmaCount
  dsimp only
  repeat' split
  all_goals rfl

theorem Dev.dmaCounted_dma (d : Dev) (c : Nat) (paced : Bool) : (d.dmaCounted c paced).dma c = (d.dmaNext c).1 := by
  simp [Dev.dmaCounted, Dev.dma, Dev.setDma]

/-- The objects of a channel after an element has been counted. -/
theorem Dev.obj_dmaCounted (d : Dev) (c : Nat) (paced : Bool) : (d.dmaCounted c paced).obj (0x2D10 + c) 0x18 = satInc32 (d.obj (0x2D10 + c) 0x18) ∧
    (paced = true → d.obj (0x2D10 + c) 0x14 = 0 → (d.dmaCounted c paced).obj (0x2D10 + c) 0x1A = d.obj (0x2D10 + c) 0x1A - 1) ∧
    (paced = false → (d.dmaCounted c paced).obj (0x2D10 + c) 0x1A = d.obj (0x2D10 + c) 0x1A) ∧
    d.sameBut (d.dmaCounted c paced) (fun j w => ([(0x2D10 + c, 0x18), (0x2D10 + c, 0x1A)] : List (Nat × Nat)).contains (j, w)) := by
  obtain ⟨e, he, hcounted⟩ : ∃ e : Dev, (e = d.setObj (0x2D10 + c) 0x1A (d.obj (0x2D10 + c) 0x1A - 1) ∧ paced = true ∨
      e = d ∧ ¬(paced = true ∧ d.obj (0x2D10 + c) 0x14 = 0)) ∧
      ∀ j w, (d.dmaCounted c paced).obj j w = (e.inc (0x2D10 + c) 0x18).obj j w := by
    unfold Dev.dmaCounted
    dsimp only
    split
    · next h => exact ⟨_, .inl ⟨rfl, by simp at h; exact h.1⟩, fun j w => Dev.obj_congr rfl j w⟩
    · next h => exact ⟨_, .inr ⟨rfl, by simp at h; tauto⟩, fun j w => Dev.obj_congr rfl j w⟩
  have hsame : d.sameBut e (fun j w => ([(0x2D10 + c, 0x18), (0x2D10 + c, 0x1A)] : List (Nat × Nat)).contains (j, w)) := by
    rcases he with ⟨rfl, -⟩ | ⟨rfl, -⟩
    · exact (Dev.sameBut_refl _ _).setObj _ (by decide) (by simp)
    · exact Dev.sameBut_refl _ _
  have hcount : e.obj (0x2D10 + c) 0x18 = d.obj (0x2D10 + c) 0x18 := by
    rcases he with ⟨rfl, -⟩ | ⟨rfl, -⟩
    · exact Dev.obj_setObj_sub _ _ (by decide) (by decide) (by decide)
    · rfl
  have hcredit : (d.dmaCounted c paced).obj (0x2D10 + c) 0x1A = e.obj (0x2D10 + c) 0x1A := by
    rw [hcounted, Dev.obj_inc _ (by decide) (by decide), if_neg (fun h => by omega)]
  refine ⟨?_, fun hpaced hunit => ?_, fun hfree => ?_, fun j w hw hout => ?_⟩
  · rw [hcounted, Dev.obj_inc _ (by decide) (by decide), if_pos ⟨rfl, rfl⟩, hcount]
  · rw [hcredit]
    rcases he with ⟨rfl, -⟩ | ⟨-, hno⟩
    · exact Dev.obj_setObj_self ..
    · exact absurd ⟨hpaced, hunit⟩ hno
  · rw [hcredit]
    rcases he with ⟨-, hpaced⟩ | ⟨rfl, -⟩
    · rw [hfree] at hpaced
      cases hpaced
    · rfl
  · rw [hcounted]
    exact (hsame.inc (by decide) (by simp)) j w hw hout

/-- An uncorrectable error that a read meets is counted, and noted with its word and its instant (R404). -/
theorem Dev.eccBad_counts (d : Dev) (a : Nat) : (d.eccBad a false).obj 0x2D00 0x0F = satInc32 (d.obj 0x2D00 0x0F) ∧
    d.sameBut (d.eccBad a false) (fun j w => ([(0x2D00, 0x0F), (0x2D00, 0x10), (0x2D00, 0x11)] : List (Nat × Nat)).contains (j, w)) := by
  obtain ⟨e, hregs, hbad⟩ : ∃ e : Dev, e.regs = d.regs ∧
      (d.eccBad a false).regs = (((e.inc 0x2D00 0x0F).setObj 0x2D00 0x10 (a / 8 * 8)).setObj 0x2D00 0x11 e.now).regs := by
    unfold Dev.eccBad Dev.eccNote
    dsimp only
    simp only [Bool.false_and, Bool.false_eq_true, if_false]
    exact ⟨_, rfl, Dev.raiseIf_regs ..⟩
  refine ⟨?_, (Dev.sameBut.setObj (Dev.sameBut.setObj (Dev.sameBut.inc (Dev.sameBut_of_regs hregs) (by decide) (by simp)) _ (by decide)
    (by simp)) _ (by decide) (by simp)).regs hbad⟩
  rw [Dev.obj_congr hbad, Dev.obj_setObj_sub _ _ (by decide) (by decide) (by decide),
    Dev.obj_setObj_sub _ _ (by decide) (by decide) (by decide), Dev.obj_inc _ (by decide) (by decide), if_pos ⟨rfl, rfl⟩, Dev.obj_congr hregs]

/-- A channel that an error stops: idle, aborted, the error shown with its address (R404, R423). -/
theorem Dev.dmaEcc_stops (e : Dev) (c a : Nat) :
    ((e.dmaEcc c a).obj (0x2D10 + c) 0x16 = 0 ∧ (e.dmaEcc c a).bit (0x2D10 + c) 0x17 3 = true ∧
      (e.dmaEcc c a).bit (0x2D10 + c) 0x17 4 = true ∧ (e.dmaEcc c a).obj (0x2D10 + c) 0x1D = a) ∧
    e.sameBut (e.dmaEcc c a) (fun j w => ([(0x2D10 + c, 0x16), (0x2D10 + c, 0x17), (0x2D10 + c, 0x1D)] : List (Nat × Nat)).contains (j, w)) := by
  have hdev : (e.dmaEcc c a).regs =
      ((((e.setBit (0x2D10 + c) 0x17 4 true).setBit (0x2D10 + c) 0x17 3 true).setObj (0x2D10 + c) 0x1D a).setObj (0x2D10 + c) 0x16 0).regs :=
    Dev.raiseIf_regs ..
  refine ⟨⟨?_, ?_, ?_, ?_⟩, ?_⟩
  · rw [Dev.obj_congr hdev, Dev.obj_setObj_self]
  · rw [Dev.bit_congr hdev, Dev.bit_setObj_sub _ _ _ (by decide) (by decide) (by decide), Dev.bit_setObj_sub _ _ _ (by decide) (by decide) (by decide),
      Dev.bit_setBit_self]
  · rw [Dev.bit_congr hdev, Dev.bit_setObj_sub _ _ _ (by decide) (by decide) (by decide), Dev.bit_setObj_sub _ _ _ (by decide) (by decide) (by decide),
      Dev.bit_setBit_other _ _ (by decide) (by decide), Dev.bit_setBit_self]
  · rw [Dev.obj_congr hdev, Dev.obj_setObj_sub _ _ (by decide) (by decide) (by decide), Dev.obj_setObj_self]
  · exact (((((Dev.sameBut_refl e _).setObj _ (by decide) (by simp)).setObj _ (by decide) (by simp)).setObj _ (by decide) (by simp)).setObj _ (by decide)
      (by simp)).regs hdev

/-- What the error of an element's read leaves: the channel has stopped, aborted, and the error is counted and noted (R404, R423). -/
theorem Dev.dmaElement_stopped (d : Dev) (c a : Nat) :
    ((((d.accessBy 12).eccBad a false).dmaEcc c a).obj (0x2D10 + c) 0x16 = 0 ∧
      (((d.accessBy 12).eccBad a false).dmaEcc c a).bit (0x2D10 + c) 0x17 3 = true ∧
      (((d.accessBy 12).eccBad a false).dmaEcc c a).bit (0x2D10 + c) 0x17 4 = true ∧
      (((d.accessBy 12).eccBad a false).dmaEcc c a).obj (0x2D10 + c) 0x1D = a ∧
      (((d.accessBy 12).eccBad a false).dmaEcc c a).obj 0x2D00 0x0F = satInc32 (d.obj 0x2D00 0x0F)) ∧
    d.sameBut (((d.accessBy 12).eccBad a false).dmaEcc c a) (fun j w => ([(0x2D10 + c, 0x16), (0x2D10 + c, 0x17), (0x2D10 + c, 0x1D),
      (0x2D00, 0x0F), (0x2D00, 0x10), (0x2D00, 0x11)] : List (Nat × Nat)).contains (j, w)) := by
  obtain ⟨hcount, hsame⟩ := (d.accessBy 12).eccBad_counts a
  obtain ⟨⟨hidle, haborted, hshown, haddr⟩, hstopped⟩ := ((d.accessBy 12).eccBad a false).dmaEcc_stops c a
  refine ⟨⟨hidle, haborted, hshown, haddr, ?_⟩, ?_⟩
  · rw [hstopped _ _ (by decide) (by simp), hcount]
    rfl
  · have hwide : ∀ l : List (Nat × Nat), l ⊆ [(0x2D10 + c, 0x16), (0x2D10 + c, 0x17), (0x2D10 + c, 0x1D), (0x2D00, 0x0F), (0x2D00, 0x10), (0x2D00, 0x11)] →
        ∀ j w, l.contains (j, w) = true → ([(0x2D10 + c, 0x16), (0x2D10 + c, 0x17), (0x2D10 + c, 0x1D), (0x2D00, 0x0F), (0x2D00, 0x10),
          (0x2D00, 0x11)] : List (Nat × Nat)).contains (j, w) = true := fun l hl j w hp =>
      List.contains_iff_mem.mpr (hl (List.contains_iff_mem.mp hp))
    exact ((Dev.sameBut_of_regs rfl).trans (hsame.mono (hwide _ (by simp)))).trans (hstopped.mono (hwide _ (by simp)))

/-- What a copied element leaves of its channel, whatever its sides are. -/
theorem Dev.dmaMoved_channel {d : Dev} {c : Nat}
    (hring : d.obj (0x2D10 + c) 0x0F = 1 ∨ d.obj (0x2D10 + c) 0x10 = 1 → d.obj (0x2D10 + c) 0x11 < 8) {u : Dev}
    (hu : u = ((d.accessBy 12).dmaRings c).dmaCounted c (decide (d.obj (0x2D10 + c) 0x13 ≤ 255))) :
    u.obj (0x2D10 + c) 0x18 = satInc32 (d.obj (0x2D10 + c) 0x18) ∧
      (d.obj (0x2D10 + c) 0x13 ≤ 255 → d.obj (0x2D10 + c) 0x14 = 0 → u.obj (0x2D10 + c) 0x1A = d.obj (0x2D10 + c) 0x1A - 1) ∧
      (255 < d.obj (0x2D10 + c) 0x13 → u.obj (0x2D10 + c) 0x1A = d.obj (0x2D10 + c) 0x1A) ∧
      u.dma c = if (d.dma c).i0 + 1 < d.obj (0x2D10 + c) 0x06 then { d.dma c with i0 := (d.dma c).i0 + 1 }
        else if (d.dma c).i1 + 1 < d.obj (0x2D10 + c) 0x07 then { d.dma c with i0 := 0, i1 := (d.dma c).i1 + 1 }
        else if (d.dma c).i2 + 1 < d.obj (0x2D10 + c) 0x08 then { d.dma c with i0 := 0, i1 := 0, i2 := (d.dma c).i2 + 1 }
        else { d.dma c with all := true } := by
  have hchannel : ∀ w < 256, ((d.accessBy 12).dmaRings c).obj (0x2D10 + c) w = d.obj (0x2D10 + c) w := fun w hw =>
    (d.accessBy 12).obj_dmaRings_channel c hw hring
  obtain ⟨hcount, hspent, hfree, -⟩ := ((d.accessBy 12).dmaRings c).obj_dmaCounted c (decide (d.obj (0x2D10 + c) 0x13 ≤ 255))
  have hrec : ((d.accessBy 12).dmaRings c).dma c = d.dma c := Dev.dmaRings_dma ..
  rw [hu, Dev.dmaCounted_dma, Dev.dmaNext_loops, hrec]
  simp only [hchannel _ (show (0x06 : Nat) < 256 by decide), hchannel _ (show (0x07 : Nat) < 256 by decide),
    hchannel _ (show (0x08 : Nat) < 256 by decide), hchannel _ (show (0x14 : Nat) < 256 by decide),
    hchannel _ (show (0x18 : Nat) < 256 by decide), hchannel _ (show (0x1A : Nat) < 256 by decide)] at hcount hspent hfree ⊢
  exact ⟨hcount, fun hpaced => hspent (decide_eq_true hpaced), fun hpaced => hfree (decide_eq_false (Nat.not_le.mpr hpaced)), trivial⟩

/-- The objects outside the channel after a copied element: those of its rings have moved on. -/
theorem Dev.obj_dmaMoved {d : Dev} {c : Nat} (paced : Bool) {j u : Nat} (hu : u < 256) (hj : j ≠ 0x2D10 + c) :
    (((d.accessBy 12).dmaRings c).dmaCounted c paced).obj j u = if d.obj (0x2D10 + c) 0x10 = 1 ∧ j = d.dmaEngine c ∧ u = 0x15 then
      (d.obj (d.dmaEngine c) 0x15 + d.dmaSize c) % d.obj (d.dmaEngine c) 0x12
    else if d.obj (0x2D10 + c) 0x0F = 1 ∧ j = d.dmaEngine c ∧ u = 0x18 then
      (d.obj (d.dmaEngine c) 0x18 + d.dmaSize c) % d.obj (d.dmaEngine c) 0x14
    else d.obj j u := by
  obtain ⟨-, -, -, hsame⟩ := ((d.accessBy 12).dmaRings c).obj_dmaCounted c paced
  rw [hsame j u hu (by simp [hj])]
  exact (d.accessBy 12).obj_dmaRings c hu

/-- A copied element changes the channel's count and credit, and the indices of its rings. -/
theorem Dev.dmaMoved_sameBut {d : Dev} {c : Nat} (paced : Bool) {l : List (Nat × Nat)} (hcount : (0x2D10 + c, 0x18) ∈ l)
    (hcredit : (0x2D10 + c, 0x1A) ∈ l) (hsrc : d.obj (0x2D10 + c) 0x0F = 1 → (d.dmaEngine c, 0x18) ∈ l)
    (hdst : d.obj (0x2D10 + c) 0x10 = 1 → (d.dmaEngine c, 0x15) ∈ l) :
    d.sameBut (((d.accessBy 12).dmaRings c).dmaCounted c paced) (fun i w => l.contains (i, w)) := by
  obtain ⟨-, -, -, hsame⟩ := ((d.accessBy 12).dmaRings c).obj_dmaCounted c paced
  have hrings : (d.accessBy 12).sameBut ((d.accessBy 12).dmaRings c) (fun i w => l.contains (i, w)) := fun j u hu hout => by
    have hne : ∀ x ∈ l, (j, u) ≠ x := fun x hx he => Bool.false_ne_true (Eq.trans (Eq.symm hout) (List.contains_iff_mem.mpr (he ▸ hx)))
    rw [(d.accessBy 12).obj_dmaRings c hu, if_neg, if_neg]
    · exact fun h => hne _ (hsrc h.1) (Prod.ext h.2.1 h.2.2)
    · exact fun h => hne _ (hdst h.1) (Prod.ext h.2.1 h.2.2)
  refine (Dev.sameBut_of_regs rfl).trans (hrings.trans (hsame.mono (fun j u hp => List.contains_iff_mem.mpr ?_)))
  have hmem := List.contains_iff_mem.mp hp
  simp only [List.mem_cons, List.not_mem_nil, or_false] at hmem
  rcases hmem with h | h <;> rw [h] <;> assumption

@[simp] theorem Dev.dmaBytes_length (d : Dev) (m : Store Byte) (c : Nat) : (d.dmaBytes m c).length = d.dmaSize c := by
  unfold Dev.dmaBytes
  split <;> simp

/-- A channel that does not wait on its destination ring has room for its element there (R416). -/
theorem Dev.dmaSize_le_ring {d : Dev} {c : Nat} (h : d.DmaGoes c) (hdst : d.obj (0x2D10 + c) 0x10 = 1) :
    d.dmaSize c ≤ d.obj (d.dmaEngine c) 0x12 ∧ 0 < d.obj (d.dmaEngine c) 0x12 := by
  have hpos : 0 < d.dmaSize c := Nat.two_pow_pos _
  have hroom := h.ring
  unfold Dev.dmaRingWait at hroom
  simp only [h.running, h.left, hdst, decide_true, Bool.not_false, Bool.true_and, Bool.or_eq_false_iff,
    beq_self_eq_true, decide_eq_false_iff_not, Nat.not_lt] at hroom
  have hfits := hroom.2
  unfold Dev.dmaEngine
  omega

/-- Symbols written one by one along a list are those of a fold over it. -/
theorem apply_zipped (m : Store Byte) (at_ : Nat → Nat) (bs : List Byte) :
    LoftEff.apply { writes := ((List.range bs.length).zip bs).map (fun k => (at_ k.1, [k.2])) } m =
      (List.range bs.length).foldl (fun m j => loftPut m (at_ j) [bs.getD j 0]) m := by
  have hzip : (List.range bs.length).zip bs = (List.range bs.length).map (fun j => (j, bs.getD j 0)) := by
    refine List.ext_getElem (by simp) (fun k h1 h2 => ?_)
    simp at h1
    simp [h1]
  unfold LoftEff.apply
  rw [hzip]
  simp [List.foldl_map]

/-- Settles O48: an element moves its rings on and is counted; its symbols go to one run, or one by one round the ring; an error stops it. -/
theorem dmaCopies : Obligations.DmaCopies := by
  intro s t c d i e k n src dst moved bytes at_ own from_ hruns hrunning hleft hpause hcredit hwait hring
  have hgoes : d.DmaGoes c := ⟨hruns, hrunning, hleft, hpause, hcredit, hwait⟩
  have hchannel := Dev.dmaMoved_channel (d := d) (c := c) hring rfl
  have hexec : ∀ ecc, exec (.dmaElement t c ecc) s =
      .next { s with dev := (d.dmaElement s.loft c ecc).1, loft := (d.dmaElement s.loft c ecc).2.apply s.loft } := fun _ => rfl
  have hapart : ∀ p, p → (p → d.obj i 0x11 < 8) → e ≠ i := fun p hp h => (Dev.dmaEngine_ne (h hp) c).symm
  have hbytes : d.dmaBytes s.loft c = bytes := by
    by_cases hsrc : d.obj i 0x0F = 1
    · exact (if_pos hsrc).trans (if_pos hsrc).symm
    · have hfrom : d.dmaFrom c = src := if_neg hsrc
      exact (if_neg hsrc).trans ((congrArg (loftBytes s.loft · n) hfrom).trans (if_neg hsrc).symm)
  refine ⟨fun hdst hgood => ?_, fun hdst hin hgood => ?_, fun ecc hbad => ?_⟩
  · have hnext := hexec false
    rw [Dev.dmaElement_copies s.loft hgoes hgood] at hnext
    have hwrites : d.dmaWrites s.loft c = [(dst, bytes)] := by
      rw [← hbytes]
      exact if_neg hdst
    rw [hwrites] at hnext
    refine ⟨_, hnext, fun q => loftByte_put bytes s.loft dst q, ?_, hchannel, fun hsrc => ?_⟩
    · refine Dev.dmaMoved_sameBut _ ?_ ?_ (fun hsrc => ?_) (fun h => absurd h hdst)
      · show (i, 0x18) ∈ own
        simp only [own]
        split <;> simp
      · show (i, 0x1A) ∈ own
        simp only [own]
        split <;> simp
      · show (e, 0x18) ∈ own
        simp only [own, if_pos (show d.obj i 0x0F = 1 from hsrc)]
        simp
    · refine (Dev.obj_dmaMoved _ (by decide) (hapart _ (Or.inl hsrc) hring)).trans ?_
      rw [if_neg (fun h => hdst h.1), if_pos ⟨hsrc, rfl, rfl⟩]
      rfl
  · have hnext := hexec false
    rw [Dev.dmaElement_copies s.loft hgoes hgood] at hnext
    obtain ⟨hfits, hpos⟩ := Dev.dmaSize_le_ring hgoes hdst
    have hlen : (d.dmaBytes s.loft c).length = n := Dev.dmaBytes_length ..
    have hwrites : LoftEff.apply { writes := d.dmaWrites s.loft c } s.loft =
        (List.range n).foldl (fun m j => loftPut m (at_ j) [bytes.getD j 0]) s.loft := by
      have hring : d.dmaWrites s.loft c = ((List.range (d.dmaBytes s.loft c).length).zip (d.dmaBytes s.loft c)).map (fun k => (at_ k.1, [k.2])) := by
        rw [hlen]
        exact if_pos hdst
      rw [hring, apply_zipped, hlen, hbytes]
    obtain ⟨hat, hout⟩ := loftByte_scattered (at_ := at_) (f := fun j => bytes.getD j 0) (List.nodup_range (n := n))
      (fun j hj k hk h => ring_distinct (List.mem_range.mp hj) (List.mem_range.mp hk) hfits (Nat.add_left_cancel h))
      (fun j _ => lt_of_lt_of_le (Nat.add_lt_add_left (Nat.mod_lt _ hpos) _) hin) s.loft
    refine ⟨_, hnext, fun j hj => ?_, fun q hq => ?_, ?_, hchannel, ?_⟩
    · exact (congrArg (loftByte · (at_ j)) hwrites).trans (hat j (List.mem_range.mpr hj))
    · exact (congrArg (loftByte · q) hwrites).trans (hout q (fun j hj => hq j (List.mem_range.mp hj)))
    · refine Dev.dmaMoved_sameBut _ ?_ ?_ (fun hsrc => ?_) (fun _ => List.mem_cons_self ..)
      · show (i, 0x18) ∈ (e, 0x15) :: own
        simp only [own]
        split <;> simp
      · show (i, 0x1A) ∈ (e, 0x15) :: own
        simp only [own]
        split <;> simp
      · show (e, 0x18) ∈ (e, 0x15) :: own
        simp only [own, if_pos (show d.obj i 0x0F = 1 from hsrc)]
        simp
    · refine (Dev.obj_dmaMoved _ (by decide) (hapart _ (Or.inr hdst) hring)).trans ?_
      rw [if_pos ⟨hdst, rfl, rfl⟩]
      rfl
  · have hnext := hexec ecc
    obtain ⟨hpost, hsame⟩ := d.dmaElement_stopped c (d.dmaFrom c)
    rw [Dev.dmaElement_stops s.loft hgoes hbad] at hnext
    exact State.does_of_dev hnext hpost hsame

end Sys2Proof.Machine
end

section
/-! SUPPORT. The writes of the non-volatile store (R475, R476, R481, R482, R500): a write that begins, a write that ends, and a budget that
regains a token. -/

namespace Sys2Proof.Machine

/-! ### An accepted write has met no refusal -/

/-- A WRITE that is accepted has met none of the conditions of R15. -/
theorem sopWrite_unrefused {d : Dev} {f : Frame} (h : (d.sopWrite f).st = .ok) :
    ∃ b puts, blockOf f.index = some b ∧ splitPuts f.index (subsOf f) f.data = some puts ∧
      d.wRefusal savedBankValid (hostWr f.req.port f.index b puts) = none := by
  obtain ⟨b, puts, hb, hputs, -⟩ := sopWrite_ok h
  refine ⟨b, puts, hb, hputs, ?_⟩
  unfold Dev.sopWrite at h
  dsimp only at h
  simp only [hb] at h
  split at h
  · split at h <;> simp [refuse] at h
  · split at h
    · exact absurd h shapeRefusal_ne_ok
    · next puts' hs =>
      have hputs' : puts' = puts := by
        split at hs
        · cases hs
        · exact Option.some.inj (hs.symm.trans hputs)
      subst hputs'
      split at h
      · next st hw => exact absurd h (wRefusal_ne_ok hw)
      · next hw => exact hw

/-- The WRITE of one value meets none of them either. -/
theorem State.unrefused_of_takes {s : State} {t : Nat} {r : Req} {i u n v : Nat} {b : ObjBlock} (h : s.takes t r i u n v = true)
    (hs : b.Command i u n) :
    ((s.devAt t).served (putFrame r i u 1 (leBytes n v))).wRefusal savedBankValid (oneWr r i u n v b) = none := by
  obtain ⟨hb, row, hr, hn, hty, -⟩ := hs
  have hok := State.answer_ok h
  unfold State.answer at hok
  rw [frameUnpad_putFrame] at hok
  obtain ⟨b', puts, hb', hputs, hnone⟩ := sopWrite_unrefused (d := (s.devAt t).served (putFrame r i u 1 (leBytes n v))) hok
  obtain rfl : b' = b := Option.some.inj (hb'.symm.trans hb)
  have hone := splitPuts_one (v := v) hr hn hty (leBytes_length n v)
  rw [ofLe_leBytes] at hone
  obtain rfl : puts = [⟨u, v % 256 ^ n, leBytes n v⟩] := by
    have hsub : subsOf (putFrame r i u 1 (leBytes n v)) = [u] := by simp [subsOf, putFrame]
    rw [hsub] at hputs
    exact Option.some.inj (hputs.symm.trans hone)
  exact hnone

/-- It finds its block not busy. -/
theorem State.notBusy_of_takes {s : State} {t : Nat} {r : Req} {i u n v : Nat} {b : ObjBlock} (h : s.takes t r i u n v = true)
    (hs : b.Command i u n) : ((s.devAt t).served (putFrame r i u 1 (leBytes n v))).wBusy (oneWr r i u n v b) = false :=
  firstStatus_none.mp (State.unrefused_of_takes h hs) (.busy, _) (List.mem_cons_self ..)

/-- A command that only the device carries out. -/
theorem State.onDev_eq {s : State} {t : Nat} {c : Instr} {f : Dev → Dev} {e : Dev} (hexec : exec c s = onDev s t f) (he : f (s.devAt t) = e) :
    exec c s = .next { s with dev := e } := by
  rw [hexec, ← he]
  rfl

/-! ### Commands of a block whose objects react to values only -/

/-- A write of one command, where the block's reaction to the write itself is none. -/
theorem State.does_of_bareCommand {s : State} {t : Nat} {r : Req} {i u n v : Nat} {b : ObjBlock} {c : Instr} {changed : List (Nat × Nat)}
    {post : Dev → Prop} (h : s.takes t r i u n v = true) (hexec : exec c s = onBoth s t (fun m d => d.putOne m r i u n v))
    (hs : b.Command i u n) (hloft : u ≠ 0x30)
    (haccept : ∀ g : Dev, (g.sendPart (oneWr r i u n v b)).accept (oneWr r i u n v b) = g.writtenBy r.port i)
    (hact : ∀ e : Dev, (s.devAt t).sameBut e portObjs → e.inner = (s.devAt t).inner →
      post (e.command (oneWr r i u n v b) u (v % 256 ^ n)) ∧
        e.sameBut (e.command (oneWr r i u n v b) u (v % 256 ^ n)) (fun j w => changed.contains (j, w))) :
    s.does t c changed post := by
  obtain ⟨hb, row, hr, hn, hty, hc⟩ := id hs
  refine State.does_of_write h hexec hb hr hn hty hloft (fun g e hg hginner heregs heinner => ?_)
  rw [haccept g] at heregs heinner
  obtain ⟨hpost, hsame⟩ := hact e (hg.regs heregs) (heinner.trans ((Dev.writtenBy_inner ..).trans hginner))
  rw [Dev.commands_one e hr hc]
  exact ⟨hpost, (Dev.sameBut_of_regs heregs).trans (hsame.mono (fun j w hp => by rw [hp, Bool.or_true]))⟩

/-! ### A write begins -/

/-- A write of the store begins between two devices: it is the last of the queue, and its bank has lost its commit word. -/
def Dev.begins (d e : Dev) (pair : Nat) (commit : Bool) (body : List Byte) : Prop :=
  ∃ j, e.nv.jobs = d.nv.jobs ++ [j] ∧ j.pair = pair ∧ j.commit = commit ∧ j.imported = false ∧ j.body = body ∧
    (e.nvBank j.bank).valid pair = false

/-- A bank without its commit word is not valid. -/
theorem NvBank.not_valid {b : NvBank} (h : b.commit = 0) (pair : Nat) : b.valid pair = false := by
  simp [NvBank.valid, h]

theorem Dev.nvBegin_begins {d e : Dev} (h : e.nv.jobs = d.nv.jobs) (pair bank : Nat) (body : List Byte) (commit : Bool) :
    d.begins (e.nvBegin pair bank body commit false) pair commit body := by
  refine ⟨{ pair := pair, bank := bank, body := body, seq := e.nextSeq pair, commit := commit, imported := false },
    congrArg (· ++ [_]) h, rfl, rfl, rfl, rfl, NvBank.not_valid ?_ pair⟩
  have hbank : (e.nvBegin pair bank body commit false).nvBank bank = { (e.nvBank bank) with commit := 0 } := Store.get_put_self ..
  rw [hbank]

theorem Dev.begins_congr {d d' e e' : Dev} {pair : Nat} {commit : Bool} {body : List Byte} (h : d.begins e pair commit body)
    (hd : d'.nv = d.nv) (he : e'.nv = e.nv) : d'.begins e' pair commit body := by
  unfold Dev.begins Dev.nvBank at *
  rwa [hd, he]

theorem Nv.drawP_token {n : Nv} (h : n.tokP ≠ 0) (now : Nat) : (n.drawP now).tokP + 1 = n.tokP := by
  unfold Nv.drawP
  split <;> dsimp only <;> omega

theorem Nv.drawL_token {n : Nv} (h : n.tokL ≠ 0) (now : Nat) : (n.drawL now).tokL + 1 = n.tokL := by
  unfold Nv.drawL
  split <;> dsimp only <;> omega

@[simp] theorem Nv.drawP_jobs (n : Nv) (now : Nat) : (n.drawP now).jobs = n.jobs := by
  unfold Nv.drawP
  split <;> rfl

@[simp] theorem Nv.drawL_jobs (n : Nv) (now : Nat) : (n.drawL now).jobs = n.jobs := by
  unfold Nv.drawL
  split <;> rfl

/-- A persistent commit (R481). -/
theorem Dev.commitP_begins {d : Dev} (h : d.nv.tokP ≠ 0) (empty : Bool) :
    d.begins (d.commitP empty) 4 true (if empty then [] else d.nvBody .p (fun _ => true)) ∧ (d.commitP empty).obj 0x2F20 0x02 = 1 ∧
      (d.commitP empty).nv.tokP + 1 = d.nv.tokP ∧ d.sameBut (d.commitP empty) (fun j w => [(0x2F20, 0x02)].contains (j, w)) := by
  refine ⟨?_, Dev.obj_setObj_self .., Nv.drawP_token h d.now, ?_⟩
  · exact (Dev.nvBegin_begins (Nv.drawP_jobs d.nv d.now) 4 _ _ true).imp (fun _ hj => hj)
  · exact (Dev.sameBut_of_regs (d := d) rfl).setObj _ (by decide) (by decide)

@[simp] theorem Dev.teethSaved_regs (d : Dev) : d.teethSaved.regs = d.regs := by
  unfold Dev.teethSaved
  refine Dev.foldl_keeps Dev.regs (fun e x => ?_) _ _
  rfl

@[simp] theorem Dev.trimsSaved_regs (d : Dev) : d.trimsSaved.regs = d.regs := by
  unfold Dev.trimsSaved
  refine Dev.foldl_keeps Dev.regs (fun e x => ?_) _ _
  rfl

@[simp] theorem Dev.teethSaved_nv (d : Dev) : d.teethSaved.nv = d.nv := by
  unfold Dev.teethSaved
  refine Dev.foldl_keeps Dev.nv (fun e x => ?_) _ _
  rfl

@[simp] theorem Dev.trimsSaved_nv (d : Dev) : d.trimsSaved.nv = d.nv := by
  unfold Dev.trimsSaved
  refine Dev.foldl_keeps Dev.nv (fun e x => ?_) _ _
  rfl

/-- A learned write (R482): the triggers pending are served. -/
theorem Dev.learnedBegin_begins {d : Dev} (h : d.nv.tokL ≠ 0) (commit : Bool) :
    (∃ body, d.begins (d.learnedBegin commit false) 6 commit body) ∧ (d.learnedBegin commit false).bit 0x2F20 0x08 0 = false ∧
      (d.learnedBegin commit false).nv.tokL + 1 = d.nv.tokL ∧
      d.sameBut (d.learnedBegin commit false) (fun j w => [(0x2F20, 0x08)].contains (j, w)) := by
  have hnv : (d.learnedBegin commit false).nv = (({ d with nv := d.nv.drawL d.now } : Dev).nvBegin 6
      (({ d with nv := d.nv.drawL d.now } : Dev).writeBank 6) (d.nvBody .l (fun idx => false || decide (idx < 0x2220) ||
        decide (0x2221 < idx) || d.bit (idx - 0x20) 0x21 4)) commit false).nv := by simp [Dev.learnedBegin]
  refine ⟨⟨_, Dev.begins_congr (Dev.nvBegin_begins (Nv.drawL_jobs d.nv d.now) 6 _ _ commit) rfl hnv⟩, ?_, ?_, ?_⟩
  · exact (Dev.bit_congr ((Dev.trimsSaved_regs _).trans (Dev.teethSaved_regs _)) ..).trans (Dev.bit_setBit_self ..)
  · rw [hnv]
    exact Nv.drawL_token h d.now
  · exact ((Dev.sameBut_of_regs (d := d) rfl).setObj _ (by decide) (by decide)).regs
      ((Dev.trimsSaved_regs _).trans (Dev.teethSaved_regs _))

/-! ### A write ends -/

/-- The banks of the store and the writes that wait for them. -/
def Dev.store (d : Dev) : Store NvBank × List NvJob := (d.nv.banks, d.nv.jobs)

theorem Dev.nvBank_of_store {d e : Dev} (h : e.store = d.store) (b : Nat) : e.nvBank b = d.nvBank b := by
  have hbanks : e.nv.banks = d.nv.banks := congrArg Prod.fst h
  unfold Dev.nvBank
  rw [hbanks]

@[simp] theorem Dev.setObj_store (d : Dev) (i u v : Nat) : (d.setObj i u v).store = d.store := (rfl)
@[simp] theorem Dev.setBit_store (d : Dev) (i u b : Nat) (on : Bool) : (d.setBit i u b on).store = d.store := (rfl)

@[simp] theorem Dev.raiseIf_store (d : Dev) (c : Bool) (x : Nat) : (d.raiseIf c x).store = d.store := by
  unfold Dev.raiseIf Dev.raise
  dsimp only
  split_ifs <;> rfl

@[simp] theorem Dev.logEvent_store (d : Dev) (cls cause src data : Nat) : (d.logEvent cls cause src data).store = d.store := by
  unfold Dev.logEvent
  dsimp only
  split
  · exact (Dev.raiseIf_store ..).trans rfl
  · rfl

@[simp] theorem Dev.jobOutcome_store (d : Dev) (j : NvJob) (ok : Bool) : (d.jobOutcome j ok).store = d.store := by
  have hcommit : (if j.commit then d.setObj 0x2F20 0x02 (if ok then 2 else 3) else d).store = d.store := by split <;> rfl
  unfold Dev.jobOutcome
  dsimp only
  generalize (if j.commit then d.setObj 0x2F20 0x02 (if ok then 2 else 3) else d) = e at hcommit ⊢
  cases ok with
  | true => split <;> simp [Dev.importSaved, hcommit]
  | false =>
    have hinc : (e.inc 0x2F20 0x0A).store = d.store := hcommit
    cases hp : decide (j.pair = 6) <;> cases j.imported <;> simp [Dev.importSaved, Dev.learnPend, hinc]

/-- Between two devices only what the store's object shows of its banks has changed (R488). -/
def Dev.reshown (d e : Dev) : Prop :=
  e.store = d.store ∧ d.sameBut e (fun i w => [(0x2F20, 0x03), (0x2F20, 0x04), (0x2F20, 0x05), (0x2F20, 0x06), (0x2F20, 0x08)].contains (i, w))

theorem Dev.reshown.trans {d e f : Dev} (h : d.reshown e) (h' : e.reshown f) : d.reshown f := ⟨h'.1.trans h.1, h.2.trans h'.2⟩

theorem Dev.reshown_refl (d : Dev) : d.reshown d := ⟨rfl, Dev.sameBut_refl _ _⟩

theorem Dev.reshown.of_eq {d e f : Dev} (h : d.reshown e) (hregs : f.regs = e.regs) (hnv : f.nv = e.nv) : d.reshown f :=
  ⟨(congrArg (fun n => (n.banks, n.jobs)) hnv).trans h.1, h.2.regs hregs⟩

theorem Dev.reshown_setObj (d : Dev) {u : Nat} (h : u ∈ [0x03, 0x04, 0x05, 0x06, 0x08]) (v : Nat) : d.reshown (d.setObj 0x2F20 u v) := by
  have hsmall : u < 256 := by simp at h; omega
  exact ⟨rfl, (Dev.sameBut_refl _ _).setObj _ hsmall (by simp at h ⊢; exact h)⟩

theorem Dev.reshown_showBanks (d : Dev) : d.reshown d.showBanks := by
  unfold Dev.showBanks
  dsimp only
  have hpair : ∀ (e : Dev) (pair u : Nat), u ∈ [0x03, 0x05] → e.reshown (match e.selected pair with
      | some b => (e.setObj 0x2F20 u (b - pair)).setObj 0x2F20 (u + 1) (e.nvBank b).seq
      | none => (e.setObj 0x2F20 u 0xFF).setObj 0x2F20 (u + 1) 0) := fun e pair u hu => by
    have hfirst : u ∈ [0x03, 0x04, 0x05, 0x06, 0x08] := by simp at hu ⊢; omega
    have hsecond : u + 1 ∈ [0x03, 0x04, 0x05, 0x06, 0x08] := by simp at hu ⊢; omega
    split <;> exact (Dev.reshown_setObj e hfirst _).trans (Dev.reshown_setObj _ hsecond _)
  exact (hpair d 4 0x03 (by decide)).trans (hpair _ 6 0x05 (by decide))

theorem Dev.reshown_afterWrite (d : Dev) (pair : Nat) : d.reshown (d.afterWrite pair) := by
  have hbit : ∀ (e : Dev) b on, e.reshown (e.setBit 0x2F20 0x08 b on) := fun e _ _ => Dev.reshown_setObj e (by decide) _
  unfold Dev.afterWrite
  dsimp only
  have hshow : d.reshown (if pair = 4 ∨ pair = 6 then d.showBanks else d) := by
    split
    · exact d.reshown_showBanks
    · exact d.reshown_refl
  generalize (if pair = 4 ∨ pair = 6 then d.showBanks else d) = e at hshow ⊢
  have hnone : d.reshown (if pair = 4 then e.setBit 0x2F20 0x08 1 (e.selected 4).isNone
      else if pair = 6 then e.setBit 0x2F20 0x08 2 (e.selected 6).isNone else e) := by
    split_ifs
    · exact hshow.trans (hbit ..)
    · exact hshow.trans (hbit ..)
    · exact hshow
  split
  · exact ((hnone.trans (hbit ..)).trans (hbit ..)).of_eq rfl rfl
  · exact hnone

/-- A bank that a write has left behind reads back as the write's, and is valid where its body fits. -/
theorem nvMake_valid {pair : Nat} {body : List Byte} (h : body.length + 32 ≤ nvSize pair) (seq : Nat) :
    (nvMake pair seq body true).valid pair = true := by
  simp [NvBank.valid, nvMake, NvBank.head, h]

/-- What a write shows when it has ended: the state of a commit, and of an import (R481, R500). -/
theorem Dev.jobOutcome_commit (d : Dev) {j : NvJob} (hcommit : j.commit = true) (himport : j.imported = false) :
    (d.jobOutcome j true).obj 0x2F20 0x02 = 2 := by
  have hset : (if j.commit = true then d.setObj 0x2F20 0x02 (if true = true then 2 else 3) else d).obj 0x2F20 0x02 = 2 := by
    rw [if_pos hcommit]
    exact Dev.obj_setObj_self ..
  unfold Dev.jobOutcome
  simpa [himport] using hset

theorem Dev.importSaved_state (d : Dev) (ok : Bool) :
    (d.importSaved ok).obj 0x5000 0x03 = if !ok then 8 else if d.obj 0x5000 0x08 ≠ 0 then 7 else 2 := Dev.obj_setObj_self ..

theorem Dev.jobOutcome_import (d : Dev) {j : NvJob} (hpair : j.pair = 6) (himport : j.imported = true) (ok : Bool) :
    (d.jobOutcome j ok).obj 0x5000 0x03 = if !ok then 8 else if d.obj 0x5000 0x08 ≠ 0 then 7 else 2 := by
  have hset : (if j.commit = true then d.setObj 0x2F20 0x02 (if ok = true then 2 else 3) else d).obj 0x5000 0x08 = d.obj 0x5000 0x08 := by
    split
    · exact Dev.obj_setObj_idx _ _ (by decide) (by decide) (by decide)
    · rfl
  have hinc : ∀ e : Dev, (e.inc 0x2F20 0x0A).obj 0x5000 0x08 = e.obj 0x5000 0x08 := fun e => Dev.obj_setObj_idx _ _ (by decide) (by decide) (by decide)
  unfold Dev.jobOutcome
  dsimp only
  generalize (if j.commit = true then d.setObj 0x2F20 0x02 (if ok = true then 2 else 3) else d) = e at hset ⊢
  simp only [hpair, himport]
  cases ok with
  | true => simp [Dev.importSaved_state, hset]
  | false => simp [Dev.importSaved_state]

/-- A write leaves the queue, and its bank takes what it has brought. -/
def Dev.written (d : Dev) (j : NvJob) (readOk : Bool) : Dev :=
  ({ d with nv := { d.nv with jobs := d.nv.jobs.erase j } } : Dev).setNvBank j.bank (nvMake j.pair j.seq j.body readOk)

theorem Dev.written_bank (d : Dev) (j : NvJob) (readOk : Bool) :
    (d.written j readOk).nvBank j.bank = nvMake j.pair j.seq j.body readOk := by
  unfold Dev.written Dev.nvBank Dev.setNvBank
  rw [Store.get_put_self]

theorem Dev.written_jobs {d : Dev} {j : NvJob} (h : d.nv.jobs = [j]) (readOk : Bool) : (d.written j readOk).nv.jobs = [] := by
  have herase : d.nv.jobs.erase j = [] := by simp [h]
  exact herase

/-- The only write of the queue ends on a running device. -/
theorem Dev.nvWriteDone_alone {d : Dev} {j : NvJob} (hjobs : d.nv.jobs = [j]) (hrun : d.coresRun = true) (readOk : Bool) :
    d.nvWriteDone j.pair readOk j.imported = (((d.written j readOk).jobOutcome j readOk).afterWrite j.pair).copyFollows j := by
  unfold Dev.nvWriteDone
  rw [hjobs]
  simp [hrun, Dev.written, hjobs]

/-- The banks and the queue, as they stand between the bank's new content and the second copy of the factory area. -/
theorem Dev.outcome_store (d : Dev) (j : NvJob) (readOk : Bool) (pair : Nat) :
    ((d.jobOutcome j readOk).afterWrite pair).store = d.store := (Dev.reshown_afterWrite ..).1.trans (Dev.jobOutcome_store ..)

@[simp] theorem Dev.copyFollows_regs (d : Dev) (j : NvJob) : (d.copyFollows j).regs = d.regs := by
  unfold Dev.copyFollows
  split <;> rfl

@[simp] theorem Dev.copyFollows_nvBank (d : Dev) (j : NvJob) (b : Nat) : (d.copyFollows j).nvBank b = d.nvBank b := by
  unfold Dev.copyFollows
  split <;> rfl

theorem Dev.not_mem_copyFollows {d : Dev} (h : d.nv.jobs = []) (j : NvJob) : j ∉ (d.copyFollows j).nv.jobs := by
  unfold Dev.copyFollows
  split
  · next hcopy =>
    obtain ⟨-, hbank, -⟩ := hcopy
    intro hmem
    have hsame : j = { j with bank := 1 } := by simpa [h] using hmem
    have hone : j.bank = 1 := congrArg NvJob.bank hsame
    omega
  · simp [h]

/-- A budget whose time has run regains a token (R482). -/
theorem Dev.tokenRefill_persistent {d : Dev} (hless : d.nv.tokP < 24) (hrun : 900 * tqSec ≤ d.nv.accP + (d.now - d.nv.refP)) :
    (d.tokenRefill false).nv.tokP = d.nv.tokP + 1 ∧ (d.tokenRefill false).nv.tokL = d.nv.tokL ∧
      (d.tokenRefill false).regs = d.regs := by
  simp [Dev.tokenRefill, hless, hrun]

theorem Dev.tokenRefill_learned {d : Dev} (hless : d.nv.tokL < 4) (hrun : 1200 * tqSec ≤ d.nv.accL + (d.now - d.nv.refL)) :
    (d.tokenRefill true).nv.tokL = d.nv.tokL + 1 ∧ (d.tokenRefill true).nv.tokP = d.nv.tokP ∧
      (d.tokenRefill true).regs = d.regs := by
  simp [Dev.tokenRefill, hless, hrun]

/-- A write that reads back right leaves its bank valid, with its body and its sequence, and a commit has succeeded (R475, R481). -/
theorem Dev.nvWriteDone_right {d : Dev} {j : NvJob} (hjobs : d.nv.jobs = [j]) (hrun : d.coresRun = true) (himport : j.imported = false)
    (hfit : j.body.length + 32 ≤ nvSize j.pair) :
    let e := d.nvWriteDone j.pair true j.imported
    (e.nvBank j.bank).valid j.pair = true ∧ (e.nvBank j.bank).body = j.body ∧ (e.nvBank j.bank).seq = j.seq % 2 ^ 32 ∧ j ∉ e.nv.jobs ∧
      (j.commit = true → e.obj 0x2F20 0x02 = 2) := by
  dsimp only
  rw [Dev.nvWriteDone_alone hjobs hrun]
  have hstore := Dev.outcome_store (d.written j true) j true j.pair
  have hbank : (((d.written j true).jobOutcome j true).afterWrite j.pair).nvBank j.bank = nvMake j.pair j.seq j.body true :=
    (Dev.nvBank_of_store hstore _).trans (Dev.written_bank ..)
  have hempty : (((d.written j true).jobOutcome j true).afterWrite j.pair).nv.jobs = [] :=
    (congrArg Prod.snd hstore).trans (Dev.written_jobs hjobs true)
  rw [Dev.copyFollows_nvBank, hbank]
  refine ⟨nvMake_valid hfit j.seq, rfl, rfl, Dev.not_mem_copyFollows hempty j, fun hcommit => ?_⟩
  rw [Dev.obj_congr (Dev.copyFollows_regs ..), (Dev.reshown_afterWrite ..).2 _ _ (by decide) (by decide)]
  exact Dev.jobOutcome_commit _ hcommit himport

/-- The end of an import's write shows in import_state (R500). -/
theorem Dev.nvWriteDone_import {d : Dev} {j : NvJob} (hjobs : d.nv.jobs = [j]) (hrun : d.coresRun = true) (hpair : j.pair = 6)
    (himport : j.imported = true) (ok : Bool) :
    (d.nvWriteDone 6 ok true).nv.jobs = [] ∧
      (d.nvWriteDone 6 ok true).obj 0x5000 0x03 = if !ok then 8 else if d.obj 0x5000 0x08 ≠ 0 then 7 else 2 := by
  have hdone := Dev.nvWriteDone_alone hjobs hrun ok
  rw [hpair, himport] at hdone
  rw [hdone]
  have hlast : ∀ e : Dev, e.copyFollows j = e := fun e => if_neg (by simp [hpair])
  rw [hlast]
  refine ⟨(congrArg Prod.snd (Dev.outcome_store (d.written j ok) j ok 6)).trans (Dev.written_jobs hjobs ok), ?_⟩
  rw [(Dev.reshown_afterWrite ..).2 _ _ (by decide) (by decide), Dev.jobOutcome_import _ hpair himport]
  rfl

/-! ### The statement -/

/-- The store's object: its commits are commands, and the block does nothing more with them. -/
def nvBlock : ObjBlock := ⟨0x2F20, 1, .nv, nvRows⟩

theorem nvBlock_commit : nvBlock.Command 0x2F20 0x01 1 := ⟨by decide +kernel, by decide +kernel⟩

theorem Dev.accept_commit (g : Dev) (r : Req) (v : Nat) :
    (g.sendPart (oneWr r 0x2F20 0x01 1 v nvBlock)).accept (oneWr r 0x2F20 0x01 1 v nvBlock) = g.writtenBy r.port 0x2F20 := by
  have hsend : g.sendPart (oneWr r 0x2F20 0x01 1 v nvBlock) = g := rfl
  rw [hsend]
  unfold Dev.accept
  rw [Dev.stored_command g nvBlock_commit]
  rfl

/-- A commit that is accepted finds a token in its budget. -/
theorem State.token_of_commit {s : State} {t : Nat} {r : Req} {v : Nat} (h : s.takes t r 0x2F20 0x01 1 v = true) :
    if v % 256 = 3 then s.dev.nv.tokL ≠ 0 else s.dev.nv.tokP ≠ 0 := by
  have hbusy := State.notBusy_of_takes h nvBlock_commit
  have hnv : ((s.devAt t).served (putFrame r 0x2F20 0x01 1 (leBytes 1 v))).nv = s.dev.nv :=
    Dev.nv_of_inner (e := s.devAt t) (Dev.served_inner ..)
  have hcommit : ((s.devAt t).served (putFrame r 0x2F20 0x01 1 (leBytes 1 v))).commitBusy (v % 256) = false := by
    simpa [Dev.wBusy, oneWr, hostWr, nvBlock, Wr.val] using hbusy
  unfold Dev.commitBusy at hcommit
  rw [hnv] at hcommit
  split <;> simp_all

section
variable {s : State} {t : Nat} {r : Req} {v : Nat} {c : Instr} {post : Dev → Prop}

/-- A commit is carried out on a device with the store of the command's instant. -/
theorem State.commit_acts (h : s.takes t r 0x2F20 0x01 1 v = true) (hexec : exec c s = onBoth s t (fun m d => d.putOne m r 0x2F20 0x01 1 v))
    (hact : ∀ e : Dev, e.nv = s.dev.nv → post (e.command (oneWr r 0x2F20 0x01 1 v nvBlock) 0x01 (v % 256)) ∧
      e.sameBut (e.command (oneWr r 0x2F20 0x01 1 v nvBlock) 0x01 (v % 256))
        (fun j w => [(0x2F20, 0x02), (0x2F20, 0x08)].contains (j, w))) : ∃ u, exec c s = .next u ∧ post u.dev := by
  obtain ⟨u, hu, hpost, -⟩ := State.does_of_bareCommand h hexec nvBlock_commit (by decide) (Dev.accept_commit · r v)
    (fun e _ hinner => hact e (Dev.nv_of_inner (e := s.devAt t) hinner))
  exact ⟨u, hu, hpost⟩

end

/-- A persistent commit, with the objects of now or with none (R481). -/
theorem State.commitP_begins {s : State} {t : Nat} {r : Req} {v : Nat} {c : Instr} (empty : Bool)
    (h : s.takes t r 0x2F20 0x01 1 v = true) (hexec : exec c s = onBoth s t (fun m d => d.putOne m r 0x2F20 0x01 1 v))
    (hv : v % 256 ≠ 3) (hcmd : ∀ e : Dev, e.command (oneWr r 0x2F20 0x01 1 v nvBlock) 0x01 (v % 256) = e.commitP empty) :
    ∃ u, exec c s = .next u ∧ (∃ body, s.dev.begins u.dev 4 true body ∧ (empty = true → body = [])) ∧ u.dev.obj 0x2F20 0x02 = 1 ∧
      u.dev.nv.tokP + 1 = s.dev.nv.tokP := by
  have htoken := State.token_of_commit h
  rw [if_neg hv] at htoken
  refine State.commit_acts (post := fun u => (∃ body, s.dev.begins u 4 true body ∧ (empty = true → body = [])) ∧ u.obj 0x2F20 0x02 = 1 ∧
      u.nv.tokP + 1 = s.dev.nv.tokP) h hexec (fun e hnv => ?_)
  obtain ⟨hbegin, hstate, htok, hsame⟩ := Dev.commitP_begins (d := e) (by rwa [hnv]) empty
  rw [hcmd]
  refine ⟨⟨⟨_, Dev.begins_congr hbegin hnv.symm rfl, fun hempty => if_pos hempty⟩, hstate, hnv ▸ htok⟩, hsame.mono (fun j w hp => ?_)⟩
  simp only [List.contains_cons, List.contains_nil, Bool.or_false, Bool.or_eq_true] at hp ⊢
  exact .inl hp

/-- A commit shows that it is in progress, which leaves the write it has begun as it is. -/
theorem Dev.begins_shown {d e : Dev} {body : List Byte} (hbegin : d.begins e 6 true body) (hbit : e.bit 0x2F20 0x08 0 = false)
    (htok : e.nv.tokL + 1 = d.nv.tokL) (hsame : d.sameBut e (fun j w => [(0x2F20, 0x08)].contains (j, w))) :
    d.begins (e.setObj 0x2F20 0x02 1) 6 true body ∧ (e.setObj 0x2F20 0x02 1).obj 0x2F20 0x02 = 1 ∧
      (e.setObj 0x2F20 0x02 1).bit 0x2F20 0x08 0 = false ∧ (e.setObj 0x2F20 0x02 1).nv.tokL + 1 = d.nv.tokL ∧
      d.sameBut (e.setObj 0x2F20 0x02 1) (fun j w => [(0x2F20, 0x02), (0x2F20, 0x08)].contains (j, w)) := by
  refine ⟨Dev.begins_congr hbegin rfl rfl, Dev.obj_setObj_self .., ?_, htok, ?_⟩
  · exact (Dev.bit_setObj_sub _ _ _ (by decide) (by decide) (by decide)).trans hbit
  · refine (hsame.mono (fun j w hp => ?_)).setObj _ (by decide) (by decide)
    simp only [List.contains_cons, List.contains_nil, Bool.or_false, Bool.or_eq_true] at hp ⊢
    exact .inr hp

/-- A commit of the learned data (R481). -/
theorem Dev.commitL_begins {d : Dev} (h : d.nv.tokL ≠ 0) :
    ∃ body, d.begins d.commitL 6 true body ∧ d.commitL.obj 0x2F20 0x02 = 1 ∧ d.commitL.bit 0x2F20 0x08 0 = false ∧
      d.commitL.nv.tokL + 1 = d.nv.tokL ∧ d.sameBut d.commitL (fun j w => [(0x2F20, 0x02), (0x2F20, 0x08)].contains (j, w)) := by
  obtain ⟨⟨body, hbegin⟩, hbit, htok, hsame⟩ := Dev.learnedBegin_begins h true
  exact ⟨body, Dev.begins_shown hbegin hbit htok hsame⟩

theorem State.commitL_begins {s : State} {t : Nat} {r : Req} (h : s.takes t r 0x2F20 0x01 1 3 = true) :
    ∃ u, exec (.commitLearned t r) s = .next u ∧ (∃ body, s.dev.begins u.dev 6 true body) ∧ u.dev.obj 0x2F20 0x02 = 1 ∧
      u.dev.bit 0x2F20 0x08 0 = false ∧ u.dev.nv.tokL + 1 = s.dev.nv.tokL := by
  have htoken := State.token_of_commit h
  rw [if_pos (by decide)] at htoken
  refine State.commit_acts (post := fun u => (∃ body, s.dev.begins u 6 true body) ∧ u.obj 0x2F20 0x02 = 1 ∧ u.bit 0x2F20 0x08 0 = false ∧
      u.nv.tokL + 1 = s.dev.nv.tokL) h rfl (fun e hnv => ?_)
  have hcmd : e.command (oneWr r 0x2F20 0x01 1 3 nvBlock) 0x01 (3 % 256) = e.commitL := rfl
  obtain ⟨body, hbegin, hstate, hbit, htok, hsame⟩ := Dev.commitL_begins (d := e) (by rwa [hnv])
  rw [hcmd]
  exact ⟨⟨⟨body, Dev.begins_congr hbegin hnv.symm rfl⟩, hstate, hbit, hnv ▸ htok⟩, hsame⟩

/-- A learned write whose conditions hold (R482). -/
theorem Dev.learnedWrite_begins {d : Dev} (hready : d.ready = true) (hbit : d.bit 0x2F20 0x08 0 = true) (htok : 0 < d.nv.tokL)
    (hjobs : ∀ j ∈ d.nv.jobs, j.pair ≠ 6) (hsupply : d.bit 0x2F10 0x06 0 = false) :
    d.learnedWrite = d.learnedBegin false false := by
  have hnone : d.nv.jobs.any (fun j => j.pair = 6) = false := by simpa using hjobs
  refine if_pos ?_
  simp only [hready, hbit, hsupply, htok, hnone, Bool.not_false, Bool.and_true, decide_true]

/-- Settles O57: a write begins with its job at the end of the queue, and ends with its bank as `nvMake` lays it out. -/
theorem storeWritesRun : Obligations.StoreWritesRun := by
  unfold Obligations.StoreWritesRun
  refine ⟨⟨fun s t r h => ?_, fun s t r h => ?_, fun s t r h => ?_, fun s t hready hbit htok hjobs hsupply => ?_⟩,
    fun s t pair j hjobs hpair himport hrun hfit => ?_, fun s t j ok hjobs hpair himport hrun => ?_, fun s t => ⟨fun hless hrun => ?_,
      fun hless hrun => ?_⟩⟩
  · obtain ⟨u, hu, ⟨body, ⟨j, hj, hp, hc, hi, -, hbank⟩, -⟩, hstate, htok⟩ :=
      State.commitP_begins (c := .commitPersistent t r) false h rfl (by decide) (fun _ => rfl)
    exact ⟨u, hu, ⟨j, hj, hp, hc, hi, hbank⟩, hstate, htok⟩
  · obtain ⟨u, hu, ⟨body, ⟨j, hj, hp, hc, hi, hb, hbank⟩, hempty⟩, hstate, htok⟩ :=
      State.commitP_begins (c := .commitEmpty t r) true h rfl (by decide) (fun _ => rfl)
    exact ⟨u, hu, ⟨j, hj, hp, hc, hi, hbank⟩, ⟨j, by simp [hj], hp, hb.trans (hempty rfl)⟩, hstate, htok⟩
  · obtain ⟨u, hu, ⟨body, j, hj, hp, hc, hi, -, hbank⟩, hstate, hserved, htok⟩ := State.commitL_begins h
    exact ⟨u, hu, ⟨j, hj, hp, hc, hi, hbank⟩, hstate, hserved, htok⟩
  · obtain ⟨⟨body, j, hj, hp, hc, hi, -, hbank⟩, hserved, htok', -⟩ :=
      Dev.learnedBegin_begins (d := s.devAt t) (Nat.pos_iff_ne_zero.mp htok) false
    exact ⟨_, State.onDev_eq rfl (Dev.learnedWrite_begins (d := s.devAt t) hready hbit htok hjobs hsupply), ⟨j, hj, hp, hc, hi, hbank⟩, hserved, htok'⟩
  · have hright := Dev.nvWriteDone_right (d := s.devAt t) hjobs hrun himport hfit
    rw [hpair, himport] at hright
    rw [hpair]
    exact ⟨_, rfl, hright⟩
  · exact ⟨_, rfl, Dev.nvWriteDone_import (d := s.devAt t) hjobs hrun hpair himport ok⟩
  · exact ⟨_, rfl, Dev.tokenRefill_persistent (d := s.devAt t) hless hrun⟩
  · exact ⟨_, rfl, Dev.tokenRefill_learned (d := s.devAt t) hless hrun⟩

end Sys2Proof.Machine
end

section
/-! SUPPORT. The phases of a start (R461 to R463, R470, R478): what each phase's work leaves in the objects and records that the next one
reads. -/

namespace Sys2Proof.Machine

theorem Dev.toPhase_phase (d : Dev) (n : Nat) : (d.toPhase n).obj 0x2F00 0x01 = n := Dev.obj_setObj_self ..

theorem Dev.phase_of_toPhase {d e : Dev} {n : Nat} (h : e.regs = (d.toPhase n).regs) : e.obj 0x2F00 0x01 = n :=
  (Dev.obj_congr h ..).trans (d.toPhase_phase n)

theorem Dev.toPhase_ports (d : Dev) (n : Nat) : (d.toPhase n).ports = d.ports := (rfl)

theorem Dev.port_of_ports {d e : Dev} (h : e.ports = d.ports) (p : Nat) : e.port p = d.port p := by
  unfold Dev.port
  rw [h]

theorem Dev.toPhase_other (d : Dev) (n : Nat) {i u : Nat} (hu : u < 256) (hi : i ≠ 0x2F00) : (d.toPhase n).obj i u = d.obj i u :=
  Dev.obj_setObj_idx _ _ (by decide) hu hi

/-- A command that the device carries out, with its effect on the Loft. -/
theorem State.onBoth_eq {s : State} {t : Nat} {c : Instr} {f : Store Byte → Dev → Dev × LoftEff} {e : Dev} {eff : LoftEff}
    (hexec : exec c s = onBoth s t f) (he : f s.loft (s.devAt t) = (e, eff)) :
    exec c s = .next { s with dev := e, loft := eff.apply s.loft } := by
  rw [hexec]
  unfold onBoth
  rw [show f s.loft (s.dev.upTo t) = (e, eff) from he]

/-! ### Phase P2 -/

/-- The reference that phase P2 selects is the one that R98 names. -/
theorem refChoice_eq (edges kHz : Nat) (crystal : Bool) : refChoice (refInOf edges kHz) crystal =
    if edges < 64 then crystal.toNat else if 19000 ≤ kHz ∧ kHz ≤ 21000 then 2 else if 23750 ≤ kHz ∧ kHz ≤ 26250 then 3
      else if 38000 ≤ kHz ∧ kHz ≤ 42000 then 4 else crystal.toNat := by
  have hcrystal : refChoice 0 crystal = crystal.toNat := by cases crystal <;> rfl
  unfold refInOf
  split_ifs
  · exact hcrystal
  · rfl
  · rfl
  · rfl
  · exact hcrystal

/-- The Timebase shows the reference that it was given. -/
theorem Dev.refSelect_ref (d : Dev) (ref : Nat) : (d.refSelect ref).obj 0x2000 0x03 = ref := by
  unfold Dev.refSelect
  dsimp only
  split
  · exact Dev.obj_setObj_self ..
  · next h =>
    obtain rfl : ref = 0 := not_not.mp h
    have hset : ∀ (e f : Dev), f.regs = (e.setObj 0x2000 0x03 0).regs → f.raiseTb.obj 0x2000 0x03 = 0 := fun e f hf =>
      (Dev.obj_congr ((Dev.raiseTb_regs f).trans hf) ..).trans (Dev.obj_setObj_self ..)
    exact hset _ _ rfl

theorem Dev.phaseP2_next {d : Dev} (h : d.inPhase 2 = true) (edges kHz : Nat) (crystal : Bool) (worst : Nat) :
    (d.phaseP2 edges kHz crystal worst).obj 0x2F00 0x01 = 3 := by
  unfold Dev.phaseP2
  rw [h]
  simp only [Bool.not_true, Bool.false_eq_true, if_false]
  split <;> exact Dev.toPhase_phase ..

theorem Dev.phaseP2_ref {d : Dev} (h : d.inPhase 2 = true) (hstopped : d.rst.tbStopped = true) (edges kHz : Nat) (crystal : Bool)
    (worst : Nat) : (d.phaseP2 edges kHz crystal worst).obj 0x2000 0x03 = refChoice (refInOf edges kHz) crystal := by
  unfold Dev.phaseP2
  rw [h, hstopped]
  simp only [Bool.not_true, Bool.false_eq_true, if_false, if_true]
  rw [Dev.toPhase_other _ _ (by decide) (by decide), (Dev.vernierRun_measures _ _).2 _ _ (by decide) (by decide)]
  exact Dev.refSelect_ref ..

/-! ### Phase P3 -/

/-- The code of the OPT pin is shown, and the port group that its low bits name (R463). -/
theorem Dev.optTake_shows (d : Dev) (code : Nat) (unstable : Bool) : (d.optTake code unstable).rst.optTaken = true ∧
    (d.optTake code unstable).obj 0x2F00 0x04 = code ∧ (d.optTake code unstable).obj 0x2F00 0x05 = code % 8 := by
  have hgroup : ∀ (e : Dev) (u : Nat), u < 256 → e.groupDefaults.obj 0x2F00 u = e.obj 0x2F00 u := fun e u hu => by
    unfold Dev.groupDefaults
    simp only [List.foldl_cons, List.foldl_nil]
    rw [Dev.obj_setObj_idx _ _ (by decide) hu (by decide), Dev.obj_setObj_idx _ _ (by decide) hu (by decide),
      Dev.obj_setObj_idx _ _ (by decide) hu (by decide), Dev.obj_setObj_idx _ _ (by decide) hu (by decide),
      Dev.obj_setObj_idx _ _ (by decide) hu (by decide)]
  have hshown : ∀ u < 256, u ≠ 0x02 → (d.optTake code unstable).obj 0x2F00 u =
      ((d.setObj 0x2F00 0x04 code).setObj 0x2F00 0x05 (code % 8)).obj 0x2F00 u := fun u hu hne => by
    unfold Dev.optTake
    rw [hgroup _ _ hu]
    exact Dev.obj_setBit _ _ _ (by decide) hu (by simp [hne])
  refine ⟨rfl, ?_, ?_⟩
  · rw [hshown _ (by decide) (by decide), Dev.obj_setObj_sub _ _ (by decide) (by decide) (by decide)]
    exact Dev.obj_setObj_self ..
  · rw [hshown _ (by decide) (by decide)]
    exact Dev.obj_setObj_self ..

theorem Dev.optConversion_third {d : Dev} (h : d.inPhase 3 = true) (hopen : d.rst.optTaken = false) {code : Nat} {rest : List Nat}
    (hcodes : d.rst.optCodes = [code, code] ++ rest) : (d.optConversion code).rst.optTaken = true ∧
      (d.optConversion code).obj 0x2F00 0x04 = code ∧ (d.optConversion code).obj 0x2F00 0x05 = code % 8 := by
  have htake : ∃ e : Dev, d.optConversion code = e.optTake code false := by
    unfold Dev.optConversion
    rw [h, hopen, hcodes]
    exact ⟨_, if_pos rfl⟩
  obtain ⟨e, he⟩ := htake
  rw [he]
  exact e.optTake_shows code false

/-- The roles of P4 and P5 follow the straps and leave them as they are. -/
theorem Dev.phyRoles_strap (d : Dev) (p : Nat) : (d.phyRoles.port p).strapMaster = (d.port p).strapMaster := by
  have hrole : ∀ (e : Dev) (q : Nat), ((e.setPort q { (e.port q) with master := e.phyMaster q }).port p).strapMaster =
      (e.port p).strapMaster := fun e q => by
    rw [Dev.port_setPort]
    split
    · next hp => rw [hp]
    · rfl
  unfold Dev.phyRoles
  simp only [List.foldl_cons, List.foldl_nil]
  rw [hrole, hrole]

/-- The straps of P4 and P5 as phase P3 samples them. -/
def Dev.strapped (d : Dev) (ms4 ms5 : Bool) : Dev :=
  (d.setPort 4 { (d.port 4) with strapMaster := !ms4 }).setPort 5 { ((d.setPort 4 { (d.port 4) with strapMaster := !ms4 }).port 5) with
    strapMaster := !ms5 }

/-- A device with another state of its reset controller. -/
def Dev.withRst (d : Dev) (r : Rst) : Dev := { d with rst := r }

theorem Dev.phaseP3_takes {d : Dev} (h : d.inPhase 3 = true) (htaken : d.rst.optTaken = true) (ms4 ms5 testmode : Bool) :
    ∃ r, d.phaseP3 ms4 ms5 testmode = (((d.tbStart.strapped ms4 ms5).phyRoles).toPhase 4).withRst r := by
  have hgo : (!d.inPhase 3 || !d.rst.optTaken) = false := by rw [h, htaken]; rfl
  unfold Dev.phaseP3
  rw [if_neg (Bool.eq_false_iff.mp hgo)]
  exact ⟨_, rfl⟩

theorem Dev.phaseP3_straps {d : Dev} (h : d.inPhase 3 = true) (htaken : d.rst.optTaken = true) (ms4 ms5 testmode : Bool) :
    (d.phaseP3 ms4 ms5 testmode).obj 0x2F00 0x01 = 4 ∧ ((d.phaseP3 ms4 ms5 testmode).port 4).strapMaster = !ms4 ∧
      ((d.phaseP3 ms4 ms5 testmode).port 5).strapMaster = !ms5 := by
  obtain ⟨r, hdev⟩ := Dev.phaseP3_takes h htaken ms4 ms5 testmode
  have hport : ∀ (e : Dev) (p : Nat), ((e.toPhase 4).withRst r).port p = e.port p := fun e p => Dev.port_of_ports (Dev.toPhase_ports e 4) p
  rw [hdev]
  refine ⟨Dev.phase_of_toPhase rfl, ?_, ?_⟩
  · rw [hport, Dev.phyRoles_strap, Dev.strapped, Dev.port_setPort, if_neg (by decide), Dev.port_setPort_self]
  · rw [hport, Dev.phyRoles_strap, Dev.strapped, Dev.port_setPort_self]

/-! ### Phases P4 and P5 -/

theorem Dev.phaseP4_next {d : Dev} (h : d.inPhase 4 = true) (htest : d.rst.testmode = false) : d.phaseP4.obj 0x2F00 0x01 = 5 := by
  have hgo : (!d.inPhase 4 || d.rst.testmode) = false := by rw [h, htest]; rfl
  unfold Dev.phaseP4
  rw [if_neg (Bool.eq_false_iff.mp hgo)]
  exact Dev.phase_of_toPhase rfl

theorem Dev.phaseP5_up {d : Dev} (h : d.inPhase 5 = true) (hwaking : d.rst.waking = false) :
    d.phaseP5 none = ((d.setObj 0x2F10 0x01 0x3FFF).toPhase 6, { clear := true }) := by
  unfold Dev.phaseP5
  rw [h, hwaking]
  rfl

theorem Dev.phaseP5_bad {d : Dev} (h : d.inPhase 5 = true) (k : Nat) : d.phaseP5 (some k) = (d.assertReset 2 k 2, {}) := by
  unfold Dev.phaseP5
  rw [h]
  rfl

/-! ### Phase P6 -/

/-- What decides whether a firmware bank passes: the banks, the factory area, and the compatibility level (R95). -/
theorem Dev.fwPasses_congr {d e : Dev} (hregs : e.regs = d.regs) (hfw : e.fw = d.fw) (hfactory : e.factory = d.factory) (b : Nat) (ok : Bool) :
    e.fwPasses b ok = d.fwPasses b ok := by
  unfold Dev.fwPasses Dev.fwBank
  rw [hfw, hfactory, Dev.obj_congr hregs]

theorem Dev.fwPasses_setBit (d : Dev) (on : Bool) (b : Nat) (ok : Bool) :
    (d.setBit 0x2F00 0x02 4 on).fwPasses b ok = d.fwPasses b ok := by
  have hlevel : (d.setBit 0x2F00 0x02 4 on).obj 0x1300 0x05 = d.obj 0x1300 0x05 :=
    Dev.obj_setObj_idx _ _ (by decide) (by decide) (by decide)
  unfold Dev.fwPasses
  rw [hlevel]
  rfl

theorem Dev.bootWrite_passes (d : Dev) (selected previous trial attempts b : Nat) (ok : Bool) :
    (d.bootWrite selected previous trial attempts).fwPasses b ok = d.fwPasses b ok := by
  unfold Dev.bootWrite
  split
  · rfl
  · exact Dev.fwPasses_congr rfl rfl rfl b ok

/-- A bank that passes boots, whichever is tried first (R478). -/
theorem Dev.bootBank_passing {d : Dev} {b : Nat} (hb : b < 2) {okA okB : Bool} (h : d.fwPasses 0 okA = true ∨ d.fwPasses 1 okB = true) :
    (d.bootBank b okA okB).obj 0x2F00 0x01 = 7 ∧ (d.bootBank b okA okB).rst.bootStuck = false := by
  have hsome : d.fwPasses b (if b = 0 then okA else okB) = true ∨ d.fwPasses (1 - b) (if 1 - b = 0 then okA else okB) = true := by
    interval_cases b
    · exact h
    · exact h.symm
  unfold Dev.bootBank
  dsimp only
  by_cases hfirst : d.fwPasses b (if b = 0 then okA else okB) = true
  · rw [if_pos hfirst]
    exact ⟨Dev.phase_of_toPhase rfl, rfl⟩
  · rw [if_neg hfirst, if_pos (hsome.resolve_left hfirst)]
    exact ⟨Dev.phase_of_toPhase rfl, rfl⟩

/-- The boot record names one of the two banks, and what it notes of a trial touches neither. -/
theorem Dev.bootSelect_tries (d : Dev) : d.bootSelect.2 < 2 ∧ ∀ b ok, d.bootSelect.1.fwPasses b ok = d.fwPasses b ok := by
  have hmod : ∀ x : Nat, x % 2 < 2 := fun x => Nat.mod_lt _ (by decide)
  unfold Dev.bootSelect
  dsimp only
  split_ifs
  · exact ⟨hmod _, fun b ok => (Dev.bootWrite_passes ..).trans (Dev.fwPasses_setBit ..)⟩
  · exact ⟨hmod _, fun b ok => (Dev.fwPasses_setBit ..).trans ((Dev.bootWrite_passes ..).trans (Dev.fwPasses_setBit ..))⟩
  · exact ⟨hmod _, fun b ok => Dev.fwPasses_setBit ..⟩

theorem Dev.phaseP6_boots {d : Dev} (h : d.inPhase 6 = true) (hstuck : d.rst.bootStuck = false) {okA okB : Bool}
    (hpass : d.fwPasses 0 okA = true ∨ d.fwPasses 1 okB = true) :
    (d.phaseP6 okA okB).1.obj 0x2F00 0x01 = 7 ∧ (d.phaseP6 okA okB).1.rst.bootStuck = false := by
  obtain ⟨hb, hkept⟩ := d.bootSelect_tries
  unfold Dev.phaseP6
  rw [h, hstuck]
  refine Dev.bootBank_passing hb ?_
  have hsame : ∀ b ok, ({ d.bootSelect.1 with rst := { d.bootSelect.1.rst with activated := false } } : Dev).fwPasses b ok =
      d.fwPasses b ok := fun b ok => (Dev.fwPasses_congr rfl rfl rfl b ok).trans (hkept b ok)
  exact hpass.imp ((hsame 0 okA).trans ·) ((hsame 1 okB).trans ·)

/-! ### Phase P8 -/

/-- What could hold a device in reset. -/
def Dev.holds (d : Dev) : Bool × Bool × Option Nat := (d.rst.heldPower, d.rst.heldPin, d.rst.slept)

/-- A device in phase P8 with its ready bit set, which nothing holds in reset, is ready. -/
theorem Dev.ready_of_standing {d e : Dev} (hphase : d.inPhase 8 = true) (hregs : e.regs = (d.setBit 0x2F00 0x02 0 true).regs)
    (hholds : e.holds = d.holds) : e.ready = true := by
  simp only [Dev.inPhase, Bool.and_eq_true, decide_eq_true_eq, Bool.not_eq_true'] at hphase
  obtain ⟨⟨⟨hphase, hpower⟩, hpin⟩, hslept⟩ := hphase
  simp only [Dev.holds, Prod.mk.injEq] at hholds
  obtain ⟨hpower', hpin', hslept'⟩ := hholds
  have hseven : e.obj 0x2F00 0x01 = 8 := by
    rw [Dev.obj_congr hregs, Dev.obj_setBit _ _ _ (by decide) (by decide) (by decide)]
    exact hphase
  have hbit : e.bit 0x2F00 0x02 0 = true := (Dev.bit_congr hregs ..).trans (Dev.bit_setBit_self ..)
  simp [Dev.ready, hseven, hbit, hpower', hpin', hslept', hpower, hpin, hslept]

@[simp] theorem Dev.raiseIf_holds (d : Dev) (c : Bool) (x : Nat) : (d.raiseIf c x).holds = d.holds := by
  unfold Dev.raiseIf Dev.raise
  dsimp only
  split_ifs <;> rfl

/-- What each step of phase P8 leaves alone. -/
theorem Dev.latchPorts_still (d : Dev) : d.latchPorts.regs = d.regs ∧ d.latchPorts.holds = d.holds := by
  unfold Dev.latchPorts Dev.phyRoles
  constructor
  · refine (Dev.foldl_keeps Dev.regs (fun e p => ?_) _ _).trans (Dev.foldl_keeps Dev.regs (fun e p => ?_) _ _)
    · rfl
    · rfl
  · refine (Dev.foldl_keeps Dev.holds (fun e p => ?_) _ _).trans (Dev.foldl_keeps Dev.holds (fun e p => ?_) _ _)
    · rfl
    · rfl

theorem Dev.cycStart_still (d : Dev) : d.cycStart.regs = d.regs ∧ d.cycStart.holds = d.holds := by
  constructor
  · refine Dev.foldl_keeps Dev.regs (fun e f => ?_) _ d
    rfl
  · refine Dev.foldl_keeps Dev.holds (fun e f => ?_) _ d
    rfl

theorem Dev.p8Sources_still (d : Dev) : d.p8Sources.regs = d.regs ∧ d.p8Sources.holds = d.holds := by
  unfold Dev.p8Sources
  dsimp only
  constructor
  · refine Eq.trans (b := Dev.regs (Dev.raiseIf _ _ _)) rfl ?_
    simp only [Dev.raiseIf_regs]
  · refine Eq.trans (b := Dev.holds (Dev.raiseIf _ _ _)) rfl ?_
    simp only [Dev.raiseIf_holds]

theorem Dev.p8Writes_still (d : Dev) : d.p8Writes.regs = d.regs ∧ d.p8Writes.holds = d.holds := by
  have hbegin : ∀ (e : Dev) pair bank body commit imported, (e.nvBegin pair bank body commit imported).regs = e.regs ∧
      (e.nvBegin pair bank body commit imported).holds = e.holds := fun _ _ _ _ _ _ => ⟨rfl, rfl⟩
  unfold Dev.p8Writes
  dsimp only
  split
  · exact ⟨rfl, rfl⟩
  · split_ifs <;> simp [hbegin]

theorem Dev.nightLook_holds (d : Dev) : d.nightLook.holds = d.holds := by
  unfold Dev.nightLook
  refine Dev.foldl_keeps Dev.holds (fun e w => ?_) _ d
  rfl

theorem Dev.phaseP8_ready {d : Dev} (h : d.inPhase 8 = true) (hready : d.ready = false) : d.phaseP8.ready = true := by
  have hgo : (!d.inPhase 8 || d.ready) = false := by rw [h, hready]; rfl
  unfold Dev.phaseP8
  rw [if_neg (Bool.eq_false_iff.mp hgo)]
  refine Dev.ready_of_standing h ?_ ?_
  · rw [Dev.nightLook_regs, (Dev.p8Writes_still _).1, (Dev.p8Sources_still _).1, (Dev.cycStart_still _).1, (Dev.latchPorts_still _).1]
  · rw [Dev.nightLook_holds, (Dev.p8Writes_still _).2, (Dev.p8Sources_still _).2, (Dev.cycStart_still _).2, (Dev.latchPorts_still _).2]
    rfl

/-! ### The statement -/

/-- Settles O55: each phase sets the next one last, and its own results stand. -/
theorem phasesFollow : Obligations.PhasesFollow := by
  refine fun s t => ⟨fun h => ?_, fun h edges kHz crystal worst => ?_, fun h hopen code rest hcodes => ?_, fun h htaken ms4 ms5 => ?_,
    fun h htest => ?_, fun h hwaking => ?_, fun h k => ?_, fun h hstuck okA okB hpass => ?_, fun h hstuck hbank okA okB hpass => ?_,
    fun h => ?_, fun h hready => ?_⟩
  · exact ⟨_, State.onDev_eq rfl (if_pos h), Dev.toPhase_phase ..⟩
  · refine ⟨_, rfl, Dev.phaseP2_next h .., fun hstopped => ?_⟩
    rw [← refChoice_eq]
    exact Dev.phaseP2_ref (d := s.devAt t) h hstopped ..
  · exact ⟨_, rfl, Dev.optConversion_third (d := s.devAt t) h hopen hcodes⟩
  · exact ⟨_, rfl, Dev.phaseP3_straps (d := s.devAt t) h htaken ms4 ms5 false⟩
  · exact ⟨_, rfl, Dev.phaseP4_next (d := s.devAt t) h htest⟩
  · have hexec := State.onBoth_eq (c := .phaseP5 t none) (f := fun _ d => d.phaseP5 none) rfl
      (Dev.phaseP5_up (d := s.devAt t) h hwaking)
    refine ⟨_, hexec, Dev.toPhase_phase .., ?_, rfl⟩
    exact (Dev.toPhase_other _ _ (by decide) (by decide)).trans (Dev.obj_setObj_self ..)
  · have hexec := State.onBoth_eq (c := .phaseP5 t (some k)) (f := fun _ d => d.phaseP5 (some k.val)) rfl
      (Dev.phaseP5_bad (d := s.devAt t) h k)
    exact ⟨_, hexec, Dev.assertReset_resetBy ..⟩
  · exact ⟨_, rfl, Dev.phaseP6_boots (d := s.devAt t) h hstuck hpass⟩
  · have hgo : ((s.devAt t).inPhase 6 && (s.devAt t).rst.bootStuck) = true := by rw [h]; exact hstuck
    exact ⟨_, State.onDev_eq rfl (if_pos hgo), Dev.bootBank_passing (d := s.devAt t) hbank hpass⟩
  · have hgo : (!(s.devAt t).inPhase 7) = false := by rw [h]; rfl
    exact ⟨_, State.onDev_eq rfl (if_neg (Bool.eq_false_iff.mp hgo)), Dev.toPhase_phase ..⟩
  · exact ⟨_, rfl, Dev.phaseP8_ready (d := s.devAt t) h hready⟩

end Sys2Proof.Machine
end

section
/-! SUPPORT. How a timer counts (R360 to R362, R365, R366): what each part of its tick does to its record, that it stands still at a count
where something is to be done, and what an action list leaves of it. -/

namespace Sys2Proof.Machine

/-! ### What an operation of one timer leaves alone -/

theorem Dev.timer_setTimer (d : Dev) (n k : Nat) (r : Timer) : (d.setTimer n r).timer k = if k = n then r else d.timer k := Store.get_put ..

@[simp] theorem Dev.timer_setTimer_self (d : Dev) (n : Nat) (r : Timer) : (d.setTimer n r).timer n = r := by simp [Dev.timer_setTimer]

/-- Between two devices the record of one timer may have changed: no object, no event line, no other timer. -/
structure Dev.OnlyTimer (n : Nat) (d e : Dev) : Prop where
  regs : e.regs = d.regs
  now : e.now = d.now
  evt : e.evt = d.evt
  heard : e.heard = d.heard
  others : ∀ k, k ≠ n → e.timer k = d.timer k

theorem Dev.OnlyTimer.refl (n : Nat) (d : Dev) : d.OnlyTimer n d := ⟨rfl, rfl, rfl, rfl, fun _ _ => rfl⟩

theorem Dev.OnlyTimer.trans {n : Nat} {d e f : Dev} (h : d.OnlyTimer n e) (g : e.OnlyTimer n f) : d.OnlyTimer n f :=
  ⟨g.regs.trans h.regs, g.now.trans h.now, g.evt.trans h.evt, g.heard.trans h.heard, fun k hk => (g.others k hk).trans (h.others k hk)⟩

theorem Dev.setTimer_only (d : Dev) (n : Nat) (r : Timer) : d.OnlyTimer n (d.setTimer n r) :=
  ⟨rfl, rfl, rfl, rfl, fun k hk => (Dev.timer_setTimer d n k r).trans (if_neg hk)⟩

theorem Dev.timerTest_only (d : Dev) (n new : Nat) : d.OnlyTimer n (d.timerTest n new) := Dev.setTimer_only ..

theorem Dev.timerRide_only (d : Dev) (n tick : Nat) : d.OnlyTimer n (d.timerRide n tick) := by
  unfold Dev.timerRide
  dsimp only
  split
  · exact .refl n d
  · split
    · exact Dev.setTimer_only ..
    · exact (Dev.setTimer_only ..).trans (Dev.timerTest_only ..)

theorem Dev.timerTo_only (d : Dev) (n : Nat) : d.OnlyTimer n (d.timerTo n) := (Dev.timerRide_only ..).trans (Dev.timerRide_only ..)

theorem Dev.timerGo_only (d : Dev) (n tick : Nat) : d.OnlyTimer n (d.timerGo n tick) := by
  unfold Dev.timerGo
  dsimp only
  split
  · exact (Dev.setTimer_only ..).trans (Dev.timerTest_only ..)
  · exact Dev.setTimer_only ..

theorem Dev.timerZero_only (d : Dev) (n tick : Nat) : d.OnlyTimer n (d.timerZero n tick) := by
  unfold Dev.timerZero
  dsimp only
  split
  · exact (Dev.setTimer_only ..).trans (Dev.timerTest_only ..)
  · exact Dev.setTimer_only ..

/-- The reset and the start that actions have sent a timer are taken, the reset first. -/
def Dev.resetTaken (d : Dev) (n : Nat) : Dev :=
  match (d.timer n).reset with
  | some a => if a ≤ d.tickNow && (!(d.timer n).running || decide (a ≤ (d.timer n).tick + 1)) && !(d.timer n).hit0 && !(d.timer n).hit1
      then d.timerZero n a else d
  | none => d

def Dev.startTaken (d : Dev) (n : Nat) : Dev :=
  match (d.timer n).start with
  | some a => if a ≤ d.tickNow then d.timerGo n a else d
  | none => d

theorem Dev.timerInputs_eq (d : Dev) (n : Nat) : d.timerInputs n = (d.resetTaken n).startTaken n := rfl

theorem Dev.resetTaken_none {d : Dev} {n : Nat} (h : (d.timer n).reset = none) : d.resetTaken n = d := by
  unfold Dev.resetTaken
  rw [h]

theorem Dev.startTaken_none {d : Dev} {n : Nat} (h : (d.timer n).start = none) : d.startTaken n = d := by
  unfold Dev.startTaken
  rw [h]

theorem Dev.startTaken_due {d : Dev} {n a : Nat} (h : (d.timer n).start = some a) (hdue : a ≤ d.tickNow) :
    d.startTaken n = d.timerGo n a := by
  unfold Dev.startTaken
  rw [h]
  exact if_pos hdue

theorem Dev.timerInputs_only (d : Dev) (n : Nat) : d.OnlyTimer n (d.timerInputs n) := by
  have hreset : d.OnlyTimer n (d.resetTaken n) := by
    unfold Dev.resetTaken
    split
    · split
      · exact Dev.timerZero_only ..
      · exact .refl n d
    · exact .refl n d
  rw [Dev.timerInputs_eq]
  refine hreset.trans ?_
  unfold Dev.startTaken
  split
  · split
    · exact Dev.timerGo_only ..
    · exact .refl n _
  · exact .refl n _

theorem Dev.timerTick_only (d : Dev) (n : Nat) : d.OnlyTimer n (d.timerTick n) := by
  unfold Dev.timerTick
  split
  · exact ((Dev.timerTo_only ..).trans (Dev.timerInputs_only ..)).trans (Dev.timerTo_only ..)
  · exact .refl n d

/-! ### The record at a tick -/

/-- What a test of the compare units leaves of a record beside its count. -/
def Timer.stands (r : Timer) : Bool × Bool × Nat × Nat × Nat × Option Nat × Option Nat :=
  (r.running, r.armed, r.pre, r.count, r.tick, r.start, r.reset)

theorem Dev.timerTest_stands (d : Dev) (n new : Nat) :
    ((d.timerTest n new).timer n).stands = { (d.timer n) with count := new }.stands := by
  unfold Dev.timerTest
  rw [Dev.timer_setTimer_self]
  rfl

/-- The timer does not count up to a tick: it is idle, a list of it waits, or it stands there already. -/
def Timer.still (r : Timer) (tick : Nat) : Bool := !r.running || r.hit0 || r.hit1 || decide (tick ≤ r.tick)

theorem Dev.timerRide_still {d : Dev} {n tick : Nat} (h : (d.timer n).still tick = true) : d.timerRide n tick = d := if_pos h

theorem Dev.timerRide_eq {d : Dev} {n tick : Nat} (h : (d.timer n).still tick = false) : d.timerRide n tick =
      if ((d.timer n).ride (d.obj (0x2B00 + n) 0x02) (d.timerStopAt n) tick).count = (d.timer n).count then
        d.setTimer n ((d.timer n).ride (d.obj (0x2B00 + n) 0x02) (d.timerStopAt n) tick)
      else (d.setTimer n ((d.timer n).ride (d.obj (0x2B00 + n) 0x02) (d.timerStopAt n) tick)).timerTest n
        ((d.timer n).ride (d.obj (0x2B00 + n) 0x02) (d.timerStopAt n) tick).count := if_neg (Bool.eq_false_iff.mp h)

theorem Dev.timerRide_moves {d : Dev} {n tick : Nat} (h : (d.timer n).still tick = false) :
    ((d.timerRide n tick).timer n).stands =
      ((d.timer n).ride (d.obj (0x2B00 + n) 0x02) (d.timerStopAt n) tick).stands := by
  rw [Dev.timerRide_eq h]
  split
  · rw [Dev.timer_setTimer_self]
  · rw [Dev.timerTest_stands, Dev.timer_setTimer_self]

/-- A timer that comes to no count where something is to be done counts on (R360, R362). -/
theorem Timer.ride_counts {r : Timer} {prescale stop tick : Nat} (h : r.count + (r.pre + (tick - r.tick)) / (prescale + 1) < stop) :
    r.ride prescale stop tick = { r with count := r.count + (r.pre + (tick - r.tick)) / (prescale + 1)
                                         pre := (r.pre + (tick - r.tick)) % (prescale + 1), tick := tick } := by
  have hk : min ((r.pre + (tick - r.tick)) / (prescale + 1)) (stop - r.count) = (r.pre + (tick - r.tick)) / (prescale + 1) := by omega
  unfold Timer.ride
  dsimp only
  rw [hk, if_pos h]

/-- A timer stays at a count where something is to be done. -/
theorem Timer.ride_stays {r : Timer} {prescale stop tick : Nat} (h : stop ≤ r.count) : (r.ride prescale stop tick).count = r.count ∧
    (prescale ≤ r.pre → r.ride prescale stop tick = r) := by
  have hk : min ((r.pre + (tick - r.tick)) / (prescale + 1)) (stop - r.count) = 0 := by
    rw [Nat.sub_eq_zero_of_le h]
    exact Nat.min_zero _
  unfold Timer.ride
  dsimp only
  rw [hk, if_neg (by omega), if_pos rfl]
  refine ⟨rfl, fun hpre => ?_⟩
  have hp : max r.pre (min (r.pre + (tick - r.tick)) prescale) = r.pre := by omega
  rw [hp, Nat.sub_self, Nat.add_zero]

theorem Dev.timerTo_of_still {d : Dev} {n : Nat} (h : ∀ tick ≤ d.tickNow, (d.timer n).still tick = true) : d.timerTo n = d := by
  have hride : ∀ tick ≤ d.tickNow, (d.timerRide n tick).timerRide n tick = d := fun tick ht => by
    rw [Dev.timerRide_still (h tick ht), Dev.timerRide_still (h tick ht)]
  unfold Dev.timerTo
  dsimp only
  split
  · exact hride _ (Nat.min_le_left ..)
  · exact hride _ le_rfl

/-- Counting starts and stops no timer. -/
theorem Timer.ride_running (r : Timer) (prescale stop tick : Nat) : (r.ride prescale stop tick).running = r.running := by
  unfold Timer.ride
  dsimp only
  split_ifs <;> rfl

theorem Dev.timerRide_running (d : Dev) (n tick : Nat) : ((d.timerRide n tick).timer n).running = (d.timer n).running := by
  cases h : (d.timer n).still tick with
  | true => rw [Dev.timerRide_still h]
  | false => exact (congrArg (·.1) (Dev.timerRide_moves h)).trans (Timer.ride_running ..)

theorem Dev.timerTo_running (d : Dev) (n : Nat) : ((d.timerTo n).timer n).running = (d.timer n).running :=
  (Dev.timerRide_running ..).trans (Dev.timerRide_running ..)

/-- An idle timer, one with a list that waits, and one that stands at a tick which has not passed do not count. -/
theorem Timer.still_of_idle {r : Timer} (h : r.running = false) (tick : Nat) : r.still tick = true := by simp [Timer.still, h]
theorem Timer.still_of_hit {r : Timer} (h : r.hit0 = true ∨ r.hit1 = true) (tick : Nat) : r.still tick = true := by
  rcases h with h | h <;> simp [Timer.still, h]
theorem Timer.still_of_tick {r : Timer} {now : Nat} (h : now ≤ r.tick) : ∀ tick ≤ now, r.still tick = true := fun tick ht => by
  simp [Timer.still, ht.trans h]

/-! ### A stretch with nothing to do -/

/-- A compare value that a timer does not meet up to a count: it lies above, or it has had its turn. -/
def Dev.unmet (d : Dev) (n new u : Nat) (fired : Bool) : Prop :=
  new < d.obj (0x2B00 + n) (0x04 + u) ∨
    if d.bit (0x2B00 + n) 0x06 u then fired = true else d.obj (0x2B00 + n) (0x04 + u) ≤ (d.timer n).count

theorem Dev.nextHit_later {d : Dev} {n new u : Nat}
    (h : d.unmet n new u (if u = 0 then (d.timer n).fired0 else (d.timer n).fired1)) {x : Nat} (hx : d.nextHit n u = some x) : new < x := by
  unfold Dev.unmet at h
  unfold Dev.nextHit at hx
  dsimp only at hx
  generalize (if u = 0 then (d.timer n).fired0 else (d.timer n).fired1) = fired at h hx
  by_cases hge : d.bit (0x2B00 + n) 0x06 u = true
  · rw [if_pos hge] at h hx
    cases fired with
    | true => cases hx
    | false =>
      have hx' : max (d.obj (0x2B00 + n) (0x04 + u)) ((d.timer n).count + 1) = x := Option.some.inj hx
      have hv : new < d.obj (0x2B00 + n) (0x04 + u) := h.resolve_right (by decide)
      omega
  · rw [if_neg hge] at h hx
    split at hx
    · have hx' : d.obj (0x2B00 + n) (0x04 + u) = x := Option.some.inj hx
      omega
    · cases hx

theorem Dev.timerStopAt_later {d : Dev} {n new : Nat} (hcount : (d.timer n).count ≤ new) (hperiod : new < d.obj (0x2B00 + n) 0x03)
    (h0 : d.unmet n new 0 (d.timer n).fired0) (h1 : d.unmet n new 1 (d.timer n).fired1) : new < d.timerStopAt n := by
  have hlow : ∀ (s u : Nat), d.unmet n new u (if u = 0 then (d.timer n).fired0 else (d.timer n).fired1) → new < s →
      new < min s ((d.nextHit n u).getD s) := fun s u h hs => by
    cases hx : d.nextHit n u with
    | none => simpa using hs
    | some x => simpa using ⟨hs, Dev.nextHit_later h hx⟩
  have hall := hlow _ 1 h1 (hlow _ 0 h0 hperiod)
  unfold Dev.timerStopAt
  dsimp only
  omega

/-- A timer with nothing to do on the way stands at its count of now. -/
theorem Dev.timerTo_counts {d : Dev} {n : Nat} (hrun : (d.timer n).running = true) (hreset : (d.timer n).reset = none)
    (h0 : (d.timer n).hit0 = false) (h1 : (d.timer n).hit1 = false) (htick : (d.timer n).tick ≤ d.tickNow)
    (hpre : (d.timer n).pre ≤ d.obj (0x2B00 + n) 0x02)
    (hstop : (d.timer n).count + ((d.timer n).pre + (d.tickNow - (d.timer n).tick)) / (d.obj (0x2B00 + n) 0x02 + 1) < d.timerStopAt n) :
    ((d.timerTo n).timer n).stands = { (d.timer n) with
      count := (d.timer n).count + ((d.timer n).pre + (d.tickNow - (d.timer n).tick)) / (d.obj (0x2B00 + n) 0x02 + 1)
      pre := ((d.timer n).pre + (d.tickNow - (d.timer n).tick)) % (d.obj (0x2B00 + n) 0x02 + 1), tick := d.tickNow }.stands := by
  have hto : d.timerTo n = (d.timerRide n d.tickNow).timerRide n d.tickNow := by
    unfold Dev.timerTo
    rw [hreset]
  rw [hto]
  rcases Nat.lt_or_ge (d.timer n).tick d.tickNow with hlt | hge
  · have hmoves : (d.timer n).still d.tickNow = false := by simp [Timer.still, hrun, h0, h1]; omega
    have hride := Dev.timerRide_moves hmoves
    rw [Timer.ride_counts hstop] at hride
    have hthere : ((d.timerRide n d.tickNow).timer n).tick = d.tickNow := congrArg (fun x => x.2.2.2.2.1) hride
    rw [Dev.timerRide_still (Timer.still_of_tick hthere.ge _ le_rfl), hride]
  · have heq : (d.timer n).tick = d.tickNow := by omega
    have hstill := Timer.still_of_tick hge _ le_rfl
    rw [Dev.timerRide_still hstill, Dev.timerRide_still hstill, ← heq, Nat.sub_self, Nat.add_zero,
      Nat.div_eq_of_lt (by omega), Nat.mod_eq_of_lt (by omega), Nat.add_zero]

/-! ### Starts -/

/-- A start on an armed timer that is not running (R361): it runs from count 0 at that tick. -/
theorem Dev.timerGo_stands {d : Dev} {n : Nat} (harmed : (d.timer n).armed = true) (hidle : (d.timer n).running = false) (tick : Nat) :
    ((d.timerGo n tick).timer n).stands = (true, true, 0, 0, tick, none, none) := by
  have hgo : ((d.timer n).armed && !(d.timer n).running) = true := by rw [harmed, hidle]; rfl
  unfold Dev.timerGo
  dsimp only
  rw [if_pos hgo, Dev.timerTest_stands, Dev.timer_setTimer_self]
  simp [Timer.stands, harmed]

/-- A reset (R362): the count is 0, and the timer runs on or stays idle. -/
theorem Dev.timerZero_counts (d : Dev) (n tick : Nat) : ((d.timerZero n tick).timer n).count = 0 ∧
    ((d.timerZero n tick).timer n).running = (d.timer n).running := by
  unfold Dev.timerZero
  dsimp only
  split
  · next hrun =>
    have hstands := Dev.timerTest_stands (d.setTimer n { (d.timer n) with pre := 0, tick := tick, reset := none, shortEnd := false }) n 0
    rw [Dev.timer_setTimer_self] at hstands
    exact ⟨congrArg (·.2.2.2.1) hstands, congrArg (·.1) hstands⟩
  · simp

/-! ### Action lists -/

/-- What an action list leaves of every timer's record: all but the inputs it sends and the pulses it has made. -/
def Timer.run (r : Timer) : Bool × Bool × Nat × Nat × Nat × Bool × Bool :=
  (r.running, r.armed, r.pre, r.count, r.tick, r.hit0, r.hit1)

/-- The pulses of an action list (R366, R367). -/
def Dev.actPulses (d : Dev) (n acts at_ : Nat) : Dev :=
  let tick := at_ / 8
  let r := d.timer n
  let d := if acts.testBit 4 && r.sentA ≠ some tick then d.pulseAt (160 + 2 * n) at_ else d
  let d := if acts.testBit 5 && r.sentB ≠ some tick then d.pulseAt (161 + 2 * n) at_ else d
  d.setTimer n { r with sentA := if acts.testBit 4 then some tick else r.sentA
                        sentB := if acts.testBit 5 then some tick else r.sentB }

/-- The inputs that an action list sends to a timer for the next tick (R366). -/
def Dev.actMark (d : Dev) (k tick : Nat) (start reset : Bool) : Dev :=
  let r := d.timer k
  d.setTimer k { r with start := if start then some (tick + 1) else r.start, reset := if reset then some (tick + 1) else r.reset }

/-- The inputs that an action list sends to the linked timer. -/
def Dev.actLink (d : Dev) (n acts tick : Nat) : Dev :=
  if d.obj (0x2B00 + n) 0x0C < 32 && (acts.testBit 2 || acts.testBit 3) then
    d.actMark (d.obj (0x2B00 + n) 0x0C) tick (acts.testBit 3) (acts.testBit 2)
  else d

theorem Dev.act_eq (d : Dev) (n acts at_ : Nat) : d.act n acts at_ =
    if acts.testBit 0 || acts.testBit 1 then
      ((d.actPulses n acts at_).actLink n acts (at_ / 8)).actMark n (at_ / 8) (acts.testBit 1) (acts.testBit 0)
    else (d.actPulses n acts at_).actLink n acts (at_ / 8) := rfl

theorem Dev.actMark_run (d : Dev) (k tick : Nat) (start reset : Bool) (j : Nat) :
    ((d.actMark k tick start reset).timer j).run = (d.timer j).run := by
  unfold Dev.actMark
  rw [Dev.timer_setTimer]
  split
  · next h => rw [h]; rfl
  · rfl

theorem Dev.actPulses_run (d : Dev) (n acts at_ j : Nat) : ((d.actPulses n acts at_).timer j).run = (d.timer j).run := by
  have hpulse : ∀ (e : Dev) (c : Bool) (l : Nat), (if c then e.pulseAt l at_ else e).timers = e.timers := fun e c l => by
    unfold Dev.pulseAt
    split_ifs <;> rfl
  unfold Dev.actPulses
  dsimp only
  rw [Dev.timer_setTimer]
  split
  · next h => rw [h]; rfl
  · unfold Dev.timer
    rw [hpulse, hpulse]

/-- An action list leaves every timer where it stands (R366). -/
theorem Dev.act_run (d : Dev) (n acts at_ j : Nat) : ((d.act n acts at_).timer j).run = (d.timer j).run := by
  have hlink : (((d.actPulses n acts at_).actLink n acts (at_ / 8)).timer j).run = (d.timer j).run := by
    unfold Dev.actLink
    split
    · exact (Dev.actMark_run ..).trans (Dev.actPulses_run ..)
    · exact Dev.actPulses_run ..
  rw [Dev.act_eq]
  split
  · exact (Dev.actMark_run ..).trans hlink
  · exact hlink

/-- The inputs that it sends to its own timer take effect at the next tick. -/
theorem Dev.act_self (d : Dev) (n acts at_ : Nat) :
    (acts.testBit 0 = true → ((d.act n acts at_).timer n).reset = some (at_ / 8 + 1)) ∧
      (acts.testBit 1 = true → ((d.act n acts at_).timer n).start = some (at_ / 8 + 1)) := by
  rw [Dev.act_eq]
  refine ⟨fun h => ?_, fun h => ?_⟩ <;> simp [h, Dev.actMark]

@[simp] theorem Dev.act_regs (d : Dev) (n acts at_ : Nat) : (d.act n acts at_).regs = d.regs := by
  have hpulses : (d.actPulses n acts at_).regs = d.regs := by
    unfold Dev.actPulses
    dsimp only
    split_ifs <;> simp [Dev.setTimer]
  have hlink : ((d.actPulses n acts at_).actLink n acts (at_ / 8)).regs = d.regs := by
    unfold Dev.actLink
    split <;> exact hpulses
  rw [Dev.act_eq]
  split <;> exact hlink

/-! ### The end of a period -/

/-- A timer that stands at a count where something is to be done, with its prescaler full, does not move. -/
theorem Dev.timerRide_waits {d : Dev} {n : Nat} (hstop : d.timerStopAt n ≤ (d.timer n).count) (hpre : d.obj (0x2B00 + n) 0x02 ≤ (d.timer n).pre)
    (tick : Nat) : (d.timerRide n tick).timer n = d.timer n := by
  have hride := (Timer.ride_stays (tick := tick) hstop).2 hpre
  unfold Dev.timerRide
  dsimp only
  split
  · rfl
  · rw [hride, if_pos rfl]
    exact Dev.timer_setTimer_self ..

/-- A device with the time, the settings and the record of another stops its timer where the other does. -/
theorem Dev.timerStopAt_congr {d e : Dev} {n : Nat} (hregs : e.regs = d.regs) (htimer : e.timer n = d.timer n) :
    e.timerStopAt n = d.timerStopAt n := by
  unfold Dev.timerStopAt Dev.nextHit
  simp only [htimer, Dev.obj_congr hregs, Dev.bit_congr hregs]

theorem Dev.timerTo_waits {d : Dev} {n : Nat} (hstop : d.timerStopAt n ≤ (d.timer n).count) (hpre : d.obj (0x2B00 + n) 0x02 ≤ (d.timer n).pre) :
    (d.timerTo n).timer n = d.timer n := by
  have hrides : ∀ tick, ((d.timerRide n tick).timerRide n tick).timer n = d.timer n := fun tick => by
    have hfirst := Dev.timerRide_waits hstop hpre tick
    have hregs := (Dev.timerRide_only d n tick).regs
    refine (Dev.timerRide_waits ?_ ?_ tick).trans hfirst
    · rwa [Dev.timerStopAt_congr hregs hfirst, hfirst]
    · rwa [hfirst, Dev.obj_congr hregs]
  exact hrides _

/-- A timer at the end of its period stands there until the end is taken. -/
theorem Dev.timerTo_due {d : Dev} {n : Nat} (h : d.periodDue n = true) :
    (d.timerTo n).timer n = d.timer n ∧ (d.timerTo n).periodDue n = true := by
  have hwait : (d.timerTo n).timer n = d.timer n := by
    simp only [Dev.periodDue, Bool.and_eq_true, decide_eq_true_eq] at h
    obtain ⟨⟨⟨-, hpre⟩, hperiod⟩, -⟩ := h
    refine Dev.timerTo_waits ?_ hpre
    unfold Dev.timerStopAt
    dsimp only
    omega
  refine ⟨hwait, ?_⟩
  have honly := Dev.timerTo_only d n
  rw [← h]
  unfold Dev.periodDue Dev.tickNow
  simp only [hwait, honly.now, Dev.obj_congr honly.regs]

/-- What the end of a period shows: its instant, and a period write that has ended it early (R365). -/
def Dev.periodShown (d : Dev) (n : Nat) : Dev :=
  let e := (d.setObj (0x2B00 + n) 0x1B (8 * ((d.timer n).tick + 1))).timerCause n 2
  if (d.timer n).shortEnd then (e.setBit (0x2B00 + n) 0x15 2 true).timerCause n 6 else e

@[simp] theorem Dev.timerCause_regs (d : Dev) (n b : Nat) : (d.timerCause n b).regs = d.regs := Dev.raiseIf_regs ..

@[simp] theorem Dev.timerCause_timer (d : Dev) (n b k : Nat) : (d.timerCause n b).timer k = d.timer k := by
  have htimers : (d.timerCause n b).timers = d.timers := by
    unfold Dev.timerCause Dev.raiseIf Dev.raise
    dsimp only
    split_ifs <;> rfl
  unfold Dev.timer
  rw [htimers]

theorem Dev.periodShown_time (d : Dev) (n : Nat) : (d.periodShown n).obj (0x2B00 + n) 0x1B = 8 * ((d.timer n).tick + 1) ∧
    d.sameBut (d.periodShown n) (fun j w => [(0x2B00 + n, 0x15), (0x2B00 + n, 0x1B)].contains (j, w)) := by
  have hend : ((d.setObj (0x2B00 + n) 0x1B (8 * ((d.timer n).tick + 1))).timerCause n 2).obj (0x2B00 + n) 0x1B =
      8 * ((d.timer n).tick + 1) := (Dev.obj_congr (Dev.timerCause_regs ..) ..).trans (Dev.obj_setObj_self ..)
  have hsame : d.sameBut ((d.setObj (0x2B00 + n) 0x1B (8 * ((d.timer n).tick + 1))).timerCause n 2)
      (fun j w => [(0x2B00 + n, 0x15), (0x2B00 + n, 0x1B)].contains (j, w)) :=
    ((Dev.sameBut_refl d _).setObj _ (by decide) (by simp)).regs (Dev.timerCause_regs ..)
  unfold Dev.periodShown
  dsimp only
  split
  · refine ⟨?_, (hsame.setObj _ (by decide) (by simp)).regs (Dev.timerCause_regs ..)⟩
    rw [Dev.obj_congr (Dev.timerCause_regs ..), Dev.obj_setBit _ _ _ (by decide) (by decide) (by simp)]
    exact hend
  · exact ⟨hend, hsame⟩

/-- The record of a timer whose period has ended: a one-shot timer stops, a periodic one begins at 0 (R362). -/
def Timer.ended (r : Timer) (acts : Nat) : Timer :=
  { r with running := false, armed := acts.testBit 1, count := 0, pre := 0, tick := r.tick + 1, shortEnd := false, start := none }

def Timer.wrapped (r : Timer) : Timer := { r with pre := 0, tick := r.tick + 1, shortEnd := false, start := none }

theorem Dev.periodEnd_eq {d : Dev} {n : Nat} (hruns : d.runs 1 = true) (hdue : (d.timerTo n).periodDue n = true) :
    d.periodEnd n = if ((d.timerTo n).periodShown n).obj (0x2B00 + n) 0x01 = 1 then
        (((d.timerTo n).periodShown n).setTimer n (((d.timerTo n).timer n).ended ((d.timerTo n).obj (0x2B00 + n) 0x09))).act n
          ((d.timerTo n).obj (0x2B00 + n) 0x09) (8 * (((d.timerTo n).timer n).tick + 1))
      else ((((d.timerTo n).periodShown n).setTimer n ((d.timerTo n).timer n).wrapped).timerTest n 0).act n
          ((d.timerTo n).obj (0x2B00 + n) 0x09) (8 * (((d.timerTo n).timer n).tick + 1)) := by
  unfold Dev.periodEnd
  dsimp only
  rw [hruns, hdue]
  rfl

/-- A record is stored and an action list performed: no object changes, and the timer stands where the record says. -/
theorem Dev.act_stored {e f : Dev} {n : Nat} {r : Timer} {acts at_ : Nat} (h : f = (e.setTimer n r).act n acts at_) :
    f.regs = e.regs ∧ (f.timer n).running = r.running ∧ (f.timer n).count = r.count ∧ (f.timer n).armed = r.armed := by
  have hrun := (e.setTimer n r).act_run n acts at_ n
  rw [Dev.timer_setTimer_self, ← h] at hrun
  have hregs : f.regs = (e.setTimer n r).regs := (congrArg Dev.regs h).trans (Dev.act_regs ..)
  exact ⟨hregs, congrArg (·.1) hrun, congrArg (·.2.2.2.1) hrun, congrArg (·.2.1) hrun⟩

/-- The same where the timer begins a period at count 0. -/
theorem Dev.act_begun {e f : Dev} {n : Nat} {r : Timer} {acts at_ : Nat} (h : f = ((e.setTimer n r).timerTest n 0).act n acts at_) :
    f.regs = e.regs ∧ (f.timer n).running = r.running ∧ (f.timer n).count = 0 := by
  have hrun := ((e.setTimer n r).timerTest n 0).act_run n acts at_ n
  have htest := (e.setTimer n r).timerTest_stands n 0
  rw [Dev.timer_setTimer_self] at htest
  rw [← h] at hrun
  have hregs : f.regs = ((e.setTimer n r).timerTest n 0).regs := (congrArg Dev.regs h).trans (Dev.act_regs ..)
  exact ⟨hregs.trans (Dev.timerTest_only ..).regs, (congrArg (·.1) hrun).trans (congrArg (·.1) htest),
    (congrArg (·.2.2.2.1) hrun).trans (congrArg (·.2.2.2.1) htest)⟩

/-- The end of a period (R362, R365). -/
theorem Dev.periodEnd_ends {d : Dev} {n : Nat} (hruns : d.runs 1 = true) (h : d.periodDue n = true) :
    (d.periodEnd n).obj (0x2B00 + n) 0x1B = 8 * ((d.timer n).tick + 1) ∧
      d.sameBut (d.periodEnd n) (fun j w => [(0x2B00 + n, 0x15), (0x2B00 + n, 0x1B)].contains (j, w)) ∧
      (d.obj (0x2B00 + n) 0x01 = 1 → ((d.periodEnd n).timer n).running = false ∧ ((d.periodEnd n).timer n).count = 0 ∧
        ((d.periodEnd n).timer n).armed = (d.obj (0x2B00 + n) 0x09).testBit 1) ∧
      (d.obj (0x2B00 + n) 0x01 ≠ 1 → ((d.periodEnd n).timer n).running = true ∧ ((d.periodEnd n).timer n).count = 0) := by
  obtain ⟨htimer, hdue⟩ := Dev.timerTo_due h
  have hregs := (Dev.timerTo_only d n).regs
  obtain ⟨htime, hsame⟩ := (d.timerTo n).periodShown_time n
  have hbase := (Dev.sameBut_of_regs (P := fun j w => [(0x2B00 + n, 0x15), (0x2B00 + n, 0x1B)].contains (j, w)) hregs).trans hsame
  rw [htimer] at htime
  have hmode : ((d.timerTo n).periodShown n).obj (0x2B00 + n) 0x01 = d.obj (0x2B00 + n) 0x01 := hbase _ _ (by decide) (by simp)
  have hrun : (d.timer n).running = true := by
    unfold Dev.periodDue at h
    simp only [Bool.and_eq_true] at h
    obtain ⟨⟨⟨⟨⟨⟨hrun, -⟩, -⟩, -⟩, -⟩, -⟩, -⟩ := h
    exact hrun
  have hend := Dev.periodEnd_eq hruns hdue
  rw [hmode, htimer, Dev.obj_congr hregs] at hend
  by_cases hone : d.obj (0x2B00 + n) 0x01 = 1
  · obtain ⟨hshown, hstop, hcount, harmed⟩ := Dev.act_stored (hend.trans (if_pos hone))
    exact ⟨(Dev.obj_congr hshown ..).trans htime, hbase.regs hshown, fun _ => ⟨hstop, hcount, harmed⟩, fun hne => absurd hone hne⟩
  · obtain ⟨hshown, hgoes, hcount⟩ := Dev.act_begun (hend.trans (if_neg hone))
    exact ⟨(Dev.obj_congr hshown ..).trans htime, hbase.regs hshown, fun hone' => absurd hone' hone, fun _ => ⟨hgoes.trans hrun, hcount⟩⟩

/-! ### The lists of the compare units -/

/-- A unit's list is performed once: it no longer waits, and what it sends to its own timer takes effect at the next tick (R366). -/
theorem Dev.listDone (d : Dev) (n : Nat) (r : Timer) (acts tick b : Nat) :
    (((d.setTimer n r).act n acts (8 * tick)).timerCause n b).regs = d.regs ∧
      ((((d.setTimer n r).act n acts (8 * tick)).timerCause n b).timer n).run = r.run ∧
      (acts.testBit 0 = true → ((((d.setTimer n r).act n acts (8 * tick)).timerCause n b).timer n).reset = some (tick + 1)) ∧
      (acts.testBit 1 = true → ((((d.setTimer n r).act n acts (8 * tick)).timerCause n b).timer n).start = some (tick + 1)) := by
  have hself := (d.setTimer n r).act_self n acts (8 * tick)
  rw [Nat.mul_div_cancel_left tick (by decide)] at hself
  have hrun := (d.setTimer n r).act_run n acts (8 * tick) n
  rw [Dev.timer_setTimer_self] at hrun
  rw [Dev.timerCause_timer, Dev.timerCause_regs, Dev.act_regs]
  exact ⟨rfl, hrun, hself⟩

theorem Dev.compareMatch_first {d : Dev} {n : Nat} (hruns : d.runs 1 = true) (hhit : (d.timer n).hit0 = true)
    (htick : (d.timer n).tick ≤ d.tickNow) : d.compareMatch n 0 = ((d.setTimer n { (d.timer n) with hit0 := false }).act n
      (d.obj (0x2B00 + n) 0x07) (8 * (d.timer n).tick)).timerCause n 0 := by
  unfold Dev.compareMatch
  rw [Dev.timerTo_of_still (fun tick _ => Timer.still_of_hit (.inl hhit) tick), hruns]
  simp only [Bool.not_true, Bool.false_eq_true, if_false]
  rw [hhit, if_neg (by omega)]
  rfl

theorem Dev.compareMatch_second {d : Dev} {n : Nat} (hruns : d.runs 1 = true) (hhit : (d.timer n).hit1 = true)
    (htick : (d.timer n).tick ≤ d.tickNow) : d.compareMatch n 1 = ((d.setTimer n { (d.timer n) with hit1 := false }).act n
      (d.obj (0x2B00 + n) 0x08) (8 * (d.timer n).tick)).timerCause n 1 := by
  unfold Dev.compareMatch
  rw [Dev.timerTo_of_still (fun tick _ => Timer.still_of_hit (.inr hhit) tick), hruns]
  simp only [Bool.not_true, Bool.false_eq_true, if_false]
  rw [hhit, if_neg (by omega)]
  rfl

/-! ### The statement -/

/-- A timer with nothing to do is brought up to now by its tick, and has no input to take (R362). -/
theorem Dev.timerTick_counts {d : Dev} {n : Nat} (hruns : d.runs 1 = true) {r : Timer}
    (hto : ((d.timerTo n).timer n).stands = r.stands) (hstart' : r.start = none)
    (hreset' : r.reset = none) (htick : r.tick = d.tickNow) : ((d.timerTick n).timer n).stands = r.stands := by
  have hs : ((d.timerTo n).timer n).start = none := (congrArg (·.2.2.2.2.2.1) hto).trans hstart'
  have hr : ((d.timerTo n).timer n).reset = none := (congrArg (·.2.2.2.2.2.2) hto).trans hreset'
  have hthere : ((d.timerTo n).timer n).tick = d.tickNow := (congrArg (·.2.2.2.2.1) hto).trans htick
  have hnow : (d.timerTo n).tickNow = d.tickNow := congrArg (· / 8) (Dev.timerTo_only d n).now
  have hdev : d.timerTick n = d.timerTo n := by
    unfold Dev.timerTick
    rw [if_pos hruns, Dev.timerInputs_eq, Dev.resetTaken_none hr, Dev.startTaken_none hs,
      Dev.timerTo_of_still (Timer.still_of_tick (by omega))]
  rw [hdev, hto]

/-- A start that has come due starts an armed timer at its tick, which runs on from there (R361, R366). -/
theorem Dev.timerTick_starts {d : Dev} {n a : Nat} (hruns : d.runs 1 = true) (hidle : (d.timer n).running = false)
    (hreset : (d.timer n).reset = none) (hstart : (d.timer n).start = some a) (hdue : a ≤ d.tickNow) (harmed : (d.timer n).armed = true) :
    ((d.timerTick n).timer n).running = true ∧
      (a = d.tickNow → ((d.timerTick n).timer n).count = 0 ∧ ((d.timerTick n).timer n).pre = 0) := by
  have hdev : d.timerTick n = (d.timerGo n a).timerTo n := by
    unfold Dev.timerTick
    rw [if_pos hruns, Dev.timerTo_of_still (fun tick _ => Timer.still_of_idle hidle tick), Dev.timerInputs_eq, Dev.resetTaken_none hreset,
      Dev.startTaken_due hstart hdue]
  have hgo := Dev.timerGo_stands harmed hidle a
  have hrunning : ((d.timerGo n a).timer n).running = true := congrArg (·.1) hgo
  rw [hdev]
  refine ⟨?_, fun hnow => ?_⟩
  · exact (Dev.timerTo_running ..).trans hrunning
  · have htick : ((d.timerGo n a).timer n).tick = a := congrArg (·.2.2.2.2.1) hgo
    have hnow' : (d.timerGo n a).tickNow = d.tickNow := congrArg (· / 8) (Dev.timerGo_only d n a).now
    rw [Dev.timerTo_of_still (Timer.still_of_tick (by omega))]
    exact ⟨congrArg (·.2.2.2.1) hgo, congrArg (·.2.2.1) hgo⟩

/-- Settles O40: the count of now is that of `Timer.ride` below the next count at which something is to be done, and the ends of a period
and of a list are the record that they store, which an action list leaves alone. -/
theorem timersCount : Obligations.TimersCount := by
  intro s t n d i r all new free hruns
  refine ⟨fun hrun hreset hstart h0 h1 htick hpre hperiod hfree0 hfree1 => ?_, fun a hidle hreset hstart hdue harmed h0 h1 => ?_,
    fun hdue => ?_, fun hhit htick => ?_, fun hhit htick => ?_⟩
  · have hstop : new < d.timerStopAt n :=
      Dev.timerStopAt_later (Nat.le_add_right ..) hperiod hfree0 hfree1
    have hstands := Dev.timerTick_counts hruns (Dev.timerTo_counts hrun hreset h0 h1 htick hpre hstop) hstart hreset rfl
    exact State.does_of_dev (u := d.timerTick n) rfl
      ⟨(congrArg (·.1) hstands).trans hrun, congrArg (·.2.2.2.1) hstands, congrArg (·.2.2.1) hstands⟩
      (Dev.sameBut_of_regs (Dev.timerTick_only d n).regs)
  · exact State.does_of_dev (u := d.timerTick n) rfl (Dev.timerTick_starts hruns hidle hreset hstart hdue harmed)
      (Dev.sameBut_of_regs (Dev.timerTick_only d n).regs)
  · obtain ⟨htime, hsame, hone, hmany⟩ := Dev.periodEnd_ends hruns hdue
    exact ⟨fun hmode => State.does_of_dev (u := d.periodEnd n) rfl ⟨htime, hone hmode⟩ hsame,
      fun hmode => State.does_of_dev (u := d.periodEnd n) rfl ⟨htime, hmany hmode⟩ hsame⟩
  · obtain ⟨hregs, hdone, hself⟩ := d.listDone n { r with hit0 := false } (d.obj i 0x07) r.tick 0
    rw [← Dev.compareMatch_first hruns hhit htick] at hregs hdone hself
    exact State.does_of_dev (u := d.compareMatch n 0) rfl ⟨congrArg (·.2.2.2.2.2.1) hdone, hself⟩ (Dev.sameBut_of_regs hregs)
  · obtain ⟨hregs, hdone, hself⟩ := d.listDone n { r with hit1 := false } (d.obj i 0x08) r.tick 1
    rw [← Dev.compareMatch_second hruns hhit htick] at hregs hdone hself
    exact State.does_of_dev (u := d.compareMatch n 1) rfl ⟨congrArg (·.2.2.2.2.2.2) hdone, hself⟩ (Dev.sameBut_of_regs hregs)

end Sys2Proof.Machine
end

section
/-! SUPPORT. Commands and inputs of a timer, the release of a group, and captures (R361, R362, R368, R369): a device that agrees with another
in a timer's settings and record counts alike, and a timer that has been brought up to now keeps its count. -/

namespace Sys2Proof.Machine

/-! ### Devices that agree in a timer -/

/-- Two devices have the same time, and the same settings and record of one timer. -/
structure Dev.SameTimer (n : Nat) (d e : Dev) : Prop where
  now : e.now = d.now
  timer : e.timer n = d.timer n
  obj : ∀ u, u < 256 → e.obj (0x2B00 + n) u = d.obj (0x2B00 + n) u

section
variable {n : Nat} {d e : Dev} (h : d.SameTimer n e)
include h

theorem Dev.SameTimer.bit {u : Nat} (hu : u < 256) (b : Nat) : e.bit (0x2B00 + n) u b = d.bit (0x2B00 + n) u b :=
  congrArg (Nat.testBit · b) (h.obj u hu)

theorem Dev.SameTimer.setTimer (r : Timer) : (d.setTimer n r).SameTimer n (e.setTimer n r) :=
  ⟨h.now, by simp, h.obj⟩

theorem Dev.SameTimer.timerTest (new : Nat) : (d.timerTest n new).SameTimer n (e.timerTest n new) := by
  have hhit : ∀ u < 2, ∀ fired, e.cmpHit n u new fired = d.cmpHit n u new fired := fun u hu fired => by
    unfold Dev.cmpHit
    rw [h.bit (by decide), h.obj (0x04 + u) (by omega)]
  unfold Dev.timerTest
  dsimp only
  rw [h.timer, hhit 0 (by decide), hhit 1 (by decide)]
  exact h.setTimer _

theorem Dev.SameTimer.timerStopAt : e.timerStopAt n = d.timerStopAt n := by
  have hnext : ∀ u < 2, e.nextHit n u = d.nextHit n u := fun u hu => by
    unfold Dev.nextHit
    rw [h.bit (by decide), h.obj (0x04 + u) (by omega), h.timer]
  unfold Dev.timerStopAt
  rw [hnext 0 (by decide), hnext 1 (by decide), h.obj 0x03 (by decide), h.timer]

theorem Dev.SameTimer.timerRide (tick : Nat) : (d.timerRide n tick).SameTimer n (e.timerRide n tick) := by
  unfold Dev.timerRide
  dsimp only
  rw [h.timer, h.timerStopAt, h.obj 0x02 (by decide)]
  split
  · exact h
  · split
    · exact h.setTimer _
    · exact (h.setTimer _).timerTest _

theorem Dev.SameTimer.timerTo : (d.timerTo n).SameTimer n (e.timerTo n) := by
  have hnow : e.tickNow = d.tickNow := congrArg (· / 8) h.now
  unfold Dev.timerTo
  rw [h.timer, hnow]
  exact (h.timerRide _).timerRide _

end

/-! ### A timer brought up to now keeps its count -/

/-- The timer does not count up to a tick, or it stands at a count where something is to be done. -/
def Dev.settled (d : Dev) (n tick : Nat) : Prop := (d.timer n).still tick = true ∨ d.timerStopAt n ≤ (d.timer n).count

theorem Dev.timerRide_count {d : Dev} {n tick : Nat} (h : d.settled n tick) :
    ((d.timerRide n tick).timer n).count = (d.timer n).count := by
  cases hstill : (d.timer n).still tick with
  | true => rw [Dev.timerRide_still hstill]
  | false =>
    have hstop : d.timerStopAt n ≤ (d.timer n).count := h.resolve_left (by rw [hstill]; decide)
    exact (congrArg (·.2.2.2.1) (Dev.timerRide_moves hstill)).trans (Timer.ride_stays hstop).1

/-- A ride goes to the tick, to a count where something is to be done, or no further than it stood. -/
theorem Timer.ride_cases (r : Timer) (prescale stop tick : Nat) : (r.ride prescale stop tick).tick = tick ∨
    (stop ≤ r.count ∧ (r.ride prescale stop tick).count = r.count) ∨ (r.count < stop ∧ (r.ride prescale stop tick).count = stop) := by
  unfold Timer.ride
  dsimp only
  split
  · exact .inl rfl
  · next hreach =>
    generalize (r.pre + (tick - r.tick)) / (prescale + 1) = q at hreach ⊢
    split
    · next hzero => exact .inr (.inl ⟨by omega, rfl⟩)
    · exact .inr (.inr ⟨by omega, rfl⟩)

/-- The count at which a timer stops on the way is its period or the next hit of a unit. -/
theorem Dev.timerStopAt_cases {d : Dev} {n : Nat} (h : (d.timer n).count < d.timerStopAt n) :
    d.timerStopAt n = d.obj (0x2B00 + n) 0x03 ∨ d.nextHit n 0 = some (d.timerStopAt n) ∨ d.nextHit n 1 = some (d.timerStopAt n) := by
  have hmin : ∀ (s : Nat) (x : Option Nat), min s (x.getD s) = s ∨ x = some (min s (x.getD s)) := fun s x => by
    cases x with
    | none => exact .inl (Nat.min_self s)
    | some y => rcases Nat.le_total s y with hle | hle <;> simp [hle]
  have hstop : d.timerStopAt n = min (min (d.obj (0x2B00 + n) 0x03) ((d.nextHit n 0).getD (d.obj (0x2B00 + n) 0x03)))
      ((d.nextHit n 1).getD (min (d.obj (0x2B00 + n) 0x03) ((d.nextHit n 0).getD (d.obj (0x2B00 + n) 0x03)))) := by
    unfold Dev.timerStopAt at h ⊢
    dsimp only at h ⊢
    omega
  rw [hstop]
  rcases hmin (min (d.obj (0x2B00 + n) 0x03) ((d.nextHit n 0).getD (d.obj (0x2B00 + n) 0x03))) (d.nextHit n 1) with hsecond | hsecond
  · rw [hsecond]
    rcases hmin (d.obj (0x2B00 + n) 0x03) (d.nextHit n 0) with hfirst | hfirst
    · exact .inl hfirst
    · exact .inr (.inl hfirst)
  · exact .inr (.inr hsecond)

/-- A unit hits at the count that `Dev.nextHit` names. -/
theorem Dev.cmpHit_next {d : Dev} {n u x : Nat} (h : d.nextHit n u = some x) :
    d.cmpHit n u x (if u = 0 then (d.timer n).fired0 else (d.timer n).fired1) = true := by
  unfold Dev.nextHit at h
  unfold Dev.cmpHit
  dsimp only at h
  generalize (if u = 0 then (d.timer n).fired0 else (d.timer n).fired1) = fired at h ⊢
  by_cases hge : d.bit (0x2B00 + n) 0x06 u = true
  · rw [if_pos hge] at h ⊢
    cases fired with
    | true => cases h
    | false =>
      have hx : max (d.obj (0x2B00 + n) (0x04 + u)) ((d.timer n).count + 1) = x := Option.some.inj h
      have hv : d.obj (0x2B00 + n) (0x04 + u) ≤ x := by omega
      simpa using hv
  · rw [if_neg hge] at h ⊢
    split at h
    · have hx : d.obj (0x2B00 + n) (0x04 + u) = x := Option.some.inj h
      exact decide_eq_true hx.symm
    · cases h

/-- What a test of the units does with a count above 0. -/
theorem Dev.timerTest_hits (d : Dev) {n new : Nat} (hnew : new ≠ 0) (r : Timer) :
    let e := (d.setTimer n r).timerTest n new
    (e.timer n).hit0 = (r.hit0 || d.cmpHit n 0 new r.fired0) ∧ (e.timer n).hit1 = (r.hit1 || d.cmpHit n 1 new r.fired1) ∧
      (e.timer n).count = new := by
  have hhit : ∀ u fired, (d.setTimer n r).cmpHit n u new fired = d.cmpHit n u new fired := fun _ _ => rfl
  simp [Dev.timerTest, hnew, hhit]

/-- At the count where a ride stops short of its tick, a unit hits or the period ends. -/
theorem Dev.settled_at_stop {d : Dev} {n : Nat} (tick : Nat) (hlater : (d.timer n).count < d.timerStopAt n) {r : Timer}
    (hfired : r.fired0 = (d.timer n).fired0 ∧ r.fired1 = (d.timer n).fired1) :
    ((d.setTimer n r).timerTest n (d.timerStopAt n)).settled n tick := by
  obtain ⟨hhit0, hhit1, hcount⟩ := d.timerTest_hits (n := n) (new := d.timerStopAt n) (by omega) r
  rw [hfired.1] at hhit0
  rw [hfired.2] at hhit1
  rcases Dev.timerStopAt_cases hlater with hperiod | hnext | hnext
  · right
    have hsame : ((d.setTimer n r).timerTest n (d.timerStopAt n)).obj (0x2B00 + n) 0x03 = d.timerStopAt n :=
      (Dev.obj_congr ((d.setTimer_only n r).trans (Dev.timerTest_only ..)).regs ..).trans hperiod.symm
    generalize (d.setTimer n r).timerTest n (d.timerStopAt n) = e at hcount hsame ⊢
    rw [hcount]
    unfold Dev.timerStopAt at hcount hsame ⊢
    dsimp only at hcount hsame ⊢
    omega
  · have hhit : d.cmpHit n 0 (d.timerStopAt n) (d.timer n).fired0 = true := Dev.cmpHit_next hnext
    exact .inl (Timer.still_of_hit (.inl (by rw [hhit0, hhit, Bool.or_true])) tick)
  · have hhit : d.cmpHit n 1 (d.timerStopAt n) (d.timer n).fired1 = true := Dev.cmpHit_next hnext
    exact .inl (Timer.still_of_hit (.inr (by rw [hhit1, hhit, Bool.or_true])) tick)

/-- Counting fires no unit by itself. -/
theorem Timer.ride_fired (r : Timer) (prescale stop tick : Nat) :
    (r.ride prescale stop tick).fired0 = r.fired0 ∧ (r.ride prescale stop tick).fired1 = r.fired1 := by
  unfold Timer.ride
  dsimp only
  split_ifs <;> exact ⟨rfl, rfl⟩

/-- The stop of a timer depends on its record by the count and by the units that have fired. -/
theorem Dev.timerStopAt_setTimer {d : Dev} {n : Nat} {r : Timer} (hcount : r.count = (d.timer n).count)
    (hfired : r.fired0 = (d.timer n).fired0 ∧ r.fired1 = (d.timer n).fired1) : (d.setTimer n r).timerStopAt n = d.timerStopAt n := by
  have hobj : ∀ u, (d.setTimer n r).obj (0x2B00 + n) u = d.obj (0x2B00 + n) u := fun u => rfl
  have hbit : ∀ u, (d.setTimer n r).bit (0x2B00 + n) 0x06 u = d.bit (0x2B00 + n) 0x06 u := fun u => rfl
  unfold Dev.timerStopAt Dev.nextHit
  simp only [Dev.timer_setTimer_self, hobj, hbit, hcount, hfired.1, hfired.2]

/-- A ride leaves the timer settled. -/
theorem Dev.timerRide_settles (d : Dev) (n tick : Nat) : (d.timerRide n tick).settled n tick := by
  cases hstill : (d.timer n).still tick with
  | true => exact .inl (by rw [Dev.timerRide_still hstill, hstill])
  | false =>
    have hfired := Timer.ride_fired (d.timer n) (d.obj (0x2B00 + n) 0x02) (d.timerStopAt n) tick
    have hmoves := Dev.timerRide_moves hstill
    have hdev := Dev.timerRide_eq hstill
    rcases Timer.ride_cases (d.timer n) (d.obj (0x2B00 + n) 0x02) (d.timerStopAt n) tick with htick | ⟨hstop, hcount⟩ | ⟨hlater, hcount⟩
    · have hthere : ((d.timerRide n tick).timer n).tick = tick := (congrArg (·.2.2.2.2.1) hmoves).trans htick
      exact .inl (Timer.still_of_tick hthere.ge _ le_rfl)
    · right
      rw [hdev, if_pos hcount, Dev.timerStopAt_setTimer hcount hfired, Dev.timer_setTimer_self, hcount]
      exact hstop
    · rw [hdev, if_neg (by omega), hcount]
      exact Dev.settled_at_stop tick hlater hfired

/-- The tick up to which a timer counts: now, or the one before a reset that waits. -/
def Dev.toTick (d : Dev) (n : Nat) : Nat :=
  match (d.timer n).reset with
  | some a => min d.tickNow (a - 1)
  | none => d.tickNow

theorem Dev.timerTo_eq (d : Dev) (n : Nat) : d.timerTo n = (d.timerRide n (d.toTick n)).timerRide n (d.toTick n) := rfl

theorem Timer.ride_reset (r : Timer) (prescale stop tick : Nat) : (r.ride prescale stop tick).reset = r.reset := by
  unfold Timer.ride
  dsimp only
  split_ifs <;> rfl

theorem Dev.timerRide_reset (d : Dev) (n tick : Nat) : ((d.timerRide n tick).timer n).reset = (d.timer n).reset := by
  cases h : (d.timer n).still tick with
  | true => rw [Dev.timerRide_still h]
  | false => exact (congrArg (·.2.2.2.2.2.2) (Dev.timerRide_moves h)).trans (Timer.ride_reset ..)

theorem Dev.timerTo_reset (d : Dev) (n : Nat) : ((d.timerTo n).timer n).reset = (d.timer n).reset :=
  (Dev.timerRide_reset ..).trans (Dev.timerRide_reset ..)

/-- A timer that has been brought up to now has its count of now. -/
theorem Dev.timerTo_idem {d e : Dev} {n : Nat} (h : (d.timerTo n).SameTimer n e) : ((e.timerTo n).timer n).count = d.timerCount n := by
  have hnow : e.tickNow = d.tickNow := congrArg (· / 8) (h.now.trans (Dev.timerTo_only d n).now)
  have htick : e.toTick n = d.toTick n := by
    unfold Dev.toTick
    rw [h.timer, Dev.timerTo_reset, hnow]
  have hsettled : e.settled n (d.toTick n) := by
    have hto : (d.timerTo n).settled n (d.toTick n) := Dev.timerRide_settles ..
    unfold Dev.settled at hto ⊢
    rwa [h.timer, h.timerStopAt]
  rw [Dev.timerTo_eq, htick, Dev.timerRide_count (Dev.timerRide_settles ..), Dev.timerRide_count hsettled, h.timer]
  rfl

/-! ### Commands of a timer -/

/-- The objects of a timer and of the group release, with their commands. -/
def timerBlock : ObjBlock := ⟨0x2B00, 32, .timer, timerRows⟩
def gstartBlock : ObjBlock := ⟨0x2B80, 1, .gstart, gstartRows⟩

theorem timerBlock_cmd (n : Fin 32) : timerBlock.Command (0x2B00 + n) 0x12 1 :=
  ⟨by revert n; decide, by revert n; decide +kernel⟩

theorem gstartBlock_cmd : gstartBlock.Command 0x2B80 0x01 4 := ⟨by decide, by decide +kernel⟩

/-- The write of a release stores nothing, and the block does nothing more with it. -/
theorem Dev.accept_gstart (g : Dev) (r : Req) (mask : Nat) :
    (g.sendPart (oneWr r 0x2B80 0x01 4 mask gstartBlock)).accept (oneWr r 0x2B80 0x01 4 mask gstartBlock) = g.writtenBy r.port 0x2B80 := by
  have hsend : g.sendPart (oneWr r 0x2B80 0x01 4 mask gstartBlock) = g := rfl
  rw [hsend]
  unfold Dev.accept
  rw [Dev.stored_command g gstartBlock_cmd]
  rfl

/-- A command's write brings its timer up to now and stores nothing (R362, R373). -/
theorem Dev.accept_timerCommand (g : Dev) (r : Req) (n : Fin 32) (v : Nat) :
    (g.sendPart (oneWr r (0x2B00 + n) 0x12 1 v timerBlock)).accept (oneWr r (0x2B00 + n) 0x12 1 v timerBlock) =
      (g.writtenBy r.port (0x2B00 + n)).setTimer n ((g.timerTo n).timer n) := by
  have hsend : g.sendPart (oneWr r (0x2B00 + n) 0x12 1 v timerBlock) = g := rfl
  have hinst : (oneWr r (0x2B00 + n) 0x12 1 v timerBlock).inst = n := by simp [oneWr, hostWr, timerBlock]
  rw [hsend]
  unfold Dev.accept
  rw [Dev.stored_command g (timerBlock_cmd n)]
  simp [Dev.hooks, Dev.timerHook, Wr.master, oneWr, hostWr, timerBlock, Wr.has]

/-- A command of a timer is carried out on a device that agrees, in that timer, with the device of the command's instant brought up to
now. -/
theorem State.does_of_timerCommand {s : State} {t : Nat} {r : Req} {n : Fin 32} {v : Nat} {c : Instr} {post : Dev → Prop}
    {act : Dev → Dev} (h : s.takes t r (0x2B00 + n) 0x12 1 v = true) (hexec : exec c s = onBoth s t (fun m d => d.putOne m r (0x2B00 + n) 0x12 1 v))
    (hcmd : ∀ e : Dev, e.command (oneWr r (0x2B00 + n) 0x12 1 v timerBlock) 0x12 (v % 256) = act e)
    (hact : ∀ e : Dev, ((s.devAt t).timerTo n).SameTimer n e → post (act e) ∧ e.OnlyTimer n (act e)) : s.does t c [] post := by
  obtain ⟨hb, row, hr, hn, hty, hc⟩ := timerBlock_cmd n
  refine State.does_of_write h hexec hb hr hn hty (by decide) (fun g e hg hginner heregs heinner => ?_)
  rw [Dev.accept_timerCommand] at heregs heinner
  have hsame : (s.devAt t).SameTimer n g := by
    refine ⟨Dev.now_of_inner hginner, ?_, fun u hu => hg _ _ hu (by simp [portObjs, portObj]; omega)⟩
    unfold Dev.timer
    rw [Dev.timers_of_inner hginner]
  have hto := hsame.timerTo
  have he : (g.timerTo n).SameTimer n e := by
    have honly := Dev.timerTo_only g n
    refine ⟨(Dev.now_of_inner heinner).trans honly.now.symm, ?_, fun u _ => (Dev.obj_congr (heregs.trans honly.regs.symm) ..)⟩
    unfold Dev.timer
    rw [Dev.timers_of_inner heinner]
    exact Dev.timer_setTimer_self ..
  obtain ⟨hpost, honly⟩ := hact e ⟨he.now.trans hto.now, he.timer.trans hto.timer, fun u hu => (he.obj u hu).trans (hto.obj u hu)⟩
  have hcommands : e.commands (oneWr r (0x2B00 + n) 0x12 1 v timerBlock) = act e := (Dev.commands_one e hr hc).trans (hcmd e)
  rw [hcommands]
  exact ⟨hpost, Dev.sameBut_of_regs (honly.regs.trans heregs)⟩

/-- The three commands of a timer (R361). -/
theorem Dev.command_timer (e : Dev) (r : Req) (n : Fin 32) :
    e.command (oneWr r (0x2B00 + n) 0x12 1 1 timerBlock) 0x12 (1 % 256) = e.timerArm n ∧
      e.command (oneWr r (0x2B00 + n) 0x12 1 2 timerBlock) 0x12 (2 % 256) = e.timerStart n ∧
      e.command (oneWr r (0x2B00 + n) 0x12 1 3 timerBlock) 0x12 (3 % 256) = e.timerStop n := by
  simp [Dev.command, Dev.blockCommand, oneWr, hostWr, timerBlock]

/-- The commands of a timer, on a device that agrees with the one brought up to now. -/
theorem Dev.timerStart_runs {e : Dev} {n : Nat} (hidle : (e.timer n).running = false) :
    ((e.timerStart n).timer n).running = true ∧ ((e.timerStart n).timer n).count = 0 ∧ ((e.timerStart n).timer n).tick = e.tickNext := by
  have harm : (e.timerArm n).timer n = { (e.timer n) with armed := true } := Dev.timer_setTimer_self ..
  have hgo := Dev.timerGo_stands (d := e.timerArm n) (by rw [harm]) (by rw [harm]; exact hidle) e.tickNext
  exact ⟨congrArg (·.1) hgo, congrArg (·.2.2.2.1) hgo, congrArg (·.2.2.2.2.1) hgo⟩

theorem Dev.timerStop_holds (e : Dev) (n : Nat) : ((e.timerStop n).timer n).running = false ∧ ((e.timerStop n).timer n).armed = false ∧
    ((e.timerStop n).timer n).count = ((e.timerTo n).timer n).count := by
  unfold Dev.timerStop
  dsimp only
  rw [Dev.timer_setTimer_self]
  exact ⟨rfl, rfl, rfl⟩

theorem Dev.timerStart_only (e : Dev) (n : Nat) : e.OnlyTimer n (e.timerStart n) :=
  (Dev.setTimer_only ..).trans (Dev.timerGo_only ..)

theorem Dev.timerStop_only (e : Dev) (n : Nat) : e.OnlyTimer n (e.timerStop n) :=
  (Dev.timerTo_only ..).trans (Dev.setTimer_only ..)

/-! ### Inputs of a timer -/

/-- A pulse that arrives on the start input of an armed timer (R361). -/
theorem Dev.startInput_arrived {d : Dev} {n : Nat} (hruns : d.runs 1 = true) (hstart : (d.timer n).start = none)
    (h : (d.arrives (.timerStart n) (d.obj (0x2B00 + n) 0x0D)).isSome = true) :
    ∃ b, d.startInput n = (d.withHeard b).timerGo n d.tickNext := by
  obtain ⟨b, hb⟩ := Dev.onPulse_of_arrives h (fun e => e.timerGo n e.tickNext)
  refine ⟨b, Eq.trans ?_ hb⟩
  unfold Dev.startInput
  rw [hruns, hstart]
  rfl

/-- What arrives at a consumer is read from the event lines, the book of its consumers, and the clock. -/
theorem Dev.arrives_congr {d e : Dev} (hnow : e.now = d.now) (hevt : e.evt = d.evt) (hheard : e.heard = d.heard) (c : Consumer) (line : Nat) :
    (e.arrives c line).isSome = (d.arrives c line).isSome := by
  unfold Dev.arrives Dev.line
  dsimp only
  rw [hnow, hevt, hheard]
  split_ifs <;> rfl

/-- A pulse that arrives on the reset input (R362). -/
theorem Dev.resetInput_arrived {d : Dev} {n : Nat} (hruns : d.runs 1 = true) (hreset : (d.timer n).reset = none)
    (h : (d.arrives (.timerReset n) (d.obj (0x2B00 + n) 0x0E)).isSome = true) :
    ∃ b, d.resetInput n = ((d.timerTo n).withHeard b).timerZero n d.tickNext := by
  have honly := Dev.timerTo_only d n
  have harrives : ((d.timerTo n).arrives (.timerReset n) ((d.timerTo n).obj (0x2B00 + n) 0x0E)).isSome = true := by
    rw [Dev.arrives_congr honly.now honly.evt honly.heard, Dev.obj_congr honly.regs]
    exact h
  obtain ⟨b, hb⟩ := Dev.onPulse_of_arrives harrives (fun e => e.timerZero n e.tickNext)
  have hnext : ((d.timerTo n).withHeard b).tickNext = d.tickNext := congrArg (· / 8 + 1) honly.now
  rw [hnext] at hb
  refine ⟨b, Eq.trans ?_ hb⟩
  have hnone : ((d.timerTo n).timer n).reset = none := (Dev.timerTo_reset ..).trans hreset
  unfold Dev.resetInput
  rw [hruns]
  simp only [Bool.not_true, Bool.false_eq_true, if_false]
  rw [hnone]

/-! ### The release of a group -/

/-- What a release does with one timer of its mask (R368). -/
def Dev.letGo (d : Dev) (tick n : Nat) : Dev :=
  if (d.timer n).running then (d.timerTo n).timerZero n tick else if (d.timer n).armed then d.timerGo n tick else d.inc 0x2B80 0x06

theorem Dev.gstart_eq (d : Dev) (mask : Nat) : d.gstart mask =
    ((((maskBits 32 mask).foldl (fun e n => e.letGo d.tickNext n) d).setObj 0x2B80 0x04 (8 * d.tickNext)).inc 0x2B80 0x05).pulseAt 248
      (8 * d.tickNext) := rfl

/-- A release of one timer leaves the others, and counts where it finds one that it cannot start. -/
theorem Dev.letGo_others (d : Dev) (tick n : Nat) : (∀ k, k ≠ n → (d.letGo tick n).timer k = d.timer k) ∧
    d.sameBut (d.letGo tick n) (fun i w => decide (i = 0x2B80) && decide (w = 0x06)) := by
  unfold Dev.letGo
  split
  · have honly := (Dev.timerTo_only d n).trans (Dev.timerZero_only (d.timerTo n) n tick)
    exact ⟨honly.others, Dev.sameBut_of_regs honly.regs⟩
  · split
    · have honly := Dev.timerGo_only d n tick
      exact ⟨honly.others, Dev.sameBut_of_regs honly.regs⟩
    · exact ⟨fun _ _ => rfl, (Dev.sameBut_refl _ _).inc (by decide) rfl⟩

/-- A timer that is armed or running runs from count 0. -/
theorem Dev.letGo_runs {d : Dev} {n : Nat} (h : (d.timer n).armed = true ∨ (d.timer n).running = true) (tick : Nat) :
    ((d.letGo tick n).timer n).running = true ∧ ((d.letGo tick n).timer n).count = 0 := by
  unfold Dev.letGo
  cases hrun : (d.timer n).running with
  | true =>
    rw [if_pos rfl]
    obtain ⟨hcount, hgoes⟩ := Dev.timerZero_counts (d.timerTo n) n tick
    exact ⟨hgoes.trans ((Dev.timerTo_running ..).trans hrun), hcount⟩
  | false =>
    have harmed : (d.timer n).armed = true := h.resolve_right (by rw [hrun]; decide)
    rw [if_neg (by decide), if_pos harmed]
    have hgo := Dev.timerGo_stands harmed hrun tick
    exact ⟨congrArg (·.1) hgo, congrArg (·.2.2.2.1) hgo⟩

/-- The release of a list of timers, each once. -/
theorem Dev.letGo_all (l : List Nat) (hl : l.Nodup) (d : Dev) (tick : Nat) :
    let e := l.foldl (fun e n => e.letGo tick n) d
    (∀ n ∈ l, (d.timer n).armed = true ∨ (d.timer n).running = true → (e.timer n).running = true ∧ (e.timer n).count = 0) ∧
      (∀ n, n ∉ l → e.timer n = d.timer n) ∧ d.sameBut e (fun i w => decide (i = 0x2B80) && decide (w = 0x06)) := by
  induction l generalizing d with
  | nil => exact ⟨by simp, fun _ _ => rfl, Dev.sameBut_refl _ _⟩
  | cons m l ih =>
    obtain ⟨hm, hl⟩ := List.nodup_cons.mp hl
    obtain ⟨hin, hout, hsame⟩ := ih hl (d.letGo tick m)
    obtain ⟨hothers, hcounted⟩ := d.letGo_others tick m
    refine ⟨fun n hn hset => ?_, fun n hn => ?_, hcounted.trans hsame⟩
    · rcases List.mem_cons.mp hn with rfl | hn
      · exact hout n hm ▸ Dev.letGo_runs hset tick
      · have hne : n ≠ m := fun hnm => hm (hnm ▸ hn)
        exact hin n hn (by rwa [hothers n hne])
    · obtain ⟨hne, hnl⟩ := List.ne_and_not_mem_of_not_mem_cons hn
      exact (hout n hnl).trans (hothers n hne)

/-- The release of the timers of a mask: on the next tick, counted, with its time (R368). -/
theorem Dev.gstart_releases (d : Dev) (mask : Nat) :
    (d.gstart mask).obj 0x2B80 0x05 = satInc32 (d.obj 0x2B80 0x05) ∧ (d.gstart mask).obj 0x2B80 0x04 = 8 * d.tickNext ∧
      (∀ n < 32, (d.timer n).armed = true ∨ (d.timer n).running = true → if mask.testBit n then
        ((d.gstart mask).timer n).running = true ∧ ((d.gstart mask).timer n).count = 0 else (d.gstart mask).timer n = d.timer n) ∧
      d.sameBut (d.gstart mask) (fun i w => [(0x2B80, 0x04), (0x2B80, 0x05), (0x2B80, 0x06)].contains (i, w)) := by
  obtain ⟨hin, hout, hsame⟩ := Dev.letGo_all (maskBits 32 mask) (maskBits_nodup ..) d d.tickNext
  rw [Dev.gstart_eq]
  generalize (maskBits 32 mask).foldl (fun e n => e.letGo d.tickNext n) d = e at hin hout hsame ⊢
  have hpulse : ∀ f : Dev, (f.pulseAt 248 (8 * d.tickNext)).timers = f.timers := fun f => by
    unfold Dev.pulseAt
    split <;> rfl
  have htimer : ∀ n, ((((e.setObj 0x2B80 0x04 (8 * d.tickNext)).inc 0x2B80 0x05).pulseAt 248 (8 * d.tickNext)).timer n) = e.timer n := fun n => by
    unfold Dev.timer
    rw [hpulse]
    rfl
  have hobj : ∀ u, (((e.setObj 0x2B80 0x04 (8 * d.tickNext)).inc 0x2B80 0x05).pulseAt 248 (8 * d.tickNext)).obj 0x2B80 u =
      ((e.setObj 0x2B80 0x04 (8 * d.tickNext)).inc 0x2B80 0x05).obj 0x2B80 u := fun u => Dev.obj_congr (Dev.pulseAt_regs ..) ..
  have hcontains : d.sameBut e (fun i w => [(0x2B80, 0x04), (0x2B80, 0x05), (0x2B80, 0x06)].contains (i, w)) := hsame.mono (fun i w hp => by
    simp only [Bool.and_eq_true, decide_eq_true_eq] at hp
    simp [hp])
  refine ⟨?_, ?_, fun n hn hset => ?_, ((hcontains.setObj _ (by decide) rfl).inc (by decide) rfl).regs (Dev.pulseAt_regs ..)⟩
  · rw [hobj, Dev.obj_inc _ (by decide) (by decide), if_pos ⟨rfl, rfl⟩, Dev.obj_setObj_sub _ _ (by decide) (by decide) (by decide),
      hsame _ _ (by decide) (by decide)]
  · rw [hobj, Dev.obj_inc _ (by decide) (by decide), if_neg (by decide)]
    exact Dev.obj_setObj_self ..
  · rw [htimer]
    split
    · next hbit => exact hin n (mem_maskBits.mpr ⟨hn, hbit⟩) hset
    · next hbit => exact hout n (fun hmem => hbit (mem_maskBits.mp hmem).2)

/-- A release as the statement has it, of a device that agrees with the command's. -/
theorem Dev.gstart_of {d e : Dev} {mask mask' : Nat} (hnow : e.now = d.now) (htimers : ∀ n, e.timer n = d.timer n)
    (hcount : e.obj 0x2B80 0x05 = d.obj 0x2B80 0x05) (hmask : ∀ n < 32, mask'.testBit n = mask.testBit n) :
    (e.gstart mask').obj 0x2B80 0x05 = satInc32 (d.obj 0x2B80 0x05) ∧ d.now < (e.gstart mask').obj 0x2B80 0x04 ∧
      (e.gstart mask').obj 0x2B80 0x04 % 8 = 0 ∧ ∀ n < 32, (d.timer n).armed = true ∨ (d.timer n).running = true →
        if mask.testBit n then ((e.gstart mask').timer n).running = true ∧ ((e.gstart mask').timer n).count = 0
        else (e.gstart mask').timer n = d.timer n := by
  obtain ⟨hnumber, htime, hall, -⟩ := e.gstart_releases mask'
  have hnext : e.tickNext = d.now / 8 + 1 := congrArg (· / 8 + 1) hnow
  rw [hnext] at htime
  refine ⟨hnumber.trans (congrArg satInc32 hcount), by omega, by omega, fun n hn hset => ?_⟩
  rw [← hmask n hn, ← htimers n]
  exact hall n hn (by rwa [htimers n])

/-! ### Captures -/

/-- What a capture does when its objects are written: its record, its action list, its cause. -/
theorem Dev.capture_regs (e : Dev) (n : Nat) (r : Timer) (acts at_ b : Nat) :
    (((e.setTimer n r).act n acts at_).timerCause n b).regs = e.regs :=
  (Dev.timerCause_regs ..).trans (Dev.act_regs ..)

/-- The times of a rise, before a fall of the same instant is held against it (R369). -/
def Dev.roseAt (d : Dev) (n : Nat) : Dev :=
  let e := match (d.timer n).rise with
    | some p => d.setObj (0x2B00 + n) 0x19 (d.now - p)
    | none => d
  (((e.setObj (0x2B00 + n) 0x16 e.now).setObj (0x2B00 + n) 0x1A (d.timerCount n)).setBit (0x2B00 + n) 0x15 3 true).inc (0x2B00 + n) 0x1C

/-- A fall of the rise's own instant: the width is 0, and a fall that counted as unpaired was none. -/
def Dev.pairedNow (e : Dev) (n : Nat) (paired : Bool) : Dev :=
  let e := (e.setObj (0x2B00 + n) 0x18 0).setBit (0x2B00 + n) 0x15 3 false
  if paired then e else e.setObj (0x2B00 + n) 0x1D (e.obj (0x2B00 + n) 0x1D - 1)

/-- The objects of a rise as it is captured. -/
def Dev.rose (d : Dev) (n : Nat) : Dev :=
  match (d.timer n).fell with
  | some (a, paired) => if a = (d.roseAt n).now then (d.roseAt n).pairedNow n paired else d.roseAt n
  | none => d.roseAt n

theorem Dev.captureRose_regs (d : Dev) (n : Nat) : (d.captureRose n).regs = (d.rose n).regs := by
  unfold Dev.captureRose
  exact (Dev.capture_regs ..).trans rfl

/-- A rise records its time, the count, its number, and the period since the rise before (R369). -/
theorem Dev.roseAt_shows (d : Dev) (n : Nat) : (d.roseAt n).now = d.now ∧ (d.roseAt n).obj (0x2B00 + n) 0x16 = d.now ∧
    (d.roseAt n).obj (0x2B00 + n) 0x1A = d.timerCount n ∧ (d.roseAt n).obj (0x2B00 + n) 0x1C = satInc32 (d.obj (0x2B00 + n) 0x1C) ∧
    (d.roseAt n).bit (0x2B00 + n) 0x15 3 = true ∧ (∀ p, (d.timer n).rise = some p → (d.roseAt n).obj (0x2B00 + n) 0x19 = d.now - p) ∧
    d.sameBut (d.roseAt n) (fun j w => [(0x2B00 + n, 0x15), (0x2B00 + n, 0x16), (0x2B00 + n, 0x19), (0x2B00 + n, 0x1A),
      (0x2B00 + n, 0x1C)].contains (j, w)) := by
  let P := fun j w => ([(0x2B00 + n, 0x15), (0x2B00 + n, 0x16), (0x2B00 + n, 0x19), (0x2B00 + n, 0x1A), (0x2B00 + n, 0x1C)] :
    List (Nat × Nat)).contains (j, w)
  obtain ⟨e, he, hnow, hperiod, hsame, hcount⟩ : ∃ e : Dev, d.roseAt n = (((e.setObj (0x2B00 + n) 0x16 d.now).setObj (0x2B00 + n) 0x1A
      (d.timerCount n)).setBit (0x2B00 + n) 0x15 3 true).inc (0x2B00 + n) 0x1C ∧ e.now = d.now ∧
      (∀ p, (d.timer n).rise = some p → e.obj (0x2B00 + n) 0x19 = d.now - p) ∧ d.sameBut e P ∧
      e.obj (0x2B00 + n) 0x1C = d.obj (0x2B00 + n) 0x1C := by
    unfold Dev.roseAt
    dsimp only
    cases hr : (d.timer n).rise with
    | none => exact ⟨d, rfl, rfl, by simp, Dev.sameBut_refl _ _, rfl⟩
    | some p =>
      refine ⟨d.setObj (0x2B00 + n) 0x19 (d.now - p), rfl, rfl, fun q hq => ?_, (Dev.sameBut_refl _ _).setObj _ (by decide) (by simp [P]), ?_⟩
      · cases hq
        exact Dev.obj_setObj_self ..
      · exact Dev.obj_setObj_sub _ _ (by decide) (by decide) (by decide)
  have hobj : ∀ u < 256, u ≠ 0x1C → u ≠ 0x15 → (d.roseAt n).obj (0x2B00 + n) u =
      ((e.setObj (0x2B00 + n) 0x16 d.now).setObj (0x2B00 + n) 0x1A (d.timerCount n)).obj (0x2B00 + n) u := fun u hu h1 h2 => by
    rw [he, Dev.obj_inc _ (by decide) hu, if_neg (by simp [h1]), Dev.obj_setBit _ _ _ (by decide) hu (by simp [h2])]
  refine ⟨?_, ?_, ?_, ?_, ?_, fun p hp => ?_, ?_⟩
  · rw [he]; exact hnow
  · rw [hobj _ (by decide) (by decide) (by decide), Dev.obj_setObj_sub _ _ (by decide) (by decide) (by decide)]
    exact Dev.obj_setObj_self ..
  · rw [hobj _ (by decide) (by decide) (by decide)]
    exact Dev.obj_setObj_self ..
  · rw [he, Dev.obj_inc _ (by decide) (by decide), if_pos ⟨rfl, rfl⟩, Dev.obj_setBit _ _ _ (by decide) (by decide) (by simp),
      Dev.obj_setObj_sub _ _ (by decide) (by decide) (by decide), Dev.obj_setObj_sub _ _ (by decide) (by decide) (by decide), hcount]
  · rw [he]
    exact (Dev.bit_setObj_sub _ _ _ (by decide) (by decide) (by decide)).trans (Dev.bit_setBit_self ..)
  · rw [hobj _ (by decide) (by decide) (by decide), Dev.obj_setObj_sub _ _ (by decide) (by decide) (by decide),
      Dev.obj_setObj_sub _ _ (by decide) (by decide) (by decide)]
    exact hperiod p hp
  · rw [he]
    exact (((hsame.setObj _ (by decide) (by simp [P])).setObj _ (by decide) (by simp [P])).setObj _ (by decide) (by simp [P])).inc (by decide)
      (by simp [P])

/-- The width that a rise leaves: its own where a fall came with it, else that of the rise before. -/
theorem Dev.rose_shows (d : Dev) (n : Nat) : (∀ u < 256, u ≠ 0x15 → u ≠ 0x18 → u ≠ 0x1D → (d.rose n).obj (0x2B00 + n) u =
      (d.roseAt n).obj (0x2B00 + n) u) ∧
    ((d.timer n).fell.map (·.1) ≠ some d.now → d.rose n = d.roseAt n) ∧
    ((d.timer n).fell.map (·.1) = some d.now → (d.rose n).bit (0x2B00 + n) 0x15 3 = false ∧ (d.rose n).obj (0x2B00 + n) 0x18 = 0) ∧
    (d.roseAt n).sameBut (d.rose n) (fun j w => [(0x2B00 + n, 0x15), (0x2B00 + n, 0x18), (0x2B00 + n, 0x1D)].contains (j, w)) := by
  have hnow := (d.roseAt_shows n).1
  cases hf : (d.timer n).fell with
  | none =>
    have hrose : d.rose n = d.roseAt n := by unfold Dev.rose; rw [hf]
    exact ⟨fun u _ _ _ _ => by rw [hrose], fun _ => hrose, fun h => by simp at h, by rw [hrose]; exact Dev.sameBut_refl _ _⟩
  | some p =>
    obtain ⟨a, paired⟩ := p
    by_cases ha : a = d.now
    · have hrose : d.rose n = (d.roseAt n).pairedNow n paired := by
        unfold Dev.rose
        rw [hf, hnow]
        exact if_pos ha
      have hpaired : ∀ e : Dev, (e.pairedNow n paired).bit (0x2B00 + n) 0x15 3 = false ∧ (e.pairedNow n paired).obj (0x2B00 + n) 0x18 = 0 ∧
          e.sameBut (e.pairedNow n paired) (fun j w => [(0x2B00 + n, 0x15), (0x2B00 + n, 0x18), (0x2B00 + n, 0x1D)].contains (j, w)) :=
        fun e => by
          have hbit : ((e.setObj (0x2B00 + n) 0x18 0).setBit (0x2B00 + n) 0x15 3 false).bit (0x2B00 + n) 0x15 3 = false :=
            Dev.bit_setBit_self ..
          have hwidth : ((e.setObj (0x2B00 + n) 0x18 0).setBit (0x2B00 + n) 0x15 3 false).obj (0x2B00 + n) 0x18 = 0 :=
            (Dev.obj_setBit _ _ _ (by decide) (by decide) (by simp)).trans (Dev.obj_setObj_self ..)
          have hsame : e.sameBut ((e.setObj (0x2B00 + n) 0x18 0).setBit (0x2B00 + n) 0x15 3 false)
              (fun j w => [(0x2B00 + n, 0x15), (0x2B00 + n, 0x18), (0x2B00 + n, 0x1D)].contains (j, w)) :=
            ((Dev.sameBut_refl _ _).setObj _ (by decide) (by simp)).setObj _ (by decide) (by simp)
          unfold Dev.pairedNow
          dsimp only
          split
          · exact ⟨hbit, hwidth, hsame⟩
          · exact ⟨(Dev.bit_setObj_sub _ _ _ (by decide) (by decide) (by decide)).trans hbit,
              (Dev.obj_setObj_sub _ _ (by decide) (by decide) (by decide)).trans hwidth, hsame.setObj _ (by decide) (by simp)⟩
      obtain ⟨hbit, hwidth, hsame⟩ := hpaired (d.roseAt n)
      rw [hrose]
      exact ⟨fun u hu h1 h2 h3 => hsame _ _ hu (by simp [h1, h2, h3]), fun h => absurd (congrArg some ha) h, fun _ => ⟨hbit, hwidth⟩, hsame⟩
    · have hrose : d.rose n = d.roseAt n := by
        unfold Dev.rose
        rw [hf, hnow]
        exact if_neg ha
      exact ⟨fun u _ _ _ _ => by rw [hrose], fun _ => hrose, fun h => absurd (Option.some.inj h) ha, by rw [hrose]; exact Dev.sameBut_refl _ _⟩

theorem contains_of_subset {l l' : List (Nat × Nat)} (h : l ⊆ l') {x : Nat × Nat} (hx : l.contains x = true) : l'.contains x = true := by
  simpa using h (by simpa using hx)

/-- The objects of a rise that has been captured (R369). -/
theorem Dev.captureRose_shows (d : Dev) (n : Nat) :
    ((d.captureRose n).obj (0x2B00 + n) 0x16 = d.now ∧ (d.captureRose n).obj (0x2B00 + n) 0x1A = d.timerCount n ∧
      (d.captureRose n).obj (0x2B00 + n) 0x1C = satInc32 (d.obj (0x2B00 + n) 0x1C) ∧
      ((d.timer n).fell.map (·.1) ≠ some d.now → (d.captureRose n).bit (0x2B00 + n) 0x15 3 = true ∧
        (d.captureRose n).obj (0x2B00 + n) 0x18 = d.obj (0x2B00 + n) 0x18 ∧
        (d.captureRose n).obj (0x2B00 + n) 0x1D = d.obj (0x2B00 + n) 0x1D) ∧
      ((d.timer n).fell.map (·.1) = some d.now → (d.captureRose n).bit (0x2B00 + n) 0x15 3 = false ∧
        (d.captureRose n).obj (0x2B00 + n) 0x18 = 0) ∧
      ∀ p, (d.timer n).rise = some p → (d.captureRose n).obj (0x2B00 + n) 0x19 = d.now - p) ∧
    d.sameBut (d.captureRose n) (fun j w => [(0x2B00 + n, 0x15), (0x2B00 + n, 0x16), (0x2B00 + n, 0x18), (0x2B00 + n, 0x19),
      (0x2B00 + n, 0x1A), (0x2B00 + n, 0x1C), (0x2B00 + n, 0x1D)].contains (j, w)) := by
  obtain ⟨hkept, halone, hpaired, hrose⟩ := d.rose_shows n
  obtain ⟨-, htime, hcount, hnumber, hopen, hperiod, hat⟩ := d.roseAt_shows n
  have hregs := d.captureRose_regs n
  have hobj : ∀ u, (d.captureRose n).obj (0x2B00 + n) u = (d.rose n).obj (0x2B00 + n) u := fun u => Dev.obj_congr hregs ..
  have hbit : (d.captureRose n).bit (0x2B00 + n) 0x15 3 = (d.rose n).bit (0x2B00 + n) 0x15 3 := Dev.bit_congr hregs ..
  simp only [hobj, hbit]
  refine ⟨⟨?_, ?_, ?_, fun h => ?_, hpaired, fun p hp => ?_⟩, ?_⟩
  · rw [hkept _ (by decide) (by decide) (by decide) (by decide), htime]
  · rw [hkept _ (by decide) (by decide) (by decide) (by decide), hcount]
  · rw [hkept _ (by decide) (by decide) (by decide) (by decide), hnumber]
  · rw [halone h]
    exact ⟨hopen, hat _ _ (by decide) (by simp), hat _ _ (by decide) (by simp)⟩
  · rw [hkept _ (by decide) (by decide) (by decide) (by decide), hperiod p hp]
  · refine ((hat.mono (fun j w hp => ?_)).trans (hrose.mono (fun j w hp => ?_))).regs hregs
    · exact contains_of_subset (by simp) hp
    · exact contains_of_subset (by simp) hp

/-- A fall takes the width since the rise, or counts as unpaired. -/
def Dev.widthTaken (e : Dev) (n : Nat) : Dev :=
  if e.bit (0x2B00 + n) 0x15 3 then (e.setObj (0x2B00 + n) 0x18 (e.now - e.obj (0x2B00 + n) 0x16)).setBit (0x2B00 + n) 0x15 3 false
  else e.inc (0x2B00 + n) 0x1D

theorem Dev.widthTaken_setTimer (e : Dev) (n : Nat) (r : Timer) : ((e.setTimer n r).widthTaken n).regs = (e.widthTaken n).regs := by
  have hbit : (e.setTimer n r).bit (0x2B00 + n) 0x15 3 = e.bit (0x2B00 + n) 0x15 3 := rfl
  unfold Dev.widthTaken
  rw [hbit]
  split <;> rfl

/-- The objects of a fall that has been captured (R369). -/
theorem Dev.captureFell_shows (d : Dev) (n : Nat) :
    ((d.captureFell n).obj (0x2B00 + n) 0x17 = d.now ∧ (d.captureFell n).obj (0x2B00 + n) 0x1C = satInc32 (d.obj (0x2B00 + n) 0x1C) ∧
      (d.bit (0x2B00 + n) 0x15 3 = true → (d.captureFell n).obj (0x2B00 + n) 0x18 = d.now - d.obj (0x2B00 + n) 0x16 ∧
        (d.captureFell n).bit (0x2B00 + n) 0x15 3 = false) ∧
      (d.bit (0x2B00 + n) 0x15 3 = false → (d.captureFell n).obj (0x2B00 + n) 0x1D = satInc32 (d.obj (0x2B00 + n) 0x1D))) ∧
    d.sameBut (d.captureFell n) (fun j w => [(0x2B00 + n, 0x15), (0x2B00 + n, 0x17), (0x2B00 + n, 0x18), (0x2B00 + n, 0x1C),
      (0x2B00 + n, 0x1D)].contains (j, w)) := by
  let P := fun j w => ([(0x2B00 + n, 0x15), (0x2B00 + n, 0x17), (0x2B00 + n, 0x18), (0x2B00 + n, 0x1C), (0x2B00 + n, 0x1D)] :
    List (Nat × Nat)).contains (j, w)
  let e := (d.setObj (0x2B00 + n) 0x17 d.now).inc (0x2B00 + n) 0x1C
  have hsame : d.sameBut e P := ((Dev.sameBut_refl _ _).setObj _ (by decide) (by simp [P])).inc (by decide) (by simp [P])
  have hkept : ∀ u < 256, u ≠ 0x17 → u ≠ 0x1C → e.obj (0x2B00 + n) u = d.obj (0x2B00 + n) u := fun u hu h1 h2 => by
    rw [Dev.obj_inc _ (by decide) hu, if_neg (by simp [h2]), Dev.obj_setObj_sub _ _ (by decide) hu h1]
  have hbit : e.bit (0x2B00 + n) 0x15 3 = d.bit (0x2B00 + n) 0x15 3 :=
    congrArg (Nat.testBit · 3) (hkept 0x15 (by decide) (by decide) (by decide))
  have htime : e.obj (0x2B00 + n) 0x17 = d.now := by
    rw [Dev.obj_inc _ (by decide) (by decide), if_neg (by simp)]
    exact Dev.obj_setObj_self ..
  have hnumber : e.obj (0x2B00 + n) 0x1C = satInc32 (d.obj (0x2B00 + n) 0x1C) := by
    rw [Dev.obj_inc _ (by decide) (by decide), if_pos ⟨rfl, rfl⟩, Dev.obj_setObj_sub _ _ (by decide) (by decide) (by decide)]
  have hregs : (d.captureFell n).regs = (e.widthTaken n).regs :=
    ((Dev.timerCause_regs ..).trans (Dev.act_regs ..)).trans (Dev.widthTaken_setTimer ..)
  unfold Dev.widthTaken at hregs
  rw [hbit, show e.now = d.now from rfl] at hregs
  cases hopen : d.bit (0x2B00 + n) 0x15 3 with
  | true =>
    rw [hopen, if_pos rfl, hkept 0x16 (by decide) (by decide) (by decide)] at hregs
    have hobj : ∀ u < 256, u ≠ 0x15 → u ≠ 0x18 → (d.captureFell n).obj (0x2B00 + n) u = e.obj (0x2B00 + n) u := fun u hu h1 h2 => by
      rw [Dev.obj_congr hregs, Dev.obj_setBit _ _ _ (by decide) hu (by simp [h1]), Dev.obj_setObj_sub _ _ (by decide) hu h2]
    refine ⟨⟨?_, ?_, fun _ => ⟨?_, ?_⟩, fun h => absurd h (by decide)⟩, ?_⟩
    · rw [hobj _ (by decide) (by decide) (by decide), htime]
    · rw [hobj _ (by decide) (by decide) (by decide), hnumber]
    · rw [Dev.obj_congr hregs, Dev.obj_setBit _ _ _ (by decide) (by decide) (by simp)]
      exact Dev.obj_setObj_self ..
    · exact (Dev.bit_congr hregs ..).trans (Dev.bit_setBit_self ..)
    · exact ((hsame.setObj _ (by decide) (by simp [P])).setObj _ (by decide) (by simp [P])).regs hregs
  | false =>
    rw [hopen, if_neg (by decide)] at hregs
    have hobj : ∀ u < 256, u ≠ 0x1D → (d.captureFell n).obj (0x2B00 + n) u = e.obj (0x2B00 + n) u := fun u hu h1 => by
      rw [Dev.obj_congr hregs, Dev.obj_inc _ (by decide) hu, if_neg (by simp [h1])]
    refine ⟨⟨?_, ?_, fun h => absurd h (by decide), fun _ => ?_⟩, ?_⟩
    · rw [hobj _ (by decide) (by decide), htime]
    · rw [hobj _ (by decide) (by decide), hnumber]
    · rw [Dev.obj_congr hregs, Dev.obj_inc _ (by decide) (by decide), if_pos ⟨rfl, rfl⟩, hkept _ (by decide) (by decide) (by decide)]
    · exact (hsame.inc (by decide) (by simp [P])).regs hregs

/-- A capture is of an edge at a pin, or of a pulse that arrives (R37, R369). -/
theorem Dev.captureRise_takes {d : Dev} {n : Nat} (hruns : d.runs 1 = true) (hsrc : d.obj (0x2B00 + n) 0x0F ≠ 0xFFFF)
    (h : d.obj (0x2B00 + n) 0x0F < 0x100 → (d.arrives (.captureRise n) (d.obj (0x2B00 + n) 0x0F)).isSome = true) :
    ∃ b, d.captureRise n = (d.withHeard b).captureRose n := by
  have hgo : (!d.runs 1 || decide (d.obj (0x2B00 + n) 0x0F = 0xFFFF)) = false := by simp [hruns, hsrc]
  have hdev : d.captureRise n = if d.obj (0x2B00 + n) 0x0F < 0x100 then
      d.onPulse (.captureRise n) (d.obj (0x2B00 + n) 0x0F) (fun d => d.captureRose n) else d.captureRose n :=
    if_neg (Bool.eq_false_iff.mp hgo)
  rw [hdev]
  split
  · next hline => exact Dev.onPulse_of_arrives (h hline) _
  · exact ⟨d.heard, rfl⟩

theorem Dev.captureFall_takes {d : Dev} {n : Nat} (hruns : d.runs 1 = true) (hsrc : d.obj (0x2B00 + n) 0x0F ≠ 0xFFFF)
    (h : d.obj (0x2B00 + n) 0x0F < 0x100 → (d.arrives (.captureFall n) (d.obj (0x2B00 + n) 0x10)).isSome = true) :
    ∃ b, d.captureFall n = (d.withHeard b).captureFell n := by
  have hgo : (!d.runs 1 || decide (d.obj (0x2B00 + n) 0x0F = 0xFFFF)) = false := by simp [hruns, hsrc]
  have hdev : d.captureFall n = if d.obj (0x2B00 + n) 0x0F < 0x100 then
      d.onPulse (.captureFall n) (d.obj (0x2B00 + n) 0x10) (fun d => d.captureFell n) else d.captureFell n :=
    if_neg (Bool.eq_false_iff.mp hgo)
  rw [hdev]
  split
  · next hline => exact Dev.onPulse_of_arrives (h hline) _
  · exact ⟨d.heard, rfl⟩

/-- What has arrived is not part of a timer's record. -/
theorem Dev.withHeard_same (d : Dev) (b : Store Nat) (n : Nat) : d.SameTimer n (d.withHeard b) := ⟨rfl, rfl, fun _ _ => rfl⟩

theorem Dev.withHeard_timerCount (d : Dev) (b : Store Nat) (n : Nat) : (d.withHeard b).timerCount n = d.timerCount n :=
  congrArg Timer.count ((d.withHeard_same b n).timerTo).timer

/-! ### The statement -/

/-- Settles O41: a command acts on its timer brought up to now, and its further rides keep that count; a release takes each timer of its
mask once; a capture is its objects, which an action list leaves alone. -/
theorem timersStartAndCapture : Obligations.TimersStartAndCapture := by
  refine ⟨fun s t => ?_, fun s t n => ?_⟩
  · intro d
    refine ⟨fun n => ?_, ?_⟩
    · intro i r
      refine ⟨fun q => ⟨fun h => ?_, fun h hidle => ?_, fun h => ?_⟩, fun hruns => ⟨fun hstart harrives harmed hidle => ?_,
        fun hreset harrives => ?_⟩⟩
      · refine State.does_of_timerCommand h rfl (fun e => (e.command_timer q n).1) (fun e he => ⟨?_, Dev.setTimer_only ..⟩)
        exact (Dev.timer_setTimer_self ..).trans (congrArg (fun r : Timer => { r with armed := true }) he.timer)
      · refine State.does_of_timerCommand h rfl (fun e => (e.command_timer q n).2.1) (fun e he => ⟨?_, Dev.timerStart_only ..⟩)
        have hidle' : (e.timer n).running = false := (congrArg Timer.running he.timer).trans ((Dev.timerTo_running ..).trans hidle)
        have hnext : e.tickNext = d.now / 8 + 1 := congrArg (· / 8 + 1) (he.now.trans (Dev.timerTo_only ..).now)
        exact hnext ▸ Dev.timerStart_runs hidle'
      · refine State.does_of_timerCommand h rfl (fun e => (e.command_timer q n).2.2) (fun e he => ⟨?_, Dev.timerStop_only ..⟩)
        obtain ⟨hstop, hdisarm, hcount⟩ := e.timerStop_holds n
        exact ⟨hstop, hdisarm, hcount.trans (Dev.timerTo_idem he)⟩
      · obtain ⟨b, hdev⟩ := Dev.startInput_arrived hruns hstart harrives
        have hgo := Dev.timerGo_stands (d := d.withHeard b) harmed hidle d.tickNext
        rw [← hdev] at hgo
        exact State.does_of_dev (u := d.startInput n) rfl ⟨congrArg (·.1) hgo, congrArg (·.2.2.2.1) hgo, congrArg (·.2.2.2.2.1) hgo⟩
          (Dev.sameBut_of_regs ((congrArg Dev.regs hdev).trans (Dev.timerGo_only ..).regs))
      · obtain ⟨b, hdev⟩ := Dev.resetInput_arrived hruns hreset harrives
        obtain ⟨hcount, hgoes⟩ := ((d.timerTo n).withHeard b).timerZero_counts n d.tickNext
        rw [← hdev] at hcount hgoes
        exact State.does_of_dev (u := d.resetInput n) rfl ⟨hcount, hgoes.trans (Dev.timerTo_running ..)⟩
          (Dev.sameBut_of_regs ((congrArg Dev.regs hdev).trans ((Dev.timerZero_only ..).regs.trans (Dev.timerTo_only ..).regs)))
    · intro released l
      refine ⟨fun q mask h => ?_, fun hruns harrives => ?_⟩
      · refine State.does_of_bareCommand h rfl gstartBlock_cmd (by decide) (Dev.accept_gstart · q mask) (fun e he hinner => ?_)
        have hcmd : e.command (oneWr q 0x2B80 0x01 4 mask gstartBlock) 0x01 (mask % 256 ^ 4) = e.gstart (mask % 2 ^ 32) := rfl
        have htimers : ∀ n, e.timer n = d.timer n := fun n => by
          unfold Dev.timer
          rw [Dev.timers_of_inner hinner]
        rw [hcmd]
        refine ⟨Dev.gstart_of (Dev.now_of_inner hinner) htimers (he _ _ (by decide) (by decide)) (fun n hn => ?_),
          (e.gstart_releases _).2.2.2⟩
        rw [Nat.testBit_mod_two_pow, decide_eq_true hn, Bool.true_and]
      · obtain ⟨b, hb⟩ := Dev.onPulse_of_arrives harrives (fun e => e.gstart (e.obj 0x2B80 0x02))
        have hdev : d.gstartLine = (d.withHeard b).gstart (d.obj 0x2B80 0x02) := (if_pos hruns).trans hb
        have hpost := Dev.gstart_of (d := d) (e := d.withHeard b) (mask := d.obj 0x2B80 0x02) rfl (fun _ => rfl) rfl (fun _ _ => rfl)
        have hsame := ((d.withHeard b).gstart_releases (d.obj 0x2B80 0x02)).2.2.2
        rw [← hdev] at hpost hsame
        exact State.does_of_dev (u := d.gstartLine) rfl hpost hsame
  · intro d i r hruns hsrc
    refine ⟨fun harrives => ?_, fun harrives => ?_⟩
    · obtain ⟨b, hdev⟩ := Dev.captureRise_takes hruns hsrc harrives
      obtain ⟨hshows, hsame⟩ := (d.withHeard b).captureRose_shows n
      rw [← hdev, Dev.withHeard_timerCount] at hshows
      rw [← hdev] at hsame
      exact State.does_of_dev (u := d.captureRise n) rfl hshows hsame
    · obtain ⟨b, hdev⟩ := Dev.captureFall_takes hruns hsrc harrives
      obtain ⟨hshows, hsame⟩ := (d.withHeard b).captureFell_shows n
      rw [← hdev] at hshows hsame
      exact State.does_of_dev (u := d.captureFall n) rfl hshows hsame

end Sys2Proof.Machine
end

section
/-! SUPPORT. Requests to a Lantern engine and its ring transfers (R381, R388, R394 to R396): the enable, program words, an injection, and the
symbols that its master moves. -/

namespace Sys2Proof.Machine

@[simp] theorem Dev.lan_setLan_self (d : Dev) (e : Nat) (l : Lan) : (d.setLan e l).lan e = l := Store.get_put_self ..

theorem Dev.lan_congr {d e : Dev} (h : e.lans = d.lans) (n : Nat) : e.lan n = d.lan n := by
  unfold Dev.lan
  rw [h]

theorem Dev.setObj_lan (d : Dev) (i u v n : Nat) : (d.setObj i u v).lan n = d.lan n := Dev.lan_congr rfl n

theorem Dev.writtenBy_regs (d : Dev) (who i : Nat) : (d.writtenBy who i).regs = d.regs := rfl

/-- The objects of a Lantern engine. -/
def lanternBlock : ObjBlock := ⟨0x2C00, 8, .lantern, lanternRows⟩

theorem lanternBlock_enable (e : Fin 8) : lanternBlock.Value (0x2C00 + e) 0x01 1 := ⟨by revert e; decide, by revert e; decide +kernel⟩
theorem lanternBlock_inject (e : Fin 8) : lanternBlock.Command (0x2C00 + e) 0x1A 4 := ⟨by revert e; decide, by revert e; decide +kernel⟩

/-! ### The enable (R381) -/

theorem Dev.lanOn_regs (d : Dev) (e : Nat) : (d.lanOn e).regs = d.regs := rfl

theorem Dev.lanOn_lan (d : Dev) (e : Nat) : ((d.lanOn e).lan e).pc = d.obj (0x2C00 + e) 0x10 ∧
    ((d.lanOn e).lan e).outs = d.obj (0x2C00 + e) 0x06 ∧ ((d.lanOn e).lan e).cur = none := by
  simp [Dev.lanOn]

theorem Dev.lanOff_regs (d : Dev) (e : Nat) : (d.lanOff e).regs = (d.setObj (0x2C00 + e) 0x1B 0).regs := rfl

theorem Dev.lanOff_lan (d : Dev) (e : Nat) : ((d.lanOff e).lan e).outs = 0 ∧ ((d.lanOff e).lan e).cur = none ∧
    ((d.lanOff e).lan e).inject = none := by
  have hlan : (d.lanOff e).lan e = { (d.lan e) with cur := none, reason := 0, outs := 0, inject := none } :=
    (Dev.setObj_lan ..).trans (Dev.lan_setLan_self ..)
  rw [hlan]
  exact ⟨rfl, rfl, rfl⟩

/-- An accepted write of enable stores it and turns the engine on or off. -/
theorem Dev.accept_enable (g : Dev) (r : Req) (e : Fin 8) (v : Nat) :
    (g.sendPart (oneWr r (0x2C00 + e) 0x01 1 v lanternBlock)).accept (oneWr r (0x2C00 + e) 0x01 1 v lanternBlock) =
      Dev.lanternHook g ((g.setObj (0x2C00 + e) 0x01 (v % 256 ^ 1)).writtenBy r.port (0x2C00 + e))
        (oneWr r (0x2C00 + e) 0x01 1 v lanternBlock) := by
  have hsend : g.sendPart (oneWr r (0x2C00 + e) 0x01 1 v lanternBlock) = g := rfl
  rw [hsend]
  unfold Dev.accept
  rw [Dev.stored_value g (lanternBlock_enable e)]
  simp [Dev.hooks, Wr.master, oneWr, hostWr, lanternBlock]

/-- What the block does with a write of enable, where it changes. -/
theorem Dev.lanternHook_on {g d : Dev} {r : Req} {e : Fin 8} (h : g.obj (0x2C00 + e) 0x01 = 0) :
    Dev.lanternHook g d (oneWr r (0x2C00 + e) 0x01 1 1 lanternBlock) = d.lanOn e := by
  simp [Dev.lanternHook, Wr.val, oneWr, hostWr, lanternBlock, h]

theorem Dev.lanternHook_off {g d : Dev} {r : Req} {e : Fin 8} (h : g.obj (0x2C00 + e) 0x01 = 1) :
    Dev.lanternHook g d (oneWr r (0x2C00 + e) 0x01 1 0 lanternBlock) = d.lanOff e := by
  simp [Dev.lanternHook, Wr.val, oneWr, hostWr, lanternBlock, h]

theorem State.lanternEnable_does {s : State} {t : Nat} {r : Req} {e : Fin 8} (h : s.takes t r (0x2C00 + e) 0x01 1 1 = true)
    (hoff : (s.devAt t).obj (0x2C00 + e) 0x01 = 0) : s.does t (.lanternEnable t r e) [(0x2C00 + e.val, 0x01)] (fun u =>
      u.obj (0x2C00 + e) 0x01 = 1 ∧ (u.lan e).pc = (s.devAt t).obj (0x2C00 + e) 0x10 ∧
        (u.lan e).outs = (s.devAt t).obj (0x2C00 + e) 0x06 ∧ (u.lan e).cur = none) := by
  obtain ⟨hb, row, hr, hn, hty, hc, -⟩ := lanternBlock_enable e
  refine State.does_of_write h rfl hb hr hn hty (by decide) (fun g f hg hginner hfregs hfinner => ?_)
  have hkept : ∀ u < 256, g.obj (0x2C00 + e) u = (s.devAt t).obj (0x2C00 + e) u := fun u hu => hg _ _ hu (by simp [portObjs, portObj]; omega)
  rw [Dev.accept_enable, Dev.lanternHook_on ((hkept _ (by decide)).trans hoff)] at hfregs hfinner
  rw [Dev.commands_value f hr hc]
  rw [Dev.lanOn_regs, Dev.writtenBy_regs] at hfregs
  obtain ⟨hpc, houts, hcur⟩ := Dev.lanOn_lan ((g.setObj (0x2C00 + e) 0x01 (1 % 256 ^ 1)).writtenBy r.port (0x2C00 + e)) e
  rw [← Dev.lan_congr (Dev.lans_of_inner hfinner)] at hpc houts hcur
  have hobj : ∀ u < 256, u ≠ 0x01 → ((g.setObj (0x2C00 + e) 0x01 (1 % 256 ^ 1)).writtenBy r.port (0x2C00 + e)).obj (0x2C00 + e) u =
      (s.devAt t).obj (0x2C00 + e) u := fun u hu hne =>
    (Dev.obj_congr (Dev.writtenBy_regs ..) ..).trans ((Dev.obj_setObj_sub _ _ (by decide) hu hne).trans (hkept u hu))
  refine ⟨⟨(Dev.obj_congr hfregs ..).trans (Dev.obj_setObj_self ..), hpc.trans (hobj _ (by decide) (by decide)),
    houts.trans (hobj _ (by decide) (by decide)), hcur⟩, ?_⟩
  exact ((Dev.sameBut_refl g _).setObj _ (by decide) (by simp)).regs hfregs

theorem State.lanternDisable_does {s : State} {t : Nat} {r : Req} {e : Fin 8} (h : s.takes t r (0x2C00 + e) 0x01 1 0 = true)
    (hon : (s.devAt t).obj (0x2C00 + e) 0x01 = 1) :
    s.does t (.lanternDisable t r e) [(0x2C00 + e.val, 0x01), (0x2C00 + e.val, 0x1B)] (fun u =>
      u.obj (0x2C00 + e) 0x01 = 0 ∧ u.obj (0x2C00 + e) 0x1B = 0 ∧ (u.lan e).outs = 0 ∧ (u.lan e).cur = none ∧ (u.lan e).inject = none) := by
  obtain ⟨hb, row, hr, hn, hty, hc, -⟩ := lanternBlock_enable e
  refine State.does_of_write h rfl hb hr hn hty (by decide) (fun g f hg hginner hfregs hfinner => ?_)
  have hwas : g.obj (0x2C00 + e) 0x01 = 1 := (hg _ _ (by decide) (by simp [portObjs, portObj]; omega)).trans hon
  rw [Dev.accept_enable, Dev.lanternHook_off hwas] at hfregs hfinner
  rw [Dev.commands_value f hr hc]
  rw [Dev.lanOff_regs] at hfregs
  obtain ⟨houts, hcur, hinject⟩ := Dev.lanOff_lan ((g.setObj (0x2C00 + e) 0x01 (0 % 256 ^ 1)).writtenBy r.port (0x2C00 + e)) e
  rw [← Dev.lan_congr (Dev.lans_of_inner hfinner)] at houts hcur hinject
  refine ⟨⟨(Dev.obj_congr hfregs ..).trans ?_, (Dev.obj_congr hfregs ..).trans (Dev.obj_setObj_self ..), houts, hcur, hinject⟩, ?_⟩
  · rw [Dev.obj_setObj_sub _ _ (by decide) (by decide) (by decide), Dev.obj_congr (Dev.writtenBy_regs ..)]
    exact Dev.obj_setObj_self ..
  · exact ((((Dev.sameBut_refl g _).setObj _ (by decide) (by simp)).regs (Dev.writtenBy_regs ..)).setObj _ (by decide) (by simp)).regs hfregs

/-! ### Injections (R395) -/

/-- The write of an injection stores nothing, and the block does nothing more with it before its command. -/
theorem Dev.accept_inject (g : Dev) (r : Req) (e : Fin 8) (v : Nat) :
    (g.sendPart (oneWr r (0x2C00 + e) 0x1A 4 v lanternBlock)).accept (oneWr r (0x2C00 + e) 0x1A 4 v lanternBlock) =
      g.writtenBy r.port (0x2C00 + e) := by
  have hsend : g.sendPart (oneWr r (0x2C00 + e) 0x1A 4 v lanternBlock) = g := rfl
  rw [hsend]
  unfold Dev.accept
  rw [Dev.stored_command g (lanternBlock_inject e)]
  simp [Dev.hooks, Dev.lanternHook, Wr.val, Wr.master, oneWr, hostWr, lanternBlock]

theorem Dev.injectSet_regs (d : Dev) (e v : Nat) : (d.injectSet e v).regs = (d.setObj (0x2C00 + e) 0x1B 1).regs := rfl

theorem Dev.injectSet_lan (d : Dev) (e v : Nat) :
    (d.injectSet e v).lan e = { (d.lan e) with inject := some (v % 65536, v.testBit 16, d.now) } :=
  (Dev.setObj_lan ..).trans (Dev.lan_setLan_self ..)

theorem State.inject_does {s : State} {t : Nat} {r : Req} {e : Fin 8} {v : Nat} (h : s.takes t r (0x2C00 + e) 0x1A 4 v = true) :
    s.does t (.inject t r e v) [(0x2C00 + e.val, 0x1B)] (fun u => u.obj (0x2C00 + e) 0x1B = 1 ∧
      u.lan e = { (s.devAt t).lan e with inject := some (v % 65536, v.testBit 16, (s.devAt t).now) }) := by
  refine State.does_of_bareCommand h rfl (lanternBlock_inject e) (by decide) (Dev.accept_inject · r e v) (fun f hf hinner => ?_)
  have hcmd : f.command (oneWr r (0x2C00 + e) 0x1A 4 v lanternBlock) 0x1A (v % 256 ^ 4) = f.injectSet e (v % 256 ^ 4) := by
    simp [Dev.command, Dev.blockCommand, oneWr, hostWr, lanternBlock]
  have hword : v % 256 ^ 4 % 65536 = v % 65536 := Nat.mod_mod_of_dvd v (by decide)
  have habort : (v % 256 ^ 4).testBit 16 = v.testBit 16 := by
    rw [show 256 ^ 4 = 2 ^ 32 by decide, Nat.testBit_mod_two_pow]
    rfl
  rw [hcmd]
  have hregs := Dev.injectSet_regs f e (v % 256 ^ 4)
  refine ⟨⟨(Dev.obj_congr hregs ..).trans (Dev.obj_setObj_self ..), ?_⟩, ((Dev.sameBut_refl f _).setObj _ (by decide) (by simp)).regs hregs⟩
  rw [Dev.injectSet_lan, hword, habort, Dev.lan_congr (Dev.lans_of_inner hinner), Dev.now_of_inner hinner]

/-! ### Program words (R394) -/

/-- The values of words written from a subindex on. -/
def wordPuts : Nat → List Nat → List Put
  | _, [] => []
  | u, w :: ws => ⟨u, w % 65536, leBytes 2 w⟩ :: wordPuts (u + 1) ws

theorem wordPuts_subs (u : Nat) (words : List Nat) : (wordPuts u words).map (·.sub) = List.range' u words.length := by
  induction words generalizing u with
  | nil => rfl
  | cons w ws ih => simp [wordPuts, ih, List.range'_succ]

theorem mem_wordPuts {u : Nat} {words : List Nat} {k : Nat} (h : k < words.length) :
    ∃ q ∈ wordPuts u words, q.sub = u + k ∧ q.raw = words.getD k 0 % 65536 := by
  induction words generalizing u k with
  | nil => simp at h
  | cons w ws ih =>
    cases k with
    | zero => exact ⟨_, List.mem_cons_self .., rfl, rfl⟩
    | succ k =>
      obtain ⟨q, hq, hsub, hraw⟩ := ih (u := u + 1) (by simpa using h)
      exact ⟨q, List.mem_cons_of_mem _ hq, by omega, by simpa using hraw⟩

/-- Words split by objects of two symbols as they were laid out. -/
theorem splitPuts_words {i u : Nat} {words : List Nat}
    (h : ∀ w ∈ List.range' u words.length, ∃ row, objRow i w = some row ∧ row.ty = .u16) :
    splitPuts i (List.range' u words.length) (words.flatMap (leBytes 2)) = some (wordPuts u words) := by
  induction words generalizing u with
  | nil => rfl
  | cons w ws ih =>
    have hrows : ∀ x ∈ List.range' (u + 1) ws.length, ∃ row, objRow i x = some row ∧ row.ty = .u16 := fun x hx =>
      h x (by rw [List.length_cons, List.range'_succ]; exact List.mem_cons_of_mem _ hx)
    obtain ⟨row, hrow, hty⟩ := h u (by rw [List.length_cons, List.range'_succ]; exact List.mem_cons_self ..)
    have hsize : OTy.size .u16 = 2 := rfl
    have htake : (leBytes 2 w ++ ws.flatMap (leBytes 2)).take 2 = leBytes 2 w := List.take_left' (leBytes_length 2 w)
    have hdrop : (leBytes 2 w ++ ws.flatMap (leBytes 2)).drop 2 = ws.flatMap (leBytes 2) := List.drop_left' (leBytes_length 2 w)
    rw [List.length_cons, List.range'_succ, List.flatMap_cons]
    unfold splitPuts
    simp only [hrow, hty, hsize, htake, hdrop, ih hrows, ofLe_leBytes, List.length_append, leBytes_length, Nat.le_add_right, decide_true,
      if_true, Option.map_some]
    rfl

/-- An accepted WRITE of values has met no refusal and is applied. -/
theorem State.answer_of_write {s : State} {t : Nat} {r : Req} {i u count : Nat} {data : List Byte}
    (h : s.serves t (putFrame r i u count data) 0 true = true) :
    ∃ b puts, blockOf i = some b ∧ splitPuts i (subsOf (putFrame r i u count data)) data = some puts ∧
      s.answer t (putFrame r i u count data) = ((s.devAt t).served (putFrame r i u count data)).applied (hostWr r.port i b puts) ∧
      ((s.devAt t).served (putFrame r i u count data)).wRefusal savedBankValid (hostWr r.port i b puts) = none := by
  have hok := State.answer_ok h
  unfold State.answer at hok ⊢
  rw [frameUnpad_putFrame] at hok ⊢
  obtain ⟨b, puts, hb, hputs, happlied⟩ := sopWrite_ok (d := (s.devAt t).served (putFrame r i u count data)) hok
  obtain ⟨b', puts', hb', hputs', hnone⟩ := sopWrite_unrefused (d := (s.devAt t).served (putFrame r i u count data)) hok
  obtain rfl : b' = b := Option.some.inj (hb'.symm.trans hb)
  obtain rfl : puts' = puts := Option.some.inj (hputs'.symm.trans hputs)
  exact ⟨b', puts', hb, hputs, happlied, hnone⟩

/-- The program words of an engine, and the object behind them. -/
theorem lanternBlock_words (e : Fin 8) : (∀ k : Fin 32, ∃ row, objRow (0x2C00 + e) (0x20 + k) = some row ∧ row.ty = .u16 ∧ row.acc = .rw) ∧
    ∃ row, objRow (0x2C00 + e) 0x40 = some row ∧ row.acc = .ro := by
  have hwords : ∀ (e : Fin 8) (k : Fin 32), (objRow (0x2C00 + e) (0x20 + k)).map (fun r => (r.ty, r.acc)) = some (.u16, .rw) := by
    decide +kernel
  have hbehind : ∀ e : Fin 8, (objRow (0x2C00 + e) 0x40).map (·.acc) = some .ro := by decide +kernel
  refine ⟨fun k => ?_, ?_⟩
  · obtain ⟨row, hrow, hboth⟩ := Option.map_eq_some_iff.mp (hwords e k)
    exact ⟨row, hrow, congrArg Prod.fst hboth, congrArg Prod.snd hboth⟩
  · exact Option.map_eq_some_iff.mp (hbehind e)

/-- A write that is accepted names no object that is only read. -/
theorem Wr.not_ro {d : Dev} {valid : NvBank → Bool} {w : Wr} (h : d.wRefusal valid w = none) : w.acc .ro = false := by
  have hlocked : d.wLocked w = false := firstStatus_none.mp h (.locked, d.wLocked w) (by simp)
  unfold Dev.wLocked at hlocked
  simp only [Bool.or_eq_false_iff] at hlocked
  obtain ⟨⟨⟨hro, -⟩, -⟩, -⟩ := hlocked
  exact hro

/-- A program write that is accepted stays within the program. -/
theorem State.programWrite_within {s : State} {t : Nat} {r : Req} {e : Fin 8} {first : Fin 32} {words : List Nat}
    (h : s.serves t (putFrame r (0x2C00 + e) (0x20 + first) words.length (words.flatMap (leBytes 2))) 0 true = true) :
    0 < words.length ∧ first.val + words.length ≤ 32 := by
  obtain ⟨b, puts, hb, hputs, -, hnone⟩ := State.answer_of_write h
  have hsubs : subsOf (putFrame r (0x2C00 + e) (0x20 + first) words.length (words.flatMap (leBytes 2))) =
      (List.range (max 1 words.length)).map (0x20 + first.val + ·) := rfl
  rw [hsubs] at hputs
  have hsome : words ≠ [] := fun hnil => by
    obtain ⟨row, hrow, hty, -⟩ := (lanternBlock_words e).1 first
    rw [hnil] at hputs
    simp [splitPuts, hrow, hty, OTy.size] at hputs
  refine ⟨List.length_pos_of_ne_nil hsome, ?_⟩
  by_contra hpast
  obtain ⟨row, hrow, hro⟩ := (lanternBlock_words e).2
  have hmem : 0x40 ∈ puts.map (·.sub) := by
    rw [splitPuts_subs hputs]
    exact List.mem_map.mpr ⟨32 - first.val, List.mem_range.mpr (by omega), by omega⟩
  obtain ⟨q, hq, hsub⟩ := List.mem_map.mp hmem
  have hacc : (hostWr r.port (0x2C00 + e) b puts).acc .ro = true := List.any_eq_true.mpr ⟨q, hq, by simp [hostWr, hsub, hrow, hro]⟩
  rw [Wr.not_ro hnone] at hacc
  cases hacc

/-- The write of program words as the device takes it. -/
def wordWr (r : Req) (e : Fin 8) (first : Fin 32) (words : List Nat) : Wr :=
  hostWr r.port (0x2C00 + e) lanternBlock (wordPuts (0x20 + first) words)

theorem State.answer_of_programWrite {s : State} {t : Nat} {r : Req} {e : Fin 8} {first : Fin 32} {words : List Nat}
    (h : s.serves t (putFrame r (0x2C00 + e) (0x20 + first) words.length (words.flatMap (leBytes 2))) 0 true = true) :
    s.answer t (putFrame r (0x2C00 + e) (0x20 + first) words.length (words.flatMap (leBytes 2))) =
      ((s.devAt t).served (putFrame r (0x2C00 + e) (0x20 + first) words.length (words.flatMap (leBytes 2)))).applied
        (wordWr r e first words) := by
  obtain ⟨hpos, hwithin⟩ := State.programWrite_within h
  obtain ⟨b, puts, hb, hputs, hanswer, -⟩ := State.answer_of_write h
  have hsubs : subsOf (putFrame r (0x2C00 + e) (0x20 + first) words.length (words.flatMap (leBytes 2))) =
      List.range' (0x20 + first.val) words.length := by
    have hmax : max 1 words.length = words.length := by omega
    show (List.range (max 1 words.length)).map (0x20 + first.val + ·) = _
    rw [hmax, List.range_eq_range', List.map_add_range', Nat.add_zero]
  have hrows : ∀ w ∈ List.range' (0x20 + first.val) words.length, ∃ row, objRow (0x2C00 + e) w = some row ∧ row.ty = .u16 := fun w hw => by
    obtain ⟨hlo, hhi⟩ := List.mem_range'_1.mp hw
    obtain ⟨row, hrow, hty, -⟩ := (lanternBlock_words e).1 ⟨w - 0x20, by omega⟩
    exact ⟨row, by rwa [show 0x20 + (w - 0x20) = w by omega] at hrow, hty⟩
  rw [hsubs, splitPuts_words hrows] at hputs
  obtain rfl : b = lanternBlock := Option.some.inj (hb.symm.trans (lanternBlock_enable e).1)
  cases hputs
  exact hanswer

/-- What a program write stores, and that it starts nothing. -/
theorem wordWr_puts {r : Req} {e : Fin 8} {first : Fin 32} {words : List Nat} (hwithin : first.val + words.length ≤ 32) :
    ∀ q ∈ (wordWr r e first words).puts, 0x20 ≤ q.sub ∧ ∃ row, objRow (0x2C00 + e) q.sub = some row ∧ row.ty = .u16 ∧ row.acc = .rw := by
  intro q hq
  have hsub : q.sub ∈ List.range' (0x20 + first.val) words.length := wordPuts_subs (0x20 + first) words ▸ List.mem_map_of_mem hq
  obtain ⟨hlo, hhi⟩ := List.mem_range'_1.mp hsub
  obtain ⟨row, hrow, hty, hacc⟩ := (lanternBlock_words e).1 ⟨q.sub - 0x20, by omega⟩
  exact ⟨by omega, row, by rwa [show 0x20 + (q.sub - 0x20) = q.sub by omega] at hrow, hty, hacc⟩

/-- Program words are stored, and nothing more happens (R394). -/
theorem Dev.accept_words (g : Dev) {r : Req} {e : Fin 8} {first : Fin 32} {words : List Nat} (hwithin : first.val + words.length ≤ 32) :
    (g.sendPart (wordWr r e first words)).accept (wordWr r e first words) =
      (g.stored (wordWr r e first words)).writtenBy r.port (0x2C00 + e) := by
  have henable : (wordWr r e first words).val 0x01 = none := by
    unfold Wr.val
    rw [Option.map_eq_none_iff, List.find?_eq_none]
    intro q hq
    have := (wordWr_puts hwithin q hq).1
    simp only [decide_eq_true_eq]
    omega
  have hsend : g.sendPart (wordWr r e first words) = g := rfl
  have hhooks : ∀ d : Dev, Dev.hooks g d (wordWr r e first words) = Dev.lanternHook g d (wordWr r e first words) := fun _ => rfl
  rw [hsend]
  unfold Dev.accept
  rw [hhooks]
  unfold Dev.lanternHook
  rw [henable]
  rfl

theorem Dev.stored_words (g : Dev) {r : Req} {e : Fin 8} {first : Fin 32} {words : List Nat} (hwithin : first.val + words.length ≤ 32) :
    (∀ k < words.length, (g.stored (wordWr r e first words)).obj (0x2C00 + e) (0x20 + first.val + k) = words.getD k 0 % 65536) ∧
      g.sameBut (g.stored (wordWr r e first words)) (fun j w =>
        ((List.range words.length).map (fun k => (0x2C00 + e.val, 0x20 + first.val + k))).contains (j, w)) := by
  have hfits : ∀ q ∈ (wordWr r e first words).puts, (wordWr r e first words).fits q := fun q hq => by
    obtain ⟨-, row, hrow, hty, hacc⟩ := wordWr_puts hwithin q hq
    exact ⟨row, hrow, by rw [hacc]; rfl, fun n hn => by rw [hty] at hn; cases hn⟩
  have hsubs : (wordWr r e first words).puts.map (·.sub) = List.range' (0x20 + first.val) words.length := wordPuts_subs ..
  obtain ⟨hkept, hread⟩ := Dev.obj_storePuts hfits (by rw [hsubs]; exact List.nodup_range') g
  refine ⟨fun k hk => ?_, fun j w hw hout => hkept j w hw (fun hin => ?_)⟩
  · obtain ⟨q, hq, hsub, hraw⟩ := mem_wordPuts (u := 0x20 + first.val) hk
    obtain ⟨-, row, hrow, hty, -⟩ := wordWr_puts (r := r) (e := e) hwithin q hq
    have hvalue := hread q hq (by simp [isBlob, wordWr, hostWr, hrow, hty, OTy.isBlob])
    rw [hsub, hraw] at hvalue
    exact hvalue
  · obtain ⟨hj, hmem⟩ := hin
    rw [hsubs] at hmem
    obtain ⟨hlo, hhi⟩ := List.mem_range'_1.mp hmem
    have hcontains : ((List.range words.length).map (fun k => (0x2C00 + e.val, 0x20 + first.val + k))).contains (j, w) = true := by
      rw [List.contains_iff_mem]
      exact List.mem_map.mpr ⟨w - (0x20 + first.val), List.mem_range.mpr (by omega), by
        rw [show 0x20 + first.val + (w - (0x20 + first.val)) = w by omega]; exact congrArg (·, w) hj.symm⟩
    exact absurd hcontains (Bool.eq_false_iff.mp hout)

theorem Dev.putBlobAt_lans (d : Dev) (i u off : Nat) (bs : List Byte) : (Dev.putBlobAt d i u off bs).lans = d.lans := by
  induction bs generalizing d off with
  | nil => rfl
  | cons b bs ih => exact (ih ..).trans rfl

/-- Values that are stored touch no engine's record. -/
theorem Dev.stored_lans (g : Dev) (w : Wr) : (g.stored w).lans = g.lans := by
  have hblob : ∀ (d : Dev) i u n bs, (d.setBlob i u n bs).lans = d.lans := fun d i u n bs => Dev.putBlobAt_lans ..
  unfold Dev.stored
  refine Dev.foldl_keeps Dev.lans (fun d q => ?_) _ _
  unfold Dev.storePut
  split
  · split
    · rfl
    · split
      · exact hblob ..
      · rfl
  · rfl

theorem State.programWrite_does {s : State} {t : Nat} {r : Req} {e : Fin 8} {first : Fin 32} {words : List Nat}
    (h : s.serves t (putFrame r (0x2C00 + e) (0x20 + first) words.length (words.flatMap (leBytes 2))) 0 true = true) :
    s.does t (.programWrite t r e first words) ((List.range words.length).map (fun k => (0x2C00 + e.val, 0x20 + first.val + k))) (fun u =>
      u.lan e = (s.devAt t).lan e ∧ ∀ k < words.length, u.obj (0x2C00 + e) (0x20 + first.val + k) = words.getD k 0 % 65536) := by
  obtain ⟨-, hwithin⟩ := State.programWrite_within h
  have hexec : exec (.programWrite t r e first words) s =
      s.requests t (putFrame r (0x2C00 + e) (0x20 + first) words.length (words.flatMap (leBytes 2))) := by
    unfold State.requests
    rw [frameUnpad_putFrame]
    rfl
  refine State.does_of_applied h (frameUnpad_putFrame ..) hexec (State.answer_of_programWrite h) rfl (fun g f hg hginner hfregs hfinner => ?_)
  rw [Dev.accept_words g hwithin] at hfregs hfinner
  have hcommands : f.commands (wordWr r e first words) = f := Dev.commands_none f (fun q hq => by
    obtain ⟨-, row, hrow, -, hacc⟩ := wordWr_puts hwithin q hq
    have hrow' : objRow (wordWr r e first words).idx q.sub = some row := hrow
    simp [Wr.isCommand, hrow', hacc])
  obtain ⟨hvalues, hsame⟩ := g.stored_words (r := r) hwithin
  rw [hcommands]
  refine ⟨⟨?_, fun k hk => (Dev.obj_congr hfregs ..).trans (hvalues k hk)⟩, ?_⟩
  · exact Dev.lan_congr ((Dev.lans_of_inner hfinner).trans ((Dev.stored_lans ..).trans (Dev.lans_of_inner hginner))) e
  · exact (hsame.mono (fun j w hp => by rw [hp, Bool.or_true])).regs hfregs

/-! ### Ring transfers (R388) -/

/-- The symbols that one access moves out of the tx ring, and into the rx ring. -/
def Dev.txSpan (d : Dev) (e : Nat) : Nat :=
  ringSpan (d.obj (0x2C00 + e) 0x11) (d.obj (0x2C00 + e) 0x12) (d.obj (0x2C00 + e) 0x16)
    (min (4 - (d.lan e).tx.length) (ringLevel (d.obj (0x2C00 + e) 0x12) (d.obj (0x2C00 + e) 0x15) (d.obj (0x2C00 + e) 0x16)))

def Dev.rxSpan (d : Dev) (e : Nat) : Nat :=
  ringSpan (d.obj (0x2C00 + e) 0x13) (d.obj (0x2C00 + e) 0x14) (d.obj (0x2C00 + e) 0x17)
    (min (d.lan e).rx.length (d.obj (0x2C00 + e) 0x14 - 4 -
      ringLevel (d.obj (0x2C00 + e) 0x14) (d.obj (0x2C00 + e) 0x17) (d.obj (0x2C00 + e) 0x18)))

/-- Symbols are taken from the tx ring. -/
def Dev.txFilled (d : Dev) (m : Store Byte) (e : Nat) : Dev :=
  ((d.accessBy 13).setLan e { (d.lan e) with tx := (d.lan e).tx ++ loftBytes m (d.obj (0x2C00 + e) 0x11 + d.obj (0x2C00 + e) 0x16) (d.txSpan e) }).setObj
    (0x2C00 + e) 0x16 ((d.obj (0x2C00 + e) 0x16 + d.txSpan e) % d.obj (0x2C00 + e) 0x12)

/-- Symbols leave the receive FIFO. -/
def Dev.rxDrained (d : Dev) (e : Nat) : Dev :=
  (d.accessBy 13).setLan e { (d.lan e) with rx := (d.lan e).rx.drop (d.rxSpan e) }

section
variable {d : Dev} {e : Nat} (hruns : d.runs 13 = true) (hon : d.pdOn 2 = true) (henabled : d.obj (0x2C00 + e) 0x01 ≠ 0)
include hruns hon henabled

theorem Dev.fifoTransfer_tx (m : Store Byte) (h : 0 < d.txSpan e) : d.fifoTransfer m e true = (d.txFilled m e, LoftEff.none) := by
  have hgo : (!d.runs 13 || !d.pdOn 2 || decide (d.obj (0x2C00 + e) 0x01 = 0)) = false := by simp [hruns, hon, henabled]
  have hsome : ¬d.txSpan e = 0 := by omega
  refine (if_neg (Bool.eq_false_iff.mp hgo)).trans ((if_pos rfl).trans ?_)
  exact if_neg hsome

theorem Dev.fifoTransfer_rx (m : Store Byte) (h : 0 < d.rxSpan e) : d.fifoTransfer m e false =
    ((d.rxDrained e).rxAdvance e (d.rxSpan e),
      { writes := [(d.obj (0x2C00 + e) 0x13 + d.obj (0x2C00 + e) 0x17, (d.lan e).rx.take (d.rxSpan e))] }) := by
  have hgo : (!d.runs 13 || !d.pdOn 2 || decide (d.obj (0x2C00 + e) 0x01 = 0)) = false := by simp [hruns, hon, henabled]
  have hsome : ¬d.rxSpan e = 0 := by omega
  refine (if_neg (Bool.eq_false_iff.mp hgo)).trans ((if_neg (by decide)).trans ?_)
  exact if_neg hsome

end

/-- A cause of an engine's source touches no object and no engine. -/
theorem Dev.lanCause_regs (d : Dev) (e b : Nat) : (d.lanCause e b).regs = d.regs := Dev.raiseIf_regs ..

theorem Dev.lanCause_lans (d : Dev) (e b : Nat) : (d.lanCause e b).lans = d.lans := by
  unfold Dev.lanCause Dev.raiseIf Dev.raise
  dsimp only
  split_ifs <;> rfl

/-- The write index of a receive ring moves on; the engine's record stands. -/
theorem Dev.rxAdvance_moves (d : Dev) (e n : Nat) :
    (d.rxAdvance e n).obj (0x2C00 + e) 0x17 = (d.obj (0x2C00 + e) 0x17 + n) % d.obj (0x2C00 + e) 0x14 ∧
      (d.rxAdvance e n).lan e = d.lan e ∧
      d.sameBut (d.rxAdvance e n) (fun j w => [(0x2C00 + e, 0x17), (0x2C00 + e, 0x4D)].contains (j, w)) := by
  have hset := Dev.obj_setObj_self d (0x2C00 + e) 0x17 ((d.obj (0x2C00 + e) 0x17 + n) % d.obj (0x2C00 + e) 0x14)
  have hsame : d.sameBut (d.setObj (0x2C00 + e) 0x17 ((d.obj (0x2C00 + e) 0x17 + n) % d.obj (0x2C00 + e) 0x14))
      (fun j w => [(0x2C00 + e, 0x17), (0x2C00 + e, 0x4D)].contains (j, w)) := (Dev.sameBut_refl _ _).setObj _ (by decide) (by simp)
  unfold Dev.rxAdvance
  dsimp only
  split
  · refine ⟨?_, ?_, (hsame.inc (by decide) (by simp)).regs (Dev.lanCause_regs ..)⟩
    · rw [Dev.obj_congr (Dev.lanCause_regs ..), Dev.obj_inc _ (by decide) (by decide), if_neg (by simp)]
      exact hset
    · exact (Dev.lan_congr (Dev.lanCause_lans ..) e).trans ((Dev.setObj_lan ..).trans (Dev.setObj_lan ..))
  · exact ⟨hset, Dev.setObj_lan .., hsame⟩

/-! ### The statement -/

/-- Settles O43: a write reaches its engine by the block's reaction or by its command alone, and a transfer moves one access's symbols. -/
theorem lanternRequestsAndRings : Obligations.LanternRequestsAndRings := by
  refine ⟨fun s t r e => ?_, fun s t e => ?_⟩
  · intro d i l
    exact ⟨State.lanternEnable_does, State.lanternDisable_does, fun first words => State.programWrite_does, fun v => State.inject_does⟩
  · intro d i l n k hruns hon henabled
    refine ⟨fun hn => ?_, fun hk => ?_⟩
    · have hexec := State.onBoth_eq (c := .fifoTransfer t e true) (s := s) (f := fun m d => d.fifoTransfer m e true) rfl
        (Dev.fifoTransfer_tx hruns hon henabled s.loft hn)
      have hlan : (d.txFilled s.loft e).lan e = { l with tx := l.tx ++ loftBytes s.loft (d.obj i 0x11 + d.obj i 0x16) n } :=
        (Dev.setObj_lan ..).trans (Dev.lan_setLan_self ..)
      have htx : ((d.txFilled s.loft e).lan e).tx = l.tx ++ loftBytes s.loft (d.obj i 0x11 + d.obj i 0x16) n := by rw [hlan]
      have hrx : ((d.txFilled s.loft e).lan e).rx = l.rx := by rw [hlan]
      refine ⟨_, hexec, ⟨Dev.obj_setObj_self .., htx, hrx⟩, rfl, ?_⟩
      exact ((Dev.sameBut_refl d _).setObj _ (by decide) (by simp [i])).regs rfl
    · have hexec := State.onBoth_eq (c := .fifoTransfer t e false) (s := s) (f := fun m d => d.fifoTransfer m e false) rfl
        (Dev.fifoTransfer_rx hruns hon henabled s.loft hk)
      obtain ⟨hindex, hlan, hsame⟩ := (d.rxDrained e).rxAdvance_moves e k
      have hdrained : (d.rxDrained e).lan e = { l with rx := l.rx.drop k } := Dev.lan_setLan_self ..
      have hrx : (((d.rxDrained e).rxAdvance e k).lan e).rx = l.rx.drop k := by rw [hlan, hdrained]
      have htx : (((d.rxDrained e).rxAdvance e k).lan e).tx = l.tx := by rw [hlan, hdrained]
      exact ⟨_, hexec, fun q => loftByte_put .., hsame, hindex, hrx, htx⟩

end Sys2Proof.Machine
end

section
/-! SUPPORT. A tick of a Lantern engine (R382, R383, R389, R393, R395): what every instruction leaves alone, what the end of a tick makes of
the engine's record, and the fetch and the injection that set an instruction up. -/

namespace Sys2Proof.Machine

/-! ### What executing leaves alone -/

/-- Between two devices an instruction of an engine has executed: the IR and a pending injection stand, and no object has changed but
the FIFO counters and inject_state. -/
structure Dev.LanStep (e : Nat) (d f : Dev) : Prop where
  ir : (f.lan e).ir = (d.lan e).ir
  inject : (f.lan e).inject = (d.lan e).inject
  same : d.sameBut f (fun j w => [(0x2C00 + e, 0x4B), (0x2C00 + e, 0x4C), (0x2C00 + e, 0x1B)].contains (j, w))

theorem Dev.LanStep.refl (e : Nat) (d : Dev) : d.LanStep e d := ⟨rfl, rfl, Dev.sameBut_refl _ _⟩

theorem Dev.LanStep.trans {e : Nat} {d f g : Dev} (h : d.LanStep e f) (k : f.LanStep e g) : d.LanStep e g :=
  ⟨k.ir.trans h.ir, k.inject.trans h.inject, h.same.trans k.same⟩

/-- A record with the same IR and injection is stored. -/
theorem Dev.setLan_step {e : Nat} (d : Dev) {l : Lan} (hir : l.ir = (d.lan e).ir) (hinject : l.inject = (d.lan e).inject) :
    d.LanStep e (d.setLan e l) :=
  ⟨(congrArg Lan.ir (Dev.lan_setLan_self ..)).trans hir, (congrArg Lan.inject (Dev.lan_setLan_self ..)).trans hinject,
    Dev.sameBut_of_regs rfl⟩

/-- Objects and engines are left alone. -/
theorem Dev.LanStep.of_eq {e : Nat} {d f : Dev} (hregs : f.regs = d.regs) (hlans : f.lans = d.lans) : d.LanStep e f :=
  ⟨by rw [Dev.lan_congr hlans], by rw [Dev.lan_congr hlans], Dev.sameBut_of_regs hregs⟩

theorem Dev.lanCause_step (d : Dev) (e b : Nat) : d.LanStep e (d.lanCause e b) := .of_eq (Dev.lanCause_regs ..) (Dev.lanCause_lans ..)

/-- A FIFO counter counts, or inject_state is set. -/
theorem Dev.setObj_step (d : Dev) {e u : Nat} (hu : u ∈ [0x4B, 0x4C, 0x1B]) (v : Nat) : d.LanStep e (d.setObj (0x2C00 + e) u v) := by
  have hsmall : u < 256 := by simp at hu; omega
  exact ⟨by rw [Dev.setObj_lan], by rw [Dev.setObj_lan], (Dev.sameBut_refl _ _).setObj _ hsmall (by simp at hu ⊢; exact hu)⟩

theorem Dev.setCur_step (d : Dev) (e : Nat) (c : LanCur) : d.LanStep e (d.setCur e c) := d.setLan_step rfl rfl

theorem Dev.drive_step (d : Dev) (e k : Nat) (v : Bool) : d.LanStep e (d.drive e k v) := by
  unfold Dev.drive
  split
  · exact d.setLan_step rfl rfl
  · exact .refl e d

theorem Dev.driveAll_step (d : Dev) (e v : Nat) : d.LanStep e (d.driveAll e v) := by
  have hall : ∀ (l : List Nat) (f : Dev), f.LanStep e (l.foldl (fun f k => f.drive e k (v.testBit k)) f) := fun l => by
    induction l with
    | nil => exact fun f => .refl e f
    | cons k l ih => exact fun f => (f.drive_step e k _).trans (ih _)
  exact hall _ d

theorem Dev.setK_step (d : Dev) (e k v : Nat) : d.LanStep e (d.setK e k v) := by
  unfold Dev.setK
  dsimp only
  split
  · exact d.setLan_step rfl rfl
  · exact d.setLan_step rfl rfl

theorem Dev.lanCond_step (d : Dev) (e pins c : Nat) : d.LanStep e (d.lanCond e pins c).1 := by
  unfold Dev.lanCond
  dsimp only
  split
  case h_3 => exact d.setLan_step rfl rfl
  case h_5 => exact d.setLan_step rfl rfl
  all_goals exact .refl e d

theorem Dev.execMov_step (d : Dev) (e w pins : Nat) : d.LanStep e (d.execMov e w pins) := by
  unfold Dev.execMov
  extract_lets l src v
  split
  · exact d.driveAll_step ..
  · exact d.setK_step ..
  · exact d.setK_step ..
  · exact d.setLan_step rfl rfl
  · exact d.setLan_step rfl rfl
  · exact d.setLan_step rfl rfl

theorem Dev.execSet_step (d : Dev) (e w : Nat) : d.LanStep e (d.execSet e w) := by
  unfold Dev.execSet
  dsimp only
  split
  · exact d.drive_step ..
  · exact d.driveAll_step ..
  · exact d.setK_step ..
  · exact d.setK_step ..

theorem Dev.pull_step {d f : Dev} {e : Nat} (h : d.pull e = some f) : d.LanStep e f := by
  unfold Dev.pull at h
  dsimp only at h
  split at h
  · cases h
  · exact Option.some.inj h ▸ d.setLan_step rfl rfl

theorem Dev.push_step {d f : Dev} {e : Nat} (h : d.push e = some f) : d.LanStep e f := by
  unfold Dev.push at h
  dsimp only at h
  split at h
  · cases h
  · exact Option.some.inj h ▸ d.setLan_step rfl rfl

theorem Dev.shiftOut_step {d f : Dev} {e : Nat} {b : Bool} (h : d.shiftOut e = some (f, b)) : d.LanStep e f := by
  unfold Dev.shiftOut at h
  dsimp only at h
  obtain ⟨g, hg, hf⟩ := Option.map_eq_some_iff.mp h
  have hload : d.LanStep e g := by
    split at hg
    · exact Dev.pull_step hg
    · exact Option.some.inj hg ▸ .refl e d
  rw [← (Prod.mk.inj hf).1]
  exact hload.trans (g.setLan_step rfl rfl)

theorem Dev.shiftIn_step {d f : Dev} {e : Nat} {b : Bool} (h : d.shiftIn e b = some f) : d.LanStep e f := by
  unfold Dev.shiftIn at h
  extract_lets l l' g at h
  have hstored : d.LanStep e g := d.setLan_step rfl rfl
  split at h
  · exact hstored.trans (Dev.push_step h)
  · exact Option.some.inj h ▸ hstored

/-! ### What a tick makes of an instruction -/

/-- The device that a tick leaves. -/
def Tick.dev : Tick → Dev
  | .done d => d
  | .wait d _ => d
  | .more d => d

theorem Dev.outRun_step (d : Dev) (e n fuel : Nat) : d.LanStep e (d.outRun e n fuel).dev := by
  induction fuel generalizing d with
  | zero => exact .refl e d
  | succ fuel ih =>
    unfold Dev.outRun
    dsimp only
    split
    · exact .refl e d
    · split
      · exact .refl e d
      · next f b hf => exact (Dev.shiftOut_step hf).trans ((f.setCur_step ..).trans (ih _))

theorem Dev.inRun_step (d : Dev) (e n v fuel : Nat) : d.LanStep e (d.inRun e n v fuel).dev := by
  induction fuel generalizing d with
  | zero => exact .refl e d
  | succ fuel ih =>
    unfold Dev.inRun
    dsimp only
    split
    · exact .refl e d
    · split
      · exact .refl e d
      · next f hf => exact (Dev.shiftIn_step hf).trans ((f.setCur_step ..).trans (ih _))

theorem Dev.execOut_step (d : Dev) (e w : Nat) : d.LanStep e (d.execOut e w).dev := by
  unfold Dev.execOut
  dsimp only
  split
  · split
    · exact .refl e d
    · next f b hf =>
      have hbit : ∀ k v c, d.LanStep e ((f.drive e k v).setCur e c) := fun k v c =>
        ((Dev.shiftOut_step hf).trans (f.drive_step e k v)).trans (Dev.setCur_step _ e c)
      split
      · exact hbit ..
      · exact hbit ..
  · have hrun := d.outRun_step e (d.shiftCount e w) 33
    split
    · next f hf =>
      rw [hf] at hrun
      refine hrun.trans ?_
      unfold Tick.dev
      split_ifs
      · exact f.setK_step ..
      · exact f.setK_step ..
      · exact .refl e f
    · exact hrun

theorem Dev.execIn_step (d : Dev) (e w pins : Nat) : d.LanStep e (d.execIn e w pins).dev := by
  unfold Dev.execIn
  dsimp only
  split
  · split
    · exact .refl e d
    · next f hf =>
      have hbit : ∀ c, d.LanStep e (f.setCur e c) := fun c => (Dev.shiftIn_step hf).trans (f.setCur_step e c)
      split
      · exact hbit _
      · exact hbit _
  · exact d.inRun_step ..
  · exact d.inRun_step ..
  · exact d.inRun_step ..

theorem Dev.execWait_step (d : Dev) (e w pins : Nat) : d.LanStep e (d.execWait e w pins).dev := by
  unfold Dev.execWait
  dsimp only
  split
  · split
    · exact d.setCur_step ..
    · split
      · exact .refl e d
      · exact .refl e d
  · have hcond := d.lanCond_step e pins (bitsOf w 10 6)
    split
    · exact hcond
    · exact hcond

theorem Dev.execFifo_step (d : Dev) (e w : Nat) : d.LanStep e (d.execFifo e w).dev := by
  unfold Dev.execFifo
  split
  · split
    · next f hf => exact Dev.pull_step hf
    · split
      · exact .refl e d
      · exact (d.setObj_step (by decide) _).trans (Dev.lanCause_step ..)
  · split
    · next f hf => exact Dev.push_step hf
    · split
      · exact .refl e d
      · have hdrop : d.LanStep e (d.setLan e { (d.lan e) with ish := 0, ishN := 0 }) := d.setLan_step rfl rfl
        exact (hdrop.trans (Dev.setObj_step _ (u := 0x4B) (by decide) _)).trans (Dev.lanCause_step ..)

theorem Dev.execEvt_lans (d : Dev) (e w : Nat) : (d.execEvt e w).lans = d.lans := by
  have hpulse : (d.pulseIf (w.testBit 6) (240 + e)).lans = d.lans := by
    unfold Dev.pulseIf Dev.pulse Dev.pulseAt
    split_ifs <;> rfl
  unfold Dev.execEvt
  dsimp only
  split
  · exact (Dev.lanCause_lans ..).trans hpulse
  · exact hpulse

theorem Dev.execEvt_step (d : Dev) (e w : Nat) : d.LanStep e (d.execEvt e w) := by
  refine .of_eq ?_ (d.execEvt_lans e w)
  unfold Dev.execEvt
  dsimp only
  split
  · exact (Dev.lanCause_regs ..).trans (Dev.pulseIf_regs ..)
  · exact Dev.pulseIf_regs ..

/-- Every instruction leaves the IR, a pending injection and the other objects alone. -/
theorem Dev.execTick_step (d : Dev) (e pins : Nat) : d.LanStep e (d.execTick e pins).dev := by
  have hcond : ∀ c, d.LanStep e (d.lanCond e pins c).1 := d.lanCond_step e pins
  unfold Dev.execTick
  dsimp only
  split
  · exact d.execEvt_step ..
  · exact d.execSet_step ..
  · exact d.execMov_step ..
  · unfold Tick.dev
    dsimp only
    split
    · exact (hcond _).trans (Dev.setLan_step _ rfl rfl)
    · exact hcond _
  · exact d.execWait_step ..
  · split
    · split
      · exact (hcond _).trans ((Dev.setCur_step ..).trans (Dev.execOut_step ..))
      · exact hcond _
    · exact d.execOut_step ..
  · split
    · split
      · exact (hcond _).trans ((Dev.setCur_step ..).trans (Dev.execIn_step ..))
      · exact hcond _
    · exact d.execIn_step ..
  · exact d.execFifo_step ..

theorem Dev.lanEnd_step (d : Dev) (e : Nat) : d.LanStep e (d.lanEnd e) := by
  have hfree : d.LanStep e (d.setLan e { (d.lan e) with cur := none, reason := 0 }) := d.setLan_step rfl rfl
  unfold Dev.lanEnd
  dsimp only
  split
  · exact hfree.trans (Dev.setObj_step _ (by decide) _)
  · exact hfree

theorem Dev.lanRun_step (d : Dev) (e pins : Nat) : d.LanStep e (d.lanRun e pins) := by
  have hexec := d.execTick_step e pins
  unfold Dev.lanRun
  dsimp only
  split
  · split
    · exact d.lanEnd_step e
    · exact d.setCur_step ..
  · split
    · next f r hf =>
      rw [hf] at hexec
      exact hexec.trans (f.setLan_step rfl rfl)
    · next f hf =>
      rw [hf] at hexec
      exact hexec.trans (f.setLan_step rfl rfl)
    · next f hf =>
      rw [hf] at hexec
      have hgo : f.LanStep e (f.setLan e { (f.lan e) with reason := 0 }) := f.setLan_step rfl rfl
      split
      · exact hexec.trans (f.lanEnd_step e)
      · exact (hexec.trans hgo).trans (Dev.setCur_step ..)

/-! ### The end of an instruction (R383, R393) -/

/-- An engine's record as an instruction ends on its tick: it begins its delay, or the engine is free. -/
def Lan.ended (l : Lan) (w : Nat) : Lan :=
  { l with cur := if bitsOf w 5 3 = 0 then none else some { l.cur.getD {} with delay := some (bitsOf w 5 3), bits := 0 }, reason := 0 }

theorem Dev.lanEnd_lan (d : Dev) (e : Nat) : (d.lanEnd e).lan e = { (d.lan e) with cur := none, reason := 0 } := by
  unfold Dev.lanEnd
  dsimp only
  split
  · exact (Dev.setObj_lan ..).trans (Dev.lan_setLan_self ..)
  · exact Dev.lan_setLan_self ..

theorem Dev.lanEnd_same (d : Dev) (e : Nat) : d.sameBut (d.lanEnd e) (fun j w => [(0x2C00 + e, 0x1B)].contains (j, w)) := by
  unfold Dev.lanEnd
  dsimp only
  split
  · exact (Dev.sameBut_of_regs rfl).setObj _ (by decide) (by simp)
  · exact Dev.sameBut_of_regs rfl

/-- An injected instruction's end shows in inject_state, where none is pending (R395). -/
theorem Dev.lanEnd_shows {d : Dev} {e : Nat} (hinj : (d.lanCur e).inj = true) (hnone : (d.lan e).inject = none) :
    (d.lanEnd e).obj (0x2C00 + e) 0x1B = if (d.lanCur e).abort then 3 else 2 := by
  unfold Dev.lanEnd
  simp [hinj, hnone]

/-- An instruction that this tick completes. -/
theorem Dev.lanRun_done {d f : Dev} {e pins : Nat} {c : LanCur} (hcur : (d.lan e).cur = some c) (hdelay : c.delay = none)
    (hexec : d.execTick e pins = .done f) : (d.lanRun e pins).lan e = (f.lan e).ended c.word ∧
      f.sameBut (d.lanRun e pins) (fun j w => [(0x2C00 + e, 0x1B)].contains (j, w)) ∧
      (bitsOf c.word 5 3 = 0 → d.lanRun e pins = f.lanEnd e) := by
  have hlanCur : d.lanCur e = c := by simp [Dev.lanCur, hcur]
  by_cases hzero : bitsOf c.word 5 3 = 0
  · have hrun : d.lanRun e pins = f.lanEnd e := by simp [Dev.lanRun, hlanCur, hdelay, hexec, hzero]
    rw [hrun]
    exact ⟨(f.lanEnd_lan e).trans (by simp [Lan.ended, hzero]), f.lanEnd_same e, fun _ => rfl⟩
  · have hrun : d.lanRun e pins = (f.setLan e { (f.lan e) with reason := 0 }).setCur e
        { (f.lanCur e) with delay := some (bitsOf c.word 5 3), bits := 0 } := by
      simp [Dev.lanRun, hlanCur, hdelay, hexec, hzero]
    rw [hrun]
    refine ⟨?_, Dev.sameBut_of_regs rfl, fun h => absurd h hzero⟩
    unfold Dev.setCur
    rw [Dev.lan_setLan_self, Dev.lan_setLan_self]
    simp [Lan.ended, hzero, Dev.lanCur]

end Sys2Proof.Machine
end

section
/-! SUPPORT. What a tick of a Lantern engine begins with, the fetch, and each instruction that ends on its tick (R382, R383, R389, R395). -/

namespace Sys2Proof.Machine

/-! ### What a tick begins with (R382) -/

/-- A clock that ticks may have heard a pulse; it does nothing else. -/
theorem Dev.bitClock_heard {d : Dev} {e : Nat} (h : (d.bitClock e).isSome = true) : ∃ b, d.bitClock e = some (d.withHeard b) := by
  revert h
  unfold Dev.bitClock
  dsimp only
  split
  · split
    · exact fun _ => ⟨d.heard, rfl⟩
    · exact fun h => by cases h
  · intro h
    obtain ⟨f, hf⟩ := Option.isSome_iff_exists.mp h
    obtain ⟨b, hb⟩ := Dev.onPulse_of_arrives h id
    refine ⟨b, hf.trans (congrArg some ?_)⟩
    simpa [Dev.onPulse, hf] using hb
  · exact fun _ => ⟨d.heard, rfl⟩

/-- The engine has taken a tick of this instant. -/
def Dev.ticked (d : Dev) (e : Nat) (b : Store Nat) : Dev := (d.withHeard b).setLan e { (d.lan e) with lastTick := some d.now }

theorem Dev.ticked_lan (d : Dev) (e : Nat) (b : Store Nat) : (d.ticked e b).lan e = { (d.lan e) with lastTick := some d.now } :=
  Dev.lan_setLan_self ..

theorem Dev.ticked_regs (d : Dev) (e : Nat) (b : Store Nat) : (d.ticked e b).regs = d.regs := rfl

/-- The tick is dropped and counted. -/
def Dev.tickDropped (d : Dev) (e : Nat) (b : Store Nat) : Dev :=
  (((d.withHeard b).inc (0x2C00 + e) 0x4A).setBit (0x2C00 + e) 0x49 5 true).lanCause e 1

theorem Dev.tickTaken_takes {d : Dev} {e : Nat} (hruns : d.runs 13 = true) (hon : d.obj (0x2C00 + e) 0x01 = 1)
    (hclock : (d.bitClock e).isSome = true) (hsoon : d.tickTooSoon e = false) : ∃ b, d.tickTaken e = (d.ticked e b, true) := by
  obtain ⟨b, hb⟩ := Dev.bitClock_heard hclock
  have hstill : (d.withHeard b).tickTooSoon e = false := hsoon
  refine ⟨b, ?_⟩
  simp only [Dev.tickTaken, hruns, hon, hb, hstill]
  rfl

theorem Dev.tickTaken_drops {d : Dev} {e : Nat} (hruns : d.runs 13 = true) (hon : d.obj (0x2C00 + e) 0x01 = 1)
    (hclock : (d.bitClock e).isSome = true) (hsoon : d.tickTooSoon e = true) : ∃ b, d.tickTaken e = (d.tickDropped e b, false) := by
  obtain ⟨b, hb⟩ := Dev.bitClock_heard hclock
  have hstill : (d.withHeard b).tickTooSoon e = true := hsoon
  refine ⟨b, ?_⟩
  simp only [Dev.tickTaken, hruns, hon, hb, hstill]
  rfl

/-- What a dropped tick leaves. -/
theorem Dev.tickDropped_leaves (d : Dev) (e : Nat) (b : Store Nat) : (d.tickDropped e b).lan e = d.lan e ∧
    (d.tickDropped e b).obj (0x2C00 + e) 0x4A = satInc32 (d.obj (0x2C00 + e) 0x4A) ∧ (d.tickDropped e b).bit (0x2C00 + e) 0x49 5 = true ∧
    d.sameBut (d.tickDropped e b) (fun j w => [(0x2C00 + e, 0x49), (0x2C00 + e, 0x4A)].contains (j, w)) := by
  have hregs : (d.tickDropped e b).regs = (((d.withHeard b).inc (0x2C00 + e) 0x4A).setBit (0x2C00 + e) 0x49 5 true).regs :=
    Dev.lanCause_regs ..
  have hsame : d.sameBut (((d.withHeard b).inc (0x2C00 + e) 0x4A).setBit (0x2C00 + e) 0x49 5 true)
      (fun j w => [(0x2C00 + e, 0x49), (0x2C00 + e, 0x4A)].contains (j, w)) :=
    ((Dev.sameBut_of_regs rfl).inc (by decide) (by simp)).setObj _ (by decide) (by simp)
  refine ⟨(Dev.lan_congr (Dev.lanCause_lans ..) e).trans ((Dev.setObj_lan ..).trans (Dev.setObj_lan ..)), ?_, ?_, hsame.regs hregs⟩
  · refine (Dev.obj_congr hregs ..).trans ?_
    unfold Dev.setBit
    rw [Dev.obj_setObj_sub _ _ (by decide) (by decide) (by decide)]
    exact Dev.obj_setObj_self ..
  · exact (Dev.bit_congr hregs ..).trans (Dev.bit_setBit_self ..)

/-! ### The fetch (R383) -/

/-- An engine's record as it fetches an instruction at a tick. -/
def Lan.fetched (l : Lan) (w now : Nat) : Lan := { l with lastTick := some now, ir := w, pc := (l.pc + 1) % 32, cur := some { word := w } }

/-- The engine fetches the word at pc. -/
def Dev.fetched (d : Dev) (e : Nat) (b : Store Nat) : Dev :=
  (d.ticked e b).setLan e ((d.lan e).fetched (d.obj (0x2C00 + e) (0x20 + (d.lan e).pc)) d.now)

theorem Dev.lanternTick_fetches {d : Dev} {e pins : Nat} (hruns : d.runs 13 = true) (hon : d.obj (0x2C00 + e) 0x01 = 1)
    (hclock : (d.bitClock e).isSome = true) (hdue : d.injectDue e = false) (hsoon : d.tickTooSoon e = false)
    (hfree : (d.lan e).cur = none) : ∃ b, d.lanternTick e pins = (d.fetched e b).lanRun e pins := by
  obtain ⟨b, hb⟩ := Dev.tickTaken_takes hruns hon hclock hsoon
  refine ⟨b, ?_⟩
  have hlan := d.ticked_lan e b
  have hcur : ((d.ticked e b).lan e).cur = none := by rw [hlan]; exact hfree
  have hword : (d.ticked e b).obj (0x2C00 + e) (0x20 + ((d.ticked e b).lan e).pc) = d.obj (0x2C00 + e) (0x20 + (d.lan e).pc) := by
    rw [hlan]
    exact Dev.obj_congr (d.ticked_regs e b) ..
  unfold Dev.lanternTick
  simp only [hdue, hb, hcur, hword, Bool.false_eq_true, if_false, Bool.not_true, Option.isSome_none]
  simp only [hlan]
  rfl

/-! ### Instructions that end on their tick (R389) -/

theorem Dev.drive_keeps (d : Dev) (e k : Nat) (v : Bool) :
    ((d.drive e k v).lan e).pc = (d.lan e).pc ∧ ((d.drive e k v).lan e).cur = (d.lan e).cur := by
  unfold Dev.drive
  split
  · rw [Dev.lan_setLan_self]
    exact ⟨rfl, rfl⟩
  · exact ⟨rfl, rfl⟩

theorem Dev.driveAll_keeps (d : Dev) (e v : Nat) :
    ((d.driveAll e v).lan e).pc = (d.lan e).pc ∧ ((d.driveAll e v).lan e).cur = (d.lan e).cur :=
  ⟨Dev.foldl_keeps (fun f => (f.lan e).pc) (fun f k => (f.drive_keeps e k _).1) _ _,
    Dev.foldl_keeps (fun f => (f.lan e).cur) (fun f k => (f.drive_keeps e k _).2) _ _⟩

theorem Dev.setK_lan (d : Dev) (e k v : Nat) : (d.setK e k v).lan e =
    if k = 0 then { (d.lan e) with k0 := v % 65536 } else { (d.lan e) with k1 := v % 65536 } := Dev.lan_setLan_self ..

theorem Dev.setK_keeps (d : Dev) (e k v : Nat) :
    ((d.setK e k v).lan e).pc = (d.lan e).pc ∧ ((d.setK e k v).lan e).cur = (d.lan e).cur := by
  rw [Dev.setK_lan]
  split <;> exact ⟨rfl, rfl⟩

/-- SET drives pins or loads a counter. -/
theorem Dev.execSet_keeps (d : Dev) (e w : Nat) :
    ((d.execSet e w).lan e).pc = (d.lan e).pc ∧ ((d.execSet e w).lan e).cur = (d.lan e).cur := by
  unfold Dev.execSet
  dsimp only
  split
  · exact d.drive_keeps ..
  · exact d.driveAll_keeps ..
  · exact d.setK_keeps ..
  · exact d.setK_keeps ..

theorem Dev.execTick_evt {d : Dev} {e pins : Nat} {c : LanCur} (hcur : (d.lan e).cur = some c) (hop : c.word % 8 = 0) :
    d.execTick e pins = .done (d.execEvt e c.word) := by
  simp [Dev.execTick, Dev.lanCur, hcur, hop]

theorem Dev.execTick_set {d : Dev} {e pins : Nat} {c : LanCur} (hcur : (d.lan e).cur = some c) (hop : c.word % 8 = 1) :
    d.execTick e pins = .done (d.execSet e c.word) := by
  simp [Dev.execTick, Dev.lanCur, hcur, hop]

theorem Dev.execTick_mov {d : Dev} {e pins : Nat} {c : LanCur} (hcur : (d.lan e).cur = some c) (hop : c.word % 8 = 2) :
    d.execTick e pins = .done (d.execMov e c.word pins) := by
  simp [Dev.execTick, Dev.lanCur, hcur, hop]

/-- JMP: its condition, and the jump. -/
def Dev.execJmp (d : Dev) (e w pins : Nat) : Dev :=
  let f := d.lanCond e pins (bitsOf w 10 6)
  if f.2 then f.1.setLan e { (f.1.lan e) with pc := bitsOf w 15 11 } else f.1

theorem Dev.execTick_jmp {d : Dev} {e pins : Nat} {c : LanCur} (hcur : (d.lan e).cur = some c) (hop : c.word % 8 = 3) :
    d.execTick e pins = .done (d.execJmp e c.word pins) := by
  simp [Dev.execTick, Dev.lanCur, hcur, hop, Dev.execJmp]

theorem Dev.execTick_wait {d : Dev} {e pins : Nat} {c : LanCur} (hcur : (d.lan e).cur = some c) (hop : c.word % 8 = 4) :
    d.execTick e pins = d.execWait e c.word pins := by
  simp [Dev.execTick, Dev.lanCur, hcur, hop]

theorem Dev.execTick_fifo {d : Dev} {e pins : Nat} {c : LanCur} (hcur : (d.lan e).cur = some c) (hop : c.word % 8 = 7) :
    d.execTick e pins = d.execFifo e c.word := by
  simp [Dev.execTick, Dev.lanCur, hcur, hop]

/-- A PUSH without room that does not block drops what the ISH holds, and counts (R386, R389). -/
def Dev.pushDropped (d : Dev) (e : Nat) : Dev :=
  ((d.setLan e { (d.lan e) with ish := 0, ishN := 0 }).inc (0x2C00 + e) 0x4B).lanCause e 2

theorem Dev.execFifo_drops {d : Dev} {e w : Nat} (hpush : w.testBit 15 = false) (hloose : w.testBit 14 = false)
    (hfull : 4 < (d.lan e).rx.length + d.pushWidth e) : d.execFifo e w = .done (d.pushDropped e) := by
  simp [Dev.execFifo, Dev.push, hpush, hloose, hfull, Dev.pushDropped]

theorem Dev.pushDropped_leaves (d : Dev) (e : Nat) : (d.pushDropped e).lan e = { (d.lan e) with ish := 0, ishN := 0 } ∧
    (d.pushDropped e).obj (0x2C00 + e) 0x4B = satInc32 (d.obj (0x2C00 + e) 0x4B) :=
  ⟨(Dev.lan_congr (Dev.lanCause_lans ..) e).trans ((Dev.setObj_lan ..).trans (Dev.lan_setLan_self ..)),
    (Dev.obj_congr (Dev.lanCause_regs ..) ..).trans (Dev.obj_setObj_self ..)⟩

end Sys2Proof.Machine
end

section
/-! SUPPORT. A tick of a Lantern engine (R382, R383, R389, R393, R395): each instruction that ends on its tick, and the injection. -/

namespace Sys2Proof.Machine

/-- Bits 3:1 and 0 of SET's data are bits 9:7 and 6 of its word (R389). -/
theorem setPin_eq (w : Nat) : bitsOf (bitsOf w 13 6) 3 1 = bitsOf w 9 7 := by
  unfold bitsOf
  simp only [Nat.shiftRight_eq_div_pow]
  omega

theorem setLevel_eq (w : Nat) : (bitsOf w 13 6).testBit 0 = w.testBit 6 := by
  simp [bitsOf]

/-- The objects of an engine that a tick may change. -/
def lanOwn (e : Nat) : List (Nat × Nat) :=
  [(0x2C00 + e, 0x49), (0x2C00 + e, 0x4A), (0x2C00 + e, 0x4B), (0x2C00 + e, 0x4C), (0x2C00 + e, 0x1B), (0x2C00 + e, 0x1C)]

/-- An instruction has ended on its tick, or its delay has begun (R393). -/
def Dev.lanEnds (u : Dev) (e w : Nat) : Prop :=
  (u.lan e).ir = w ∧ if bitsOf w 5 3 = 0 then (u.lan e).cur = none else
    ∃ k, (u.lan e).cur = some k ∧ k.delay = some (bitsOf w 5 3)

theorem Dev.lanEnds_of_ended {u : Dev} {l : Lan} {e w : Nat} (hlan : u.lan e = l.ended w) (hir : l.ir = w) : u.lanEnds e w := by
  refine ⟨by rw [hlan]; exact hir, ?_⟩
  rw [hlan]
  unfold Lan.ended
  split_ifs
  · rfl
  · exact ⟨_, rfl, rfl⟩

/-- The word at pc. -/
def Dev.lanWord (d : Dev) (e : Nat) : Nat := d.obj (0x2C00 + e) (0x20 + (d.lan e).pc)

/-- What an engine's device is after its fetch at a tick. -/
structure Dev.Fetched (d f : Dev) (e : Nat) : Prop where
  regs : f.regs = d.regs
  lan : f.lan e = (d.lan e).fetched (d.lanWord e) d.now

theorem Dev.fetched_of (d : Dev) (e : Nat) (b : Store Nat) : d.Fetched (d.fetched e b) e := ⟨rfl, Dev.lan_setLan_self ..⟩

theorem Dev.LanStep.own {e : Nat} {d f : Dev} (h : d.LanStep e f) : d.sameBut f (fun j w => (lanOwn e).contains (j, w)) :=
  h.same.mono (fun j w hw => contains_of_subset (by simp [lanOwn]) hw)

/-- An engine that takes a tick and is free. -/
structure Dev.TickFree (d : Dev) (e : Nat) : Prop where
  runs : d.runs 13 = true
  on : d.obj (0x2C00 + e) 0x01 = 1
  clock : (d.bitClock e).isSome = true
  due : d.injectDue e = false
  soon : d.tickTooSoon e = false
  free : (d.lan e).cur = none

/-- What a command does, it does in part. -/
theorem State.does.mono {s : State} {t : Nat} {c : Instr} {changed : List (Nat × Nat)} {p q : Dev → Prop} (h : s.does t c changed p)
    (hpq : ∀ u, p u → q u) : s.does t c changed q := by
  obtain ⟨u, hexec, hpost, hrest⟩ := h
  exact ⟨u, hexec, hpq _ hpost, hrest⟩

section
variable {s : State} {t : Nat} {e : Fin 8} {pins : Nat}

theorem State.lanternTick_does (h : (s.devAt t).TickFree e) {post : Dev → Prop}
    (hpost : ∀ f, (s.devAt t).Fetched f e → post (f.lanRun e pins)) : s.does t (.lanternTick t e pins) (lanOwn e) post := by
  obtain ⟨b, hb⟩ := Dev.lanternTick_fetches (pins := pins) h.runs h.on h.clock h.due h.soon h.free
  refine State.does_of_dev (u := (s.devAt t).lanternTick e pins) rfl ?_ ?_
  · rw [hb]
    exact hpost _ (Dev.fetched_of ..)
  · rw [hb]
    exact (Dev.sameBut_of_regs (Dev.fetched_of ..).regs).trans (Dev.lanRun_step ..).own

/-- A fetched instruction that ends on this tick. -/
theorem State.lanternTick_ends (h : (s.devAt t).TickFree e) {x : Dev → Dev} {post : Dev → Prop}
    (hexec : ∀ f, (s.devAt t).Fetched f e → (f.lan e).cur = some { word := (s.devAt t).lanWord e } → f.execTick e pins = .done (x f))
    (hpost : ∀ f u, (s.devAt t).Fetched f e → u.lan e = ((x f).lan e).ended ((s.devAt t).lanWord e) →
      (x f).sameBut u (fun j v => [(0x2C00 + e.val, 0x1B)].contains (j, v)) → post u) :
    s.does t (.lanternTick t e pins) (lanOwn e) (fun u => u.lanEnds e ((s.devAt t).lanWord e) ∧ post u) := by
  refine State.lanternTick_does h (fun f hf => ?_)
  have hcur : (f.lan e).cur = some { word := (s.devAt t).lanWord e } := by rw [hf.lan]; rfl
  obtain ⟨hlan, hsame, -⟩ := Dev.lanRun_done hcur rfl (hexec f hf hcur)
  have hir : ((x f).lan e).ir = (s.devAt t).lanWord e := by
    have hstep := f.execTick_step e pins
    rw [hexec f hf hcur] at hstep
    exact hstep.ir.trans (by rw [hf.lan]; rfl)
  exact ⟨Dev.lanEnds_of_ended hlan hir, hpost f _ hf hlan hsame⟩

theorem State.evt_does (h : (s.devAt t).TickFree e) (hop : (s.devAt t).lanWord e % 8 = 0) :
    s.does t (.lanternTick t e pins) (lanOwn e) (fun u => u.lanEnds e ((s.devAt t).lanWord e) ∧
      (u.lan e).pc = (((s.devAt t).lan e).pc + 1) % 32 ∧ (u.lan e).k0 = ((s.devAt t).lan e).k0 ∧
      (u.lan e).outs = ((s.devAt t).lan e).outs) := by
  refine State.lanternTick_ends h (fun f hf hcur => Dev.execTick_evt hcur hop) (fun f u hf hu _ => ?_)
  rw [hu, Dev.lan_congr (f.execEvt_lans e _), hf.lan]
  exact ⟨rfl, rfl, rfl⟩

theorem State.set_does (h : (s.devAt t).TickFree e) {w : Nat} (hw : (s.devAt t).lanWord e = w) (hop : w % 8 = 1) :
    s.does t (.lanternTick t e pins) (lanOwn e) (fun u => u.lanEnds e w ∧ (u.lan e).pc = (((s.devAt t).lan e).pc + 1) % 32 ∧
      (bitsOf w 15 14 = 2 → (u.lan e).k0 = bitsOf w 13 6) ∧ (bitsOf w 15 14 = 3 → (u.lan e).k1 = bitsOf w 13 6) ∧
      (bitsOf w 15 14 = 0 → (s.devAt t).pinOut e (bitsOf w 9 7) = true →
        (u.lan e).outs = bitTo ((s.devAt t).lan e).outs (bitsOf w 9 7) (w.testBit 6))) := by
  subst hw
  refine State.lanternTick_ends h (fun f hf hcur => Dev.execTick_set hcur hop) (fun f u hf hu _ => ?_)
  have hsmall : ∀ w, bitsOf w 13 6 % 65536 = bitsOf w 13 6 := fun w =>
    Nat.mod_eq_of_lt (lt_of_lt_of_le (Nat.mod_lt _ (by decide)) (by decide))
  have hpin : ∀ k, f.pinOut e k = (s.devAt t).pinOut e k := fun k => by
    unfold Dev.pinOut Dev.pinCount
    rw [Dev.obj_congr hf.regs, Dev.bit_congr hf.regs]
  rw [hu]
  refine ⟨(f.execSet_keeps e _).1.trans (by rw [hf.lan]; rfl), fun hdest => ?_, fun hdest => ?_, fun hdest hout => ?_⟩
  · have hset : f.execSet e ((s.devAt t).lanWord e) = f.setK e 0 (bitsOf ((s.devAt t).lanWord e) 13 6) := by
      simp only [Dev.execSet, hdest]
    rw [hset, Dev.setK_lan]
    exact hsmall _
  · have hset : f.execSet e ((s.devAt t).lanWord e) = f.setK e 1 (bitsOf ((s.devAt t).lanWord e) 13 6) := by
      simp only [Dev.execSet, hdest]
    rw [hset, Dev.setK_lan]
    exact hsmall _
  · have hset : f.execSet e ((s.devAt t).lanWord e) =
        f.drive e (bitsOf ((s.devAt t).lanWord e) 9 7) (((s.devAt t).lanWord e).testBit 6) := by
      simp only [Dev.execSet, hdest, setPin_eq, setLevel_eq]
    rw [hset, Dev.drive, if_pos ((hpin _).trans hout), Dev.lan_setLan_self, hf.lan]
    rfl

theorem State.movPc_does (h : (s.devAt t).TickFree e) {w : Nat} (hw : (s.devAt t).lanWord e = w) (hop : w % 8 = 2)
    (hsrc : bitsOf w 12 10 = 1) (hcopy : bitsOf w 9 8 = 0) (hdest : bitsOf w 15 13 = 5) :
    s.does t (.lanternTick t e pins) (lanOwn e) (fun u => u.lanEnds e w ∧ (u.lan e).pc = ((s.devAt t).lan e).k0 % 32) := by
  subst hw
  refine State.lanternTick_ends h (fun f hf hcur => Dev.execTick_mov hcur hop) (fun f u hf hu _ => ?_)
  have hmov : f.execMov e ((s.devAt t).lanWord e) pins = f.setLan e { (f.lan e) with pc := (f.lan e).k0 % 32 } := by
    simp only [Dev.execMov, hsrc, hcopy, hdest, movOp]
  rw [hu, hmov, Dev.lan_setLan_self, hf.lan]
  rfl

theorem State.movOsh_does (h : (s.devAt t).TickFree e) {w : Nat} (hw : (s.devAt t).lanWord e = w) (hop : w % 8 = 2)
    (hsrc : bitsOf w 12 10 = 1) (hcopy : bitsOf w 9 8 = 0) (hdest : bitsOf w 15 13 = 4) :
    s.does t (.lanternTick t e pins) (lanOwn e) (fun u => u.lanEnds e w ∧
      (u.lan e).osh = ((s.devAt t).lan e).k0 ∧ (u.lan e).oshN = 32) := by
  subst hw
  refine State.lanternTick_ends h (fun f hf hcur => Dev.execTick_mov hcur hop) (fun f u hf hu _ => ?_)
  have hmov : f.execMov e ((s.devAt t).lanWord e) pins = f.setLan e { (f.lan e) with osh := (f.lan e).k0, oshN := 32 } := by
    simp only [Dev.execMov, hsrc, hcopy, hdest, movOp]
  rw [hu, hmov, Dev.lan_setLan_self, hf.lan]
  exact ⟨rfl, rfl⟩

/-- A jump: the condition may move K0, and a condition that holds moves pc. -/
theorem State.jmp_does (h : (s.devAt t).TickFree e) {w c k : Nat} {go : Bool} (hw : (s.devAt t).lanWord e = w) (hop : w % 8 = 3)
    (hcode : bitsOf w 10 6 = c) (hcond : ∀ f : Dev, (f.lan e).k0 = ((s.devAt t).lan e).k0 →
      (f.lanCond e pins c).1.lan e = { (f.lan e) with k0 := k } ∧ (f.lanCond e pins c).2 = go) :
    s.does t (.lanternTick t e pins) (lanOwn e) (fun u => u.lanEnds e w ∧ (u.lan e).k0 = k ∧
      (u.lan e).pc = if go then bitsOf w 15 11 else (((s.devAt t).lan e).pc + 1) % 32) := by
  subst hw
  refine State.lanternTick_ends h (fun f hf hcur => Dev.execTick_jmp hcur hop) (fun f u hf hu _ => ?_)
  obtain ⟨hlan, hgo⟩ := hcond f (by rw [hf.lan]; rfl)
  rw [hu]
  unfold Dev.execJmp
  dsimp only
  rw [hcode, hgo]
  cases go
  · rw [if_neg (by decide), hlan, hf.lan]
    exact ⟨rfl, rfl⟩
  · rw [if_pos rfl, Dev.lan_setLan_self, hlan]
    exact ⟨rfl, rfl⟩

theorem State.jmpAlways_does (h : (s.devAt t).TickFree e) {w : Nat} (hw : (s.devAt t).lanWord e = w) (hop : w % 8 = 3)
    (hcode : bitsOf w 10 6 = 0) :
    s.does t (.lanternTick t e pins) (lanOwn e) (fun u => u.lanEnds e w ∧ (u.lan e).pc = bitsOf w 15 11) :=
  (State.jmp_does h hw hop hcode (k := ((s.devAt t).lan e).k0) (go := true)
    (fun f hk => ⟨by rw [← hk]; rfl, rfl⟩)).mono fun u ⟨hends, _, hpc⟩ => ⟨hends, hpc⟩

theorem State.jmpZero_does (h : (s.devAt t).TickFree e) {w : Nat} (hw : (s.devAt t).lanWord e = w) (hop : w % 8 = 3)
    (hcode : bitsOf w 10 6 = 1) :
    s.does t (.lanternTick t e pins) (lanOwn e) (fun u => u.lanEnds e w ∧
      (u.lan e).pc = if ((s.devAt t).lan e).k0 = 0 then bitsOf w 15 11 else (((s.devAt t).lan e).pc + 1) % 32) :=
  (State.jmp_does h hw hop hcode (k := ((s.devAt t).lan e).k0) (go := decide (((s.devAt t).lan e).k0 = 0))
    (fun f hk => ⟨by rw [← hk]; rfl, by rw [← hk]; rfl⟩)).mono fun u ⟨hends, _, hpc⟩ => ⟨hends, by simpa using hpc⟩

/-- The condition that counts K0 down. -/
theorem Dev.lanCond_count (d : Dev) (e pins k : Nat) (hk : k = ((d.lan e).k0 + 65535) % 65536) :
    d.lanCond e pins 2 = (d.setLan e { (d.lan e) with k0 := k }, decide (k ≠ 0)) := by
  simp only [Dev.lanCond, hk]

theorem State.jmpCount_does (h : (s.devAt t).TickFree e) {w k : Nat} (hw : (s.devAt t).lanWord e = w) (hop : w % 8 = 3)
    (hcode : bitsOf w 10 6 = 2) (hk : k = (((s.devAt t).lan e).k0 + 65535) % 65536) :
    s.does t (.lanternTick t e pins) (lanOwn e) (fun u => u.lanEnds e w ∧ (u.lan e).k0 = k ∧
      (u.lan e).pc = if k = 0 then (((s.devAt t).lan e).pc + 1) % 32 else bitsOf w 15 11) := by
  refine (State.jmp_does h hw hop hcode (k := k) (go := decide (k ≠ 0)) (fun f hf => ?_)).mono fun u ⟨hends, hkept, hpc⟩ =>
    ⟨hends, hkept, by simpa using hpc⟩
  rw [Dev.lanCond_count f e pins k (by rw [hf, hk])]
  exact ⟨Dev.lan_setLan_self .., rfl⟩

/-- A WAIT for a condition that holds ends, and one whose condition does not hold stalls the engine (R389). -/
theorem State.waitTx_stalls (h : (s.devAt t).TickFree e) {w : Nat} (hw : (s.devAt t).lanWord e = w) (hop : w % 8 = 4)
    (hkind : w.testBit 15 = false) (hcond : bitsOf w 10 6 = 10) (hempty : ((s.devAt t).lan e).tx = []) :
    s.does t (.lanternTick t e pins) (lanOwn e) (fun u => (u.lan e).reason = 1 ∧
      ∃ k, (u.lan e).cur = some k ∧ k.word = w ∧ k.delay = none) := by
  subst hw
  refine State.lanternTick_does h (fun f hf => ?_)
  have hcur : (f.lan e).cur = some { word := (s.devAt t).lanWord e } := by rw [hf.lan]; rfl
  have hnone : (f.lan e).tx = [] := by rw [hf.lan]; exact hempty
  have hexec : f.execTick e pins = .wait f 1 := by
    rw [Dev.execTick_wait hcur hop]
    simp [Dev.execWait, hkind, hcond, Dev.lanCond, hnone]
  have hrun : f.lanRun e pins = f.setLan e { (f.lan e) with reason := 1 } := by
    have hlanCur : f.lanCur e = { word := (s.devAt t).lanWord e } := by simp [Dev.lanCur, hcur]
    simp [Dev.lanRun, hlanCur, hexec]
  rw [hrun, Dev.lan_setLan_self]
  exact ⟨rfl, _, hcur, rfl, rfl⟩

theorem State.waitTx_ends (h : (s.devAt t).TickFree e) {w : Nat} (hw : (s.devAt t).lanWord e = w) (hop : w % 8 = 4)
    (hkind : w.testBit 15 = false) (hcond : bitsOf w 10 6 = 10) (hsome : ((s.devAt t).lan e).tx ≠ []) :
    s.does t (.lanternTick t e pins) (lanOwn e) (fun u => u.lanEnds e w) := by
  subst hw
  refine (State.lanternTick_ends (x := id) (post := fun _ => True) h (fun f hf hcur => ?_) (fun _ _ _ _ _ => trivial)).mono (fun _ h => h.1)
  have hheld : (f.lan e).tx ≠ [] := by rw [hf.lan]; exact hsome
  rw [Dev.execTick_wait hcur hop]
  simp [Dev.execWait, hkind, hcond, Dev.lanCond, hheld]

theorem State.pushDropped_does (h : (s.devAt t).TickFree e) {w : Nat} (hw : (s.devAt t).lanWord e = w) (hop : w % 8 = 7)
    (hpush : w.testBit 15 = false) (hloose : w.testBit 14 = false)
    (hfull : 4 < ((s.devAt t).lan e).rx.length + (s.devAt t).pushWidth e) :
    s.does t (.lanternTick t e pins) (lanOwn e) (fun u => u.lanEnds e w ∧ (u.lan e).ish = 0 ∧ (u.lan e).ishN = 0 ∧
      (u.lan e).rx = ((s.devAt t).lan e).rx ∧
      u.obj (0x2C00 + e) 0x4B = satInc32 ((s.devAt t).obj (0x2C00 + e) 0x4B)) := by
  subst hw
  refine State.lanternTick_ends h (x := fun f => f.pushDropped e) (fun f hf hcur => ?_) (fun f u hf hu hsame => ?_)
  · rw [Dev.execTick_fifo hcur hop]
    refine Dev.execFifo_drops hpush hloose ?_
    have hwidth : f.pushWidth e = (s.devAt t).pushWidth e := by
      unfold Dev.pushWidth
      rw [Dev.obj_congr hf.regs]
    rw [hwidth, hf.lan]
    exact hfull
  · obtain ⟨hlan, hcount⟩ := f.pushDropped_leaves e
    rw [hu, hlan, hf.lan]
    refine ⟨rfl, rfl, rfl, ?_⟩
    rw [hsame _ _ (by decide) (by simp), hcount, Dev.obj_congr hf.regs]

end

/-! ### The injection (R395, R396) -/

/-- An engine's record as it takes an injected instruction. -/
def Lan.injected (l : Lan) (v : Nat) (abort : Bool) : Lan :=
  { l with inject := none, ir := v, reason := 0, cur := some { word := v, inj := true, abort := abort } }

/-- The device as an injected instruction begins: the bit count of the one that it aborts is left. -/
def Dev.injected (d : Dev) (e v : Nat) (abort : Bool) : Dev :=
  (if abort then d.setObj (0x2C00 + e) 0x1C (if (d.lanCur e).delay.isSome then 0 else (d.lanCur e).bits) else d).setLan e
    ((d.lan e).injected v abort)

theorem Dev.injected_same (d : Dev) (e v : Nat) (abort : Bool) :
    d.sameBut (d.injected e v abort) (fun j w => [(0x2C00 + e, 0x1C)].contains (j, w)) := by
  unfold Dev.injected
  cases abort
  · exact Dev.sameBut_of_regs rfl
  · exact ((Dev.sameBut_refl d _).setObj _ (by decide) (by simp)).regs rfl

theorem Dev.injected_lan (d : Dev) (e v : Nat) (abort : Bool) : (d.injected e v abort).lan e = (d.lan e).injected v abort :=
  Dev.lan_setLan_self ..

theorem Dev.injected_bits (d : Dev) (e v : Nat) :
    (d.injected e v true).obj (0x2C00 + e) 0x1C = if (d.lanCur e).delay.isSome then 0 else (d.lanCur e).bits :=
  (Dev.obj_congr rfl ..).trans (Dev.obj_setObj_self d _ _ _)

/-- INJECTION's tick: the pending instruction begins. -/
theorem Dev.injection_takes {d : Dev} {e pins v a : Nat} {abort : Bool} (hruns : d.runs 13 = true)
    (hon : d.obj (0x2C00 + e) 0x01 = 1) (hclock : (d.bitClock e).isSome = true) (hsoon : d.tickTooSoon e = false)
    (hpending : (d.lan e).inject = some (v, abort, a)) (hturn : (d.lan e).cur = none ∨ abort = true) :
    ∃ b, d.injection e pins = ((d.ticked e b).injected e v abort).lanRun e pins := by
  obtain ⟨b, hb⟩ := Dev.tickTaken_takes hruns hon hclock hsoon
  have hgo : ((d.lan e).cur.isSome && !abort) = false := by
    rcases hturn with hfree | rfl
    · rw [hfree]; rfl
    · exact Bool.and_false _
  refine ⟨b, ?_⟩
  unfold Dev.injection
  simp only [hpending, hgo, hb, Bool.false_eq_true, if_false, Bool.not_true]
  rfl

/-- What an engine shows once it has taken an injected instruction: `d` is the device before. -/
structure Dev.Took (d u : Dev) (e v : Nat) (abort : Bool) : Prop where
  ir : (u.lan e).ir = v
  inject : (u.lan e).inject = none
  bits : abort = true → u.obj (0x2C00 + e) 0x1C = if (d.lanCur e).delay.isSome then 0 else (d.lanCur e).bits
  ends : v % 8 ≤ 1 → (u.lan e).pc = (d.lan e).pc ∧
    (bitsOf v 5 3 = 0 → (u.lan e).cur = none ∧ u.obj (0x2C00 + e) 0x1B = if abort then 3 else 2)

/-- EVT and SET end on their tick, move no pc, and leave the record of the instruction in progress. -/
theorem Dev.execTick_keeps {d : Dev} {e pins : Nat} {c : LanCur} (hcur : (d.lan e).cur = some c) (hop : c.word % 8 ≤ 1) :
    ∃ f, d.execTick e pins = .done f ∧ (f.lan e).pc = (d.lan e).pc ∧ (f.lan e).cur = some c := by
  rcases Nat.le_one_iff_eq_zero_or_eq_one.mp hop with hop | hop
  · have hlan := Dev.lan_congr (d.execEvt_lans e c.word) e
    exact ⟨_, Dev.execTick_evt hcur hop, by rw [hlan], by rw [hlan, hcur]⟩
  · exact ⟨_, Dev.execTick_set hcur hop, (d.execSet_keeps e _).1, (d.execSet_keeps e _).2.trans hcur⟩

theorem Dev.injection_took {d : Dev} {e pins v a : Nat} {abort : Bool} (hruns : d.runs 13 = true)
    (hon : d.obj (0x2C00 + e) 0x01 = 1) (hclock : (d.bitClock e).isSome = true) (hsoon : d.tickTooSoon e = false)
    (hpending : (d.lan e).inject = some (v, abort, a)) (hturn : (d.lan e).cur = none ∨ abort = true) :
    d.Took (d.injection e pins) e v abort ∧ d.sameBut (d.injection e pins) (fun j w => (lanOwn e).contains (j, w)) := by
  obtain ⟨b, hb⟩ := Dev.injection_takes (pins := pins) hruns hon hclock hsoon hpending hturn
  rw [hb]
  have hticked := d.ticked_lan e b
  have hlanCur : (d.ticked e b).lanCur e = d.lanCur e := by
    unfold Dev.lanCur
    rw [hticked]
  have hlan := (d.ticked e b).injected_lan e v abort
  have hsame := (d.ticked e b).injected_same e v abort
  generalize hf : (d.ticked e b).injected e v abort = f at hlan hsame
  have hstep := f.lanRun_step e pins
  have hcur : (f.lan e).cur = some { word := v, inj := true, abort := abort } := by rw [hlan]; rfl
  refine ⟨⟨hstep.ir.trans (by rw [hlan]; rfl), hstep.inject.trans (by rw [hlan]; rfl), fun habort => ?_, fun hop => ?_⟩, ?_⟩
  · subst habort
    rw [hstep.same _ _ (by decide) (by simp), ← hf, Dev.injected_bits, hlanCur]
  · obtain ⟨g, hexec, hpc, hkept⟩ := Dev.execTick_keeps (pins := pins) hcur hop
    obtain ⟨hdone, -, hend⟩ := Dev.lanRun_done hcur rfl hexec
    refine ⟨by rw [hdone]; exact hpc.trans (by rw [hlan, Lan.injected, hticked]), fun hzero => ?_⟩
    have hnone : (g.lan e).inject = none := by
      have hexecStep := f.execTick_step e pins
      rw [hexec] at hexecStep
      exact hexecStep.inject.trans (by rw [hlan]; rfl)
    have hgcur : g.lanCur e = { word := v, inj := true, abort := abort } := by
      unfold Dev.lanCur
      rw [hkept]
      rfl
    rw [hend hzero, Dev.lanEnd_shows (by rw [hgcur]) hnone, hgcur, Dev.lanEnd_lan]
    exact ⟨rfl, rfl⟩
  · exact (((Dev.sameBut_of_regs (d.ticked_regs e b)).trans hsame).mono
      (fun j w hw => contains_of_subset (by simp [lanOwn]) hw)).trans hstep.own

/-- A due injection is taken at the tick. -/
theorem Dev.lanternTick_injects {d : Dev} {e pins v a : Nat} {abort : Bool} (hpending : (d.lan e).inject = some (v, abort, a))
    (hturn : (d.lan e).cur = none ∨ abort = true) (hdue : a + 10 * tqUs ≤ d.now) : d.lanternTick e pins = d.injection e pins := by
  refine if_pos ?_
  unfold Dev.injectDue
  rw [hpending]
  rcases hturn with hfree | rfl
  · simp [hdue, hfree]
  · simp [hdue]

/-- Settles O42: a tick is dropped or taken; what an instruction leaves of the engine's record is read off the fetch, its execution and the
end of its tick, and an injected one goes the same way in place of a fetched one. -/
theorem lanternTicks : Obligations.LanternTicks := by
  intro s t e pins d i l w c own ends hruns hon hclock
  refine ⟨fun hdue hsoon => ?_, fun hdue hsoon hfree => ?_, fun v abort a hsoon hpending hturn => ?_⟩
  · obtain ⟨b, hb⟩ := Dev.tickTaken_drops hruns hon hclock hsoon
    have hdrop : d.lanternTick e pins = d.tickDropped e b := by
      simp [Dev.lanternTick, hdue, hb]
    obtain ⟨hlan, hcount, hshown, hsame⟩ := d.tickDropped_leaves e b
    refine State.does_of_dev (u := d.lanternTick e pins) rfl ?_ ?_
    · rw [hdrop]
      exact ⟨hlan, hcount, hshown⟩
    · rw [hdrop]
      exact hsame.mono (fun j w hw => contains_of_subset (by simp [own, i]) hw)
  · have h : d.TickFree e := ⟨hruns, hon, hclock, hdue, hsoon, hfree⟩
    refine ⟨State.lanternTick_does h fun f hf => (f.lanRun_step e pins).ir.trans (by rw [hf.lan]; rfl), fun hop => State.evt_does h hop,
      fun hop => State.set_does h rfl hop, fun hop hsrc hcopy => ⟨State.movPc_does h rfl hop hsrc hcopy, State.movOsh_does h rfl hop hsrc hcopy⟩,
      fun hop => ⟨State.jmpAlways_does h rfl hop, State.jmpZero_does h rfl hop,
        fun hcode => State.jmpCount_does h rfl hop hcode rfl⟩, fun hop hkind hcond => ⟨State.waitTx_stalls h rfl hop hkind hcond, State.waitTx_ends h rfl hop hkind hcond⟩,
      State.pushDropped_does h rfl⟩
  · have hdone := Dev.injection_took (pins := pins) hruns hon hclock hsoon hpending hturn
    obtain ⟨⟨hir, hnone, hbits, hends⟩, hsame⟩ := hdone
    refine ⟨State.does_of_dev (u := d.injection e pins) rfl ⟨hir, hnone, hbits, hends⟩ hsame, fun hdue => ?_⟩
    have htick := Dev.lanternTick_injects (pins := pins) hpending hturn hdue
    refine State.does_of_dev (u := d.lanternTick e pins) rfl ?_ ?_
    · rw [htick]
      exact ⟨hir, hnone, hbits, hends⟩
    · rw [htick]
      exact hsame

end Sys2Proof.Machine
end

section
/-! SUPPORT. The arbiter of a Loft bank (R410): which group wins a slot, and which of its members. -/

namespace Sys2Proof.Machine

/-! ### The member of a group -/

/-- The step of a least member so far. -/
def leastSoFar (m : Option Nat) (w : Nat) : Option Nat :=
  match m with
  | none => some w
  | some x => some (min x w)

theorem foldl_leastSoFar (l : List Nat) (x : Nat) : l.foldl leastSoFar (some x) = some (l.foldl min x) := by
  induction l generalizing x with
  | nil => rfl
  | cons w l ih => exact ih (min x w)

theorem foldl_leastSoFar_min? (l : List Nat) : l.foldl leastSoFar none = l.min? := by
  cases l with
  | nil => rfl
  | cons w l => exact foldl_leastSoFar l w

/-- The order of a group's members after one (R410): how far each stands behind it. -/
def turnsAfter (w last : Nat) : Nat := (w + 46 - last) % 47

theorem nextMember_eq (who : List Nat) (last : Nat) :
    nextMember who last = ((who.filter (fun w => decide (last < w))).min?).getD (who.foldl min 47) := by
  rw [← foldl_leastSoFar_min?]
  change (match (who.filter (fun w => decide (last < w))).foldl leastSoFar none with
    | some w => w
    | none => who.foldl min 47) = _
  cases (who.filter (fun w => decide (last < w))).foldl leastSoFar none <;> rfl

/-- The least of some members. -/
theorem foldl_min_least {l : List Nat} (hne : l ≠ []) (hsmall : ∀ w ∈ l, w < 47) : l.foldl min 47 ∈ l ∧ ∀ w ∈ l, l.foldl min 47 ≤ w := by
  have hmin : (47 :: l).min? = some (l.foldl min 47) := rfl
  obtain ⟨hmem, hle⟩ := List.min?_eq_some_iff.mp hmin
  obtain ⟨w, hw⟩ := List.exists_mem_of_ne_nil l hne
  refine ⟨?_, fun v hv => hle v (List.mem_cons_of_mem _ hv)⟩
  rcases List.mem_cons.mp hmem with heq | hin
  · have := hle w (List.mem_cons_of_mem _ hw)
    have := hsmall w hw
    omega
  · exact hin

/-- The member that takes a group's turn is the first after the one granted last. -/
theorem nextMember_first {who : List Nat} {last : Nat} (hne : who ≠ []) (hsmall : ∀ w ∈ who, w < 47) (hlast : last ≤ 46) :
    nextMember who last ∈ who ∧ ∀ w ∈ who, turnsAfter (nextMember who last) last ≤ turnsAfter w last := by
  rw [nextMember_eq]
  unfold turnsAfter
  cases hafter : (who.filter (fun w => decide (last < w))).min? with
  | some x =>
    obtain ⟨hmem, hle⟩ := List.min?_eq_some_iff.mp hafter
    obtain ⟨hin, hpast⟩ := List.mem_filter.mp hmem
    refine ⟨hin, fun w hw => ?_⟩
    have hx := of_decide_eq_true hpast
    have hxs := hsmall x hin
    have hws := hsmall w hw
    simp only [Option.getD_some]
    by_cases hwl : last < w
    · have := hle w (List.mem_filter.mpr ⟨hw, decide_eq_true hwl⟩)
      omega
    · omega
  | none =>
    have hnone : ∀ w ∈ who, ¬last < w := fun w hw => by
      have := List.min?_eq_none_iff.mp hafter
      have hnot := List.filter_eq_nil_iff.mp this w hw
      simpa using hnot
    obtain ⟨hin, hle⟩ := foldl_min_least hne hsmall
    refine ⟨hin, fun w hw => ?_⟩
    have := hnone _ hin
    have := hnone w hw
    have := hle w hw
    simp only [Option.getD_none]
    omega

/-! ### The group -/

/-- One candidate wins over another: more credit, or the same credit and no higher number. -/
def groupBeats (e f : Nat × Int) : Prop := f.2 < e.2 ∨ (f.2 = e.2 ∧ e.1 ≤ f.1)

theorem bestGroup_beats {l : List (Nat × Int)} (hsorted : l.Pairwise (fun e f => e.1 < f.1)) (hne : l ≠ []) :
    ∃ e ∈ l, bestGroup l = some e ∧ ∀ f ∈ l, groupBeats e f := by
  induction l with
  | nil => exact absurd rfl hne
  | cons a l ih =>
    obtain ⟨hfirst, hrest⟩ := List.pairwise_cons.mp hsorted
    cases l with
    | nil => exact ⟨a, by simp, rfl, fun f hf => .inr (by simp at hf; simp [hf])⟩
    | cons b l =>
      obtain ⟨e, hmem, hbest, hbeats⟩ := ih hrest (by simp)
      by_cases hless : a.2 < e.2
      · refine ⟨e, List.mem_cons_of_mem _ hmem, by simp only [bestGroup] at hbest ⊢; rw [hbest]; simp [hless], fun f hf => ?_⟩
        rcases List.mem_cons.mp hf with rfl | hin
        · exact .inl hless
        · exact hbeats f hin
      · refine ⟨a, List.mem_cons_self, by simp only [bestGroup] at hbest ⊢; rw [hbest]; simp [hless], fun f hf => ?_⟩
        rcases List.mem_cons.mp hf with rfl | hin
        · exact .inr ⟨rfl, le_refl _⟩
        · have := hfirst f hin
          rcases hbeats f hin with h | ⟨h, -⟩
          · exact .inl (by omega)
          · by_cases heq : e.2 = a.2
            · exact .inr ⟨h.trans heq, by omega⟩
            · exact .inl (by omega)

/-! ### One slot -/

theorem loftGroup_lt (w : Nat) : loftGroup w < 5 := by
  unfold loftGroup
  split_ifs <;> decide

theorem loftGroup_zero (w : Nat) : loftGroup w = 0 ↔ w < 16 := by
  unfold loftGroup
  split_ifs <;> simp <;> omega

/-- The requesters of a group. -/
def groupOf (who : List Nat) (g : Nat) : List Nat := who.filter (fun w => decide (loftGroup w = g))

theorem mem_groupOf {who : List Nat} {g w : Nat} : w ∈ groupOf who g ↔ w ∈ who ∧ loftGroup w = g := by
  simp [groupOf]

theorem groupOf_ne_nil {who : List Nat} {w : Nat} (h : w ∈ who) : groupOf who (loftGroup w) ≠ [] :=
  List.ne_nil_of_mem (mem_groupOf.mpr ⟨h, rfl⟩)

/-- A group's credit in a slot at which some requesters wait (R410). -/
def LBank.creditOf (k : LBank) (who : List Nat) (g : Nat) : Int := k.credit.getD g 0 + ((groupOf who g).length : Int)

/-- The credits of a slot: none for a group without requesters. -/
def LBank.credits (k : LBank) (who : List Nat) : List Int :=
  (List.range 5).map (fun g => if (groupOf who g).isEmpty then 0 else k.creditOf who g)

/-- The groups that a slot may go to. -/
def LBank.candidates (k : LBank) (who : List Nat) : List (Nat × Int) :=
  ((List.range 5).map (fun g => (g, (k.credits who).getD g 0))).filter (fun e => !(groupOf who e.1).isEmpty)

/-- The group that wins a slot: the capture lanes' where it must, else that of the largest credit. -/
def LBank.winner (k : LBank) (who : List Nat) : Nat :=
  if !(groupOf who 0).isEmpty && !((k.hist.take 3).contains 0) then 0 else ((bestGroup (k.candidates who)).map (·.1)).getD 0

/-- The member that a group granted last; before any grant, the last of the table. -/
def LBank.lastOf (k : LBank) (g : Nat) : Nat := if k.last.getD g 47 = 47 then 46 else k.last.getD g 47 % 47

theorem LBank.lastOf_le (k : LBank) (g : Nat) : k.lastOf g ≤ 46 := by
  unfold LBank.lastOf
  split_ifs <;> omega

/-- A bank's record after a slot. -/
def LBank.granted (k : LBank) (who : List Nat) (g w : Nat) : LBank :=
  { k with credit := (k.credits who).set g ((k.credits who).getD g 0 - who.length), last := k.last.set g w
           hist := (g :: k.hist).take 3, since := k.since + 1 }

/-- A slot that requesters take. -/
theorem LBank.arbitrate_grants {k : LBank} {who : List Nat} (hne : who ≠ []) (hsince : k.since < 1023) :
    k.arbitrate who = some (nextMember (groupOf who (k.winner who)) (k.lastOf (k.winner who)),
      k.granted who (k.winner who) (nextMember (groupOf who (k.winner who)) (k.lastOf (k.winner who)))) := by
  have hgo : ¬(decide (who.length = 0) || decide (1023 ≤ k.since)) = true := by
    simp only [Bool.or_eq_true, decide_eq_true_eq, List.length_eq_zero_iff]
    rintro (h | h)
    · exact hne h
    · omega
  have hmember : ∀ g, (if k.last.getD g 47 = 47 then nextMember (groupOf who g) 46 else nextMember (groupOf who g) (k.last.getD g 47 % 47)) =
      nextMember (groupOf who g) (k.lastOf g) := fun g => by
    unfold LBank.lastOf
    split_ifs <;> rfl
  rw [← hmember]
  exact if_neg hgo

theorem LBank.credits_get {k : LBank} {who : List Nat} {w : Nat} (h : w ∈ who) :
    (k.credits who).getD (loftGroup w) 0 = k.creditOf who (loftGroup w) := by
  unfold LBank.credits
  simp [loftGroup_lt, groupOf_ne_nil h]

/-- The group that wins has requesters, and wins by R410. -/
theorem LBank.winner_wins {k : LBank} {who : List Nat} (hne : who ≠ []) : groupOf who (k.winner who) ≠ [] ∧
    (((∃ q ∈ who, q < 16) ∧ 0 ∉ k.hist.take 3 ∧ k.winner who = 0) ∨
      (((∀ q ∈ who, 16 ≤ q) ∨ 0 ∈ k.hist.take 3) ∧ ∀ q ∈ who, k.creditOf who (loftGroup q) < k.creditOf who (k.winner who) ∨
        (k.creditOf who (loftGroup q) = k.creditOf who (k.winner who) ∧ k.winner who ≤ loftGroup q))) := by
  have hlane : groupOf who 0 ≠ [] ↔ ∃ q ∈ who, q < 16 := by
    constructor
    · intro h
      obtain ⟨q, hq⟩ := List.exists_mem_of_ne_nil _ h
      obtain ⟨hmem, hgroup⟩ := mem_groupOf.mp hq
      exact ⟨q, hmem, (loftGroup_zero q).mp hgroup⟩
    · rintro ⟨q, hmem, hsmall⟩
      exact List.ne_nil_of_mem (mem_groupOf.mpr ⟨hmem, (loftGroup_zero q).mpr hsmall⟩)
  by_cases hturn : groupOf who 0 ≠ [] ∧ 0 ∉ k.hist.take 3
  · have hzero : k.winner who = 0 := if_pos (by
      rw [Bool.and_eq_true, Bool.not_eq_true', Bool.not_eq_true', List.isEmpty_eq_false_iff]
      exact ⟨hturn.1, by simpa using hturn.2⟩)
    rw [hzero]
    exact ⟨hturn.1, .inl ⟨hlane.mp hturn.1, hturn.2, rfl⟩⟩
  · have hbest : k.winner who = ((bestGroup (k.candidates who)).map (·.1)).getD 0 := if_neg (by
      rw [Bool.and_eq_true, Bool.not_eq_true', Bool.not_eq_true', List.isEmpty_eq_false_iff]
      exact fun h => hturn ⟨h.1, by simpa using h.2⟩)
    have hcandidate : ∀ q ∈ who, (loftGroup q, k.creditOf who (loftGroup q)) ∈ k.candidates who := fun q hq => by
      refine List.mem_filter.mpr ⟨List.mem_map.mpr ⟨loftGroup q, List.mem_range.mpr (loftGroup_lt q), by rw [LBank.credits_get hq]⟩, ?_⟩
      simpa using groupOf_ne_nil hq
    have hsorted : (k.candidates who).Pairwise (fun e f => e.1 < f.1) :=
      List.Pairwise.filter _ (List.pairwise_map.mpr (List.pairwise_lt_range (n := 5)))
    obtain ⟨q, hq⟩ := List.exists_mem_of_ne_nil who hne
    obtain ⟨e, hmem, hwon, hbeats⟩ := bestGroup_beats hsorted (List.ne_nil_of_mem (hcandidate q hq))
    rw [hwon] at hbest
    simp only [Option.map_some, Option.getD_some] at hbest
    obtain ⟨hin, hsome⟩ := List.mem_filter.mp hmem
    have hgroup : groupOf who e.1 ≠ [] := by simpa using hsome
    obtain ⟨v, hv⟩ := List.exists_mem_of_ne_nil _ hgroup
    obtain ⟨hvwho, hvgroup⟩ := mem_groupOf.mp hv
    have hcredit : e.2 = k.creditOf who e.1 := by
      obtain ⟨g, -, rfl⟩ := List.mem_map.mp hin
      have := LBank.credits_get (k := k) hvwho
      rwa [hvgroup] at this
    rw [hbest]
    refine ⟨hgroup, .inr ⟨?_, fun p hp => ?_⟩⟩
    · by_cases h0 : 0 ∈ k.hist.take 3
      · exact .inr h0
      · refine .inl fun p hp => ?_
        by_contra hsmall
        exact hturn ⟨hlane.mpr ⟨p, hp, by omega⟩, h0⟩
    · have := hbeats _ (hcandidate p hp)
      rwa [groupBeats, hcredit] at this

end Sys2Proof.Machine
end

section
/-! SUPPORT. What a granted access to the Loft leaves (R402 to R404, R412): the wait of its group, the errors that a read meets, and the
restart of a core whose data are lost. -/

namespace Sys2Proof.Machine

/-! ### The records beside the objects -/

/-- What an access of the Loft reads of the device beside the objects: the clock, the resets, the cores, the banks and the words whose
errors have been reported. -/
def Dev.loftView (d : Dev) : Nat × Rst × Store Core × Store LBank × List Nat := (d.now, d.rst, d.cores, d.lbanks, d.badWords)

theorem Dev.raiseIf_loftView (d : Dev) (c : Bool) (x : Nat) : (d.raiseIf c x).loftView = d.loftView := by
  unfold Dev.raiseIf Dev.raise
  dsimp only
  split_ifs <;> rfl

theorem Dev.lbank_congr {d e : Dev} (h : e.lbanks = d.lbanks) (b : Nat) : e.lbank b = d.lbank b := by
  unfold Dev.lbank
  rw [h]

@[simp] theorem Dev.lbank_setLbank_self (d : Dev) (b : Nat) (r : LBank) : (d.setLbank b r).lbank b = r := Store.get_put_self ..

/-! ### The errors that a read meets (R403, R404) -/

/-- An error is counted, and its word and instant are noted. -/
theorem Dev.eccNote_shows (d : Dev) (a : Nat) {u : Nat} (hu : u < 0x10) :
    (((d.inc 0x2D00 u).eccNote a).obj 0x2D00 u = satInc32 (d.obj 0x2D00 u) ∧ ((d.inc 0x2D00 u).eccNote a).obj 0x2D00 0x10 = a / 8 * 8 ∧
      ((d.inc 0x2D00 u).eccNote a).obj 0x2D00 0x11 = d.now) ∧
    d.sameBut ((d.inc 0x2D00 u).eccNote a) (fun j w => [(0x2D00, u), (0x2D00, 0x10), (0x2D00, 0x11)].contains (j, w)) := by
  unfold Dev.eccNote
  refine ⟨⟨?_, ?_, Dev.obj_setObj_self ..⟩, (((Dev.sameBut_refl d _).inc (by omega) (by simp)).setObj _ (by decide) (by simp)).setObj _
    (by decide) (by simp)⟩
  · rw [Dev.obj_setObj_sub _ _ (by decide) (by omega) (by omega), Dev.obj_setObj_sub _ _ (by decide) (by omega) (by omega)]
    exact Dev.obj_setObj_self ..
  · rw [Dev.obj_setObj_sub _ _ (by decide) (by decide) (by decide), Dev.obj_setObj_self]

theorem Dev.eccBad_regs (d : Dev) (a : Nat) : (d.eccBad a false).regs = ((d.inc 0x2D00 0x0F).eccNote a).regs := by
  unfold Dev.eccBad
  simp only [Bool.false_and, Bool.false_eq_true, if_false]
  exact Dev.raiseIf_regs ..

theorem Dev.eccCorrected_regs (d : Dev) (a : Nat) : (d.eccCorrected a).regs = ((d.inc 0x2D00 0x0E).eccNote a).regs := Dev.raiseIf_regs ..

/-- The record of a bank whose word awaits its rewrite. -/
def LBank.rewriting (k : LBank) (a : Nat) : LBank := { k with rewrite := a / 8 * 8 :: k.rewrite }

theorem Dev.eccCorrected_view (d : Dev) (a : Nat) :
    (d.eccCorrected a).loftView = (d.setLbank (loftBank a) ((d.lbank (loftBank a)).rewriting a)).loftView := Dev.raiseIf_loftView ..

/-- An error that a read reports touches no core and no reset, and its word is known for one. -/
theorem Dev.eccBad_view (d : Dev) (a : Nat) : (d.eccBad a false).now = d.now ∧ (d.eccBad a false).rst = d.rst ∧
    (d.eccBad a false).cores = d.cores ∧ ∀ w ∈ d.badWords, w ∈ (d.eccBad a false).badWords := by
  obtain ⟨e, hview, hrest⟩ : ∃ e : Dev, (d.eccBad a false).loftView = e.loftView ∧ e.now = d.now ∧ e.rst = d.rst ∧ e.cores = d.cores ∧
      ∀ w ∈ d.badWords, w ∈ e.badWords := by
    unfold Dev.eccBad
    simp only [Bool.false_and, Bool.false_eq_true, if_false]
    refine ⟨_, Dev.raiseIf_loftView .., rfl, rfl, rfl, fun w hw => ?_⟩
    change w ∈ if d.badWords.contains (a / 8 * 8) then d.badWords else a / 8 * 8 :: d.badWords
    split_ifs
    · exact hw
    · exact List.mem_cons_of_mem _ hw
  obtain ⟨hnow, hrst, hcores, hbad⟩ := hrest
  unfold Dev.loftView at hview
  simp only [Prod.mk.injEq] at hview
  obtain ⟨hn, hr, hc, -, hb⟩ := hview
  exact ⟨hn.trans hnow, hr.trans hrst, hc.trans hcores, fun w hw => hb ▸ hbad w hw⟩

/-- What the error means for its requester changes no object of the Loft. -/
theorem Dev.eccRequester_loft (d : Dev) (r : LoftReq) {u : Nat} (hu : u < 256) : (d.eccRequester r).obj 0x2D00 u = d.obj 0x2D00 u := by
  have hcapture : ∀ k, (d.eccCapture k).regs = d.regs := fun k => by
    unfold Dev.eccCapture
    dsimp only
    split <;> rfl
  have hframe : ∀ p, (d.eccFrame p).regs = (d.inc (0x1100 + p) 0x05).regs := fun p => by
    unfold Dev.eccFrame
    dsimp only
    split
    · rfl
    · split <;> rfl
  unfold Dev.eccRequester
  dsimp only
  split_ifs
  · exact Dev.obj_congr (hcapture _) ..
  · rfl
  · rw [Dev.obj_congr (hframe _), Dev.obj_inc _ (by decide) hu, if_neg (by rintro ⟨h, -⟩; omega)]
  · rfl
  · exact (d.dmaEcc_stops _ _).2 _ _ hu (by simp; omega)
  · rfl

/-- A core's error has no other consequence here. -/
theorem Dev.eccRequester_core (d : Dev) {r : LoftReq} (h : 26 ≤ r.who.val ∧ r.who.val < 30) : d.eccRequester r = d := by
  unfold Dev.eccRequester
  dsimp only
  rw [if_neg (by omega), if_neg (by simp; omega), if_neg (by simp; omega)]

theorem Dev.eccRequester_dma (d : Dev) {r : LoftReq} (h : 30 ≤ r.who.val ∧ r.who.val < 46) :
    d.eccRequester r = d.dmaEcc (r.who.val - 30) r.addr := by
  unfold Dev.eccRequester
  dsimp only
  rw [if_neg (by omega), if_neg (by simp; omega), if_pos (by simp; omega)]

/-! ### A granted access (R402, R412) -/

/-- A request that reads: a read, or the read half of a partial write. -/
def reqReads (r : LoftReq) : Prop := r.data = none ∨ r.size < 8

/-- A request meets an uncorrectable error. -/
def Dev.Loses (d : Dev) (r : LoftReq) : Prop := r.ecc = 2 ∨ d.meetsBad r.addr r.size = true

/-- The longest wait of the request's group, with this one. -/
def Dev.waited (d : Dev) (r : LoftReq) : Nat := max (d.obj 0x2D00 (0x14 + loftGroup r.who)) (min 0xFFFFFFFF (d.now - r.since))

/-- The device once the grant is noted: the wait, and the second slot of a partial write. -/
def Dev.grantNoted (d : Dev) (b : Nat) (r : LoftReq) : Dev :=
  let e := (d.accessBy (loftMaster r.who.val)).setObj 0x2D00 (0x14 + loftGroup r.who.val) (d.waited r)
  if r.data.isSome && decide (r.size < 8) then
    e.setLbank b { (e.lbank b) with since := (e.lbank b).since + 1, hist := (loftGroup r.who.val :: (e.lbank b).hist).take 3 }
  else e

/-- The device once a write has gone to the word: an error of a word written whole is gone. -/
def Dev.grantWritten (d : Dev) (r : LoftReq) : Dev := if r.data.isSome then d.eccWritten r.addr r.size else d

/-- What a request meets as it is granted. -/
def Dev.grantMet (d : Dev) (r : LoftReq) (lost : Bool) : Dev :=
  if (r.data.isNone || (r.data.isSome && decide (r.size < 8))) && (decide (r.ecc = 2) || lost) then
    (d.eccBad r.addr false).eccRequester r
  else if (r.data.isNone || (r.data.isSome && decide (r.size < 8))) && decide (r.ecc = 1) then d.eccCorrected r.addr else d

theorem Dev.grantNoted_rest (d : Dev) (b : Nat) (r : LoftReq) :
    (d.grantNoted b r).regs = (d.setObj 0x2D00 (0x14 + loftGroup r.who) (d.waited r)).regs ∧ (d.grantNoted b r).now = d.now ∧
      (d.grantNoted b r).rst = d.rst ∧ (d.grantNoted b r).cores = d.cores ∧ (d.grantNoted b r).badWords = d.badWords := by
  unfold Dev.grantNoted
  dsimp only
  split <;> exact ⟨rfl, rfl, rfl, rfl, rfl⟩

theorem Dev.grantWritten_rest (d : Dev) (r : LoftReq) : (d.grantWritten r).regs = d.regs ∧ (d.grantWritten r).now = d.now ∧
    (d.grantWritten r).rst = d.rst ∧ (d.grantWritten r).cores = d.cores ∧ (d.grantWritten r).lbanks = d.lbanks := by
  unfold Dev.grantWritten
  split <;> exact ⟨rfl, rfl, rfl, rfl, rfl⟩

theorem Dev.loftGrant_eq (d : Dev) (b : Nat) (r : LoftReq) :
    d.loftGrant b r = ((d.grantNoted b r).grantMet r (d.meetsBad r.addr r.size)).grantWritten r := by
  have hmeets : (d.grantNoted b r).meetsBad r.addr r.size = d.meetsBad r.addr r.size := by
    unfold Dev.meetsBad
    rw [(d.grantNoted_rest b r).2.2.2.2]
  rw [← hmeets]
  rfl

/-! ### What the request meets -/

theorem reqReads_iff (r : LoftReq) : (r.data.isNone || (r.data.isSome && decide (r.size < 8))) = true ↔ reqReads r := by
  unfold reqReads
  cases r.data <;> simp

theorem Dev.loses_iff (d : Dev) (r : LoftReq) : (decide (r.ecc = 2) || d.meetsBad r.addr r.size) = true ↔ d.Loses r := by
  simp [Dev.Loses]

theorem Dev.grantMet_lost {d e : Dev} {r : LoftReq} (hlost : d.Loses r) (hreads : reqReads r) :
    e.grantMet r (d.meetsBad r.addr r.size) = (e.eccBad r.addr false).eccRequester r :=
  if_pos (by rw [Bool.and_eq_true]; exact ⟨(reqReads_iff r).mpr hreads, (d.loses_iff r).mpr hlost⟩)

theorem Dev.grantMet_corrected {d e : Dev} {r : LoftReq} (hkept : ¬d.Loses r) (hone : r.ecc = 1) (hreads : reqReads r) :
    e.grantMet r (d.meetsBad r.addr r.size) = e.eccCorrected r.addr :=
  (if_neg (by rw [Bool.and_eq_true, d.loses_iff r]; exact fun h => hkept h.2)).trans
    (if_pos (by rw [Bool.and_eq_true, reqReads_iff r]; exact ⟨hreads, decide_eq_true hone⟩))

theorem Dev.grantMet_clean {d e : Dev} {r : LoftReq} (hkept : ¬d.Loses r ∨ ¬reqReads r) (hclean : r.ecc ≠ 1 ∨ ¬reqReads r) :
    e.grantMet r (d.meetsBad r.addr r.size) = e :=
  (if_neg (by rw [Bool.and_eq_true, d.loses_iff r, reqReads_iff r]; exact fun h => hkept.elim (· h.2) (· h.1))).trans
    (if_neg (by rw [Bool.and_eq_true, reqReads_iff r, decide_eq_true_eq]; exact fun h => hclean.elim (· h.2) (· h.1)))

/-- A write ends no error but of a word that it writes whole. -/
theorem Dev.grantWritten_meets {d : Dev} {r : LoftReq} (h : (d.grantWritten r).Loses r) : d.Loses r := by
  rcases h with h | h
  · exact .inl h
  · refine .inr ?_
    unfold Dev.grantWritten at h
    split at h
    · obtain ⟨w, hw, hmeets⟩ := List.any_eq_true.mp h
      exact List.any_eq_true.mpr ⟨w, (List.mem_filter.mp hw).1, hmeets⟩
    · exact h

/-- A request that reads writes no word whole: the error that it met is still known. -/
theorem Dev.grantWritten_keeps {d : Dev} {r : LoftReq} (hreads : reqReads r) (h : d.Loses r) : (d.grantWritten r).Loses r := by
  rcases h with h | h
  · exact .inl h
  · refine .inr ?_
    unfold Dev.grantWritten
    split
    · next hdata =>
      have hpart : r.size < 8 := hreads.resolve_left (Option.isSome_iff_ne_none.mp hdata)
      obtain ⟨w, hw, hmeets⟩ := List.any_eq_true.mp h
      exact List.any_eq_true.mpr ⟨w, List.mem_filter.mpr ⟨hw, decide_eq_true (by omega)⟩, hmeets⟩
    · exact h

/-! ### A core's loss (R404, R460) -/

theorem Dev.eccCore_none {d : Dev} {r : LoftReq} (h : r.who.val < 26 ∨ 30 ≤ r.who.val ∨ ¬d.Loses r ∨ ¬reqReads r) : d.eccCore r = d := by
  refine if_neg ?_
  rintro ⟨hlo, hhi, hlost, -, hreads⟩
  have hr : reqReads r := by simpa [reqReads] using hreads
  rcases h with h | h | h | h
  · omega
  · omega
  · exact h hlost
  · exact h hr

theorem Dev.raiseIf_cores (d : Dev) (c : Bool) (x : Nat) : (d.raiseIf c x).cores = d.cores := by
  unfold Dev.raiseIf
  split
  · exact Dev.raise_cores ..
  · rfl

theorem Dev.logEvent_cores (d : Dev) (cls cause src data : Nat) : (d.logEvent cls cause src data).now = d.now ∧
    (d.logEvent cls cause src data).cores = d.cores := by
  unfold Dev.logEvent
  dsimp only
  split
  · exact ⟨Dev.raiseIf_now .., Dev.raiseIf_cores ..⟩
  · exact ⟨rfl, rfl⟩

/-- A core other than C0 that restarts for less than the third time in 60 s is down. -/
theorem Dev.coreRestart_down {d : Dev} {c : Nat} (hc : c ≠ 0)
    (hfew : ((d.core c).restarts.filter (fun a => decide (d.now < a + 60 * tqSec))).length < 2) : ((d.coreRestart c).core c).down = true := by
  unfold Dev.coreRestart
  dsimp only
  rw [if_neg hc, if_neg (by rw [List.length_cons]; omega)]
  rw [Dev.core_congr (Dev.raiseIf_cores ..)]
  exact congrArg Core.down (Dev.core_setCore_self ..)

end Sys2Proof.Machine
end

section
/-! SUPPORT. The slot of a Loft bank (R402 to R404, R410, R412): what a granted request leaves, whatever it meets. -/

namespace Sys2Proof.Machine

section
variable {d : Dev} {b : Nat} {r : LoftReq}

/-! ### The grant's outcomes -/

theorem Dev.grantNoted_loses (h : (d.grantNoted b r).Loses r) : d.Loses r := by
  unfold Dev.Loses Dev.meetsBad at h ⊢
  rwa [(d.grantNoted_rest b r).2.2.2.2] at h

theorem Dev.eccCorrected_loses {a : Nat} (h : (d.eccCorrected a).Loses r) : d.Loses r := by
  have hview := d.eccCorrected_view a
  unfold Dev.loftView at hview
  simp only [Prod.mk.injEq] at hview
  obtain ⟨-, -, -, -, hbad⟩ := hview
  unfold Dev.Loses Dev.meetsBad at h ⊢
  rwa [hbad] at h

theorem Dev.grant_clean (hkept : ¬d.Loses r ∨ ¬reqReads r) (hclean : r.ecc ≠ 1 ∨ ¬reqReads r) :
    (d.loftGrant b r).eccCore r = (d.grantNoted b r).grantWritten r := by
  rw [Dev.loftGrant_eq, Dev.grantMet_clean hkept hclean]
  refine Dev.eccCore_none (.inr (.inr (hkept.imp_left fun h hlost => h ?_)))
  exact Dev.grantNoted_loses (Dev.grantWritten_meets hlost)

theorem Dev.grant_corrected (hkept : ¬d.Loses r) (hone : r.ecc = 1) (hreads : reqReads r) :
    (d.loftGrant b r).eccCore r = ((d.grantNoted b r).eccCorrected r.addr).grantWritten r := by
  rw [Dev.loftGrant_eq, Dev.grantMet_corrected hkept hone hreads]
  refine Dev.eccCore_none (.inr (.inr (.inl fun hlost => hkept ?_)))
  exact Dev.grantNoted_loses (Dev.eccCorrected_loses (Dev.grantWritten_meets hlost))

/-- The wait of the request's group, as the grant leaves it. -/
theorem Dev.grantNoted_waits : (d.grantNoted b r).obj 0x2D00 (0x14 + loftGroup r.who) = d.waited r ∧
    d.sameBut (d.grantNoted b r) (fun j w => [(0x2D00, 0x14 + loftGroup r.who)].contains (j, w)) := by
  obtain ⟨hregs, -⟩ := d.grantNoted_rest b r
  have hgroup := loftGroup_lt r.who
  exact ⟨(Dev.obj_congr hregs ..).trans (Dev.obj_setObj_self ..),
    ((Dev.sameBut_refl d _).setObj _ (by omega) (by simp)).regs hregs⟩

/-- The bank's slots, as the grant leaves them: a partial write takes a second one. -/
theorem Dev.grantNoted_slots : ((d.grantNoted b r).lbank b).credit = (d.lbank b).credit ∧
    ((d.grantNoted b r).lbank b).since = (d.lbank b).since + (if r.data.isSome = true ∧ r.size < 8 then 1 else 0) := by
  unfold Dev.grantNoted
  dsimp only
  split
  · next hpart =>
    rw [Dev.lbank_setLbank_self, if_pos (by simpa using hpart)]
    exact ⟨rfl, rfl⟩
  · next hpart =>
    rw [if_neg (by simpa using hpart)]
    exact ⟨rfl, rfl⟩

theorem Dev.grantWritten_lbank (e : Dev) : (e.grantWritten r).lbank b = e.lbank b :=
  Dev.lbank_congr (e.grantWritten_rest r).2.2.2.2 b

theorem Dev.eccCorrected_lbank (e : Dev) (hbank : loftBank r.addr = b) :
    (e.eccCorrected r.addr).lbank b = (e.lbank b).rewriting r.addr := by
  have hview := e.eccCorrected_view r.addr
  unfold Dev.loftView at hview
  simp only [Prod.mk.injEq] at hview
  obtain ⟨-, -, -, hbanks, -⟩ := hview
  rw [Dev.lbank_congr hbanks, hbank, Dev.lbank_setLbank_self]

/-- A corrected error shows in its counter, its address and its instant. -/
theorem Dev.grant_corrected_shows {u : Dev} (hu : u = ((d.grantNoted b r).eccCorrected r.addr).grantWritten r) :
    (u.obj 0x2D00 0x0E = satInc32 (d.obj 0x2D00 0x0E) ∧ u.obj 0x2D00 0x10 = r.addr / 8 * 8 ∧ u.obj 0x2D00 0x11 = d.now) ∧
      u.obj 0x2D00 (0x14 + loftGroup r.who) = d.waited r ∧
      d.sameBut u (fun j w => [(0x2D00, 0x14 + loftGroup r.who), (0x2D00, 0x0E), (0x2D00, 0x10), (0x2D00, 0x11)].contains (j, w)) := by
  have hgroup := loftGroup_lt r.who
  obtain ⟨hwait, hsame⟩ := Dev.grantNoted_waits (d := d) (b := b) (r := r)
  obtain ⟨-, hnow, -⟩ := d.grantNoted_rest b r
  obtain ⟨⟨hcount, haddr, htime⟩, hnoted⟩ := (d.grantNoted b r).eccNote_shows r.addr (u := 0x0E) (by decide)
  have hregs : u.regs = (((d.grantNoted b r).inc 0x2D00 0x0E).eccNote r.addr).regs := by
    rw [hu]
    exact (Dev.grantWritten_rest ..).1.trans (Dev.eccCorrected_regs ..)
  refine ⟨⟨?_, ?_, ?_⟩, ?_, ?_⟩
  · rw [Dev.obj_congr hregs, hcount, hsame _ _ (by decide) (by simp; omega)]
  · rw [Dev.obj_congr hregs, haddr]
  · rw [Dev.obj_congr hregs, htime, hnow]
  · rw [Dev.obj_congr hregs, hnoted _ _ (by omega) (by simp; omega), hwait]
  · exact ((hsame.mono (fun j w hw => contains_of_subset (by simp) hw)).trans
      (hnoted.mono (fun j w hw => contains_of_subset (by simp) hw))).regs hregs

/-- An error that a requester other than a core meets is counted and noted (R404). -/
theorem Dev.grant_lost (hlost : d.Loses r) (hreads : reqReads r) (hwho : r.who.val < 26 ∨ 30 ≤ r.who.val) {u : Dev}
    (hu : u = (d.loftGrant b r).eccCore r) : u.obj 0x2D00 0x0F = satInc32 (d.obj 0x2D00 0x0F) ∧ u.obj 0x2D00 0x10 = r.addr / 8 * 8 ∧
      u.obj 0x2D00 0x11 = d.now ∧ (30 ≤ r.who.val → r.who.val < 46 → u.obj (0x2D10 + (r.who.val - 30)) 0x16 = 0 ∧
        u.bit (0x2D10 + (r.who.val - 30)) 0x17 3 = true ∧ u.bit (0x2D10 + (r.who.val - 30)) 0x17 4 = true ∧
        u.obj (0x2D10 + (r.who.val - 30)) 0x1D = r.addr) := by
  have hgroup := loftGroup_lt r.who
  rw [Dev.eccCore_none (by tauto), Dev.loftGrant_eq, Dev.grantMet_lost hlost hreads] at hu
  have hregs : u.regs = (((d.grantNoted b r).eccBad r.addr false).eccRequester r).regs := by
    rw [hu]
    exact (Dev.grantWritten_rest ..).1
  obtain ⟨-, hsame⟩ := Dev.grantNoted_waits (d := d) (b := b) (r := r)
  obtain ⟨-, hnow, -⟩ := d.grantNoted_rest b r
  obtain ⟨⟨hcount, haddr, htime⟩, -⟩ := (d.grantNoted b r).eccNote_shows r.addr (u := 0x0F) (by decide)
  have hloft : ∀ w < 256, u.obj 0x2D00 w = (((d.grantNoted b r).inc 0x2D00 0x0F).eccNote r.addr).obj 0x2D00 w := fun w hw => by
    rw [Dev.obj_congr hregs, Dev.eccRequester_loft _ _ hw, Dev.obj_congr (Dev.eccBad_regs ..)]
  refine ⟨?_, ?_, ?_, fun hlo hhi => ?_⟩
  · rw [hloft _ (by decide), hcount, hsame _ _ (by decide) (by simp; omega)]
  · rw [hloft _ (by decide), haddr]
  · rw [hloft _ (by decide), htime, hnow]
  · rw [Dev.eccRequester_dma _ ⟨hlo, hhi⟩] at hregs
    obtain ⟨⟨hidle, haborted, hshown, hwhere⟩, -⟩ := ((d.grantNoted b r).eccBad r.addr false).dmaEcc_stops (r.who.val - 30) r.addr
    rw [Dev.obj_congr hregs, Dev.bit_congr hregs, Dev.bit_congr hregs, Dev.obj_congr hregs]
    exact ⟨hidle, haborted, hshown, hwhere⟩

/-- An error in the data of a core that runs restarts it (R404, R460). -/
theorem Dev.grant_coreLost (hlost : d.Loses r) (hreads : reqReads r) (hwho : 26 < r.who.val ∧ r.who.val < 30) (hrun : d.coresRun = true)
    (hfew : ((d.core (r.who.val - 26)).restarts.filter (fun a => decide (d.now < a + 60 * tqSec))).length < 2) :
    (((d.loftGrant b r).eccCore r).core (r.who.val - 26)).down = true := by
  rw [Dev.loftGrant_eq, Dev.grantMet_lost hlost hreads, Dev.eccRequester_core _ ⟨by omega, hwho.2⟩]
  obtain ⟨-, hnow, hrst, hcores, hbad⟩ := d.grantNoted_rest b r
  obtain ⟨-, hsame⟩ := Dev.grantNoted_waits (d := d) (b := b) (r := r)
  obtain ⟨hbnow, hbrst, hbcores, hbkept⟩ := (d.grantNoted b r).eccBad_view r.addr
  generalize hf : ((d.grantNoted b r).eccBad r.addr false).grantWritten r = f
  have hview := ((d.grantNoted b r).eccBad r.addr false).grantWritten_rest r
  rw [hf] at hview
  obtain ⟨hfregs, hfnow, hfrst, hfcores, -⟩ := hview
  have hfinds : f.Loses r := by
    rw [← hf]
    refine Dev.grantWritten_keeps hreads (hlost.imp_right fun h => ?_)
    obtain ⟨w, hw, hmeets⟩ := List.any_eq_true.mp h
    exact List.any_eq_true.mpr ⟨w, hbkept w (hbad ▸ hw), hmeets⟩
  have hphase : f.obj 0x2F00 0x01 = d.obj 0x2F00 0x01 := by
    rw [Dev.obj_congr hfregs, Dev.obj_congr (Dev.eccBad_regs ..), ((d.grantNoted b r).eccNote_shows r.addr (u := 0x0F) (by decide)).2 _ _ (by decide)
      (by decide), hsame _ _ (by decide) (by simp)]
  have hfrun : f.coresRun = true := by
    have hr : f.rst = d.rst := hfrst.trans (hbrst.trans hrst)
    unfold Dev.coresRun at hrun ⊢
    rwa [hphase, hr]
  have hcore : f.eccCore r = (f.logEvent 6 (r.who.val - 26) 0xFF r.addr).coreRestart (r.who.val - 26) :=
    if_pos ⟨by omega, hwho.2, hfinds, hfrun, by simpa [reqReads] using hreads⟩
  rw [hcore]
  obtain ⟨hlnow, hlcores⟩ := f.logEvent_cores 6 (r.who.val - 26) 0xFF r.addr
  refine Dev.coreRestart_down (by omega) ?_
  rw [hlnow, hfnow, hbnow, hnow, Dev.core_congr (hlcores.trans (hfcores.trans (hbcores.trans hcores)))]
  exact hfew

end

/-! ### The slot (R410) -/

/-- The credits after a slot: what every group with requesters has gained, less what the winner has paid. -/
theorem LBank.granted_credit (k : LBank) (who : List Nat) {g : Nat} (hg : g < 5) (w : Nat) : (k.granted who g w).credit =
    (List.range 5).map (fun h => (if h ∈ who.map loftGroup then k.creditOf who h else 0) - (if h = g then (who.length : Int) else 0)) := by
  have hsome : ∀ h, (groupOf who h).isEmpty = true ↔ h ∉ who.map loftGroup := fun h => by
    rw [List.isEmpty_iff, List.mem_map]
    exact ⟨fun hnil ⟨q, hq, hgroup⟩ => by simpa [hnil] using mem_groupOf.mpr ⟨hq, hgroup⟩,
      fun hno => List.eq_nil_iff_forall_not_mem.mpr fun q hq => hno ⟨q, mem_groupOf.mp hq⟩⟩
  unfold LBank.granted LBank.credits
  refine List.ext_getElem (by simp) fun h hlo hhi => ?_
  simp only [List.getElem_set, List.getElem_map, List.getElem_range, hsome, ite_not]
  by_cases heq : g = h
  · subst heq
    simp [hg]
  · rw [if_neg heq, if_neg (Ne.symm heq), sub_zero]

/-- The requests at a bank. -/
def requestsAt (b : Nat) (reqs : List LoftReq) : List LoftReq := reqs.filter (fun r => decide (loftBank r.addr = b))

/-- Who waits at a bank. -/
def waitersAt (b : Nat) (reqs : List LoftReq) : List Nat := ((requestsAt b reqs).map (·.who.val)).eraseDups

theorem mem_waitersAt {b : Nat} {reqs : List LoftReq} {w : Nat} : w ∈ waitersAt b reqs ↔ ∃ q ∈ requestsAt b reqs, q.who.val = w := by
  unfold waitersAt
  rw [List.mem_eraseDups, List.mem_map]

/-- What a granted request writes. -/
def writeOf (r : LoftReq) : LoftEff :=
  match r.data with
  | some bs => { writes := [(r.addr, bs)] }
  | none => {}

/-- A slot that is not a requester's. -/
theorem Dev.loftAccess_idle {d : Dev} {b : Nat} {reqs : List LoftReq}
    (h : d.pdOn 2 = false ∨ requestsAt b reqs = [] ∨ 1023 ≤ (d.lbank b).since) : d.loftAccess b reqs = (d, {}) := by
  unfold Dev.loftAccess
  by_cases hon : d.pdOn 2 = false
  · rw [if_pos (by rw [hon]; rfl)]
  · have hnone : (d.lbank b).arbitrate (waitersAt b reqs) = none := by
      refine if_pos ?_
      rw [Bool.or_eq_true, decide_eq_true_eq, decide_eq_true_eq]
      refine (h.resolve_left hon).imp_left fun hnil => ?_
      unfold waitersAt
      rw [hnil]
      rfl
    rw [if_neg (by simpa using hon)]
    change (match (d.lbank b).arbitrate (waitersAt b reqs) with | none => (d, ({} : LoftEff)) | some (w, k) => _) = _
    rw [hnone]

/-- A slot of a requester: the one that the arbiter grants. -/
structure LBank.Grants (k : LBank) (here : List LoftReq) (who : List Nat) (r : LoftReq) : Prop where
  mem : r ∈ here
  group : ((∃ q ∈ here, q.who.val < 16) ∧ 0 ∉ k.hist.take 3 ∧ r.who.val < 16) ∨
    (((∀ q ∈ here, 16 ≤ q.who.val) ∨ 0 ∈ k.hist.take 3) ∧ ∀ q ∈ here, k.creditOf who (loftGroup q.who) < k.creditOf who (loftGroup r.who) ∨
      (k.creditOf who (loftGroup q.who) = k.creditOf who (loftGroup r.who) ∧ loftGroup r.who ≤ loftGroup q.who))
  turn : ∀ q ∈ here, loftGroup q.who = loftGroup r.who →
    turnsAfter r.who (k.lastOf (loftGroup r.who)) ≤ turnsAfter q.who (k.lastOf (loftGroup r.who))

theorem Dev.loftAccess_grants {d : Dev} {b : Nat} {reqs : List LoftReq} (hon : d.pdOn 2 = true) (hne : requestsAt b reqs ≠ [])
    (hsince : (d.lbank b).since < 1023) : ∃ r, (d.lbank b).Grants (requestsAt b reqs) (waitersAt b reqs) r ∧
      d.loftAccess b reqs = (((d.setLbank b ((d.lbank b).granted (waitersAt b reqs) (loftGroup r.who) r.who)).loftGrant b r).eccCore r,
        writeOf r) := by
  have hwho : waitersAt b reqs ≠ [] := by
    obtain ⟨q, hq⟩ := List.exists_mem_of_ne_nil _ hne
    exact List.ne_nil_of_mem (mem_waitersAt.mpr ⟨q, hq, rfl⟩)
  obtain ⟨hgroup, hwins⟩ := LBank.winner_wins (k := d.lbank b) hwho
  have harb := LBank.arbitrate_grants hwho hsince
  obtain ⟨hmember, hfirst⟩ := nextMember_first hgroup (fun w hw => by
    obtain ⟨q, -, rfl⟩ := mem_waitersAt.mp (mem_groupOf.mp hw).1
    exact q.who.isLt) ((d.lbank b).lastOf_le ((d.lbank b).winner (waitersAt b reqs)))
  generalize (d.lbank b).winner (waitersAt b reqs) = g at hgroup hwins harb hmember hfirst
  generalize nextMember (groupOf (waitersAt b reqs) g) ((d.lbank b).lastOf g) = w at harb hmember hfirst
  obtain ⟨hwin, hwgroup⟩ := mem_groupOf.mp hmember
  obtain ⟨q, hq, hqw⟩ := mem_waitersAt.mp hwin
  obtain ⟨r, hfind⟩ : ∃ r, (requestsAt b reqs).find? (fun r => decide (r.who.val = w)) = some r :=
    Option.isSome_iff_exists.mp (List.find?_isSome.mpr ⟨q, hq, decide_eq_true hqw⟩)
  have hrw : r.who.val = w := by simpa using List.find?_some hfind
  have hrin := List.mem_of_find?_eq_some hfind
  have hwaits : ∀ q ∈ requestsAt b reqs, q.who.val ∈ waitersAt b reqs := fun q hq => mem_waitersAt.mpr ⟨q, hq, rfl⟩
  subst hrw
  subst hwgroup
  refine ⟨r, ⟨hrin, ?_, fun q hq hsame => hfirst _ (mem_groupOf.mpr ⟨hwaits q hq, hsame⟩)⟩, ?_⟩
  · rcases hwins with ⟨⟨p, hp, hsmall⟩, hturn, hzero⟩ | ⟨hfree, hmost⟩
    · obtain ⟨q, hq, rfl⟩ := mem_waitersAt.mp hp
      exact .inl ⟨⟨q, hq, hsmall⟩, hturn, (loftGroup_zero _).mp hzero⟩
    · exact .inr ⟨hfree.imp_left fun h q hq => h _ (hwaits q hq), fun q hq => hmost _ (hwaits q hq)⟩
  · unfold Dev.loftAccess
    rw [if_neg (by simp [hon])]
    change (match (d.lbank b).arbitrate (waitersAt b reqs) with
      | none => (d, ({} : LoftEff))
      | some (w, k) => match (requestsAt b reqs).find? (fun (q : LoftReq) => decide (q.who.val = w)) with
        | none => (d, {})
        | some r => (((d.setLbank b k).loftGrant b r).eccCore r, writeOf r)) = _
    rw [harb]
    change (match (requestsAt b reqs).find? (fun (q : LoftReq) => decide (q.who.val = r.who.val)) with
        | none => (d, ({} : LoftEff))
        | some q => (((d.setLbank b _).loftGrant b q).eccCore q, writeOf q)) = _
    rw [hfind]

theorem exec_loftAccess {s : State} {t : Nat} {b : Fin 8} {reqs : List LoftReq}
    (hgood : ∀ q ∈ reqs, q.addr < loftSize ∧ reqSpans q = false) :
    exec (.loftAccess t b reqs) s = onBoth s t (fun _ d => d.loftAccess b reqs) := by
  have hinside : reqs.any reqOutside = false := List.any_eq_false.mpr fun q hq => by
    have := (hgood q hq).1
    simpa [reqOutside] using this
  have hwithin : reqs.any reqSpans = false := List.any_eq_false.mpr fun q hq => by simp [(hgood q hq).2]
  exact (if_neg (by simp [hinside])).trans (if_neg (by simp [hwithin]))

theorem writeOf_none {s : State} {r : LoftReq} (h : r.data = none) : (writeOf r).apply s.loft = s.loft := by
  unfold writeOf
  rw [h]
  rfl

theorem writeOf_some {s u : State} {r : LoftReq} {bs : List Byte} (h : r.data = some bs) (hloft : u.loft = (writeOf r).apply s.loft) :
    s.puts u r.addr bs := fun q => by
  unfold writeOf at hloft
  rw [h] at hloft
  rw [hloft]
  exact loftByte_put ..

/-- What a grant that loses nothing leaves of its bank. -/
theorem Dev.grant_slots {d : Dev} {b : Nat} {r : LoftReq} (hbank : loftBank r.addr = b) (hkept : ¬d.Loses r ∨ ¬reqReads r) {u : Dev}
    (hu : u = (d.loftGrant b r).eccCore r) : u.obj 0x2D00 (0x14 + loftGroup r.who) = d.waited r ∧
      (u.lbank b).credit = (d.lbank b).credit ∧
      (u.lbank b).since = (d.lbank b).since + (if r.data.isSome = true ∧ r.size < 8 then 1 else 0) := by
  obtain ⟨hcredit, hsince⟩ := Dev.grantNoted_slots (d := d) (b := b) (r := r)
  by_cases hmet : r.ecc = 1 ∧ reqReads r
  · rw [Dev.grant_corrected (hkept.resolve_right (fun h => h hmet.2)) hmet.1 hmet.2] at hu
    refine ⟨(Dev.grant_corrected_shows hu).2.1, ?_⟩
    rw [hu, Dev.grantWritten_lbank, Dev.eccCorrected_lbank _ hbank]
    exact ⟨hcredit, hsince⟩
  · rw [Dev.grant_clean hkept (by tauto)] at hu
    rw [hu, Dev.grantWritten_lbank]
    exact ⟨(Dev.obj_congr (Dev.grantWritten_rest ..).1 ..).trans Dev.grantNoted_waits.1, hcredit, hsince⟩

/-- Settles O45: the slot is the scrubber's or that of the request which the arbiter grants; what the request leaves follows from whether it
reads, and from the error that it meets. -/
theorem loftGrants : Obligations.LoftGrants := by
  intro s t b reqs d k here active credit after c hgood
  have hexec := exec_loftAccess (s := s) (t := t) (b := b) hgood
  refine ⟨fun hidle => ?_, fun hon hne hsince => ?_⟩
  · have hnext := State.onBoth_eq (c := c) (f := fun _ d => d.loftAccess b reqs) hexec (Dev.loftAccess_idle hidle)
    exact ⟨_, hnext, rfl, rfl, Dev.sameBut_refl _ _⟩
  · obtain ⟨r, hgrants, haccess⟩ := Dev.loftAccess_grants (d := d) hon hne hsince
    obtain ⟨e, he⟩ : ∃ e, e = d.setLbank b ((d.lbank b).granted (waitersAt b reqs) (loftGroup r.who) r.who) := ⟨_, rfl⟩
    rw [← he] at haccess
    have hnext := State.onBoth_eq (c := c) (f := fun _ d => d.loftAccess b reqs) hexec haccess
    refine ⟨_, hnext, r, hgrants.mem, ?_⟩
    have hbank : loftBank r.addr = b := of_decide_eq_true (List.mem_filter.mp hgrants.mem).2
    have hslot : e.lbank b = k.granted active (loftGroup r.who) r.who := by
      rw [he]
      exact Dev.lbank_setLbank_self ..
    have hregs : e.regs = d.regs := by rw [he]; rfl
    have hnow : e.now = d.now := by rw [he]; rfl
    have hloses : e.Loses r ↔ d.Loses r := by rw [he]; rfl
    have hwaited : e.waited r = d.waited r := by
      unfold Dev.waited
      rw [Dev.obj_congr hregs, hnow]
    have hsame : ∀ {u : Dev} {P : Nat → Nat → Bool}, e.sameBut u P → d.sameBut u P := fun h => (Dev.sameBut_of_regs hregs).trans h
    refine ⟨hgrants.group, hgrants.turn, fun hdata => ?_, fun bs hdata => writeOf_some hdata ?_, fun hkept => ?_, fun hkept hclean => ?_,
      fun hkept hone hreads => ?_, fun hbad hreads hwho => ?_, fun hbad hreads hlo hhi hrun hfew => ?_⟩
    · exact writeOf_none hdata
    · rfl
    · obtain ⟨hwait, hcredit, hsince⟩ := Dev.grant_slots hbank (hkept.imp_left (mt hloses.mp)) (Eq.refl ((e.loftGrant b r).eccCore r))
      rw [hslot] at hcredit hsince
      refine ⟨hwait.trans hwaited, hsince.trans ?_, hcredit.trans (LBank.granted_credit _ _ (loftGroup_lt _) _)⟩
      have hone : (k.granted active (loftGroup r.who) r.who).since = k.since + 1 := rfl
      rw [hone]
      split_ifs <;> omega
    · have hclean' : r.ecc ≠ 1 ∨ ¬reqReads r := hclean.imp_left fun h hone => by rw [h] at hone; cases hone
      have hgrant := Dev.grant_clean (d := e) (b := b) (.inl (mt hloses.mp hkept)) hclean'
      refine hsame ?_
      rw [hgrant]
      exact (Dev.grantNoted_waits.2).regs (Dev.grantWritten_rest ..).1
    · have hgrant := Dev.grant_corrected (d := e) (b := b) (mt hloses.mp hkept) hone hreads
      obtain ⟨⟨hcount, haddr, htime⟩, -, hshown⟩ := Dev.grant_corrected_shows hgrant
      rw [Dev.obj_congr hregs] at hcount
      exact ⟨hsame hshown, hcount, haddr, htime.trans hnow⟩
    · obtain ⟨hcount, haddr, htime, hdma⟩ := Dev.grant_lost (b := b) (hloses.mpr hbad) hreads hwho rfl
      rw [Dev.obj_congr hregs] at hcount
      exact ⟨hcount, haddr, htime.trans hnow, hdma⟩
    · refine Dev.grant_coreLost (hloses.mpr hbad) hreads ⟨hlo, hhi⟩ ?_ ?_
      · rw [← hrun, he]
        rfl
      · rw [hnow, he]
        exact hfew

end Sys2Proof.Machine
end
